-- ==== Sys2Proof/Word.lean ====
section
/-!
DEFINITION. The plain types of the model: bytes, sparse maps, and the register field descriptor. Every multi-byte
field is little-endian (R2); every timestamp is a count of 2.5 ns ticks (R3).
-/
set_option Elab.async false
namespace Sys2Proof

/-- One byte of the tensor space, of a host record or of an image. -/
abbrev Byte := BitVec 8

/-- A sparse map from a number to a value: the keys rise strictly, and the default of the map is never listed
(`Machine.Map.wf`). Addresses, team numbers, slot numbers and the like are the keys. -/
abbrev SMap (α : Type) := List (Nat × α)

/-- The access types of the register tables (chapter 00, "Register access"). -/
inductive Access where
  /-- writes have no effect -/
  | ro
  /-- reads return the last value written or set by hardware -/
  | rw
  /-- reads return 0 -/
  | wo
  /-- writing 1 clears -/
  | w1c
  /-- writing 1 sets -/
  | w1s
  /-- a read returns the value and then clears the field -/
  | rc
  /-- RW until boot lock, then RO (R8) -/
  | rwl
  deriving DecidableEq, Repr

/-- A field of a register: the byte address of its 32-bit word in the register space, its bits, its access type and
its reset value. -/
structure Fld where
  addr : Nat
  msb : Nat
  lsb : Nat
  acc : Access
  reset : Nat
  deriving DecidableEq, Repr

end Sys2Proof
end

