-- ==== Sys2Proof/Syntax.lean ====
section
/-!
DEFINITION. The commands: one constructor per row of spec/opcode_table.json, with the operands that the row's event
carries (an address, a value, a measured quantity, what the other side answers). The table gives no row any bits.
-/
namespace Sys2Proof

/-- A received or sent control header (R314), TYPE and BODY_LEN apart; `vc` is the VC bit of the packet header that a received
one came with (R313). -/
structure CtrlHdr where
  srcPos : Nat
  srcUnit : Nat
  srcInc : Nat
  dstPos : Nat
  dstUnit : Nat
  dstInc : Nat
  seq : Nat
  ackReq : Bool
  part : Nat
  vc : Nat := 0
  deriving DecidableEq, Repr


/-- What one tile's calibration at the start gave (R121, R427): team, tile, the fit of each chain measured, trims, worst
residual, noisy and stuck physical columns. -/
structure SelfFit where
  team : Nat
  tile : Nat
  fits : List (Nat × Int × Int)
  delay : Int
  win : Int
  resid : Nat
  noisy : List Nat
  stuck : List Nat
  deriving DecidableEq, Repr

/-- A management message as it arrives (R477): CRC, MAGIC and LENGTH are right, IDENTITY, PKG_INC, SEQ and REQ_SEQ of its header,
its authorisation block (CHALLENGE and signature) where FLAGS carries AUTH, its IPv6 source address and hop limit. -/
structure MgmtHdr where
  magic : Nat
  identity : Nat
  pkgInc : Nat
  seq : Nat
  length : Nat
  reqSeq : Nat
  auth : Option (List Nat × List Nat)
  crc : Nat
  src : List Nat
  port : Nat
  hop : Nat
  deriving DecidableEq, Repr

/-- A PTP message received (R374): sequence, time in nanoseconds since the epoch, and correction field in 2^-16 ns. A Sync of two steps
has its time in its Follow_Up. -/
inductive PtpMsg where
  | sync (seq : Nat) (twoStep : Bool) (t1 : Nat) (corr : Int)
  | followUp (seq t1 : Nat) (corr : Int)
  | delayResp (seq t4 : Nat) (corr : Int)
  deriving DecidableEq, Repr

/-- A field of a function's configuration space that a read returns: its power state, ATS enable, MSI-X enable with the function mask,
max payload with max read request, ACS control, AER status with its mask, VF Enable with NumVFs, the sizes of BAR4. -/
inductive CfgField where
  | power | ats | msix | sizes | acs | aer | sriov | bar4
  deriving DecidableEq, Repr

/-- A configuration request (R335, R337, R347, R354, R358, R359, R428). -/
inductive ConfigReq where
  /-- a read of a field -/
  | field (fn : Nat) (f : CfgField)
  /-- a write of the power state: D3hot, or D0 -/
  | power (fn : Nat) (d3 : Bool)
  /-- a write of ATS enable; of MSI-X enable and the function mask; of max payload and max read request, as 128 bytes times 2 to the
  code; of ACS control -/
  | ats (fn : Nat) (on : Bool)
  | msix (fn : Nat) (on maskAll : Bool)
  | sizes (fn payload readReq : Nat)
  | acs (fn bits : Nat)
  /-- a write of the AER capability: status bits to clear, and the mask, by severity -/
  | aer (fn clear mask : Nat)
  /-- a read of the identity registers of a function -/
  | identity (fn : Nat)
  /-- a write of VF Enable = 1 and NumVFs to physical function 0's SR-IOV capability -/
  | sriov (numVfs : Nat)
  /-- a write of the Resizable BAR capability: BAR4 of the physical function or of the virtual functions, in GiB -/
  | bar4 (vf : Bool) (gib : Nat)
  /-- any other read, and any other write, as the base specification has them -/
  | read (fn off : Nat)
  | write (fn off value : Nat)
  deriving DecidableEq, Repr

/-- The commands of the block: one constructor per row of the table of operations and events, those with operands first, each part
in the table's order. -/
inductive Instr where
  /-- PERST_N_ASSERT, R424. A low pulse on PERST_N of 1 µs or more resets the device at once, ending any start in progress. Length of the low pulse in ns. -/
  | perstNAssert (ns : Nat)
  /-- RAIL_POWER_LOSS, R507. A rail is lost in any order; causeways close passively and the non-volatile store keeps its previous copies. The rail. -/
  | railPowerLoss (k : Nat)
  /-- RAIL_GOOD, R396. A commanded rail reaches ±5 % of its setpoint, and the next rail starts 100 µs later. The rail. -/
  | railGood (k : Nat)
  /-- RAIL_GOOD_TIMEOUT, R396. A commanded rail misses its 2 ms limit, which fails the start with a RAIL_FAULT record. -/
  | railGoodTimeout (k : Nat) (word : Nat)
  /-- SELF_CAL_END, R427. Every tile has been calibrated in place and the start moves to CAUSEWAY_OPEN. -/
  | selfCalEnd (fits : List SelfFit)
  /-- REGISTER_WRITE, R5. A write to a register field that has no row of its own stores, clears or discards as the field's access type states. Function, BAR, offset, size in bytes, value, whether the TLP is poisoned. -/
  | registerWrite (fn : Nat) (bar : Nat) (off : Nat) (size : Nat) (value : Nat) (poison : Bool)
  /-- READ_CLEAR_COUNTER, R7. A read of an RC field returns its value and then clears it, so an event in the same cycle leaves 1. -/
  | readClearCounter (fn : Nat) (bar : Nat) (off : Nat) (size : Nat)
  /-- LATCHING_LO_READ, R522. A read of a _LO register latches the companion registers that its table names. -/
  | latchingLoRead (fn : Nat) (bar : Nat) (off : Nat) (size : Nat)
  /-- CONFIG_REQUEST, R428. A configuration request is completed with Retry Status until NV_LOAD ends, and served normally from then on. -/
  | configRequest (r : ConfigReq)
  /-- HOST_BAR4_READ, R342. A host read through BAR4 returns mapped data, or completes with Unsupported Request outside the function's reach. -/
  | hostBar4Read (fn : Nat) (off : Nat) (n : Nat)
  /-- HOST_BAR4_WRITE, R18. A host write through BAR4 lands unordered with running steps, or is dropped and logged outside the function's reach. -/
  | hostBar4Write (fn : Nat) (off : Nat) (bytes : List Nat) (poison : Bool)
  /-- MALFORMED_TLP, R359. A malformed TLP is dropped and reported as a fatal error. -/
  | malformedTlp (fn : Nat)
  /-- SLOT_DESCRIPTOR_WRITE, R228. A host write to descriptor bytes is stored, while narrower writes and writes to result windows are discarded. Function, BAR2 offset, bytes, whether the TLP is poisoned. -/
  | slotDescriptorWrite (fn : Nat) (off : Nat) (bytes : List Nat) (poison : Bool)
  /-- ARM, R233. ARM on a FREE slot copies and validates the descriptor and makes the slot ARMED, or FAULTED with BAD_DESC or NOT_IN_SERVICE. The global slot. -/
  | arm (g : Nat)
  /-- CONTINUE, R233. CONTINUE on a DONE slot appends new input and re-arms it, or faults it with NO_CACHE. The global slot. -/
  | continueSlot (g : Nat)
  /-- PAUSE, R233. PAUSE parks an ARMED slot at once, and a RUNNING slot at its step's milepost. The global slot. -/
  | pause (g : Nat)
  /-- RESUME, R233. RESUME returns a PAUSED slot to ARMED. The global slot. -/
  | resume (g : Nat)
  /-- CANCEL, R250. CANCEL makes the slot CANCELLED within 1 µs, discards its rows and releases its pages. The global slot. -/
  | cancel (g : Nat)
  /-- RELEASE, R233. RELEASE frees a DONE, CANCELLED or FAULTED slot and its pages. The global slot. -/
  | release (g : Nat)
  /-- RESULT_PAYLOAD_READ, R237. A read of a result payload returns zeros and counts EARLY_READS, or returns the payload and counts READS when the slot is DONE. Function, slot number in its BAR2, offset and length. -/
  | resultPayloadRead (fn : Nat) (k : Nat) (off : Nat) (n : Nat)
  /-- STEP_PLAN, R241. CC0/CC1 plans a step for one model, reserving pages and chunking prompts. Partition, model, areas of batch, tokens, results (and the twin’s), attention descriptors. -/
  | stepPlan (p : Nat) (m : Nat) (a0 : Nat) (a1 : Nat) (a2 : Nat) (a2b : Nat) (attn : List (List Nat))
  /-- PAGE_WAIT_RETRY, R220. A reclaimed frame is set aside for waiters, and the first waiter is served when its whole need is covered. The global slot. -/
  | pageWaitRetry (g : Nat)
  /-- PAGE_WAIT_EXPIRE, R233. The page-wait limit expires, and the slot ends FAULTED with CACHE_EXHAUSTED. -/
  | pageWaitExpire (g : Nat)
  /-- PAGE_MOVE_COMPLETE, R221. A page move or copy completes and the page record points at the new frame, or stays put after a host DMA error. -/
  | pageMoveComplete (p : Nat) (page : Nat) (err : Bool) (host : List Nat)
  /-- INPUT_PULL_COMPLETE, R232. A prompt chunk's token pull ends, failing the slot with INPUT_DMA on an error. -/
  | inputPullComplete (g : Nat) (err : Bool) (host : List Nat)
  /-- TTL_EXPIRE, R255. A TTL expiry cancels a PAUSED slot, or releases the cache of a DONE slot. The global slot. -/
  | ttlExpire (g : Nat)
  /-- STEP_RECORD, R240. CC0/CC1 posts a step record that sets A0–A3 and starts the sequencer at the model's ENTRY. -/
  | stepRecord (id : Nat)
  /-- NOP, R184. The sequencer does nothing. The sequencer of string x. -/
  | nop (x : Nat)
  /-- LDA, R184. The sequencer loads an address register from the data area. -/
  | lda (x : Nat) (a : Nat) (off : Nat)
  /-- ADDA, R184. The sequencer adds a signed immediate to an address register. -/
  | adda (x : Nat) (a : Nat) (imm : Int)
  /-- LOOP, R184. The sequencer repeats the next LENGTH instructions COUNT times. -/
  | loop (x : Nat) (count : Nat) (len : Nat)
  /-- GOPEN, R156. The sequencer opens the group its descriptor describes, or the open is refused and the step fails. -/
  | gopen (x : Nat) (team : Nat) (a : Nat)
  /-- GCLOSE, R157. The sequencer sets an OPEN group CLOSING. -/
  | gclose (x : Nat) (team : Nat) (group : Nat)
  /-- GWAIT, R184. The sequencer stalls until the group is FREE. -/
  | gwait (x : Nat) (team : Nat) (group : Nat)
  /-- VEC, R177. The sequencer issues edge conversion and evaluation of input vectors on the layer's placements, and retains the inputs. -/
  | vec (x : Nat) (layer : Nat) (group : Nat) (a : Nat) (vectors : Nat)
  /-- GATE, R180. The sequencer reads the top-k entries, writes dispatch lists and fires the chosen experts. -/
  | gate (x : Nat) (set : Nat) (topk : Nat) (inp : Nat) (disp : Nat) (vectors : Nat)
  /-- VU_COPY, R181. The vector unit copies a to d. `half` is FUNC[7]. -/
  | vuCopy (x : Nat) (team : Nat) (half : Bool) (a : Nat) (d : Nat) (count : Nat)
  /-- VU_ADD, R181. The vector unit adds a and b into d. `half` is FUNC[7]. -/
  | vuAdd (x : Nat) (team : Nat) (half : Bool) (a : Nat) (b : Nat) (d : Nat) (count : Nat)
  /-- VU_MUL, R181. The vector unit multiplies a and b into d. `half` is FUNC[7]. -/
  | vuMul (x : Nat) (team : Nat) (half : Bool) (a : Nat) (b : Nat) (d : Nat) (count : Nat)
  /-- VU_FMA, R181. The vector unit computes a × b + d, fused. `half` is FUNC[7]. -/
  | vuFma (x : Nat) (team : Nat) (half : Bool) (a : Nat) (b : Nat) (d : Nat) (count : Nat)
  /-- VU_MAX, R181. The vector unit takes the elementwise maximum of a and b. `half` is FUNC[7]. -/
  | vuMax (x : Nat) (team : Nat) (half : Bool) (a : Nat) (b : Nat) (d : Nat) (count : Nat)
  /-- VU_SUM, R182. The vector unit sums a into d[0] in its fixed order. `half` is FUNC[7]. -/
  | vuSum (x : Nat) (team : Nat) (half : Bool) (a : Nat) (d : Nat) (count : Nat)
  /-- VU_EXP, R181. The vector unit computes e^a. `half` is FUNC[7]. -/
  | vuExp (x : Nat) (team : Nat) (half : Bool) (a : Nat) (d : Nat) (count : Nat)
  /-- VU_RSQRT, R181. The vector unit computes 1 ÷ √a. `half` is FUNC[7]. -/
  | vuRsqrt (x : Nat) (team : Nat) (half : Bool) (a : Nat) (d : Nat) (count : Nat)
  /-- VU_RECIP, R181. The vector unit computes 1 ÷ a. `half` is FUNC[7]. -/
  | vuRecip (x : Nat) (team : Nat) (half : Bool) (a : Nat) (d : Nat) (count : Nat)
  /-- VU_SILU, R181. The vector unit computes SiLU of a. `half` is FUNC[7]. -/
  | vuSilu (x : Nat) (team : Nat) (half : Bool) (a : Nat) (d : Nat) (count : Nat)
  /-- VU_GELU, R181. The vector unit computes GELU of a in tanh form. `half` is FUNC[7]. -/
  | vuGelu (x : Nat) (team : Nat) (half : Bool) (a : Nat) (d : Nat) (count : Nat)
  /-- VU_RMSNORM, R182. The vector unit computes the RMS normalisation of a scaled by b. `half` is FUNC[7]. -/
  | vuRmsnorm (x : Nat) (team : Nat) (half : Bool) (a : Nat) (b : Nat) (d : Nat) (count : Nat)
  /-- VU_SOFTMAX, R182. The vector unit computes the softmax of a. `half` is FUNC[7]. -/
  | vuSoftmax (x : Nat) (team : Nat) (half : Bool) (a : Nat) (d : Nat) (count : Nat)
  /-- VU_ROPE, R181. The vector unit rotates adjacent pairs of a by the angles in b. `half` is FUNC[7]. -/
  | vuRope (x : Nat) (team : Nat) (half : Bool) (a : Nat) (b : Nat) (d : Nat) (count : Nat)
  /-- VU_GATHER, R181. The vector unit gathers a at the indices in b. `half` is FUNC[7]. -/
  | vuGather (x : Nat) (team : Nat) (half : Bool) (a : Nat) (b : Nat) (d : Nat) (count : Nat)
  /-- VU_SCATTER, R182. The vector unit scatters a to the indices in b, with the higher i winning a collision. `half` is FUNC[7]. -/
  | vuScatter (x : Nat) (team : Nat) (half : Bool) (a : Nat) (b : Nat) (d : Nat) (count : Nat)
  /-- VU_SCORE, R203. SCORE appends tentative keys and values, writes the score page and row statistics, and pins the pages. `half` is FUNC[7]. -/
  | vuScore (x : Nat) (team : Nat) (half : Bool) (a : Nat) (b : Nat) (d : Nat) (count : Nat)
  /-- VU_VALUE, R204. VALUE normalises the score page when needed, forms the outputs, updates importance and unpins the pages. `half` is FUNC[7]. -/
  | vuValue (x : Nat) (team : Nat) (half : Bool) (a : Nat) (b : Nat) (d : Nat) (count : Nat)
  /-- VU_TO_MX, R161. The vector unit converts a to an MX format at d. `half` is FUNC[7]; `fmt` the MX format of FUNC. -/
  | vuToMx (x : Nat) (team : Nat) (half : Bool) (fmt : Nat) (a : Nat) (d : Nat) (count : Nat)
  /-- VU_FROM_MX, R182. The vector unit decodes an MX tensor at a into d. `half` is FUNC[7]; `fmt` the MX format of FUNC. -/
  | vuFromMx (x : Nat) (team : Nat) (half : Bool) (fmt : Nat) (a : Nat) (d : Nat) (count : Nat)
  /-- LOADM, R188. The sequencer writes a staged model's placements into their open planes, or the step fails with PLANE_BUSY. -/
  | loadm (x : Nat) (model : Nat)
  /-- LOADM_COMPLETE, R189. A LOADM finishes and releases the SWAP or SWAPAT of the same model that waited for it. `remote`: records by index in the staged copy that a neighbour tier delivered. -/
  | loadmComplete (x : Nat) (model : Nat) (remote : List (Nat × List Nat))
  /-- SWAP, R188. The sequencer issues a swap of every role of the model at its next vector boundary. -/
  | swapPlanes (x : Nat) (model : Nat)
  /-- SWAPAT, R188. The sequencer issues a swap that takes effect at the first beat boundary at or after a waymark time. -/
  | swapat (x : Nat) (model : Nat) (a : Nat)
  /-- SIGNAL, R184. The sequencer raises a string's flag by 1 once its earlier VU writes have landed. -/
  | signal (x : Nat) (str : Nat) (flag : Nat)
  /-- WAITF, R184. The sequencer stalls until the flag reaches COUNT, then subtracts COUNT. -/
  | waitf (x : Nat) (flag : Nat) (count : Nat)
  /-- COLL, R324. The sequencer starts the collective described at A(a) on the member packages. -/
  | coll (x : Nat) (a : Nat)
  /-- MILEPOST, R186. The sequencer ends its part of the step and reports completion with its TAG, after any armed dump. String and TAG. -/
  | milepost (x : Nat) (tag : Nat)
  /-- END, R184. The sequencer idles until the next step record. -/
  | seqEnd (x : Nat)
  /-- BAD_INSTRUCTION_FETCH, R184. A fetch beyond the code, of an illegal word or meeting a UE stops the step and fails it without replay. -/
  | badInstructionFetch (x : Nat)
  /-- EXPERT_CALL_TIMEOUT, R329. No EXPERT_DONE within COLL_TIMEOUT makes the caller call once more, and a second timeout fails the step. -/
  | expertCallTimeout (id : Nat)
  /-- EDGE_CONVERT, R142. The edge converter turns one 1,024-row segment into pulses on a common scale after extracting outliers. -/
  | edgeConvert (t : Nat)
  /-- SPLIT_STALL_END, R94. The SPLIT stall's vector periods expire and the team's input resumes. -/
  | splitStallEnd (t : Nat)
  /-- BEAT_BOUNDARY, R64. At every 20 ns beat boundary each tile latches its codes, sends its records and starts the next beat under the rein. -/
  | beatBoundary (wrong : List (Nat × Nat × Nat × Int)) (missing : List (Nat × Nat × Nat))
  /-- TILE_RECORD_ARRIVE, R66. A tile record reaches the phase combiner, which forms V and adds it to the narrow adder. -/
  | tileRecordArrive (t : Nat)
  /-- OUTRIDER_DELIVERY, R91. The outrider delivers a vector's outlier and repair contributions to its accumulation group. -/
  | outriderDelivery (t : Nat)
  /-- GROUP_CLOSE_COMPLETE, R157. Once every contribution and delivery has arrived, the group writes its MX output and top-k and becomes FREE. -/
  | groupCloseComplete (t : Nat) (g : Nat)
  /-- ACC_ABANDON, R158. ACC_CTRL.ABANDON frees one group without close actions while the team is stopped or quiesced. -/
  | accAbandon (t : Nat) (g : Nat)
  /-- MILEPOST_REACHED, R162. With every sequencer done and every group free, the step commits, releases inputs and passes to CC0/CC1. The step. -/
  | milepostReached (id : Nat)
  /-- REPLAY_START, R165. The replay abandons open groups, recomputes the offending layers' scales and restarts the strings. The step. -/
  | replayStart (id : Nat)
  /-- PLANE_WRITE, R72. A write reaches a tile's open plane through its write port, with check bits computed, or is dropped for a live plane. The write port of tile k of team t: plane, byte offset in the record of R260, bytes. -/
  | planeWrite (t : Nat) (k : Nat) (plane : Nat) (off : Nat) (bytes : List Nat)
  /-- DRAIN_END, R75. The last outrider read tagged before the swap completes, and the open plane accepts its held writes. -/
  | drainEnd (t : Nat) (k : Nat)
  /-- TEAM_SWAP_GO, R74. TEAM_SWAP.GO issues a swap of the roles in TEAM_SWAP_MASK to PLANE. -/
  | teamSwapGo (t : Nat) (plane : Nat)
  /-- TEAM_STOP, R81. TEAM_CTRL.STOP stops or resumes beat issue at the next vector boundary. -/
  | teamStop (t : Nat) (stop : Bool)
  /-- TEAM_CNT_FREEZE, R81. TEAM_CTRL.CNT_FREEZE holds or releases every counter of the team window. -/
  | teamCntFreeze (t : Nat) (freeze : Bool)
  /-- SAMPLE_DUE, R97. A role's sampling interval selects a beat by the pseudo-random sequence for a sampled check. -/
  | sampleDue (t : Nat) (r : Nat)
  /-- FORCED_CHECK, R100. A due sample that has waited half its interval stalls the team's input to run. -/
  | forcedCheck (t : Nat) (r : Nat)
  /-- CHECK_LATE, R100. A sample still incomplete at the end of its interval sets CHECK_LATE and reports a UE fault of the team. -/
  | checkLate (t : Nat) (r : Nat)
  /-- SAMPLE_COMPLETE, R99. A sampled check grades every code as within, near or far, and passes or fails the sample. -/
  | sampleComplete (t : Nat) (r : Nat) (lanes : List (Nat × Nat × Int))
  /-- ARB_CODE_CHECK_DONE, R104. The code check of the sample's rows ends with WEIGHT_CE, WEIGHT_UE or the reference recompute. -/
  | arbCodeCheckDone (t : Nat)
  /-- ARB_REFERENCE_DONE, R104. The reference recompute ends, giving OUTRIDER_FAULT on disagreement or moving to the spare run. -/
  | arbReferenceDone (t : Nat) (agrees : Bool)
  /-- ARB_SPARE_LOAD_DONE, R104. The sampled plane has been copied into an idle spare, which then runs the kept input. -/
  | arbSpareLoadDone (t : Nat)
  /-- ARB_SPARE_RUN_DONE, R105. The spare's codes are graded and the verdict is reached. -/
  | arbSpareRunDone (t : Nat) (wrong : List (Nat × Int))
  /-- ARB_NO_SPARE_TIMEOUT, R105. No spare is idle after 50 µs, so arbitration runs the self-test toward NO_SPARE. -/
  | arbNoSpareTimeout (t : Nat)
  /-- OUTRIDER_SELFTEST_DONE, R106. The outrider self-test ends after 16 µs and records whether it passed. -/
  | outriderSelftestDone (t : Nat) (pass : Bool)
  /-- OUTR_SAMPLE, R97. OUTR_CTRL.SAMPLE samples the role's next evaluated beat. -/
  | outrSample (t : Nat) (r : Nat)
  /-- OUTR_SELFTEST, R106. OUTR_CTRL.SELFTEST runs the self-test, or is refused unless the team is stopped or quiesced. -/
  | outrSelftest (t : Nat)
  /-- OUTR_REF_GO, R103. OUTR_REF_CTRL.GO starts a reference run, or refuses it with REF_BAD. -/
  | outrRefGo (t : Nat) (w : Nat)
  /-- REFERENCE_RUN_DONE, R102. A reference run writes its exact sums and ideal codes and sets DONE. -/
  | referenceRunDone (t : Nat)
  /-- ROTATION_VISIT, R126. At each ROT_PERIOD ÷ M interval the team calibrates its next tile, or retries in 100 ms without a spare. -/
  | rotationVisit (t : Nat)
  /-- CAL_LATE, R126. A tile not calibrated within twice ROT_PERIOD sets CAL_ERR.LATE. -/
  | calLate (t : Nat)
  /-- CAL_REQUEST, R126. CAL_CTRL.REQUEST calibrates TILE ahead of rotation. -/
  | calRequest (t : Nat) (k : Nat)
  /-- CAL_ABANDON, R120. CAL_CTRL.ABANDON abandons the calibration in progress and returns the role. -/
  | calAbandon (t : Nat)
  /-- CAL_HOLD, R126. CAL_CTRL.HOLD suspends or resumes rotation after the calibration in progress. -/
  | calHold (t : Nat) (hold : Bool)
  /-- TAKEOVER_COPY_DONE, R117. A take-over copy of the role's planes into a spare completes. -/
  | takeoverCopyDone (t : Nat)
  /-- TAKEOVER_MOVE, R118. At the first vector boundary after the copy the spare serves the role and the released tile is out of service. -/
  | takeoverMove (t : Nat)
  /-- CAL_GATE_DONE, R121. The CALREF gate count completes and new trims are applied to settle for 1 µs. The trims that bring both ring counts to their targets. -/
  | calGateDone (t : Nat) (delay : Int) (win : Int)
  /-- CAL_FIT_DONE, R121. The fit of gains and offsets completes and the role returns to the tile to slew. The fit per chain (physical column × 2 + chain: GAIN, OFFSET), DELAY_TRIM of the median rule, residual, noisy and stuck columns. -/
  | calFitDone (t : Nat) (fits : List (Nat × Int × Int)) (delay : Int) (resid : Nat) (noisy : List Nat) (stuck : List Nat)
  /-- STATS_SHADOW_END, R121. The STATS shadow reaches 512 phases or 20 ms, and ends with NO_DATA below 128. -/
  | statsShadowEnd (t : Nat)
  /-- SLEW_STEP, R123. At each CAL_SLEW.INTERVAL ÷ 16 the tile's coefficients move one step toward TARGET. -/
  | slewStep (t : Nat) (k : Nat)
  /-- DAILY_TRIM_RECORD, R128. Once a day each tile's trim referred to 25 °C is written to the studbook, and TRIM_LIMIT tiles are retired. -/
  | dailyTrimRecord (t : Nat) (k : Nat)
  /-- PENDING_RETIRE_COMPLETE, R132. A pending TRIM_LIMIT retirement completes once a spare tile becomes idle. -/
  | pendingRetireComplete (t : Nat)
  /-- FARR_REMAP, R129. FARR_CTRL REMAP remaps a logical column with reason COMMAND. -/
  | farrRemap (t : Nat) (k : Nat) (col : Nat)
  /-- FARR_RETIRE, R131. FARR_CTRL RETIRE retires a tile. -/
  | farrRetire (t : Nat) (k : Nat)
  /-- FARR_READMIT, R134. FARR_CTRL READMIT recalibrates a retired tile in CALREF mode and returns it as an idle spare. -/
  | farrReadmit (t : Nat) (k : Nat)
  /-- FARR_NV_RETRY, R133. Every 1 s the farrier retries a studbook write that the temperature window refused. -/
  | farrNvRetry (t : Nat) (fail : Bool)
  /-- THERMAL_SAMPLE, R401. A sensor sample updates temperatures, fast sampling, trims and thermal reins. Sensor, 1/16 °C. -/
  | thermalSample (n : Nat) (temp : Int)
  /-- BRIDLE_TICK, R385. Every 10 µs the bridle estimates power and sets the package rein. The activity counts of R382 that are not of the beats: FMA-equivalent lane operations, SRAM and router bytes, DRAM bytes. -/
  | bridleTick (lanes : Nat) (sram : Nat) (dram : Nat)
  /-- BOOST_SWITCH, R367. At the first waymark µs boundary after the decision a region switches between gait dividers. The region. -/
  | boostSwitch (r : Nat)
  /-- BRDL_CAP_WRITE, R390. A write of BRDL_CAP.CAP is clamped to 600 W and CAP_MAX and applies from the next tick. -/
  | brdlCapWrite (cap : Nat)
  /-- PMBUS_ALERT, R395. PMB_ALERT_N makes the device read every regulator's STATUS_WORD within 100 µs. -/
  | pmbusAlert (stops : List (Nat × Nat)) (warns : Nat) (failed : Bool)
  /-- VOLT_MONITOR_TRIP, R397. A rail comparator crossing stops the fed regions and writes a DF record. -/
  | voltMonitorTrip (k : Nat) (over_ : Bool) (mv : Nat)
  /-- SETPOINT_STEP, R398. Every 10 µs a moving setpoint changes by at most 2 mV. -/
  | setpointStep (failed : List Nat)
  /-- DROOP_TRIP, R368. A droop detector trip stretches the region's core, hub and fabric clocks within 1 ns. The region; the supply at its sense point in mV. -/
  | droopTrip (r : Nat) (mv : Nat)
  /-- STRETCH_END, R368. After at least 64 stretched cycles and the detector clear, the region returns to its gait dividers. The region. -/
  | stretchEnd (r : Nat)
  /-- CLOCK_MONITOR_FAIL, R366. A SYSCLK or PLL lock failure stops every region and moves the hub path to the internal oscillator. -/
  | clockMonitorFail (pll : Bool)
  /-- REGION_RESTART, R370. A stopped region restarts and emits a RESUME trace entry first. The region. -/
  | regionRestart (r : Nat)
  /-- AGEING_MEASURE, R408. Every waymark hour the ageing monitors are run over a 1 ms gate to give the slowdown s. Counts of the stressed and of the reference oscillator of each of the 33 monitors. -/
  | ageingMeasure (counts : List (Nat × Nat))
  /-- ADC_CONVERSION_DONE, R412. A conversion completes and a channel visit's sum is shifted into its result. Channel, 14-bit code, whether the urgent request in front was served. -/
  | adcConversionDone (c : Nat) (code : Nat) (urgent : Bool)
  /-- ADC_OPEN_TEST, R413. Once a second a channel gets pull-up and pull-down test conversions to detect an open wire. -/
  | adcOpenTest (c : Nat) (up : Nat) (down : Nat)
  /-- ADC_URGENT_GO, R414. ADC_URGENT.GO queues one urgent conversion, or refuses a third. -/
  | adcUrgentGo (c : Nat)
  /-- TOLLGATE_REFILL, R355. At every waymark microsecond each resource's capacity is divided into credits by weight. Member, resource, DATA lines, BULK lines that asked for credit in the period that ends. -/
  | tollgateRefill (asks : List (Nat × Nat × Nat × Nat))
  /-- MSIX_INTERVAL_END, R347. At the end of a moderation interval a pending vector sends its message. -/
  | msixIntervalEnd (fn : Nat) (vec : Nat)
  /-- VF_FLR, R354. FLR of a virtual function quiesces and scrubs its partition. The virtual function. -/
  | vfFlr (k : Nat)
  /-- VF_ENABLE_CLEARED, R354. VF Enable cleared leaves partitions in their state, reached only by physical function 0. Virtual functions left. -/
  | vfEnableCleared (n : Nat)
  /-- PCI_COMPLETION_TIMEOUT, R359. A device read times out and ends as a DMA error to its engine. -/
  | pciCompletionTimeout (fn : Nat) (addr : Nat)
  /-- ATS_INVALIDATION, R358. An ATS invalidation completes once requests using the translation have completed. The function and the host addresses whose translation is withdrawn. -/
  | atsInvalidation (fn : Nat) (addr : Nat) (len : Nat)
  /-- QUIESCE_COMPLETE, R349. Every action of the quiesce is done and the partition becomes QUIESCED. Partition; bytes its load context had moved, and those from the host. -/
  | quiesceComplete (p : Nat) (moved : Nat) (bytes : List Nat)
  /-- VOLZ_PARTIAL, R44. VOLZ_CTRL PARTIAL starts a partial load of one quiesced partition, or refuses it. -/
  | volzPartial (part : Nat)
  /-- VOLZ_PULL_COMPLETE, R42. The image pull into the INCOMING half ends, with DMA or TOO_LARGE on error. -/
  | volzPullComplete (err : Bool) (bytes : List Nat)
  /-- LOAD_GO, R262. LOAD_CTRL.GO starts a descriptor chain at LOAD_HEAD. Context and IRQ_VEC. -/
  | loadGo (c : Nat) (irqVec : Nat)
  /-- LOAD_ABORT, R265. LOAD_CTRL.ABORT ends the descriptor in progress at the next 4 KiB boundary. -/
  | loadAbort (c : Nat) (moved : Nat) (bytes : List Nat)
  /-- LOAD_DESC_ARRIVE, R264. A pulled descriptor is checked and its data move begins, or it ends with an error status. Context, whether the read failed, the 64 bytes. -/
  | loadDescArrive (c : Nat) (err : Bool) (bytes : List Nat)
  /-- LOAD_MOVE_COMPLETE, R264. The move ends, STATUS and DONE_AT are written back and the chain follows NEXT or ends. -/
  | loadMoveComplete (c : Nat) (err : Bool) (bytes : List Nat)
  /-- REMOTE_TIER_WAIT_EXPIRE, R261. A neighbour-tier load whose port stays not UP for 1 ms fails its step. String, whether an expert or a model waits, and its number. -/
  | remoteTierWaitExpire (x : Nat) (expert : Bool) (n : Nat)
  /-- RELAY_CHUNK_RECEIVE, R268. A relayed chunk is written locally, or dropped, and forwarded to the successor within 300 ns. -/
  | relayChunkReceive (p : Nat) (src : Nat) (session : Nat) (off : Nat) (bytes : List Nat) (late : Bool)
  /-- RELAY_RX_TIMEOUT, R269. A receiver still short of chunks after 10 ms sets INCOMPLETE. -/
  | relayRxTimeout (c : Nat) (origin : Nat) (session : Nat)
  /-- RELAY_ACK_TIMEOUT, R269. The origin without all acknowledgements after 10 ms writes RELAY_INCOMPLETE. -/
  | relayAckTimeout (c : Nat)
  /-- GROOM_NEAR_BOUND, R278. A tile behind at 0.9 × GROOM_BOUND is sent to calibration ahead of rotation. -/
  | groomNearBound (t : Nat) (k : Nat)
  /-- GROOM_LAP_LATE, R278. A lap exceeding GROOM_BOUND sets LAP_LATE and writes a GROOM_LATE record. -/
  | groomLapLate (t : Nat)
  /-- HELD_PLANE_RELOADED, R280. Once every block of a held plane has been written, the hold ends. -/
  | heldPlaneReloaded (t : Nat) (k : Nat) (plane : Nat)
  /-- SWEEP_GO, R281. SWEEP_CTRL.GO starts a CHECK, SCRUB or ZERO sweep, or ends it at once with BAD_RANGE. -/
  | sweepGo (c : Nat) (mode : Nat)
  /-- SWEEP_ABORT, R283. SWEEP_CTRL.ABORT ends a sweep at its next 4 KiB boundary. -/
  | sweepAbort (c : Nat) (pages : Nat)
  /-- SWEEP_COMPLETE, R282. A sweep writes its 64-byte summary, sets DONE and raises the memory event. -/
  | sweepComplete (c : Nat)
  /-- DRAM_RETIRE, R284. DRAM_RETIRE.GO retires a DRAM unit or SRAM bank, or refuses it. -/
  | dramRetire (kind : Nat) (index : Nat)
  /-- KV_SEL1_WRITE, R225. A write to KV_SEL1 latches a snapshot of the selected table header, entry and page record. -/
  | kvSel1Write (index : Nat) (cache : Nat)
  /-- KV_HOST_AREA_WRITE, R196. A write to a host-area register is ignored with HOST_BUSY while pages lie in the host pool. -/
  | kvHostAreaWrite (p : Nat) (which : Nat) (value : Nat)
  /-- FLIT_RECEIVE, R292. A received flit is accepted and ACKed, or on a CRC or FEC failure is discarded with a NAK. The port, the 512 bytes of the flit, lane and symbols of each codeword corrected, codewords uncorrectable. -/
  | flitReceive (p : Nat) (bytes : List Nat) (corr : List (Nat × Nat)) (uncorr : Nat)
  /-- NAK_RECEIVED, R292. A NAK makes the sender resend from the flit after the last good SEQ, retraining after four failures. -/
  | nakReceived (p : Nat) (last : Nat)
  /-- LANE_FAIL, R293. A lane becomes FAILED and a spare takes its position, or the port retrains at width 16. -/
  | laneFail (p : Nat) (lane : Nat)
  /-- LASER_LOW, R290. Laser light below LASER_LOW for 10 µs sends the port to DOWN with cause LASER. The port. -/
  | laserLow (p : Nat)
  /-- TRAINING_ATTEMPT_END, R295. A training attempt ends in UP, DEGRADED, another attempt or DOWN. -/
  | trainingAttemptEnd (p : Nat) (good : List Nat) (lock : Bool) (hello : Option (List Nat))
  /-- DOWN_LIGHT_CHECK, R295. Every 10 ms a DOWN port checks for light and starts full training when it finds it. -/
  | downLightCheck (p : Nat) (light : Bool)
  /-- DISCOVERY_DEADLINE, R308. At the discovery deadline ports without an outcome become MISSING or DOWN with NO_LIGHT. The ports that see light. -/
  | discoveryDeadline (lit : List Nat)
  /-- PORT_AUTO_READMIT, R322. CC4 re-admits its own port after 1 s UP or DEGRADED following DOWN. The port. -/
  | portAutoReadmit (p : Nat)
  /-- LINK_RETRAIN, R295. LINK_CTRL.RETRAIN starts a retrain from UP or DEGRADED. The port. -/
  | linkRetrain (p : Nat)
  /-- LINK_DARK, R295. LINK_CTRL.DARK holds the port DARK or releases it. -/
  | linkDark (p : Nat) (dark : Bool)
  /-- CWAY_OPEN, R298. CWAY_CTRL.OPEN in READY drives the axis causeway toward OPEN. The axis. -/
  | cwayOpen (a : Nat)
  /-- CWAY_CLOSE, R298. CWAY_CTRL.CLOSE closes the axis causeway and darkens its ports. The axis. -/
  | cwayClose (a : Nat)
  /-- CWAY_CONFIRM, R298. The causeway switch confirms its position and the state moves to OPEN or CLOSED. The axis. -/
  | cwayConfirm (a : Nat)
  /-- CWAY_CONFIRM_TIMEOUT, R298. No confirmation within 2 ms sets FAULT and moves to CLOSING. The axis. -/
  | cwayConfirmTimeout (a : Nat)
  /-- HELLO_SEND, R304. A port sends a HELLO every 100 ms while UP or DEGRADED, and after training or a digest change. The port. -/
  | helloSend (p : Nat)
  /-- HELLO, R305. A received HELLO decides the port's discovery outcome and compares digests. -/
  | hello (p : Nat) (ok : Bool) (h : CtrlHdr) (body : List Nat)
  /-- ACK, R316. A control ACK ends retransmission of the acknowledged message. -/
  | ack (p : Nat) (ok : Bool) (h : CtrlHdr) (acked : Nat)
  /-- REVOKE, R319. A REVOKE records a revocation and floods it once onward. -/
  | revoke (p : Nat) (ok : Bool) (h : CtrlHdr) (pos : Nat) (unit : Nat) (inc : Nat)
  /-- REVOKED, R321. A REVOKED naming this package's incarnation quarantines it. -/
  | revoked (p : Nat) (ok : Bool) (h : CtrlHdr) (pos : Nat) (unit : Nat) (inc : Nat)
  /-- READMIT, R320. A READMIT removes a revocation entry and is forwarded once. -/
  | readmit (p : Nat) (ok : Bool) (h : CtrlHdr) (pos : Nat) (unit : Nat) (inc : Nat) (new : Nat)
  /-- LINK_STATE, R328. A LINK_STATE flood updates CC4's link map. -/
  | linkState (p : Nat) (ok : Bool) (h : CtrlHdr) (pos : Nat) (port : Nat) (state : Nat) (inc : Nat)
  /-- WAY_SYNC, R331. A received WAY_SYNC is answered with a WAY_REPLY carrying timestamps and discipline state. -/
  | waySync (p : Nat) (ok : Bool) (h : CtrlHdr) (t1 : Nat) (f1 : Nat) (frac : Nat)
  /-- WAY_REPLY, R375. A WAY_REPLY gives the link delay and offset, which steer WAY_RATE under TORUS discipline. -/
  | wayReply (p : Nat) (ok : Bool) (h : CtrlHdr) (t1 : Nat) (t2 : Nat) (t3 : Nat) (f1 : Nat) (f2 : Nat) (f3 : Nat) (state : Nat) (frac : Nat)
  /-- WAY_SYNC_SEND, R331. Every 1 ms each UP or DEGRADED port sends WAY_SYNC. -/
  | waySyncSend (p : Nat) (frac : Nat)
  /-- COLL_STEP, R325. A COLL_STEP is acknowledged with COLL_ACK once the step's bytes are held and combined. Port, CRC good, header, body fields. -/
  | collStep (p : Nat) (ok : Bool) (h : CtrlHdr) (id : Nat) (step : Nat) (dir : Nat) (session : Nat) (bytes : Nat) (check : Nat)
  /-- COLL_ACK, R325. A COLL_ACK frees the step's bytes and advances or completes the collective. -/
  | collAck (p : Nat) (ok : Bool) (h : CtrlHdr) (id : Nat) (step : Nat) (dir : Nat)
  /-- COLL_ABORT, R327. A COLL_ABORT ends the collective on this member with its code. -/
  | collAbort (p : Nat) (ok : Bool) (h : CtrlHdr) (id : Nat) (code : Nat) (port : Nat) (pos : Nat)
  /-- COLL_STEP_RESEND, R325. No COLL_ACK within 200 µs resends the whole step. -/
  | collStepResend (part : Nat) (id : Nat) (dir : Nat)
  /-- COLL_TIMEOUT, R326. A collective not complete within COLL_TIMEOUT ends with TIMEOUT. -/
  | collTimeout (part : Nat) (id : Nat)
  /-- RELAY_START, R330. A RELAY_START opens a relayed descriptor's session and is forwarded while HOPS_LEFT is above 0. -/
  | relayStart (p : Nat) (ok : Bool) (h : CtrlHdr) (seq : Nat) (hopsLeft : Nat) (session : Nat) (kind : Nat) (len : Nat) (dst : Nat)
  /-- RELAY_END, R269. A RELAY_END carries the chunk count, and a complete receiver returns RELAY_ACK. -/
  | relayEnd (p : Nat) (ok : Bool) (h : CtrlHdr) (seq : Nat) (chunks : Nat)
  /-- RELAY_ACK, R269. A RELAY_ACK at the origin counts toward DONE. -/
  | relayAck (p : Nat) (ok : Bool) (h : CtrlHdr) (seq : Nat) (chunks : Nat)
  /-- EXPERT_CALL, R329. An EXPERT_CALL makes the holder's string evaluate the expert and return EXPERT_DONE. -/
  | expertCall (p : Nat) (ok : Bool) (h : CtrlHdr) (id : Nat) (set : Nat) (position : Nat) (vectors : Nat) (sessionIn : Nat) (inBytes : Nat) (outBytes : Nat)
  /-- EXPERT_DONE, R329. An EXPERT_DONE delivers the results, or a non-zero CODE fails the step. -/
  | expertDone (p : Nat) (ok : Bool) (h : CtrlHdr) (id : Nat) (code : Nat) (session : Nat)
  /-- DATA_PACKET_RECEIVE, R317. A DATA packet is placed by OFFSET in its open session, or dropped as fenced. -/
  | dataPacketReceive (p : Nat) (dst : Nat) (src : Nat) (cls : Nat) (vc : Nat) (session : Nat) (off : Nat) (bytes : List Nat)
  /-- CTRL_RETRANSMIT, R316. An unacknowledged control message is resent every 100 µs, at most 8 times. -/
  | ctrlRetransmit (unit : Nat) (seq : Nat)
  /-- TOR_REVOKE, R319. TOR_REVOKE.GO revokes a remote package's incarnation and floods REVOKE. -/
  | torRevoke (pos : Nat)
  /-- TOR_READMIT, R322. TOR_READMIT.GO re-admits the unit of a revocation entry with a new incarnation. -/
  | torReadmit (entry : Nat)
  /-- PPS_EDGE, R373. A PPS_IN edge is timestamped and disciplines the phase of the second. -/
  | ppsEdge (falling : Bool)
  /-- PTP_SYNC, R374. An IEEE 1588 Sync or delay exchange updates the PTP offset. Domain, message, eighths of a tick at its arrival and at the departure of a Delay_Req. -/
  | ptpSync (domain : Nat) (m : PtpMsg) (frac : Nat) (out : Nat)
  /-- TIME_SOURCE_INVALID, R377. A source whose validity window lapses moves discipline to another source or to HOLDOVER. 1 PPS, 2 PTP, 3 TORUS. -/
  | timeSourceInvalid (src : Nat)
  /-- NV_WRITE, R440. NV_CTRL WRITE pulls an image into a slot and checks it. 0 FW_A, 1 FW_B, 2 VOLZ_A, 3 VOLZ_B, 4 USER_NV. -/
  | nvWrite (target : Nat)
  /-- NV_ERASE, R440. NV_CTRL ERASE empties a slot that is not ACTIVE. 0 FW_A, 1 FW_B, 2 VOLZ_A, 3 VOLZ_B, 4 USER_NV. -/
  | nvErase (target : Nat)
  /-- NV_SET_TRIAL, R440. NV_CTRL SET_TRIAL marks a valid non-ACTIVE slot TRIAL. 0 FW_A, 1 FW_B, 2 VOLZ_A, 3 VOLZ_B, 4 USER_NV. -/
  | nvSetTrial (target : Nat)
  /-- NV_CLEAR_TRIAL, R440. NV_CTRL CLEAR_TRIAL removes the TRIAL mark. 0 FW_A, 1 FW_B, 2 VOLZ_A, 3 VOLZ_B, 4 USER_NV. -/
  | nvClearTrial (target : Nat)
  /-- NV_COMMAND_COMPLETE, R440. An NV command ends, setting DONE or REFUSED with its result code. -/
  | nvCommandComplete (err : Bool) (bytes : List Nat)
  /-- SEC_COMMAND_COMPLETE, R446. An attest, enrol or transfer ends, sets SEC_EVENT and renews the challenge. -/
  | secCommandComplete (err : Bool) (bytes : List Nat)
  /-- LOCKSTEP_MISMATCH, R459. A lockstep comparison mismatch stops every region and marks every partition. 0 CC0/CC1, 1 CC2/CC3. -/
  | lockstepMismatch (pair : Nat)
  /-- SAFE_LOG_SEL_WRITE, R484. A write to SAFE_LOG_SEL latches the selected record into SAFE_LOG0–7. -/
  | safeLogSelWrite (n : Nat)
  /-- TILE_IFT_DUE, R462. A tile in-field test falls due and waits for a step boundary with no vector in flight. -/
  | tileIftDue (t : Nat) (k : Nat)
  /-- IFT_DEFER_EXPIRE, R462. IFT_DEFER passes and the test take-over proceeds at the next vector boundary. The tile whose test waited; none for the team’s. -/
  | iftDeferExpire (t : Nat) (tile : Option Nat)
  /-- TILE_IFT_COMPLETE, R464. A tile in-field test ends; a failure retires the tile with a DF record. 0 for a pass, else the first failing check. -/
  | tileIftComplete (t : Nat) (k : Nat) (fail : Nat)
  /-- TEAM_TEST_DUE, R463. A team digital test falls due and waits for an idle team or IFT_DEFER. -/
  | teamTestDue (t : Nat)
  /-- TEAM_TEST_COMPLETE, R464. A team digital test ends; a failure takes the team out of service with a DF record. 0 for a pass, else the first failing part. -/
  | teamTestComplete (t : Nat) (fail : Nat)
  /-- DIGEST_DUE, R465. A resident model's weight digest falls due, and a late one counts DIGEST_LATE. Partition, model. -/
  | digestDue (p : Nat) (m : Nat)
  /-- DIGEST_COMPLETE, R466. A weight digest completes and is published and sent as WEIGHT_DIGEST. Partition, model. -/
  | digestComplete (p : Nat) (m : Nat)
  /-- ERROR_REPORT_RESEND, R480. An unacknowledged report is resent every 100 ms, at most 10 times. -/
  | errorReportResend (id : Nat)
  /-- ERROR_ACK, R478. An ERROR_ACK clears its report and may release FAULT_N. -/
  | errorAck (h : MgmtHdr) (id : Nat)
  /-- GET_ATTEST, R478. A GET_ATTEST is answered with a signed ATTEST report. -/
  | getAttest (h : MgmtHdr) (nonce : List Nat)
  /-- GET_LOG, R478. A GET_LOG is answered with up to 32 fault-log records. -/
  | getLog (h : MgmtHdr) (first : Nat) (count : Nat)
  /-- NV_BEGIN, R478. An authorised NV_BEGIN opens an NV command. -/
  | nvBegin (h : MgmtHdr) (cmd : Nat) (target : Nat) (len : Nat)
  /-- NV_CHUNK, R478. An NV_CHUNK writes contiguous bytes and checks the image once LENGTH has arrived. -/
  | nvChunk (h : MgmtHdr) (off : Nat) (bytes : List Nat)
  /-- MGMT_RETRY, R478. An authorised RETRY message applies RST_CTRL.RETRY. -/
  | mgmtRetry (h : MgmtHdr)
  /-- MGMT_REVOKE, R478. An authorised REVOKE message applies TOR_REVOKE. -/
  | mgmtRevoke (h : MgmtHdr) (pos : Nat) (inc : Nat)
  /-- EXTEST, R485. EXTEST drives boundary scan, honoured only while PERST_N is low. Cells shifted, their values. -/
  | extest (n : Nat) (cells : Nat)
  /-- SAMPLE_PRELOAD, R485. SAMPLE captures or preloads the boundary register. Cells shifted, their values. -/
  | samplePreload (n : Nat) (cells : Nat)
  /-- TAP_UNLOCK, R488. UNLOCK shifts in an unlock record and checks it. The record shifted in. -/
  | tapUnlock (bytes : List Nat)
  /-- TAP_ACCESS, R489. ACCESS at Update-DR starts a read or write in a debug space, within SCOPE. The fields shifted in. -/
  | tapAccess (op : Nat) (space : Nat) (data : Nat) (addr : Nat)
  /-- DBG_UNLOCK, R488. DBG_CTRL.UNLOCK pulls the unlock record from host memory and checks it. Whether the host read failed, the record read. -/
  | dbgUnlock (err : Bool) (bytes : List Nat)
  /-- DBG_CLOCK_STOP, R492. DBG_CTRL.CLOCK_STOP stops a string region's clocks, refused for lockstep regions. The region. -/
  | dbgClockStop (r : Nat)
  /-- DBG_CLOCK_RUN, R492. DBG_CTRL.CLOCK_RUN restarts a debug-stopped region. The region. -/
  | dbgClockRun (r : Nat)
  /-- HANG_TIMEOUT, R500. A step running HANG_MS without its milepost makes CC7 build the graph once. The step. -/
  | hangTimeout (id : Nat)
  /-- RUNCTL_HALT, R491. RUNCTL.HALT halts a core or sequencer at the next instruction boundary. The debug unit. -/
  | runctlHalt (u : Nat)
  /-- RUNCTL_RESUME, R491. RUNCTL.RESUME resumes a halted unit. The debug unit. -/
  | runctlResume (u : Nat)
  /-- RUNCTL_STEP, R491. RUNCTL.STEP executes one instruction of a halted unit and halts again. The debug unit. -/
  | runctlStep (u : Nat)
  /-- TRACE_ENTRY_WRITE, R493. A trace entry reaches the hub and is written, counted as lost after the freeze, or dropped at a full queue. The unit identifier of the source. -/
  | traceEntryWrite (source : Nat)
  /-- TRACE_TRIG_IN_EDGE, R518. A rising edge on a TRACE_TRIG_IN pin raises the trace trigger. The GPIO. -/
  | traceTrigInEdge (pin : Nat)
  /-- DUMP_ARM, R497. DBG_DUMP_CTRL.ARM reads a dump request and arms its slot, or refuses it. -/
  | dumpArm (slot : Nat)
  /-- DUMP_DISARM, R497. DBG_DUMP_CTRL.DISARM disarms a dump slot. -/
  | dumpDisarm (slot : Nat)
  /-- TRAINING_TIME_LIMIT, R295. When 1 ms has passed since the first failed attempt of a training sequence, the port goes to DOWN with cause TIME_LIMIT, its incarnation is revoked and LINK_STATE is flooded. The port. -/
  | trainingTimeLimit (p : Nat)
  /-- PCIE_LINK_UP, R336. The PCI Express link completes training at some rate and width, setting LINK_UP and, below 16 GT/s or ×16, BELOW_SPEC and scaled tollgate capacity. -/
  | pcieLinkUp (rate : Nat) (width : Nat) (flit : Bool)
  /-- POWER_ON_DETECT, R512. VDD_AUX or VDD_HUB falls below its power-on threshold, and reset is held. -/
  | powerOnDetect
  /-- INTERNAL_RESET_END, R424. Internal reset ends once PERST_N has been high 10 µs and 100 µs have passed since assertion; the start begins in ROM. -/
  | internalResetEnd
  /-- ROM_STAGE_END, R439. The boot ROM chooses the firmware slot from its marks, or enters its own paddock service when both slots are refused. -/
  | romStageEnd
  /-- FW_VERIFY_END, R441. Firmware is checked against header, key, signature and SVN, and CC0 to CC7 start their roles. -/
  | fwVerifyEnd
  /-- NV_LOAD_END, R443. The start count is raised, the user NV image is checked and layered, and the retirement record is applied. -/
  | nvLoadEnd
  /-- PINS_SET_END, R426. Pins take the PINS configuration, STATUS pins are driven and the commanded rails are turned on. -/
  | pinsSetEnd
  /-- RAIL_ON_TEMP_RECHECK, R406. Every 100 ms the power controller re-reads sensors that held the rails off at the end of PINS_SET. -/
  | railOnTempRecheck
  /-- DRAM_UP_END, R427. The eight HBM4 stacks are initialised and trained. -/
  | dramUpEnd
  /-- LINKS_UP_END, R427. The management port is up, the PCI Express state is recorded and the optical engines are self-tested. -/
  | linksUpEnd
  /-- IMAGE_LOAD_SLOT, R39. IMAGE_LOAD chooses the TRIAL, ACTIVE or fallback Volzal slot and loads it. -/
  | imageLoadSlot
  /-- IMAGE_LOAD_END, R42. The boot image, checked in the INCOMING half, is committed to the RUNNING half. -/
  | imageLoadEnd
  /-- CAUSEWAY_OPEN_END, R308. Every port has a discovery outcome, or the discovery deadline passes, and the device enters READY. -/
  | causewayOpenEnd
  /-- START_DEADLINE_EXPIRE, R429. A start that has not reached READY by its deadline fails and enters paddock mode. -/
  | startDeadlineExpire
  /-- FAIL_COUNT_NV_RETRY, R431. Every 1 s the device retries a failed-start or READY studbook write that the temperature window refused. -/
  | failCountNvRetry
  /-- CALREF_QUALIFIED, R114. After 1 s of in-tolerance periods CALREF is qualified. -/
  | calrefQualified
  /-- CALREF_LOST, R114. An out-of-tolerance period or a 200 ns gap loses CALREF. -/
  | calrefLost
  /-- TRIP_RAILS_OFF, R403. 10 µs after the trip the commanded rails except VDD_OPT turn off in reverse order. -/
  | tripRailsOff
  /-- TRIP_FINAL, R403. By 2 ms after the trip VDD_OPT is off and THERMTRIP_N is asserted. -/
  | tripFinal
  /-- BRIDLE_MEASURE, R383. Each measurement interval forms P_meas from rail channels and sets MEAS_VALID. -/
  | bridleMeasure
  /-- AGEING_REPLAN, R409. Once a day guard bands, eligibility, window targets and life consumed are re-planned and recorded. -/
  | ageingReplan
  /-- PF_FLR, R354. FLR of physical function 0 quiesces and scrubs every partition and clears VF Enable. -/
  | pfFlr
  /-- HOT_RESET, R354. Hot Reset or Link Disable acts as an FLR of physical function 0. -/
  | hotReset
  /-- PCIE_LINK_DOWN, R354. The link leaves L0 without Hot Reset; partitions keep running and host accesses end as DMA errors. -/
  | pcieLinkDown
  /-- PART_QUIESCE, R349. PART_CTRL QUIESCE stops the partition's sequencers and teams and cancels its slots. -/
  | partQuiesce
  /-- PART_SCRUB, R350. PART_CTRL SCRUB clears a quiesced partition's SRAM, accumulators, slots and planes. -/
  | partScrub
  /-- PART_RETURN, R351. PART_CTRL RETURN restores micro-programs and returns a quiesced partition to service. -/
  | partReturn
  /-- SCRUB_COMPLETE, R350. The scrub completes, SCRUBBED is set and the next requested scrub starts. -/
  | scrubComplete
  /-- VOLZ_FULL, R41. VOLZ_CTRL FULL in IMAGE_LOAD pulls and checks a host boot image. -/
  | volzFull
  /-- VOLZ_ABORT, R47. VOLZ_CTRL ABORT ends a load before its commit with ABORTED. -/
  | volzAbort
  /-- VOLZ_VERIFY_COMPLETE, R37. The checks of R37 finish, refusing with the first failure's code or moving to apply. -/
  | volzVerifyComplete
  /-- VOLZ_COMMIT, R46. The partial load commits, copying sections to the RUNNING half and updating VOLZ_RUN_DIGEST. -/
  | volzCommit
  /-- RETIRE_NV_RETRY, R285. Every 1 s a retirement's studbook write is retried while NV_PENDING. -/
  | retireNvRetry
  /-- ROUTE_REPLAN, R328. Within 1 ms of a link change CC4 installs detours for unreachable destinations. -/
  | routeReplan
  /-- WAY_SET, R372. WAY_CTRL.SET sets the waymark before READY, or is refused with SET_REFUSED after it. -/
  | waySet
  /-- RST_RETRY, R435. RST_CTRL.RETRY in paddock mode writes FAIL_COUNT = FAIL_LIMIT − 1. -/
  | rstRetry
  /-- SEC_ATTEST, R448. SEC_CTRL ATTEST signs and writes an attestation report within 10 ms. -/
  | secAttest
  /-- SEC_ENROL, R446. SEC_CTRL ENROL enrols an owner key proven by its own signature. -/
  | secEnrol
  /-- SEC_TRANSFER, R446. SEC_CTRL TRANSFER replaces or removes the owner key under the current owner's signature. -/
  | secTransfer
  /-- CC6_WATCHDOG_EXPIRE, R460. The CC6 watchdog expires, FAULT_N is asserted and CC6 is restarted. -/
  | cc6WatchdogExpire
  /-- SAFE_ACK, R458. SAFE_CTRL.ACK releases FAULT_N. -/
  | safeAck
  /-- SAFE_DIGEST_NOW, R465. SAFE_CTRL.DIGEST_NOW starts a digest of every resident model. -/
  | safeDigestNow
  /-- HEARTBEAT_SEND, R479. Every second the device sends a HEARTBEAT to FLEET_ADDR. -/
  | heartbeatSend
  /-- NV_CHUNK_GAP_TIMEOUT, R478. A 10 s gap without a chunk abandons the NV WRITE. -/
  | nvChunkGapTimeout
  /-- TAP_RESET, R485. TMS held high for five TCK edges resets the TAP. -/
  | tapReset
  /-- IDCODE, R485. IDCODE returns 0x1716_0A6B. -/
  | idcode
  /-- CLAMP, R485. CLAMP drives outputs from boundary cells with bypass, only while PERST_N is low. -/
  | clamp
  /-- TAP_CHALLENGE, R486. CHALLENGE returns DBG_CHALLENGE. -/
  | tapChallenge
  /-- BYPASS, R485. BYPASS, or any undefined instruction, selects the 1-bit bypass register. -/
  | bypass
  /-- DBG_LOCK, R488. DBG_CTRL.LOCK leaves the unlocked state, resuming halted units and clearing breakpoints. -/
  | dbgLock
  /-- UNLOCK_DURATION_EXPIRE, R488. The unlock DURATION expires and the device leaves the unlocked state. -/
  | unlockDurationExpire
  /-- DBG_WFG, R500. DBG_CTRL.WFG makes CC7 build the wait-for graph. -/
  | dbgWfg
  /-- WFG_SECOND_SNAPSHOT, R500. 10 µs after the first snapshot CC7 snapshots again, keeps stable waits and marks cycles. -/
  | wfgSecondSnapshot
  /-- TRC_ARM, R496. TRC_CTRL.ARM clears the buffer indices and restarts the ring. -/
  | trcArm
  /-- TRC_STOP, R496. TRC_CTRL.STOP freezes capture without a trigger. -/
  | trcStop
  /-- TRC_TRIGGER, R496. TRC_CTRL.TRIGGER raises the SOFTWARE trigger. -/
  | trcTrigger
  /-- TRC_COPY, R496. TRC_CTRL.COPY copies a frozen or stopped buffer to the DRAM tier. -/
  | trcCopy
  /-- TRACE_COPY_COMPLETE, R496. The trace copy completes and COPYING clears. -/
  | traceCopyComplete
  /-- CNT_SNAP, R501. CNT_CTRL.SNAP requests a snapshot of every string counter at the next waymark µs boundary. -/
  | cntSnap
  /-- CNT_CLEAR, R501. CNT_CTRL.CLEAR requests zeroing of the counters at the next waymark µs boundary. -/
  | cntClear
  /-- COUNTER_SNAPSHOT_LATCH, R501. At the waymark µs boundary the counters are latched, recorded in CNT_SNAP_WAY and cleared if requested. -/
  | counterSnapshotLatch
  /-- TIME_ROOT_DISCIPLINE_UPDATE, R376. Each millisecond the package at TIME_ROOT takes its offset as 0 with WAY_RATE held at 0, reaching LOCKED after 16 updates. -/
  | timeRootDisciplineUpdate
  /-- MANAGEMENT_PORT_DOWN, R480. The management Ethernet link is lost, after which error reports wait in a queue of up to 64 instead of being sent. -/
  | managementPortDown
  /-- MANAGEMENT_PORT_UP, R475. The management Ethernet link comes up at 10GBASE-KR or 1000BASE-KX, and queued error reports and heartbeats can go out again. -/
  | managementPortUp
  deriving DecidableEq, Repr

end Sys2Proof
end

