-- ==== Sys2Proof/Decode.lean ====
section
/-!
DEFINITION. The command that a word spells by the opcode table's bits. The table gives no row any bits (its rows are register
accesses, events and messages, each with its own operands), so no word spells a command (log 26).
-/
namespace Sys2Proof

/-- The command of an `nbits`-bit word: none, since no row of the table has bits. -/
def decodeTableWord (_nbits _w : Nat) : Option Instr := none

end Sys2Proof
end

