-- ==== Sys2Proof/Config.lean ====
section
/-!
DEFINITION. What the spec leaves to the part or to named standards, and every value it leaves open: constants without a
body, so that no proof can see a value of theirs. A claim that holds for them holds whatever they are.
-/
namespace Sys2Proof

/-- A value that the spec leaves open: the `n`-th one drawn (log 5). -/
opaque Config.freeValue : Nat → Nat

/-- The device's random source (R446, R486): the `n`-th draw, 32 bytes (log 6). -/
opaque Config.random : Nat → List Nat

/-- SHAKE256 with 512-bit output (R29): 64 bytes (log 7). -/
opaque Config.shake256 : List Nat → List Nat

/-- Whether an ML-DSA-65 signature of a message verifies under a key with a context string (R29, log 7). -/
opaque Config.mldsaVerify : (key msg sig : List Nat) → (context : String) → Bool

/-- The device's signature with its identity key (R447): 3,309 bytes (log 7). -/
opaque Config.identitySign : (msg : List Nat) → (context : String) → List Nat

/-- The public half of the device's identity key pair, and its certificate chain in DER: generated and certified at
manufacture (R444, log 8). -/
opaque Config.deviceKey : List Nat
opaque Config.certChain : List Nat

/-- The Glazeow image keys of the firmware's key list (R35) and the ROM key list (R441): public keys (log 8). -/
opaque Config.glazeowKeys : List (List Nat)
opaque Config.romKeys : List (List Nat)
opaque Config.debugKeys : List (List Nat)
/-- Image keys, debug keys and revocation mask that a firmware image brings to the studbook's key list at a firmware update (R438,
log 134). -/
opaque Config.fwImageKeys : List Nat → List (List Nat)
opaque Config.fwDebugKeys : List Nat → List (List Nat)
opaque Config.fwKeyMask : List Nat → Nat

/-- Which of the words within an accuracy bound an operation returns: the operation and its operands (R182, R205, R217, R243,
log 9). -/
opaque Config.ulpPick : Nat → Nat → Nat → Nat

/-- Sign and payload of the NaN that an operation on two FP32 words returns: the spec says only that NaN propagates
(R182, log 9). -/
opaque Config.nanBits : Nat → Nat → Nat
/-- The part's own coefficient of a term of R382, in pJ or W as the table has it (studbook, log 10). -/
opaque Config.partCoeff : Nat → Rat
/-- Ratio of a monitor's oscillators, recorded in the studbook at manufacture (R408, log 10). -/
opaque Config.ageRatio : Nat → Rat
/-- Setpoint of an HBM rail in microvolts, "as HBM4 requires" (R394), and SCALE and OFFSET of a channel in the factory
default of the board sense table, for which the spec gives no values (R415, log 11). -/
opaque Config.hbmSetpoint : Nat → Nat
/-- PMBus address of a rail in the factory default of the board sense table: R442 refers to R394, which gives none (log 11). -/
opaque Config.pmbusAddress : Nat → Nat
/-- The data word of VOUT_COMMAND for a voltage in µV, whose format the spec does not give (R395, log 114). -/
opaque Config.voutWord : Nat → BitVec 16
opaque Config.boardScale : Nat → Nat
opaque Config.boardOffset : Nat → Nat
/-- The ROM pattern of a calibration or in-field test in a weight cell (plane, cell) and a scale byte (plane, offset):
the spec gives no pattern (R121, R461, log 23). -/
opaque Config.romCell : Nat → Nat → Nat
opaque Config.romScale : Nat → Nat → Nat
/-- Conversions that may stand in the queue of a team while a sequencer may still add to it (so the queue holds one at least):
the spec gives no depth (R184, log 24). -/
opaque Config.teamQueue : Nat
/-- Bytes of the results of a remote expert call (set, position, vectors): OUT_BYTES of R329, for which the spec gives no
rule (log 32). -/
opaque Config.expertOut : Nat → Nat → Nat → Nat

/-- Least window trim in force of a part's tile (team, tile) at a temperature in 1/16 degree, and steps from it to the greatest:
the trims that hold its window between 14.4 ns and 15.6 ns (R65, log 92). -/
opaque Config.winLow : Nat → Nat → Int → Int
opaque Config.winSteps : Nat → Nat → Int → Nat

/-- The filtered offset of the last exchanges (R375) and the rate that steers it to 0 (R371), log 12. -/
opaque Config.wayFilter : List Int → Int
opaque Config.waySteer : List Int → Int

/-- Bits of the size of the host page that holds an address of a function, as its translation says (R358, log 131). -/
opaque Config.pageBits : Nat → Nat → Nat

/-- Flits beyond one packet that a neighbour's buffer grants to a class and virtual channel (R311, log 106). -/
opaque Config.portCredit : Nat → Nat → Nat

end Sys2Proof
end

