-- ==== Sys2Proof/Machine/Maps.lean ====
section
/-!
DEFINITION. Sparse maps in one canonical form: strictly rising keys, and no entry that equals the default. The read
takes the first entry of the key; the write removes an entry that would equal the default, so that equal maps are
equal data.
-/
namespace Sys2Proof.Machine

/-- The value at key `a`, `d` where the map lists none. -/
def Map.get {α : Type} (d : α) : SMap α → Nat → α
  | [], _ => d
  | (k, v) :: m, a => if k = a then v else Map.get d m a

/-- The map with `v` at key `a`, whatever stood there, the keys kept rising. -/
def Map.insert {α : Type} : SMap α → Nat → α → SMap α
  | [], a, v => [(a, v)]
  | (k, w) :: m, a, v =>
    if a < k then (a, v) :: (k, w) :: m
    else if a = k then (a, v) :: m
    else (k, w) :: Map.insert m a v

/-- The map with no entry at key `a`. -/
def Map.erase {α : Type} (m : SMap α) (a : Nat) : SMap α := m.filter (fun e => !(e.1 == a))

/-- The map after a write of `v` at `a`; the default `d` is never listed. -/
def Map.set {α : Type} [DecidableEq α] (d : α) (m : SMap α) (a : Nat) (v : α) : SMap α :=
  if v = d then Map.erase m a else Map.insert m a v

/-- The map after `f` is applied to the value at `a`. -/
def Map.modify {α : Type} [DecidableEq α] (d : α) (m : SMap α) (a : Nat) (f : α → α) : SMap α :=
  Map.set d m a (f (Map.get d m a))

/-- Every key of the list is above `k`. -/
def Map.above {α : Type} (k : Nat) (m : SMap α) : Bool := m.all (fun e => decide (k < e.1))

/-- The keys rise strictly. -/
def Map.sorted {α : Type} : SMap α → Bool
  | [] => true
  | (k, _) :: m => Map.above k m && Map.sorted m

/-- The canonical form: strictly rising keys, and no entry equal to the default. -/
def Map.wf {α : Type} [DecidableEq α] (d : α) (m : SMap α) : Bool :=
  Map.sorted m && m.all (fun e => decide (e.2 ≠ d))

end Sys2Proof.Machine
end

