-- ==== Sys2Proof/Machine/Registers.lean ====
section
/-!
DEFINITION. The register fields of the spec's register tables, each under its own name: byte address of its word,
bits, access type and reset value. A register that stands in every team window, tile window, port window, partition
window or context is given for the first of them (a TILE register for spare tile 32); `Fld.team`, `Fld.tile` and the like give the others. A field whose
register describes what a SEL register selects is given for selection 0, and `Fld.sel` gives the others.
Register space: BAR0 of physical function 0 at its own offsets; the gate pages at 0x1000_0000 + p * 0x1000; the
registers only a virtual function's BAR0 holds at 0x2000_0000 + p * 0x1_0000; the debug units of R490 at
0x3000_0000 + unit * 0x100.
-/
namespace Sys2Proof

/-- The same field `d` bytes further on. -/
def Fld.shift (f : Fld) (d : Nat) : Fld := ⟨f.addr + d, f.msb, f.lsb, f.acc, f.reset⟩

/-- The field of entry `i` of a register array of words. -/
def Fld.nth (f : Fld) (i : Nat) : Fld := Fld.shift f (4 * i)

/-- The field in team window `t` (R80). -/
def Fld.team (f : Fld) (t : Nat) : Fld := Fld.shift f (t * 0x4000)

/-- The offset of tile `k`'s registers from those of spare tile 32 (R80: spare tiles 32 and 33 at team window offset
+0x1800 and +0x1900, working tiles at +0x2000 + tile * 0x100). -/
def tileOffset (k : Nat) : Nat := if k < 32 then 0x800 + k * 0x100 else (k - 32) * 0x100

/-- The field of tile `k` of team `t`. -/
def Fld.tile (f : Fld) (t k : Nat) : Fld := Fld.shift f (t * 0x4000 + tileOffset k)

/-- The field of port `p` (R333). -/
def Fld.port (f : Fld) (p : Nat) : Fld := Fld.shift f (p * 0x1000)

/-- The field of partition `p`'s KV window (R224). -/
def Fld.kvPart (f : Fld) (p : Nat) : Fld := Fld.shift f (p * 0x100)

/-- The field of partition `p`'s gate page (R226). -/
def Fld.gate (f : Fld) (p : Nat) : Fld := Fld.shift f (p * 0x1000)

/-- The field of load context `c`: 0 physical function 0, 1 + p partition p (R286: 0x0100, then 0x1000 + p * 0x100). -/
def Fld.ctx (f : Fld) (c : Nat) : Fld := Fld.shift f (if c = 0 then 0 else 0xF00 + (c - 1) * 0x100)

/-- The field of sweep context `c` (R287). -/
def Fld.sweep (f : Fld) (c : Nat) : Fld := Fld.shift f (c * 0x40)

/-- The field of ADC channel `c` (R422). -/
def Fld.chan (f : Fld) (c : Nat) : Fld := Fld.shift f (c * 0x10)

/-- The field of partition `p`'s virtual function registers (R339). -/
def Fld.vf (f : Fld) (p : Nat) : Fld := Fld.shift f (p * 0x10000)

/-- The field of debug unit `u` (R490). -/
def Fld.unit (f : Fld) (u : Nat) : Fld := Fld.shift f (u * 0x100)

/-- The field as it stands for selection `i` of the register's SEL register. -/
def Fld.sel (f : Fld) (i : Nat) : Fld := Fld.shift f (i * 0x100000000)

/-- The key of a field in the state's field map: its bit address. -/
def Fld.key (f : Fld) : Nat := f.addr * 8 + f.lsb

/-- The number of values the field holds. -/
def Fld.card (f : Fld) : Nat := 2 ^ (f.msb + 1 - f.lsb)

end Sys2Proof

namespace Sys2Proof.Machine

namespace Reg

/-- VOLZ_STATUS.TRIAL_FAILED, R53. -/
def volzStatusTrialFailed : Fld := ⟨0xe0000, 15, 15, .ro, 0⟩
/-- VOLZ_STATUS.FALLBACK, R53. -/
def volzStatusFallback : Fld := ⟨0xe0000, 14, 14, .ro, 0⟩
/-- VOLZ_STATUS.BOOT_SRC, R53. -/
def volzStatusBootSrc : Fld := ⟨0xe0000, 13, 12, .ro, 0⟩
/-- VOLZ_STATUS.STATE, R53. -/
def volzStatusState : Fld := ⟨0xe0000, 9, 8, .ro, 0⟩
/-- VOLZ_STATUS.LOAD_PART, R53. -/
def volzStatusLoadPart : Fld := ⟨0xe0000, 4, 0, .ro, 0⟩
/-- VOLZ_CTRL.PART, R53. -/
def volzCtrlPart : Fld := ⟨0xe0004, 12, 8, .rw, 0⟩
/-- VOLZ_CTRL.CMD, R53. -/
def volzCtrlCmd : Fld := ⟨0xe0004, 2, 0, .wo, 0⟩
/-- VOLZ_SRC_LO.ADDR_LO, R53. -/
def volzSrcLo : Fld := ⟨0xe0008, 31, 6, .rw, 0⟩
/-- VOLZ_SRC_HI.ADDR_HI, R53. -/
def volzSrcHi : Fld := ⟨0xe000c, 31, 0, .rw, 0⟩
/-- VOLZ_LEN.LENGTH, R53. -/
def volzLen : Fld := ⟨0xe0010, 28, 0, .rw, 0⟩
/-- VOLZ_RESULT.SECTION, R53. -/
def volzResultSection : Fld := ⟨0xe0014, 23, 8, .ro, 0xffff⟩
/-- VOLZ_RESULT.CODE, R53. -/
def volzResultCode : Fld := ⟨0xe0014, 7, 0, .ro, 0⟩
/-- VOLZ_EVENT.REFUSED, R53. -/
def volzEventRefused : Fld := ⟨0xe0018, 1, 1, .w1c, 0⟩
/-- VOLZ_EVENT.DONE, R53. -/
def volzEventDone : Fld := ⟨0xe0018, 0, 0, .w1c, 0⟩
/-- VOLZ_SECT_SEL.INDEX, R53. -/
def volzSectSelIndex : Fld := ⟨0xe00c0, 6, 0, .rw, 0⟩
/-- VOLZ_SECT_INFO.TYPE, R53 (reset undefined in the spec: DESIGN CHOICE 0, log 3). -/
def volzSectInfoType : Fld := ⟨0xe00c4, 31, 16, .ro, 0⟩
/-- VOLZ_SECT_INFO.SCOPE, R53 (reset undefined in the spec: DESIGN CHOICE 0, log 3). -/
def volzSectInfoScope : Fld := ⟨0xe00c4, 15, 8, .ro, 0⟩
/-- VOLZ_SECT_INFO.IGNORED, R53 (reset undefined in the spec: DESIGN CHOICE 0, log 3). -/
def volzSectInfoIgnored : Fld := ⟨0xe00c4, 0, 0, .ro, 0⟩
/-- VOLZ_SVN_MIN.VALUE, R53 (reset undefined in the spec: DESIGN CHOICE 0, log 3). -/
def volzSvnMin : Fld := ⟨0xe001c, 31, 0, .ro, 0⟩
/-- VOLZ_IMAGE_SVN.VALUE, R53 (reset undefined in the spec: DESIGN CHOICE 0, log 3). -/
def volzImageSvn : Fld := ⟨0xe0020, 31, 0, .ro, 0⟩
/-- VOLZ_IMAGE_SERIAL.VALUE, R53 (reset undefined in the spec: DESIGN CHOICE 0, log 3). -/
def volzImageSerial : Fld := ⟨0xe0024, 31, 0, .ro, 0⟩
/-- VOLZ_SECT_LEN.VALUE, R53 (reset undefined in the spec: DESIGN CHOICE 0, log 3). -/
def volzSectLen : Fld := ⟨0xe00c8, 31, 0, .ro, 0⟩
/-- VOLZ_SECT_COUNT.VALUE, R53 (reset undefined in the spec: DESIGN CHOICE 0, log 3). -/
def volzSectCount : Fld := ⟨0xe00cc, 31, 0, .ro, 0⟩
/-- TEAM_ID.DIE, R81 (reset undefined in the spec: DESIGN CHOICE 0, log 3). -/
def teamIdDie : Fld := ⟨0x1000000, 18, 15, .ro, 0⟩
/-- TEAM_ID.STRING, R81 (reset undefined in the spec: DESIGN CHOICE 0, log 3). -/
def teamIdString : Fld := ⟨0x1000000, 14, 10, .ro, 0⟩
/-- TEAM_ID.TEAM, R81 (reset undefined in the spec: DESIGN CHOICE 0, log 3). -/
def teamIdTeam : Fld := ⟨0x1000000, 9, 0, .ro, 0⟩
/-- TEAM_STATUS.QUIESCED, R81. -/
def teamStatusQuiesced : Fld := ⟨0x1000004, 4, 4, .ro, 1⟩
/-- TEAM_STATUS.STOPPED, R81. -/
def teamStatusStopped : Fld := ⟨0x1000004, 3, 3, .ro, 0⟩
/-- TEAM_STATUS.TAKEOVER, R81. -/
def teamStatusTakeover : Fld := ⟨0x1000004, 2, 2, .ro, 0⟩
/-- TEAM_STATUS.DRAIN, R81. -/
def teamStatusDrain : Fld := ⟨0x1000004, 1, 1, .ro, 0⟩
/-- TEAM_STATUS.SWAP_PENDING, R81. -/
def teamStatusSwapPending : Fld := ⟨0x1000004, 0, 0, .ro, 0⟩
/-- TEAM_CTRL.CNT_FREEZE, R81. -/
def teamCtrlCntFreeze : Fld := ⟨0x1000008, 1, 1, .rw, 0⟩
/-- TEAM_CTRL.STOP, R81. -/
def teamCtrlStop : Fld := ⟨0x1000008, 0, 0, .rw, 0⟩
/-- TEAM_SWAP_MASK.ROLES, R81. -/
def teamSwapMask : Fld := ⟨0x100000c, 31, 0, .rw, 0⟩
/-- TEAM_SWAP.PLANE, R81. -/
def teamSwapPlane : Fld := ⟨0x1000010, 8, 8, .wo, 0⟩
/-- TEAM_SWAP.GO, R81. -/
def teamSwapGo : Fld := ⟨0x1000010, 0, 0, .wo, 0⟩
/-- TEAM_LIVE.ROLE_PLANE, R81. -/
def teamLive : Fld := ⟨0x1000014, 31, 0, .ro, 0⟩
/-- TEAM_ERR.LIVE_WRITE_ANY, R81. -/
def teamErrLiveWriteAny : Fld := ⟨0x1000018, 1, 1, .w1c, 0⟩
/-- TEAM_ERR.SWAP_CONFLICT, R81. -/
def teamErrSwapConflict : Fld := ⟨0x1000018, 0, 0, .w1c, 0⟩
/-- TEAM_INCARNATION.VALUE, R81 (reset undefined in the spec: DESIGN CHOICE 0, log 3). -/
def teamIncarnation : Fld := ⟨0x100001c, 31, 0, .ro, 0⟩
/-- TEAM_ROLE.PHYS_3, R81 (reset undefined in the spec: DESIGN CHOICE 0, log 3). -/
def teamRolePhys3 : Fld := ⟨0x1000020, 29, 24, .ro, 0⟩
/-- TEAM_ROLE.PHYS_2, R81 (reset undefined in the spec: DESIGN CHOICE 0, log 3). -/
def teamRolePhys2 : Fld := ⟨0x1000020, 21, 16, .ro, 0⟩
/-- TEAM_ROLE.PHYS_1, R81 (reset undefined in the spec: DESIGN CHOICE 0, log 3). -/
def teamRolePhys1 : Fld := ⟨0x1000020, 13, 8, .ro, 0⟩
/-- TEAM_ROLE.PHYS_0, R81 (reset undefined in the spec: DESIGN CHOICE 0, log 3). -/
def teamRolePhys0 : Fld := ⟨0x1000020, 5, 0, .ro, 0⟩
/-- TEAM_BEATS_LO.COUNT, R81. -/
def teamBeatsLo : Fld := ⟨0x1000040, 31, 0, .ro, 0⟩
/-- TEAM_BEATS_HI.COUNT, R81. -/
def teamBeatsHi : Fld := ⟨0x1000044, 31, 0, .ro, 0⟩
/-- TEAM_HELD.COUNT, R81. -/
def teamHeld : Fld := ⟨0x1000048, 31, 0, .rc, 0⟩
/-- TEAM_ZERO_SKIPS.COUNT, R81. -/
def teamZeroSkips : Fld := ⟨0x100004c, 31, 0, .rc, 0⟩
/-- TEAM_SAT_COUNT.COUNT, R81. -/
def teamSatCount : Fld := ⟨0x1000050, 31, 0, .rc, 0⟩
/-- TEAM_CLASS_HIST.COUNT, R81. -/
def teamClassHist : Fld := ⟨0x1000060, 31, 0, .rc, 0⟩
/-- TILE_STATUS.OUT_OF_SERVICE, R82. -/
def tileStatusOutOfService : Fld := ⟨0x1001800, 16, 16, .ro, 0⟩
/-- TILE_STATUS.ROLE, R82 (reset undefined in the spec: DESIGN CHOICE 0, log 3). -/
def tileStatusRole : Fld := ⟨0x1001800, 13, 8, .ro, 0⟩
/-- TILE_STATUS.KIND, R82 (reset undefined in the spec: DESIGN CHOICE 0, log 3). -/
def tileStatusKind : Fld := ⟨0x1001800, 5, 4, .ro, 0⟩
/-- TILE_STATUS.SWAP_PENDING, R82. -/
def tileStatusSwapPending : Fld := ⟨0x1001800, 3, 3, .ro, 0⟩
/-- TILE_STATUS.DRAIN, R82. -/
def tileStatusDrain : Fld := ⟨0x1001800, 2, 2, .ro, 0⟩
/-- TILE_STATUS.OPEN_BUSY, R82. -/
def tileStatusOpenBusy : Fld := ⟨0x1001800, 1, 1, .ro, 0⟩
/-- TILE_STATUS.LIVE, R82. -/
def tileStatusLive : Fld := ⟨0x1001800, 0, 0, .ro, 0⟩
/-- TILE_CONFIG.PHASE, R82. -/
def tileConfigPhase : Fld := ⟨0x1001804, 12, 12, .ro, 0⟩
/-- TILE_CONFIG.SEG, R82. -/
def tileConfigSeg : Fld := ⟨0x1001804, 11, 10, .ro, 0⟩
/-- TILE_CONFIG.SEG_SCALE, R82. -/
def tileConfigSegScale : Fld := ⟨0x1001804, 7, 7, .ro, 0⟩
/-- TILE_CONFIG.PAIR, R82. -/
def tileConfigPair : Fld := ⟨0x1001804, 6, 6, .ro, 0⟩
/-- TILE_CONFIG.CLASS_FLOOR, R82. -/
def tileConfigClassFloor : Fld := ⟨0x1001804, 5, 3, .ro, 0⟩
/-- TILE_CONFIG.IN_FMT, R82. -/
def tileConfigInFmt : Fld := ⟨0x1001804, 0, 0, .ro, 0⟩
/-- TILE_LAST.ACTIVE_ROWS, R82. -/
def tileLastActiveRows : Fld := ⟨0x1001808, 26, 16, .ro, 0⟩
/-- TILE_LAST.ZERO, R82. -/
def tileLastZero : Fld := ⟨0x1001808, 8, 8, .ro, 0⟩
/-- TILE_LAST.SAT_ANY, R82. -/
def tileLastSatAny : Fld := ⟨0x1001808, 7, 7, .ro, 0⟩
/-- TILE_LAST.X, R82. -/
def tileLastX : Fld := ⟨0x1001808, 6, 4, .ro, 0⟩
/-- TILE_LAST.CLASS, R82. -/
def tileLastClass : Fld := ⟨0x1001808, 2, 0, .ro, 0⟩
/-- TILE_ERR.EDGE_MISSING, R82. -/
def tileErrEdgeMissing : Fld := ⟨0x100180c, 2, 2, .w1c, 0⟩
/-- TILE_ERR.WIN_LIMIT, R82. -/
def tileErrWinLimit : Fld := ⟨0x100180c, 1, 1, .w1c, 0⟩
/-- TILE_ERR.LIVE_WRITE, R82. -/
def tileErrLiveWrite : Fld := ⟨0x100180c, 0, 0, .w1c, 0⟩
/-- TILE_BEATS_LO.COUNT, R82. -/
def tileBeatsLo : Fld := ⟨0x1001810, 31, 0, .ro, 0⟩
/-- TILE_BEATS_HI.COUNT, R82. -/
def tileBeatsHi : Fld := ⟨0x1001814, 31, 0, .ro, 0⟩
/-- TILE_ZERO_COUNT.COUNT, R82. -/
def tileZeroCount : Fld := ⟨0x1001818, 31, 0, .rc, 0⟩
/-- TILE_SAT_COUNT.COUNT, R82. -/
def tileSatCount : Fld := ⟨0x100181c, 31, 0, .rc, 0⟩
/-- TILE_SAT_MASK.COLUMNS, R82. -/
def tileSatMask : Fld := ⟨0x1001820, 31, 0, .ro, 0⟩
/-- TILE_SAT_WAY_LO.WAYMARK, R82. -/
def tileSatWayLo : Fld := ⟨0x1001840, 31, 0, .ro, 0⟩
/-- TILE_SAT_WAY_HI.WAYMARK, R82. -/
def tileSatWayHi : Fld := ⟨0x1001844, 31, 0, .ro, 0⟩
/-- TILE_INCARNATION.VALUE, R82 (reset undefined in the spec: DESIGN CHOICE 0, log 3). -/
def tileIncarnation : Fld := ⟨0x1001848, 31, 0, .ro, 0⟩
/-- OUTR_STATUS.ARB_QUEUED, R109. -/
def outrStatusArbQueued : Fld := ⟨0x1000400, 11, 9, .ro, 0⟩
/-- OUTR_STATUS.REF_BUSY, R109. -/
def outrStatusRefBusy : Fld := ⟨0x1000400, 8, 8, .ro, 0⟩
/-- OUTR_STATUS.SELFTEST_PASS, R109. -/
def outrStatusSelftestPass : Fld := ⟨0x1000400, 7, 7, .ro, 0⟩
/-- OUTR_STATUS.SELFTEST_DONE, R109. -/
def outrStatusSelftestDone : Fld := ⟨0x1000400, 6, 6, .ro, 0⟩
/-- OUTR_STATUS.DEGRADED, R109. -/
def outrStatusDegraded : Fld := ⟨0x1000400, 5, 5, .ro, 0⟩
/-- OUTR_STATUS.OUT_OF_SERVICE, R109. -/
def outrStatusOutOfService : Fld := ⟨0x1000400, 4, 4, .ro, 0⟩
/-- OUTR_STATUS.FORCED_CHECK, R109. -/
def outrStatusForcedCheck : Fld := ⟨0x1000400, 3, 3, .ro, 0⟩
/-- OUTR_STATUS.SPLIT_STALL, R109. -/
def outrStatusSplitStall : Fld := ⟨0x1000400, 2, 2, .ro, 0⟩
/-- OUTR_STATUS.BACKPRESSURE, R109. -/
def outrStatusBackpressure : Fld := ⟨0x1000400, 1, 1, .ro, 0⟩
/-- OUTR_STATUS.ARB_ACTIVE, R109. -/
def outrStatusArbActive : Fld := ⟨0x1000400, 0, 0, .ro, 0⟩
/-- OUTR_CTRL.ROLE, R109. -/
def outrCtrlRole : Fld := ⟨0x1000404, 13, 8, .rw, 0⟩
/-- OUTR_CTRL.SAMPLE, R109. -/
def outrCtrlSample : Fld := ⟨0x1000404, 2, 2, .wo, 0⟩
/-- OUTR_CTRL.SELFTEST, R109. -/
def outrCtrlSelftest : Fld := ⟨0x1000404, 1, 1, .wo, 0⟩
/-- OUTR_ERR.CHECK_LATE, R109. -/
def outrErrCheckLate : Fld := ⟨0x1000408, 2, 2, .w1c, 0⟩
/-- OUTR_ERR.SELFTEST_REFUSED, R109. -/
def outrErrSelftestRefused : Fld := ⟨0x1000408, 1, 1, .w1c, 0⟩
/-- OUTR_ERR.REF_BAD, R109. -/
def outrErrRefBad : Fld := ⟨0x1000408, 0, 0, .w1c, 0⟩
/-- OUTR_ARB.STATE, R109. -/
def outrArbState : Fld := ⟨0x1000410, 19, 16, .ro, 0⟩
/-- OUTR_ARB.PHASE, R109. -/
def outrArbPhase : Fld := ⟨0x1000410, 8, 8, .ro, 0⟩
/-- OUTR_ARB.VERDICT, R109. -/
def outrArbVerdict : Fld := ⟨0x1000410, 3, 0, .ro, 0⟩
/-- OUTR_ARB_WHERE.SPARE, R109. -/
def outrArbWhereSpare : Fld := ⟨0x1000414, 29, 24, .ro, 0x3f⟩
/-- OUTR_ARB_WHERE.PHYS, R109. -/
def outrArbWherePhys : Fld := ⟨0x1000414, 21, 16, .ro, 0⟩
/-- OUTR_ARB_WHERE.ROLE, R109. -/
def outrArbWhereRole : Fld := ⟨0x1000414, 13, 8, .ro, 0⟩
/-- OUTR_ARB_WHERE.COLUMN, R109. -/
def outrArbWhereColumn : Fld := ⟨0x1000414, 7, 0, .ro, 0⟩
/-- OUTR_REF_CTRL.GO, R109. -/
def outrRefCtrlGo : Fld := ⟨0x1000420, 31, 31, .wo, 0⟩
/-- OUTR_REF_CTRL.TILE, R109. -/
def outrRefCtrlTile : Fld := ⟨0x1000420, 21, 16, .rw, 0⟩
/-- OUTR_REF_CTRL.PLANE, R109. -/
def outrRefCtrlPlane : Fld := ⟨0x1000420, 12, 12, .rw, 0⟩
/-- OUTR_REF_CTRL.SEG, R109. -/
def outrRefCtrlSeg : Fld := ⟨0x1000420, 11, 10, .rw, 0⟩
/-- OUTR_REF_CTRL.SEG_SCALE, R109. -/
def outrRefCtrlSegScale : Fld := ⟨0x1000420, 9, 9, .rw, 0⟩
/-- OUTR_REF_CTRL.PAIR, R109. -/
def outrRefCtrlPair : Fld := ⟨0x1000420, 8, 8, .rw, 0⟩
/-- OUTR_REF_CTRL.IN_FMT, R109. -/
def outrRefCtrlInFmt : Fld := ⟨0x1000420, 7, 7, .rw, 0⟩
/-- OUTR_REF_CTRL.CLASS_FLOOR, R109. -/
def outrRefCtrlClassFloor : Fld := ⟨0x1000420, 6, 4, .rw, 0⟩
/-- OUTR_REF_CTRL.DONE, R109. -/
def outrRefCtrlDone : Fld := ⟨0x1000420, 0, 0, .w1c, 0⟩
/-- OUTR_LAYER_SEL.LAYER, R109. -/
def outrLayerSelLayer : Fld := ⟨0x1000434, 5, 0, .rw, 0⟩
/-- OUTR_ARB_WAY_LO.WAYMARK, R109. -/
def outrArbWayLo : Fld := ⟨0x1000418, 31, 0, .ro, 0⟩
/-- OUTR_ARB_WAY_HI.WAYMARK, R109. -/
def outrArbWayHi : Fld := ⟨0x100041c, 31, 0, .ro, 0⟩
/-- OUTR_REF_IN_LO.ADDR_LO, R109. -/
def outrRefInLo : Fld := ⟨0x1000424, 31, 6, .rw, 0⟩
/-- OUTR_REF_OUT_LO.ADDR_LO, R109. -/
def outrRefOutLo : Fld := ⟨0x100042c, 31, 6, .rw, 0⟩
/-- OUTR_REF_IN_HI.ADDR_HI, R109. -/
def outrRefInHi : Fld := ⟨0x1000428, 31, 0, .rw, 0⟩
/-- OUTR_REF_OUT_HI.ADDR_HI, R109. -/
def outrRefOutHi : Fld := ⟨0x1000430, 31, 0, .rw, 0⟩
/-- OUTR_LAYER_OVF.COUNT, R109. -/
def outrLayerOvf : Fld := ⟨0x1000438, 31, 0, .rc, 0⟩
/-- OUTR_LAYER_OVF_UNITS.COUNT, R109. -/
def outrLayerOvfUnits : Fld := ⟨0x100043c, 31, 0, .rc, 0⟩
/-- OUTR_OUTLIER_ROWS.COUNT, R109. -/
def outrOutlierRows : Fld := ⟨0x1000440, 31, 0, .rc, 0⟩
/-- OUTR_OUTLIER_UNITS.COUNT, R109. -/
def outrOutlierUnits : Fld := ⟨0x1000444, 31, 0, .rc, 0⟩
/-- OUTR_OVF_VECTORS.COUNT, R109. -/
def outrOvfVectors : Fld := ⟨0x1000448, 31, 0, .rc, 0⟩
/-- OUTR_STALL_PERIODS.COUNT, R109. -/
def outrStallPeriods : Fld := ⟨0x100044c, 31, 0, .rc, 0⟩
/-- OUTR_CLAMPED_ROWS.COUNT, R109. -/
def outrClampedRows : Fld := ⟨0x1000450, 31, 0, .rc, 0⟩
/-- OUTR_EXTRACT_LIMIT.COUNT, R109. -/
def outrExtractLimit : Fld := ⟨0x1000454, 31, 0, .rc, 0⟩
/-- OUTR_FINE_LOSS.COUNT, R109. -/
def outrFineLoss : Fld := ⟨0x1000458, 31, 0, .rc, 0⟩
/-- OUTR_SAT_REPAIRED.COUNT, R109. -/
def outrSatRepaired : Fld := ⟨0x100045c, 31, 0, .rc, 0⟩
/-- OUTR_SAT_UNREPAIRED.COUNT, R109. -/
def outrSatUnrepaired : Fld := ⟨0x1000460, 31, 0, .rc, 0⟩
/-- OUTR_CHECKS.COUNT, R109. -/
def outrChecks : Fld := ⟨0x1000464, 31, 0, .rc, 0⟩
/-- OUTR_NEAR.COUNT, R109. -/
def outrNear : Fld := ⟨0x1000468, 31, 0, .rc, 0⟩
/-- OUTR_CHECK_FAILS.COUNT, R109. -/
def outrCheckFails : Fld := ⟨0x100046c, 31, 0, .rc, 0⟩
/-- OUTR_CHECK_STALLS.COUNT, R109. -/
def outrCheckStalls : Fld := ⟨0x1000470, 31, 0, .rc, 0⟩
/-- OUTR_BACKPRESSURE.COUNT, R109. -/
def outrBackpressure : Fld := ⟨0x1000474, 31, 0, .rc, 0⟩
/-- OUTR_REPLAYS.COUNT, R109. -/
def outrReplays : Fld := ⟨0x1000478, 31, 0, .rc, 0⟩
/-- OUTR_ARB_COUNT.COUNT, R109. -/
def outrArbCount : Fld := ⟨0x100047c, 31, 0, .rc, 0⟩
/-- CAL_STATUS.TILE, R136. -/
def calStatusTile : Fld := ⟨0x1000800, 21, 16, .ro, 0x3f⟩
/-- CAL_STATUS.SLEWING, R136. -/
def calStatusSlewing : Fld := ⟨0x1000800, 13, 8, .ro, 0⟩
/-- CAL_STATUS.STEP, R136. -/
def calStatusStep : Fld := ⟨0x1000800, 6, 4, .ro, 0⟩
/-- CAL_STATUS.TRACKING, R136. -/
def calStatusTracking : Fld := ⟨0x1000800, 3, 3, .ro, 0⟩
/-- CAL_STATUS.MODE, R136. -/
def calStatusMode : Fld := ⟨0x1000800, 2, 2, .ro, 0⟩
/-- CAL_STATUS.CALREF_OK, R136. -/
def calStatusCalrefOk : Fld := ⟨0x1000800, 1, 1, .ro, 0⟩
/-- CAL_STATUS.BUSY, R136. -/
def calStatusBusy : Fld := ⟨0x1000800, 0, 0, .ro, 0⟩
/-- CAL_CTRL.TILE, R136. -/
def calCtrlTile : Fld := ⟨0x1000804, 13, 8, .rw, 0⟩
/-- CAL_CTRL.HOLD, R136. -/
def calCtrlHold : Fld := ⟨0x1000804, 2, 2, .rw, 0⟩
/-- CAL_CTRL.ABANDON, R136. -/
def calCtrlAbandon : Fld := ⟨0x1000804, 1, 1, .wo, 0⟩
/-- CAL_CTRL.REQUEST, R136. -/
def calCtrlRequest : Fld := ⟨0x1000804, 0, 0, .wo, 0⟩
/-- CAL_ERR.LATE, R136. -/
def calErrLate : Fld := ⟨0x1000808, 5, 5, .w1c, 0⟩
/-- CAL_ERR.FIT_POOR, R136. -/
def calErrFitPoor : Fld := ⟨0x1000808, 4, 4, .w1c, 0⟩
/-- CAL_ERR.NO_DATA, R136. -/
def calErrNoData : Fld := ⟨0x1000808, 3, 3, .w1c, 0⟩
/-- CAL_ERR.NO_SPARE, R136. -/
def calErrNoSpare : Fld := ⟨0x1000808, 2, 2, .w1c, 0⟩
/-- CAL_ERR.TRIM_LIMIT, R136. -/
def calErrTrimLimit : Fld := ⟨0x1000808, 1, 1, .w1c, 0⟩
/-- CAL_ERR.CALREF_LOST, R136. -/
def calErrCalrefLost : Fld := ⟨0x1000808, 0, 0, .w1c, 0⟩
/-- CAL_ROT.PERIOD, R136 (reset undefined in the spec: DESIGN CHOICE 0, log 3). -/
def calRotPeriod : Fld := ⟨0x100080c, 31, 16, .ro, 0⟩
/-- CAL_ROT.NEXT, R136. -/
def calRotNext : Fld := ⟨0x100080c, 5, 0, .ro, 0⟩
/-- CAL_SLEW.INTERVAL, R136. -/
def calSlewInterval : Fld := ⟨0x1000810, 15, 0, .rw, 0x3e8⟩
/-- CAL_SEL.TILE, R136. -/
def calSelTile : Fld := ⟨0x1000814, 29, 24, .rw, 0⟩
/-- CAL_SEL.SET, R136. -/
def calSelSet : Fld := ⟨0x1000814, 17, 16, .rw, 0⟩
/-- CAL_SEL.CHAIN, R136. -/
def calSelChain : Fld := ⟨0x1000814, 9, 9, .rw, 0⟩
/-- CAL_SEL.COLUMN, R136. -/
def calSelColumn : Fld := ⟨0x1000814, 8, 0, .rw, 0⟩
/-- CAL_COEF.GAIN, R136. -/
def calCoefGain : Fld := ⟨0x1000818, 31, 16, .ro, 0⟩
/-- CAL_COEF.OFFSET, R136. -/
def calCoefOffset : Fld := ⟨0x1000818, 11, 0, .ro, 0⟩
/-- CAL_TEMP.TCO, R136 (reset undefined in the spec: DESIGN CHOICE 0, log 3). -/
def calTempTco : Fld := ⟨0x1000820, 31, 24, .ro, 0⟩
/-- CAL_TEMP.T_CAL, R136 (reset undefined in the spec: DESIGN CHOICE 0, log 3). -/
def calTempTCal : Fld := ⟨0x1000820, 15, 0, .ro, 0⟩
/-- CAL_INFO.COUNT, R136. -/
def calInfoCount : Fld := ⟨0x1000828, 31, 16, .ro, 0⟩
/-- CAL_INFO.RESID, R136. -/
def calInfoResid : Fld := ⟨0x1000828, 15, 8, .ro, 0⟩
/-- CAL_INFO.LAST_MODE, R136. -/
def calInfoLastMode : Fld := ⟨0x1000828, 1, 1, .ro, 0⟩
/-- CAL_INFO.VALID, R136. -/
def calInfoValid : Fld := ⟨0x1000828, 0, 0, .ro, 0⟩
/-- CAL_TRIM.WIN, R136. -/
def calTrimWin : Fld := ⟨0x100081c, 26, 16, .ro, 0⟩
/-- CAL_TRIM.DELAY, R136. -/
def calTrimDelay : Fld := ⟨0x100081c, 10, 0, .ro, 0⟩
/-- CAL_EFF.WIN, R136. -/
def calEffWin : Fld := ⟨0x1000824, 26, 16, .ro, 0⟩
/-- CAL_EFF.DELAY, R136. -/
def calEffDelay : Fld := ⟨0x1000824, 10, 0, .ro, 0⟩
/-- CAL_WAY_LO.WAYMARK, R136. -/
def calWayLo : Fld := ⟨0x1000830, 31, 0, .ro, 0⟩
/-- CAL_WAY_HI.WAYMARK, R136. -/
def calWayHi : Fld := ⟨0x1000834, 31, 0, .ro, 0⟩
/-- CAL_DONE_COUNT.COUNT, R136. -/
def calDoneCount : Fld := ⟨0x1000840, 31, 0, .rc, 0⟩
/-- CAL_SKIPPED_COUNT.COUNT, R136. -/
def calSkippedCount : Fld := ⟨0x1000844, 31, 0, .rc, 0⟩
/-- CAL_ABRUPT_COUNT.COUNT, R136. -/
def calAbruptCount : Fld := ⟨0x1000848, 31, 0, .rc, 0⟩
/-- CAL_LATE_COUNT.COUNT, R136. -/
def calLateCount : Fld := ⟨0x100084c, 31, 0, .rc, 0⟩
/-- FARR_STATUS.PENDING, R138. -/
def farrStatusPending : Fld := ⟨0x1000c00, 22, 22, .ro, 0⟩
/-- FARR_STATUS.PENDING_TILE, R138. -/
def farrStatusPendingTile : Fld := ⟨0x1000c00, 21, 16, .ro, 0x3f⟩
/-- FARR_STATUS.RETIRED, R138 (reset undefined in the spec: DESIGN CHOICE 0, log 3). -/
def farrStatusRetired : Fld := ⟨0x1000c00, 15, 10, .ro, 0⟩
/-- FARR_STATUS.NV_PENDING, R138. -/
def farrStatusNvPending : Fld := ⟨0x1000c00, 8, 8, .ro, 0⟩
/-- FARR_STATUS.BYPASS, R138 (reset undefined in the spec: DESIGN CHOICE 0, log 3). -/
def farrStatusBypass : Fld := ⟨0x1000c00, 6, 4, .ro, 0⟩
/-- FARR_STATUS.IDLE_SPARES, R138 (reset undefined in the spec: DESIGN CHOICE 0, log 3). -/
def farrStatusIdleSpares : Fld := ⟨0x1000c00, 1, 0, .ro, 0⟩
/-- FARR_CTRL.GO, R138. -/
def farrCtrlGo : Fld := ⟨0x1000c04, 31, 31, .wo, 0⟩
/-- FARR_CTRL.CMD, R138. -/
def farrCtrlCmd : Fld := ⟨0x1000c04, 30, 28, .rw, 0⟩
/-- FARR_CTRL.TILE, R138. -/
def farrCtrlTile : Fld := ⟨0x1000c04, 21, 16, .rw, 0⟩
/-- FARR_CTRL.COLUMN, R138. -/
def farrCtrlColumn : Fld := ⟨0x1000c04, 8, 0, .rw, 0⟩
/-- FARR_ERR.CMD_REFUSED, R138. -/
def farrErrCmdRefused : Fld := ⟨0x1000c08, 4, 4, .w1c, 0⟩
/-- FARR_ERR.NV_FAIL, R138. -/
def farrErrNvFail : Fld := ⟨0x1000c08, 3, 3, .w1c, 0⟩
/-- FARR_ERR.BYPASS_FULL, R138. -/
def farrErrBypassFull : Fld := ⟨0x1000c08, 2, 2, .w1c, 0⟩
/-- FARR_ERR.NO_SPARE_TILE, R138. -/
def farrErrNoSpareTile : Fld := ⟨0x1000c08, 1, 1, .w1c, 0⟩
/-- FARR_ERR.NO_SPARE_COLUMN, R138. -/
def farrErrNoSpareColumn : Fld := ⟨0x1000c08, 0, 0, .w1c, 0⟩
/-- FARR_LAST.ACTION, R138. -/
def farrLastAction : Fld := ⟨0x1000c0c, 31, 28, .ro, 0⟩
/-- FARR_LAST.REASON, R138. -/
def farrLastReason : Fld := ⟨0x1000c0c, 27, 24, .ro, 0⟩
/-- FARR_LAST.TILE, R138. -/
def farrLastTile : Fld := ⟨0x1000c0c, 21, 16, .ro, 0⟩
/-- FARR_LAST.COLUMN, R138. -/
def farrLastColumn : Fld := ⟨0x1000c0c, 8, 0, .ro, 0⟩
/-- FARR_LAST_WAY_LO.WAYMARK, R138. -/
def farrLastWayLo : Fld := ⟨0x1000c10, 31, 0, .ro, 0⟩
/-- FARR_LAST_WAY_HI.WAYMARK, R138. -/
def farrLastWayHi : Fld := ⟨0x1000c14, 31, 0, .ro, 0⟩
/-- FARR_REMAP_COUNT.COUNT, R138. -/
def farrRemapCount : Fld := ⟨0x1000c18, 31, 0, .rc, 0⟩
/-- FARR_RETIRE_COUNT.COUNT, R138. -/
def farrRetireCount : Fld := ⟨0x1000c1c, 31, 0, .rc, 0⟩
/-- FARR_BYPASS.VALID, R138 (reset undefined in the spec: DESIGN CHOICE 0, log 3). -/
def farrBypassValid : Fld := ⟨0x1000c20, 31, 31, .ro, 0⟩
/-- FARR_BYPASS.TILE, R138 (reset undefined in the spec: DESIGN CHOICE 0, log 3). -/
def farrBypassTile : Fld := ⟨0x1000c20, 21, 16, .ro, 0⟩
/-- FARR_BYPASS.COLUMN, R138 (reset undefined in the spec: DESIGN CHOICE 0, log 3). -/
def farrBypassColumn : Fld := ⟨0x1000c20, 8, 0, .ro, 0⟩
/-- FARR_MAP.STATE_HI, R138 (reset undefined in the spec: DESIGN CHOICE 0, log 3). -/
def farrMapStateHi : Fld := ⟨0x1000d00, 31, 30, .ro, 0⟩
/-- FARR_MAP.LOGICAL_HI, R138 (reset undefined in the spec: DESIGN CHOICE 0, log 3). -/
def farrMapLogicalHi : Fld := ⟨0x1000d00, 24, 16, .ro, 0⟩
/-- FARR_MAP.STATE_LO, R138 (reset undefined in the spec: DESIGN CHOICE 0, log 3). -/
def farrMapStateLo : Fld := ⟨0x1000d00, 15, 14, .ro, 0⟩
/-- FARR_MAP.LOGICAL_LO, R138 (reset undefined in the spec: DESIGN CHOICE 0, log 3). -/
def farrMapLogicalLo : Fld := ⟨0x1000d00, 8, 0, .ro, 0⟩
/-- ACC_STATUS.REPLAY, R169. -/
def accStatusReplay : Fld := ⟨0x1001000, 17, 17, .ro, 0⟩
/-- ACC_STATUS.HOLD, R169. -/
def accStatusHold : Fld := ⟨0x1001000, 16, 16, .ro, 0⟩
/-- ACC_STATUS.OPEN, R169. -/
def accStatusOpen : Fld := ⟨0x1001000, 15, 0, .ro, 0⟩
/-- ACC_CTRL.GROUP, R169. -/
def accCtrlGroup : Fld := ⟨0x1001004, 19, 16, .rw, 0⟩
/-- ACC_CTRL.ABANDON, R169. -/
def accCtrlAbandon : Fld := ⟨0x1001004, 1, 1, .wo, 0⟩
/-- ACC_ERR.BAD_FIELD, R169. -/
def accErrBadField : Fld := ⟨0x1001008, 5, 5, .w1c, 0⟩
/-- ACC_ERR.BAD_SCALE, R169. -/
def accErrBadScale : Fld := ⟨0x1001008, 4, 4, .w1c, 0⟩
/-- ACC_ERR.NAN_INPUT, R169. -/
def accErrNanInput : Fld := ⟨0x1001008, 3, 3, .w1c, 0⟩
/-- ACC_ERR.STRAY, R169. -/
def accErrStray : Fld := ⟨0x1001008, 2, 2, .w1c, 0⟩
/-- ACC_ERR.OVERLAP, R169. -/
def accErrOverlap : Fld := ⟨0x1001008, 1, 1, .w1c, 0⟩
/-- ACC_ERR.OPEN_BUSY, R169. -/
def accErrOpenBusy : Fld := ⟨0x1001008, 0, 0, .w1c, 0⟩
/-- ACC_GROUP_SEL.GROUP, R169. -/
def accGroupSelGroup : Fld := ⟨0x100100c, 3, 0, .rw, 0⟩
/-- ACC_GROUP.STATE, R169. -/
def accGroupState : Fld := ⟨0x1001010, 31, 30, .ro, 0⟩
/-- ACC_GROUP.MODE, R169. -/
def accGroupMode : Fld := ⟨0x1001010, 29, 29, .ro, 0⟩
/-- ACC_GROUP.SAT, R169. -/
def accGroupSat : Fld := ⟨0x1001010, 28, 28, .ro, 0⟩
/-- ACC_GROUP.PENDING, R169. -/
def accGroupPending : Fld := ⟨0x1001010, 27, 24, .ro, 0⟩
/-- ACC_GROUP.VECTORS_M1, R169. -/
def accGroupVectorsM1 : Fld := ⟨0x1001010, 23, 16, .ro, 0⟩
/-- ACC_GROUP.WIDTH_M1, R169. -/
def accGroupWidthM1 : Fld := ⟨0x1001010, 15, 8, .ro, 0⟩
/-- ACC_GROUP.FIRST, R169. -/
def accGroupFirst : Fld := ⟨0x1001010, 7, 0, .ro, 0⟩
/-- ACC_GROUP_INFO.LAYER, R169. -/
def accGroupInfoLayer : Fld := ⟨0x1001014, 29, 24, .ro, 0⟩
/-- ACC_GROUP_INFO.FIX, R169. -/
def accGroupInfoFix : Fld := ⟨0x1001014, 23, 16, .ro, 0⟩
/-- ACC_GROUP_INFO.TOPK_K, R169. -/
def accGroupInfoTopkK : Fld := ⟨0x1001014, 14, 8, .ro, 0⟩
/-- ACC_GROUP_INFO.OUT_MX, R169. -/
def accGroupInfoOutMx : Fld := ⟨0x1001014, 3, 1, .ro, 0⟩
/-- ACC_GROUP_INFO.TOPK_DIR, R169. -/
def accGroupInfoTopkDir : Fld := ⟨0x1001014, 0, 0, .ro, 0⟩
/-- ACC_MILEPOST.NUMBER, R169. -/
def accMilepost : Fld := ⟨0x1001018, 31, 0, .ro, 0⟩
/-- ACC_LAYER_SEL.LAYER, R169. -/
def accLayerSelLayer : Fld := ⟨0x100101c, 5, 0, .rw, 0⟩
/-- ACC_LAYER_SAT.COUNT, R169. -/
def accLayerSat : Fld := ⟨0x1001020, 31, 0, .rc, 0⟩
/-- ACC_LAYER_UFL.COUNT, R169. -/
def accLayerUfl : Fld := ⟨0x1001024, 31, 0, .rc, 0⟩
/-- ACC_PROMOTIONS.COUNT, R169. -/
def accPromotions : Fld := ⟨0x1001040, 31, 0, .rc, 0⟩
/-- ACC_EARLY.COUNT, R169. -/
def accEarly : Fld := ⟨0x1001044, 31, 0, .rc, 0⟩
/-- ACC_OUTR_ADDS.COUNT, R169. -/
def accOutrAdds : Fld := ⟨0x1001048, 31, 0, .rc, 0⟩
/-- ACC_WIDE_SAT.COUNT, R169. -/
def accWideSat : Fld := ⟨0x100104c, 31, 0, .rc, 0⟩
/-- ACC_EDGE_UFL.COUNT, R169. -/
def accEdgeUfl : Fld := ⟨0x1001050, 31, 0, .rc, 0⟩
/-- ACC_OUT_SAT.COUNT, R169. -/
def accOutSat : Fld := ⟨0x1001054, 31, 0, .rc, 0⟩
/-- ACC_OUT_UFL.COUNT, R169. -/
def accOutUfl : Fld := ⟨0x1001058, 31, 0, .rc, 0⟩
/-- ACC_STRAY.COUNT, R169. -/
def accStray : Fld := ⟨0x100105c, 31, 0, .rc, 0⟩
/-- ACC_ABANDONED.COUNT, R169. -/
def accAbandoned : Fld := ⟨0x1001060, 31, 0, .rc, 0⟩
/-- ACC_TOPK.COUNT, R169. -/
def accTopk : Fld := ⟨0x1001064, 31, 0, .rc, 0⟩
/-- ACC_REPLAYS.COUNT, R169. -/
def accReplays : Fld := ⟨0x1001068, 31, 0, .rc, 0⟩
/-- ACC_REPLAY_LIMITED.COUNT, R169. -/
def accReplayLimited : Fld := ⟨0x100106c, 31, 0, .rc, 0⟩
/-- KV_STATUS.WAITERS, R224. -/
def kvStatusWaiters : Fld := ⟨0xd0000, 31, 16, .ro, 0⟩
/-- KV_STATUS.SNAP_VALID, R224. -/
def kvStatusSnapValid : Fld := ⟨0xd0000, 0, 0, .ro, 0⟩
/-- KV_ERR.POISON, R224. -/
def kvErrPoison : Fld := ⟨0xd0004, 5, 5, .w1c, 0⟩
/-- KV_ERR.REF_LIMIT, R224. -/
def kvErrRefLimit : Fld := ⟨0xd0004, 4, 4, .w1c, 0⟩
/-- KV_ERR.HOST_DMA, R224. -/
def kvErrHostDma : Fld := ⟨0xd0004, 3, 3, .w1c, 0⟩
/-- KV_ERR.HOST_BUSY, R224. -/
def kvErrHostBusy : Fld := ⟨0xd0004, 2, 2, .w1c, 0⟩
/-- KV_ERR.SCORE_SPACE, R224. -/
def kvErrScoreSpace : Fld := ⟨0xd0004, 1, 1, .w1c, 0⟩
/-- KV_ERR.DESC, R224. -/
def kvErrDesc : Fld := ⟨0xd0004, 0, 0, .w1c, 0⟩
/-- KV_SEL0.SLOT, R224. -/
def kvSel0Slot : Fld := ⟨0xd0008, 29, 16, .rw, 0⟩
/-- KV_SEL0.PART, R224. -/
def kvSel0Part : Fld := ⟨0xd0008, 4, 0, .rw, 0⟩
/-- KV_SEL1.INDEX, R224. -/
def kvSel1Index : Fld := ⟨0xd000c, 27, 16, .rw, 0⟩
/-- KV_SEL1.CACHE, R224. -/
def kvSel1Cache : Fld := ⟨0xd000c, 9, 0, .rw, 0⟩
/-- KV_SEQ.STATE, R224. -/
def kvSeqState : Fld := ⟨0xd0010, 23, 16, .ro, 0⟩
/-- KV_SEQ.COUNT, R224. -/
def kvSeqCount : Fld := ⟨0xd0010, 12, 0, .ro, 0⟩
/-- KV_SEQ_LEN.NEXT_POS, R224. -/
def kvSeqLen : Fld := ⟨0xd0014, 31, 0, .ro, 0⟩
/-- KV_PTE.WORD, R224. -/
def kvPte : Fld := ⟨0xd0020, 31, 0, .ro, 0⟩
/-- KV_PAGE.WORD, R224. -/
def kvPage : Fld := ⟨0xd0040, 31, 0, .ro, 0⟩
/-- KV_P_STATUS.WAITERS, R224. -/
def kvPStatusWaiters : Fld := ⟨0xd1000, 31, 16, .ro, 0⟩
/-- KV_P_STATUS.CACHES, R224. -/
def kvPStatusCaches : Fld := ⟨0xd1000, 0, 0, .ro, 0⟩
/-- KV_P_HOST_LO.ADDR_LO, R224. -/
def kvPHostLo : Fld := ⟨0xd1004, 31, 12, .rw, 0⟩
/-- KV_P_HOST_HI.ADDR_HI, R224. -/
def kvPHostHi : Fld := ⟨0xd1008, 31, 0, .rw, 0⟩
/-- KV_P_HOST_FRAMES.FRAMES, R224. -/
def kvPHostFrames : Fld := ⟨0xd100c, 23, 0, .rw, 0⟩
/-- KV_P_FREE_SRAM.FRAMES, R224. -/
def kvPFreeSram : Fld := ⟨0xd1010, 23, 0, .ro, 0⟩
/-- KV_P_FREE_DRAM.FRAMES, R224. -/
def kvPFreeDram : Fld := ⟨0xd1014, 23, 0, .ro, 0⟩
/-- KV_P_FREE_HOST.FRAMES, R224. -/
def kvPFreeHost : Fld := ⟨0xd1018, 23, 0, .ro, 0⟩
/-- KV_P_ALLOC.COUNT, R224. -/
def kvPAlloc : Fld := ⟨0xd1020, 31, 0, .rc, 0⟩
/-- KV_P_RECLAIM.COUNT, R224. -/
def kvPReclaim : Fld := ⟨0xd1024, 31, 0, .rc, 0⟩
/-- KV_P_COW.COUNT, R224. -/
def kvPCow : Fld := ⟨0xd1028, 31, 0, .rc, 0⟩
/-- KV_P_FORKS.COUNT, R224. -/
def kvPForks : Fld := ⟨0xd102c, 31, 0, .rc, 0⟩
/-- KV_P_REF_COPIES.COUNT, R224. -/
def kvPRefCopies : Fld := ⟨0xd1030, 31, 0, .rc, 0⟩
/-- KV_P_EVICT.COUNT, R224. -/
def kvPEvict : Fld := ⟨0xd1034, 31, 0, .rc, 0⟩
/-- KV_P_SPILL_DRAM.COUNT, R224. -/
def kvPSpillDram : Fld := ⟨0xd1038, 31, 0, .rc, 0⟩
/-- KV_P_SPILL_HOST.COUNT, R224. -/
def kvPSpillHost : Fld := ⟨0xd103c, 31, 0, .rc, 0⟩
/-- KV_P_FETCH.COUNT, R224. -/
def kvPFetch : Fld := ⟨0xd1040, 31, 0, .rc, 0⟩
/-- KV_P_WAITS.COUNT, R224. -/
def kvPWaits : Fld := ⟨0xd1044, 31, 0, .rc, 0⟩
/-- KV_P_EXHAUSTED.COUNT, R224. -/
def kvPExhausted : Fld := ⟨0xd1048, 31, 0, .rc, 0⟩
/-- GATE_SLOTS.BASE, R258 (reset undefined in the spec: DESIGN CHOICE 0, log 3). -/
def gateSlotsBase : Fld := ⟨0x10000000, 29, 16, .ro, 0⟩
/-- GATE_SLOTS.COUNT, R258 (reset undefined in the spec: DESIGN CHOICE 0, log 3). -/
def gateSlotsCount : Fld := ⟨0x10000000, 14, 0, .ro, 0⟩
/-- GATE_ACTIVE.RUNNING, R258. -/
def gateActiveRunning : Fld := ⟨0x10000004, 30, 16, .ro, 0⟩
/-- GATE_ACTIVE.ARMED, R258. -/
def gateActiveArmed : Fld := ⟨0x10000004, 14, 0, .ro, 0⟩
/-- GATE_PARKED.PAUSED, R258. -/
def gateParkedPaused : Fld := ⟨0x10000008, 30, 16, .ro, 0⟩
/-- GATE_PARKED.WAITING, R258. -/
def gateParkedWaiting : Fld := ⟨0x10000008, 14, 0, .ro, 0⟩
/-- GATE_ARMS.COUNT, R258. -/
def gateArms : Fld := ⟨0x10000020, 31, 0, .rc, 0⟩
/-- GATE_BAD_DESC.COUNT, R258. -/
def gateBadDesc : Fld := ⟨0x10000024, 31, 0, .rc, 0⟩
/-- GATE_IGNORED.COUNT, R258. -/
def gateIgnored : Fld := ⟨0x10000028, 31, 0, .rc, 0⟩
/-- GATE_STEPS.COUNT, R258. -/
def gateSteps : Fld := ⟨0x1000002c, 31, 0, .rc, 0⟩
/-- GATE_CANCELS.COUNT, R258. -/
def gateCancels : Fld := ⟨0x10000030, 31, 0, .rc, 0⟩
/-- GATE_TTL_EXPIRED.COUNT, R258. -/
def gateTtlExpired : Fld := ⟨0x10000034, 31, 0, .rc, 0⟩
/-- GATE_SPLITS.COUNT, R258. -/
def gateSplits : Fld := ⟨0x10000038, 31, 0, .rc, 0⟩
/-- GATE_SUSPENDS.COUNT, R258. -/
def gateSuspends : Fld := ⟨0x1000003c, 31, 0, .rc, 0⟩
/-- GATE_DONE_MAP.SLOTS, R258. -/
def gateDoneMap : Fld := ⟨0x10000800, 31, 0, .w1c, 0⟩
/-- RELAY_FWD_CHUNKS.COUNT, R286. -/
def relayFwdChunks : Fld := ⟨0xb0000, 31, 0, .rc, 0⟩
/-- RELAY_FWD_LATE.COUNT, R286. -/
def relayFwdLate : Fld := ⟨0xb0004, 31, 0, .rc, 0⟩
/-- LOAD_DESCS.COUNT, R286. -/
def loadDescs : Fld := ⟨0xb0124, 31, 0, .rc, 0⟩
/-- LOAD_KIB.COUNT, R286. -/
def loadKib : Fld := ⟨0xb0128, 31, 0, .rc, 0⟩
/-- LOAD_CTRL.GO, R286. -/
def loadCtrlGo : Fld := ⟨0xb0100, 31, 31, .wo, 0⟩
/-- LOAD_CTRL.ABORT, R286. -/
def loadCtrlAbort : Fld := ⟨0xb0100, 30, 30, .wo, 0⟩
/-- LOAD_CTRL.IRQ_VEC, R286. -/
def loadCtrlIrqVec : Fld := ⟨0xb0100, 10, 0, .rw, 0⟩
/-- LOAD_STATUS.EVENT, R286. -/
def loadStatusEvent : Fld := ⟨0xb0104, 31, 31, .w1c, 0⟩
/-- LOAD_STATUS.STATE, R286. -/
def loadStatusState : Fld := ⟨0xb0104, 17, 16, .ro, 0⟩
/-- LOAD_STATUS.LAST_CODE, R286. -/
def loadStatusLastCode : Fld := ⟨0xb0104, 7, 0, .ro, 0⟩
/-- LOAD_RX.SEQ, R286. -/
def loadRxSeq : Fld := ⟨0xb0118, 31, 16, .ro, 0⟩
/-- LOAD_RX.OUTCOME, R286. -/
def loadRxOutcome : Fld := ⟨0xb0118, 3, 0, .ro, 0⟩
/-- LOAD_RX_CHUNKS.COUNT, R286. -/
def loadRxChunks : Fld := ⟨0xb011c, 31, 0, .ro, 0⟩
/-- LOAD_RELOAD.PENDING, R286. -/
def loadReloadPending : Fld := ⟨0xb0120, 31, 31, .w1c, 0⟩
/-- LOAD_RELOAD.TEAM, R286. -/
def loadReloadTeam : Fld := ⟨0xb0120, 17, 8, .ro, 0⟩
/-- LOAD_RELOAD.PLANE, R286. -/
def loadReloadPlane : Fld := ⟨0xb0120, 7, 7, .ro, 0⟩
/-- LOAD_RELOAD.ROLE, R286. -/
def loadReloadRole : Fld := ⟨0xb0120, 5, 0, .ro, 0⟩
/-- LOAD_HEAD_LO.ADDR_LO, R286. -/
def loadHeadLo : Fld := ⟨0xb0108, 31, 6, .rw, 0⟩
/-- LOAD_CUR_LO.ADDR_LO, R286. -/
def loadCurLo : Fld := ⟨0xb0110, 31, 6, .ro, 0⟩
/-- LOAD_HEAD_HI.ADDR_HI, R286. -/
def loadHeadHi : Fld := ⟨0xb010c, 31, 0, .rw, 0⟩
/-- LOAD_CUR_HI.ADDR_HI, R286. -/
def loadCurHi : Fld := ⟨0xb0114, 31, 0, .ro, 0⟩
/-- DRAM_STATUS.NV_PENDING, R287. -/
def dramStatusNvPending : Fld := ⟨0xc0000, 8, 8, .ro, 0⟩
/-- DRAM_STATUS.STACKS_UP, R287. -/
def dramStatusStacksUp : Fld := ⟨0xc0000, 7, 0, .ro, 0⟩
/-- DRAM_RETIRE.GO, R287. -/
def dramRetireGo : Fld := ⟨0xc0004, 31, 31, .wo, 0⟩
/-- DRAM_RETIRE.KIND, R287. -/
def dramRetireKind : Fld := ⟨0xc0004, 30, 30, .rw, 0⟩
/-- DRAM_RETIRE.INDEX, R287. -/
def dramRetireIndex : Fld := ⟨0xc0004, 22, 0, .rw, 0⟩
/-- DRAM_RETIRE_RESULT.CODE, R287. -/
def dramRetireResultCode : Fld := ⟨0xc0008, 7, 0, .ro, 0⟩
/-- DRAM_RETIRED.BANKS, R287 (reset NV in the spec: DESIGN CHOICE 0, log 3). -/
def dramRetiredBanks : Fld := ⟨0xc000c, 31, 16, .ro, 0⟩
/-- DRAM_RETIRED.UNITS, R287 (reset NV in the spec: DESIGN CHOICE 0, log 3). -/
def dramRetiredUnits : Fld := ⟨0xc000c, 15, 0, .ro, 0⟩
/-- DRAM_RET_SEL.INDEX, R287. -/
def dramRetSelIndex : Fld := ⟨0xc0010, 12, 0, .rw, 0⟩
/-- DRAM_HARD_SEL.INDEX, R287. -/
def dramHardSelIndex : Fld := ⟨0xc0020, 12, 0, .rw, 0⟩
/-- DRAM_RET_ENTRY.VALID, R287 (reset undefined in the spec: DESIGN CHOICE 0, log 3). -/
def dramRetEntryValid : Fld := ⟨0xc0014, 31, 31, .ro, 0⟩
/-- DRAM_RET_ENTRY.KIND, R287 (reset undefined in the spec: DESIGN CHOICE 0, log 3). -/
def dramRetEntryKind : Fld := ⟨0xc0014, 30, 30, .ro, 0⟩
/-- DRAM_RET_ENTRY.COUNT, R287 (reset undefined in the spec: DESIGN CHOICE 0, log 3). -/
def dramRetEntryCount : Fld := ⟨0xc0014, 29, 26, .ro, 0⟩
/-- DRAM_RET_ENTRY.INDEX, R287 (reset undefined in the spec: DESIGN CHOICE 0, log 3). -/
def dramRetEntryIndex : Fld := ⟨0xc0014, 22, 0, .ro, 0⟩
/-- DRAM_HARD_ENTRY.VALID, R287 (reset undefined in the spec: DESIGN CHOICE 0, log 3). -/
def dramHardEntryValid : Fld := ⟨0xc0024, 31, 31, .ro, 0⟩
/-- DRAM_HARD_ENTRY.KIND, R287 (reset undefined in the spec: DESIGN CHOICE 0, log 3). -/
def dramHardEntryKind : Fld := ⟨0xc0024, 30, 30, .ro, 0⟩
/-- DRAM_HARD_ENTRY.COUNT, R287 (reset undefined in the spec: DESIGN CHOICE 0, log 3). -/
def dramHardEntryCount : Fld := ⟨0xc0024, 29, 26, .ro, 0⟩
/-- DRAM_HARD_ENTRY.INDEX, R287 (reset undefined in the spec: DESIGN CHOICE 0, log 3). -/
def dramHardEntryIndex : Fld := ⟨0xc0024, 22, 0, .ro, 0⟩
/-- SRAM_CE.COUNT, R287. -/
def sramCe : Fld := ⟨0xc0040, 31, 0, .rc, 0⟩
/-- SRAM_UE.COUNT, R287. -/
def sramUe : Fld := ⟨0xc0044, 31, 0, .rc, 0⟩
/-- DRAM_CE.COUNT, R287. -/
def dramCe : Fld := ⟨0xc0048, 31, 0, .rc, 0⟩
/-- DRAM_UE.COUNT, R287. -/
def dramUe : Fld := ⟨0xc004c, 31, 0, .rc, 0⟩
/-- MEM_HARD.COUNT, R287. -/
def memHard : Fld := ⟨0xc0050, 31, 0, .rc, 0⟩
/-- RETIRED_ACCESS.COUNT, R287. -/
def retiredAccess : Fld := ⟨0xc0054, 31, 0, .rc, 0⟩
/-- SWEEP_CTRL.GO, R287. -/
def sweepCtrlGo : Fld := ⟨0xc0100, 31, 31, .wo, 0⟩
/-- SWEEP_CTRL.ABORT, R287. -/
def sweepCtrlAbort : Fld := ⟨0xc0100, 30, 30, .wo, 0⟩
/-- SWEEP_CTRL.MODE, R287. -/
def sweepCtrlMode : Fld := ⟨0xc0100, 1, 0, .rw, 0⟩
/-- SWEEP_STATUS.DONE, R287. -/
def sweepStatusDone : Fld := ⟨0xc0104, 31, 31, .w1c, 0⟩
/-- SWEEP_STATUS.BUSY, R287. -/
def sweepStatusBusy : Fld := ⟨0xc0104, 16, 16, .ro, 0⟩
/-- SWEEP_STATUS.OUTCOME, R287. -/
def sweepStatusOutcome : Fld := ⟨0xc0104, 7, 0, .ro, 0⟩
/-- SWEEP_START_LO.ADDR_LO, R287. -/
def sweepStartLoAddrLo : Fld := ⟨0xc0108, 31, 12, .rw, 0⟩
/-- SWEEP_START_LO.ADDR_MID, R287. -/
def sweepStartLoAddrMid : Fld := ⟨0xc0108, 11, 6, .rw, 0⟩
/-- SWEEP_SUM_LO.ADDR_LO, R287. -/
def sweepSumLoAddrLo : Fld := ⟨0xc0114, 31, 12, .rw, 0⟩
/-- SWEEP_SUM_LO.ADDR_MID, R287. -/
def sweepSumLoAddrMid : Fld := ⟨0xc0114, 11, 6, .rw, 0⟩
/-- SWEEP_START_HI.VALUE, R287. -/
def sweepStartHi : Fld := ⟨0xc010c, 31, 0, .rw, 0⟩
/-- SWEEP_SUM_HI.VALUE, R287. -/
def sweepSumHi : Fld := ⟨0xc0118, 31, 0, .rw, 0⟩
/-- SWEEP_LEN.VALUE, R287. -/
def sweepLen : Fld := ⟨0xc0110, 31, 0, .rw, 0⟩
/-- GROOM_STATUS.LAGGARD, R288. -/
def groomStatusLaggard : Fld := ⟨0x1001400, 29, 24, .ro, 0⟩
/-- GROOM_STATUS.LEFT, R288. -/
def groomStatusLeft : Fld := ⟨0x1001400, 13, 0, .ro, 0⟩
/-- GROOM_ERR.UE_OPEN, R288. -/
def groomErrUeOpen : Fld := ⟨0x1001408, 3, 3, .w1c, 0⟩
/-- GROOM_ERR.UE_LIVE, R288. -/
def groomErrUeLive : Fld := ⟨0x1001408, 2, 2, .w1c, 0⟩
/-- GROOM_ERR.CE_LIVE, R288. -/
def groomErrCeLive : Fld := ⟨0x1001408, 1, 1, .w1c, 0⟩
/-- GROOM_ERR.LAP_LATE, R288. -/
def groomErrLapLate : Fld := ⟨0x1001408, 0, 0, .w1c, 0⟩
/-- GROOM_LAP.VALUE, R288. -/
def groomLap : Fld := ⟨0x100140c, 31, 0, .ro, 0⟩
/-- GROOM_LAP_MAX.VALUE, R288. -/
def groomLapMax : Fld := ⟨0x1001410, 31, 0, .ro, 0⟩
/-- GROOM_BOUND.VALUE, R288. -/
def groomBound : Fld := ⟨0x1001414, 31, 0, .ro, 0⟩
/-- GROOM_WAY_LO.WAYMARK, R288. -/
def groomWayLo : Fld := ⟨0x1001418, 31, 0, .ro, 0⟩
/-- GROOM_WAY_HI.WAYMARK, R288. -/
def groomWayHi : Fld := ⟨0x100141c, 31, 0, .ro, 0⟩
/-- GROOM_LAPS.COUNT, R288. -/
def groomLaps : Fld := ⟨0x1001420, 31, 0, .rc, 0⟩
/-- GROOM_CE.COUNT, R288. -/
def groomCe : Fld := ⟨0x1001424, 31, 0, .rc, 0⟩
/-- GROOM_UE.COUNT, R288. -/
def groomUe : Fld := ⟨0x1001428, 31, 0, .rc, 0⟩
/-- GROOM_HARD.COUNT, R288. -/
def groomHard : Fld := ⟨0x100142c, 31, 0, .rc, 0⟩
/-- GROOM_TAKEOVERS.COUNT, R288. -/
def groomTakeovers : Fld := ⟨0x1001430, 31, 0, .rc, 0⟩
/-- LINK_STATUS.DISC, R333. -/
def linkStatusDisc : Fld := ⟨0xa0000, 23, 20, .ro, 0⟩
/-- LINK_STATUS.CONFIG_SKEW, R333. -/
def linkStatusConfigSkew : Fld := ⟨0xa0000, 19, 19, .ro, 0⟩
/-- LINK_STATUS.FW_SKEW, R333. -/
def linkStatusFwSkew : Fld := ⟨0xa0000, 18, 18, .ro, 0⟩
/-- LINK_STATUS.SKIP, R333. -/
def linkStatusSkip : Fld := ⟨0xa0000, 17, 16, .ro, 0⟩
/-- LINK_STATUS.CAUSE, R333. -/
def linkStatusCause : Fld := ⟨0xa0000, 15, 12, .ro, 0⟩
/-- LINK_STATUS.LANES, R333. -/
def linkStatusLanes : Fld := ⟨0xa0000, 9, 4, .ro, 0⟩
/-- LINK_STATUS.STATE, R333. -/
def linkStatusState : Fld := ⟨0xa0000, 2, 0, .ro, 0⟩
/-- LINK_CTRL.RETRAIN, R333. -/
def linkCtrlRetrain : Fld := ⟨0xa0004, 2, 2, .wo, 0⟩
/-- LINK_CTRL.DARK, R333. -/
def linkCtrlDark : Fld := ⟨0xa0004, 1, 1, .rw, 0⟩
/-- LINK_ERR.LASER_LOW, R333. -/
def linkErrLaserLow : Fld := ⟨0xa0008, 5, 5, .w1c, 0⟩
/-- LINK_ERR.LANE_FAILED, R333. -/
def linkErrLaneFailed : Fld := ⟨0xa0008, 4, 4, .w1c, 0⟩
/-- LINK_ERR.UNEXPECTED, R333. -/
def linkErrUnexpected : Fld := ⟨0xa0008, 3, 3, .w1c, 0⟩
/-- LINK_ERR.SKEW, R333. -/
def linkErrSkew : Fld := ⟨0xa0008, 2, 2, .w1c, 0⟩
/-- LINK_ERR.FENCED, R333. -/
def linkErrFenced : Fld := ⟨0xa0008, 1, 1, .w1c, 0⟩
/-- LINK_ERR.DOWN, R333. -/
def linkErrDown : Fld := ⟨0xa0008, 0, 0, .w1c, 0⟩
/-- LINK_PEER.PORT, R333. -/
def linkPeerPort : Fld := ⟨0xa000c, 14, 12, .ro, 0⟩
/-- LINK_PEER.Z, R333. -/
def linkPeerZ : Fld := ⟨0xa000c, 11, 8, .ro, 0⟩
/-- LINK_PEER.Y, R333. -/
def linkPeerY : Fld := ⟨0xa000c, 7, 4, .ro, 0⟩
/-- LINK_PEER.X, R333. -/
def linkPeerX : Fld := ⟨0xa000c, 3, 0, .ro, 0⟩
/-- LINK_LANE_SEL.LANE, R333. -/
def linkLaneSelLane : Fld := ⟨0xa0020, 5, 0, .rw, 0⟩
/-- LINK_LANE.SYM_ERR, R333. -/
def linkLaneSymErr : Fld := ⟨0xa0024, 31, 16, .ro, 0⟩
/-- LINK_LANE.STATE, R333. -/
def linkLaneState : Fld := ⟨0xa0024, 9, 8, .ro, 0⟩
/-- LINK_LANE.LOGICAL, R333. -/
def linkLaneLogical : Fld := ⟨0xa0024, 5, 0, .ro, 0x3f⟩
/-- CWAY_STATUS.HELD, R333. -/
def cwayStatusHeld : Fld := ⟨0xa0028, 3, 3, .ro, 0⟩
/-- CWAY_STATUS.FAULT, R333. -/
def cwayStatusFault : Fld := ⟨0xa0028, 2, 2, .ro, 0⟩
/-- CWAY_STATUS.STATE, R333. -/
def cwayStatusState : Fld := ⟨0xa0028, 1, 0, .ro, 0⟩
/-- CWAY_CTRL.CLOSE, R333. -/
def cwayCtrlClose : Fld := ⟨0xa002c, 1, 1, .wo, 0⟩
/-- CWAY_CTRL.OPEN, R333. -/
def cwayCtrlOpen : Fld := ⟨0xa002c, 0, 0, .wo, 0⟩
/-- LINK_PEER_ID_LO.VALUE, R333. -/
def linkPeerIdLo : Fld := ⟨0xa0010, 31, 0, .ro, 0⟩
/-- LINK_PEER_ID_HI.VALUE, R333. -/
def linkPeerIdHi : Fld := ⟨0xa0014, 31, 0, .ro, 0⟩
/-- LINK_PEER_INC.VALUE, R333. -/
def linkPeerInc : Fld := ⟨0xa0018, 31, 0, .ro, 0⟩
/-- LINK_INC.VALUE, R333. -/
def linkInc : Fld := ⟨0xa001c, 31, 0, .ro, 0⟩
/-- LINK_WAY_OFS.VALUE, R333. -/
def linkWayOfs : Fld := ⟨0xa0030, 31, 0, .ro, 0⟩
/-- LINK_WAY_DELAY.VALUE, R333. -/
def linkWayDelay : Fld := ⟨0xa0034, 31, 0, .ro, 0⟩
/-- LINK_RETRAINS.COUNT, R333. -/
def linkRetrains : Fld := ⟨0xa0040, 31, 0, .rc, 0⟩
/-- LINK_REPLAYS.COUNT, R333. -/
def linkReplays : Fld := ⟨0xa0044, 31, 0, .rc, 0⟩
/-- LINK_FEC_CORR.COUNT, R333. -/
def linkFecCorr : Fld := ⟨0xa0048, 31, 0, .rc, 0⟩
/-- LINK_FEC_UNCORR.COUNT, R333. -/
def linkFecUncorr : Fld := ⟨0xa004c, 31, 0, .rc, 0⟩
/-- LINK_CRC_ERR.COUNT, R333. -/
def linkCrcErr : Fld := ⟨0xa0050, 31, 0, .rc, 0⟩
/-- LINK_LANE_SUBS.COUNT, R333. -/
def linkLaneSubs : Fld := ⟨0xa0054, 31, 0, .rc, 0⟩
/-- LINK_FENCED.COUNT, R333. -/
def linkFenced : Fld := ⟨0xa0058, 31, 0, .rc, 0⟩
/-- LINK_UNROUTABLE.COUNT, R333. -/
def linkUnroutable : Fld := ⟨0xa005c, 31, 0, .rc, 0⟩
/-- TOR_POS.DIM_M1, R334 (reset undefined in the spec: DESIGN CHOICE 0, log 3). -/
def torPosDimM1 : Fld := ⟨0xa8000, 27, 16, .ro, 0⟩
/-- TOR_POS.POS, R334 (reset NV in the spec: DESIGN CHOICE 0, log 3). -/
def torPosPos : Fld := ⟨0xa8000, 11, 0, .ro, 0⟩
/-- TOR_STATUS.QUARANTINE, R334. -/
def torStatusQuarantine : Fld := ⟨0xa8004, 8, 8, .ro, 0⟩
/-- TOR_STATUS.DISC_DONE, R334. -/
def torStatusDiscDone : Fld := ⟨0xa8004, 7, 7, .ro, 0⟩
/-- TOR_STATUS.LOST_Z, R334. -/
def torStatusLostZ : Fld := ⟨0xa8004, 5, 4, .ro, 0⟩
/-- TOR_STATUS.LOST_Y, R334. -/
def torStatusLostY : Fld := ⟨0xa8004, 3, 2, .ro, 0⟩
/-- TOR_STATUS.LOST_X, R334. -/
def torStatusLostX : Fld := ⟨0xa8004, 1, 0, .ro, 0⟩
/-- TOR_PKG_INC.VALUE, R334 (reset undefined in the spec: DESIGN CHOICE 0, log 3). -/
def torPkgInc : Fld := ⟨0xa8008, 31, 0, .ro, 0⟩
/-- TOR_READMIT.GO, R334. -/
def torReadmitGo : Fld := ⟨0xa800c, 31, 31, .wo, 0⟩
/-- TOR_READMIT.ENTRY, R334. -/
def torReadmitEntry : Fld := ⟨0xa800c, 7, 0, .rw, 0⟩
/-- TOR_REV_SEL.VALID, R334. -/
def torRevSelValid : Fld := ⟨0xa8010, 31, 31, .ro, 0⟩
/-- TOR_REV_SEL.POS, R334. -/
def torRevSelPos : Fld := ⟨0xa8010, 27, 16, .ro, 0⟩
/-- TOR_REV_SEL.ENTRY, R334. -/
def torRevSelEntry : Fld := ⟨0xa8010, 7, 0, .rw, 0⟩
/-- TOR_REVOKE.GO, R334. -/
def torRevokeGo : Fld := ⟨0xa801c, 31, 31, .wo, 0⟩
/-- TOR_REVOKE.POS, R334. -/
def torRevokePos : Fld := ⟨0xa801c, 11, 0, .rw, 0⟩
/-- TOR_NEED.PARTS, R334. -/
def torNeed : Fld := ⟨0xa8020, 31, 0, .ro, 0⟩
/-- TOR_REV_UNIT.VALUE, R334. -/
def torRevUnit : Fld := ⟨0xa8014, 31, 0, .ro, 0⟩
/-- TOR_REV_INC.VALUE, R334. -/
def torRevInc : Fld := ⟨0xa8018, 31, 0, .rw, 0⟩
/-- TOR_COLL_DONE.COUNT, R334. -/
def torCollDone : Fld := ⟨0xa8040, 31, 0, .rc, 0⟩
/-- TOR_COLL_DEGRADED.COUNT, R334. -/
def torCollDegraded : Fld := ⟨0xa8044, 31, 0, .rc, 0⟩
/-- TOR_COLL_FAILED.COUNT, R334. -/
def torCollFailed : Fld := ⟨0xa8048, 31, 0, .rc, 0⟩
/-- TOR_CTRL_RETX.COUNT, R334. -/
def torCtrlRetx : Fld := ⟨0xa804c, 31, 0, .rc, 0⟩
/-- TOR_CTRL_CRC.COUNT, R334. -/
def torCtrlCrc : Fld := ⟨0xa8050, 31, 0, .rc, 0⟩
/-- TOR_REVOKES.COUNT, R334. -/
def torRevokes : Fld := ⟨0xa8054, 31, 0, .rc, 0⟩
/-- PCI_STATUS.LINK_UP, R361. -/
def pciStatusLinkUp : Fld := ⟨0x70000, 12, 12, .ro, 0⟩
/-- PCI_STATUS.BELOW_SPEC, R361. -/
def pciStatusBelowSpec : Fld := ⟨0x70000, 11, 11, .ro, 0⟩
/-- PCI_STATUS.FLIT, R361. -/
def pciStatusFlit : Fld := ⟨0x70000, 10, 10, .ro, 0⟩
/-- PCI_STATUS.WIDTH, R361. -/
def pciStatusWidth : Fld := ⟨0x70000, 9, 4, .ro, 0⟩
/-- PCI_STATUS.RATE, R361. -/
def pciStatusRate : Fld := ⟨0x70000, 3, 0, .ro, 0⟩
/-- PCI_ERR.POISON_RX, R361. -/
def pciErrPoisonRx : Fld := ⟨0x70004, 3, 3, .w1c, 0⟩
/-- PCI_ERR.UR, R361. -/
def pciErrUr : Fld := ⟨0x70004, 2, 2, .w1c, 0⟩
/-- PCI_ERR.CPL_TIMEOUT, R361. -/
def pciErrCplTimeout : Fld := ⟨0x70004, 1, 1, .w1c, 0⟩
/-- PCI_ERR.LINK_DOWN, R361. -/
def pciErrLinkDown : Fld := ⟨0x70004, 0, 0, .w1c, 0⟩
/-- PCI_DRAM_BASE.BASE, R361 R362. -/
def pciDramBaseBase : Fld := ⟨0x70008, 8, 0, .rw, 0⟩
/-- PART_V_DRAM_BASE.BASE, R361 R362. -/
def partVDramBaseBase : Fld := ⟨0x20000008, 8, 0, .rw, 0⟩
/-- PCI_MOD.INTERVAL, R361 R362 (reset NV in the spec: DESIGN CHOICE 0, log 3). -/
def pciModInterval : Fld := ⟨0x70100, 9, 0, .rw, 0⟩
/-- PART_V_MOD.INTERVAL, R361 R362 (reset NV in the spec: DESIGN CHOICE 0, log 3). -/
def partVModInterval : Fld := ⟨0x20000100, 9, 0, .rw, 0⟩
/-- PCI_UR_COUNT.COUNT, R361 R362. -/
def pciUrCount : Fld := ⟨0x70200, 31, 0, .rc, 0⟩
/-- PCI_POISON_COUNT.COUNT, R361 R362. -/
def pciPoisonCount : Fld := ⟨0x70204, 31, 0, .rc, 0⟩
/-- PCI_TIMEOUT_COUNT.COUNT, R361 R362. -/
def pciTimeoutCount : Fld := ⟨0x70208, 31, 0, .rc, 0⟩
/-- PCI_ATS_INVAL.COUNT, R361 R362. -/
def pciAtsInval : Fld := ⟨0x7020c, 31, 0, .rc, 0⟩
/-- PART_VIOL.COUNT, R361 R362. -/
def partViol : Fld := ⟨0x7100c, 31, 0, .rc, 0⟩
/-- PART_V_VIOL.COUNT, R361 R362. -/
def partVViol : Fld := ⟨0x20000004, 31, 0, .rc, 0⟩
/-- PART_SEL.PART, R362. -/
def partSelPart : Fld := ⟨0x71000, 4, 0, .rw, 0⟩
/-- PART_CTRL.GO, R362. -/
def partCtrlGo : Fld := ⟨0x71004, 31, 31, .wo, 0⟩
/-- PART_CTRL.CMD, R362. -/
def partCtrlCmd : Fld := ⟨0x71004, 2, 0, .rw, 0⟩
/-- PART_STATUS.HELD, R362. -/
def partStatusHeld : Fld := ⟨0x71008, 17, 17, .ro, 0⟩
/-- PART_STATUS.REFUSED, R362. -/
def partStatusRefused : Fld := ⟨0x71008, 16, 16, .w1c, 0⟩
/-- PART_STATUS.VF, R362. -/
def partStatusVf : Fld := ⟨0x71008, 13, 8, .ro, 0⟩
/-- PART_STATUS.CAUSE, R362. -/
def partStatusCause : Fld := ⟨0x71008, 7, 4, .ro, 0⟩
/-- PART_STATUS.SCRUBBED, R362. -/
def partStatusScrubbed : Fld := ⟨0x71008, 3, 3, .ro, 0⟩
/-- PART_STATUS.STATE, R362. -/
def partStatusState : Fld := ⟨0x71008, 2, 0, .ro, 0⟩
/-- PART_SERVICE.PARTS, R362. -/
def partService : Fld := ⟨0x71010, 31, 0, .ro, 0⟩
/-- TOLL_SEL.RESOURCE, R363. -/
def tollSelResource : Fld := ⟨0x72000, 11, 8, .rw, 0⟩
/-- TOLL_SEL.MEMBER, R363. -/
def tollSelMember : Fld := ⟨0x72000, 5, 0, .rw, 0⟩
/-- TOLL_WEIGHT.BULK_SHARE, R363 (reset NV in the spec: DESIGN CHOICE 0, log 3). -/
def tollWeightBulkShare : Fld := ⟨0x72004, 11, 8, .ro, 0⟩
/-- TOLL_WEIGHT.WEIGHT, R363 (reset NV in the spec: DESIGN CHOICE 0, log 3). -/
def tollWeightWeight : Fld := ⟨0x72004, 7, 0, .ro, 0⟩
/-- TOLL_GRANT.CREDITS, R363. -/
def tollGrantCredits : Fld := ⟨0x72008, 17, 0, .ro, 0⟩
/-- TOLL_USED.COUNT, R363. -/
def tollUsed : Fld := ⟨0x7200c, 31, 0, .rc, 0⟩
/-- TOLL_SPARE.COUNT, R363. -/
def tollSpare : Fld := ⟨0x72010, 31, 0, .rc, 0⟩
/-- TOLL_STARVED.COUNT, R363. -/
def tollStarved : Fld := ⟨0x72014, 31, 0, .rc, 0⟩
/-- CLK_STATUS.GAIT, R379. -/
def clkStatusGait : Fld := ⟨0x40000, 3, 3, .ro, 0⟩
/-- CLK_STATUS.BACKUP_OSC, R379. -/
def clkStatusBackupOsc : Fld := ⟨0x40000, 2, 2, .ro, 0⟩
/-- CLK_STATUS.MON_FAULT, R379. -/
def clkStatusMonFault : Fld := ⟨0x40000, 1, 1, .ro, 0⟩
/-- CLK_STATUS.PLL_LOCK, R379. -/
def clkStatusPllLock : Fld := ⟨0x40000, 0, 0, .ro, 0⟩
/-- CLK_REGION_SEL.REGION, R379. -/
def clkRegionSelRegion : Fld := ⟨0x40004, 5, 0, .rw, 0⟩
/-- CLK_REGION.STOPPED, R379. -/
def clkRegionStopped : Fld := ⟨0x40008, 2, 2, .ro, 0⟩
/-- CLK_REGION.STRETCHED, R379. -/
def clkRegionStretched : Fld := ⟨0x40008, 1, 1, .ro, 0⟩
/-- CLK_REGION.BOOST, R379. -/
def clkRegionBoost : Fld := ⟨0x40008, 0, 0, .ro, 0⟩
/-- CLK_STRETCHES.COUNT, R379. -/
def clkStretches : Fld := ⟨0x40014, 31, 0, .rc, 0⟩
/-- WAY_STATUS.HOPS, R379. -/
def wayStatusHops : Fld := ⟨0x40100, 11, 7, .ro, 0x1f⟩
/-- WAY_STATUS.SOURCE_DISAGREE, R379. -/
def wayStatusSourceDisagree : Fld := ⟨0x40100, 6, 6, .ro, 0⟩
/-- WAY_STATUS.FAR, R379. -/
def wayStatusFar : Fld := ⟨0x40100, 5, 5, .ro, 0⟩
/-- WAY_STATUS.SOURCE, R379. -/
def wayStatusSource : Fld := ⟨0x40100, 4, 2, .ro, 0⟩
/-- WAY_STATUS.STATE, R379. -/
def wayStatusState : Fld := ⟨0x40100, 1, 0, .ro, 0⟩
/-- WAY_CTRL.SET, R379. -/
def wayCtrlSet : Fld := ⟨0x4011c, 0, 0, .wo, 0⟩
/-- WAY_ERR.SET_REFUSED, R379. -/
def wayErrSetRefused : Fld := ⟨0x40120, 0, 0, .w1c, 0⟩
/-- CLK_CYC_LO.COUNT, R379. -/
def clkCycLo : Fld := ⟨0x4000c, 31, 0, .ro, 0⟩
/-- CLK_CYC_HI.COUNT, R379. -/
def clkCycHi : Fld := ⟨0x40010, 31, 0, .ro, 0⟩
/-- WAY_NOW_LO.WAYMARK, R379. -/
def wayNowLo : Fld := ⟨0x40104, 31, 0, .ro, 0⟩
/-- WAY_NOW_HI.WAYMARK, R379. -/
def wayNowHi : Fld := ⟨0x40108, 31, 0, .ro, 0⟩
/-- WAY_OFFSET.VALUE, R379. -/
def wayOffset : Fld := ⟨0x4010c, 31, 0, .ro, 0⟩
/-- WAY_RATE.VALUE, R379. -/
def wayRate : Fld := ⟨0x40110, 31, 0, .ro, 0⟩
/-- WAY_SET_LO.VALUE, R379. -/
def waySetLo : Fld := ⟨0x40114, 31, 0, .rw, 0⟩
/-- WAY_SET_HI.VALUE, R379. -/
def waySetHi : Fld := ⟨0x40118, 31, 0, .rw, 0⟩
/-- WAY_PPS_LO.WAYMARK, R379. -/
def wayPpsLo : Fld := ⟨0x40124, 31, 0, .ro, 0⟩
/-- WAY_PPS_HI.WAYMARK, R379. -/
def wayPpsHi : Fld := ⟨0x40128, 31, 0, .ro, 0⟩
/-- BRDL_STATUS.MEAS_MS, R419. -/
def brdlStatusMeasMs : Fld := ⟨0x50000, 15, 8, .ro, 1⟩
/-- BRDL_STATUS.BACKSTOP, R419. -/
def brdlStatusBackstop : Fld := ⟨0x50000, 3, 3, .ro, 0⟩
/-- BRDL_STATUS.UNMET, R419. -/
def brdlStatusUnmet : Fld := ⟨0x50000, 2, 2, .ro, 0⟩
/-- BRDL_STATUS.MEAS_SLOW, R419. -/
def brdlStatusMeasSlow : Fld := ⟨0x50000, 1, 1, .ro, 0⟩
/-- BRDL_STATUS.MEAS_VALID, R419. -/
def brdlStatusMeasValid : Fld := ⟨0x50000, 0, 0, .ro, 0⟩
/-- BRDL_CAP.CAP_MAX, R419 (reset undefined in the spec: DESIGN CHOICE 0, log 3). -/
def brdlCapCapMax : Fld := ⟨0x50004, 26, 16, .ro, 0⟩
/-- BRDL_CAP.CAP, R419 (reset undefined in the spec: DESIGN CHOICE 0, log 3). -/
def brdlCapCap : Fld := ⟨0x50004, 10, 0, .rw, 0⟩
/-- BRDL_FIT.GAIN, R419. -/
def brdlFitGain : Fld := ⟨0x50010, 31, 16, .ro, 0x4000⟩
/-- BRDL_FIT.OFFSET, R419. -/
def brdlFitOffset : Fld := ⟨0x50010, 15, 0, .ro, 0⟩
/-- BRDL_ERR.AVSBUS, R419. -/
def brdlErrAvsbus : Fld := ⟨0x50014, 4, 4, .w1c, 0⟩
/-- BRDL_ERR.PMBUS, R419. -/
def brdlErrPmbus : Fld := ⟨0x50014, 3, 3, .w1c, 0⟩
/-- BRDL_ERR.RAIL_FAULT, R419. -/
def brdlErrRailFault : Fld := ⟨0x50014, 2, 2, .w1c, 0⟩
/-- BRDL_ERR.MEAS_LOST, R419. -/
def brdlErrMeasLost : Fld := ⟨0x50014, 1, 1, .w1c, 0⟩
/-- BRDL_ERR.CAP_UNMET, R419. -/
def brdlErrCapUnmet : Fld := ⟨0x50014, 0, 0, .w1c, 0⟩
/-- BRDL_BOOST.REGIONS, R419. -/
def brdlBoost : Fld := ⟨0x50018, 31, 0, .ro, 0⟩
/-- BRDL_EST.ARRAY, R419. -/
def brdlEstArray : Fld := ⟨0x50008, 31, 16, .ro, 0⟩
/-- BRDL_EST.POWER, R419. -/
def brdlEstPower : Fld := ⟨0x50008, 15, 0, .ro, 0⟩
/-- BRDL_MEAS.POWER, R419. -/
def brdlMeasPower : Fld := ⟨0x5000c, 15, 0, .ro, 0⟩
/-- BRDL_RAIL_SEL.RAIL, R419. -/
def brdlRailSelRail : Fld := ⟨0x5001c, 4, 0, .rw, 0⟩
/-- BRDL_RAIL.CURRENT, R419. -/
def brdlRailCurrent : Fld := ⟨0x50020, 31, 16, .ro, 0⟩
/-- BRDL_RAIL.VOLTAGE, R419. -/
def brdlRailVoltage : Fld := ⟨0x50020, 15, 0, .ro, 0⟩
/-- BRDL_ENERGY_LO.MJ, R419. -/
def brdlEnergyLo : Fld := ⟨0x50028, 31, 0, .ro, 0⟩
/-- BRDL_ENERGY_HI.MJ, R419. -/
def brdlEnergyHi : Fld := ⟨0x5002c, 31, 0, .ro, 0⟩
/-- BRDL_OVER_CAP.COUNT, R419. -/
def brdlOverCap : Fld := ⟨0x50040, 31, 0, .rc, 0⟩
/-- BRDL_UNMET_MS.COUNT, R419. -/
def brdlUnmetMs : Fld := ⟨0x50044, 31, 0, .rc, 0⟩
/-- BRDL_BACKSTOP_MS.COUNT, R419. -/
def brdlBackstopMs : Fld := ⟨0x50048, 31, 0, .rc, 0⟩
/-- BRDL_BOOST_GRANTS.COUNT, R419. -/
def brdlBoostGrants : Fld := ⟨0x5004c, 31, 0, .rc, 0⟩
/-- BRDL_REFITS.COUNT, R419. -/
def brdlRefits : Fld := ⟨0x50050, 31, 0, .rc, 0⟩
/-- BRDL_PMBUS_WARN.COUNT, R419. -/
def brdlPmbusWarn : Fld := ⟨0x50054, 31, 0, .rc, 0⟩
/-- REIN_STATUS.THERMAL_PKG, R420. -/
def reinStatusThermalPkg : Fld := ⟨0x50400, 22, 16, .ro, 0x40⟩
/-- REIN_STATUS.FLOOR, R420 (reset undefined in the spec: DESIGN CHOICE 0, log 3). -/
def reinStatusFloor : Fld := ⟨0x50400, 14, 8, .ro, 0⟩
/-- REIN_STATUS.PACKAGE, R420. -/
def reinStatusPackage : Fld := ⟨0x50400, 6, 0, .ro, 0x40⟩
/-- REIN_STRING.LIMITER, R420. -/
def reinStringLimiter : Fld := ⟨0x5040c, 17, 16, .ro, 0⟩
/-- REIN_STRING.THERMAL, R420. -/
def reinStringThermal : Fld := ⟨0x5040c, 14, 8, .ro, 0x40⟩
/-- REIN_STRING.EFFECTIVE, R420. -/
def reinStringEffective : Fld := ⟨0x5040c, 6, 0, .ro, 0x40⟩
/-- REIN_CEIL.VALUE, R420. -/
def reinCeil : Fld := ⟨0x50404, 6, 0, .rw, 0x40⟩
/-- REIN_SEL.STRING, R420. -/
def reinSelString : Fld := ⟨0x50408, 4, 0, .rw, 0⟩
/-- THRM_STATUS.HARD_TRIP, R421. -/
def thrmStatusHardTrip : Fld := ⟨0x50800, 5, 5, .ro, 0⟩
/-- THRM_STATUS.EOL, R421 (reset NV in the spec: DESIGN CHOICE 0, log 3). -/
def thrmStatusEol : Fld := ⟨0x50800, 4, 4, .ro, 0⟩
/-- THRM_STATUS.THROTTLE_OPT, R421. -/
def thrmStatusThrottleOpt : Fld := ⟨0x50800, 3, 3, .ro, 0⟩
/-- THRM_STATUS.THROTTLE_HUB, R421. -/
def thrmStatusThrottleHub : Fld := ⟨0x50800, 2, 2, .ro, 0⟩
/-- THRM_STATUS.THROTTLE_STRING, R421. -/
def thrmStatusThrottleString : Fld := ⟨0x50800, 1, 1, .ro, 0⟩
/-- THRM_STATUS.TRIPPED, R421. -/
def thrmStatusTripped : Fld := ⟨0x50800, 0, 0, .ro, 0⟩
/-- THRM_ERR.PLAN_CHANGE, R421. -/
def thrmErrPlanChange : Fld := ⟨0x50804, 2, 2, .w1c, 0⟩
/-- THRM_ERR.THROTTLE_ENTRY, R421. -/
def thrmErrThrottleEntry : Fld := ⟨0x50804, 1, 1, .w1c, 0⟩
/-- THRM_ERR.SENSOR_FAIL, R421. -/
def thrmErrSensorFail : Fld := ⟨0x50804, 0, 0, .w1c, 0⟩
/-- THRM_SENSOR.GOOD, R421. -/
def thrmSensorGood : Fld := ⟨0x5080c, 31, 31, .ro, 0⟩
/-- THRM_SENSOR.FAST, R421. -/
def thrmSensorFast : Fld := ⟨0x5080c, 30, 30, .ro, 0⟩
/-- THRM_SENSOR.TEMP, R421. -/
def thrmSensorTemp : Fld := ⟨0x5080c, 15, 0, .ro, 0⟩
/-- THRM_AGE.ELIGIBLE, R421 (reset NV in the spec: DESIGN CHOICE 0, log 3). -/
def thrmAgeEligible : Fld := ⟨0x50824, 16, 16, .ro, 0⟩
/-- THRM_AGE.SLOWDOWN, R421 (reset NV in the spec: DESIGN CHOICE 0, log 3). -/
def thrmAgeSlowdown : Fld := ⟨0x50824, 15, 0, .ro, 0⟩
/-- THRM_PLAN.WINDOW, R421 (reset NV in the spec: DESIGN CHOICE 0, log 3). -/
def thrmPlanWindow : Fld := ⟨0x50828, 26, 16, .ro, 0⟩
/-- THRM_PLAN.GUARD, R421 (reset NV in the spec: DESIGN CHOICE 0, log 3). -/
def thrmPlanGuard : Fld := ⟨0x50828, 5, 0, .ro, 0⟩
/-- THRM_LIFE.CONSUMED, R421 (reset NV in the spec: DESIGN CHOICE 0, log 3). -/
def thrmLifeConsumed : Fld := ⟨0x5082c, 15, 0, .ro, 0⟩
/-- THRM_SEL.INDEX, R421. -/
def thrmSelIndex : Fld := ⟨0x50808, 6, 0, .rw, 0⟩
/-- THRM_AGE_SEL.INDEX, R421. -/
def thrmAgeSelIndex : Fld := ⟨0x50820, 6, 0, .rw, 0⟩
/-- THRM_MAX.HIGH, R421. -/
def thrmMaxHigh : Fld := ⟨0x50810, 31, 16, .ro, 0⟩
/-- THRM_MAX.LOW, R421. -/
def thrmMaxLow : Fld := ⟨0x50810, 15, 0, .ro, 0⟩
/-- THRM_HUB.NV_OK, R421. -/
def thrmHubNvOk : Fld := ⟨0x50814, 16, 16, .ro, 0⟩
/-- THRM_HUB.LOW, R421. -/
def thrmHubLow : Fld := ⟨0x50814, 15, 0, .ro, 0⟩
/-- THRM_TRIP_WAY_LO.WAYMARK, R421. -/
def thrmTripWayLo : Fld := ⟨0x50818, 31, 0, .ro, 0⟩
/-- THRM_TRIP_WAY_HI.WAYMARK, R421. -/
def thrmTripWayHi : Fld := ⟨0x5081c, 31, 0, .ro, 0⟩
/-- THRM_THROTTLE_MS.COUNT, R421. -/
def thrmThrottleMs : Fld := ⟨0x50840, 31, 0, .rc, 0⟩
/-- THRM_FAST_ENTRIES.COUNT, R421. -/
def thrmFastEntries : Fld := ⟨0x50844, 31, 0, .rc, 0⟩
/-- THRM_SENSOR_FAULTS.COUNT, R421. -/
def thrmSensorFaults : Fld := ⟨0x50848, 31, 0, .rc, 0⟩
/-- ADC_STATUS.URGENT_BUSY, R422. -/
def adcStatusUrgentBusy : Fld := ⟨0x60000, 17, 17, .ro, 0⟩
/-- ADC_STATUS.RUNNING, R422. -/
def adcStatusRunning : Fld := ⟨0x60000, 16, 16, .ro, 0⟩
/-- ADC_STATUS.SWEEP_US, R422. -/
def adcStatusSweepUs : Fld := ⟨0x60000, 15, 0, .ro, 0⟩
/-- ADC_ERR.REF_FAULT, R422. -/
def adcErrRefFault : Fld := ⟨0x60004, 2, 2, .w1c, 0⟩
/-- ADC_ERR.URGENT_REFUSED, R422. -/
def adcErrUrgentRefused : Fld := ⟨0x60004, 1, 1, .w1c, 0⟩
/-- ADC_ERR.OPEN_WIRE, R422. -/
def adcErrOpenWire : Fld := ⟨0x60004, 0, 0, .w1c, 0⟩
/-- ADC_URGENT.GO, R422. -/
def adcUrgentGo : Fld := ⟨0x60008, 31, 31, .wo, 0⟩
/-- ADC_URGENT.CHANNEL, R422. -/
def adcUrgentChannel : Fld := ⟨0x60008, 5, 0, .rw, 0⟩
/-- ADC_URGENT_RESULT.DONE, R422. -/
def adcUrgentResultDone : Fld := ⟨0x6000c, 31, 31, .ro, 0⟩
/-- ADC_URGENT_RESULT.CODE, R422. -/
def adcUrgentResultCode : Fld := ⟨0x6000c, 13, 0, .ro, 0⟩
/-- ADC_CFG.ROLE, R422 (reset NV in the spec: DESIGN CHOICE 0, log 3). -/
def adcCfgRole : Fld := ⟨0x60100, 18, 16, .ro, 0⟩
/-- ADC_CFG.ENABLE, R422 (reset NV in the spec: DESIGN CHOICE 0, log 3). -/
def adcCfgEnable : Fld := ⟨0x60100, 13, 13, .rw, 0⟩
/-- ADC_CFG.OPEN_TEST, R422 (reset NV in the spec: DESIGN CHOICE 0, log 3). -/
def adcCfgOpenTest : Fld := ⟨0x60100, 12, 12, .rw, 0⟩
/-- ADC_CFG.SHIFT, R422 (reset NV in the spec: DESIGN CHOICE 0, log 3). -/
def adcCfgShift : Fld := ⟨0x60100, 11, 8, .rw, 0⟩
/-- ADC_CFG.AVG_LOG2, R422 (reset NV in the spec: DESIGN CHOICE 0, log 3). -/
def adcCfgAvgLog2 : Fld := ⟨0x60100, 3, 0, .rw, 0⟩
/-- ADC_RESULT.OPEN, R422. -/
def adcResultOpen : Fld := ⟨0x60104, 31, 31, .ro, 0⟩
/-- ADC_RESULT.FRESH, R422. -/
def adcResultFresh : Fld := ⟨0x60104, 30, 30, .rc, 0⟩
/-- ADC_RESULT.VALUE, R422. -/
def adcResultValue : Fld := ⟨0x60104, 21, 0, .ro, 0⟩
/-- RST_STATUS.BOOT_LOCK, R449. -/
def rstStatusBootLock : Fld := ⟨0x10000, 20, 20, .ro, 0⟩
/-- RST_STATUS.FAIL_LIMIT, R449 (reset NV in the spec: DESIGN CHOICE 0, log 3). -/
def rstStatusFailLimit : Fld := ⟨0x10000, 19, 16, .ro, 0⟩
/-- RST_STATUS.FAIL_COUNT, R449 (reset NV in the spec: DESIGN CHOICE 0, log 3). -/
def rstStatusFailCount : Fld := ⟨0x10000, 15, 12, .ro, 0⟩
/-- RST_STATUS.REASON, R449. -/
def rstStatusReason : Fld := ⟨0x10000, 11, 8, .ro, 0⟩
/-- RST_STATUS.CAUSE, R449 (reset undefined in the spec: DESIGN CHOICE 0, log 3). -/
def rstStatusCause : Fld := ⟨0x10000, 7, 6, .ro, 0⟩
/-- RST_STATUS.PADDOCK, R449. -/
def rstStatusPaddock : Fld := ⟨0x10000, 4, 4, .ro, 0⟩
/-- RST_STATUS.STAGE, R449. -/
def rstStatusStage : Fld := ⟨0x10000, 3, 0, .ro, 1⟩
/-- RST_CTRL.RETRY, R449. -/
def rstCtrlRetry : Fld := ⟨0x10004, 0, 0, .wo, 0⟩
/-- RST_ERR.RETRY_REFUSED, R449. -/
def rstErrRetryRefused : Fld := ⟨0x10008, 0, 0, .w1c, 0⟩
/-- RST_START_COUNT.COUNT, R449 (reset NV in the spec: DESIGN CHOICE 0, log 3). -/
def rstStartCount : Fld := ⟨0x1000c, 31, 0, .ro, 0⟩
/-- RST_FAULT.STAGE, R449. -/
def rstFaultStage : Fld := ⟨0x10010, 19, 16, .ro, 0⟩
/-- RST_FAULT.CODE, R449. -/
def rstFaultCode : Fld := ⟨0x10010, 15, 0, .ro, 0⟩
/-- RST_READY_WAY_LO.WAYMARK, R449. -/
def rstReadyWayLo : Fld := ⟨0x10014, 31, 0, .ro, 0⟩
/-- RST_READY_WAY_HI.WAYMARK, R449. -/
def rstReadyWayHi : Fld := ⟨0x10018, 31, 0, .ro, 0⟩
/-- NV_STATUS.VOLZ_VALID, R450 (reset NV in the spec: DESIGN CHOICE 0, log 3). -/
def nvStatusVolzValid : Fld := ⟨0x20000, 13, 12, .ro, 0⟩
/-- NV_STATUS.FW_VALID, R450 (reset NV in the spec: DESIGN CHOICE 0, log 3). -/
def nvStatusFwValid : Fld := ⟨0x20000, 11, 10, .ro, 0⟩
/-- NV_STATUS.USER_PRESENT, R450 (reset NV in the spec: DESIGN CHOICE 0, log 3). -/
def nvStatusUserPresent : Fld := ⟨0x20000, 9, 9, .ro, 0⟩
/-- NV_STATUS.VOLZ_ACTIVE, R450 (reset NV in the spec: DESIGN CHOICE 0, log 3). -/
def nvStatusVolzActive : Fld := ⟨0x20000, 8, 8, .ro, 0⟩
/-- NV_STATUS.VOLZ_TRIAL, R450 (reset NV in the spec: DESIGN CHOICE 0, log 3). -/
def nvStatusVolzTrial : Fld := ⟨0x20000, 7, 6, .ro, 0⟩
/-- NV_STATUS.FW_ACTIVE, R450 (reset NV in the spec: DESIGN CHOICE 0, log 3). -/
def nvStatusFwActive : Fld := ⟨0x20000, 5, 5, .ro, 0⟩
/-- NV_STATUS.FW_TRIAL, R450 (reset NV in the spec: DESIGN CHOICE 0, log 3). -/
def nvStatusFwTrial : Fld := ⟨0x20000, 4, 3, .ro, 0⟩
/-- NV_STATUS.FW_TRIAL_FAILED, R450. -/
def nvStatusFwTrialFailed : Fld := ⟨0x20000, 2, 2, .ro, 0⟩
/-- NV_STATUS.TEMP_OK, R450. -/
def nvStatusTempOk : Fld := ⟨0x20000, 1, 1, .ro, 0⟩
/-- NV_STATUS.BUSY, R450. -/
def nvStatusBusy : Fld := ⟨0x20000, 0, 0, .ro, 0⟩
/-- NV_CTRL.GO, R450. -/
def nvCtrlGo : Fld := ⟨0x20004, 31, 31, .wo, 0⟩
/-- NV_CTRL.TARGET, R450. -/
def nvCtrlTarget : Fld := ⟨0x20004, 10, 8, .rw, 0⟩
/-- NV_CTRL.CMD, R450. -/
def nvCtrlCmd : Fld := ⟨0x20004, 2, 0, .rw, 0⟩
/-- NV_RESULT.CODE, R450. -/
def nvResultCode : Fld := ⟨0x20014, 7, 0, .ro, 0⟩
/-- NV_EVENT.REFUSED, R450. -/
def nvEventRefused : Fld := ⟨0x20018, 1, 1, .w1c, 0⟩
/-- NV_EVENT.DONE, R450. -/
def nvEventDone : Fld := ⟨0x20018, 0, 0, .w1c, 0⟩
/-- NV_SRC_LO.VALUE, R450. -/
def nvSrcLo : Fld := ⟨0x20008, 31, 6, .rw, 0⟩
/-- NV_SRC_HI.VALUE, R450. -/
def nvSrcHi : Fld := ⟨0x2000c, 31, 0, .rw, 0⟩
/-- NV_LEN.VALUE, R450. -/
def nvLen : Fld := ⟨0x20010, 31, 0, .rw, 0⟩
/-- SEC_STATUS.BUSY, R451. -/
def secStatusBusy : Fld := ⟨0x30000, 2, 2, .ro, 0⟩
/-- SEC_STATUS.DEBUG_UNLOCKED, R451. -/
def secStatusDebugUnlocked : Fld := ⟨0x30000, 1, 1, .ro, 0⟩
/-- SEC_STATUS.OWNER, R451 (reset NV in the spec: DESIGN CHOICE 0, log 3). -/
def secStatusOwner : Fld := ⟨0x30000, 0, 0, .ro, 0⟩
/-- SEC_CTRL.GO, R451. -/
def secCtrlGo : Fld := ⟨0x30004, 31, 31, .wo, 0⟩
/-- SEC_CTRL.CMD, R451. -/
def secCtrlCmd : Fld := ⟨0x30004, 1, 0, .rw, 0⟩
/-- SEC_RESULT.CODE, R451. -/
def secResultCode : Fld := ⟨0x30010, 7, 0, .ro, 0⟩
/-- SEC_EVENT.REFUSED, R451. -/
def secEventRefused : Fld := ⟨0x30014, 1, 1, .w1c, 0⟩
/-- SEC_EVENT.DONE, R451. -/
def secEventDone : Fld := ⟨0x30014, 0, 0, .w1c, 0⟩
/-- SEC_SRC_LO.VALUE, R451. -/
def secSrcLo : Fld := ⟨0x30008, 31, 6, .rw, 0⟩
/-- SEC_SRC_HI.VALUE, R451. -/
def secSrcHi : Fld := ⟨0x3000c, 31, 0, .rw, 0⟩
/-- SEC_IDENTITY_LO.VALUE, R451 (reset NV in the spec: DESIGN CHOICE 0, log 3). -/
def secIdentityLo : Fld := ⟨0x30018, 31, 0, .ro, 0⟩
/-- SEC_IDENTITY_HI.VALUE, R451 (reset NV in the spec: DESIGN CHOICE 0, log 3). -/
def secIdentityHi : Fld := ⟨0x3001c, 31, 0, .ro, 0⟩
/-- SEC_OWNER_ID_LO.VALUE, R451 (reset NV in the spec: DESIGN CHOICE 0, log 3). -/
def secOwnerIdLo : Fld := ⟨0x30020, 31, 0, .ro, 0⟩
/-- SEC_OWNER_ID_HI.VALUE, R451 (reset NV in the spec: DESIGN CHOICE 0, log 3). -/
def secOwnerIdHi : Fld := ⟨0x30024, 31, 0, .ro, 0⟩
/-- SEC_CERT_LEN.VALUE, R451 (reset NV in the spec: DESIGN CHOICE 0, log 3). -/
def secCertLen : Fld := ⟨0x30028, 31, 0, .ro, 0⟩
/-- SEC_NONCE.BYTES, R451. -/
def secNonce : Fld := ⟨0x30040, 31, 0, .rw, 0⟩
/-- SEC_CHALLENGE.BYTES, R451 (reset undefined in the spec: DESIGN CHOICE 0, log 3). -/
def secChallenge : Fld := ⟨0x30060, 31, 0, .ro, 0⟩
/-- SAFE_STATUS.REPORTS, R484. -/
def safeStatusReports : Fld := ⟨0x80000, 15, 8, .ro, 0⟩
/-- SAFE_STATUS.CC6_OK, R484. -/
def safeStatusCc6Ok : Fld := ⟨0x80000, 3, 3, .ro, 0⟩
/-- SAFE_STATUS.FAULT_N, R484. -/
def safeStatusFaultN : Fld := ⟨0x80000, 2, 2, .ro, 0⟩
/-- SAFE_STATUS.HEALTH, R484. -/
def safeStatusHealth : Fld := ⟨0x80000, 1, 0, .ro, 0⟩
/-- SAFE_CTRL.DIGEST_NOW, R484. -/
def safeCtrlDigestNow : Fld := ⟨0x80004, 1, 1, .wo, 0⟩
/-- SAFE_CTRL.ACK, R484. -/
def safeCtrlAck : Fld := ⟨0x80004, 0, 0, .wo, 0⟩
/-- SAFE_ERR.REPORT_DROPPED, R484. -/
def safeErrReportDropped : Fld := ⟨0x80008, 4, 4, .w1c, 0⟩
/-- SAFE_ERR.REDUNDANT, R484. -/
def safeErrRedundant : Fld := ⟨0x80008, 3, 3, .w1c, 0⟩
/-- SAFE_ERR.CC6_WATCHDOG, R484. -/
def safeErrCc6Watchdog : Fld := ⟨0x80008, 2, 2, .w1c, 0⟩
/-- SAFE_ERR.LOCKSTEP_23, R484. -/
def safeErrLockstep23 : Fld := ⟨0x80008, 1, 1, .w1c, 0⟩
/-- SAFE_ERR.LOCKSTEP_01, R484. -/
def safeErrLockstep01 : Fld := ⟨0x80008, 0, 0, .w1c, 0⟩
/-- SAFE_HEALTH_WHY.REPLACE, R484. -/
def safeHealthWhyReplace : Fld := ⟨0x8000c, 31, 16, .ro, 0⟩
/-- SAFE_HEALTH_WHY.DEGRADED, R484. -/
def safeHealthWhyDegraded : Fld := ⟨0x8000c, 15, 0, .ro, 0⟩
/-- SAFE_IFT_SEL.TEAM, R484. -/
def safeIftSelTeam : Fld := ⟨0x80040, 9, 0, .rw, 0⟩
/-- SAFE_IFT.FAILED, R484. -/
def safeIftFailed : Fld := ⟨0x80044, 31, 31, .ro, 0⟩
/-- SAFE_IFT.NEXT_TILE, R484. -/
def safeIftNextTile : Fld := ⟨0x80044, 29, 24, .ro, 0⟩
/-- SAFE_IFT.AGE, R484. -/
def safeIftAge : Fld := ⟨0x80044, 19, 0, .ro, 0xfffff⟩
/-- SAFE_DIGEST_SEL.VALID, R484. -/
def safeDigestSelValid : Fld := ⟨0x80050, 31, 31, .ro, 0⟩
/-- SAFE_DIGEST_SEL.MODEL, R484. -/
def safeDigestSelModel : Fld := ⟨0x80050, 11, 8, .rw, 0⟩
/-- SAFE_DIGEST_SEL.PART, R484. -/
def safeDigestSelPart : Fld := ⟨0x80050, 4, 0, .rw, 0⟩
/-- SAFE_LOG_HEAD.VALUE, R484. -/
def safeLogHead : Fld := ⟨0x80010, 31, 0, .ro, 0⟩
/-- SAFE_LOG_SEL.VALUE, R484. -/
def safeLogSel : Fld := ⟨0x80014, 31, 0, .rw, 0⟩
/-- SAFE_LOG.WORD, R484. -/
def safeLog : Fld := ⟨0x80020, 31, 0, .ro, 0⟩
/-- SAFE_DIGEST_WAY_LO.WAYMARK, R484. -/
def safeDigestWayLo : Fld := ⟨0x80054, 31, 0, .ro, 0⟩
/-- SAFE_DIGEST_WAY_HI.WAYMARK, R484. -/
def safeDigestWayHi : Fld := ⟨0x80058, 31, 0, .ro, 0⟩
/-- SAFE_DF_COUNT.COUNT, R484. -/
def safeDfCount : Fld := ⟨0x80100, 31, 0, .rc, 0⟩
/-- SAFE_MARKED.COUNT, R484. -/
def safeMarked : Fld := ⟨0x80104, 31, 0, .rc, 0⟩
/-- SAFE_IFT_FORCED.COUNT, R484. -/
def safeIftForced : Fld := ⟨0x80108, 31, 0, .rc, 0⟩
/-- SAFE_RED_STEPS.COUNT, R484. -/
def safeRedSteps : Fld := ⟨0x8010c, 31, 0, .rc, 0⟩
/-- SAFE_RED_TIES.COUNT, R484. -/
def safeRedTies : Fld := ⟨0x80110, 31, 0, .rc, 0⟩
/-- SAFE_REPORTS.COUNT, R484. -/
def safeReports : Fld := ⟨0x80114, 31, 0, .rc, 0⟩
/-- SAFE_DIGEST_LATE.COUNT, R484. -/
def safeDigestLate : Fld := ⟨0x80118, 31, 0, .rc, 0⟩
/-- SAFE_IFT_DONE.COUNT, R484. -/
def safeIftDone : Fld := ⟨0x8011c, 31, 0, .rc, 0⟩
/-- DBG_STATUS.DUMPS, R504. -/
def dbgStatusDumps : Fld := ⟨0x90000, 31, 16, .ro, 0⟩
/-- DBG_STATUS.HALTED, R504. -/
def dbgStatusHalted : Fld := ⟨0x90000, 15, 8, .ro, 0⟩
/-- DBG_STATUS.SCOPE, R504. -/
def dbgStatusScope : Fld := ⟨0x90000, 3, 1, .ro, 0⟩
/-- DBG_STATUS.UNLOCKED, R504. -/
def dbgStatusUnlocked : Fld := ⟨0x90000, 0, 0, .ro, 0⟩
/-- DBG_CTRL.REGION, R504. -/
def dbgCtrlRegion : Fld := ⟨0x90004, 13, 8, .rw, 0⟩
/-- DBG_CTRL.WFG, R504. -/
def dbgCtrlWfg : Fld := ⟨0x90004, 4, 4, .wo, 0⟩
/-- DBG_CTRL.CLOCK_RUN, R504. -/
def dbgCtrlClockRun : Fld := ⟨0x90004, 3, 3, .wo, 0⟩
/-- DBG_CTRL.CLOCK_STOP, R504. -/
def dbgCtrlClockStop : Fld := ⟨0x90004, 2, 2, .wo, 0⟩
/-- DBG_CTRL.LOCK, R504. -/
def dbgCtrlLock : Fld := ⟨0x90004, 1, 1, .wo, 0⟩
/-- DBG_CTRL.UNLOCK, R504. -/
def dbgCtrlUnlock : Fld := ⟨0x90004, 0, 0, .wo, 0⟩
/-- DBG_RESULT.CODE, R504. -/
def dbgResultCode : Fld := ⟨0x90008, 7, 0, .ro, 0⟩
/-- DBG_WFG_STATUS.BUSY, R504. -/
def dbgWfgStatusBusy : Fld := ⟨0x9000c, 31, 31, .ro, 0⟩
/-- DBG_WFG_STATUS.CYCLE, R504. -/
def dbgWfgStatusCycle : Fld := ⟨0x9000c, 30, 30, .ro, 0⟩
/-- DBG_WFG_STATUS.NODES, R504. -/
def dbgWfgStatusNodes : Fld := ⟨0x9000c, 12, 0, .ro, 0⟩
/-- DBG_DUMP_CTRL.ARM, R504. -/
def dbgDumpCtrlArm : Fld := ⟨0x90020, 31, 31, .wo, 0⟩
/-- DBG_DUMP_CTRL.DISARM, R504. -/
def dbgDumpCtrlDisarm : Fld := ⟨0x90020, 30, 30, .wo, 0⟩
/-- DBG_DUMP_CTRL.SLOT, R504. -/
def dbgDumpCtrlSlot : Fld := ⟨0x90020, 3, 0, .rw, 0⟩
/-- DBG_UNLOCK_LO.VALUE, R504. -/
def dbgUnlockLo : Fld := ⟨0x90010, 31, 6, .rw, 0⟩
/-- DBG_UNLOCK_HI.VALUE, R504. -/
def dbgUnlockHi : Fld := ⟨0x90014, 31, 0, .rw, 0⟩
/-- DBG_DUMP_LO.VALUE, R504. -/
def dbgDumpLo : Fld := ⟨0x90018, 31, 6, .rw, 0⟩
/-- DBG_DUMP_HI.VALUE, R504. -/
def dbgDumpHi : Fld := ⟨0x9001c, 31, 0, .rw, 0⟩
/-- DBG_WFG_LO.VALUE, R504. -/
def dbgWfgLo : Fld := ⟨0x90024, 31, 6, .rw, 0⟩
/-- DBG_WFG_HI.VALUE, R504. -/
def dbgWfgHi : Fld := ⟨0x90028, 31, 0, .rw, 0⟩
/-- TRC_DST_LO.VALUE, R504. -/
def trcDstLo : Fld := ⟨0x9101c, 31, 6, .rw, 0⟩
/-- TRC_DST_HI.VALUE, R504. -/
def trcDstHi : Fld := ⟨0x91020, 31, 0, .rw, 0⟩
/-- DBG_CHALLENGE.VALUE, R504 (reset undefined in the spec: DESIGN CHOICE 0, log 3). -/
def dbgChallenge : Fld := ⟨0x90040, 31, 0, .ro, 0⟩
/-- TRC_CTRL.COPY, R504. -/
def trcCtrlCopy : Fld := ⟨0x91000, 3, 3, .wo, 0⟩
/-- TRC_CTRL.STOP, R504. -/
def trcCtrlStop : Fld := ⟨0x91000, 2, 2, .wo, 0⟩
/-- TRC_CTRL.TRIGGER, R504. -/
def trcCtrlTrigger : Fld := ⟨0x91000, 1, 1, .wo, 0⟩
/-- TRC_CTRL.ARM, R504. -/
def trcCtrlArm : Fld := ⟨0x91000, 0, 0, .wo, 0⟩
/-- TRC_STATUS.STATE, R504. -/
def trcStatusState : Fld := ⟨0x91004, 31, 30, .ro, 0⟩
/-- TRC_STATUS.COPYING, R504. -/
def trcStatusCopying : Fld := ⟨0x91004, 29, 29, .ro, 0⟩
/-- TRC_STATUS.HEAD, R504. -/
def trcStatusHead : Fld := ⟨0x91004, 19, 0, .ro, 0⟩
/-- TRC_SRC.VALUE, R504 (the default of R502 at reset, which applies before IMAGE_LOAD). -/
def trcSrc : Fld := ⟨0x91008, 8, 0, .rw, 1⟩
/-- TRC_TRIG.VALUE, R504 (the default of R502 at reset, which applies before IMAGE_LOAD). -/
def trcTrig : Fld := ⟨0x9100c, 31, 0, .rw, 1⟩
/-- TRC_POST.VALUE, R504 (the default of R502 at reset, which applies before IMAGE_LOAD). -/
def trcPost : Fld := ⟨0x91010, 31, 0, .rw, 262144⟩
/-- TRC_TRIG_WAY_LO.WAYMARK, R504. -/
def trcTrigWayLo : Fld := ⟨0x91014, 31, 0, .ro, 0⟩
/-- TRC_TRIG_WAY_HI.WAYMARK, R504. -/
def trcTrigWayHi : Fld := ⟨0x91018, 31, 0, .ro, 0⟩
/-- CNT_SNAP_WAY_LO.WAYMARK, R504. -/
def cntSnapWayLo : Fld := ⟨0x92008, 31, 0, .ro, 0⟩
/-- CNT_SNAP_WAY_HI.WAYMARK, R504. -/
def cntSnapWayHi : Fld := ⟨0x9200c, 31, 0, .ro, 0⟩
/-- TRC_WRITTEN.COUNT, R504. -/
def trcWritten : Fld := ⟨0x91040, 31, 0, .rc, 0⟩
/-- TRC_LOST.COUNT, R504. -/
def trcLost : Fld := ⟨0x91044, 31, 0, .rc, 0⟩
/-- TRC_DROPPED.COUNT, R504. -/
def trcDropped : Fld := ⟨0x91048, 31, 0, .rc, 0⟩
/-- TRC_LATE_TRIGS.COUNT, R504. -/
def trcLateTrigs : Fld := ⟨0x9104c, 31, 0, .rc, 0⟩
/-- CNT_CTRL.CLEAR, R504. -/
def cntCtrlClear : Fld := ⟨0x92000, 1, 1, .wo, 0⟩
/-- CNT_CTRL.SNAP, R504. -/
def cntCtrlSnap : Fld := ⟨0x92000, 0, 0, .wo, 0⟩
/-- CNT_SEL.STRING, R504. -/
def cntSelString : Fld := ⟨0x92004, 5, 0, .rw, 0⟩
/-- CNT_VALUE.COUNT, R501. -/
def cntValue : Fld := ⟨0x92100, 31, 0, .ro, 0⟩
/-- RUNCTL.STEP, R490. -/
def runctlStep : Fld := ⟨0x30000000, 2, 2, .wo, 0⟩
/-- RUNCTL.RESUME, R490. -/
def runctlResume : Fld := ⟨0x30000000, 1, 1, .wo, 0⟩
/-- RUNCTL.HALT, R490. -/
def runctlHalt : Fld := ⟨0x30000000, 0, 0, .wo, 0⟩
/-- RUNSTAT.CAUSE, R490. -/
def runstatCause : Fld := ⟨0x30000004, 7, 4, .ro, 0⟩
/-- RUNSTAT.BP, R490. -/
def runstatBp : Fld := ⟨0x30000004, 3, 1, .ro, 0⟩
/-- RUNSTAT.HALTED, R490. -/
def runstatHalted : Fld := ⟨0x30000004, 0, 0, .ro, 0⟩
/-- BP_CTRL.TRIG, R490. -/
def bpCtrlTrig : Fld := ⟨0x30000080, 5, 5, .rw, 0⟩
/-- BP_CTRL.ACTION, R490. -/
def bpCtrlAction : Fld := ⟨0x30000080, 4, 4, .rw, 0⟩
/-- BP_CTRL.TYPE, R490. -/
def bpCtrlType : Fld := ⟨0x30000080, 3, 2, .rw, 0⟩
/-- BP_CTRL.ENABLE, R490. -/
def bpCtrlEnable : Fld := ⟨0x30000080, 0, 0, .rw, 0⟩
/-- WAIT.DETAIL, R490. -/
def waitDetail : Fld := ⟨0x30000010, 31, 16, .ro, 0⟩
/-- WAIT.REASON, R490. -/
def waitReason : Fld := ⟨0x30000010, 4, 0, .ro, 0⟩
/-- HUB_GPIO_IN.LEVEL, R519 (reset undefined in the spec: DESIGN CHOICE 0, log 3). -/
def hubGpioInLevel : Fld := ⟨0x100, 15, 0, .ro, 0⟩
/-- HUB_GPIO_OUT.LEVEL, R519 (reset NV in the spec: DESIGN CHOICE 0, log 3). -/
def hubGpioOutLevel : Fld := ⟨0x104, 15, 0, .rw, 0⟩
/-- VOLZ_RUN_DIGEST.VALUE, R53. -/
def volzRunDigest : Fld := ⟨0xe0040, 31, 0, .ro, 0⟩
/-- VOLZ_IMAGE_DIGEST.VALUE, R53. -/
def volzImageDigest : Fld := ⟨0xe0080, 31, 0, .ro, 0⟩
/-- VOLZ_SECT_DIGEST.VALUE, R53. -/
def volzSectDigest : Fld := ⟨0xe0100, 31, 0, .ro, 0⟩
/-- SAFE_DIGEST.VALUE, R484. -/
def safeDigest : Fld := ⟨0x80080, 31, 0, .ro, 0⟩
/-- SEC_REPORT.VALUE, R451. -/
def secReport : Fld := ⟨0x31000, 31, 0, .ro, 0⟩
/-- SEC_CERT.VALUE, R451 (reset NV in the spec: DESIGN CHOICE 0, log 3). -/
def secCert : Fld := ⟨0x34000, 31, 0, .ro, 0⟩
/-- PC_LO.VALUE, R490. -/
def pcLo : Fld := ⟨0x30000008, 31, 0, .ro, 0⟩
/-- PC_HI.VALUE, R490. -/
def pcHi : Fld := ⟨0x3000000c, 31, 0, .ro, 0⟩
/-- WAIT_ON.VALUE, R490. -/
def waitOn : Fld := ⟨0x30000014, 31, 0, .ro, 0⟩
/-- WAIT_SINCE_LO.VALUE, R490. -/
def waitSinceLo : Fld := ⟨0x30000018, 31, 0, .ro, 0⟩
/-- WAIT_SINCE_HI.VALUE, R490. -/
def waitSinceHi : Fld := ⟨0x3000001c, 31, 0, .ro, 0⟩
/-- BP_ADDR_LO.VALUE, R490. -/
def bpAddrLo : Fld := ⟨0x30000040, 31, 0, .rw, 0⟩
/-- BP_ADDR_HI.VALUE, R490. -/
def bpAddrHi : Fld := ⟨0x30000044, 31, 0, .rw, 0⟩

/-- The fields of one block of the register space. -/
def volzRegs : List Fld :=
  [volzStatusTrialFailed, volzStatusFallback, volzStatusBootSrc, volzStatusState, volzStatusLoadPart, volzCtrlPart, volzCtrlCmd, volzSrcLo, volzSrcHi, volzLen, volzResultSection, volzResultCode] ++
  [volzEventRefused, volzEventDone, volzSectSelIndex, volzSectInfoType, volzSectInfoScope, volzSectInfoIgnored, volzSvnMin, volzImageSvn, volzImageSerial, volzSectLen, volzSectCount, volzRunDigest] ++
  [volzImageDigest, volzSectDigest]
/-- The fields of one block of the register space. -/
def teamRegs : List Fld :=
  [teamIdDie, teamIdString, teamIdTeam, teamStatusQuiesced, teamStatusStopped, teamStatusTakeover, teamStatusDrain, teamStatusSwapPending, teamCtrlCntFreeze, teamCtrlStop, teamSwapMask, teamSwapPlane] ++
  [teamSwapGo, teamLive, teamErrLiveWriteAny, teamErrSwapConflict, teamIncarnation, teamRolePhys3, teamRolePhys2, teamRolePhys1, teamRolePhys0, teamBeatsLo, teamBeatsHi, teamHeld] ++
  [teamZeroSkips, teamSatCount, teamClassHist]
/-- The fields of one block of the register space. -/
def tileRegs : List Fld :=
  [tileStatusOutOfService, tileStatusRole, tileStatusKind, tileStatusSwapPending, tileStatusDrain, tileStatusOpenBusy, tileStatusLive, tileConfigPhase, tileConfigSeg, tileConfigSegScale, tileConfigPair, tileConfigClassFloor] ++
  [tileConfigInFmt, tileLastActiveRows, tileLastZero, tileLastSatAny, tileLastX, tileLastClass, tileErrEdgeMissing, tileErrWinLimit, tileErrLiveWrite, tileBeatsLo, tileBeatsHi, tileZeroCount] ++
  [tileSatCount, tileSatMask, tileSatWayLo, tileSatWayHi, tileIncarnation]
/-- The fields of one block of the register space. -/
def outrRegs : List Fld :=
  [outrStatusArbQueued, outrStatusRefBusy, outrStatusSelftestPass, outrStatusSelftestDone, outrStatusDegraded, outrStatusOutOfService, outrStatusForcedCheck, outrStatusSplitStall, outrStatusBackpressure, outrStatusArbActive, outrCtrlRole, outrCtrlSample] ++
  [outrCtrlSelftest, outrErrCheckLate, outrErrSelftestRefused, outrErrRefBad, outrArbState, outrArbPhase, outrArbVerdict, outrArbWhereSpare, outrArbWherePhys, outrArbWhereRole, outrArbWhereColumn, outrRefCtrlGo] ++
  [outrRefCtrlTile, outrRefCtrlPlane, outrRefCtrlSeg, outrRefCtrlSegScale, outrRefCtrlPair, outrRefCtrlInFmt, outrRefCtrlClassFloor, outrRefCtrlDone, outrLayerSelLayer, outrArbWayLo, outrArbWayHi, outrRefInLo] ++
  [outrRefOutLo, outrRefInHi, outrRefOutHi, outrLayerOvf, outrLayerOvfUnits, outrOutlierRows, outrOutlierUnits, outrOvfVectors, outrStallPeriods, outrClampedRows, outrExtractLimit, outrFineLoss] ++
  [outrSatRepaired, outrSatUnrepaired, outrChecks, outrNear, outrCheckFails, outrCheckStalls, outrBackpressure, outrReplays, outrArbCount]
/-- The fields of one block of the register space. -/
def calRegs : List Fld :=
  [calStatusTile, calStatusSlewing, calStatusStep, calStatusTracking, calStatusMode, calStatusCalrefOk, calStatusBusy, calCtrlTile, calCtrlHold, calCtrlAbandon, calCtrlRequest, calErrLate] ++
  [calErrFitPoor, calErrNoData, calErrNoSpare, calErrTrimLimit, calErrCalrefLost, calRotPeriod, calRotNext, calSlewInterval, calSelTile, calSelSet, calSelChain, calSelColumn] ++
  [calCoefGain, calCoefOffset, calTempTco, calTempTCal, calInfoCount, calInfoResid, calInfoLastMode, calInfoValid, calTrimWin, calTrimDelay, calEffWin, calEffDelay] ++
  [calWayLo, calWayHi, calDoneCount, calSkippedCount, calAbruptCount, calLateCount]
/-- The fields of one block of the register space. -/
def farrRegs : List Fld :=
  [farrStatusPending, farrStatusPendingTile, farrStatusRetired, farrStatusNvPending, farrStatusBypass, farrStatusIdleSpares, farrCtrlGo, farrCtrlCmd, farrCtrlTile, farrCtrlColumn, farrErrCmdRefused, farrErrNvFail] ++
  [farrErrBypassFull, farrErrNoSpareTile, farrErrNoSpareColumn, farrLastAction, farrLastReason, farrLastTile, farrLastColumn, farrLastWayLo, farrLastWayHi, farrRemapCount, farrRetireCount, farrBypassValid] ++
  [farrBypassTile, farrBypassColumn, farrMapStateHi, farrMapLogicalHi, farrMapStateLo, farrMapLogicalLo]
/-- The fields of one block of the register space. -/
def accRegs : List Fld :=
  [accStatusReplay, accStatusHold, accStatusOpen, accCtrlGroup, accCtrlAbandon, accErrBadField, accErrBadScale, accErrNanInput, accErrStray, accErrOverlap, accErrOpenBusy, accGroupSelGroup] ++
  [accGroupState, accGroupMode, accGroupSat, accGroupPending, accGroupVectorsM1, accGroupWidthM1, accGroupFirst, accGroupInfoLayer, accGroupInfoFix, accGroupInfoTopkK, accGroupInfoOutMx, accGroupInfoTopkDir] ++
  [accMilepost, accLayerSelLayer, accLayerSat, accLayerUfl, accPromotions, accEarly, accOutrAdds, accWideSat, accEdgeUfl, accOutSat, accOutUfl, accStray] ++
  [accAbandoned, accTopk, accReplays, accReplayLimited]
/-- The fields of one block of the register space. -/
def kvRegs : List Fld :=
  [kvStatusWaiters, kvStatusSnapValid, kvErrPoison, kvErrRefLimit, kvErrHostDma, kvErrHostBusy, kvErrScoreSpace, kvErrDesc, kvSel0Slot, kvSel0Part, kvSel1Index, kvSel1Cache] ++
  [kvSeqState, kvSeqCount, kvSeqLen, kvPte, kvPage]
/-- The fields of one block of the register space. -/
def kvPartRegs : List Fld :=
  [kvPStatusWaiters, kvPStatusCaches, kvPHostLo, kvPHostHi, kvPHostFrames, kvPFreeSram, kvPFreeDram, kvPFreeHost, kvPAlloc, kvPReclaim, kvPCow, kvPForks] ++
  [kvPRefCopies, kvPEvict, kvPSpillDram, kvPSpillHost, kvPFetch, kvPWaits, kvPExhausted]
/-- The fields of one block of the register space. -/
def gateRegs : List Fld :=
  [gateSlotsBase, gateSlotsCount, gateActiveRunning, gateActiveArmed, gateParkedPaused, gateParkedWaiting, gateArms, gateBadDesc, gateIgnored, gateSteps, gateCancels, gateTtlExpired] ++
  [gateSplits, gateSuspends, gateDoneMap]
/-- The fields of one block of the register space. -/
def relayRegs : List Fld :=
  [relayFwdChunks, relayFwdLate, loadDescs, loadKib, loadCtrlGo, loadCtrlAbort, loadCtrlIrqVec, loadStatusEvent, loadStatusState, loadStatusLastCode, loadRxSeq, loadRxOutcome] ++
  [loadRxChunks, loadReloadPending, loadReloadTeam, loadReloadPlane, loadReloadRole, loadHeadLo, loadCurLo, loadHeadHi, loadCurHi]
/-- The fields of one block of the register space. -/
def dramRegs : List Fld :=
  [dramStatusNvPending, dramStatusStacksUp, dramRetireGo, dramRetireKind, dramRetireIndex, dramRetireResultCode, dramRetiredBanks, dramRetiredUnits, dramRetSelIndex, dramHardSelIndex, dramRetEntryValid, dramRetEntryKind] ++
  [dramRetEntryCount, dramRetEntryIndex, dramHardEntryValid, dramHardEntryKind, dramHardEntryCount, dramHardEntryIndex, sramCe, sramUe, dramCe, dramUe, memHard, retiredAccess] ++
  [sweepCtrlGo, sweepCtrlAbort, sweepCtrlMode, sweepStatusDone, sweepStatusBusy, sweepStatusOutcome, sweepStartLoAddrLo, sweepStartLoAddrMid, sweepSumLoAddrLo, sweepSumLoAddrMid, sweepStartHi, sweepSumHi] ++
  [sweepLen]
/-- The fields of one block of the register space. -/
def groomRegs : List Fld :=
  [groomStatusLaggard, groomStatusLeft, groomErrUeOpen, groomErrUeLive, groomErrCeLive, groomErrLapLate, groomLap, groomLapMax, groomBound, groomWayLo, groomWayHi, groomLaps] ++
  [groomCe, groomUe, groomHard, groomTakeovers]
/-- The fields of one block of the register space. -/
def linkRegs : List Fld :=
  [linkStatusDisc, linkStatusConfigSkew, linkStatusFwSkew, linkStatusSkip, linkStatusCause, linkStatusLanes, linkStatusState, linkCtrlRetrain, linkCtrlDark, linkErrLaserLow, linkErrLaneFailed, linkErrUnexpected] ++
  [linkErrSkew, linkErrFenced, linkErrDown, linkPeerPort, linkPeerZ, linkPeerY, linkPeerX, linkLaneSelLane, linkLaneSymErr, linkLaneState, linkLaneLogical, cwayStatusHeld] ++
  [cwayStatusFault, cwayStatusState, cwayCtrlClose, cwayCtrlOpen, linkPeerIdLo, linkPeerIdHi, linkPeerInc, linkInc, linkWayOfs, linkWayDelay, linkRetrains, linkReplays] ++
  [linkFecCorr, linkFecUncorr, linkCrcErr, linkLaneSubs, linkFenced, linkUnroutable]
/-- The fields of one block of the register space. -/
def torRegs : List Fld :=
  [torPosDimM1, torPosPos, torStatusQuarantine, torStatusDiscDone, torStatusLostZ, torStatusLostY, torStatusLostX, torPkgInc, torReadmitGo, torReadmitEntry, torRevSelValid, torRevSelPos] ++
  [torRevSelEntry, torRevokeGo, torRevokePos, torNeed, torRevUnit, torRevInc, torCollDone, torCollDegraded, torCollFailed, torCtrlRetx, torCtrlCrc, torRevokes]
/-- The fields of one block of the register space. -/
def pciRegs : List Fld :=
  [pciStatusLinkUp, pciStatusBelowSpec, pciStatusFlit, pciStatusWidth, pciStatusRate, pciErrPoisonRx, pciErrUr, pciErrCplTimeout, pciErrLinkDown, pciDramBaseBase, pciModInterval, pciUrCount] ++
  [pciPoisonCount, pciTimeoutCount, pciAtsInval]
/-- The fields of one block of the register space. -/
def vfRegs : List Fld :=
  [partVDramBaseBase, partVModInterval, partVViol]
/-- The fields of one block of the register space. -/
def partRegs : List Fld :=
  [partViol, partSelPart, partCtrlGo, partCtrlCmd, partStatusHeld, partStatusRefused, partStatusVf, partStatusCause, partStatusScrubbed, partStatusState, partService]
/-- The fields of one block of the register space. -/
def tollRegs : List Fld :=
  [tollSelResource, tollSelMember, tollWeightBulkShare, tollWeightWeight, tollGrantCredits, tollUsed, tollSpare, tollStarved]
/-- The fields of one block of the register space. -/
def clkRegs : List Fld :=
  [clkStatusGait, clkStatusBackupOsc, clkStatusMonFault, clkStatusPllLock, clkRegionSelRegion, clkRegionStopped, clkRegionStretched, clkRegionBoost, clkStretches, wayStatusHops, wayStatusSourceDisagree, wayStatusFar] ++
  [wayStatusSource, wayStatusState, wayCtrlSet, wayErrSetRefused, clkCycLo, clkCycHi, wayNowLo, wayNowHi, wayOffset, wayRate, waySetLo, waySetHi] ++
  [wayPpsLo, wayPpsHi]
/-- The fields of one block of the register space. -/
def brdlRegs : List Fld :=
  [brdlStatusMeasMs, brdlStatusBackstop, brdlStatusUnmet, brdlStatusMeasSlow, brdlStatusMeasValid, brdlCapCapMax, brdlCapCap, brdlFitGain, brdlFitOffset, brdlErrAvsbus, brdlErrPmbus, brdlErrRailFault] ++
  [brdlErrMeasLost, brdlErrCapUnmet, brdlBoost, brdlEstArray, brdlEstPower, brdlMeasPower, brdlRailSelRail, brdlRailCurrent, brdlRailVoltage, brdlEnergyLo, brdlEnergyHi, brdlOverCap] ++
  [brdlUnmetMs, brdlBackstopMs, brdlBoostGrants, brdlRefits, brdlPmbusWarn]
/-- The fields of one block of the register space. -/
def reinRegs : List Fld :=
  [reinStatusThermalPkg, reinStatusFloor, reinStatusPackage, reinStringLimiter, reinStringThermal, reinStringEffective, reinCeil, reinSelString]
/-- The fields of one block of the register space. -/
def thrmRegs : List Fld :=
  [thrmStatusHardTrip, thrmStatusEol, thrmStatusThrottleOpt, thrmStatusThrottleHub, thrmStatusThrottleString, thrmStatusTripped, thrmErrPlanChange, thrmErrThrottleEntry, thrmErrSensorFail, thrmSensorGood, thrmSensorFast, thrmSensorTemp] ++
  [thrmAgeEligible, thrmAgeSlowdown, thrmPlanWindow, thrmPlanGuard, thrmLifeConsumed, thrmSelIndex, thrmAgeSelIndex, thrmMaxHigh, thrmMaxLow, thrmHubNvOk, thrmHubLow, thrmTripWayLo] ++
  [thrmTripWayHi, thrmThrottleMs, thrmFastEntries, thrmSensorFaults]
/-- The fields of one block of the register space. -/
def adcRegs : List Fld :=
  [adcStatusUrgentBusy, adcStatusRunning, adcStatusSweepUs, adcErrRefFault, adcErrUrgentRefused, adcErrOpenWire, adcUrgentGo, adcUrgentChannel, adcUrgentResultDone, adcUrgentResultCode, adcCfgRole, adcCfgEnable] ++
  [adcCfgOpenTest, adcCfgShift, adcCfgAvgLog2, adcResultOpen, adcResultFresh, adcResultValue]
/-- The fields of one block of the register space. -/
def rstRegs : List Fld :=
  [rstStatusBootLock, rstStatusFailLimit, rstStatusFailCount, rstStatusReason, rstStatusCause, rstStatusPaddock, rstStatusStage, rstCtrlRetry, rstErrRetryRefused, rstStartCount, rstFaultStage, rstFaultCode] ++
  [rstReadyWayLo, rstReadyWayHi]
/-- The fields of one block of the register space. -/
def nvRegs : List Fld :=
  [nvStatusVolzValid, nvStatusFwValid, nvStatusUserPresent, nvStatusVolzActive, nvStatusVolzTrial, nvStatusFwActive, nvStatusFwTrial, nvStatusFwTrialFailed, nvStatusTempOk, nvStatusBusy, nvCtrlGo, nvCtrlTarget] ++
  [nvCtrlCmd, nvResultCode, nvEventRefused, nvEventDone, nvSrcLo, nvSrcHi, nvLen]
/-- The fields of one block of the register space. -/
def secRegs : List Fld :=
  [secStatusBusy, secStatusDebugUnlocked, secStatusOwner, secCtrlGo, secCtrlCmd, secResultCode, secEventRefused, secEventDone, secSrcLo, secSrcHi, secIdentityLo, secIdentityHi] ++
  [secOwnerIdLo, secOwnerIdHi, secCertLen, secNonce, secChallenge, secReport, secCert]
/-- The fields of one block of the register space. -/
def safeRegs : List Fld :=
  [safeStatusReports, safeStatusCc6Ok, safeStatusFaultN, safeStatusHealth, safeCtrlDigestNow, safeCtrlAck, safeErrReportDropped, safeErrRedundant, safeErrCc6Watchdog, safeErrLockstep23, safeErrLockstep01, safeHealthWhyReplace] ++
  [safeHealthWhyDegraded, safeIftSelTeam, safeIftFailed, safeIftNextTile, safeIftAge, safeDigestSelValid, safeDigestSelModel, safeDigestSelPart, safeLogHead, safeLogSel, safeLog, safeDigestWayLo] ++
  [safeDigestWayHi, safeDfCount, safeMarked, safeIftForced, safeRedSteps, safeRedTies, safeReports, safeDigestLate, safeIftDone, safeDigest]
/-- The fields of one block of the register space. -/
def dbgRegs : List Fld :=
  [dbgStatusDumps, dbgStatusHalted, dbgStatusScope, dbgStatusUnlocked, dbgCtrlRegion, dbgCtrlWfg, dbgCtrlClockRun, dbgCtrlClockStop, dbgCtrlLock, dbgCtrlUnlock, dbgResultCode, dbgWfgStatusBusy] ++
  [dbgWfgStatusCycle, dbgWfgStatusNodes, dbgDumpCtrlArm, dbgDumpCtrlDisarm, dbgDumpCtrlSlot, dbgUnlockLo, dbgUnlockHi, dbgDumpLo, dbgDumpHi, dbgWfgLo, dbgWfgHi, dbgChallenge]
/-- The fields of one block of the register space. -/
def trcRegs : List Fld :=
  [trcDstLo, trcDstHi, trcCtrlCopy, trcCtrlStop, trcCtrlTrigger, trcCtrlArm, trcStatusState, trcStatusCopying, trcStatusHead, trcSrc, trcTrig, trcPost] ++
  [trcTrigWayLo, trcTrigWayHi, trcWritten, trcLost, trcDropped, trcLateTrigs]
/-- The fields of one block of the register space. -/
def cntRegs : List Fld :=
  [cntSnapWayLo, cntSnapWayHi, cntCtrlClear, cntCtrlSnap, cntSelString, cntValue]
/-- The fields of one block of the register space. -/
def unitRegs : List Fld :=
  [runctlStep, runctlResume, runctlHalt, runstatCause, runstatBp, runstatHalted, bpCtrlTrig, bpCtrlAction, bpCtrlType, bpCtrlEnable, waitDetail, waitReason] ++
  [pcLo, pcHi, waitOn, waitSinceLo, waitSinceHi, bpAddrLo, bpAddrHi]
/-- The fields of one block of the register space. -/
def hubRegs : List Fld :=
  [hubGpioInLevel, hubGpioOutLevel]

end Reg

end Sys2Proof.Machine
end

