-- ==== Sys2Proof/Machine/Turnpike.lean ====
section
/-!
DEFINITION. The package fabric: where strings, hub ports, torus ports and stacks attach to the turnpike (R9 to R11, R20), the
route of a packet (R13), the traffic classes (R14) and the arbiter of an output (R15). No command of the table drives the
fabric (log 117); the arbiter is also that of the torus ports.
-/
namespace Sys2Proof.Machine

/-! ### Places (R9 to R11, R20) -/

/-- Row and column of a string's router. -/
def routerRow (x : Nat) : Nat := 2 * (x / 2 / 8) + x % 2
def routerCol (x : Nat) : Nat := x / 2 % 8

/-- The string at a row and column. -/
def stringAt (row col : Nat) : Nat := 2 * (8 * (row / 2) + col) + row % 2

/-- The die of a string. -/
def stringDie (x : Nat) : Nat := x / 2

/-- The strings whose routers the hub's four ports join, and the rate of each port in bytes per microsecond. -/
def hubPorts : List Nat := [7, 9, 22, 24]
def hubPortRate : Nat := 1500000

/-- The string that a torus port attaches to; its link controller and collective engine sit on that string's die. -/
def portString (p : Nat) : Nat := [15, 16, 4, 21, 10, 27].getD p 15

/-- The two dies that share a stack, the stack of a die, and the channels and rate of each die's controller. Which 16 of the
32 channels each controller owns is left open: the even die has the lower ones (DESIGN CHOICE, log 118). -/
def stackDies (k : Nat) : List Nat := [2 * k, 2 * k + 1]
def dieStack (d : Nat) : Nat := d / 2
def dieChannels (d : Nat) : List Nat := (List.range 16).map (fun i => 16 * (d % 2) + i)
def controllerRate : Nat := 1000000

/-! ### Routes (R13) -/

/-- One step along a ring of `n` places: the shorter way round, and the increasing index where both are equal. -/
def ringNext (n a b : Nat) : Nat := if 2 * ((b + n - a) % n) ≤ n then (a + 1) % n else (a + n - 1) % n

/-- The router after `x` on the way to `dst`: along the row to the column, then along the column. -/
def nextRouter (x dst : Nat) : Nat :=
  if routerCol x ≠ routerCol dst then stringAt (routerRow x) (ringNext 8 (routerCol x) (routerCol dst))
  else if routerRow x ≠ routerRow dst then stringAt (ringNext 4 (routerRow x) (routerRow dst)) (routerCol x)
  else x

/-- The routers that a packet passes from `x` to `dst`, both among them; six hops reach every router. -/
def turnpikePath : (hops : Nat) → (x dst : Nat) → List Nat
  | 0, x, _ => [x]
  | n + 1, x, dst => if x = dst then [x] else x :: turnpikePath n (nextRouter x dst) dst
def turnpikeRoute (x dst : Nat) : List Nat := turnpikePath 6 x dst

/-! ### Classes and the arbiter of an output (R14, R15) -/

/-- The traffic classes as R313 numbers them. -/
def clsCtrl : Nat := 0
def clsData : Nat := 1
def clsBulk : Nat := 2

/-- What crosses the turnpike (R14). -/
inductive Traffic where
  | control | interrupt | faultReport | slotChange
  | activation | partialSum | scorePage | cachePage
  | weightLoad | relayChunk | sweep | dump
  deriving DecidableEq, Repr

/-- The class of each kind of traffic. -/
def Traffic.cls : Traffic → Nat
  | .control | .interrupt | .faultReport | .slotChange => clsCtrl
  | .activation | .partialSum | .scorePage | .cachePage => clsData
  | .weightLoad | .relayChunk | .sweep | .dump => clsBulk

/-- What an output remembers: DATA sent since the last BULK while both waited, and the last input served of each class. -/
structure OutArb where
  run : Nat := 0
  last : List Nat := [0, 0, 0]
  deriving DecidableEq, Repr

/-- The class that an output serves: CTRL first; with DATA and BULK both waiting, three DATA for each BULK. -/
def OutArb.cls (a : OutArb) (ctrl data bulk : Bool) : Option Nat :=
  if ctrl then some clsCtrl
  else if data && bulk then some (if a.run < 3 then clsData else clsBulk)
  else if data then some clsData
  else if bulk then some clsBulk
  else none

/-- The input served among those that wait: the first after the last one served, in turn. -/
def nextInput (last : Nat) (waiting : List Nat) : Nat :=
  match waiting.filter (fun i => decide (last < i)) with
  | i :: is => is.foldl min i
  | [] => match waiting with
    | i :: is => is.foldl min i
    | [] => last

/-- The arbiter's choice: class and input, and what it remembers after, from the pairs (class, input) that wait. -/
def OutArb.pick (a : OutArb) (ws : List (Nat × Nat)) : Option ((Nat × Nat) × OutArb) :=
  let has := fun c => ws.any (fun w => w.1 == c)
  match a.cls (has clsCtrl) (has clsData) (has clsBulk) with
  | none => none
  | some c =>
    let i := nextInput (a.last.getD c 0) ((ws.filter (fun w => w.1 == c)).map (·.2))
    let run := if c = clsData ∧ has clsBulk then a.run + 1 else if c = clsBulk then 0 else a.run
    some ((c, i), { run := run, last := a.last.set c i })

/-- The outputs of the fabric, as `State.fabric` numbers them: the four directions of each router, then the hub's ports. -/
def routerOutput (x dir : Nat) : Nat := 4 * x + dir % 4
def hubOutput (h : Nat) : Nat := 128 + h % 4

end Sys2Proof.Machine
end

