-- ==== Sys2Proof/Machine/State.lean ====
section
/-!
DEFINITION. The state of the package: plain data, every register, buffer, queue, counter, mode and pin the spec gives
it. Register fields stand in one sparse map (`fields`, an unlisted field reads its reset value); what the machine holds
beside its registers stands in the structures below, chapter by chapter. A structure's own values are those of reset.
-/
namespace Sys2Proof.Machine

/-- Why the machine stops. No command of the table stops this machine: every row of the table has an effect in the
spec, so no constructor is raised by `exec`. Safe: a stop would prove nothing. -/
inductive Fault where
  /-- raised by nobody; the outcome type asks for a reason type -/
  | none
  deriving DecidableEq, Repr

/-- Why a command has no meaning in the model. -/
inductive Refusal where
  /-- raised by `exec` for a row whose meaning is not written. Safe: nothing can be proved of its effect. -/
  | notModelled (mnemonic : String)
  deriving DecidableEq, Repr

/-! ### Torus packets and flits (R291, R311, R313) -/

/-- What a packet carries after its header: a control message (TYPE, control header, body), or the bytes of DATA. -/
inductive PktBody where
  | control (type : Nat) (hdr : CtrlHdr) (body : List Nat)
  | data (bytes : List Nat)
  deriving DecidableEq, Repr

/-- A torus packet: the fields of its header (R313), its content, and the input by which it came to the router: a port, 6 this
package. -/
structure Packet where
  dst : Nat
  src : Nat
  cls : Nat
  vc : Nat
  session : Nat
  offset : Nat
  inp : Nat
  content : PktBody
  /-- whose credits its lines take at this port's egress: a partition, 32 the package account, `none` for none (R356) -/
  member : Option Nat := none
  /-- bytes of it that have passed the port's arbiter -/
  gone : Nat := 0
  deriving DecidableEq, Repr

/-- A flit kept for replay (R291, R292): SEQ, the class and virtual channel whose credit it holds, and its 504 payload bytes. -/
structure Flit where
  seq : Nat
  cls : Nat
  vc : Nat
  payload : List Nat
  deriving DecidableEq, Repr

/-! ### What leaves the package -/

/-- The commands that the device gives to a regulator on its PMBus segment (R395). -/
inductive PmbusCmd where
  | operation | onOffConfig | voutCommand | readVout | readIout | readTemperature1 | statusWord | clearFaults
  deriving DecidableEq, Repr

/-- What the package sends: interrupts, management messages, torus messages, writes to host memory, completions of
host reads, and the values that leave at the test port. Kept in the order sent, newest last. -/
inductive Out where
  /-- an MSI-X message: function, vector (R346, R347) -/
  | msix (fn vec : Nat)
  /-- a management message in a UDP datagram: MAC address of the port, VLAN tag, source address, destination address and the next hop
  towards it, port, the message, and the IPv6 fragments in which the datagram travels, by offset and length (none: it travels whole;
  R475 to R477) -/
  | mgmt (mac : List Nat) (vlan : Option Nat) (src dst hop : List Nat) (port : Nat) (msg : List Nat) (frags : List (Nat × Nat))
  /-- the management port offers its partner 10GBASE-KR with FEC beside 1000BASE-KX, or the latter alone (R475) -/
  | portOffer (kr : Bool)
  /-- a packet on a port, which the flits after it carry (R313) -/
  | packet (port : Nat) (pkt : Packet)
  /-- the 512 bytes of a flit on a port (R291) -/
  | flit (port : Nat) (bytes : List Nat)
  /-- bytes written to host memory -/
  | hostWrite (addr : Nat) (bytes : List Nat)
  /-- a completion: status 0 successful, 1 Unsupported Request, 2 poisoned, 3 Configuration Request Retry Status -/
  | completion (status : Nat) (data : List Nat)
  /-- a PMBus write at 1 MHz (`fast`) or 400 kHz: address of the regulator, command, the value written, in µV for VOUT_COMMAND, and
  the PEC (R395) -/
  | pmbus (fast : Bool) (addr : Nat) (cmd : PmbusCmd) (value pec : Nat)
  /-- a PMBus read, whose PEC the regulator sends -/
  | pmbusRead (fast : Bool) (addr : Nat) (cmd : PmbusCmd)
  /-- an AVSBus voltage write: rail select, µV; a status read (R395) -/
  | avs (sel microvolts : Nat)
  | avsStatus (sel : Nat)
  /-- bits shifted out at TDO (R485) -/
  | tdo (width : Nat) (value : Nat)
  /-- a PTP Delay_Req on the management port: MAC address, VLAN tag, domain, sequence (R374) -/
  | delayReq (mac : List Nat) (vlan : Option Nat) (domain seq : Nat)
  /-- an error reported through the AER capability of a function (R359): 0 correctable, 1 non-fatal, 2 fatal -/
  | aer (fn severity : Nat)
  /-- a translation request of a function for a host address, and an invalidation's completion (R358) -/
  | translate (fn addr : Nat)
  | invalidated (fn addr len : Nat)
  deriving DecidableEq, Repr

/-! ### Fault log, reports and health (chapter 16) -/

/-- A fault-log record (R470). -/
structure LogRec where
  way : Nat := 0
  source : Nat := 0
  inc : Nat := 0
  cls : Nat := 0
  sev : Nat := 0
  code : Nat := 0
  ctx : List Nat := []
  deriving DecidableEq, Repr

/-- An error report that awaits its ERROR_ACK (R478, R480). -/
structure Report where
  entry : LogRec
  scope : Nat
  start : Nat
  id : Nat
  marked : Nat
  poisoned : Nat
  sends : Nat
  deriving DecidableEq, Repr

/-- A published weight digest (R466). -/
structure Digest where
  valid : Bool := false
  bytes : List Nat := []
  way : Nat := 0
  deriving DecidableEq, Repr

/-- The safety block's own state (R452 to R484). -/
structure Safety where
  /-- the ring of R471, keyed by record number mod 8,192 -/
  log : SMap LogRec := []
  /-- identifier of the next report -/
  nextReport : Nat := 0
  reports : List Report := []
  /-- DF and FATAL records since reset (R473, R479), and those that wait for the window of R407 -/
  dfCount : Nat := 0
  /-- a DF record since reset (R473) -/
  dfSeen : Bool := false
  nvWaiting : List LogRec := []
  /-- a LOCKSTEP mismatch stopped the device until a reset (R459) -/
  lockstopped : Bool := false
  /-- CC6 was restarted by the watchdog and has not yet run again (R460) -/
  cc6Down : Bool := false
  /-- test of a tile (key team * 64 + tile): 1 due, 2 deferred past IFT_DEFER, 3 running on an idle spare, 4 + r running on
  the tile released from role r, 40 + r waiting to return to role r (R461, R462) -/
  tileTest : SMap Nat := []
  /-- digital test of a team: 1 due, 2 deferred past IFT_DEFER, 3 running (R463) -/
  teamTest : SMap Nat := []
  /-- waymark of the last passed test, per tile and per team -/
  tilePass : SMap Nat := []
  teamPass : SMap Nat := []
  /-- digests by partition * 16 + model; digests in progress; models whose digest was restarted (R465) -/
  digests : SMap Digest := []
  digesting : List Nat := []
  /-- waymark, plus 1, at which a model's digest fell due last -/
  digestDue : SMap Nat := []
  /-- management port up, its next SEQ (R475, R477) -/
  portUp : Bool := false
  mgmtSeq : Nat := 0
  /-- CHALLENGE of R481, renewed after every authorised command -/
  challenge : List Nat := []
  /-- rotation of the tile tests: next tile per team; teams with a failed test since reset (R461, SAFE_IFT) -/
  iftNext : SMap Nat := []
  iftFailed : List Nat := []
  /-- an NV command opened by NV_BEGIN: command, target, length, bytes so far, accepted count (R478) -/
  nvOpen : Option (Nat × Nat × Nat × List Nat) := none
  deriving DecidableEq, Repr

/-! ### The Volzal image (chapter 02) -/

/-- A section of an image: TYPE, VERSION, SCOPE, FLAGS, its BODY_DIGEST and body; `ignored` under R31. -/
structure Sect where
  type : Nat
  version : Nat
  scope : Nat
  flags : Nat
  digest : List Nat
  body : List Nat
  ignored : Bool
  deriving DecidableEq, Repr

/-- What a load in progress is for (R39, R41, R44). -/
inductive LoadKind where
  | slotA | slotB | host
  | part (p : Nat)
  deriving DecidableEq, Repr

/-- The Volzal block's hidden state. -/
structure Volz where
  /-- the running sections, in the order of R51: the RUNNING half of the staging area (R32, R43) -/
  running : List Sect := []
  /-- the bytes of the INCOMING half: the image pulled or copied for a load (R32, R42) -/
  incoming : List Nat := []
  /-- the sections of the image being checked, once step 1 of R37 has passed -/
  parsed : List Sect := []
  kind : Option LoadKind := none
  /-- source address and length of a host load -/
  src : Nat := 0
  len : Nat := 0
  /-- header values of the boot image: SVN, SERIAL, INSTALLATION, FLAGS -/
  bootSvn : Nat := 0
  bootSerial : Nat := 0
  installation : List Nat := []
  raiseSvn : Bool := false
  /-- the two 64-byte digests of R51 and of the boot image; empty before the first commit (R52) -/
  runDigest : List Nat := []
  imageDigest : List Nat := []
  /-- SRAM banks of strings that were retired when the layout in force was made (R526) -/
  laidOut : List Nat := []
  deriving DecidableEq, Repr

/-! ### Partitions, interrupts and the tollgate (chapter 12) -/

/-- Partition states (R348), numbered as PART_STATUS.STATE. -/
inductive PartSt where
  | undef | inService | quiescing | quiesced | scrubbing
  deriving DecidableEq, Repr

/-- A partition. -/
structure Part where
  st : PartSt := .undef
  /-- last cause of a quiesce, numbered as PART_STATUS.CAUSE -/
  cause : Nat := 0
  scrubbed : Bool := false
  /-- a RETURN waits for a scrub or a load to end (R351) -/
  returnWaits : Bool := false
  /-- the quiesce came from a function-level reset, so a scrub follows (R348, R353) -/
  flr : Bool := false
  /-- milepost number of the next step (R162) -/
  milepost : Nat := 1
  /-- waymark of the last PART_VIOLATION record, for its rate (R360) -/
  violAt : Option Nat := none
  deriving DecidableEq, Repr

/-- What configuration requests set in a function, at the base specification's values after reset (R335; log 131): D3hot, ATS and MSI-X
enable, the function mask, max payload and max read request (128 bytes times 2 to the code), ACS control, AER status and mask by
severity. -/
structure FnCfg where
  d3 : Bool := false
  ats : Bool := false
  msix : Bool := false
  maskAll : Bool := false
  payload : Nat := 0
  readReq : Nat := 2
  acs : Nat := 0
  aer : Nat := 0
  aerMask : Nat := 0
  deriving DecidableEq, Repr

/-- What the PCI Express functions hold: VF Enable and NumVFs of the SR-IOV capability, the sizes of BAR4, translations, the tollgate (R335,
R337, R354 to R358). -/
structure Pci where
  fns : SMap FnCfg := []
  /-- translations cached (R358), oldest first: function, first address, bits of its size -/
  atc : List (Nat × Nat × Nat) := []
  /-- invalidations not yet completed: function, first address, bytes -/
  invals : List (Nat × Nat × Nat) := []
  vfEnable : Bool := false
  numVfs : Nat := 0
  /-- BAR4 of physical function 0 and of each virtual function, GiB (R337) -/
  bar4 : Nat := 64
  vfBar4 : Nat := 8
  /-- the link went down without Hot Reset and is not up again (R354) -/
  lost : Bool := false
  /-- what remains of the tollgate's period: own credits by resource * 256 + member, those of them that BULK used, and the spare
  of each resource in bytes (R355, R356) -/
  left : SMap Nat := []
  bulkUsed : SMap Nat := []
  spare : SMap Nat := []
  /-- the member that last drew on the spare of each resource -/
  spareTurn : SMap Nat := []
  /-- DATA and BULK lines that transfers moved in the period, by resource * 256 + member -/
  moved : SMap (Nat × Nat) := []
  /-- waymark of the last transfer over a resource, by resource -/
  movedAt : SMap Nat := []
  /-- DATA and BULK lines that own credits served in the period that ended, by resource * 256 + member (R356) -/
  served : SMap (Nat × Nat) := []
  deriving DecidableEq, Repr

/-- An MSI-X vector: table entry, pending state and the interval that runs (R346, R347). -/
structure Vector where
  addr : Nat := 0
  data : Nat := 0
  mask : Bool := true
  pending : Bool := false
  running : Bool := false
  deriving DecidableEq, Repr

/-! ### Slots and steps (chapter 09) -/

/-- Slot states (R233), numbered as the result header's STATE (R235). -/
inductive SlotSt where
  | free | armed | running | paused | done | cancelled | faulted
  deriving DecidableEq, Repr

/-- The working copy of a slot descriptor, as ARM or CONTINUE took it (R229). -/
structure Desc where
  model : Nat := 0
  irq : Bool := false
  pacer : Bool := false
  keep : Bool := false
  fork : Bool := false
  inputSrc : Nat := 0
  priority : Nat := 0
  inputCount : Nat := 0
  maxNew : Nat := 0
  yieldEvery : Nat := 0
  inputAddr : Nat := 0
  forkFrom : Nat := 0
  irqVec : Nat := 0
  forkLen : Nat := 0
  ttl : Nat := 0
  pageWait : Nat := 0
  topkS : Nat := 0
  temp : Nat := 0
  seed : Nat := 0
  stop0 : Nat := 0xFFFFFFFF
  stop1 : Nat := 0xFFFFFFFF
  tag : Nat := 0
  inline : List Nat := []
  /-- some reserved field was not zero -/
  badReserved : Bool := false
  deriving DecidableEq, Repr

/-- A slot of the starting gate: its state, working descriptor and result header (R233, R235). -/
structure Slot where
  st : SlotSt := .free
  code : Nat := 0
  work : Desc := {}
  gen : Nat := 0
  dones : Nat := 0
  outCount : Nat := 0
  /-- pacer: current L, consecutive full rejections, steps of suspension left (R249) -/
  pacerL : Nat := 0
  rejects : Nat := 0
  suspend : Nat := 0
  nextPos : Nat := 0
  produced : Nat := 0
  armedAt : Nat := 0
  firstAt : Nat := 0
  stateAt : Nat := 0
  earlyReads : Nat := 0
  reads : Nat := 0
  proposed : Nat := 0
  accepted : Nat := 0
  yielded : Bool := false
  cacheHeld : Bool := false
  cacheReleased : Bool := false
  reduced : Bool := false
  pageWait : Bool := false
  pacerSuspended : Bool := false
  degraded : Bool := false
  /-- input tokens of the run not yet committed -/
  inputLeft : Nat := 0
  /-- the pending token that a CONTINUE's input follows (R232): token 0 of the run's input -/
  lead : Option Nat := none
  /-- the last token selected and not yet fed back (R232) -/
  pendingTok : Option Nat := none
  /-- tokens of the current run (R246) -/
  run : List Nat := []
  /-- a PAUSE waits for the milepost of the slot's step (R233) -/
  pauseAsked : Bool := false
  /-- admitted to a step since ARM; fork done -/
  admitted : Bool := false
  forked : Bool := false
  /-- waymark of the last step that committed for the slot, if any since ARM (R455) -/
  lastCommit : Option Nat := none
  lastStep : Nat := 0
  /-- the step the slot takes part in -/
  inStep : Option Nat := none
  /-- when the TTL began to run (R255); when the slot was parked (R253); when it began to wait for pages (R222) -/
  ttlFrom : Option Nat := none
  parkedAt : Option Nat := none
  waitFrom : Option Nat := none
  /-- rows that the waiting reservation asked for -/
  waitRows : Nat := 0
  deriving DecidableEq, Repr

/-- A sequence's part in a step: its batch entry (R240). -/
structure StepSeq where
  slot : Nat
  gen : Nat
  rows : Nat
  firstRow : Nat
  propose : Nat
  /-- 0 decode, 1 prompt chunk, 2 last prompt chunk -/
  kind : Nat
  pos : Nat
  deriving DecidableEq, Repr

/-- A SCORE that has completed (R204, R206): descriptor address, key of the sequence's table, pages pinned, and the columns it
formed: page, index in it, position, whether committed. -/
structure ScoreRec where
  desc : Nat
  seq : Nat
  pages : List Nat
  cols : List (Nat × Nat × Nat × Bool)
  deriving DecidableEq, Repr

/-- A step in progress (R240 to R252). -/
structure Step where
  id : Nat
  part : Nat
  model : Nat
  seqs : List StepSeq
  /-- the step record's A0 to A3 -/
  a0 : Nat
  a1 : Nat
  a2 : Nat
  a3 : Nat
  /-- the step record was posted; strings that take part, and those still to report their MILEPOST -/
  posted : Bool
  /-- slots whose chunk's tokens are still to be pulled (R232) -/
  pulls : List Nat
  strings : List Nat
  waiting : List Nat
  startedAt : Nat
  /-- layers that asked for a replay (R95, R164); an arbitration's verdict asks for a whole replay -/
  asked : List Nat
  verdictAsked : Bool
  replaying : Bool
  replayed : Bool
  /-- the replay is that of a verdict, a groom finding or a failed collective, and runs the whole step again (R105, R279, R328); the layer from which it
  runs again (R165) -/
  whole : Bool
  replayAt : Option Nat
  /-- adjustments of the replay: layer, causes (bit 0 E, 1 X, 2 underflow, 3 overflow), clamped blocks -/
  adjust : List (Nat × Nat × List Nat)
  /-- roles the step has issued beats to, team * 64 + role, with the waymark of the last one + 1 (R104) -/
  beats : SMap Nat
  failed : Bool
  degraded : Bool
  reduced : Bool
  /-- a collective of the step has failed once (R328) -/
  collReplayed : Bool
  /-- a collective failed: the step is abandoned and waits for its replay (R328) -/
  collFailed : Bool
  /-- for a redundant model: the twin step's identifier, and whether the disagreement was replayed (R468, R469) -/
  twin : Option Nat
  redReplayed : Bool
  atMilepost : Bool
  milepost : Nat
  /-- SCOREs completed in the step whose pins are kept, oldest first (R206) -/
  scores : List ScoreRec
  deriving DecidableEq, Repr

/-! ### The key-value cache (chapter 08) -/

/-- Page record states (R200). -/
inductive PageSt where
  | free | live | moving | poisoned
  deriving DecidableEq, Repr

/-- A page record (R200). Tier 0 SRAM, 1 DRAM, 2 host. -/
structure Page where
  frame : Nat := 0
  tier : Nat := 0
  str : Nat := 0
  refs : Nat := 0
  pins : Nat := 0
  committed : Nat := 0
  tentative : Nat := 0
  log2 : Nat := 0
  st : PageSt := .free
  cache : Nat := 0
  commitWay : Nat := 0
  /-- the sequence whose entries TENTATIVE counts, its table's key + 1; 0 none (R214) -/
  owner : Nat := 0
  deriving DecidableEq, Repr

/-- A page-table entry (R199). -/
structure Entry where
  page : Nat
  log2 : Nat
  firstPos : Nat
  view : Nat
  deriving DecidableEq, Repr

/-- A sequence table (R198): entries in ascending FIRST_POS, and NEXT_POS. -/
structure SeqTab where
  entries : List Entry := []
  nextPos : Nat := 0
  deriving DecidableEq, Repr

/-- A sequence in PAGE_WAIT (R222): it waits for `need` frames of one pool; `got` frames are set aside for it. -/
structure Waiter where
  part : Nat
  slot : Nat
  tier : Nat
  str : Nat
  need : Nat
  got : List Nat
  since : Nat
  deriving DecidableEq, Repr

/-- What a page move is for (R210, R212, R219, R220). -/
inductive MoveKind where
  | fetch | spill | copy
  deriving DecidableEq, Repr

/-- A page move or copy in progress (R221): the page, the frame it goes to, and for a copy the new page's record, the
entry that will point at it and the entries copied. -/
structure Move where
  part : Nat
  page : Nat
  kind : MoveKind
  tier : Nat
  str : Nat
  frame : Nat
  newPage : Nat
  seq : Nat
  entry : Nat
  view : Nat
  /-- of a copy: its sequence has released its pages since (R213) -/
  orphan : Bool := false
  deriving DecidableEq, Repr

/-- The key-value engine. `noRoom`: pages (partition * 2^24 + id) whose last host move met a DMA error, which counts as no room
(R221). Keys: pages by partition * 2^24 + id; tables by (partition * 2^14 + slot) * 2^10 + cache. -/
structure Kv where
  pages : SMap Page := []
  seqs : SMap SeqTab := []
  waiters : List Waiter := []
  /-- importance words of the pages in the host pool, as they were moved there (R218) -/
  hostImportance : SMap (List Nat) := []
  moves : List Move := []
  noRoom : List Nat := []
  deriving DecidableEq, Repr

/-! ### Reset, start-up and trust (chapter 15) -/

/-- A spare column of a tile (FARR_MAP): state 0 FREE, 1 IN_USE, 2 DEAD, and the logical column it serves. -/
structure SpareCol where
  st : Nat := 0
  logical : Nat := 0
  deriving DecidableEq, Repr

/-- A team's part of the retirement record (R133): role map, retired tiles, bypass columns, column maps, and a pending
retirement (R132). -/
structure FarrRec where
  roles : SMap Nat := []
  retired : List Nat := []
  bypass : List (Nat × Nat) := []
  cols : SMap SpareCol := []
  pending : Option Nat := none
  deriving DecidableEq, Repr

/-- The non-volatile store (R436, R438): firmware and Volzal slots (`none` EMPTY), the user NV image in force, the slot
marks and the studbook. Reset does not change it (R425). The values stand as at manufacture with nothing written: log 4. -/
structure Nv where
  fwA : Option (List Nat) := none
  fwB : Option (List Nat) := none
  volzA : Option (List Nat) := none
  volzB : Option (List Nat) := none
  userNv : Option (List Nat) := none
  /-- marks: slot 0 A, 1 B -/
  fwActive : Nat := 0
  fwTrial : Option Nat := none
  volzActive : Nat := 0
  volzTrial : Option Nat := none
  startCount : Nat := 0
  failCount : Nat := 0
  /-- LAST_ATTEMPT while the attempt has neither reached READY nor been judged: Volzal slot (2 the host) and firmware
  slot, each with whether it was the trial slot (R430) -/
  attempt : Option (Nat × Bool × Nat × Bool) := none
  minFw : Nat := 0
  minNv : Nat := 0
  minVolz : Nat := 0
  /-- owner key, empty when none is enrolled (R446) -/
  ownerKey : List Nat := []
  /-- the device's own public key and the certificate chain of it (R444); revocation mask of the ROM key list (R441) -/
  deviceKey : List Nat := Config.deviceKey
  cert : List Nat := Config.certChain
  keyMask : Nat := 0
  /-- the firmware key list: image keys and debug keys (R35, R438, R488) -/
  imageKeys : List (List Nat) := Config.glazeowKeys
  debugKeys : List (List Nat) := Config.debugKeys
  /-- part data of manufacture (R438): power coefficients by term (R382) and r0 by monitor (R408), where none is listed the one of Config;
  ring counts at which a tile's delay unit and window are in trim (R114), which its measured trims presuppose -/
  coeffs : SMap Rat := []
  ageRatios : SMap Rat := []
  ringTargets : SMap (Nat × Nat) := []
  /-- the last 64 DF and FATAL records (R471) -/
  faults : List LogRec := []
  /-- per tile (key team * 64 + tile): TCO (R113), last daily trim records (R128) -/
  tco : SMap Int := []
  trims : SMap (Int × Int) := []
  /-- retirement record of the farrier, per team (R133) -/
  farrier : SMap FarrRec := []
  /-- retired DRAM units and SRAM banks (R285) -/
  units : List Nat := []
  banks : List Nat := []
  /-- ageing plan: plan value per monitor in 0.01 %, guard bands, eligibility, window targets, life, EOL (R410) -/
  plan : SMap Int := []
  life : Nat := 0
  eol : Bool := false
  /-- thermal trips counted (R404), and a trip not yet counted, which the power controller keeps -/
  trips : Nat := 0
  tripOwed : Bool := false
  deriving DecidableEq, Repr

/-- An NV command in progress (R440). -/
structure NvCmd where
  cmd : Nat
  target : Nat
  src : Nat
  len : Nat
  deriving DecidableEq, Repr

/-- A SEC command in progress (R446, R448). -/
structure SecCmd where
  cmd : Nat
  src : Nat
  deriving DecidableEq, Repr

/-- Start-up, trust and the power controller's part of it (R423 to R448). -/
structure Boot where
  /-- waymark of READY -/
  readyAt : Nat := 0
  /-- firmware slot running (0 A, 1 B), whether the other slot has been refused, running digest and SVN -/
  fwSlot : Option Nat := none
  fwRefused : List Nat := []
  fwDigest : List Nat := []
  fwSvn : Nat := 0
  /-- the ROM's own paddock service runs (R439) -/
  romPaddock : Bool := false
  /-- the running user NV image (empty: factory defaults), its digest and SVN -/
  user : List Nat := []
  nvDigest : List Nat := []
  nvSvn : Nat := 0
  /-- a studbook write that waits for the temperature window (R431): the FAIL_COUNT value to write -/
  failPending : Option Nat := none
  /-- the failed-start marker of this start has been written (R430) -/
  marked : Bool := false
  /-- the refused Volzal slots of this start (R39), and the slot loaded (0 A, 1 B, 2 host) -/
  imgRefused : List Nat := []
  imgSlot : Nat := 0
  deriving DecidableEq, Repr

/-- The SEC block's buffers. -/
structure Sec where
  challenge : List Nat := []
  report : List Nat := []
  cmd : Option SecCmd := none
  nvCmd : Option NvCmd := none
  deriving DecidableEq, Repr

/-- The pins (R426, R518, R519). -/
structure Pins where
  /-- pin configuration applied in this start -/
  configured : Bool := false
  thermtrip : Bool := false
  /-- STATUS1 and STATUS0 as driven (R426) -/
  status : Nat := 3
  /-- TRACE_TRIG_IN, GPIO configuration bytes and the other PINS fields in force (R518) -/
  gpioCfg : List Nat := []
  statusOd : Nat := 0
  drive : Nat := 0
  /-- TRACE_TRIG_OUT pulses since reset (R496) -/
  trigOut : Nat := 0
  deriving DecidableEq, Repr

/-! ### Power, thermal, ageing, ADC, clocks (chapters 13 and 14) -/

/-- A commanded rail (R394, R396, R398): commanded on, within 5 % of its setpoint, setpoint and target in microvolts. -/
structure Rail where
  on : Bool := false
  good : Bool := false
  setpoint : Nat := 0
  target : Nat := 0
  /-- setpoint from which the move in progress began, for the comparators' window (R397) -/
  old : Nat := 0
  deriving DecidableEq, Repr

/-- The power controller, the bridle and the rein (R381 to R399). -/
structure Power where
  rails : SMap Rail := []
  /-- rail whose turn-on is in progress, in the order of R396 -/
  turning : Option Nat := none
  /-- rails held off by a temperature at the end of PINS_SET (R406) -/
  heldOff : Bool := false
  /-- fit g and o (W), the last 64 pairs of mean P_raw and P_meas -/
  g : Rat := 1
  o : Rat := 0
  pairs : List (Rat × Rat) := []
  /-- how far the backstop of R388 holds the control cap below CAP, W; measured energy since reset, mJ -/
  drop : Rat := 0
  energy : Rat := 0
  /-- regions that a rail's monitor or fault stopped: only a reset restarts them (R397) -/
  monitored : List Nat := []
  /-- P_raw of the ticks of the interval, for its mean; P_est of the last tick -/
  ticks : List Rat := []
  pEst : Rat := 0
  /-- consecutive ticks at REIN_FLOOR with P_est above C, the hundreds beyond the first counted in BRDL_UNMET_MS; consecutive ticks for a boost grant, per region -/
  floorTicks : Nat := 0
  boostTicks : SMap Nat := []
  /-- regions whose boost change waits for the waymark microsecond boundary: key region, value 1 grant 2 withdraw -/
  boostNext : SMap Nat := []
  /-- VDD_C channels still to be read by urgent request, and those read, with their codes, for the next refit (R414) -/
  urgentCur : List Nat := []
  urgentLog : SMap Nat := []
  /-- beat count of R391 -/
  beat : Nat := 0
  /-- activity since the last tick (R382): tile-beats evaluated, active rows of them, outrider units served -/
  beats : Nat := 0
  rows : Nat := 0
  units : Nat := 0
  deriving DecidableEq, Repr

/-- A temperature sensor (R400, R401). Samples in 1/16 degree. -/
structure Sensor where
  temp : Int := 0
  good : Bool := false
  failed : Bool := false
  fast : Bool := false
  /-- the last sample lay at or above the trip point (R403) -/
  atTrip : Bool := false
  deriving DecidableEq, Repr

/-- Temperatures, throttling, trip and ageing (R400 to R410). -/
structure Thermal where
  sensors : SMap Sensor := []
  /-- thermal rein per string; an unlisted string has 64 -/
  rein : SMap Nat := []
  /-- strings out of service by sensor failure -/
  lostStrings : List Nat := []
  /-- waymark of the last THERMAL_THROTTLE record per group (0 string, 1 hub, 2 optical) -/
  lastThrottle : SMap Nat := []
  /-- steps of the trip sequence done: 0 none, 1 stopped, 2 rails off, 3 final -/
  trip : Nat := 0
  /-- waymark millisecond last counted in THRM_THROTTLE_MS, plus 1 (R402) -/
  msCounted : Nat := 0
  /-- temperatures of the last 10 ms, with their times, per string and of the hub (32); the waymark hour, plus 1, in which a monitor was
  measured last (R408) -/
  temps : SMap (List (Nat × Int)) := []
  measured : SMap Nat := []
  /-- hourly slowdowns of the day, and the plan value, per monitor in 0.01 % (R408, R409) -/
  hourly : SMap (List Int) := []
  plan : SMap Int := []
  deriving DecidableEq, Repr

/-- One ADC channel (R411 to R415). -/
structure Chan where
  /-- configuration that the next visit takes: ENABLE, OPEN_TEST, SHIFT, AVG_LOG2; sum and conversions of the visit -/
  sum : Nat := 0
  count : Nat := 0
  curAvg : Nat := 0
  curShift : Nat := 0
  /-- the last average in 14-bit codes; it completed within the measurement interval -/
  mean : Rat := 0
  fresh : Bool := false
  deriving DecidableEq, Repr

/-- The converter. -/
structure Adc where
  chans : SMap Chan := []
  /-- urgent requests held, in the order they are served (R414): channel, and whether CC2/CC3 asked; the conversion running is the
  first one's -/
  urgent : List (Nat × Bool) := []
  urgentRuns : Bool := false
  /-- conversions since the sweep began; the channel visited last, or being visited (none before the first) -/
  sweep : Nat := 0
  at_ : Option Nat := none
  /-- the last visit of channel 51 read the reference outside its tolerance (R411) -/
  refBad : Bool := false
  deriving DecidableEq, Repr

/-- A clock region (R365, R367 to R370). -/
structure Region where
  stopped : Bool := false
  /-- stopped through DBG_CTRL (R492) -/
  dbg : Bool := false
  stopWay : Nat := 0
  stretched : Bool := false
  boost : Bool := false
  /-- core cycles since reset, in fifths -/
  fifths : Nat := 0
  deriving DecidableEq, Repr

/-- An exchange with the PTP master (R374), times in 1/8 tick: a two-step Sync that awaits its Follow_Up (sequence, time of arrival), a
Delay_Req that awaits its answer (sequence, t2 − t1 of the Sync, time of departure), and the next sequence number. -/
structure Ptp where
  sync : Option (Nat × Int) := none
  asked : Option (Nat × Int × Int) := none
  next : Nat := 0
  deriving DecidableEq, Repr

/-- Waymark discipline (R371 to R377). -/
structure Way where
  /-- 32-bit fraction of the counter -/
  frac : Nat := 0
  /-- the one set of an acquisition has been made (R372) -/
  setUsed : Bool := false
  /-- consecutive updates under 50 ns -/
  good : Nat := 0
  /-- validity of PPS, PTP and TORUS -/
  ppsEdges : Nat := 0
  ppsValid : Bool := false
  ptpValid : Bool := false
  /-- waymark of the last PPS edge, moved with the counter where that is set -/
  ppsAt : Int := 0
  /-- signed offsets last given, in 1/8 tick, beside what had been added to the counter by then -/
  ppsOffset : Int := 0
  ptpOffset : Int := 0
  /-- what sets and rate have added to the counter, in 2^-32 tick -/
  adj : Int := 0
  /-- the exchange with the PTP master (R374) -/
  ptp : Ptp := {}
  /-- offsets of the source in use, filtered over the last 64 (R375) -/
  offsets : List Int := []
  /-- waymark of the last WAY_FAR record (R380) -/
  farAt : Option Nat := none
  deriving DecidableEq, Repr

/-- Clocks and time. -/
structure Clocks where
  regions : SMap Region := []
  way : Way := {}
  /-- CALREF is qualified (R114) -/
  calref : Bool := false
  /-- a root monitor failed (R366) -/
  monFault : Bool := false
  /-- which: the PLL lock's (true), the SYSCLK's (false) -/
  monSeen : List Bool := []
  deriving DecidableEq, Repr

/-! ### Tiles and teams (chapter 03) -/

/-- One phase (or one pass of it, R70) of an input segment as the input buffer holds it: the rows that drive, with
their sign (true for negative) and magnitude, and the settings that the sequencer attaches (R58, R79). -/
structure Pulse where
  role : Nat
  rows : List (Nat × Bool × Nat)
  /-- 0 A5, 1 A8 -/
  fmt : Nat
  /-- 1 for the high phase of A8 -/
  phase : Nat
  pair : Bool
  segScale : Bool
  seg : Nat
  floor : Nat
  layer : Nat
  /-- group, vector of the group, and column block: where the result goes -/
  group : Nat
  vec : Nat
  colBlock : Nat
  /-- edge scale exponent of the input segment, and its segment number (chapter 06) -/
  scale : Int
  inSeg : Nat
  /-- the step, the team-local layer, the placement's rows under ZERO_CHAINS left out; issued after its group's close -/
  step : Nat
  loc : Nat
  stray : Bool
  deriving DecidableEq, Repr

/-- A tile record on its way to the phase combiner (R63): X and code per logical column, saturation flags, phase,
scale segment, live plane, ZERO, and what it belongs to. -/
structure TileRec where
  tile : Nat
  plane : Nat
  x : Nat
  codes : List Int
  sat : List Bool
  zero : Bool
  /-- per logical column C × 2^X in product units, or the exact sum that the outrider put in its place (R96) -/
  val : List Int
  pulse : Pulse
  deriving DecidableEq, Repr

/-- A write that a plane holds (R75): plane, byte offset within the 133,632-byte record of R260 (the plane image, then
the scale store), and the bytes. -/
structure PlaneWrite where
  plane : Nat
  off : Nat
  bytes : List Nat
  /-- the writer, as the reader context of R521 -/
  writer : Nat := 0
  deriving DecidableEq, Repr

/-- A set of calibration coefficients of a tile (R110): GAIN and OFFSET by physical column * 2 + chain, and the two
trims. -/
structure CoefSet where
  gain : SMap Int := []
  offset : SMap Int := []
  delay : Int := 0
  win : Int := 0
  /-- TCO, the studbook's until a calibration moves it (R113), and T_CAL -/
  tco : Option Int := none
  tCal : Int := 0
  deriving DecidableEq, Repr

/-- What the calibration engine keeps of a tile (R110 to R128). -/
structure TileCal where
  active : CoefSet := {}
  target : CoefSet := {}
  previous : CoefSet := {}
  delayEff : Int := 0
  winEff : Int := 0
  /-- trims that the next beat boundary puts in force, delay and window (R112) -/
  nextEff : Option (Int × Int) := none
  /-- slew step reached, of 16; none when no slew runs (R123) -/
  slew : Option Nat := none
  valid : Bool := false
  lastMode : Nat := 0
  resid : Nat := 0
  count : Nat := 0
  way : Nat := 0
  /-- columns whose last calibration result was abrupt (R129) -/
  abrupt : List Nat := []
  /-- waymarks at which WIN_LIMIT or EDGE_MISSING was set (R129) -/
  windowFaults : List Nat := []
  deriving DecidableEq, Repr

/-- One physical tile (R55 to R82). Weights by row * 264 + physical column; scale store by byte. -/
structure Tile where
  live : Nat := 0
  /-- writes queued through the write port, or held during the drain (R75) -/
  queue : List PlaneWrite := []
  drain : Bool := false
  outOfService : Bool := false
  driving : Option Pulse := none
  loading : List Pulse := []
  planeA : SMap Nat := []
  planeB : SMap Nat := []
  scaleA : SMap Nat := []
  scaleB : SMap Nat := []
  cal : TileCal := {}
  /-- planes that hold writes since their last swap (R117): 0 A, 1 B -/
  written : List Nat := []
  /-- blocks with a wrong check word, plane * 2^13 + block, to the syndrome that a read finds (R271, R272): blocks 0 to
  4,095 the plane image, 4,096 to 4,223 the spare-column store, 4,224 to 4,303 the scale store -/
  bad : SMap Nat := []
  /-- blocks whose syndrome returns after a write-back (R273) -/
  hard : List Nat := []
  /-- the plane of a hold (R279, R280), planes marked for reload (R279), and the blocks written since, as in `bad` -/
  held : Option Nat := none
  marked : List Nat := []
  reloaded : List Nat := []
  /-- blocks the groom has read in this lap (R276), plane A's first -/
  groomed : Nat := 0
  /-- the vector whose phases the tile is driving: step, layer, group, vector, input segment -/
  vector : Option (List Nat) := none
  deriving DecidableEq, Repr
/-! ### Loads and relay (chapter 10) -/

/-- A relayed descriptor that a context receives (R268, R269): the origin's number and position, what RELAY_START said
of it (`hops` those that still follow), its session, chunks written here, chunks announced by RELAY_END, and whether a chunk
was dropped. -/
structure RelayRx where
  seq : Nat
  origin : Nat
  session : Nat
  hops : Nat
  kind : Nat
  dst : Nat
  len : Nat
  written : Nat
  total : Option Nat
  dropped : Bool
  /-- the ring on which it came and goes on -/
  ring : Option Nat
  deriving DecidableEq, Repr

/-- A load context: host address of the descriptor in progress, its 64 bytes once read, the plane it writes (team, role,
plane) while data move, whether its first write has been queued and found the plane open (R264), the positions that acknowledged its relay, number and session of the last relayed descriptor, bytes moved short of a
KiB, and the relayed descriptors that it receives, newest last. -/
structure LoadCtx where
  cur : Nat := 0
  desc : List Nat := []
  plane : Option (Nat × Nat × Nat) := none
  first : Option Bool := none
  acks : List Nat := []
  relaySeq : Nat := 0
  session : Nat := 0
  /-- waymark at which the relay's session was opened (R322) -/
  opened : Nat := 0
  rest : Nat := 0
  rx : List RelayRx := []
  /-- RELAY_ENDs that came before the RELAY_START they follow (R312): origin, LOAD_SEQ, chunks -/
  ends : List (Nat × Nat × Nat) := []
  /-- waymark at which its STATE was entered -/
  since : Nat := 0
  deriving DecidableEq, Repr

/-- A sweep in progress (R281): mode, first address, bytes, where its summary goes, when it began. -/
structure Sweep where
  mode : Nat
  start : Nat
  len : Nat
  sum : Nat
  began : Nat
  deriving DecidableEq, Repr


/-! ### Trace (chapter 17) -/

/-- A trace entry (R494). -/
structure TraceEntry where
  way : Nat := 0
  source : Nat := 0
  kind : Nat := 0
  flags : Nat := 0
  region : Nat := 0
  cycle : Nat := 0
  data : List Nat := []
  /-- byte 15, and the syndrome that its block of the buffer has (R493) -/
  pad : Nat := 0
  syn : Nat := 0
  deriving DecidableEq, Repr

/-- The trace unit (R493 to R496). -/
structure Trace where
  /-- the 524,288 entries of the buffer -/
  buf : SMap TraceEntry := []
  /-- entries written since ARM, to know the oldest -/
  written : Nat := 0
  /-- entries still to be written after the trigger -/
  postLeft : Nat := 0
  /-- per string and hub unit: entries queued (at most 64), oldest first; entries dropped and owed an OVERFLOW entry -/
  queues : SMap (List TraceEntry) := []
  owed : SMap Nat := []
  /-- TRC_SRC, TRC_TRIG and TRC_POST as the last ARM took them -/
  src : Nat := 1
  trig : Nat := 1
  post : Nat := 262144
  deriving DecidableEq, Repr

/-! ### Teams: work, accumulation, the outrider, calibration and repair (chapters 03 to 07) -/

/-- One input segment of one vector that the edge converter of a team has still to convert (R142): issued by VEC or
GATE, `addr` the start of the vector's MX tensor. -/
structure Job where
  step : Nat
  layer : Nat
  group : Nat
  vec : Nat
  seg : Nat
  addr : Nat
  /-- the vector's MX tensor, as VEC read it into the retention area (R187) -/
  bytes : List Nat
  stray : Bool
  /-- the vector's first segment on the team -/
  head : Bool := false
  /-- which VEC of the layer in its step it belongs to, and the first vector of it on the team (R167) -/
  occ : Nat := 0
  lead : Bool := false
  deriving DecidableEq, Repr

/-- An open run of the narrow adder (R147). -/
structure Run where
  /-- accumulator tile * 256 + accumulator -/
  acc : Nat
  count : Nat
  a : Int
  xr : Nat
  e : Int
  scol : Nat
  sseg : Option Nat
  sat : Bool
  group : Nat
  vec : Nat
  step : Nat
  layer : Nat
  /-- a contribution came since the last beat boundary (R149) -/
  fresh : Bool
  deriving DecidableEq, Repr

/-- Outlier rows of one vector on one placement, still to be delivered (R89, R91): row and signed element value. -/
structure Delivery where
  step : Nat
  layer : Nat
  loc : Nat
  group : Nat
  vec : Nat
  colBlock : Nat
  inSeg : Nat
  tile : Nat
  plane : Nat
  e : Int
  rows : List (Nat × Rat)
  pair : Bool
  segScale : Bool
  stray : Bool
  /-- the vector's beats have begun, so that the tile and the plane are fixed -/
  begun : Bool := false
  deriving DecidableEq, Repr

/-- The fields of R155 as the descriptor carries them. -/
structure GroupDesc where
  topkK : Nat := 0
  topkAsc : Bool := false
  outMx : Nat := 0
  biasFmt : Nat := 0
  init : Nat := 0
  mode : Nat := 0
  layer : Nat := 0
  group : Nat := 0
  fix : Nat := 0
  vectors : Nat := 1
  width : Nat := 1
  first : Nat := 0
  topkLen : Nat := 1
  biasAddr : Nat := 0
  outAddr : Nat := 0
  topkAddr : Nat := 0
  deriving DecidableEq, Repr

/-- An accumulation group (R155 to R158): state 0 FREE, 1 OPEN, 2 CLOSING, its descriptor, SAT flag, step, and which open of its
number for its layer in the step it is (R165). -/
structure Group where
  st : Nat := 0
  desc : GroupDesc := {}
  sat : Bool := false
  step : Nat := 0
  occ : Nat := 0
  deriving DecidableEq, Repr

/-- Counts of one layer in one step (R95, R164), with the causes that a replay adjusts for: saturations by columns or
wide clamps, output blocks that clamped (`outBlockKey`), overflowing vectors. -/
structure LayerStat where
  sat : Nat := 0
  ufl : Nat := 0
  colOrWide : Bool := false
  blocks : List Nat := []
  ovf : Nat := 0
  deriving DecidableEq, Repr

/-- A sampled check (R97, R98): what the sampled vector drove and the records it gave. -/
structure Sample where
  role : Nat
  tile : Nat
  plane : Nat
  layer : Nat
  step : Nat
  way : Nat
  recs : List TileRec
  /-- the first pulse of the sampled vector -/
  pulse : Pulse
  /-- every record of the sampled vector is in -/
  whole : Bool
  /-- the outrider's first exact sums of each record, per column (R98) -/
  sums : List (List Int)
  deriving DecidableEq, Repr

/-- An arbitration in progress (R104, R105). `st` numbered as OUTR_ARB.STATE. -/
structure Arb where
  sample : Sample
  st : Nat
  column : Nat
  phase : Nat
  spare : Option Nat
  /-- start of the interval of suspect steps -/
  since : Nat
  /-- outcome waiting for the self-test: 4 OUTRIDER_SUSPECT, 7 NO_SPARE -/
  next : Nat
  deriving DecidableEq, Repr

/-- A reference run in progress (R103): OUTR_REF_CTRL as written, and the input and output addresses. -/
structure RefRun where
  ctrl : Nat
  input : Nat
  output : Nat
  deriving DecidableEq, Repr

/-- A take-over in progress (R117, R118). -/
structure Takeover where
  role : Nat
  src : Nat
  dst : Nat
  /-- planes copied -/
  planes : List Nat
  done : Bool
  /-- 0 calibration, 1 in-field test, 2 farrier retirement, 3 return to the original tile, 4 arbitration verdict; for 2 the
  farrier's reason and column -/
  why : Nat
  reason : Nat
  column : Nat
  deriving DecidableEq, Repr

/-- The calibration in progress (R121); `step` numbered as CAL_STATUS.STEP. -/
structure Cal where
  step : Nat := 0
  tile : Nat := 63
  role : Option Nat := none
  spare : Option Nat := none
  mode : Nat := 0
  /-- ROM patterns stand in the tile's planes -/
  overwritten : Bool := false
  /-- phases shadowed, and whether the shadowing has ended -/
  shadowed : Nat := 0
  ended : Bool := false
  /-- the calibration serves a READMIT command (R134) -/
  readmit : Bool := false
  /-- new trims of the rings (R115) or of the fit; the fitted set, and whether it is abrupt (R124); abandoned (R120) -/
  trims : Option (Int × Int) := none
  /-- the calibration temperature at which those trims were set -/
  tCal : Int := 0
  result : Option CoefSet := none
  abrupt : Bool := false
  abandoned : Bool := false
  deriving DecidableEq, Repr

/-- A swap command that waits for its boundary (R74, R188): issued by a sequencer or through TEAM_SWAP, when it came, for
SWAPAT the waymark before which it does not take effect, and the target plane of each role. -/
structure SwapCmd where
  seq : Bool
  came : Nat
  notBefore : Nat
  items : List (Nat × Nat)
  deriving DecidableEq, Repr

/-- A sampled check as tracking keeps it (R127): role, physical tile, waymark, and of each record X, the codes, their flags and the
exact sums. -/
structure Check where
  role : Nat
  tile : Nat
  way : Nat
  obs : List (Nat × List Int × List Bool × List Int)
  deriving DecidableEq, Repr

/-- A team. -/
structure Team where
  /-- physical tile of each role, listed where it is not the tile of the role's own number -/
  roles : SMap Nat := []
  retired : List Nat := []
  /-- bypass columns: physical tile and logical column (R131) -/
  bypass : List (Nat × Nat) := []
  /-- spare columns by tile * 8 + index (R130) -/
  cols : SMap SpareCol := []
  /-- OUTRIDER_SUSPECT: sampling interval halved until reset (OUTR_STATUS.DEGRADED) -/
  degraded : Bool := false
  /-- out of service by OUTRIDER_FAULT, a second UNRESOLVED, a failed team test or a lost tile -/
  outOfService : Bool := false
  /-- stopped at a vector boundary by TEAM_CTRL.STOP; quiesced with the partition (TEAM_STATUS) -/
  stopped : Bool := false
  quiesced : Bool := true
  /-- conversions that wait, and tile records on their way to the phase combiner, oldest first (R63, R64, R142) -/
  jobs : List Job := []
  records : List TileRec := []
  /-- half-combined A8 phases: the high phase's record waits for the low one (R66) -/
  combining : List TileRec := []
  deliveries : List Delivery := []
  runs : List Run := []
  groups : SMap Group := []
  lfsr : Nat := 1
  /-- counts by step * 64 + team-local layer -/
  stats : SMap LayerStat := []
  /-- running mean squares by layer * 256 + segment, as FP32 bits + 1; 0 not yet set (R87), and the values recorded at
  a step's start, by step (R167) -/
  means : SMap Nat := []
  meansAtStart : SMap (SMap Nat) := []
  /-- of these, the value before the first vector of each VEC, + 1, by ((step * 64 + layer) * 2^16 + occurrence) * 256 + segment -/
  meanMarks : SMap Nat := []
  /-- outrider: units of each outlier row that waits, in order of service; units drawn in this vector period; SPLIT stall periods
  left; roles whose sample takes a forced check (R92, R94, R100) -/
  backlog : List Nat := []
  /-- units of earlier beats' work that stretched clocks have not finished (R86, R369) -/
  late : Nat := 0
  drawn : Nat := 0
  stall : Nat := 0
  forced : List Nat := []
  /-- sampled checks: roles due (1 scheduled, 2 asked for by OUTR_CTRL.SAMPLE, 3 forced), samples being taken by role,
  waymark of the last passing sample and of the moment the tile began, by role; near columns of the last sample by tile -/
  due : SMap Nat := []
  samples : SMap Sample := []
  lastPass : SMap Nat := []
  began : SMap Nat := []
  nearBefore : SMap (List Nat) := []
  /-- sampled checks of the last ROT_PERIOD, oldest first (R127) -/
  checks : List Check := []
  arb : Option Arb := none
  arbQueue : List Arb := []
  unresolved : Bool := false
  selftest : Bool := false
  ref : Option RefRun := none
  takeover : Option Takeover := none
  /-- take-overs that wait for the one in progress (R120), oldest first -/
  waitMoves : List Takeover := []
  cal : Cal := {}
  /-- tiles asked for by CAL_CTRL.REQUEST or sent by arbitration (R126) -/
  calQueue : List Nat := []
  /-- of these, the retired tiles that READMIT named (R134) -/
  readmits : List Nat := []
  /-- tiles sent to calibration by a verdict, with the first failing column (R129 ARBITRATION) -/
  suspects : List (Nat × Nat) := []
  /-- remaps that FARR_CTRL asked of tiles in service (tile, column); tiles of a NO_SPARE verdict, repaired in place (R130) -/
  asked : List (Nat × Nat) := []
  inPlace : List Nat := []
  /-- farrier: retirements that wait for the take-over in progress (tile, reason, column); a pending whole-tile retirement, and studbook writes that wait (R132, R133) -/
  toRetire : List (Nat × Nat × Nat) := []
  pendingRetire : Option Nat := none
  nvWaits : Bool := false
  /-- hard faults at weight cells: tile * 2^19 + row * 2^9 + column, counted (R129 CELL) -/
  cells : SMap Nat := []
  /-- claims of staged experts on roles (R180): role to expert index + 1 of the one whose planes it holds -/
  claims : SMap Nat := []
  /-- swap commands that wait -/
  swaps : List SwapCmd := []
  /-- excess units so far of the vector in conversion (R93, R94) -/
  ovfExcess : Nat := 0
  /-- groom: waymarks at which the lap began and the previous lap began; none where they began at READY (R276, R279) -/
  lapStart : Option Nat := none
  prevLapStart : Option Nat := none
  deriving DecidableEq, Repr

/-! ### String sequencers (R183 to R189) -/

/-- A LOOP in force: first and end code offsets of its body, repetitions still to come. -/
structure LoopFrame where
  first : Nat
  stop : Nat
  left : Nat
  deriving DecidableEq, Repr

/-- What a VEC records for a restart (R186). -/
structure Restart where
  step : Nat
  layer : Nat
  pos : Nat
  loops : List LoopFrame
  regs : List Nat
  flags : SMap Nat
  vecs : SMap Nat
  opens : SMap Nat
  deriving DecidableEq, Repr

/-- A retained input (R187): layer, place in the order of the step's VECs of that layer, and the pieces of the string's retention
area (offset, length) that hold its bytes. -/
structure Retained where
  step : Nat
  layer : Nat
  occ : Nat
  pieces : List (Nat × Nat)
  deriving DecidableEq, Repr

/-- The listed vectors of one layer of an expert on one team: group they go to, whether that group was not open, and the
vectors as index, address, bytes. -/
structure ExpertWork where
  layer : Nat
  team : Nat
  group : Nat
  stray : Bool
  vecs : List (Nat × Nat × List Nat)
  occ : Nat := 0
  deriving DecidableEq, Repr

/-- A staged expert that GATE fired, or an expert that a call evaluates (R329), and that has not finished (R180): expert record, step
or the call's number, stage (0 waits for its roles, 1 swapping, 2 running, 3 swapping back, 4 waits for the link to the neighbour
that holds its copy), and its work. -/
structure ExpertRun where
  expert : Nat
  step : Nat
  st : Nat
  work : List ExpertWork
  deriving DecidableEq, Repr

/-- A string sequencer. -/
structure Seq where
  /-- the step it runs, none when idle; step records that wait, each with whether it is a replay -/
  step : Option Nat := none
  queue : List (Nat × Bool) := []
  regs : List Nat := []
  flags : SMap Nat := []
  pos : Nat := 0
  loops : List LoopFrame := []
  restarts : List Restart := []
  retained : List Retained := []
  /-- VECs executed in the run of a step, or in its replay, by step * 4096 + layer -/
  vecs : SMap Nat := []
  /-- GOPENs executed, by ((step * 24 + team in string) * 64 + team-local layer) * 16 + group -/
  opens : SMap Nat := []
  /-- the last completion it reported: TAG (R186) and SWAP_LATE (R189) -/
  tag : Nat := 0
  lateTag : Bool := false
  /-- a SWAPAT of the step was late -/
  swapLate : Bool := false
  /-- models whose LOADM is not complete, each with its step (R189, R261) -/
  loading : List (Nat × Nat) := []
  /-- wait of R499: reason, detail, unit waited on, waymark; none when it does not wait -/
  wait : Option (Nat × Nat × Nat × Nat) := none
  halted : Bool := false
  /-- a halted sequencer executes one instruction, then halts again (RUNCTL.STEP) -/
  stepping : Bool := false
  /-- the instruction that a breakpoint stopped at runs without hitting it again -/
  skipBp : Bool := false
  /-- the last string to signal each flag, + 1 (R499) -/
  signallers : SMap Nat := []
  /-- the string's part of its step has ended: idle until the next step record (R184, R186) -/
  ended : Bool := true
  /-- the completion has been reported, and when -/
  reported : Bool := false
  reportedAt : Nat := 0
  /-- staged experts in progress -/
  experts : List ExpertRun := []
  deriving DecidableEq, Repr
/-! ### Debug, counters and dumps (chapter 17) -/

/-- An armed dump request: its 64-byte line as read at arming, and the occurrences dumped (R497, R498). -/
structure Dump where
  line : List Nat
  done : Nat
  deriving DecidableEq, Repr

/-- A wait as the wait-for graph snapshots it (R500): unit, unit waited on, reason, detail, since. -/
structure Wait where
  unit : Nat
  on : Nat
  reason : Nat
  detail : Nat
  since : Nat
  deriving DecidableEq, Repr

/-- The debug block's own state. -/
structure Debug where
  dumps : SMap (Option Dump) := []
  /-- counters of R501 by string * 32 + index, and their latched snapshot; SNAP and CLEAR asked for -/
  counts : SMap Nat := []
  snap : SMap Nat := []
  snapAsked : Bool := false
  clearAsked : Bool := false
  /-- first snapshot of the graph being built (R500), and steps already reported as hanging -/
  graph : Option (List Wait) := none
  hung : List Nat := []
  /-- DBG_CHALLENGE (R486) -/
  challenge : List Nat := []
  /-- waymark at which the unlock ends; none where no DURATION runs (R487) -/
  unlockEnd : Option Nat := none
  /-- an unlock was accepted since the reset, which every later report and heartbeat says (R488) -/
  everUnlocked : Bool := false
  /-- waymark of the last DEBUG_REFUSED record (R503) -/
  refusedAt : Option Nat := none
  /-- test access port: instruction, boundary cells preloaded, whether they drive the pins, what the next Capture-DR of
  ACCESS returns (R485, R489) -/
  ir : Nat := 1
  boundary : Nat := 0
  driving : Bool := false
  access : Nat := 0
  /-- words written to local memory and CSRs of a core (R489): core * 2^64 + address to 2 * word + 1, one more once its firmware
  has run since -/
  coreMem : SMap Nat := []
  deriving DecidableEq, Repr

/-! ### The torus (chapter 11) -/

/-- A lane of a port (R293, R294): 0 OFF, 1 ACTIVE, 2 SPARE, 3 FAILED; logical position, 0x3F none. -/
structure Lane where
  st : Nat := 0
  logical : Nat := 0x3F
  /-- corrected symbols of the last millisecond: waymark and how many (R333) -/
  recent : List (Nat × Nat) := []
  deriving DecidableEq, Repr

/-- A port beside its registers (R289 to R308, R322). -/
structure TorPort where
  lanes : SMap Lane := []
  /-- lanes substituted since the last training (R293, R473) -/
  subs : Nat := 0
  /-- the peer of the last training: IDENTITY and PKG_INC, once met -/
  met : Bool := false
  peerId : List Nat := []
  peerInc : Nat := 0
  /-- the training is an initial one (R295); failed attempts of the sequence, waymark of the first -/
  initial : Bool := false
  attempts : Nat := 0
  firstFail : Option Nat := none
  /-- the port left DOWN and is not yet re-admitted: waymark since when it is UP or DEGRADED (R322) -/
  upSince : Option Nat := none
  /-- waymark of its last re-admission (R322) -/
  readmitted : Nat := 0
  /-- a new peer has not been sent the revocations, as the port was revoked (R319) -/
  owes : Bool := false
  /-- discipline state in the peer's last WAY_REPLY, 0 before one (R373) -/
  waySt : Nat := 0
  /-- the peer reports this package revoked (R306) -/
  reported : Bool := false
  /-- a REQUIRED port that was MISSING, UNEXPECTED or REVOKED and has not come back (R308) -/
  lacked : Bool := false
  /-- held dark by discovery (R306), and by a digest difference under HOLD_DARK (R307) -/
  discDark : Bool := false
  skewDark : Bool := false
  /-- held dark by its engine's failed sensor (R405) -/
  sensorDark : Bool := false
  /-- the peer's digests last compared, empty before a HELLO (R307) -/
  peerRun : List Nat := []
  peerFw : List Nat := []
  /-- this package's own digests at that comparison -/
  ownRun : List Nat := []
  ownFw : List Nat := []
  /-- packets that the router has queued for the port, oldest first, and what its arbiter remembers (R15, R296, R311) -/
  waiting : List Packet := []
  /-- waymark from which packets have waited for credits (R499) -/
  waitSince : Nat := 0
  arb : OutArb := {}
  /-- bytes of transit packets since the tollgate's refill (R357) -/
  transit : Nat := 0
  /-- replay (R292): next SEQ sent, flits kept until they are acknowledged, oldest first; next SEQ expected, a NAK
  outstanding; last good SEQ of the last NAK received and how many times in a row it came -/
  txSeq : Nat := 0
  replay : List Flit := []
  rxSeq : Nat := 0
  naking : Bool := false
  lastNak : Option Nat := none
  naks : Nat := 0
  deriving DecidableEq, Repr

/-- What a control message that awaits its ACK serves (R316): 0 none in particular, 1 a collective's step, 2 an expert
call or its end, 3 a relay message. -/
structure Unacked where
  unit : Nat
  seq : Nat
  /-- the port, for a message to the peer on a link; the destination otherwise is `dst` -/
  port : Option Nat
  dst : Nat
  part : Nat
  type : Nat
  body : List Nat
  sends : Nat
  purpose : Nat
  deriving DecidableEq, Repr

/-- A DATA session that a sender opened here (R317): source position, number, what it serves (0 a collective's step,
1 relay, 2 an expert call's vectors, 3 an expert call's results), the opener's unit and incarnation, the pieces held by
offset, and the waymark of its opening. -/
structure Session where
  src : Nat
  unit : Nat
  inc : Nat
  num : Nat
  kind : Nat
  pieces : List (Nat × List Nat)
  opened : Nat := 0
  deriving DecidableEq, Repr

/-- A phase of a collective (R324): 0 reduce-scatter, 1 all-gather, 2 broadcast; the ring's members in DIR order, this
package's place among them, whether the ring is closed, and the region of the working tensor in elements. -/
structure CollPhase where
  kind : Nat
  members : List Nat
  self : Nat
  closed : Bool
  off : Nat
  len : Nat
  root : Nat
  /-- the member takes no part in the phase's steps: a BROADCAST before its line is reached (R324) -/
  idle : Bool := false
  deriving DecidableEq, Repr

/-- A step's bytes sent and not yet acknowledged: DIR (0 the ring's, 1 opposite), STEP, session, destination, port it
went by, whether it was resent the other way. -/
structure CollSend where
  dir : Nat
  step : Nat
  session : Nat
  dst : Nat
  port : Nat
  other : Bool
  bytes : List Nat
  deriving DecidableEq, Repr

/-- A COLL_STEP received: source, partition, COLL_ID, STEP, DIR, session, BYTES, DESC_CHECK, whether it has been
acknowledged, and whether the collective has ended here. -/
structure CollIn where
  src : Nat
  part : Nat
  id : Nat
  step : Nat
  dir : Nat
  session : Nat
  bytes : Nat
  check : Nat
  acked : Bool
  past : Bool
  deriving DecidableEq, Repr

/-- A collective in progress on this package (R323 to R328). `buf` holds the working tensor, one word per element. -/
structure Coll where
  id : Nat
  part : Nat
  str : Nat
  step : Nat
  desc : List Nat
  phases : List CollPhase
  phase : Nat
  k : Nat
  /-- the current step's transfers have been sent -/
  sent : Bool
  done : Nat
  buf : List Nat
  sends : List CollSend
  degraded : Bool
  issued : Nat
  deriving DecidableEq, Repr

/-- An expert call that this package made (R329): CALL_ID, the step and the string that called, the expert record, vector
count, input bytes and where its results go. -/
structure ExpCall where
  id : Nat
  step : Nat
  str : Nat
  expert : Nat
  dst : Nat
  vectors : Nat
  bytes : List Nat
  outAddr : Nat
  outBytes : Nat
  again : Bool
  /-- results session once EXPERT_DONE named it -/
  sessionOut : Option Nat
  /-- waymark of the call -/
  since : Nat := 0
  deriving DecidableEq, Repr

/-- An expert call that this package serves: caller's position, partition, CALL_ID, expert record, vectors, session and sizes, the
SEQ of its message and when it came; once it runs, the number that stands for a step in its work. -/
structure Served where
  src : Nat
  part : Nat
  id : Nat
  expert : Nat
  vectors : Nat
  sessionIn : Nat
  inBytes : Nat
  outBytes : Nat
  seq : Nat
  since : Nat
  run : Option Nat := none
  deriving DecidableEq, Repr

/-- A revocation (R319): position, unit, incarnation. -/
structure Rev where
  pos : Nat
  unit : Nat
  inc : Nat
  deriving DecidableEq, Repr

/-- The torus beside its registers. -/
structure Torus where
  ports : SMap TorPort := []
  /-- next SEQ by sending unit; control messages acted on: position, unit, incarnation, SEQ (R316) -/
  seqs : SMap Nat := []
  seen : List (Nat × Nat × Nat × Nat) := []
  unacked : List Unacked := []
  /-- the SEQ of the newest message of a sender on a subject (R312): source position, unit, incarnation and the subject -/
  latest : List (List Nat × Nat) := []
  /-- the 256 revocation entries, and when an offender was last answered: position, unit, waymark (R319, R321) -/
  revs : SMap (Option Rev) := []
  answered : List (Nat × Nat × Nat) := []
  /-- CC4's map of links: position * 8 + port to LINK_STATUS.STATE + 1; detours: destination to port + 1; a change of the
  map is not yet planned for (R328) -/
  links : SMap Nat := []
  detours : SMap Nat := []
  replan : Bool := false
  sessions : List Session := []
  nextSession : Nat := 1
  colls : List Coll := []
  collIn : List CollIn := []
  calls : List ExpCall := []
  served : List Served := []
  nextCall : Nat := 1
  deriving DecidableEq, Repr


/-! ### The whole -/

/-- A line of the tensor space that a host write met while steps ran: what it held before, and those steps (R18). -/
structure StaleLine where
  line : Nat
  old : List Nat
  /-- of those steps, the ones that have not read the line since, and the ones that saw the old content -/
  steps : List Nat
  seen : List Nat := []
  deriving DecidableEq, Repr

/-- The state of the package. -/
structure State where
  /-- the commands that wait, first in, first out -/
  pending : List Instr := []
  /-- the waymark: 2.5 ns ticks (R3, R371) -/
  now : Nat := 0
  /-- register fields that differ from their reset values, by bit address -/
  fields : SMap Nat := []
  /-- copies latched by a read of a _LO register (R522): word address to the latched word -/
  latched : SMap Nat := []
  /-- the bytes of the tensor address space (R340); an unlisted byte reads 0 (log 2) -/
  mem : List Host.Cell := []
  /-- lines that the host wrote while steps ran, with what they held before (R18) -/
  stale : List StaleLine := []
  /-- stored-data code: per 32-byte block of the tensor space the syndrome that a read finds (R270, R272), none listed
  where it is 0; and the blocks whose syndrome returns after a write-back (R273) -/
  syndromes : SMap Nat := []
  hardBlocks : List Nat := []
  /-- soft-CE records of a memory kind: the second they fall in, and how many (R275) -/
  softCe : SMap (Nat × Nat) := []
  /-- the hard-fault table of DRAM_HARD_ENTRY: kind, index, events, oldest first (R273) -/
  hardTable : List (Nat × Nat × Nat) := []
  /-- sweeps by context (R281); retirements in force that the studbook does not hold yet: kind, index (R285) -/
  sweeps : SMap (Option Sweep) := []
  retireWaits : List (Nat × Nat) := []
  /-- what has been sent, oldest first -/
  out : List Out := []
  /-- the model's own: how many free values have been drawn (log 5) -/
  freeCount : Nat := 0
  safety : Safety := {}
  volz : Volz := {}
  parts : SMap Part := []
  /-- partitions whose scrub was requested, the one that runs first (R350) -/
  scrubs : List Nat := []
  pci : Pci := {}
  /-- MSI-X vectors, function * 2^11 + vector -/
  vectors : SMap Vector := []
  slots : SMap Slot := []
  steps : List Step := []
  nextStep : Nat := 0
  kv : Kv := {}
  nv : Nv := {}
  boot : Boot := {}
  sec : Sec := {}
  pins : Pins := {}
  power : Power := {}
  thermal : Thermal := {}
  adc : Adc := {}
  clocks : Clocks := {}
  /-- tiles by team * 64 + physical tile -/
  tiles : SMap Tile := []
  teams : SMap Team := []
  /-- string sequencers -/
  seqs : SMap Seq := []
  /-- load contexts: 0 physical function 0, 1 + p partition p (R286) -/
  loads : SMap LoadCtx := []
  trace : Trace := {}
  dbgState : Debug := {}
  torus : Torus := {}
  /-- admissions since the start, by unit identifier (R318) -/
  admissions : SMap Nat := []
  /-- the arbiters of the turnpike's outputs, by `routerOutput` and `hubOutput` (R15) -/
  fabric : SMap OutArb := []
  deriving DecidableEq, Repr

/-- Thirty-two bytes of the random source (R446, R481, R486). -/
def randomBytes (n : Nat) : List Nat := (List.range 32).map (fun i => (Config.random n).getD i 0 % 256)

/-- The machine right after reset, at the start of a start: every field at the value the spec states for reset, and
where it states none at the value that the assumption log names. -/
def State.reset : State :=
  { sec := { challenge := randomBytes 0 }, dbgState := { challenge := randomBytes 1 },
    safety := { challenge := randomBytes 2 }, freeCount := 3 }

end Sys2Proof.Machine
end

