-- ==== Sys2Proof/Machine/Ops.lean ====
section
/-!
DEFINITION. The named operations over registers, memory, the running configuration, free values and interrupts. Every
read and write of a register field goes through `fget` and `fset`, every byte through `readByte` and `writeByte`.
-/
namespace Sys2Proof.Machine

/-! ### Numbers -/

/-- The value of a `w`-bit two's-complement field. -/
def toSigned (w v : Nat) : Int := if v % 2 ^ w < 2 ^ (w - 1) then (v % 2 ^ w : Nat) else (v % 2 ^ w : Nat) - (2 ^ w : Nat)

/-- The `w`-bit two's-complement field of an integer, low bits kept. -/
def ofSigned (w : Nat) (i : Int) : Nat := (i % (2 ^ w : Nat)).toNat

/-- An integer held between two bounds. -/
def clampInt (lo hi i : Int) : Int := if i < lo then lo else if hi < i then hi else i

/-- A number held between two bounds. -/
def clampNat (lo hi n : Nat) : Nat := if n < lo then lo else if hi < n then hi else n

/-- A rational held between two bounds. -/
def clampRat (lo hi r : Rat) : Rat := if r < lo then lo else if hi < r then hi else r

/-- Bits [hi:lo] of a word. -/
def bits (w hi lo : Nat) : Nat := (w / 2 ^ lo) % 2 ^ (hi + 1 - lo)

/-- Bit `i` of a word. -/
def bitOf (w i : Nat) : Bool := w.testBit i

/-- The word with bit `i` set. -/
def setBit (w i : Nat) : Nat := if w.testBit i then w else w + 2 ^ i

/-- The word with bit `i` cleared. -/
def clearBit (w i : Nat) : Nat := if w.testBit i then w - 2 ^ i else w

/-- The number of ones among the low `n` bits. -/
def ones (n w : Nat) : Nat := ((List.range n).filter (fun i => w.testBit i)).length

/-- ⌈a ÷ b⌉. -/
def ceilDiv (a b : Nat) : Nat := (a + b - 1) / b

/-- The little-endian value of a list of bytes (R2). -/
def leValue : List Nat → Nat
  | [] => 0
  | b :: bs => b % 256 + 256 * leValue bs

/-- The `n` little-endian bytes of a value (R2). -/
def leBytes : Nat → Nat → List Nat
  | 0, _ => []
  | n + 1, v => v % 256 :: leBytes n (v / 256)

/-- The `n` bytes of `b` from offset `off`; bytes past the end read 0. -/
def slice (b : List Nat) (off n : Nat) : List Nat := (List.range n).map (fun i => b.getD (off + i) 0)

/-- The little-endian field of `n` bytes at an offset. -/
def field (b : List Nat) (off n : Nat) : Nat := leValue (slice b off n)

/-- `n` zero bytes. -/
def zeros (n : Nat) : List Nat := List.replicate n 0

/-- The list padded with zero bytes, or cut, to `n` bytes. -/
def padTo (n : Nat) (b : List Nat) : List Nat := slice b 0 n

/-- Every byte of the list is 0. -/
def allZero (b : List Nat) : Bool := b.all (· == 0)

/-! ### Register fields -/

/-- A register field's value. -/
def State.fget (s : State) (f : Fld) : Nat := Map.get f.reset s.fields f.key

/-- `n` bits of a reflected CRC with polynomial `poly`. -/
def crcBits (poly : Nat) : Nat → Nat → Nat
  | 0, c => c
  | n + 1, c => crcBits poly n (if c % 2 = 1 then (c / 2) ^^^ poly else c / 2)

/-- A reflected 32-bit CRC, initial value and final XOR 0xFFFF_FFFF. -/
def crc32With (poly : Nat) (b : List Nat) : Nat := (b.foldl (fun c x => crcBits poly 8 (c ^^^ (x % 256))) 0xFFFFFFFF) ^^^ 0xFFFFFFFF

/-- CRC-32C, and the CRC-32 of IEEE 802.3. -/
def crc32c (b : List Nat) : Nat := crc32With 0x82F63B78 b
def crc32 (b : List Nat) : Nat := crc32With 0xEDB88320 b

/-- First 8 bytes of the digest of a public key (R29). -/
def keyId (k : List Nat) : List Nat := slice (Config.shake256 k) 0 8

/-- IDENTITY: the first 8 bytes of SHAKE256 over the device's public key (R444). -/
def Nv.identity (n : Nv) : List Nat := keyId n.deviceKey

/-- The state with a register field at a value; bits above the field are lost. -/
def State.fset (s : State) (f : Fld) (v : Nat) : State :=
  { s with fields := Map.set f.reset s.fields f.key (v % f.card) }

/-- A one-bit field as a truth value. -/
def State.flag (s : State) (f : Fld) : Bool := s.fget f != 0

/-- The state with a one-bit field set: the hardware sets a W1C bit, or a status bit. -/
def State.raise (s : State) (f : Fld) : State := s.fset f 1

/-- The state with a field at 0. -/
def State.clear (s : State) (f : Fld) : State := s.fset f 0

/-- The state with a field at 1 or 0. -/
def State.fput (s : State) (f : Fld) (b : Bool) : State := s.fset f (if b then 1 else 0)

/-- A counter advanced by `n`, stopping at its greatest value. -/
def State.bumpBy (s : State) (f : Fld) (n : Nat) : State := s.fset f (min (f.card - 1) (s.fget f + n))

/-- A counter advanced by one. -/
def State.bump (s : State) (f : Fld) : State := s.bumpBy f 1

/-- The string of a team (R1). -/
def teamString (t : Nat) : Nat := t / 24

/-- The counters of a team stand: TEAM_CTRL.CNT_FREEZE is 1 (R81), or its string's region is stopped (R370). -/
def State.countsStand (s : State) (t : Nat) : Bool :=
  s.flag (Reg.teamCtrlCntFreeze.team t) || (Map.get {} s.clocks.regions (teamString t)).stopped

/-- A counter of a team window. -/
def State.bumpTeam (s : State) (t : Nat) (f : Fld) (n : Nat) : State := if s.countsStand t then s else s.bumpBy (f.team t) n

/-- A counter of a tile's registers. -/
def State.bumpTile (s : State) (t k : Nat) (f : Fld) (n : Nat) : State := if s.countsStand t then s else s.bumpBy (f.tile t k) n

/-- A 64-bit value written to a pair of LO and HI fields. -/
def State.fset64 (s : State) (lo hi : Fld) (v : Nat) : State := (s.fset lo v).fset hi (v / 2 ^ 32)

/-- The 64-bit value of a pair of LO and HI fields. -/
def State.fget64 (s : State) (lo hi : Fld) : Nat := s.fget lo + 2 ^ 32 * s.fget hi

/-- A 64-bit counter held in LO and HI fields, advanced by `n`, wrapping at 2^64. -/
def State.bump64 (s : State) (lo hi : Fld) (n : Nat) : State := s.fset64 lo hi (s.fget64 lo hi + n)

/-- A list of words written to the fields of a register array, from entry 0 on. -/
def State.fsetWords (s : State) (f : Fld) : Nat → List Nat → State
  | _, [] => s
  | i, w :: ws => (s.fset (f.nth i) w).fsetWords f (i + 1) ws

/-- The bytes of a register array of `n` words, byte 0 in the low byte of the first. -/
def State.fgetBytes (s : State) (f : Fld) (n : Nat) : List Nat :=
  ((List.range n).map (fun i => leBytes 4 (s.fget (f.nth i)))).flatten

/-- The 32-bit words of a list of bytes. -/
def wordsOf (n : Nat) (b : List Nat) : List Nat := (List.range n).map (fun i => field b (4 * i) 4)

/-! ### Memory -/

/-- One byte of the tensor address space; a byte that nothing has written reads 0 (log 2). -/
def State.readByte (s : State) (a : Nat) : Byte := Map.get (0#8) s.mem a

/-- The state with one byte written. -/
def State.writeByte (s : State) (a : Nat) (v : Byte) : State := { s with mem := Map.set (0#8) s.mem a v }

/-- `n` bytes from an address on, as numbers. -/
def State.readBytes (s : State) (a n : Nat) : List Nat := (List.range n).map (fun i => (s.readByte (a + i)).toNat)

/-- The state with a list of bytes written from an address on. -/
def State.writeBytes (s : State) (a : Nat) : List Nat → State
  | [] => s
  | b :: bs => (s.writeByte a (BitVec.ofNat 8 b)).writeBytes (a + 1) bs

/-- A 32-bit little-endian word of the tensor space. -/
def State.readWord (s : State) (a : Nat) : Nat := leValue (s.readBytes a 4)

/-- The state with a 32-bit word written. -/
def State.writeWord (s : State) (a v : Nat) : State := s.writeBytes a (leBytes 4 v)

/-! ### Free values -/

/-- The next value that the spec leaves open, and the state in which it has been drawn. -/
def State.draw (s : State) : Nat × State := (Config.freeValue s.freeCount, { s with freeCount := s.freeCount + 1 })

/-- Thirty-two bytes of the random source. -/
def State.drawRandom (s : State) : List Nat × State :=
  (randomBytes s.freeCount, { s with freeCount := s.freeCount + 1 })

/-! ### Time, outputs -/

/-- Ticks of a number of microseconds and of milliseconds (R3). -/
def usTicks (n : Nat) : Nat := n * 400
def msTicks (n : Nat) : Nat := n * 400000
def secTicks (n : Nat) : Nat := n * 400000000

/-- The state in which something has been sent. -/
def State.send (s : State) (o : Out) : State := { s with out := s.out ++ [o] }

/-! ### The stage of the start (R427) -/

def stPor : Nat := 0
def stRom : Nat := 1
def stFwVerify : Nat := 2
def stNvLoad : Nat := 3
def stPinsSet : Nat := 4
def stDramUp : Nat := 5
def stLinksUp : Nat := 6
def stImageLoad : Nat := 7
def stSelfCal : Nat := 8
def stCauseway : Nat := 9
def stReady : Nat := 10

/-- RST_STATUS.STAGE. -/
def State.stage (s : State) : Nat := s.fget Reg.rstStatusStage

/-- Paddock mode (R434). -/
def State.paddock (s : State) : Bool := s.flag Reg.rstStatusPaddock

/-- READY has been reached and the device serves. -/
def State.ready (s : State) : Bool := s.stage == stReady && !s.paddock

/-! ### The running configuration -/

/-- The scope of a package section. -/
def pkgScope : Nat := 0xFFFFFFFF

/-- The running section of a type and scope, unless it was ignored under R31. -/
def State.sect? (s : State) (type scope : Nat) : Option Sect :=
  s.volz.running.find? (fun x => x.type == type && x.scope == scope && !x.ignored)

/-- The body of a running section, `[]` where there is none. -/
def State.body (s : State) (type scope : Nat) : List Nat :=
  match s.sect? type scope with
  | some x => x.body
  | none => []

/-- A field of a running section, or the default where the section is absent. -/
def State.cfg (s : State) (type scope off n dflt : Nat) : Nat :=
  match s.sect? type scope with
  | some x => field x.body off n
  | none => dflt

/-- Fields of package sections, by the tables of R417, R378, R483, R502 and R343. -/
def State.limitCfg (s : State) (off n dflt : Nat) : Nat := s.cfg 5 pkgScope off n dflt
def State.clockCfg (s : State) (off n dflt : Nat) : Nat := s.cfg 1 pkgScope off n dflt
def State.safetyCfg (s : State) (off n dflt : Nat) : Nat := s.cfg 6 pkgScope off n dflt
/-- A field of the DEBUG section; in paddock mode its default (R502). -/
def State.debugCfg (s : State) (off n dflt : Nat) : Nat := if s.paddock then dflt else s.cfg 7 pkgScope off n dflt

/-- TRC_SRC, TRC_TRIG and TRC_POST take the values of the DEBUG section, or its defaults (R502, R504). -/
def State.traceRegs (s : State) : State :=
  ((s.fset Reg.trcSrc (s.debugCfg 2 2 1)).fset Reg.trcTrig (s.debugCfg 8 1 1)).fset Reg.trcPost (s.debugCfg 4 4 262144)
def State.partCfg (s : State) (off n dflt : Nat) : Nat := s.cfg 2 pkgScope off n dflt
def State.serveCfg (s : State) (p off n dflt : Nat) : Nat := s.cfg 0x11 p off n dflt

/-- A field of partition `p`'s record (R344). -/
def State.partRec (s : State) (p off n : Nat) : Nat := s.partCfg (32 + 28 * p + off) n 0

/-- The strings of a partition, a bit each. -/
def State.partStrings (s : State) (p : Nat) : Nat := s.partRec p 0 4

/-- The selection of TOLL_SEL that names a member at a resource: a partition, or 32 for the package account. -/
def tollSel (m r : Nat) : Nat := r * 256 + m

/-- A transfer of `n` bytes of DATA or BULK has crossed resources below 4 on a member's credits: a credit for each line or part of
one, settled at the refill (R356, log 105). -/
def State.charge (s : State) (m : Nat) (bulk : Bool) (n : Nat) (rs : List Nat) : State :=
  let k := (n + 63) / 64
  { s with pci := { s.pci with
    moved := rs.foldl (fun d r => Map.modify (0, 0) d (tollSel m r) (fun e => if bulk then (e.1, e.2 + k) else (e.1 + k, e.2))) s.pci.moved,
    movedAt := rs.foldl (fun d r => Map.set 0 d r s.now) s.pci.movedAt } }

/-- String `x` belongs to partition `p`. -/
def State.ownsString (s : State) (p x : Nat) : Bool := (s.partStrings p).testBit x

/-- The partition of a string. -/
def State.stringPart (s : State) (x : Nat) : Option Nat := (List.range 32).find? (fun p => s.ownsString p x)

/-- The partition of a team. -/
def State.teamPart (s : State) (t : Nat) : Option Nat := s.stringPart (teamString t)

/-- The teams of a partition. -/
def State.partTeams (s : State) (p : Nat) : List Nat := (List.range 768).filter (fun t => s.ownsString p (teamString t))

/-- First global slot and slot count of a partition (R226). -/
def State.slotBase (s : State) (p : Nat) : Nat := s.partRec p 6 2
def State.slotCount (s : State) (p : Nat) : Nat := s.partRec p 8 2

/-- The virtual function of a partition; 0 where the partition is undefined. -/
def State.partVf (s : State) (p : Nat) : Nat := s.partRec p 4 1

/-- The partition of a virtual function. -/
def State.vfPart (s : State) (f : Nat) : Option Nat :=
  (List.range 32).find? (fun p => s.partStrings p != 0 && s.partVf p == f)

/-- The partition of a global slot. -/
def State.slotPart (s : State) (g : Nat) : Option Nat :=
  (List.range 32).find? (fun p => decide (s.slotBase p ≤ g ∧ g < s.slotBase p + s.slotCount p))

/-- A partition's own state. -/
def State.partGet (s : State) (p : Nat) : Part := Map.get {} s.parts p
def State.partSet (s : State) (p : Nat) (x : Part) : State := { s with parts := Map.set {} s.parts p x }

/-- The partition serves. -/
def State.inService (s : State) (p : Nat) : Bool := (s.partGet p).st == .inService

/-! ### MSI-X (R346, R347) -/

/-- The key of a function's vector. -/
def vecKey (fn vec : Nat) : Nat := fn * 2048 + vec
def State.vecGet (s : State) (fn vec : Nat) : Vector := Map.get {} s.vectors (vecKey fn vec)
def State.vecSet (s : State) (fn vec : Nat) (v : Vector) : State :=
  { s with vectors := Map.set {} s.vectors (vecKey fn vec) v }

/-- The moderation interval of a vector, in microseconds. -/
def State.modInterval (s : State) (fn vec : Nat) : Nat :=
  if fn = 0 then s.fget (Reg.pciModInterval.nth vec) else
  match s.vfPart fn with
  | some p => s.fget ((Reg.partVModInterval.vf p).nth vec)
  | none => 0

/-- What configuration requests set in a function. -/
def State.fnCfg (s : State) (fn : Nat) : FnCfg := Map.get {} s.pci.fns fn
def State.setFnCfg (s : State) (fn : Nat) (c : FnCfg) : State := { s with pci := { s.pci with fns := Map.set {} s.pci.fns fn c } }

/-- A function may send messages: MSI-X is enabled, the function is not masked as a whole and is in D0 (R335, R347). -/
def State.msixOn (s : State) (fn : Nat) : Bool := let c := s.fnCfg fn; c.msix && !c.maskAll && !c.d3

/-- A vector sends its message now, and its interval begins where it has one. -/
def State.vecSend (s : State) (fn vec : Nat) : State :=
  (s.vecSet fn vec { s.vecGet fn vec with pending := false, running := s.modInterval fn vec != 0 }).send (.msix fn vec)

/-- An event at a vector: at most one message per interval; inside the interval, or while the vector or its function
is masked, the event sets the pending state (R347). A stopped hub raises none (R370). -/
def State.vecEvent (s : State) (fn vec : Nat) : State :=
  if (Map.get {} s.clocks.regions 32).stopped then s else
  if (s.vecGet fn vec).mask || (s.vecGet fn vec).running || !s.msixOn fn then
    s.vecSet fn vec { s.vecGet fn vec with pending := true }
  else s.vecSend fn vec

/-- What a vector holds back leaves once nothing masks it (R347). -/
def State.vecRelease (s : State) (fn vec : Nat) : State :=
  let x := s.vecGet fn vec
  if x.pending && !x.mask && !x.running && s.msixOn fn then s.vecSend fn vec else s

/-- The function's vectors stand in the internal mask: its partition is not IN_SERVICE (R347). -/
def State.internalMask (s : State) (fn : Nat) : Bool :=
  if fn = 0 then false else
  match s.vfPart fn with
  | some p => !s.inService p
  | none => true

/-- An event for a function's vector, discarded under the internal mask. -/
def State.raiseVec (s : State) (fn vec : Nat) : State := if s.internalMask fn then s else s.vecEvent fn vec

/-- The package events of EVENT_VEC, in the order of R343. -/
inductive PkgEvent where
  | volz | memory | fault | torus | power | debug | partition | pci
  deriving DecidableEq, Repr

def PkgEvent.index : PkgEvent → Nat
  | .volz => 0 | .memory => 1 | .fault => 2 | .torus => 3 | .power => 4 | .debug => 5 | .partition => 6 | .pci => 7

/-- A package event at physical function 0's vector of EVENT_VEC (R346). -/
def State.pkgEvent (s : State) (e : PkgEvent) : State := s.vecEvent 0 (s.partCfg (2 + e.index) 1 e.index)

/-- The vector 0 event of a partition's state change, which no internal mask holds back, and physical function 0's
PARTITION event (R346, R347). -/
def State.partEvent (s : State) (p : Nat) : State := (s.vecEvent (s.partVf p) 0).pkgEvent .partition

/-! ### Unit identifiers and incarnations (R314, R470, R494, R318) -/

def unitId (kind index : Nat) : Nat := kind * 2 ^ 28 + index
def unitPackage : Nat := unitId 0 0
def unitPort (p : Nat) : Nat := unitId 1 p
def unitString (x : Nat) : Nat := unitId 2 x
def unitTeam (t : Nat) : Nat := unitId 3 t
def unitTile (t k : Nat) : Nat := unitId 4 (t * 34 + k)
def unitCore (c : Nat) : Nat := unitId 5 c
def unitPart (p : Nat) : Nat := unitId 6 p
def unitSeq (x : Nat) : Nat := unitId 7 x
def unitGroup (t g : Nat) : Nat := unitId 8 (t * 16 + g)
def unitColl (p : Nat) : Nat := unitId 9 p
def unitKv : Nat := unitId 10 0
def unitLoad (c : Nat) : Nat := unitId 11 c

/-- A field of a step is changed. -/
def State.modStep (s : State) (id : Nat) (f : Step → Step) : State :=
  { s with steps := s.steps.map (fun y => if y.id = id then f y else y) }

def State.seq (s : State) (x : Nat) : Seq := Map.get {} s.seqs x
def State.setSeqr (s : State) (x : Nat) (q : Seq) : State := { s with seqs := Map.set {} s.seqs x q }

/-- A turnpike output serves one line among the pairs (class, input) that wait, and remembers it (R15, log 117). -/
def State.serveOutput (s : State) (o : Nat) (ws : List (Nat × Nat)) : Option ((Nat × Nat) × State) :=
  match (Map.get {} s.fabric o).pick ws with
  | none => none
  | some (w, a) => some (w, { s with fabric := Map.set {} s.fabric o a })

/-- A unit's incarnation: the low 24 bits of the start count above its admissions since the start (R318). -/
def State.incarnation (s : State) (u : Nat) : Nat :=
  (s.nv.startCount % 2 ^ 24) * 256 + Map.get 0 s.admissions u % 256

/-- The unit is admitted once more, with a new incarnation. -/
def State.admission (s : State) (u : Nat) : State :=
  { s with admissions := Map.modify 0 s.admissions u (· + 1) }

/-! ### Clock regions and trace entries (R365, R493 to R496) -/

def State.region (s : State) (r : Nat) : Region := Map.get {} s.clocks.regions r
def State.setRegion (s : State) (r : Nat) (x : Region) : State :=
  { s with clocks := { s.clocks with regions := Map.set {} s.clocks.regions r x } }

/-- The region of a unit: a string's own, for a port's controller and collective engine that of the string they attach to
(R11), the hub for the rest. -/
def regionOf (u : Nat) : Nat :=
  let k := u / 2 ^ 28
  let i := u % 2 ^ 28
  if k = 2 ∨ k = 7 then i else if k = 3 then teamString i else if k = 4 then teamString (i / 34)
  else if k = 8 then teamString (i / 16) else if k = 1 ∨ k = 9 then portString i else 32

/-- The trace entry of an event now (R494). -/
def State.traceEntry (s : State) (source kind : Nat) (data : List Nat) : TraceEntry :=
  { way := s.now, source := source, kind := kind,
    flags := if (s.region (regionOf source)).stretched then 1 else 0,
    region := regionOf source, cycle := (s.region (regionOf source)).fifths / 5 % 2 ^ 32, data := padTo 12 data }

/-- The hub's clocks are stopped: it sends nothing, and no event reaches its units (R370). -/
def State.hubStopped (s : State) : Bool := (s.region 32).stopped

/-- Whose queue takes an entry (R493): that of the string that holds its source, or the hub unit's own. -/
def traceQueue (u : Nat) : Nat :=
  if [2, 3, 4, 7, 8].contains (u / 2 ^ 28) then unitString (regionOf u) else u

/-- A string or hub unit queues an entry, or drops it when 64 wait; once there is room again, its OVERFLOW entry goes first (R493).
A stopped region emits none (R370). -/
def State.enqueueTrace (s : State) (e : TraceEntry) : State :=
  if (s.region e.region).stopped then s else
  let u := traceQueue e.source
  let q := Map.get [] s.trace.queues u
  if 64 ≤ q.length then
    { s with trace := { s.trace with owed := Map.modify 0 s.trace.owed u (· + 1) } }.bump Reg.trcDropped
  else
    let n := Map.get 0 s.trace.owed u
    let q := if n = 0 then q else q ++ [{ e with source := u, kind := 0x02, data := padTo 12 (leBytes 4 n) }]
    if 64 ≤ q.length then
      { s with trace := { s.trace with queues := Map.set [] s.trace.queues u q, owed := Map.set 0 s.trace.owed u 1 } }.bump
        Reg.trcDropped
    else { s with trace := { s.trace with queues := Map.set [] s.trace.queues u (q ++ [e]), owed := Map.set 0 s.trace.owed u 0 } }

/-- An event of a kind that TRC_SRC bit `bit` enables (R495). -/
def State.traceEvent (s : State) (bit source kind : Nat) (data : List Nat) : State :=
  if s.trace.src.testBit bit then s.enqueueTrace (s.traceEntry source kind data) else s

/-- Capture states of TRC_STATUS.STATE. -/
def trcStopped : Nat := 0
def trcRing : Nat := 1
def trcPost : Nat := 2
def trcFrozen : Nat := 3

/-- Capture stands frozen: after a trigger, or by TRC_CTRL.STOP, which READY's arming precedes (R496, R502). -/
def State.traceFrozen (s : State) : Bool :=
  s.fget Reg.trcStatusState == trcFrozen || (s.fget Reg.trcStatusState == trcStopped && s.stage == stReady)

/-- One entry is written to the buffer at HEAD, or counted as lost after the freeze; after a trigger it carries
AFTER_TRIGGER and brings the freeze nearer (R496). -/
def State.writeTrace (s : State) (e : TraceEntry) : State :=
  let st := s.fget Reg.trcStatusState
  if s.traceFrozen then s.bump Reg.trcLost else
  if st = trcStopped then s else
  let h := s.fget Reg.trcStatusHead
  let e' := if st = trcPost then { e with flags := e.flags % 2 + 2 } else e
  let s := ({ s with trace := { s.trace with buf := Map.set {} s.trace.buf h e', written := s.trace.written + 1 } }).bump
    Reg.trcWritten
  let s := s.fset Reg.trcStatusHead ((h + 1) % 524288)
  if st = trcPost then
    let s := { s with trace := { s.trace with postLeft := s.trace.postLeft - 1 } }
    if s.trace.postLeft = 0 then s.fset Reg.trcStatusState trcFrozen else s
  else s

/-- A trigger condition (bit of TRC_TRIG): the first one writes TRIGGER, latches its waymark, pulses TRACE_TRIG_OUT and
starts post-trigger capture; a further one before the freeze writes MARKER; after it, it is counted (R496; TRIGGER is
the first post-trigger entry, log 112). A stopped hub sees none (R370). -/
def State.traceTrigger (s : State) (cond : Nat) : State :=
  if !s.trace.trig.testBit cond || s.hubStopped then s else
  let st := s.fget Reg.trcStatusState
  if st = trcRing then
    let s := s.fset64 Reg.trcTrigWayLo Reg.trcTrigWayHi s.now
    let s := { s with pins := { s.pins with trigOut := s.pins.trigOut + 1 } }
    let s := { s with trace := { s.trace with postLeft := s.trace.post } }
    (s.fset Reg.trcStatusState trcPost).writeTrace (s.traceEntry unitPackage 0x03 [cond])
  else if st = trcPost then s.writeTrace (s.traceEntry unitPackage 0x04 [cond])
  else if s.traceFrozen then s.bump Reg.trcLateTrigs
  else s

/-- Core `c` is halted; a lockstep pair halts as one (R491). -/
def State.coreHalted (s : State) (c : Nat) : Bool := s.flag (Reg.runstatHalted.unit c)

/-- Events fold over a list. -/
def State.each {α : Type} (s : State) (xs : List α) (f : State → α → State) : State := xs.foldl f s

/-! ### Operation counters (R501) and calibration trace (R495) -/

/-- Counter `i` of string `x` rises by `n`, from READY onward; counters are 64 bits wide. -/
def State.countOp (s : State) (x i n : Nat) : State :=
  if !s.ready ∨ n = 0 then s else
  { s with dbgState := { s.dbgState with counts := Map.modify 0 s.dbgState.counts (x * 32 + i) (fun v => (v + n) % 2 ^ 64) } }

/-- Outrider units served: counter 24 of R501, and the activity of the bridle's tick (R84, R382). -/
def State.countUnits (s : State) (x n : Nat) : State :=
  ({ s with power := { s.power with units := s.power.units + n } }).countOp x 24 n

/-- A tile-beat evaluated with its active rows: the activity of the bridle's tick (R382). -/
def State.countBeat (s : State) (rows : Nat) : State :=
  { s with power := { s.power with beats := s.power.beats + 1, rows := s.power.rows + rows } }

/-- A CAL entry of the trace: 1 take-over, 2 return, 3 remap, 4 retire, 5 verdict. The spec gives DETAIL no content. -/
def State.calTrace (s : State) (t k action : Nat) : State :=
  if !s.trace.src.testBit 6 then s else
  let r := s.draw
  r.2.traceEvent 6 (unitTeam t) 0x70 (leBytes 2 t ++ [k, action] ++ leBytes 4 r.1)

end Sys2Proof.Machine
end

