-- ==== Sys2Proof/Machine/KvOps.lean ====
section
/-!
DEFINITION. Pages, frames and sequence tables of the key-value engine: the shared operations of R194 to R223. A page
record, a table entry and a waiter change only here.
-/
namespace Sys2Proof.Machine

/-! ### Where records and tables stand -/

def pageKey (p id : Nat) : Nat := p * 2 ^ 24 + id
def seqKey (p slot c : Nat) : Nat := (p * 2 ^ 14 + slot) * 2 ^ 10 + c

def State.page (s : State) (p id : Nat) : Page := Map.get {} s.kv.pages (pageKey p id)
def State.setPage (s : State) (p id : Nat) (x : Page) : State :=
  { s with kv := { s.kv with pages := Map.set {} s.kv.pages (pageKey p id) x } }
def State.seqTab (s : State) (p slot c : Nat) : SeqTab := Map.get {} s.kv.seqs (seqKey p slot c)
def State.setSeq (s : State) (p slot c : Nat) (x : SeqTab) : State :=
  { s with kv := { s.kv with seqs := Map.set {} s.kv.seqs (seqKey p slot c) x } }

/-! ### The SERVE fields of R191, R192 and R256 -/

def State.frameBytes (s : State) (p : Nat) : Nat := s.serveCfg p 0 4 0x100000
def State.sramBanks (s : State) (p : Nat) : Nat := s.serveCfg p 4 2 0
def State.maxPages (s : State) (p : Nat) : Nat := s.serveCfg p 6 2 64
def State.cacheCount (s : State) (p : Nat) : Nat := s.serveCfg p 30 2 0
def State.pageIds (s : State) (p : Nat) : Nat := s.serveCfg p 24 4 0

/-- A field of cache record `c` (R191). -/
def State.cacheRec (s : State) (p c off n : Nat) : Nat := s.serveCfg p (288 + 16 * c + off) n 0

def State.cacheHolder (s : State) (p c : Nat) : Nat := s.cacheRec p c 8 2
def State.cacheLog2 (s : State) (p c : Nat) : Nat := s.cacheRec p c 10 1
def State.cacheHome (s : State) (p c : Nat) : Nat := s.cacheRec p c 11 1
/-- The string of an SRAM cache's frames; 0 for the other pools, which have one frame set. -/
def State.cacheStr (s : State) (p c : Nat) : Nat := if s.cacheHome p c = 0 then teamString (s.cacheHolder p c) else 0
def State.spreadCount (s : State) (p c : Nat) : Nat := s.cacheRec p c 12 1 / 16 + 1
def State.spreadIndex (s : State) (p c : Nat) : Nat := s.cacheRec p c 12 1 % 16
def State.evictOn (s : State) (p c : Nat) : Bool := (s.cacheRec p c 13 1).testBit 7

/-! ### Frames (R195, R223, R526) -/

/-- The banks of string `x`'s slice that are not retired, ascending. -/
def State.soundBanks (s : State) (x : Nat) : List Nat := (List.range 224).filter (fun b => !s.nv.banks.contains (x * 224 + b))

/-- The banks over which string `x`'s slice is laid out: those not retired when the layout was made (R526). -/
def State.goodBanks (s : State) (x : Nat) : List Nat := (List.range 224).filter (fun b => !s.volz.laidOut.contains (x * 224 + b))

/-- The banks of the SRAM pool: the highest of the string's good banks. -/
def State.poolBanks (s : State) (p x : Nat) : List Nat :=
  let g := s.goodBanks x
  g.drop (g.length - s.sramBanks p)

/-- The tensor address of byte `off` of a frame. -/
def State.frameByte (s : State) (p tier str frame off : Nat) : Nat :=
  let o := frame * s.frameBytes p + off
  if tier = 0 then str * 0x3800000 + (s.poolBanks p str).getD (o / 0x40000) 0 * 0x40000 + o % 0x40000
  else 0x1000000000 + s.serveCfg p 8 4 0 * 0x10000 + o

/-- The frames of a pool. -/
def State.poolFrames (s : State) (p tier : Nat) : Nat :=
  if tier = 0 then s.sramBanks p * 0x40000 / s.frameBytes p
  else if tier = 1 then s.serveCfg p 12 4 0 * 0x10000 / s.frameBytes p
  else s.fget (Reg.kvPHostFrames.kvPart p)

/-- The partition's page records that are not FREE. -/
def State.livePages (s : State) (p : Nat) : List (Nat × Page) :=
  (s.kv.pages.filter (fun e => e.1 / 2 ^ 24 == p && e.2.st != .free)).map (fun e => (e.1 % 2 ^ 24, e.2))

/-- A frame is in use: by a record, by a move towards it, or set aside for a waiter. -/
def State.frameUsed (s : State) (p tier str frame : Nat) : Bool :=
  (s.livePages p).any (fun e => e.2.tier == tier && (tier != 0 || e.2.str == str) && e.2.frame == frame) ||
  s.kv.moves.any (fun m => m.part == p && m.tier == tier && (tier != 0 || m.str == str) && m.frame == frame) ||
  s.kv.waiters.any (fun w => w.part == p && w.tier == tier && (tier != 0 || w.str == str) && w.got.contains frame)

/-- A frame overlaps a retired DRAM unit or SRAM bank, so it is not reused (R223, R284). -/
def State.frameRetired (s : State) (p tier str frame : Nat) : Bool :=
  if tier = 1 then
    let a := s.serveCfg p 8 4 0 * 0x10000 + frame * s.frameBytes p
    s.nv.units.any (fun u => decide (a < (u + 1) * 0x10000 ∧ u * 0x10000 < a + s.frameBytes p))
  else if tier = 0 then
    let f := s.frameBytes p
    let i := frame * f / 0x40000
    (List.range ((frame * f + f - 1) / 0x40000 + 1 - i)).any (fun k =>
      s.nv.banks.contains (str * 224 + (s.poolBanks p str).getD (i + k) 0))
  else false

/-- The frames of a pool that may be taken, ascending. -/
def State.freeFrames (s : State) (p tier str : Nat) : List Nat :=
  (List.range (s.poolFrames p tier)).filter (fun f => !s.frameUsed p tier str f && !s.frameRetired p tier str f)

/-- The page records that are FREE, ascending (R195), less those that a copy in progress has taken. -/
def State.freeIds (s : State) (p : Nat) : List Nat :=
  (List.range (s.pageIds p)).filter (fun i =>
    (s.page p i).st == .free && !s.kv.moves.any (fun m => m.part == p && m.kind == .copy && m.newPage == i))

/-! ### Release and reclamation (R213, R222) -/

/-- A frame that has come free: it is set aside for the first waiter of its pool that still lacks one (R222). -/
def setAside (p tier str frame : Nat) : List Waiter → List Waiter
  | [] => []
  | w :: ws =>
    if w.part = p ∧ w.tier = tier ∧ (tier = 0 → w.str = str) ∧ w.got.length < w.need
    then { w with got := w.got ++ [frame] } :: ws
    else w :: setAside p tier str frame ws

/-- The page is reclaimed when both counts are 0: its record becomes FREE and its frame returns to its pool (R213). -/
def State.reclaim (s : State) (p id : Nat) : State :=
  let x := s.page p id
  if x.refs = 0 ∧ x.pins = 0 ∧ x.st ≠ .free then
    let s := (s.setPage p id {}).bump (Reg.kvPReclaim.kvPart p)
    if s.frameRetired p x.tier x.str x.frame then s
    else { s with kv := { s.kv with waiters := setAside p x.tier x.str x.frame s.kv.waiters } }
  else s

/-- One reference to a page is given up. -/
def State.releasePage (s : State) (p id : Nat) : State :=
  (s.setPage p id { s.page p id with refs := (s.page p id).refs - 1 }).reclaim p id

/-- A reader pins a page, or unpins it (R211). -/
def State.pin (s : State) (p id : Nat) : State := s.setPage p id { s.page p id with pins := (s.page p id).pins + 1 }
def State.unpin (s : State) (p id : Nat) : State :=
  (s.setPage p id { s.page p id with pins := (s.page p id).pins - 1 }).reclaim p id

/-- A copy on write of the entry is in progress: the sequence has given up its reference to the old page (R212). -/
def Move.copies (m : Move) (p key : Nat) (e : Entry) : Bool :=
  m.part == p && m.kind == .copy && m.seq == key && !m.orphan && m.entry == e.firstPos && m.page == e.page

/-- Every page of a sequence in one cache is released, and the table emptied; a copy in progress goes on for nobody. -/
def State.releaseCache (s : State) (p slot c : Nat) : State :=
  let t := s.seqTab p slot c
  let key := seqKey p slot c
  let s := s.each t.entries (fun s e => if s.kv.moves.any (fun m => m.copies p key e) then s else s.releasePage p e.page)
  let s := { s with kv := { s.kv with
    moves := s.kv.moves.map (fun (m : Move) => if m.part == p && m.kind == MoveKind.copy && m.seq == key then { m with orphan := true } else m) } }
  s.setSeq p slot c {}

/-- The page waits of a sequence, and the state without them: the frames set aside for it are free. -/
def State.takeWaits (s : State) (p slot : Nat) : List Waiter × State :=
  (s.kv.waiters.filter (fun w => w.part == p && w.slot == slot),
   { s with kv := { s.kv with waiters := s.kv.waiters.filter (fun w => !(w.part == p && w.slot == slot)) } })

/-- Frames that were set aside for a sequence and that it has not taken go to the next waiter. -/
def State.passFrames (s : State) (p : Nat) (ws : List Waiter) : State :=
  s.each ws (fun s w => s.each w.got (fun s f =>
    if s.frameUsed p w.tier w.str f then s
    else { s with kv := { s.kv with waiters := setAside p w.tier w.str f s.kv.waiters } }))

/-- A sequence leaves every page wait; the frames set aside for it go back, to the next waiter first. -/
def State.leaveWait (s : State) (p slot : Nat) : State :=
  let w := s.takeWaits p slot
  w.2.passFrames p w.1

/-- Every page of a sequence is released, in every cache (R213). -/
def State.releaseSeq (s : State) (p slot : Nat) : State :=
  (s.each (List.range (s.cacheCount p)) (fun s c => s.releaseCache p slot c)).leaveWait p slot

/-- The pages of a sequence. -/
def State.seqPages (s : State) (p slot : Nat) : List Nat :=
  ((List.range (s.cacheCount p)).map (fun c => (s.seqTab p slot c).entries.map (·.page))).flatten

/-- Some page of the sequence is POISONED (R223). -/
def State.seqPoisoned (s : State) (p slot : Nat) : Bool :=
  (s.seqPages p slot).any (fun id => (s.page p id).st == .poisoned)

/-! ### Tentative entries and commit (R214, R215) -/

/-- A sequence's tentative entries on a page are abandoned: TENTATIVE falls to 0, whoever shares the page (R214, R216). -/
def Page.abandon (x : Page) (key : Nat) : Page := if x.owner = key + 1 then { x with tentative := 0, owner := 0 } else x

/-- The tentative entries of a sequence are abandoned, in every cache. -/
def State.abandonTentative (s : State) (p slot : Nat) : State :=
  s.each (List.range (s.cacheCount p)) (fun s c => s.each (s.seqTab p slot c).entries (fun s e =>
    s.setPage p e.page ((s.page p e.page).abandon (seqKey p slot c))))

/-- An entry after positions up to `upto` are committed: VIEW rises, never falls. -/
def commitEntry (upto : Nat) (e : Entry) : Entry :=
  { e with view := max e.view (min (2 ^ e.log2) (upto - e.firstPos)) }

/-- The commit of one cache of a sequence to position `upto` (R215). -/
def State.commitCache (s : State) (p slot c upto : Nat) : State :=
  let t := s.seqTab p slot c
  let es := t.entries.map (commitEntry upto)
  let s := s.each (t.entries.zip es) (fun s x =>
    let pg := (s.page p x.1.page).abandon (seqKey p slot c)
    s.setPage p x.1.page { pg with
      committed := max pg.committed x.2.view, commitWay := if x.1.view < x.2.view then s.now else pg.commitWay })
  s.setSeq p slot c { t with entries := es, nextPos := max t.nextPos upto }

/-! ### Eviction (R217, R218) -/

/-- The importance array's word of position entry `i` of a page: an FP32 at the start of its frame (R194). -/
def State.importanceAt (s : State) (p id i : Nat) : Nat :=
  let x := s.page p id
  s.frameByte p x.tier x.str x.frame (4 * i)

/-- The entry may be evicted from the sequence: `i` is its index, `n` the number of entries (R218). -/
def State.evictable (s : State) (p c i n : Nat) (e : Entry) : Bool :=
  let x := s.page p e.page
  s.evictOn p c && e.view == 2 ^ e.log2 && x.tentative == 0 && x.refs == 1 && x.pins == 0 &&
    decide (s.cacheRec p c 14 1 ≤ i) && decide (i + s.cacheRec p c 15 1 < n)

/-! ### Waiters (R220, R222) -/

def State.waiting (s : State) (p slot : Nat) : Bool := s.kv.waiters.any (fun w => w.part == p && w.slot == slot)

/-- How many sequences wait, of the waiters that `f` takes: one that is short in two pools is one sequence (R225). -/
def State.waitingSeqs (s : State) (f : Waiter → Bool) : Nat := ((s.kv.waiters.filter f).map (fun w => (w.part, w.slot))).eraseDups.length

/-- Some sequence other than `slot` waits for the pool, so its frames are set aside (R222). -/
def State.poolHeld (s : State) (p tier str slot : Nat) : Bool :=
  s.kv.waiters.any (fun w => w.part == p && w.tier == tier && (tier != 0 || w.str == str) && w.slot != slot)

/-! ### The table region (R197 to R200) -/

/-- A page lies in its cache's HOME tier (for SRAM, in its holder's string). -/
def State.pageHome (s : State) (p c : Nat) (x : Page) : Bool :=
  x.tier == s.cacheHome p c && (x.tier != 0 || x.str == s.cacheStr p c)

/-- STATE of a sequence-table header (R198): 0 NONE, 1 HOME, 2 PAGE_WAIT, 3 AWAY. -/
def State.seqState (s : State) (p slot c : Nat) : Nat :=
  let t := s.seqTab p slot c
  if s.waiting p slot then 2 else if t.entries.isEmpty then 0
  else if t.entries.all (fun e => s.pageHome p c (s.page p e.page)) then 1 else 3

/-- The words of a page-table entry (R199). -/
def Entry.words (e : Entry) : List Nat := [e.page + e.log2 * 2 ^ 24, e.firstPos, e.view, 0]

/-- The words of a page record (R200). -/
def PageSt.code : PageSt → Nat
  | .free => 0 | .live => 1 | .moving => 2 | .poisoned => 3

def Page.words (x : Page) : List Nat :=
  [x.frame + x.tier * 2 ^ 24 + x.str * 2 ^ 26, x.refs + x.pins * 2 ^ 16, x.committed + x.tentative * 2 ^ 16,
   x.log2 + x.st.code * 256 + x.cache * 2 ^ 16, x.commitWay % 2 ^ 32, x.commitWay / 2 ^ 32, 0, 0]

/-- The bytes of a partition's table region (R197 to R200): page records, then sequence tables. -/
def State.tableByte (s : State) (p off : Nat) : Nat :=
  let recs := 32 * s.pageIds p
  let tabs := ceilDiv recs 0x10000 * 0x10000
  let size := 16 + 16 * s.maxPages p
  let words := fun (ws : List Nat) i => (leBytes 4 (ws.getD (i / 4) 0)).getD (i % 4) 0
  if off < recs then words (s.page p (off / 32)).words (off % 32)
  else if off < tabs ∨ s.cacheCount p = 0 then 0
  else
    let n := (off - tabs) / size
    let i := (off - tabs) % size
    let k := n / s.cacheCount p
    let c := n % s.cacheCount p
    if s.slotCount p ≤ k then 0 else
    let t := s.seqTab p k c
    if i < 16 then words [t.entries.length + s.seqState p k c * 2 ^ 16, t.nextPos, 0, 0] i
    else match t.entries[i / 16 - 1]? with
      | some e => words e.words (i % 16)
      | none => 0

/-- The partition whose table region holds an address, and the offset within the region. -/
def State.inTable (s : State) (a : Nat) : Option (Nat × Nat) :=
  if a < 0x1000000000 then none else
  ((List.range 32).find? (fun p => s.partStrings p != 0 && decide (s.serveCfg p 16 4 0 * 65536 ≤ a - 0x1000000000 ∧
    a - 0x1000000000 < (s.serveCfg p 16 4 0 + s.serveCfg p 20 4 0) * 65536))).map (fun p => (p, a - 0x1000000000 - s.serveCfg p 16 4 0 * 65536))

end Sys2Proof.Machine
end

