-- ==== Sys2Proof/Machine/GateOps.lean ====
section
/-!
DEFINITION. The slot state machine's shared operations (R229 to R239, R250 to R255): descriptors, transitions, the
result header, and the end of a request.
-/
namespace Sys2Proof.Machine

def State.slot (s : State) (g : Nat) : Slot := Map.get {} s.slots g
def State.setSlot (s : State) (g : Nat) (x : Slot) : State := { s with slots := Map.set {} s.slots g x }

/-- Where a slot's descriptor and result window stand: the slot area of R227 and R340, laid out as BAR2 (R226). -/
def descAddr (g : Nat) : Nat := 0x7BC00000 + g * 0x100
def windowAddr (g : Nat) : Nat := 0x7C000000 + g * 0x1000

/-- Slot state numbers of the result header (R235). -/
def SlotSt.code : SlotSt → Nat
  | .free => 0 | .armed => 1 | .running => 2 | .paused => 3 | .done => 4 | .cancelled => 5 | .faulted => 6

/-- The partition-local number of a global slot. -/
def State.localSlot (s : State) (p g : Nat) : Nat := g - s.slotBase p

/-- The global number of a partition-local slot. -/
def State.globalSlot (s : State) (p k : Nat) : Nat := s.slotBase p + k

/-- The working copy that ARM or CONTINUE takes of descriptor bytes 0x04 to 0xFF (R229). `b` is the descriptor. -/
def parseDesc (b : List Nat) : Desc :=
  let fl := field b 0x05 1
  { model := field b 0x04 1 % 16, irq := fl.testBit 0, pacer := fl.testBit 1, keep := fl.testBit 2, fork := fl.testBit 3,
    inputSrc := field b 0x06 1, priority := field b 0x07 1 % 4, inputCount := field b 0x08 4, maxNew := field b 0x0C 2,
    yieldEvery := field b 0x0E 2, inputAddr := field b 0x10 8, forkFrom := field b 0x18 2, irqVec := field b 0x1A 2,
    forkLen := field b 0x1C 4, ttl := field b 0x20 4, pageWait := field b 0x24 2, topkS := field b 0x26 1,
    temp := field b 0x28 2, seed := field b 0x2C 4, stop0 := field b 0x30 4, stop1 := field b 0x34 4, tag := field b 0x38 4,
    inline := wordsOf 48 (slice b 0x40 192),
    badReserved := field b 0x04 1 / 16 != 0 || fl / 16 != 0 || field b 0x07 1 / 4 != 0 || field b 0x27 1 != 0 ||
      field b 0x2A 2 != 0 || field b 0x3C 4 != 0 }

/-- A field of the SERVE entry of model `m` (R257). -/
def State.modelCfg (s : State) (p m off n dflt : Nat) : Nat := s.serveCfg p (64 + 12 * m + off) n dflt

def State.vectorMode (s : State) (p m : Nat) : Bool := s.modelCfg p m 4 1 0 == 1
def State.outTopk (s : State) (p m : Nat) : Nat := s.modelCfg p m 5 1 1
def State.resultBytes (s : State) (p m : Nat) : Nat := s.modelCfg p m 6 2 0
def State.pacerModel (s : State) (p m : Nat) : Nat := s.modelCfg p m 8 1 0xFF
def State.pacerLen (s : State) (p m : Nat) : Nat := s.modelCfg p m 9 1 0

/-- The models of a partition's HARNESS (R172, MODEL_COUNT). -/
def State.modelCount (s : State) (p : Nat) : Nat := s.cfg 0x10 p 4 2 0

/-- The vectors of a function: 64 for physical function 0, 62 for a virtual function (R346). -/
def fnVectors (fn : Nat) : Nat := if fn = 0 then 64 else 62

/-- The descriptor is refused at ARM (`cont` false) or CONTINUE (R231). -/
def State.badDesc (s : State) (p : Nat) (cont : Bool) (d : Desc) : Bool :=
  d.badReserved ||
  decide (s.modelCount p ≤ d.model) ||
  decide (2 < d.inputSrc) || (d.inputSrc == 0 && decide (48 < d.inputCount)) ||
  (!cont && d.inputCount == 0 && !d.fork) ||
  decide (1008 < d.maxNew) || decide (1008 < d.yieldEvery) || (s.vectorMode p d.model && d.maxNew != 0) ||
  d.topkS == 0 || decide (64 < d.topkS) ||
  (d.pacer && s.pacerModel p d.model == 0xFF) ||
  decide (fnVectors (s.partVf p) ≤ d.irqVec) ||
  (d.fork && (cont || decide (s.slotCount p ≤ d.forkFrom))) ||
  decide (1048576 < d.inputCount)

/-! ### Transitions (R233, R239) -/

/-- The state numbers whose entry sets the map bit and may interrupt (R239). -/
def SlotSt.signals : SlotSt → Bool
  | .done | .paused | .cancelled | .faulted => true
  | _ => false

/-- The slot's bit of GATE_DONE_MAP is set, and IRQ_VEC is raised when its IRQ flag is set (R239). -/
def State.signalSlot (s : State) (p g : Nat) : State :=
  let k := s.localSlot p g
  let f := (Reg.gateDoneMap.gate p).nth (k / 32)
  let s := s.fset f (setBit (s.fget f) (k % 32))
  if (s.slot g).work.irq then s.raiseVec (s.partVf p) (s.slot g).work.irqVec else s

/-- A slot enters a state, with a CODE; STATE_AT records the time (R233). -/
def State.enter (s : State) (p g : Nat) (st : SlotSt) (code : Nat) : State :=
  let x := s.slot g
  let s := s.traceEvent 1 (unitPart p) 0x20
    (leBytes 2 (s.localSlot p g) ++ [x.st.code, st.code, code] ++ leBytes 2 x.gen)
  let s := s.setSlot g { x with st := st, code := code, stateAt := s.now }
  if st.signals then s.signalSlot p g else s

/-- CODE values of R238. -/
def cNone : Nat := 0x00
def cComplete : Nat := 0x01
def cStop : Nat := 0x02
def cYield : Nat := 0x03
def cForward : Nat := 0x04
def cHostCancel : Nat := 0x10
def cTtl : Nat := 0x11
def cQuiesced : Nat := 0x12
def cBadDesc : Nat := 0x20
def cForkRefused : Nat := 0x21
def cInputDma : Nat := 0x22
def cNoCache : Nat := 0x23
def cNotInService : Nat := 0x24
def cExhausted : Nat := 0x25
def cStepFault : Nat := 0x26
def cDangerous : Nat := 0x27
def cOversize : Nat := 0x28

/-- A slot leaves its step: what the step still carries of it is discarded by its GEN or its state (R234, R250). -/
def Slot.leaveStep (x : Slot) : Slot := { x with inStep := none, pauseAsked := false }

/-- The slot ends in `st` with a CODE: its wait ends, its tentative entries are abandoned, its pages are released. -/
def State.endSlot (s : State) (p g : Nat) (st : SlotSt) (code : Nat) : State :=
  let k := s.localSlot p g
  let s := (s.abandonTentative p k).releaseSeq p k
  let s := s.setSlot g { (s.slot g).leaveStep with
    pageWait := false, waitFrom := none, ttlFrom := none, parkedAt := none, cacheHeld := false, pendingTok := none }
  s.enter p g st code

/-- A slot FAULTED with a CODE, its pages released. -/
def State.faultSlot (s : State) (p g code : Nat) : State := s.endSlot p g .faulted code

/-- The slots of a partition, global numbers. -/
def State.partSlots (s : State) (p : Nat) : List Nat := (List.range (s.slotCount p)).map (s.globalSlot p)

/-- The partition's slots that are not FREE (the listed ones), ascending. -/
def State.busySlots (s : State) (p : Nat) : List Nat :=
  (s.slots.filter (fun e => e.2.st != .free && decide (s.slotBase p ≤ e.1 ∧ e.1 < s.slotBase p + s.slotCount p))).map (·.1)

/-- A DONE slot's cache is released: CACHE_RELEASED is set (R233, R254). -/
def State.releaseDone (s : State) (p g : Nat) : State :=
  let s := s.releaseSeq p (s.localSlot p g)
  s.setSlot g { s.slot g with
    cacheHeld := false, cacheReleased := true, ttlFrom := none, parkedAt := none, pendingTok := none }

/-- What a partition quiesce does to one slot (R233). -/
def State.quiesceSlot (s : State) (p g : Nat) : State :=
  match (s.slot g).st with
  | .armed | .running | .paused => s.endSlot p g .cancelled cQuiesced
  | .done => if (s.slot g).cacheHeld then s.releaseDone p g else s
  | _ => s

/-! ### The result header (R235) -/

/-- FLAGS of STATUS, from bit 16. -/
def Slot.flagBits (x : Slot) : Nat :=
  (if x.yielded then 1 else 0) + (if x.cacheHeld then 2 else 0) + (if x.cacheReleased then 4 else 0) +
  (if x.reduced then 8 else 0) + (if x.pageWait then 16 else 0) + (if x.pacerSuspended then 32 else 0) +
  (if x.degraded then 64 else 0)

/-- The 64 bytes of the header. -/
def Slot.header (x : Slot) : List Nat :=
  leBytes 4 (x.st.code + x.code * 256 + x.flagBits * 65536) ++ leBytes 4 x.work.tag ++ leBytes 2 x.gen ++
  leBytes 2 x.dones ++ leBytes 2 x.outCount ++ [if x.suspend = 0 then x.pacerL else 0, 0] ++ leBytes 4 x.nextPos ++
  leBytes 4 x.produced ++ leBytes 8 x.armedAt ++ leBytes 8 x.firstAt ++ leBytes 8 x.stateAt ++ leBytes 4 x.earlyReads ++
  leBytes 4 x.reads ++ leBytes 4 x.proposed ++ leBytes 4 x.accepted

/-- A parked slot (R253): paused from this moment for R220, and its TTL runs (R255). -/
def State.park (s : State) (g : Nat) : State :=
  s.setSlot g { s.slot g with parkedAt := some s.now, ttlFrom := some s.now }

end Sys2Proof.Machine
end

