-- ==== Sys2Proof/Machine/Faults.lean ====
section
/-!
DEFINITION. Fault-log records, dangerous marking, error reports, health and paddock mode (R430 to R434, R452 to R484).
Every record of the model is written by `State.record` or `State.danger`.
-/
namespace Sys2Proof.Machine

/-! ### The user NV image (R442) -/

/-- A field of the running user NV image's group `g` (PRESENT bit), or the factory default. -/
def State.userCfg (s : State) (g off n dflt : Nat) : Nat :=
  if s.boot.user.isEmpty || !(field s.boot.user 6 2).testBit g then dflt else field s.boot.user off n

/-- FAIL_LIMIT and BOOT_SRC (R442). -/
def State.failLimit (s : State) : Nat := s.userCfg 0 17 1 3
def State.bootSrc (s : State) : Nat := s.userCfg 0 16 1 0

/-- The temperature window of R407: THRM_HUB.NV_OK. -/
def State.nvOk (s : State) : Bool := s.flag Reg.thrmHubNvOk

/-! ### Teams' repair state, for health -/

def State.team (s : State) (t : Nat) : Team := Map.get {} s.teams t
def State.setTeam (s : State) (t : Nat) (x : Team) : State := { s with teams := Map.set {} s.teams t x }

/-- The physical tile that serves role `r`. -/
def Team.tileOf (x : Team) (r : Nat) : Nat := Map.get r x.roles r

/-- The role that physical tile `k` serves. -/
def Team.roleOf (x : Team) (k : Nat) : Option Nat := (List.range 32).find? (fun r => x.tileOf r == k)

/-! ### Health (R473, R474) -/

/-- Some condition of a list of (bit, truth) pairs, as a word of bits. -/
def bitWord : List Bool → Nat
  | [] => 0
  | b :: bs => (if b then 1 else 0) + 2 * bitWord bs

/-- Sensors of a string that have not failed. -/
def State.goodSensors (s : State) (x : Nat) : Nat :=
  ([2 * x, 2 * x + 1].filter (fun i => !(Map.get {} s.thermal.sensors i).failed)).length

/-- The DEGRADED conditions of R473 in table order. -/
def State.degradedConds (s : State) : List Bool :=
  [s.teams.any (fun e => (List.range 32).any (fun r => decide (32 ≤ e.2.tileOf r))),
   s.teams.any (fun e => e.2.cols.any (fun c => c.2.st == 1)),
   s.teams.any (fun e => !e.2.bypass.isEmpty),
   s.teams.any (fun e => e.2.degraded),
   (List.range 6).any (fun p => s.fget (Reg.linkStatusLanes.port p) == 16 || decide (0 < (Map.get {} s.torus.ports p).subs)),
   !s.nv.units.isEmpty || !s.nv.banks.isEmpty,
   (List.range 32).any (fun x => s.goodSensors x == 1),
   s.safety.dfSeen]

/-- LOCKSTEP and monitor records of the studbook within the last 30 days. -/
def State.monitorRecords (s : State) : Nat :=
  (s.nv.faults.filter (fun r => (r.code == 0x10 || r.code == 0x30 || r.code == 0x53) &&
    decide (s.now < r.way + secTicks 2592000))).length

/-- The REPLACE conditions of R473 in table order. -/
def State.replaceConds (s : State) : List Bool :=
  [s.teams.any (fun e => e.2.outOfService),
   !s.thermal.lostStrings.isEmpty,
   s.flag Reg.thrmStatusEol,
   decide (2048 < s.nv.units.length) || decide (128 < s.nv.banks.length),
   decide (3 ≤ s.monitorRecords)]

/-- Health: 0 GOOD, 1 DEGRADED, 2 REPLACE, 3 PADDOCK: the worst whose condition holds; a quarantined package shows
DEGRADED (R321). -/
def State.healthNow (s : State) : Nat :=
  if s.paddock then 3 else if s.replaceConds.any id then 2
  else if s.degradedConds.any id || s.flag Reg.torStatusQuarantine then 1 else 0

/-- The value driven on STATUS1 and STATUS0 (R426). -/
def State.statusValue (s : State) : Nat :=
  if s.paddock then 0 else if s.stage = stReady then (if s.healthNow = 2 then 1 else 2) else 3

/-- A record is written to the log: ring entry, count, trace entry and trigger (R471, R495, R496). -/
def State.append (s : State) (r : LogRec) : State :=
  let n := s.fget Reg.safeLogHead
  let s := { s with safety := { s.safety with log := Map.set {} s.safety.log (n % 8192) r } }
  let s := s.fset Reg.safeLogHead (n + 1)
  let s := s.traceEvent 0 r.source 0x10 ([r.cls, r.sev] ++ leBytes 2 r.code ++ padTo 8 r.ctx)
  if 2 ≤ r.sev then s.traceTrigger 0 else if r.sev = 1 then s.traceTrigger 1 else s

/-- The incarnation a record carries: 0 for CORE and PARTITION (R470). -/
def State.recInc (s : State) (source : Nat) : Nat := if 5 ≤ source / 2 ^ 28 then 0 else s.incarnation source

/-- Health as it now stands: a change writes a HEALTH record and drives the STATUS pins (R474). -/
def State.updateHealth (s : State) : State :=
  let s := (s.fset Reg.safeHealthWhyDegraded (bitWord s.degradedConds)).fset Reg.safeHealthWhyReplace (bitWord s.replaceConds)
  let h := s.healthNow
  let s := if h = s.fget Reg.safeStatusHealth then s else
    (s.fset Reg.safeStatusHealth h).append
      { way := s.now, source := unitPackage, inc := s.recInc unitPackage, cls := 0, sev := 0, code := 0x16,
        ctx := [h, 0, 0, 0] ++ leBytes 2 (s.fget Reg.safeHealthWhyDegraded) ++ leBytes 2 (s.fget Reg.safeHealthWhyReplace) ++ zeros 4 }
  if s.pins.configured then { s with pins := { s.pins with status := s.statusValue } } else s

/-! ### Failed starts and paddock mode (R430 to R434) -/

/-- FAIL_COUNT as RST_STATUS shows it, stopping at 15: the value waiting to be written, where one waits (R431). -/
def State.showFailCount (s : State) : State :=
  s.fset Reg.rstStatusFailCount (min 15 (s.boot.failPending.getD s.nv.failCount))

/-- LAST_ATTEMPT's firmware part for a start that fails with a firmware slot in FW_VERIFY or later, before IMAGE_LOAD (R439, log 135). -/
def Nv.failFw (n : Nv) (fw : Option Nat) : Nv :=
  match fw with
  | none => n
  | some i => let a := n.attempt.getD (3, false, 0, false); { n with attempt := some (a.1, a.2.1, i, n.fwTrial == some i) }

/-- The failure of a start that wrote no marker is written to the studbook, FAIL_COUNT and LAST_ATTEMPT, or waits for the window
(R430, R431). -/
def State.writeFailCount (s : State) (v : Nat) : State :=
  (if s.nvOk then { s with nv := { s.nv with failCount := v }.failFw s.boot.fwSlot, boot := { s.boot with failPending := none } }
   else { s with boot := { s.boot with failPending := some v } }).showFailCount

/-- Causeway states of CWAY_STATUS.STATE (R298). -/
def cwClosed : Nat := 0
def cwOpening : Nat := 1
def cwOpen : Nat := 2
def cwClosing : Nat := 3

/-- Link states of LINK_STATUS.STATE. -/
def lkDark : Nat := 0
def lkTraining : Nat := 1
def lkUp : Nat := 2
def lkDegraded : Nat := 3
def lkDown : Nat := 4

/-- The two ports of an axis go DARK and its causeway is commanded to close (R298). -/
def State.closeAxis (s : State) (a : Nat) : State :=
  s.each [2 * a, 2 * a + 1] (fun s p =>
    let s := if s.fget (Reg.cwayStatusState.port p) = cwClosed then s else s.fset (Reg.cwayStatusState.port p) cwClosing
    (s.fset (Reg.linkStatusState.port p) lkDark).fset (Reg.linkStatusLanes.port p) 0)

/-- A rail switched off. -/
def Rail.off (r : Rail) : Rail := { r with on := false, good := false }

/-- The order in which the commanded rails turn on (R396). -/
def railOrder : List Nat := [15, 11, 12, 13, 14, 0, 1, 2, 3, 4, 5, 6, 7, 8, 9, 16]

/-- A rail is commanded over AVSBus; any other over PMBus (R394). -/
def overAvs (k : Nat) : Bool := decide (k < 8) || k == 10

/-- Address and rail select of a rail in the board sense table; the selects of R394 where it holds none (R395, R442). -/
def State.railAddress (s : State) (k : Nat) : Nat := s.userCfg 4 (576 + k) 1 (Config.pmbusAddress k % 128)
def State.railSelect (s : State) (k : Nat) : Nat := s.userCfg 4 (595 + k) 1 (if k < 8 then k else if k = 10 then 8 else 0xFF)

/-- PMBUS_RATE is 1 MHz (R442). -/
def State.pmbusFast (s : State) : Bool := s.userCfg 4 614 1 0 == 1

/-- The code of a PMBus command, and the data bytes of a value written with it (log 114). -/
def PmbusCmd.code : PmbusCmd → Nat
  | .operation => 0x01
  | .onOffConfig => 0x02
  | .clearFaults => 0x03
  | .voutCommand => 0x21
  | .statusWord => 0x79
  | .readVout => 0x8B
  | .readIout => 0x8C
  | .readTemperature1 => 0x8D
def PmbusCmd.data (c : PmbusCmd) (v : Nat) : List Nat :=
  match c with
  | .voutCommand => leBytes 2 (Config.voutWord v).toNat
  | .clearFaults => []
  | _ => [v % 256]

/-- The PEC of a message: the CRC-8 of SMBus over its bytes, polynomial x^8 + x^2 + x + 1 (log 114). -/
def pecBits : (n : Nat) → (crc : Nat) → Nat
  | 0, c => c
  | n + 1, c => pecBits n (if 128 ≤ c then Nat.xor (2 * c % 256) 7 else 2 * c)
def pec (bytes : List Nat) : Nat := bytes.foldl (fun c b => pecBits 8 (Nat.xor c b)) 0

/-- A PMBus write to rail k's regulator; an address of 0 is none (R395, R442). -/
def State.pmbusWrite (s : State) (k : Nat) (c : PmbusCmd) (v : Nat) : State :=
  let a := s.railAddress k
  if a = 0 then s else s.send (.pmbus s.pmbusFast a c v (pec ([2 * a % 256, c.code] ++ c.data v)))

/-- A rail's voltage is written, in µV; over PMBus the regulator is turned on or off with it (R394, R395, log 114). -/
def State.commandRail (s : State) (k uv : Nat) : State :=
  if overAvs k then (if s.railSelect k = 0xFF then s else s.send (.avs (s.railSelect k) uv))
  else if uv = 0 then s.pmbusWrite k .operation 0
  else (s.pmbusWrite k .voutCommand uv).pmbusWrite k .operation 0x80

/-- The status of rail k's regulator is read: its STATUS_WORD, or over AVSBus where it has no PMBus address (R395). -/
def State.readStatusOf (s : State) (k : Nat) : State :=
  let a := s.railAddress k
  if a ≠ 0 then s.send (.pmbusRead s.pmbusFast a .statusWord)
  else if overAvs k ∧ s.railSelect k ≠ 0xFF then s.send (.avsStatus (s.railSelect k)) else s

/-- The commanded rails that are on, but those of a list, turn off in reverse order within 5 ms (R396, R403). -/
def State.railsOffBut (s : State) (keep : List Nat) : State :=
  let s := s.each (railOrder.reverse.filter (fun k => (Map.get {} s.power.rails k).on && !keep.contains k)) (fun s k => s.commandRail k 0)
  { s with power := { s.power with
    rails := s.power.rails.map (fun e => (e.1, if keep.contains e.1 then e.2 else e.2.off)), turning := none, heldOff := false } }

def State.railsOff (s : State) : State := s.railsOffBut []

/-- Every defined partition stands QUIESCED (R434). -/
def State.quiesceAllForPaddock (s : State) : State :=
  s.each (List.range 32) (fun s p =>
    if (s.partGet p).st = .undef then s else s.partSet p { s.partGet p with st := .quiesced, returnWaits := false })

/-- In paddock mode CC6 keeps the management port running, which a start brings up in LINKS_UP (R434). -/
def State.keepPort (s : State) (stage : Nat) : State :=
  { s with safety := { s.safety with portUp := s.safety.portUp || decide (stage ≤ stLinksUp) } }

/-- A start that enters paddock mode before PINS_SET applies the factory pin defaults (R426). -/
def State.factoryPins (s : State) : State :=
  if s.pins.configured then s else
  { s with pins := { s.pins with configured := true, gpioCfg := List.replicate 16 0x08, statusOd := 0, drive := 0 } }

/-- Entry into paddock mode (R433, R434) for a REASON of RST_STATUS, with the fault-log code that failed the start.
A start that has written no marker adds 1 to FAIL_COUNT, but for REASON LIMIT (R430, R433). -/
def State.enterPaddock (s : State) (reason code : Nat) : State :=
  if s.paddock then s else
  let st := s.stage
  let s := if reason = 4 ∨ s.boot.marked then s else s.writeFailCount (s.nv.failCount + 1)
  let s := (s.raise Reg.rstStatusPaddock).raise Reg.rstStatusBootLock
  let s := ((s.fset Reg.rstStatusReason reason).fset Reg.rstFaultStage st).fset Reg.rstFaultCode code
  let s := (s.railsOff).quiesceAllForPaddock
  let s := s.keepPort st
  let s := s.each [0, 1, 2] State.closeAxis
  let s := s.traceRegs
  let s := s.factoryPins
  s.updateHealth

/-! ### Error reports (R457, R478, R480) -/

/-- The body of an ERROR_REPORT: record, scope, interval start, identifier, counts (R478). -/
def LogRec.bytes (r : LogRec) : List Nat :=
  leBytes 8 r.way ++ leBytes 4 r.source ++ leBytes 4 r.inc ++ [r.cls, r.sev] ++ leBytes 2 r.code ++ padTo 12 r.ctx

def Report.body (r : Report) : List Nat :=
  r.entry.bytes ++ leBytes 4 r.scope ++ leBytes 8 r.start ++ leBytes 4 r.id ++ leBytes 4 r.marked ++
  leBytes 4 r.poisoned ++ zeros 8

/-- An address of the MGMT group of the running user NV image (R476): 16 bytes at an offset of the image. -/
def State.mgmtAddr (s : State) (off : Nat) (dflt : List Nat) : List Nat :=
  if s.boot.user.isEmpty || !(field s.boot.user 6 2).testBit 2 then dflt else slice s.boot.user off 16

/-- FLEET_ADDR and FLEET_ADDR2 (R476). -/
def State.fleetAddr (s : State) : List Nat := s.mgmtAddr 70 ([0xFF, 0x02] ++ zeros 13 ++ [1])
def State.fleetAddr2 (s : State) : List Nat := s.mgmtAddr 86 (zeros 16)

/-- UDP_PORT, the VLAN tag where VLAN_ON asks for one, and the MAC address of the port (R475, R476). -/
def State.udpPort (s : State) : Nat := s.userCfg 2 52 2 7160
def State.vlanTag (s : State) : Option Nat := if (s.userCfg 2 49 1 0).testBit 0 then some (s.userCfg 2 50 2 0) else none
def State.macAddr (s : State) : List Nat := 2 :: slice s.nv.identity 0 5

/-- ADDR with PREFIX_LEN, and GATEWAY; addresses of zeros are none (R476). -/
def State.staticAddr (s : State) : List Nat := s.mgmtAddr 32 (zeros 16)
def State.prefixLen (s : State) : Nat := s.userCfg 2 48 1 64
def State.gateway (s : State) : List Nat := s.mgmtAddr 54 (zeros 16)
def State.kxOnly (s : State) : Bool := (s.userCfg 2 49 1 0).testBit 1

/-- The link-local address, from the MAC address (log 137). -/
def State.linkAddr (s : State) : List Nat :=
  let m := s.macAddr
  [0xFE, 0x80] ++ zeros 6 ++ [Nat.xor (m.headD 0) 2] ++ slice m 1 2 ++ [0xFF, 0xFE] ++ slice m 3 3

/-- An address reaches no further than the link: fe80::/10, or multicast of link scope. -/
def onLinkOnly (a : List Nat) : Bool := (a.headD 0 == 0xFE && a.getD 1 0 / 64 == 2) || (a.headD 0 == 0xFF && a.getD 1 0 % 16 == 2)

/-- Source address and next hop of a datagram (log 137): the static address beyond the link where there is one, and the gateway where
the destination lies outside ADDR's prefix. -/
def State.sourceFor (s : State) (dst : List Nat) : List Nat :=
  if allZero s.staticAddr || onLinkOnly dst then s.linkAddr else s.staticAddr
def State.hopFor (s : State) (dst : List Nat) : List Nat :=
  let n := 2 ^ (128 - min 128 s.prefixLen)
  let net := fun (a : List Nat) => leValue (padTo 16 a).reverse / n
  if onLinkOnly dst || dst.headD 0 == 0xFF || allZero s.gateway || (!allZero s.staticAddr && net dst == net s.staticAddr) then dst
  else s.gateway

/-- The IPv6 fragments of a UDP datagram of a number of bytes, under an MTU of 1,500: none where it fits (R475, log 137). -/
def fragments (n : Nat) : List (Nat × Nat) :=
  if n ≤ 1460 then [] else (List.range ((n + 1447) / 1448)).map (fun i => (1448 * i, min 1448 (n - 1448 * i)))

/-- The 32-byte header of a management message (R477). -/
def mgmtHeader (magic type flags : Nat) (identity : List Nat) (inc seq len req : Nat) : List Nat :=
  leBytes 4 magic ++ [1, type] ++ leBytes 2 flags ++ padTo 8 identity ++ leBytes 4 inc ++ leBytes 4 seq ++ leBytes 2 len ++
  [0, 0] ++ leBytes 4 req

def mgmtMagic : Nat := 0x4D4D574C

/-- A message of the device, with its CRC-32C: nothing that it sends is signed but the attestation report (R477, R481). -/
def State.mgmtMessage (s : State) (type req : Nat) (body : List Nat) : List Nat :=
  let m := mgmtHeader mgmtMagic type 0 s.nv.identity (s.incarnation unitPackage) s.safety.mgmtSeq body.length req ++ body
  m ++ leBytes 4 (crc32c m)

/-- A management message leaves for one address, while the port is up, with the next SEQ. -/
def State.mgmtTo (s : State) (dst : List Nat) (type req : Nat) (body : List Nat) : State :=
  if s.safety.portUp then
    { s with safety := { s.safety with mgmtSeq := (s.safety.mgmtSeq + 1) % 2 ^ 32 } }.send
      (.mgmt s.macAddr s.vlanTag (s.sourceFor dst) dst (s.hopFor dst) s.udpPort (s.mgmtMessage type req body)
        (fragments (8 + (s.mgmtMessage type req body).length)))
  else s

/-- A message to the fleet manager: to FLEET_ADDR, and to FLEET_ADDR2 where that is not zero (R476). -/
def State.mgmtSend (s : State) (type : Nat) (body : List Nat) : State :=
  let s := s.mgmtTo s.fleetAddr type 0 body
  if allZero s.fleetAddr2 then s else s.mgmtTo s.fleetAddr2 type 0 body

/-- CC6 runs and answers: not restarted by the watchdog, not halted (R460, R491). -/
def State.cc6Runs (s : State) : Bool := !s.safety.cc6Down && !s.coreHalted 6

/-- SAFE_STATUS.REPORTS follows the queue. -/
def State.setReports (s : State) (rs : List Report) : State :=
  ({ s with safety := { s.safety with reports := rs } }).fset Reg.safeStatusReports rs.length

/-- A REPORT_DROPPED record (R480). -/
def State.reportDropped (s : State) (id : Nat) : State :=
  (s.raise Reg.safeErrReportDropped).append
    { way := s.now, source := unitPackage, inc := s.recInc unitPackage, cls := 0, sev := 0, code := 0x17,
      ctx := leBytes 4 id ++ zeros 8 }

/-- A report for a DF or FATAL record: sent at once while the port is up and CC6 runs, else it waits; the 65th that
would wait is dropped (R480). -/
def State.report (s : State) (r : LogRec) (scope start marked poisoned : Nat) : State :=
  let id := s.safety.nextReport
  let s := { s with safety := { s.safety with nextReport := (id + 1) % 2 ^ 32 } }
  if 64 ≤ s.safety.reports.length then s.reportDropped id else
  let up := s.safety.portUp && s.cc6Runs
  let q : Report := ⟨r, scope, start, id, marked, poisoned, if up then 1 else 0⟩
  let s := s.setReports (s.safety.reports ++ [q])
  if up then (s.mgmtSend 0x02 q.body).bump Reg.safeReports else s

/-! ### Marking (R455) -/

/-- Partition `p` lies in a scope mask. -/
def inScope (scope p : Nat) : Bool := scope.testBit p

/-- Page records of the scope whose COMMIT_WAY lies at or after the interval start become POISONED; how many. -/
def State.poisonPages (s : State) (scope start : Nat) : State × Nat :=
  let hit := s.kv.pages.filter (fun e =>
    inScope scope (e.1 / 2 ^ 24) && e.2.st != .free && e.2.st != .poisoned && decide (start ≤ e.2.commitWay))
  (s.each hit (fun s e => s.setPage (e.1 / 2 ^ 24) (e.1 % 2 ^ 24) { s.page (e.1 / 2 ^ 24) (e.1 % 2 ^ 24) with st := .poisoned }), hit.length)

/-- The slot committed a step at or after the interval start, and is RUNNING or DONE. -/
def Slot.suspect (x : Slot) (start : Nat) : Bool :=
  (x.st == .running || x.st == .done) && (match x.lastCommit with | some w => decide (start ≤ w) | none => false)

/-- Slots of the scope enter FAULTED with DANGEROUS; how many. -/
def State.markSlots (s : State) (scope start : Nat) : State × Nat :=
  let hit := s.slots.filter (fun e => e.2.suspect start &&
    (match s.slotPart e.1 with | some p => inScope scope p | none => false))
  (s.each hit (fun s e =>
    match s.slotPart e.1 with
    | some p => (s.faultSlot p e.1 cDangerous).bump Reg.safeMarked
    | none => s), hit.length)

/-! ### Records -/

/-- The rule of R432 that a record fails a start: DF or FATAL before READY, or a UE before CAUSEWAY_OPEN whose source
is the hub, a rail, a DRAM stack or the non-volatile store (`hubUe`). -/
def State.failsStart (s : State) (sev : Nat) (hubUe : Bool) : Bool :=
  decide (s.stage < stReady) && !s.paddock && decide (0 < s.stage) &&
    (decide (2 ≤ sev) || (sev == 1 && hubUe && decide (s.stage < stCauseway)))

/-- A record of severity CE or UE. `hubUe` as in `failsStart`. -/
def State.recordAs (s : State) (hubUe : Bool) (sev cls code source : Nat) (ctx : List Nat) : State :=
  let s := s.append { way := s.now, source := source, inc := s.recInc source, cls := cls, sev := sev, code := code,
                      ctx := padTo 12 ctx }
  let s := if s.failsStart sev hubUe then s.enterPaddock 2 code else s
  s.updateHealth

def State.record (s : State) (sev cls code source : Nat) (ctx : List Nat) : State := s.recordAs false sev cls code source ctx

/-- FAULT_N goes low (R458). -/
def State.assertFaultN (s : State) : State := s.raise Reg.safeStatusFaultN

/-- DF and FATAL records that wait for the window of R407 go to the studbook, which keeps the last 64 (R471). -/
def State.keepFaults (s : State) : State :=
  let ws := s.safety.nvWaiting
  if !s.nvOk || ws.isEmpty then s else
  { s with nv := { s.nv with faults := (s.nv.faults ++ ws).drop (s.nv.faults.length + ws.length - 64) },
           safety := { s.safety with nvWaiting := [] } }

/-- A dangerous failure is detected (R454, R455): its DF or FATAL record, marking of the scope from the interval start,
FAULT_N, the FAULT event, the error report, the studbook copy, health, and a failed start before READY. -/
def State.danger (s : State) (sev cls code source : Nat) (ctx : List Nat) (scope start : Nat) : State :=
  let r : LogRec := { way := s.now, source := source, inc := s.recInc source, cls := cls, sev := sev, code := code,
                      ctx := padTo 12 ctx }
  let s := s.append r
  let s := s.bump Reg.safeDfCount
  let s := { s with safety := { s.safety with dfCount := s.safety.dfCount + 1, dfSeen := s.safety.dfSeen || sev == 2 } }
  let s := { s with safety := { s.safety with nvWaiting := s.safety.nvWaiting ++ [r] } }.keepFaults
  let s := s.assertFaultN.pkgEvent .fault
  let (s, poisoned) := s.poisonPages scope start
  let (s, marked) := s.markSlots scope start
  let s := s.report r scope start marked poisoned
  let s := if s.failsStart sev false then s.enterPaddock 2 code else s
  s.updateHealth

/-- Every partition, as a scope mask. -/
def scopeAll : Nat := 0xFFFFFFFF

/-- A TEAM_FAULT record of R523. `team` names the team, or the string where `seq`; `layer`, `tile`, `group` 0xFF for
none; `milepost` the number the failed step would have taken; `extra` context bytes 8 to 11. -/
def State.teamFault (s : State) (seq : Bool) (unit cause layer tile group milepost extra : Nat) : State :=
  s.record 1 0 0x20 (if seq then unitString unit else unitTeam unit)
    ([cause, layer, tile, group] ++ leBytes 4 milepost ++ leBytes 4 extra)

/-! ### Stopping and restarting regions (R370) -/

/-- A region's clocks are gated, with the waymark of the stop. -/
def State.stopRegion (s : State) (r : Nat) : State :=
  if (s.region r).stopped then s else s.setRegion r { s.region r with stopped := true, stopWay := s.now }

def State.stopAll (s : State) : State := s.each (List.range 33) State.stopRegion

/-- A region restarts: before any other entry it emits RESUME, with the waymark of the stop and the cause (R370). -/
def State.startRegion (s : State) (r cause : Nat) : State :=
  if !(s.region r).stopped then s else
  let w := (s.region r).stopWay
  let s := s.setRegion r { s.region r with stopped := false, dbg := false }
  s.enqueueTrace (s.traceEntry (if r = 32 then unitPackage else unitString r) 0x01 (leBytes 8 w ++ [cause]))

/-! ### PCI Express (R354, R359, R360) -/

/-- An error is logged and, unless its severity is masked, reported through the AER capability of a function (R359): 0 correctable, 1
non-fatal, 2 fatal. -/
def State.aerReport (s : State) (fn sev : Nat) : State :=
  let c := s.fnCfg fn
  let s := s.setFnCfg fn { c with aer := setBit c.aer sev }
  if c.aerMask.testBit sev then s else s.send (.aer fn sev)

/-- A record of R360. -/
def State.pciRecord (s : State) (sev code fn part addr : Nat) : State :=
  s.record sev 0 code unitPackage (leBytes 2 fn ++ leBytes 2 part ++ leBytes 8 addr)

/-- The partition whose function `fn` is, or 0xFFFF. -/
def State.fnPart (s : State) (fn : Nat) : Nat := if fn = 0 then 0xFFFF else (s.vfPart fn).getD 0xFFFF

/-- A poisoned write is dropped (R359). -/
def State.poisonedWrite (s : State) (fn off : Nat) : State :=
  let s := ((s.raise Reg.pciErrPoisonRx).bump Reg.pciPoisonCount).pciRecord 0 0x71 fn (s.fnPart fn) off
  (s.aerReport fn 1).pkgEvent .pci

/-- A host access that the device made ended in an error: its own, or the link was down (R354). -/
def State.dmaError (s : State) (err : Bool) : Bool := err || s.pci.lost

/-- An address of a function has its translation, requested where ATS is enabled and the cache of 4,096 lacks it (R358). -/
def State.translated (s : State) (fn a : Nat) : State :=
  if !(s.fnCfg fn).ats || s.pci.atc.any (fun e => e.1 == fn && decide (e.2.1 ≤ a ∧ a < e.2.1 + 2 ^ e.2.2)) then s else
  let n := clampNat 12 30 (Config.pageBits fn a)
  let old := s.pci.atc.drop (s.pci.atc.length - 4095)
  { s with pci := { s.pci with atc := old ++ [(fn, a / 2 ^ n * 2 ^ n, n)] } }.send (.translate fn a)

/-- Bytes that the device writes to host memory for a function; with the link down none arrives. -/
def State.toHost (s : State) (fn a : Nat) (b : List Nat) : State :=
  if s.pci.lost then s else (s.translated fn a).send (.hostWrite a b)

end Sys2Proof.Machine
end

