-- ==== Sys2Proof/Machine/Operands.lean ====
section
/-!
DEFINITION. The operand forms of the sequencer's 64-bit instruction words (R184) and of the records that the harness
and the step carry: model, layer, placement and expert records (R173 to R179) and the group descriptor (R185).
-/
namespace Sys2Proof.Machine

/-! ### Instruction words (R184) -/

/-- A sequencer instruction, its operands as R184 lists them. -/
inductive SeqOp where
  | nop
  | lda (a off : Nat)
  | adda (a : Nat) (imm : Int)
  | loop (count len : Nat)
  | gopen (team a : Nat)
  | gclose (team group : Nat)
  | gwait (team group : Nat)
  | vec (layer group a vectors : Nat)
  | gate (set topk inp disp vectors : Nat)
  | vu (team func a b d count : Nat)
  | loadm (model : Nat)
  | swap (model : Nat)
  | swapat (model a : Nat)
  | signal (str flag : Nat)
  | waitf (flag count : Nat)
  | coll (a : Nat)
  | milepost (tag : Nat)
  | seqEnd
  deriving DecidableEq, Repr

/-- The operand fields of a word: from bit 55 downward in the listed widths; `none` when an unused bit is not 0. -/
def operandFields (w : Nat) (widths : List Nat) : Option (List Nat) :=
  let rec go (top : Nat) : List Nat → List Nat × Nat
    | [] => ([], top)
    | n :: ns => let r := go (top - n) ns; (bits w (top - 1) (top - n) :: r.1, r.2)
  let r := go 56 widths
  if w % 2 ^ r.2 = 0 then some r.1 else none

/-- The FUNC values of R181, bit 7 cleared. -/
def vuFuncs : List Nat :=
  [0x00, 0x01, 0x02, 0x03, 0x04, 0x05, 0x06, 0x07, 0x08, 0x09, 0x0A, 0x0B, 0x0C, 0x0D, 0x10, 0x11, 0x18, 0x19] ++
  [0x20, 0x21, 0x22, 0x23, 0x24, 0x25, 0x28, 0x29, 0x2A, 0x2B, 0x2C, 0x2D]

/-- The instruction that a word spells; `none` where its opcode or an unused bit breaks R184. -/
def decodeSeq (w : Nat) : Option SeqOp :=
  match w / 2 ^ 56 with
  | 0x00 => (operandFields w []).map (fun _ => .nop)
  | 0x01 => match operandFields w [4, 32] with | some [a, o] => some (.lda a o) | _ => none
  | 0x02 => match operandFields w [4, 32] with | some [a, i] => some (.adda a (toSigned 32 i)) | _ => none
  | 0x03 => match operandFields w [16, 16] with | some [c, l] => some (.loop c l) | _ => none
  | 0x10 => match operandFields w [5, 4] with | some [t, a] => some (.gopen t a) | _ => none
  | 0x11 => match operandFields w [5, 4] with | some [t, g] => some (.gclose t g) | _ => none
  | 0x12 => match operandFields w [5, 4] with | some [t, g] => some (.gwait t g) | _ => none
  | 0x20 => match operandFields w [12, 4, 4, 16] with | some [l, g, a, v] => some (.vec l g a v) | _ => none
  | 0x28 => match operandFields w [8, 4, 4, 4, 16] with | some [e, t, i, d, v] => some (.gate e t i d v) | _ => none
  | 0x30 => match operandFields w [5, 8, 4, 4, 4, 24] with | some [t, f, a, b, d, c] => some (.vu t f a b d c) | _ => none
  | 0x38 => match operandFields w [4] with | some [m] => some (.loadm m) | _ => none
  | 0x39 => match operandFields w [4] with | some [m] => some (.swap m) | _ => none
  | 0x3A => match operandFields w [4, 4] with | some [m, a] => some (.swapat m a) | _ => none
  | 0x3B => match operandFields w [5, 8] with | some [x, f] => some (.signal x f) | _ => none
  | 0x3C => match operandFields w [8, 8] with | some [f, c] => some (.waitf f c) | _ => none
  | 0x3D => match operandFields w [4] with | some [a] => some (.coll a) | _ => none
  | 0x3E => match operandFields w [16] with | some [t] => some (.milepost t) | _ => none
  | 0x3F => (operandFields w []).map (fun _ => .seqEnd)
  | _ => none

/-- The TEAM and FUNC operands of an instruction lie in their ranges (R184). -/
def SeqOp.legal : SeqOp → Bool
  | .gopen t _ | .gclose t _ | .gwait t _ => decide (t < 24)
  | .vu t f _ _ _ _ => decide (t < 24) && vuFuncs.contains (f % 128)
  | _ => true

/-! ### Program words of a code area -/

/-- The instruction words of `n` bytes of code. -/
def codeWords (b : List Nat) (off n : Nat) : List Nat := (List.range (n / 8)).map (fun i => field b (off + 8 * i) 8)

/-- LOOP rules of R184 over a code area: `ends` are the ends (instruction indexes) of the enclosing loops, innermost
first. True when every LOOP has LENGTH at least 1, lies in the remaining code and in its enclosing body, at most 4 deep. -/
def loopsOk : (i : Nat) → (total : Nat) → (ends : List Nat) → List Nat → Bool
  | _, _, _, [] => true
  | i, total, ends, w :: ws =>
    let open_ := ends.filter (fun e => decide (i < e))
    match decodeSeq w with
    | some (.loop _ len) =>
      decide (1 ≤ len) && decide (i + 1 + len ≤ total) && decide (open_.length < 4) &&
        open_.all (fun e => decide (i + 1 + len ≤ e)) && loopsOk (i + 1) total ((i + 1 + len) :: open_) ws
    | _ => loopsOk (i + 1) total open_ ws

/-- A string's program obeys R184 and R183: `models` is MODEL_COUNT, `dlen` the data area's length. -/
def programOk (models dlen : Nat) (ws : List Nat) : Bool :=
  ws.all (fun w =>
    match decodeSeq w with
    | none => false
    | some op => op.legal &&
      (match op with
       | .lda _ o => decide (o + 8 ≤ dlen)
       | .loadm m | .swap m | .swapat m _ => decide (m < models)
       | _ => true)) &&
  loopsOk 0 ws.length [] ws

/-! ### Records of the HARNESS body (R172 to R179) -/

/-- A layer record (R174) with the fields of its ARRAY and FORMAT words. -/
structure Layer where
  inFmt : Nat
  pair : Bool
  segScale : Bool
  floor : Nat
  outThresh : Nat
  clampPolicy : Bool
  ovfLimit : Nat
  checkWeight : Nat
  satLimit : Nat
  uflLimit : Nat
  inMx : Nat
  stochastic : Bool
  span : Nat
  spreadPos : Bool
  rowSegs : Nat
  colBlocks : Nat
  firstPlace : Nat
  places : Nat
  model : Nat
  reservedOk : Bool
  deriving DecidableEq, Repr

/-- A placement record (R175). -/
structure Place where
  zeroChains : Nat
  loc : Nat
  colBlock : Nat
  rowSeg : Nat
  plane : Nat
  role : Nat
  team : Nat
  reservedOk : Bool
  deriving DecidableEq, Repr

/-- A model record (R173). -/
structure Model where
  firstLayer : Nat
  layers : Nat
  home : Nat
  stageUnit : Nat
  reservedOk : Bool
  deriving DecidableEq, Repr

/-- An expert record (R179). -/
structure Expert where
  set : Nat
  position : Nat
  firstLayer : Nat
  layers : Nat
  home : Nat
  whr : Nat
  reservedOk : Bool
  deriving DecidableEq, Repr

/-- Layer record `l` of a HARNESS body. -/
def harnessLayer (b : List Nat) (l : Nat) : Layer :=
  let o := field b 20 4 + 32 * l
  let a := field b o 4
  let f := field b (o + 8) 4
  { inFmt := bits a 0 0, pair := a.testBit 1, segScale := a.testBit 2, floor := bits a 5 3, outThresh := bits a 13 6,
    clampPolicy := a.testBit 14, ovfLimit := bits a 22 15, checkWeight := bits a 24 23,
    satLimit := field b (o + 4) 2, uflLimit := field b (o + 6) 2,
    inMx := bits f 2 0, stochastic := f.testBit 3, span := bits f 6 4, spreadPos := f.testBit 7,
    rowSegs := field b (o + 12) 2, colBlocks := field b (o + 14) 2, firstPlace := field b (o + 16) 4,
    places := field b (o + 20) 4, model := field b (o + 24) 2,
    reservedOk := a / 2 ^ 25 == 0 && f / 256 == 0 && field b (o + 26) 6 == 0 }

/-- Placement record `i`. -/
def harnessPlace (b : List Nat) (i : Nat) : Place :=
  let w := field b (field b 24 4 + 8 * i) 8
  { zeroChains := bits w 63 48, loc := bits w 47 42, colBlock := bits w 41 30, rowSeg := bits w 29 22,
    plane := bits w 16 16, role := bits w 15 10, team := bits w 9 0, reservedOk := bits w 21 17 == 0 }

/-- Model record `m`. -/
def harnessModel (b : List Nat) (m : Nat) : Model :=
  let o := field b 16 4 + 16 * m
  { firstLayer := field b o 2, layers := field b (o + 2) 2, home := field b (o + 4) 1, stageUnit := field b (o + 8) 4,
    reservedOk := field b (o + 5) 3 == 0 && field b (o + 12) 4 == 0 }

/-- Expert record `e`. -/
def harnessExpert (b : List Nat) (e : Nat) : Expert :=
  let o := field b 28 4 + 16 * e
  { set := field b o 2, position := field b (o + 2) 2, firstLayer := field b (o + 4) 2, layers := field b (o + 6) 1,
    home := field b (o + 7) 1, whr := field b (o + 8) 4, reservedOk := field b (o + 12) 4 == 0 }

def harnessLayers (b : List Nat) : List Layer := (List.range (field b 6 2)).map (harnessLayer b)
def harnessModels (b : List Nat) : List Model := (List.range (field b 4 2)).map (harnessModel b)
def harnessExperts (b : List Nat) : List Expert := (List.range (field b 12 2)).map (harnessExpert b)

/-- The placements of layer `l`. -/
def layerPlaces (b : List Nat) (l : Nat) : List Place :=
  let r := harnessLayer b l
  (List.range r.places).map (fun i => harnessPlace b (r.firstPlace + i))

/-- The layers of model `m`. -/
def modelLayers (b : List Nat) (m : Nat) : List Nat :=
  let r := harnessModel b m
  (List.range r.layers).map (fun i => r.firstLayer + i)

/-- The placements of model `m`. -/
def modelPlaces (b : List Nat) (m : Nat) : List Place := ((modelLayers b m).map (layerPlaces b)).flatten

/-- Directory entry of string `x` (R183): code offset and length, data offset and length; the offsets are counted from the start
of the body, as R172 has all offsets (DEDUCED, log 88). -/
def progDir (b : List Nat) (x : Nat) : Nat × Nat × Nat × Nat :=
  let o := field b 32 4 + 16 * x
  (field b o 4, field b (o + 4) 4, field b (o + 8) 4, field b (o + 12) 4)

/-- A string's code and data bytes. -/
def progCode (b : List Nat) (x : Nat) : List Nat := slice b (progDir b x).1 (progDir b x).2.1
def progData (b : List Nat) (x : Nat) : List Nat := slice b (progDir b x).2.2.1 (progDir b x).2.2.2

/-! ### The group descriptor (R185) -/

/-- The 64 bytes of a group descriptor. -/
def parseGroup (b : List Nat) : GroupDesc :=
  let c := field b 0 4
  let h := field b 4 4
  { topkK := bits c 25 19, topkAsc := c.testBit 18, outMx := bits c 17 15, biasFmt := bits c 14 13, init := bits c 12 11,
    mode := bits c 10 10, layer := bits c 9 4, group := bits c 3 0, fix := bits h 31 24, vectors := bits h 23 16 + 1,
    width := bits h 15 8 + 1, first := bits h 7 0, topkLen := field b 8 2 + 1, biasAddr := field b 16 8,
    outAddr := field b 24 8, topkAddr := field b 32 8 }

end Sys2Proof.Machine
end

