-- ==== Sys2Proof/Machine/Image.lean ====
section
/-!
DEFINITION. Images and their checks: the Volzal image (R25 to R38, R45), the validation of every section (R33, R34,
R176, R193, R256, R257, R302, R345, R378, R417, R467, R483, R502, R526), the user NV image (R442, R443, R518) and the
firmware image (R441).
-/
namespace Sys2Proof.Machine

/-- A number lies in a range. -/
def inRange (lo hi n : Nat) : Bool := decide (lo ≤ n ∧ n ≤ hi)

/-- No two of the intervals (first, count) overlap. -/
def disjoint : List (Nat × Nat) → Bool
  | [] => true
  | (a, n) :: xs => xs.all (fun y => decide (n = 0 ∨ y.2 = 0 ∨ a + n ≤ y.1 ∨ y.1 + y.2 ≤ a)) && disjoint xs

/-- No value stands twice in the list. -/
def noRepeat : List Nat → Bool
  | [] => true
  | x :: xs => !xs.contains x && noRepeat xs

/-! ### Signatures (R29, R35) -/

/-- A 3,324-byte signature block over a 64-byte digest, judged under R35: 0 accepted, 1 a key failure (SIG_TYPE or
KEY_ID), 2 a signature failure. R29 has KEY_ID and SIGNATURE 0 with SIG_TYPE NONE and names no code for other values: they
are not looked at (DESIGN CHOICE, log 83). -/
def State.judgeSignature (s : State) (digest block : List Nat) (context : String) : Nat :=
  let t := field block 0 1
  let kid := slice block 4 8
  let sig := slice block 12 3309
  if s.nv.ownerKey.isEmpty then
    if t = 0 then 0 else
    if t = 1 then
      match s.nv.imageKeys.find? (fun k => keyId k == kid) with
      | none => 1
      | some k => if Config.mldsaVerify k digest sig context then 0 else 2
    else 1
  else if t = 2 ∧ kid = keyId s.nv.ownerKey then
    if Config.mldsaVerify s.nv.ownerKey digest sig context then 0 else 2
  else 1

/-! ### The container (R25 to R29) -/

/-- VOLZ_RESULT codes (R38). -/
def vrNone : Nat := 0x00
def vrDone : Nat := 0x01
def vrBusy : Nat := 0x02
def vrFormat : Nat := 0x03
def vrPart : Nat := 0x04
def vrDigest : Nat := 0x05
def vrKey : Nat := 0x06
def vrSignature : Nat := 0x07
def vrVersion : Nat := 0x08
def vrScope : Nat := 0x09
def vrCritical : Nat := 0x0A
def vrContent : Nat := 0x0B
def vrInstallation : Nat := 0x0C
def vrNotQuiesced : Nat := 0x0D
def vrAborted : Nat := 0x0E
def vrDma : Nat := 0x0F
def vrNotReady : Nat := 0x10
def vrTooLarge : Nat := 0x11

/-- The outcome of a check: VOLZ_RESULT's CODE and SECTION. -/
abbrev Verdict := Nat × Nat

/-- SECTION where no section is named. -/
def noSection : Nat := 0xFFFF

/-- The next multiple of 64. -/
def up64 (n : Nat) : Nat := (n + 63) / 64 * 64

/-- Directory offsets. -/
def dirOffsets (b : List Nat) : List Nat := (List.range (field b 0x0C 2)).map (fun i => field b (128 + 4 * i) 4)

/-- The section at an offset (R28). -/
def sectAt (b : List Nat) (o : Nat) : Sect :=
  { type := field b o 2, version := field b (o + 2) 2, scope := field b (o + 8) 4, flags := field b (o + 4) 2, digest := slice b (o + 32) 64,
    body := slice b (o + 96) (field b (o + 12) 4), ignored := false }

/-- Header and section header fields of step 1 of R37 for one section that may begin at `free` at the earliest and must
end by `stop`: aligned, padded with zeros, reserved fields 0, in order after the previous type and scope. -/
def sectionsOk (b : List Nat) (stop : Nat) : (free : Nat) → (prev : Nat × Nat) → List Nat → Bool
  | free, _, [] => decide (free ≤ stop) && allZero (slice b free (stop - free))
  | free, prev, o :: os =>
    let len := field b (o + 12) 4
    let type := field b o 2
    let scope := field b (o + 8) 4
    decide (o % 64 = 0) && decide (free ≤ o) && decide (o + up64 (96 + len) ≤ stop) && decide (len ≤ 0x04000000) &&
      allZero (slice b free (o - free)) && allZero (slice b (o + 96 + len) (up64 (96 + len) - (96 + len))) &&
      decide (field b (o + 4) 2 / 2 = 0) && allZero (slice b (o + 6) 2) && allZero (slice b (o + 16) 16) &&
      decide (prev.1 < type ∨ (prev.1 = type ∧ prev.2 ≤ scope)) &&
      sectionsOk b stop (o + up64 (96 + len)) (type, scope) os

/-- Step 1 of R37, with R45: `xfer` is the transfer length, `part` whether a partial image is due. -/
def formatOk (b : List Nat) (xfer : Nat) (part : Bool) : Bool :=
  let total := field b 8 4
  let n := field b 0x0C 2
  decide (3388 + 128 ≤ total) && field b 0 4 == 0x4C5A4C56 && field b 4 2 == 1 && field b 6 2 == 128 &&
  total == xfer && decide (total ≤ 0x10000000) && inRange 1 128 n && decide (field b 0x0E 2 / 4 = 0) &&
  ((field b 0x0E 2).testBit 0 == part) && field b 0x16 2 == 0 && field b 0x30 4 == 128 &&
  allZero (slice b 0x34 12) && allZero (slice b 0x60 32) &&
  sectionsOk b (total - 3388) (128 + 4 * n) (0, 0) (dirOffsets b) &&
  allZero (slice b (total - 3324 + 1) 3) && allZero (slice b (total - 3324 + 3321) 3)

/-- The first index of a list at which `f` holds. -/
def firstIdx {α : Type} (f : α → Bool) (xs : List α) : Option Nat :=
  (List.range xs.length).find? (fun i => match xs[i]? with | some x => f x | none => false)

/-! ### Section types (R30) -/

def isPkgType (t : Nat) : Bool := inRange 1 7 t
def isPartType (t : Nat) : Bool := inRange 0x10 0x11 t

/-- A section's scope agrees with its type; `defined` tells the defined partitions. A section of unknown type has a scope of
either form, whatever partitions are defined (DESIGN CHOICE, log 120). -/
def scopeOk (defined : Nat → Bool) (x : Sect) : Bool :=
  if isPkgType x.type then x.scope == pkgScope
  else if isPartType x.type then decide (x.scope < 32) && defined x.scope
  else x.scope == pkgScope || decide (x.scope < 32)

/-- The first section that repeats the type and scope of the one before it, if there is one. -/
def duplicateAt : (prev : Option (Nat × Nat)) → (i : Nat) → List Sect → Option Nat
  | _, _, [] => none
  | prev, i, x :: xs => if some (x.type, x.scope) = prev then some i else duplicateAt (some (x.type, x.scope)) (i + 1) xs

/-- A field of a section of a list. -/
def sectIn? (cfg : List Sect) (type scope : Nat) : Option Sect :=
  cfg.find? (fun x => x.type == type && x.scope == scope && !x.ignored)

def bodyIn (cfg : List Sect) (type scope : Nat) : List Nat :=
  match sectIn? cfg type scope with | some x => x.body | none => []

/-- Partition record field of a configuration (R344). -/
def recIn (cfg : List Sect) (p off n : Nat) : Nat := field (bodyIn cfg 2 pkgScope) (32 + 28 * p + off) n

/-- DRAM share of a partition in a configuration (R33): first unit, count. -/
def shareIn (cfg : List Sect) (p : Nat) : Nat × Nat :=
  (field (bodyIn cfg 3 pkgScope) (8 * p) 4, field (bodyIn cfg 3 pkgScope) (8 * p + 4) 4)

/-! ### Validation of the package sections (step 8 of R37): true when the owner accepts -/

/-- CLOCK (R378). -/
def clockOk (b : List Nat) : Bool :=
  b.length == 160 && decide (field b 0 1 ≤ 1) && (List.range 4).all (fun i => decide (field b (1 + i) 1 ≤ 3)) &&
  (List.range 3).all (fun i => field b (1 + i) 1 != 0 || field b (2 + i) 1 == 0) &&
  decide (field b 5 1 ≤ 127) && decide (field b 6 2 < 4096) && decide (field b 8 1 ≤ 1) && allZero (slice b 9 151)

/-- One record of PARTITION (R344). -/
def partRecOk (b : List Nat) (p : Nat) : Bool :=
  let o := 32 + 28 * p
  if field b o 4 = 0 then allZero (slice b o 28) else
  inRange 1 32 (field b (o + 4) 1) && decide (field b (o + 5) 1 ≤ 1) && inRange 1 16384 (field b (o + 8) 2) &&
  decide (field b (o + 6) 2 + field b (o + 8) 2 ≤ 16384) && decide (field b (o + 10) 2 ≤ 751) &&
  decide (field b (o + 10) 2 + field b (o + 12) 2 ≤ 752) &&
  (List.range 4).all (fun i => field b (o + 14 + i) 1 != 0) && inRange 1 15 (field b (o + 18) 1) &&
  allZero (slice b (o + 19) 9)

/-- PARTITION (R343, R345). -/
def partitionOk (b : List Nat) : Bool :=
  let def_ := (List.range 32).filter (fun p => field b (32 + 28 * p) 4 != 0)
  b.length == 928 && inRange 1 32 (field b 0 1) && field b 0 1 == def_.length && field b 1 1 != 0 &&
  (List.range 8).all (fun i => decide (field b (2 + i) 1 ≤ 63)) && decide (field b 10 2 ≤ 1000) && allZero (slice b 12 20) &&
  (List.range 32).all (partRecOk b) &&
  (List.range 32).all (fun x => decide ((def_.filter (fun p => (field b (32 + 28 * p) 4).testBit x)).length ≤ 1)) &&
  noRepeat (def_.map (fun p => field b (32 + 28 * p + 4) 1)) &&
  disjoint (def_.map (fun p => (field b (32 + 28 * p + 6) 2, field b (32 + 28 * p + 8) 2))) &&
  disjoint (def_.map (fun p => (field b (32 + 28 * p + 10) 2, field b (32 + 28 * p + 12) 2)))

/-- A partition is defined in a configuration. -/
def definedIn (cfg : List Sect) (p : Nat) : Bool := recIn cfg p 0 4 != 0

/-- How many units of an interval stand in stack `k` by number (R21). -/
def unitsMod (first count k : Nat) : Nat :=
  let upto (n : Nat) : Nat := (n + 7 - k) / 8
  upto (first + count) - upto first

/-- Units of the tier where image staging begins (R32), and the tier's size. -/
def stagingUnit : Nat := 6283264
def tierUnits : Nat := 6291456

/-- MEMORY (R33, R34). The interleaved units of a stack are those of the partition shares and the staging area outside
every region whose number mod 8 is the stack (log 20). R34 speaks of one region: regions that name one stack must fit
together (DESIGN CHOICE, log 84). -/
def memoryOk (cfg : List Sect) (b : List Nat) : Bool :=
  let n := field b 256 4
  let shares : List (Nat × Nat) := (List.range 32).map (fun p => (field b (8 * p) 4, field b (8 * p + 4) 4))
  let reg : Nat → Nat × Nat := fun i => (field b (272 + 16 * i) 4, field b (276 + 16 * i) 4)
  let regs := (List.range n).map reg
  decide (n ≤ 64) && b.length == 272 + 16 * n && allZero (slice b 260 12) &&
  shares.all (fun x => x.2 == 0 || decide (x.1 + x.2 ≤ stagingUnit)) && disjoint shares && disjoint regs &&
  (List.range 32).all (fun p => definedIn cfg p || field b (8 * p + 4) 4 == 0) &&
  (List.range n).all (fun i =>
    let p := field b (281 + 16 * i) 1
    decide (field b (280 + 16 * i) 1 ≤ 7) && decide (p ≤ 31) && allZero (slice b (282 + 16 * i) 6) &&
    decide (field b (8 * p) 4 ≤ (reg i).1 ∧ (reg i).1 + (reg i).2 ≤ field b (8 * p) 4 + field b (8 * p + 4) 4)) &&
  (List.range 8).all (fun k =>
    let assigned := ((shares ++ [(stagingUnit, 8192)]).map (fun (x : Nat × Nat) => unitsMod x.1 x.2 k)).sum
    let taken := (regs.map (fun (x : Nat × Nat) => unitsMod x.1 x.2 k)).sum
    let named := (((List.range n).filter (fun i => field b (280 + 16 * i) 1 == k)).map (fun i => (reg i).2)).sum
    decide (assigned - taken + named ≤ 786432))

/-- The stack in which a 64 KiB unit of the tier lies: the one that its stack-local region names, else by its number (R21). -/
def unitStack (b : List Nat) (u : Nat) : Nat :=
  match (List.range (field b 256 4)).find? (fun i =>
      decide (field b (272 + 16 * i) 4 ≤ u ∧ u < field b (272 + 16 * i) 4 + field b (276 + 16 * i) 4)) with
  | some i => field b (280 + 16 * i) 1
  | none => u % 8

/-- The stack of a unit under the running configuration. -/
def State.stackOf (s : State) (u : Nat) : Nat := unitStack (s.body 3 pkgScope) u

/-- ROUTE (R301, R302): `pos` is the package's position and `identity` its IDENTITY. -/
def routeOk (cfg : List Sect) (pos : Nat) (identity b : List Nat) : Bool :=
  let dim := fun a => field b a 1
  let circ := fun (a : Nat) => (field b 3 1).testBit a
  let rings := field b 4 1
  let count := field b 16 4
  let defMask := (List.range 32).filter (definedIn cfg)
  let maskOk := fun (m : Nat) => (List.range 32).all (fun p => !m.testBit p || defMask.contains p)
  let x := pos % 16
  let y := pos / 16 % 16
  let z := pos / 256 % 16
  let po := 1696 + 64 * (x + dim 0 * (y + dim 1 * z))
  [0, 1, 2].all (fun a => inRange 1 (if circ a then 16 else 8) (dim a)) && decide (field b 3 1 / 64 = 0) &&
  decide (rings ≤ 96) && decide (field b 5 1 ≤ 1) && decide (field b 6 1 ≤ 2) && field b 7 1 == 0 &&
  inRange 100 100000 (field b 8 4) && inRange 500 30000 (field b 12 2) && field b 14 2 == 0 &&
  count == dim 0 * dim 1 * dim 2 && allZero (slice b 20 44) && b.length == 1696 + 64 * count &&
  (List.range 6).all (fun p =>
    decide (field b (64 + 16 * p) 1 ≤ 2) && allZero (slice b (65 + 16 * p) 3) && allZero (slice b (72 + 16 * p) 8) &&
    (decide (dim (p / 2) ≠ 1) || field b (64 + 16 * p) 1 == 0)) &&
  (List.range 96).all (fun i =>
    let o := 160 + 16 * i
    if rings ≤ i then allZero (slice b o 16) else
    let a := field b o 1
    decide (a ≤ 2) && decide (field b (o + 1) 1 ≤ 1) && decide (dim a ≠ 1) && decide (field b (o + 2) 1 < dim a) &&
    decide (field b (o + 3) 1 < dim a) && maskOk (field b (o + 4) 4) && allZero (slice b (o + 8) 8)) &&
  (List.range count).all (fun i =>
    decide (field b (1696 + 64 * i + 24) 1 ≤ 1) && allZero (slice b (1696 + 64 * i + 25) 39)) &&
  decide (x < dim 0 ∧ y < dim 1 ∧ z < dim 2) && field b (po + 24) 1 == 1 &&
  (allZero (slice b po 8) || slice b po 8 == identity)

/-- LIMIT (R417). -/
def limitOk (b : List Nat) : Bool :=
  b.length == 160 && inRange 600 1500 (field b 2 2) && inRange 600 (field b 2 2) (field b 0 2) && decide (field b 4 1 ≤ 64) &&
  inRange 1 32 (field b 5 1) && inRange 70 105 (field b 6 1) && inRange (field b 6 1 + 5) 120 (field b 7 1) &&
  inRange 70 100 (field b 8 1) && inRange (field b 8 1 + 5) 115 (field b 9 1) && inRange 60 85 (field b 10 1) &&
  inRange (field b 10 1 + 5) 95 (field b 11 1) && inRange 1 20 (field b 12 1) && inRange 1 10 (field b 13 1) &&
  inRange 20 80 (field b 14 1) && allZero (slice b 15 145)

/-- Bit patterns of FP32 0.5 and 8.0; for numbers not negative the patterns order as the values do. -/
def fpHalf : Nat := 0x3F000000
def fpEight : Nat := 0x41000000

/-- The twin entries of a SAFETY body: partition, model, twin model (R483). -/
def twinsOf (b : List Nat) : List (Nat × Nat × Nat) :=
  (List.range (field b 24 1)).map (fun i => (field b (32 + 4 * i) 1, field b (33 + 4 * i) 1, field b (34 + 4 * i) 1))

/-- The teams that hold a placement of a model of partition `p`. -/
def teamsIn (cfg : List Sect) (p m : Nat) : List Nat := (modelPlaces (bodyIn cfg 0x10 p) m).map (·.team)

/-- The holders of the caches whose first layer belongs to a model. -/
def holdersIn (cfg : List Sect) (p m : Nat) : List Nat :=
  let sv := bodyIn cfg 0x11 p
  let h := bodyIn cfg 0x10 p
  ((List.range (field sv 30 2)).filter (fun c => (harnessLayer h (field sv (288 + 16 * c) 2)).model == m &&
      decide (field sv (288 + 16 * c) 2 < field h 6 2))).map (fun c => field sv (288 + 16 * c + 8) 2)

/-- RESULT_MODE and OUT_TOPK of a model, with the defaults of R257. -/
def resultModeIn (cfg : List Sect) (p m : Nat) : Nat × Nat :=
  match sectIn? cfg 0x11 p with
  | some x => (field x.body (64 + 12 * m + 4) 1, field x.body (64 + 12 * m + 5) 1)
  | none => (0, 1)

/-- The twin pairings of a SAFETY section stand under R467. -/
def twinsOk (cfg : List Sect) : Bool :=
  let tw := twinsOf (bodyIn cfg 6 pkgScope)
  noRepeat ((tw.map (fun e => [e.1 * 16 + e.2.1, e.1 * 16 + e.2.2])).flatten) &&
  tw.all (fun e =>
    (sectIn? cfg 0x10 e.1).isNone ||
    ((teamsIn cfg e.1 e.2.1).all (fun t => !(teamsIn cfg e.1 e.2.2).contains t) &&
     (holdersIn cfg e.1 e.2.1).all (fun t => !(holdersIn cfg e.1 e.2.2).contains t) &&
     resultModeIn cfg e.1 e.2.1 == resultModeIn cfg e.1 e.2.2))

/-- SAFETY (R483). -/
def safetyOk (cfg : List Sect) (b : List Nat) : Bool :=
  let n := field b 24 1
  b.length == 416 && inRange 100 2000 (field b 0 2) && inRange 60 3600 (field b 2 2) && inRange 10 600 (field b 4 2) &&
  decide (field b 6 1 ≤ 1) && inRange 1 50 (field b 7 1) && inRange 600 43200 (field b 8 2) && inRange 1 600 (field b 10 2) &&
  inRange 60 3600 (field b 12 2) && field b 14 2 == 0 && decide (field b 16 4 ≤ fpHalf) && decide (field b 20 4 ≤ fpEight) &&
  decide (n ≤ 64) && allZero (slice b 25 7) && allZero (slice b (32 + 4 * n) (256 - 4 * n)) &&
  (List.range n).all (fun i => decide (field b (32 + 4 * i) 1 < 32) && decide (field b (33 + 4 * i) 1 < 16) &&
    decide (field b (34 + 4 * i) 1 < 16) && field b (35 + 4 * i) 1 == 0) &&
  allZero (slice b 288 128) && twinsOk cfg

/-- DEBUG (R502). -/
def debugOk (b : List Nat) : Bool :=
  b.length == 160 && decide (field b 0 1 ≤ 1) && field b 1 1 == 0 && decide (field b 2 2 < 512) &&
  inRange 1 524288 (field b 4 4) && decide (field b 8 1 < 64) && field b 9 1 == 0 && decide (field b 10 2 ≤ 60000) &&
  allZero (slice b 12 148)

/-! ### HARNESS (R172 to R176, R183, R184, R526) -/

/-- A layer's settings lie in their ranges. Those of the ARRAY word and of COL_BLOCKS bind a digital layer too (DESIGN CHOICE, log 129). -/
def Layer.ok (x : Layer) (models : Nat) : Bool :=
  x.reservedOk && decide (x.floor ≤ 4) && (x.outThresh == 0 || decide (16 ≤ x.outThresh)) && decide (x.inMx ≤ 5) &&
  decide (x.span ≤ 4) && decide (x.rowSegs ≤ 256) && inRange 1 4096 x.colBlocks && decide (x.model < models) &&
  (x.rowSegs != 0 || x.places == 0)

/-- Every pair of different entries satisfies `f`. -/
def pairwise {α : Type} (f : α → α → Bool) : List α → Bool
  | [] => true
  | x :: xs => xs.all (f x) && pairwise f xs

/-- Bytes of a string's program: the code, and the data from the next 64-byte boundary (R526). -/
def progSize (b : List Nat) (x : Nat) : Nat := up64 (progDir b x).2.1 + (progDir b x).2.2.2

/-- Banks that a string's program takes, at most four (R526). -/
def progBanks (b : List Nat) (x : Nat) : Nat := min 4 (ceilDiv (progSize b x) 0x40000)

/-- A string uses a program. -/
def usesString (b : List Nat) (x : Nat) : Bool := (progDir b x).2.1 + (progDir b x).2.2.2 != 0

/-- HARNESS of partition `p` (R176). The offsets of the string directory are counted from the start of the body and are multiples
of 64, as R172 has all offsets (DEDUCED, log 88); the program region is never shorter than its directory (R183). -/
def harnessOk (cfg : List Sect) (p : Nat) (b : List Nat) : Bool :=
  let strings := field b 0 4
  let models := field b 4 2
  let layers := field b 6 2
  let places := field b 8 4
  let experts := field b 12 2
  let n := b.length
  let po := field b 32 4
  let pl := field b 36 4
  let owned := recIn cfg p 0 4
  let ls := harnessLayers b
  let ms := harnessModels b
  let es := harnessExperts b
  let pls := (List.range places).map (harnessPlace b)
  -- the layer of each placement record, by the layer table
  let owners := ((List.range layers).map (fun l =>
    let r := harnessLayer b l
    (List.range r.places).map (fun i => (r.firstPlace + i, l)))).flatten
  decide (64 ≤ n) && (List.range 32).all (fun x => !strings.testBit x || owned.testBit x) &&
  inRange 1 16 models && inRange 1 4096 layers && decide (experts ≤ 16384) && decide (field b 14 2 ≤ 224) &&
  [16, 20, 24, 28, 32].all (fun o => decide (field b o 4 % 64 = 0)) && allZero (slice b 40 24) &&
  decide (field b 16 4 + 16 * models ≤ n) && decide (field b 20 4 + 32 * layers ≤ n) &&
  decide (field b 24 4 + 8 * places ≤ n) && decide (field b 28 4 + 16 * experts ≤ n) && decide (po + pl ≤ n) &&
  ms.all (fun m => m.reservedOk && decide (m.home ≤ 2) && decide (m.firstLayer + m.layers ≤ layers) &&
    (m.home == 2 || m.stageUnit == 0)) &&
  ls.all (fun l => l.ok models && decide (l.firstPlace + l.places ≤ places)) &&
  noRepeat (owners.map (·.1)) &&
  pls.all (fun x => x.reservedOk && decide (x.team < 768) && decide (x.role < 32) && strings.testBit (teamString x.team)) &&
  owners.all (fun e =>
    let x := harnessPlace b e.1
    let l := harnessLayer b e.2
    let m := harnessModel b l.model
    decide (x.rowSeg < l.rowSegs) && decide (x.colBlock < l.colBlocks) && (m.home == 2 || x.plane == m.home)) &&
  -- placements of resident models, or of one staged model, do not share team, role and plane
  pairwise (fun (e f : Nat × Nat) =>
    let x := harnessPlace b e.1
    let y := harnessPlace b f.1
    let mx := (harnessLayer b e.2).model
    let my := (harnessLayer b f.2).model
    let hx := (harnessModel b mx).home
    let hy := (harnessModel b my).home
    !(x.team == y.team && x.role == y.role && x.plane == y.plane &&
      ((hx != 2 && hy != 2) || (hx == 2 && mx == my))) &&
    !(x.team == y.team && x.loc == y.loc && e.2 != f.2)) owners &&
  es.all (fun e => e.reservedOk && decide (e.set ≤ 255) && inRange 1 8 e.layers && decide (e.home ≤ 2) &&
    decide (e.firstLayer + e.layers ≤ layers) && (e.home != 0 || e.whr == 0) && (e.home != 2 || decide (e.whr < 4096))) &&
  noRepeat (es.map (fun e => e.set * 65536 + e.position)) &&
  decide (512 ≤ pl) && (List.range 32).all (fun x =>
    let d := progDir b x
    let inside := fun (o n : Nat) => n == 0 || decide (po + 512 ≤ o ∧ o + n ≤ po + pl ∧ o % 64 = 0)
    !usesString b x ||
    (strings.testBit x && inside d.1 d.2.1 && inside d.2.2.1 d.2.2.2 && decide (d.2.1 + d.2.2.2 ≤ 0x100000) &&
      decide (d.2.1 % 8 = 0) && programOk models d.2.2.2 (codeWords b d.1 d.2.1)))

/-- The banks of every used string hold program, RETAIN_BANKS and SRAM_BANKS (R285, R526); a program that the 64-byte
boundary of its data carries beyond four banks does not fit (DEDUCED, log 88). -/
def State.banksOk (s : State) (h : List Nat) (sram : Nat) : Bool :=
  (List.range 32).all (fun x => !(field h 0 4).testBit x ||
    (decide (progSize h x ≤ 0x100000) && decide (progBanks h x + field h 14 2 + sram ≤ (s.soundBanks x).length)))

/-! ### SERVE (R191 to R197, R256, R257) -/

/-- Bytes of an MX tensor of `n` elements of format `f` (R141): elements packed, then scales, each on a line. -/
def mxWidth (f : Nat) : Nat := if f ≤ 1 then 8 else if f ≤ 3 then 6 else if f = 4 then 4 else 8

/-- Bytes of a page of a cache record (R194). -/
def pageBytes (log2 layers heads dim fmt : Nat) : Nat :=
  4 * 2 ^ log2 + layers * heads * 2 * (ceilDiv (2 ^ log2 * dim * mxWidth fmt) 512 * 64 + ceilDiv (2 ^ log2 * dim) 2048 * 64)

/-- One model entry of SERVE (R257). -/
def serveModelOk (h b : List Nat) (hasHarness : Bool) (m : Nat) : Bool :=
  let o := 64 + 12 * m
  let count := field h 4 2
  if hasHarness && decide (count ≤ m) then allZero (slice b o 12) else
  if !hasHarness && allZero (slice b o 12) then true else
  let mode := field b (o + 4) 1
  let pacer := field b (o + 8) 1
  decide (mode ≤ 1) &&
  (if mode = 0 then inRange 1 64 (field b (o + 5) 1) && field b (o + 6) 2 == 0
   else inRange 4 4032 (field b (o + 6) 2) && decide (field b (o + 6) 2 % 4 = 0)) &&
  (if pacer = 0xFF then field b (o + 9) 1 == 0
   else decide (pacer < 16) && inRange 1 8 (field b (o + 9) 1) && pacer != m &&
     field b (64 + 12 * pacer + 8) 1 == 0xFF && field b (64 + 12 * pacer + 4) 1 == 0) &&
  allZero (slice b (o + 10) 2) &&
  (List.range 32).all (fun x => !(field h 0 4).testBit x || decide (field b o 4 + 8 ≤ (progDir h x).2.1))

/-- SERVE of partition `p`. Without a HARNESS no layer is a digital layer, so no cache can hold one. -/
def serveOk (cfg : List Sect) (p : Nat) (b : List Nat) : Bool :=
  let n := field b 30 2
  let h := bodyIn cfg 0x10 p
  let hasH := (sectIn? cfg 0x10 p).isSome
  let sh := shareIn cfg p
  let owned := recIn cfg p 0 4
  let rec_ := fun c off k => field b (288 + 16 * c + off) k
  let cs := List.range n
  let held := fun c => (List.range (rec_ c 2 1)).map (fun i => rec_ c 0 2 + i)
  let inShare := fun (first count : Nat) => count == 0 || decide (sh.1 ≤ first ∧ first + count ≤ sh.1 + sh.2)
  let count := fun (c : Nat) => rec_ c 12 1 / 16 + 1
  b.length == 288 + 16 * n && decide (n ≤ 1024) &&
  inRange 0x4000 0x1000000 (field b 0 4) && decide (field b 0 4 % 4096 = 0) && decide (field b 4 2 ≤ 224) &&
  inRange 1 4096 (field b 6 2) && inRange 1 16777215 (field b 24 4) &&
  inRange 16 8192 (field b 32 2) && inRange 64 1024 (field b 34 2) && inRange (field b 34 2) 1024 (field b 36 2) &&
  inRange 1 4096 (field b 38 2) && decide (1 ≤ field b 40 4) && decide (field b 44 1 ≤ 1) &&
  allZero (slice b 45 19) && allZero (slice b 256 32) &&
  (List.range 16).all (serveModelOk h b hasH) &&
  decide (field b 4 2 + field h 14 2 ≤ 220) &&
  inShare (field b 8 4) (field b 12 4) && inShare (field b 16 4) (field b 20 4) &&
  disjoint [(field b 8 4, field b 12 4), (field b 16 4, field b 20 4)] &&
  decide (ceilDiv (field b 24 4 * 32) 65536 * 65536 + recIn cfg p 8 2 * n * (16 + 16 * field b 6 2) ≤ field b 20 4 * 65536) &&
  cs.all (fun c =>
    inRange 1 64 (rec_ c 2 1) && inRange 1 64 (rec_ c 3 1) && inRange 1 16 (rec_ c 5 1) && decide (rec_ c 6 1 ≤ 3) &&
    decide (rec_ c 7 1 ≤ 5) && decide (rec_ c 8 2 < 768) && owned.testBit (teamString (rec_ c 8 2)) &&
    inRange 4 12 (rec_ c 10 1) && decide (rec_ c 11 1 ≤ 1) && decide (rec_ c 13 1 / 16 % 8 = 0) && decide (1 ≤ rec_ c 15 1) &&
    decide (pageBytes (rec_ c 10 1) (rec_ c 2 1) (rec_ c 3 1) (32 * 2 ^ rec_ c 6 1) (rec_ c 7 1) ≤ field b 0 4) &&
    hasH &&
      ((held c).all (fun l => decide (l < field h 6 2) && (harnessLayer h l).rowSegs == 0 &&
          (harnessLayer h l).spreadPos == (harnessLayer h (rec_ c 0 2)).spreadPos) &&
       (if (harnessLayer h (rec_ c 0 2)).spreadPos then decide (rec_ c 12 1 % 16 < count c) else rec_ c 12 1 == 0))) &&
  pairwise (fun c d =>
    rec_ c 12 1 % 16 != rec_ d 12 1 % 16 ||
    disjoint [(rec_ c 0 2, rec_ c 2 1), (rec_ d 0 2, rec_ d 2 1)] ||
    disjoint [(rec_ c 4 1, rec_ c 3 1), (rec_ d 4 1, rec_ d 3 1)]) cs

/-! ### Section content as a whole (step 8 of R37) -/

/-- One section is accepted by its owner, in the configuration `cfg` that the commit would give. A VERSION other than 1 (R28),
for which the spec names no code, fails here with CONTENT (DESIGN CHOICE, log 83). -/
def State.sectOk (s : State) (cfg : List Sect) (pos : Nat) (version : Nat) (x : Sect) : Bool :=
  if !(isPkgType x.type || isPartType x.type) then true else
  version == 1 &&
  (if x.type = 1 then clockOk x.body else if x.type = 2 then partitionOk x.body
   else if x.type = 3 then memoryOk cfg x.body else if x.type = 4 then routeOk cfg pos s.nv.identity x.body
   else if x.type = 5 then limitOk x.body else if x.type = 6 then safetyOk cfg x.body
   else if x.type = 7 then debugOk x.body
   else if x.type = 0x10 then
     harnessOk cfg x.scope x.body && s.banksOk x.body (field (bodyIn cfg 0x11 x.scope) 4 2) && twinsOk cfg
   else serveOk cfg x.scope x.body && s.banksOk (bodyIn cfg 0x10 x.scope) (field x.body 4 2) && twinsOk cfg)

/-- The package's position, from the user NV image (R442). -/
def State.position (s : State) : Nat := s.userCfg 1 18 2 0

/-! ### The checks of R37 and R45 -/

/-- Steps 1 to 6 of R37. `part` tells a partial image, `xfer` the transfer length. -/
def State.checkImage1 (s : State) (b : List Nat) (xfer : Nat) (part : Bool) : Verdict :=
  if !formatOk b xfer part then (vrFormat, noSection) else
  let total := field b 8 4
  if field b 0x10 4 ≠ 0x7160 ∨ field b 0x14 2 ≠ 0x00B0 then (vrPart, noSection) else
  let secs := (dirOffsets b).map (sectAt b)
  let digest := Config.shake256 (slice b 0 (total - 3388))
  if slice b (total - 3388) 64 ≠ digest then (vrDigest, noSection) else
  match firstIdx (fun x => x.digest != Config.shake256 x.body) secs with
  | some i => (vrDigest, i)
  | none =>
    match s.judgeSignature digest (slice b (total - 3324) 3324) "LW7160-VOLZAL" with
    | 1 => (vrKey, noSection)
    | 2 => (vrSignature, noSection)
    | _ => if field b 0x18 4 < s.nv.minVolz then (vrVersion, noSection) else (vrDone, noSection)

/-- The sections of an image, with the mark of R31. -/
def imageSections (b : List Nat) : List Sect :=
  ((dirOffsets b).map (sectAt b)).map (fun x => { x with ignored := !(isPkgType x.type || isPartType x.type) })

/-- Step 7 for an image loaded at boot. -/
def checkSetBoot (secs : List Sect) : Verdict :=
  if [1, 2, 3, 4, 5, 6].any (fun t => !secs.any (fun x => x.type == t && x.scope == pkgScope)) then (vrScope, noSection) else
  let defined := fun p => definedIn secs p
  match firstIdx (fun x => !scopeOk defined x) secs with
  | some i => (vrScope, i)
  | none =>
    match duplicateAt none 0 secs with
    | some i => (vrScope, i)
    | none =>
      match firstIdx (fun x => x.ignored && x.flags.testBit 0) secs with
      | some i => (vrCritical, i)
      | none => (vrDone, noSection)

/-- Step 7 for a partial image of partition `p` (R44, R45). -/
def State.checkSetPartial (s : State) (p : Nat) (b : List Nat) (secs : List Sect) : Verdict :=
  match firstIdx (fun x => !(isPartType x.type && x.scope == p)) secs with
  | some i => (vrScope, i)
  | none =>
    match duplicateAt none 0 secs with
    | some i => (vrScope, i)
    | none => if slice b 0x20 16 ≠ s.volz.installation then (vrInstallation, noSection) else (vrDone, noSection)

/-- Running sections in the order of R51. -/
def sectLt (x y : Sect) : Bool := decide (x.type < y.type ∨ (x.type = y.type ∧ x.scope < y.scope))

/-- The configuration after a partial commit: the carried sections replace their earlier copies (R43, R46). -/
def replaceSections (running new : List Sect) : List Sect :=
  let kept := running.filter (fun x => !new.any (fun y => y.type == x.type && y.scope == x.scope))
  (kept ++ new).mergeSort (fun a b => !sectLt b a)

/-- Bytes that a list of sections takes in the RUNNING half: each with its header, on a 64-byte boundary (DESIGN CHOICE,
log 121). -/
def runningBytes (cfg : List Sect) : Nat := (cfg.map (fun x => up64 (96 + x.body.length))).sum

/-- Step 8: content of the carried sections in directory order, then R43's TOO_LARGE. -/
def State.checkContent (s : State) (b : List Nat) (secs cfg : List Sect) : Verdict :=
  let vs := (dirOffsets b).map (fun o => field b (o + 2) 2)
  match (List.range secs.length).find? (fun i =>
      match secs[i]? with | some x => !s.sectOk cfg s.position (vs.getD i 0) x | none => false) with
  | some i => (vrContent, i)
  | none => if 0x10000000 < runningBytes cfg then (vrTooLarge, noSection) else (vrDone, noSection)

/-- Every check of R37 for an image loaded at boot: the verdict, and the sections. -/
def State.checkBoot (s : State) (b : List Nat) (xfer : Nat) : Verdict :=
  let v := s.checkImage1 b xfer false
  if v.1 ≠ vrDone then v else
  let v := checkSetBoot (imageSections b)
  if v.1 ≠ vrDone then v else s.checkContent b (imageSections b) (imageSections b)

/-- Every check of R37 and R45 for a partial image. -/
def State.checkPartial (s : State) (p : Nat) (b : List Nat) (xfer : Nat) : Verdict :=
  let v := s.checkImage1 b xfer true
  if v.1 ≠ vrDone then v else
  let v := s.checkSetPartial p b (imageSections b)
  if v.1 ≠ vrDone then v else s.checkContent b (imageSections b) (replaceSections s.volz.running (imageSections b))

/-! ### The user NV image (R442, R443, R518) -/

/-- A GPIO configuration byte (R518). -/
def gpioCfgOk (c : Nat) : Bool := decide (c % 8 ≤ 3) && decide (c / 32 = 0) && (!c.testBit 4 || c % 8 == 1)

/-- Step 1 of R443: MAGIC, FORMAT, and the reserved fields and ranges of R442's table whatever PRESENT says. The MGMT and PINS groups,
whose fields stand in other tables (`mgmtOk`, R476; R518), are looked at where PRESENT names them (log 136). -/
def userNvFormatOk (mgmtOk : Bool) (b : List Nat) : Bool :=
  let present := field b 6 2
  b.length == 4096 && field b 0 4 == 0x564E574C && field b 4 2 == 1 && decide (present / 32 = 0) &&
  allZero (slice b 20 12) && allZero (slice b 640 68) &&
  decide (field b 16 1 ≤ 1) && inRange 2 15 (field b 17 1) && decide (field b 18 2 < 4096) &&
  (!present.testBit 2 || mgmtOk) &&
  (!present.testBit 3 || ((List.range 16).all (fun i => gpioCfgOk (field b (128 + i) 1)) && decide (field b 146 1 ≤ 1) &&
    decide (field b 147 1 ≤ 1) && allZero (slice b 148 44))) &&
  (List.range 24).all (fun c =>
    let o := 192 + 16 * c
    decide (field b o 1 ≤ 4) && (field b o 1 != 1 || decide (c ≤ 18)) && decide (field b (o + 1) 1 ≤ 8) &&
    decide (field b (o + 2) 1 ≤ 8) && decide (field b (o + 3) 1 ≤ 1) && allZero (slice b (o + 12) 4)) &&
  decide (field b (576 + 38) 1 ≤ 1) && allZero (slice b 615 25)

/-- The MGMT group's fields (R476). -/
def mgmtGroupOk (b : List Nat) : Bool :=
  inRange 1 128 (field b 48 1) && decide (field b 49 1 ≤ 3) &&
  (!(field b 49 1).testBit 0 || inRange 1 4094 (field b 50 2)) && allZero (slice b 102 26)

/-- The three steps of R443: 0 accepted, else the NV_RESULT code 5 FORMAT, 6 KEY, 7 SIGNATURE, 8 VERSION. -/
def State.checkUserNv (s : State) (b : List Nat) : Nat :=
  if !userNvFormatOk (mgmtGroupOk b) b then 5 else
  let digest := Config.shake256 (slice b 0 708)
  if slice b 708 64 ≠ digest then 5 else
  match s.judgeSignature digest (slice b 772 3324) "LW7160-USERNV" with
  | 1 => 6
  | 2 => 7
  | _ => if field b 8 4 < s.nv.minNv then 8 else 0

/-! ### Firmware (R441) -/

/-- The header of R441. -/
def fwHeaderOk (b : List Nat) (xfer : Nat) : Bool :=
  let total := field b 0x18 4
  field b 0 4 == 0x5746574C && field b 4 2 == 1 && field b 6 2 == 0 && field b 8 4 == 0x7160 && field b 0x0C 2 == 0x00B0 &&
  field b 0x0E 2 == 0 && decide (total ≤ 0x800000) && total == xfer && decide (64 + 3388 ≤ total) && allZero (slice b 0x1C 36)

/-- A firmware image is judged: 0 accepted, else the NV_RESULT code. -/
def State.checkFw (s : State) (b : List Nat) (xfer : Nat) : Nat :=
  if !fwHeaderOk b xfer then 5 else
  let total := field b 0x18 4
  let digest := Config.shake256 (slice b 0 (total - 3388))
  let block := slice b (total - 3324) 3324
  if slice b (total - 3388) 64 ≠ digest then 5 else
  if field block 0 1 ≠ 1 then 6 else
  match (List.range Config.romKeys.length).find? (fun i =>
      keyId (Config.romKeys.getD i []) == slice block 4 8 && !s.nv.keyMask.testBit i) with
  | none => 6
  | some i =>
    if !Config.mldsaVerify (Config.romKeys.getD i []) digest (slice block 12 3309) "LW7160-FIRMWARE" then 7
    else if field b 0x10 4 < s.nv.minFw then 8 else 0

end Sys2Proof.Machine
end

