-- ==== Sys2Proof/Machine/Fp.lean ====
section
/-!
DEFINITION. Number formats: FP32, BF16 and the six MX element types (R139 to R145, R161), decoded to exact rationals and
encoded with one rounding to nearest even; FP32 arithmetic of the vector unit and the accumulators (R150, R182).
-/
namespace Sys2Proof.Machine

/-! ### Exact values -/

/-- A decoded number: NaN, an infinity of a sign (true negative), or a sign with a magnitude. -/
inductive Num where
  | nan
  | inf (neg : Bool)
  | fin (neg : Bool) (mag : Rat)
  deriving DecidableEq, Repr

/-- 2^k for an integer k. -/
def pow2 (k : Int) : Rat := if 0 ≤ k then ((2 ^ k.toNat : Nat) : Rat) else 1 / ((2 ^ (-k).toNat : Nat) : Rat)

/-- The nearest integer to a rational, ties to even. -/
def roundEven (r : Rat) : Int :=
  let f := r.floor
  let d := r - f
  if d < 1 / 2 then f else if 1 / 2 < d then f + 1 else if f % 2 = 0 then f else f + 1

/-- ⌊log2 r⌋ of a positive rational. -/
def floorLog2 (r : Rat) : Int :=
  let g : Int := (Nat.log2 r.num.natAbs : Int) - (Nat.log2 r.den : Int)
  if r < pow2 g then g - 1 else g

/-- ⌈r⌉ as an integer. -/
def ceilRat (r : Rat) : Int := -((-r).floor)

/-- The signed value of a number that is not NaN or infinite; 0 for those. -/
def Num.rat : Num → Rat
  | .fin neg m => if neg then -m else m
  | _ => 0

def Num.isNan : Num → Bool
  | .nan => true
  | _ => false

def Num.isFin : Num → Bool
  | .fin _ _ => true
  | _ => false

/-- The value is not zero. -/
def Num.nonzero : Num → Bool
  | .fin _ m => decide (m ≠ 0)
  | _ => true

/-! ### FP32 and BF16 (R141) -/

/-- An FP32 word. -/
def f32 (w : Nat) : Num :=
  let neg := w.testBit 31
  let e := bits w 30 23
  let m := bits w 22 0
  if e = 255 then (if m = 0 then .inf neg else .nan)
  else if e = 0 then .fin neg (m * pow2 (-149))
  else .fin neg ((m + 2 ^ 23 : Nat) * pow2 ((e : Int) - 150))

/-- Sign bit of an FP32 word. -/
def signBit (neg : Bool) : Nat := if neg then 2 ^ 31 else 0

/-- The FP32 magnitude bits of a positive rational, rounded to nearest even; 0x7F80_0000 where it rounds to infinity. -/
def f32Mag (r : Rat) : Nat :=
  if r = 0 then 0 else
  let e := max (floorLog2 r) (-126)
  let n := (roundEven (r / pow2 (e - 23))).toNat
  let b := (e + 126).toNat * 2 ^ 23 + n
  if 0x7F800000 ≤ b then 0x7F800000 else b

/-- A rational rounded to FP32; `zneg` is the sign of a zero result. -/
def toF32 (r : Rat) (zneg : Bool) : Nat :=
  if r = 0 then signBit zneg else
  if r < 0 then 2 ^ 31 + f32Mag (-r) else f32Mag r

/-- The NaN that an operation on two words returns. -/
def nanOf (a b : Nat) : Nat := signBit ((Config.nanBits a b).testBit 22) + 0x7FC00000 + Config.nanBits a b % 2 ^ 22

/-- A BF16 word widened exactly. -/
def bf16Widen (h : Nat) : Nat := h % 2 ^ 16 * 2 ^ 16

/-- An FP32 word rounded once to BF16, nearest even. -/
def bf16Round (w : Nat) : Nat :=
  if bits w 30 23 = 255 then (if bits w 22 0 = 0 then w / 2 ^ 16 else w / 2 ^ 16 ||| 0x40)
  else
    let q := w / 2 ^ 16
    let r := w % 2 ^ 16
    if r < 0x8000 then q else if 0x8000 < r then q + 1 else if q % 2 = 0 then q else q + 1

/-- BF16 as a number (R57). -/
def bf16 (h : Nat) : Num := f32 (bf16Widen h)

/-! ### FP32 arithmetic, correctly rounded (R182) -/

def Num.neg? : Num → Bool
  | .nan => false
  | .inf n => n
  | .fin n _ => n

/-- a × b as an exact number. -/
def mulNum : Num → Num → Num
  | .nan, _ => .nan
  | _, .nan => .nan
  | .inf s, .inf t => .inf (s != t)
  | .inf s, .fin t m => if m = 0 then .nan else .inf (s != t)
  | .fin s m, .inf t => if m = 0 then .nan else .inf (s != t)
  | .fin s m, .fin t n => .fin (s != t) (m * n)

/-- a + b: the exact sum and the sign that a zero sum takes. -/
def addNum : Num → Num → Num
  | .nan, _ => .nan
  | _, .nan => .nan
  | .inf s, .inf t => if s = t then .inf s else .nan
  | .inf s, _ => .inf s
  | _, .inf t => .inf t
  | .fin s m, .fin t n =>
    let r := (if s then -m else m) + (if t then -n else n)
    if r = 0 then .fin (s && t) 0 else if r < 0 then .fin true (-r) else .fin false r

/-- A number rounded to FP32; `a` and `b` are the operands that a NaN comes from. -/
def Num.toF32 (a b : Nat) : Num → Nat
  | .nan => nanOf a b
  | .inf s => signBit s + 0x7F800000
  | .fin s m => signBit s + f32Mag m

def fadd (a b : Nat) : Nat := (addNum (f32 a) (f32 b)).toF32 a b
def fmul (a b : Nat) : Nat := (mulNum (f32 a) (f32 b)).toF32 a b
def ffma (a b c : Nat) : Nat := (addNum (mulNum (f32 a) (f32 b)) (f32 c)).toF32 a b
def fneg (a : Nat) : Nat := if a.testBit 31 then a - 2 ^ 31 else a + 2 ^ 31
def fsub (a b : Nat) : Nat := fadd a (fneg b)

/-- Order of two numbers that are not NaN: a < b, with −0 below +0. -/
def Num.lt : Num → Num → Bool
  | .inf s, .inf t => s && !t
  | .inf s, _ => s
  | _, .inf t => !t
  | .fin s m, .fin t n =>
    let x := if s then -m else m
    let y := if t then -n else n
    decide (x < y) || (decide (x = y) && s && !t)
  | _, _ => false

/-- max(a, b); a NaN propagates. -/
def fmax (a b : Nat) : Nat :=
  if (f32 a).isNan || (f32 b).isNan then nanOf a b else if (f32 a).lt (f32 b) then b else a

/-- a ÷ b for a positive integer b, correctly rounded (R182, RMSNORM's mean). -/
def fdivNat (a b : Nat) : Nat :=
  match f32 a with
  | .fin s m => signBit s + f32Mag (m / b)
  | .inf s => signBit s + 0x7F800000
  | .nan => nanOf a 0

/-- The FP32 word of a natural number or an integer. -/
def fOfInt (i : Int) : Nat := toF32 i false

/-! ### MX element types (R139, R140) -/

/-- Exponent bits, mantissa bits and bias of a floating element type. -/
def mxExpBits (f : Nat) : Nat := if f = 0 then 4 else if f = 1 then 5 else if f = 2 then 2 else if f = 3 then 3 else 2
def mxManBits (f : Nat) : Nat := if f = 0 then 3 else if f = 1 then 2 else if f = 2 then 3 else if f = 3 then 2 else 1
def mxBias (f : Nat) : Int := if f = 0 then 7 else if f = 1 then 15 else if f = 2 then 1 else if f = 3 then 3 else 1
/-- emax and the largest normal (R139). -/
def mxEmax (f : Nat) : Int := if f = 0 then 8 else if f = 1 then 15 else if f = 2 then 2 else if f = 3 then 4 else if f = 4 then 2 else 0
def mxLargest (f : Nat) : Rat :=
  if f = 0 then 448 else if f = 1 then 57344 else if f = 2 then 15 / 2 else if f = 3 then 28 else if f = 4 then 6 else 127 / 64

/-- An element code decoded, before its block scale. -/
def mxElem (f code : Nat) : Num :=
  if f = 5 then
    let i := toSigned 8 code
    .fin (decide (i < 0)) ((i.natAbs : Rat) / 64)
  else
    let m := mxManBits f
    let eb := mxExpBits f
    let e := code / 2 ^ m % 2 ^ eb
    let man := code % 2 ^ m
    let neg := code.testBit (m + eb)
    if f = 0 ∧ e = 15 ∧ man = 7 then .nan
    else if f = 1 ∧ e = 31 then (if man = 0 then .inf neg else .nan)
    else if e = 0 then .fin neg (man * pow2 (1 - mxBias f - m))
    else .fin neg ((man + 2 ^ m : Nat) * pow2 ((e : Int) - mxBias f - m))

/-- An element times its block scale 2^(k − 127); scale code 0xFF is NaN. -/
def mxScaled (f k code : Nat) : Num :=
  if k = 255 then .nan else
  match mxElem f code with
  | .fin s m => .fin s (m * pow2 ((k : Int) - 127))
  | x => x

/-- The code of a magnitude in a format, rounded to nearest even; one beyond the largest normal is clamped to it, and says so
(R161). -/
def mxEncode (f : Nat) (neg : Bool) (v : Rat) : Nat × Bool :=
  let big := decide (mxLargest f < v)
  let v := if big then mxLargest f else v
  if f = 5 then
    let n := (roundEven (v * 64)).toNat
    (if neg then (256 - n) % 256 else n, big)
  else
    let m := mxManBits f
    let emin := 1 - mxBias f
    let e := if v = 0 then emin else max (floorLog2 v) emin
    let n := (roundEven (v / pow2 (e - m))).toNat
    ((e - emin).toNat * 2 ^ m + n + (if neg then 2 ^ (m + mxExpBits f) else 0), big)

/-! ### MX tensors (R141) -/

/-- Element bytes per block of 32. -/
def mxBlockBytes (f : Nat) : Nat := 4 * mxWidth f

/-- Bytes of the element region, and of a tensor of `n` elements. -/
def mxElemBytes (f n : Nat) : Nat := up64 (ceilDiv n 32 * mxBlockBytes f)
def mxSize (f n : Nat) : Nat := mxElemBytes f n + up64 (ceilDiv n 32)

/-- Element `i` of a tensor of `n` elements whose bytes are `b`. -/
def mxAt (f n : Nat) (b : List Nat) (i : Nat) : Num :=
  let w := mxWidth f
  let blk := field b (i / 32 * mxBlockBytes f) (mxBlockBytes f)
  mxScaled f (b.getD (mxElemBytes f n + i / 32) 0) (blk / 2 ^ (w * (i % 32)) % 2 ^ w)

/-- One block of the write-out (R161): scale code, element codes, clamps, underflows. `raise` adds to X (R165). A block with a non-zero
value whose elements all round to zero keeps the X + 127 of R161, not the 0x7F of R145 (DESIGN CHOICE, log 127). -/
def mxBlock (f : Nat) (raise : Nat) (vs : List Num) : Nat × List Nat × Nat × Nat :=
  let mags := vs.map (fun v => match v with | .fin _ m => m | _ => 0)
  let amax := mags.foldl max 0
  let special := vs.any (fun v => !v.isFin)
  if amax = 0 ∧ !special then (0x7F, vs.map (fun _ => 0), 0, 0) else
  let x : Int := if amax = 0 then 0 else clampInt (-127) 127 (floorLog2 amax - mxEmax f + raise)
  let enc := vs.map (fun v => match v with
    | .fin s m => let r := mxEncode f s (m / pow2 x); (r.1, r.2, decide (m ≠ 0) && decide ((mxElem f r.1).rat = 0))
    | .inf s => ((mxEncode f s (mxLargest f)).1, true, false)
    | .nan => ((mxEncode f false (mxLargest f)).1, true, false))
  ((x + 127).toNat, enc.map (·.1), (enc.filter (fun e => e.2.1)).length, (enc.filter (fun e => e.2.2)).length)

/-- The bytes of packed element codes of one block. -/
def packBlock (f : Nat) (codes : List Nat) : List Nat :=
  leBytes (mxBlockBytes f) ((codes.zip (List.range 32)).foldl (fun n e => n + e.1 * 2 ^ (mxWidth f * e.2)) 0)

/-- A list cut into pieces of 32, the last padded with zeros (R141). -/
def blocks32 (vs : List Num) : List (List Num) :=
  (List.range (ceilDiv vs.length 32)).map (fun i => (List.range 32).map (fun j => vs.getD (32 * i + j) (.fin false 0)))

/-- The bytes of an MX tensor with its clamps and underflows; `raise` tells by how much X of block j is raised. -/
def mxTensor (f : Nat) (raise : Nat → Nat) (vs : List Num) : List Nat × List Nat × Nat :=
  let bs := blocks32 vs
  let enc := (bs.zip (List.range bs.length)).map (fun e => mxBlock f (raise e.2) e.1)
  let elems := (enc.map (fun e => packBlock f e.2.1)).flatten
  let scales := enc.map (·.1)
  (padTo (up64 elems.length) elems ++ padTo (up64 scales.length) scales, enc.map (fun e => e.2.2.1), (enc.map (fun e => e.2.2.2)).sum)

/-- The sign bit of a NaN word decides the sign of the largest normal that R161 writes for it. -/
def f32ForMx (w : Nat) : Num :=
  match f32 w with
  | .nan => .inf (w.testBit 31)
  | x => x

end Sys2Proof.Machine
end

