-- ==== Sys2Proof/Machine/Elementary.lean ====
section
/-!
DEFINITION. Elementary functions of the vector unit, the attention passes and the token draw (R181, R182, R205, R217, R243).
Each is the real function, computed to a relative error far below an ULP, and where the spec gives an accuracy bound the word
returned is a free choice among the FP32 words within it (`Config.ulpPick`, log 9).
-/
namespace Sys2Proof.Machine

/-! ### Fixed point: 224 fraction bits -/

def fixOne : Int := 2 ^ 224
def fixMul (a b : Int) : Int := a * b / fixOne
/-- A rational in fixed point, and back. -/
def toFix (r : Rat) : Int := (r * (fixOne : Rat)).floor
def ofFix (i : Int) : Rat := (i : Rat) / (fixOne : Rat)

/-- 1 + y/d₁ (1 + y/d₂ (1 + ...)) over divisors d₁, d₂, ...: a power series in Horner's form. -/
def hornerFix (y : Int) (ds : List Nat) : Int := ds.foldr (fun d acc => fixOne + fixMul y acc / d) fixOne

/-- x squared `n` times. -/
def squareFix : Nat → Int → Int
  | 0, x => x
  | n + 1, x => squareFix n (fixMul x x)

/-- e^a; beyond ±512, where every FP32 result is settled, the value at ±512. -/
def expReal (a : Rat) : Rat :=
  let m := if a < 0 then -a else a
  let m := if m < 512 then m else 512
  let e := ofFix (squareFix 9 (hornerFix (toFix (m / 512)) ((List.range 60).map (· + 1))))
  if a < 0 then 1 / e else e

/-- 1 ÷ √a of a positive rational. -/
def rsqrtReal (a : Rat) : Rat := ((Nat.sqrt (a.den * 2 ^ 448 / a.num.natAbs) : Nat) : Rat) / (2 ^ 224 : Nat)

/-- √a of a rational that is not negative. -/
def sqrtReal (a : Rat) : Rat := ((Nat.sqrt (a.num.natAbs * 2 ^ 448 / a.den) : Nat) : Rat) / (2 ^ 224 : Nat)

/-- 2π with 400 fraction bits. -/
def tau400 : Int :=
  0x6487ed5110b4611a62633145c06e0e68948127044533e63a0105df531d89cd9128a5043cc71a026ef7ca8cd9e69d218d98158

/-- An angle less whole turns, in fixed point, within half a turn of 0. -/
def turnRest (a : Rat) : Int :=
  let r := (a * ((2 ^ 400 : Nat) : Rat)).floor % tau400
  (if tau400 < 2 * r then r - tau400 else r) / 2 ^ 176

/-- cos a and sin a. -/
def cosReal (a : Rat) : Rat :=
  let y := turnRest a
  ofFix (hornerFix (-(fixMul y y)) ((List.range 45).map (fun k => (2 * k + 1) * (2 * k + 2))))
def sinReal (a : Rat) : Rat :=
  let y := turnRest a
  ofFix (fixMul y (hornerFix (-(fixMul y y)) ((List.range 45).map (fun k => (2 * k + 2) * (2 * k + 3)))))

/-- √(2 ÷ π), and the cubic coefficient, of GELU's tanh form: R181 names the form alone (PRESUMED, log 9). -/
def geluScale : Rat := 7978845608028653558798921198687637369517 / 10 ^ 40
def geluCubic : Rat := 44715 / 1000000

/-! ### Words within an accuracy bound (R182, R205) -/

/-- The value of an FP32 magnitude; 2^128 for infinity's place on the line. -/
def magValue (w : Nat) : Rat := if w = 0x7F800000 then pow2 128 else match f32 w with | .fin _ m => m | _ => 0

/-- One ULP of FP32 at a magnitude. -/
def ulpAt (v : Rat) : Rat := pow2 ((if v = 0 then -126 else max (floorLog2 v) (-126)) - 23)

/-- The FP32 magnitudes within `n` ULP of `v`. -/
def wordsNear (n : Nat) (v : Rat) : List Nat :=
  let c := f32Mag v
  ((List.range (4 * n + 3)).filterMap (fun i => if c + i < 2 * n + 1 then none else some (c + i - (2 * n + 1)))).filter (fun w =>
    decide (w ≤ 0x7F800000 ∧ magValue w - v ≤ n * ulpAt v ∧ v - magValue w ≤ n * ulpAt v))

/-- A word within `n` ULP of a number, of its sign and 0 where the number is: a free choice; `op` tells the operations apart. -/
def Num.near (n op a b : Nat) : Num → Nat
  | .nan => nanOf a b
  | .inf s => signBit s + 0x7F800000
  | .fin s m =>
    if m = 0 then signBit s else
    let ws := wordsNear n m
    signBit s + ws.getD (Config.ulpPick op a b % ws.length) (f32Mag m)

/-! ### The functions on numbers -/

/-- 1 ÷ a, a ÷ b. -/
def recipNum : Num → Num
  | .nan => .nan
  | .inf s => .fin s 0
  | .fin s m => if m = 0 then .inf s else .fin s (1 / m)
def divNum (a b : Num) : Num :=
  match a, b with
  | .fin s m, .fin t n => if n = 0 then (if m = 0 then .nan else .inf (s != t)) else .fin (s != t) (m / n)
  | _, _ => mulNum a (recipNum b)

def expNum : Num → Num
  | .nan => .nan
  | .inf s => if s then .fin false 0 else .inf false
  | x => .fin false (expReal x.rat)

def rsqrtNum : Num → Num
  | .nan => .nan
  | .inf s => if s then .nan else .fin false 0
  | .fin s m => if m = 0 then .inf s else if s then .nan else .fin false (rsqrtReal m)

/-- x ÷ (1 + e^−z). -/
def logistic (x z : Rat) : Rat := x / (1 + expReal (-z))

/-- a ÷ (1 + e^−a); none at −∞, where the formula has no value. -/
def siluNum : Num → Option Num
  | .nan => some .nan
  | .inf s => if s then none else some (.inf false)
  | .fin s m => let a := (Num.fin s m).rat; some (.fin s (logistic m a))

/-- a ÷ 2 × (1 + tanh(√(2 ÷ π) × (a + 0.044715 a³))). -/
def geluNum : Num → Option Num
  | .nan => some .nan
  | .inf s => if s then none else some (.inf false)
  | .fin s m => let a := (Num.fin s m).rat; some (.fin s (logistic m (2 * geluScale * (a + geluCubic * a * a * a))))

/-- The operation's word where it has a value, and a free word where it has none. -/
def orFree (op a : Nat) : Option Num → Nat
  | some v => v.near 2 op a a
  | none => Config.ulpPick op a a % 2 ^ 32

/-! ### The operations (R181, R182) -/

def fexp (a : Nat) : Nat := (expNum (f32 a)).near 2 0x06 a a
def frsqrt (a : Nat) : Nat := (rsqrtNum (f32 a)).near 2 0x07 a a
def frecip (a : Nat) : Nat := (recipNum (f32 a)).near 2 0x08 a a
def fsilu (a : Nat) : Nat := orFree 0x09 a (siluNum (f32 a))
def fgelu (a : Nat) : Nat := orFree 0x0A a (geluNum (f32 a))

/-- One rounding to nearest even, as every rounding that has no other rule (R144). -/
def fdiv (a b : Nat) : Nat := (divNum (f32 a) (f32 b)).toF32 a b
def fsqrt (a : Nat) : Nat :=
  match f32 a with
  | .fin s m => if m = 0 then a else if s then nanOf a a else f32Mag (sqrtReal m)
  | .inf s => if s then nanOf a a else a
  | .nan => nanOf a a

/-- cos θ and sin θ of an angle; NaN of an infinite one. -/
def trigNum (f : Rat → Rat) : Num → Num
  | .fin s m => let v := f (Num.fin s m).rat; .fin (decide (v < 0)) (if v < 0 then -v else v)
  | _ => .nan
def negNum : Num → Num
  | .nan => .nan
  | .inf s => .inf (!s)
  | .fin s m => .fin (!s) m

/-- The pair (a0, a1) rotated by th. -/
def frope (a0 a1 th : Nat) : Nat × Nat :=
  let c := trigNum cosReal (f32 th)
  let d := trigNum sinReal (f32 th)
  ((addNum (mulNum (f32 a0) c) (negNum (mulNum (f32 a1) d))).near 2 0x0D a0 th,
   (addNum (mulNum (f32 a0) d) (mulNum (f32 a1) c)).near 2 0x0D a1 th)

/-! ### Attention and token weights (R205, R217, R243) -/

/-- e^x as the running statistics form it. -/
def sexp (x : Nat) : Nat := (expNum (f32 x)).near 2 0x18 x x

/-- e^(x − m) ÷ s within 3 ULP; x and m finite or x = −∞. -/
def fnormalise (x m s : Nat) : Nat :=
  (divNum (expNum (addNum (f32 x) (negNum (f32 m)))) (f32 s)).near 3 0x19 x (m * 2 ^ 32 + s)

/-- I × (1 − 2^−DECAY) + Σ p; with DECAY 0 there is no decay. R217 leaves the order of the sum open: each order rounds once an
addition, so the word lies within one ULP for each row, and two (log 9). -/
def importanceWord (i decay : Nat) (ps : List Nat) : Nat :=
  let k : Rat := if decay = 0 then 1 else 1 - pow2 (-decay)
  let v := ps.foldl (fun a p => addNum a (f32 p)) (mulNum (f32 i) (.fin false k))
  v.near (ps.length + 2) 0x1A i (ps.foldl (fun h p => h * 2 ^ 32 + p) decay)

/-- w = e^((v − v₀) ÷ TEMP) of a top-k entry: 1 where v equals v₀; else within 2 ULP of it, as the spec fixes no precision
(log 36); a free number where the words give none. -/
def tokenWeight (v v0 temp : Nat) : Rat :=
  let d := addNum (f32 v) (negNum (f32 v0))
  if d.isFin && !d.nonzero then 1 else
  let w := (expNum (divNum d (bf16 temp))).near 2 0x43 v (v0 * 2 ^ 16 + temp)
  match f32 w with | .fin _ m => m | .inf _ => pow2 128 | .nan => (Config.ulpPick 0x43 v v0 % 2 ^ 24 : Nat)

end Sys2Proof.Machine
end

