-- ==== Sys2Proof/Machine/Memory.lean ====
section
/-!
DEFINITION. The tensor address space (R340 to R342), the partition's reach (R525), and reads and writes through the
block code (R270 to R275, R521) with retirement (R284). Every access of the tensor space that the spec sends through the
code goes through `readThrough` and `writeThrough`.
-/
namespace Sys2Proof.Machine

/-! ### The map (R340) -/

def accRegion : Nat := 0x80000000
def dramBase : Nat := 0x1000000000
def dramBytes : Nat := 0x6000000000

/-- Memory kinds of a record's byte 8 (R275), and the addresses that carry none. -/
inductive MemKind where
  | sram | slots | acc | dram | unmapped
  deriving DecidableEq, Repr

def memKind (a : Nat) : MemKind :=
  if a < 0x7BC00000 then .sram
  else if a < 0x80000000 then .slots
  else if a < 0x8C000000 then .acc
  else if dramBase ≤ a ∧ a < dramBase + dramBytes then .dram
  else .unmapped

/-- Byte 8 of a memory record. -/
def MemKind.code : MemKind → Nat
  | .sram | .slots | .unmapped => 0
  | .dram => 1
  | .acc => 3

/-- The SRAM bank of an address (R284): string s's bank b is s × 224 + b, hub bank b is 7,168 + b. -/
def bankOf (a : Nat) : Nat := if a < 0x70000000 then a / 0x40000 else 7168 + (a - 0x70000000) / 0x40000

/-- The DRAM unit of an address. -/
def unitOf (a : Nat) : Nat := (a - dramBase) / 65536

/-- The address lies in a retired unit or bank (R284). -/
def State.retiredAt (s : State) (a : Nat) : Bool :=
  match memKind a with
  | .sram | .slots => s.nv.banks.contains (bankOf a)
  | .dram => s.nv.units.contains (unitOf a)
  | _ => false

/-- The 64 KiB pieces of the space that a range touches. -/
def pieces (a n : Nat) : List Nat := if n = 0 then [] else (List.range ((a + n - 1) / 65536 - a / 65536 + 1)).map (a / 65536 + ·)

/-- Some part of a range is retired. -/
def State.anyRetired (s : State) (a n : Nat) : Bool := (pieces a n).any (fun u => s.retiredAt (u * 65536))

/-! ### Reach (R342, R525) -/

/-- First unit and count of a partition's DRAM share (R33). -/
def State.shareFirst (s : State) (p : Nat) : Nat := s.cfg 3 pkgScope (8 * p) 4 0
def State.shareCount (s : State) (p : Nat) : Nat := s.cfg 3 pkgScope (8 * p + 4) 4 0

/-- Partition `p` reaches the 64 KiB piece at an address. -/
def State.reachPiece (s : State) (p a : Nat) : Bool :=
  match memKind a with
  | .sram =>
    if a < 0x70000000 then s.ownsString p (a / 0x3800000)
    else decide (s.partRec p 10 2 ≤ (a - 0x70000000) / 0x40000 ∧
      (a - 0x70000000) / 0x40000 < s.partRec p 10 2 + s.partRec p 12 2)
  | .acc => s.ownsString p (teamString ((a - accRegion) / 0x40000))
  | .dram => decide (s.shareFirst p ≤ unitOf a ∧ unitOf a < s.shareFirst p + s.shareCount p)
  | _ => false

/-- Every byte of a range is mapped and lies where the partition reaches. -/
def State.reaches (s : State) (p a n : Nat) : Bool := (pieces a n).all (fun u => s.reachPiece p (u * 65536))

/-- Every byte of a range is mapped for physical function 0. -/
def mapped (a n : Nat) : Bool := (pieces a n).all (fun u =>
  match memKind (u * 65536) with | .unmapped | .slots => false | _ => true)

/-- A range lies in a partition's own string slices or hub share. -/
def State.inSram (s : State) (p a n : Nat) : Bool :=
  s.reaches p a n && (pieces a n).all (fun u => memKind (u * 65536) == .sram)

/-- A range lies in the partition's DRAM share. -/
def State.inShare (s : State) (p a n : Nat) : Bool :=
  s.reaches p a n && (pieces a n).all (fun u => memKind (u * 65536) == .dram)

/-! ### The block code (R270 to R273) -/

/-- Data bit (row, column) of a block of 32 bytes (R270): bit n = 16 · row + column is bit n mod 8 of byte n div 8. -/
def blockBit (b : List Nat) (row col : Nat) : Bool := (b.getD ((16 * row + col) / 8) 0).testBit ((16 * row + col) % 8)

/-- The XOR of a list of bits. -/
def parity (xs : List Bool) : Bool := xs.foldl (fun a x => a != x) false

/-- A word of bits, the first in bit 0. -/
def wordOfBits (xs : List Bool) : Nat := xs.foldr (fun x n => (if x then 1 else 0) + 2 * n) 0

/-- The check word of a block (R270): row parities in bits [15:0], column parities in bits [31:16]. -/
def checkWord (b : List Nat) : Nat :=
  wordOfBits ((List.range 16).map (fun i => parity ((List.range 16).map (blockBit b i))) ++
    (List.range 16).map (fun j => parity ((List.range 16).map (fun i => blockBit b i j))))

/-- What a read of a block finds (R272): row and column of the mended bit in `ceData`. -/
inductive BlockVerdict where
  | clean
  | ceData (row col : Nat)
  | ceCheck
  | ue
  deriving DecidableEq, Repr

/-- The position of the lowest set bit of a 16-bit word. -/
def lowBit (w : Nat) : Nat := ((List.range 16).find? (fun i => w.testBit i)).getD 0

/-- wR and wC of a syndrome. -/
def synRow (syn : Nat) : Nat := ones 16 syn
def synCol (syn : Nat) : Nat := ones 16 (syn / 65536)

def blockVerdict (syn : Nat) : BlockVerdict :=
  match synRow syn, synCol syn with
  | 0, 0 => .clean
  | 1, 1 => .ceData (lowBit syn) (lowBit (syn / 65536))
  | 1, 0 => .ceCheck
  | 0, 1 => .ceCheck
  | _, _ => .ue

/-- The byte of the block, and the bit of it, that a mended data bit stands in: bit n = 16 i + j. -/
def mendByte (row col : Nat) : Nat := (16 * row + col) / 8
def mendBit (row col : Nat) : Nat := (16 * row + col) % 8

/-- A byte with one bit flipped. -/
def flipBit (b i : Nat) : Nat := if b.testBit i then b - 2 ^ i else b + 2 ^ i

/-- The syndrome of a block of the tensor space. -/
def State.syndrome (s : State) (blk : Nat) : Nat := Map.get 0 s.syndromes blk

/-- The check word that a block of the tensor space stores: the one its bytes have, but for the bits of its syndrome. -/
def State.storedCheck (s : State) (blk : Nat) : Nat := checkWord (s.readBytes (32 * blk) 32) ^^^ s.syndrome blk

/-- A byte as the code delivers it: mended where the block's verdict is CE_DATA; 0 from a retired unit or bank; in a table
region the records that the KV engine keeps there (R197). -/
def State.codedByte (s : State) (a : Nat) : Nat :=
  if s.retiredAt a then 0 else
  match s.inTable a with
  | some (p, o) => s.tableByte p o
  | none =>
  match blockVerdict (s.syndrome (a / 32)) with
  | .ceData i j => if a % 32 = mendByte i j then flipBit (s.readByte a).toNat (mendBit i j) else (s.readByte a).toNat
  | _ => (s.readByte a).toNat

/-- `n` bytes as the code delivers them. -/
def State.codedBytes (s : State) (a n : Nat) : List Nat := (List.range n).map (fun i => s.codedByte (a + i))

/-! ### Records (R275) -/

/-- The 12 context bytes of a memory record. -/
def memContext (where_ mem syn : Nat) : List Nat :=
  leBytes 8 where_ ++ [mem, min 15 (synRow syn) * 16 + min 15 (synCol syn)] ++
  (match blockVerdict syn with | .ceData i j => [i, j] | _ => [0xFF, 0xFF])

/-- Fewer than 1,000 soft-CE records of the memory kind stand in the current second. -/
def State.softRoom (s : State) (mem : Nat) : Bool :=
  let r := Map.get (0, 0) s.softCe mem
  decide (r.1 ≠ s.now / 400000000 ∨ r.2 < 1000)

/-- One more soft-CE record of the memory kind in the current second. -/
def State.softCount (s : State) (mem : Nat) : State :=
  let r := Map.get (0, 0) s.softCe mem
  let n := if r.1 = s.now / 400000000 then r.2 + 1 else 1
  { s with softCe := Map.set (0, 0) s.softCe mem (s.now / 400000000, n) }

/-- A soft CE is recorded while the budget lasts. -/
def State.recordSoft (s : State) (source where_ mem syn : Nat) : State :=
  if s.softRoom mem then (s.softCount mem).record 0 4 0x40 source (memContext where_ mem syn) else s

/-- A unit or bank enters the hard-fault table, which keeps the 64 most recently faulted, oldest first. -/
def State.hardEvent (s : State) (kind index : Nat) : State :=
  let old := s.hardTable.find? (fun e => e.1 == kind && e.2.1 == index)
  let n := match old with | some e => min 15 (e.2.2 + 1) | none => 1
  let t := s.hardTable.filter (fun e => !(e.1 == kind && e.2.1 == index)) ++ [(kind, index, n)]
  { s with hardTable := t.drop (t.length - 64) }

/-- A HARD event of a block at an address: counted, and its unit or bank enters the table. -/
def State.hardBlock (s : State) (a : Nat) : State :=
  let s := s.bump Reg.memHard
  match memKind a with
  | .dram => s.hardEvent 0 (unitOf a)
  | .acc => s
  | _ => s.hardEvent 1 (bankOf a)

/-- The hub, a rail or a DRAM stack as the source of a UE before CAUSEWAY_OPEN (R432). -/
def hubMemory (a : Nat) : Bool := decide (0x70000000 ≤ a ∧ a < 0x80000000) || memKind a == .dram

/-- CE and UE counters of the memory kind. -/
def ceCounter (a : Nat) : Fld := if memKind a = .dram then Reg.dramCe else Reg.sramCe
def ueCounter (a : Nat) : Fld := if memKind a = .dram then Reg.dramUe else Reg.sramUe

/-- One block of the tensor space is read through the code by `source`: counted, recorded, and after a CE written back
and read once more. `repair` false is a sweep's CHECK, which mends nothing (R281). An
uncorrectable block with a hard fault writes both records of R275 (log 87). -/
def State.readBlock (s : State) (source : Nat) (repair : Bool) (blk : Nat) : State :=
  let a := 32 * blk
  let syn := s.syndrome blk
  let mem := (memKind a).code
  match blockVerdict syn with
  | .clean => s
  | .ue =>
    let s := (s.bump (ueCounter a)).recordAs (hubMemory a) 1 4 0x42 source (memContext a mem syn)
    if s.hardBlocks.contains blk then (s.hardBlock a).recordAs (hubMemory a) 1 4 0x41 source (memContext a mem syn) else s
  | v =>
    let s := s.bump (ceCounter a)
    if !repair then s.recordSoft source a mem syn else
    if s.hardBlocks.contains blk then
      (s.hardBlock a).record 0 4 0x41 source (memContext a mem syn)
    else
      let s := match v with
        | .ceData i j => s.writeByte (a + mendByte i j) (BitVec.ofNat 8 (flipBit (s.readByte (a + mendByte i j)).toNat (mendBit i j)))
        | _ => s
      ({ s with syndromes := Map.set 0 s.syndromes blk 0 }).recordSoft source a mem syn

/-- The blocks of a range whose syndrome is not 0, ascending. -/
def State.badBlocks (s : State) (a n : Nat) : List Nat :=
  (s.syndromes.map (·.1)).filter (fun b => decide (0 < n ∧ a / 32 ≤ b ∧ b ≤ (a + n - 1) / 32) && !s.retiredAt (32 * b))

/-- A range holds an uncorrectable block. -/
def State.hasUe (s : State) (a n : Nat) : Bool := (s.badBlocks a n).any (fun b => blockVerdict (s.syndrome b) == .ue)

/-- The first retired block that a range touches. -/
def State.retiredBlock (s : State) (a n : Nat) : Nat :=
  match (pieces a n).find? (fun u => s.retiredAt (u * 65536)) with
  | some u => max a (u * 65536) / 32
  | none => a / 32

/-- An access that touches a retired unit or bank counts and is recorded with the address of the block (R275, R284). -/
def State.retiredAccess (s : State) (source a n : Nat) : State :=
  (s.bump Reg.retiredAccess).recordAs (hubMemory a) 1 4 0x44 source
    (leBytes 8 (32 * s.retiredBlock a n) ++ [(memKind a).code, 0, 0xFF, 0xFF])

/-- The step that a team, string or sequencer reads for: the one that its string's sequencer runs. -/
def State.readerStep (s : State) (u : Nat) : Option Nat :=
  let k := u / 2 ^ 28
  let i := u % 2 ^ 28
  if k = 2 ∨ k = 7 then (s.seq i).step else if k = 3 then (s.seq (i / 24)).step else none

/-- The lines of a range that the host has written while a step of these still runs, with what they held before (R18). -/
def State.mixedLines (s : State) (a n : Nat) : List StaleLine :=
  s.stale.filter (fun x => decide (a < 64 * x.line + 64 ∧ 64 * x.line < a + n) && s.steps.any (fun y => x.steps.contains y.id || x.seen.contains y.id))

/-- Bytes from address `a` on with one line as it was. -/
def putOld (a : Nat) (x : StaleLine) (b : List Nat) : List Nat :=
  ((List.range b.length).zip b).map (fun e =>
    if (a + e.1) / 64 = x.line then x.old.getD ((a + e.1) % 64) 0 else e.2)

/-- Step `y` has read line `k`, and saw its old content or its new one: that stands for every later read of the step. -/
def State.sawLine (s : State) (y k : Nat) (old : Bool) : State :=
  { s with stale := s.stale.map (fun x => if x.line = k then
      { x with steps := x.steps.filter (fun z => z != y), seen := if old then x.seen ++ [y] else x.seen } else x) }

/-- What step `y` reads: of each line that a host write met while it ran the old or the new content, a free choice per step
and line (log 116). -/
def State.seeLines (s : State) (y a : Nat) : List StaleLine → List Nat → List Nat × State
  | [], b => (b, s)
  | x :: xs, b =>
    if x.seen.contains y then s.seeLines y a xs (putOld a x b)
    else if x.steps.contains y then
      let d := s.draw
      (d.2.sawLine y x.line (d.1 % 2 == 1)).seeLines y a xs (if d.1 % 2 = 1 then putOld a x b else b)
    else s.seeLines y a xs b

/-- A read of `n` bytes through the code, for a step or for none: the bytes delivered, whether the reader gets a UE, and the
state after. -/
def State.readFor (s : State) (step : Option Nat) (source a n : Nat) : List Nat × Bool × State :=
  let ue := s.hasUe a n || s.anyRetired a n
  let s' := if s.anyRetired a n then s.retiredAccess source a n else s
  let t := s'.each (s.badBlocks a n) (fun t b => t.readBlock source true b)
  match step with
  | some y =>
    let r := t.seeLines y a (s.mixedLines a n) (s.codedBytes a n)
    (r.1, ue, r.2)
  | none => (s.codedBytes a n, ue, t)

/-- A read by a unit, for the step that its string runs if it is one of a string. -/
def State.readThrough (s : State) (source a n : Nat) : List Nat × Bool × State := s.readFor (s.readerStep source) source a n

/-- The check word that a merge into an uncorrectable block leaves: row parities 0 and 1, column parities 0 and 1. -/
def poisonSyndrome : Nat := 0x00030003

/-- A write meets one block that is not clean (R521): covered whole it is cleared; else it is read through the code
first, and an uncorrectable one is left poisoned. -/
def State.mergeBlock (s : State) (source a n blk : Nat) : State :=
  if a ≤ 32 * blk ∧ 32 * blk + 32 ≤ a + n then { s with syndromes := Map.set 0 s.syndromes blk 0 } else
  match blockVerdict (s.syndrome blk) with
  | .ue =>
    let s := s.readBlock source true blk
    { s with syndromes := Map.set 0 s.syndromes blk poisonSyndrome }
  | _ =>
    let b := s.codedBytes (32 * blk) 32
    let s := s.readBlock source true blk
    ({ s with syndromes := Map.set 0 s.syndromes blk 0 }).writeBytes (32 * blk) b

/-- Bytes written from an address on, those in retired units and banks dropped. -/
def State.writeLive (s : State) (a : Nat) : List Nat → State
  | [] => s
  | b :: bs => (if s.retiredAt a then s else s.writeByte a (BitVec.ofNat 8 b)).writeLive (a + 1) bs

/-- Once a line is written again, no reader sees what it held before. -/
def State.settleLines (s : State) (a n : Nat) : State :=
  { s with stale := s.stale.filter (fun x => !decide (a < 64 * x.line + 64 ∧ 64 * x.line < a + n)) }

/-- A write of bytes through the code (R521, R284). -/
def State.writeThrough (s : State) (source a : Nat) (b : List Nat) : State :=
  let s := (s.each (s.badBlocks a b.length) (fun t k => t.mergeBlock source a b.length k)).settleLines a b.length
  if s.anyRetired a b.length then (s.retiredAccess source a b.length).writeLive a b else s.writeBytes a b

/-- A host write through BAR4 is not ordered with the steps that run: they may still see a line as it was (R18). -/
def State.hostWrite (s : State) (a : Nat) (b : List Nat) : State :=
  let ids := s.steps.map (·.id)
  let lines := if b.isEmpty ∨ ids.isEmpty then [] else (List.range ((a + b.length - 1) / 64 - a / 64 + 1)).map (a / 64 + ·)
  let olds : List StaleLine := lines.map (fun l => { line := l, old := s.codedBytes (64 * l) 64, steps := ids })
  let s := s.writeThrough unitPackage a b
  { s with stale := s.stale.filter (fun x => s.steps.any (fun y => x.steps.contains y.id)) ++ olds }

end Sys2Proof.Machine
end

