-- ==== Sys2Proof/Machine/Torus.lean ====
section
/-!
DEFINITION. The torus as a whole: the ROUTE section, routing (R309 to R312), control messages (R313 to R316), revocation
and quarantine (R318 to R322), and how a collective ends (R326). Every control message leaves through `sendOn`.
-/
namespace Sys2Proof.Machine

/-! ### ROUTE (R301) -/

def State.routeCfg (s : State) (off n dflt : Nat) : Nat := s.cfg 4 pkgScope off n dflt

/-- DIM of an axis; 1 without a ROUTE section. -/
def State.dim (s : State) (a : Nat) : Nat := max 1 (s.routeCfg a 1 1)

/-- POLICY of a port (0 UNUSED, 1 OPTIONAL, 2 REQUIRED) and its REQUIRED_MASK. -/
def State.policy (s : State) (p : Nat) : Nat := s.routeCfg (64 + 16 * p) 1 0
def State.requiredMask (s : State) (p : Nat) : Nat := s.routeCfg (68 + 16 * p) 4 0

def State.maxBypass (s : State) : Nat := s.routeCfg 6 1 2
def State.holdDark (s : State) : Bool := s.routeCfg 5 1 0 == 1
/-- CWAY_ON_FAULT of an axis. -/
def State.cwayOnFault (s : State) (a : Nat) : Bool := (s.routeCfg 3 1 0).testBit (3 + a)
/-- COLL_TIMEOUT in ticks. -/
def State.collTimeout (s : State) : Nat := usTicks (s.routeCfg 8 4 5000)

/-- Coordinate of a position on an axis, and the position with that coordinate replaced. -/
def coord (pos a : Nat) : Nat := pos / 16 ^ a % 16
def withCoord (pos a c : Nat) : Nat := pos - coord pos a * 16 ^ a + c * 16 ^ a

/-- Where the record of a position stands; its IDENTITY, zeros accepting any package, and PRESENT. -/
def State.posRecord (s : State) (pos : Nat) : Nat := 1696 + 64 * (coord pos 0 + s.dim 0 * (coord pos 1 + s.dim 1 * coord pos 2))
def State.posIdentity (s : State) (pos : Nat) : List Nat := slice (s.body 4 pkgScope) (s.posRecord pos) 8
def State.present (s : State) (pos : Nat) : Bool := (s.routeCfg (s.posRecord pos + 24) 1 1).testBit 0

/-! ### Ports -/

/-- The axis of a port, whether it points to increasing coordinates, and the other port of its axis. -/
def portAxis (p : Nat) : Nat := p / 2
def portUpward (p : Nat) : Bool := p % 2 == 0
def otherPort (p : Nat) : Nat := if p % 2 = 0 then p + 1 else p - 1

def State.port (s : State) (p : Nat) : TorPort := Map.get {} s.torus.ports p
def State.setPort (s : State) (p : Nat) (x : TorPort) : State :=
  { s with torus := { s.torus with ports := Map.set {} s.torus.ports p x } }

/-- LINK_STATUS.STATE of a port. -/
def State.linkSt (s : State) (p : Nat) : Nat := s.fget (Reg.linkStatusState.port p)

/-- The port is UP or DEGRADED. -/
def State.linkUp (s : State) (p : Nat) : Bool := s.linkSt p == lkUp || s.linkSt p == lkDegraded

/-- Traffic may flow: UP or DEGRADED, with the peer of R305 (R306). -/
def State.linkOpen (s : State) (p : Nat) : Bool := s.linkUp p && s.fget (Reg.linkStatusDisc.port p) == 1

/-- The package is quarantined (R321). -/
def State.quarantined (s : State) : Bool := s.flag Reg.torStatusQuarantine

/-- A message of a TYPE may begin here: a quarantined package sends only HELLO, LINK_STATE, WAY_SYNC and WAY_REPLY, and
forwards what others began (R321, log 82); one whose hub is stopped sends nothing (R370). -/
def State.carries (s : State) (type : Nat) : Bool := !s.hubStopped && (!s.quarantined || [0x01, 0x06, 0x08, 0x09].contains type)

/-- A revocation of a unit at an incarnation is held. -/
def State.isRevoked (s : State) (pos unit inc : Nat) : Bool :=
  s.torus.revs.any (fun e => e.2 == some { pos := pos, unit := unit, inc := inc })

/-- The port's own incarnation is revoked: it originates nothing until it is re-admitted (R321, R322). -/
def State.portRevoked (s : State) (p : Nat) : Bool := s.isRevoked s.position (unitPort p) (s.incarnation (unitPort p))

/-- TOR_PKG_INC and LINK_INC follow the incarnations (R318). -/
def State.showIncs (s : State) : State :=
  (s.fset Reg.torPkgInc (s.incarnation unitPackage)).each (List.range 6) (fun s p =>
    s.fset (Reg.linkInc.port p) (s.incarnation (unitPort p)))

/-! ### Routing (R309, R310, R328) -/

/-- The first axis on which a destination differs. -/
def State.routeAxis (s : State) (dst : Nat) : Option Nat := [0, 1, 2].find? (fun a => coord dst a != coord s.position a)

/-- The port of R309: the shorter way, increasing when both ways are equal. -/
def State.planned (s : State) (dst : Nat) : Option Nat :=
  (s.routeAxis dst).map (fun a =>
    let n := s.dim a
    let up := (coord dst a + n - coord s.position a) % n
    if 2 * up ≤ n then 2 * a else 2 * a + 1)

/-- A port passes over a position on its way: the destination lies among the positions it skips (R310). -/
def State.skips (s : State) (p dst : Nat) : Bool :=
  let a := portAxis p
  let n := s.dim a
  let c := coord s.position a
  let d := if portUpward p then (coord dst a + n - c) % n else (c + n - coord dst a) % n
  decide (0 < d ∧ d ≤ s.fget (Reg.linkStatusSkip.port p))

/-- The port of an installed detour, while it is UP or DEGRADED. -/
def State.detourPort (s : State) (dst : Nat) : Option Nat :=
  match Map.get 0 s.torus.detours dst with
  | 0 => none
  | q + 1 => if s.linkUp q then some q else none

/-- The port a packet that came by port `via` leaves by: an installed detour, R309's, the other way round the axis, or none. One that
already goes the other way round, so that R309's port is the one it came by, goes on that way (log 110). -/
def State.routeVia (s : State) (via : Option Nat) (dst : Nat) : Option Nat :=
  match s.planned dst with
  | none => none
  | some p =>
    match s.detourPort dst with
    | some q => some q
    | none =>
      let q := if s.linkUp p && via != some p then p else otherPort p
      if s.linkUp q && !s.skips q dst then some q else none

/-- The port a packet that begins here leaves by. -/
def State.route (s : State) (dst : Nat) : Option Nat := s.routeVia none dst

/-- The port to a ring's successor: R309's or, on a closed ring, the other way round it (R327). -/
def State.ringWay (s : State) (closed : Bool) (dst : Nat) : Option Nat :=
  (s.planned dst).bind (fun p =>
    if s.linkUp p && !s.skips p dst then some p
    else if closed && s.linkUp (otherPort p) && !s.skips (otherPort p) dst then some (otherPort p) else none)

/-- A packet that finds no way is dropped and counted at the port that R309 chooses. -/
def State.unroutable (s : State) (dst : Nat) : State := s.bump (Reg.linkUnroutable.port ((s.planned dst).getD 0))

/-! ### Fault records and the TORUS event (R332, R346) -/

/-- A torus record: subject position, port, lane, incarnation concerned and value. -/
def State.torusRecord (s : State) (sev code pos port lane inc value : Nat) : State :=
  (s.record sev 0 code (if port = 0xFF then unitPackage else unitPort port)
    (leBytes 2 pos ++ [port, lane] ++ leBytes 4 inc ++ leBytes 4 value)).pkgEvent .torus

/-! ### Cyclic redundancy checks (R291, R314) -/

/-! ### Packets (R313, R314) -/

/-- The bytes of a control message: control header, body, CRC-32C. -/
def ctrlBytes (type : Nat) (h : CtrlHdr) (body : List Nat) : List Nat :=
  let m := [type, if h.ackReq then 1 else 0] ++ leBytes 2 body.length ++ leBytes 2 h.srcPos ++ leBytes 2 h.dstPos ++ leBytes 4 h.srcUnit ++
    leBytes 4 h.srcInc ++ leBytes 4 h.dstUnit ++ leBytes 4 h.dstInc ++ leBytes 4 h.seq ++ [h.part, 0, 0, 0] ++ body
  m ++ leBytes 4 (crc32c m)

/-- KIND of a packet's header, and the bytes after the header. -/
def PktBody.kind : PktBody → Nat
  | .control .. => 0
  | .data _ => 1
def PktBody.bytes : PktBody → List Nat
  | .control type h body => ctrlBytes type h body
  | .data b => b
def PktBody.length : PktBody → Nat
  | .control _ _ body => 32 + body.length + 4
  | .data b => b.length

/-- The 16-byte header. -/
def Packet.header (k : Packet) : List Nat :=
  leBytes 2 k.dst ++ leBytes 2 k.src ++ [k.cls % 4 + 4 * (k.vc % 2), k.content.kind] ++ leBytes 2 k.content.length ++
  leBytes 4 k.session ++ leBytes 4 k.offset
def Packet.bytes (k : Packet) : List Nat := k.header ++ k.content.bytes

/-- A control packet, and a DATA packet, that this package begins. -/
def ctrlPacket (type : Nat) (h : CtrlHdr) (body : List Nat) : Packet :=
  { dst := h.dstPos, src := h.srcPos, cls := clsCtrl, vc := h.vc, session := 0, offset := 0, inp := 6,
    content := .control type { h with vc := 0 } body }
def dataPacket (dst src cls vc session offset : Nat) (b : List Nat) : Packet :=
  { dst := dst, src := src, cls := cls, vc := vc, session := session, offset := offset, inp := 6, content := .data b }

/-- The same packet, its lines on a member's credits (R356). -/
def Packet.for_ (k : Packet) (m : Nat) : Packet := { k with member := some m }

/-! ### Flits (R291, R292) -/

/-- Flits that `n` packet bytes take; each packet begins a new flit (log 30). -/
def flitsOf (n : Nat) : Nat := ceilDiv n 504
def Packet.flits (k : Packet) : Nat := flitsOf (16 + k.content.length)

/-- The 512 bytes of a flit: header, payload, link CRC. -/
def flitBytes (seq : Nat) (lm : Bool) (ack : Nat) (nak : Bool) (payload : List Nat) : List Nat :=
  let m := leBytes 4 (seq % 32768 + (if lm then 0x8000 else 0) + ack % 32768 * 0x10000 + (if nak then 0x80000000 else 0)) ++
    padTo 504 payload
  m ++ leBytes 4 (crc32 m)

/-- The SEQ of the last good flit received on a port. -/
def TorPort.lastGood (x : TorPort) : Nat := (x.rxSeq + 32767) % 32768

/-- A sequenced flit leaves, with the ACK of what has come. -/
def State.sendFlit (s : State) (p : Nat) (f : Flit) : State :=
  s.send (.flit p (flitBytes f.seq false (s.port p).lastGood false f.payload))

/-- ACK or NAK with the last good SEQ, in a link-management flit (log 107). -/
def State.answerFlit (s : State) (p : Nat) (nak : Bool) : State :=
  s.send (.flit p (flitBytes 0 true (s.port p).lastGood nak []))

/-! ### The router's queue for a port (R15, R292, R311) -/

/-- The link of a port crosses the end of its axis. -/
def State.wraps (s : State) (p : Nat) : Bool :=
  let a := portAxis p
  let c := coord s.position a
  let k := s.fget (Reg.linkStatusSkip.port p) + 1
  if portUpward p then decide (s.dim a ≤ c + k) else decide (c < k)

/-- The virtual channel of a packet on port `q` that came on channel `vc` by port `via`, or begins here: VC1 from the wrap link
of its axis on, VC0 again where it turns (log 106). -/
def State.nextVc (s : State) (q : Nat) (via : Option (Nat × Nat)) : Nat :=
  if s.wraps q then 1 else
  match via with
  | some (p, vc) => if portAxis p = portAxis q then vc % 2 else 0
  | none => 0

/-- Flits kept that hold credit of a class and virtual channel, and the most that may. -/
def TorPort.held (x : TorPort) (cls vc : Nat) : Nat := (x.replay.filter (fun f => f.cls == cls && f.vc == vc)).length
def torusCredit (cls vc : Nat) : Nat := Config.portCredit cls vc + 9

/-- A packet may leave: the replay buffer of 12,288 flits and its channel's credit have room. -/
def TorPort.room (x : TorPort) (k : Packet) : Bool :=
  decide (x.replay.length + k.flits ≤ 12288) && decide (x.held k.cls k.vc + k.flits ≤ torusCredit k.cls k.vc)

/-! ### The tollgate at a port's egress, resource 4 + p (R311, R355 to R357) -/

/-- BULK_SHARE of a member; the package account has none, and its BULK waits for nothing. -/
def State.bulkShare (s : State) (m : Nat) : Nat := if m = 32 then 16 else s.partRec m 18 1

/-- A member has DATA, or any request, waiting at a port. -/
def TorPort.asks (x : TorPort) (m : Nat) : Bool := x.waiting.any (fun k => k.member == some m)
def TorPort.asksData (x : TorPort) (m : Nat) : Bool := x.waiting.any (fun k => k.member == some m && k.cls == clsData)

/-- A line of a packet may take one of its member's own credits: while DATA of the member waits, BULK uses at most its share. -/
def State.ownCredit (s : State) (p : Nat) (k : Packet) (m : Nat) : Bool :=
  let i := tollSel m (4 + p)
  decide (0 < Map.get 0 s.pci.left i) &&
  (k.cls != clsBulk || !(s.port p).asksData m ||
    decide (16 * Map.get 0 s.pci.bulkUsed i < s.fget (Reg.tollGrantCredits.sel i) * s.bulkShare m))

/-- Members that wait for nothing at a port give what is left of their credits to the spare (R356). -/
def State.giveIdle (s : State) (p : Nat) : State :=
  s.each ((List.range 33).filter (fun m => !(s.port p).asks m)) (fun s m =>
    let i := tollSel m (4 + p)
    { s with pci := { s.pci with
      spare := Map.modify 0 s.pci.spare (4 + p) (· + 64 * Map.get 0 s.pci.left i), left := Map.set 0 s.pci.left i 0 } })

/-- A line of a packet may draw on the spare: its member has no credits, and is the next in turn of those that ask so. -/
def State.spareCredit (s : State) (p : Nat) (m : Nat) : Bool :=
  let none := fun n => decide (Map.get 0 s.pci.left (tollSel n (4 + p)) = 0)
  none m && decide (0 < Map.get 0 (s.giveIdle p).pci.spare (4 + p)) &&
  m == nextInput (Map.get 0 s.pci.spareTurn (4 + p)) ((List.range 33).filter (fun n => (s.port p).asks n && none n))

/-- A line of a packet holds the credit it needs; control and transit packets need none. -/
def State.hasCredit (s : State) (p : Nat) (k : Packet) : Bool :=
  match k.member with
  | some m => s.ownCredit p k m || s.spareCredit p m
  | none => true

/-- The line takes its credit: how many of its bytes may move, and the state. -/
def State.takeCredit (s : State) (p : Nat) (k : Packet) : Nat × State :=
  match k.member with
  | none => (64, s)
  | some m =>
    let i := tollSel m (4 + p)
    if s.ownCredit p k m then
      (64, ({ s with pci := { s.pci with
        left := Map.modify 0 s.pci.left i (· - 1),
        bulkUsed := if k.cls = clsBulk then Map.modify 0 s.pci.bulkUsed i (· + 1) else s.pci.bulkUsed } }).bump (Reg.tollUsed.sel i))
    else
      let s := s.giveIdle p
      let n := min 64 (Map.get 0 s.pci.spare (4 + p))
      (n, ({ s with pci := { s.pci with
        spare := Map.modify 0 s.pci.spare (4 + p) (· - n), spareTurn := Map.set 0 s.pci.spareTurn (4 + p) m } }).bump (Reg.tollSpare.sel i))

/-- The packets of which a line may leave next: the oldest of each class, channel, input and member, where they have room and
credit. -/
def State.heads (s : State) (p : Nat) : List Packet → List (Nat × Nat × Nat × Option Nat) → List Packet
  | [], _ => []
  | k :: ks, seen =>
    let key := (k.cls, k.vc, k.inp, k.member)
    if seen.contains key then s.heads p ks seen
    else if (s.port p).room k && s.hasCredit p k then k :: s.heads p ks (key :: seen) else s.heads p ks (key :: seen)

/-- A packet leaves on a port: its flits are kept for replay. -/
def State.transmit (s : State) (p : Nat) (k : Packet) : State :=
  let x := s.port p
  let fs := (List.range k.flits).map (fun i =>
    { seq := (x.txSeq + i) % 32768, cls := k.cls, vc := k.vc, payload := padTo 504 ((k.bytes.drop (504 * i)).take 504) : Flit })
  let s := s.setPort p { x with txSeq := (x.txSeq + k.flits) % 32768, replay := x.replay ++ fs }
  (s.send (.packet p k)).each fs (fun s f => s.sendFlit p f)

/-- A line of a waiting packet passes the port's arbiter; after its last line the packet leaves. -/
def State.moveLine (s : State) (p : Nat) (k : Packet) (arb : OutArb) : State :=
  let q := s.takeCredit p k
  let s := q.2
  let x := s.port p
  let gone := k.gone + min q.1 (k.content.length - k.gone)
  if k.content.length ≤ gone then
    (s.setPort p { x with waiting := x.waiting.erase k, arb := arb }).transmit p { k with gone := 0 }
  else s.setPort p { x with waiting := x.waiting.replace k { k with gone := gone }, arb := arb }

/-- The port sends what waits for it, line by line, as far as there is room and credit; the arbiter of R15 chooses. `n` bounds the
lines. -/
def State.pump (s : State) (p : Nat) : Nat → State
  | 0 => s
  | n + 1 =>
    let x := s.port p
    let ks := s.heads p x.waiting []
    match x.arb.pick (ks.map (fun k => (k.cls, k.inp))) with
    | none => s
    | some (w, arb) =>
      match ks.find? (fun k => k.cls == w.1 && k.inp == w.2) with
      | none => s
      | some k => (s.moveLine p k arb).pump p n

/-- Lines, whole or part, that the waiting packets take at most. -/
def TorPort.lines (x : TorPort) : Nat := (x.waiting.map (fun k => k.content.length / 64 + 2)).sum

def State.drainPort (s : State) (p : Nat) : State := if s.linkUp p then s.pump p (s.port p).lines else s

/-- A packet is queued for a port that is UP or DEGRADED; on another, or with the hub stopped, nothing leaves. -/
def State.enqueue (s : State) (p : Nat) (k : Packet) : State :=
  if !s.linkUp p || s.hubStopped then s else
  let x := s.port p
  (s.setPort p { x with waiting := x.waiting ++ [k], waitSince := if x.waiting.isEmpty then s.now else x.waitSince }).drainPort p

/-- A packet in transit goes on by port `q`, having come by port `p` (R310, R311). -/
def State.passOn (s : State) (q p : Nat) (k : Packet) : State :=
  let x := s.port q
  (s.setPort q { x with transit := x.transit + 16 + k.content.length }).enqueue q { k with vc := s.nextVc q (some (p, k.vc)), inp := p }

/-- A packet in transit that came by port `p` goes on, or is dropped as unroutable. -/
def State.forward (s : State) (p : Nat) (k : Packet) : State :=
  match s.routeVia (some p) k.dst with
  | some q => s.passOn q p k
  | none => s.unroutable k.dst

/-! ### Control messages out (R313 to R316) -/

/-- A control message leaves on a port. -/
def State.sendOn (s : State) (p type : Nat) (h : CtrlHdr) (body : List Nat) : State :=
  s.enqueue p { ctrlPacket type h body with vc := s.nextVc p none }

/-- The next SEQ of a sending unit. -/
def State.takeSeq (s : State) (u : Nat) : Nat × State :=
  let q := Map.get 0 s.torus.seqs u
  (q, { s with torus := { s.torus with seqs := Map.set 0 s.torus.seqs u ((q + 1) % 2 ^ 32) } })

/-- The header of a message of unit `u`. -/
def State.header (s : State) (u seq dst part : Nat) (ackReq : Bool) : CtrlHdr :=
  { srcPos := s.position, srcUnit := u, srcInc := s.incarnation u, dstPos := dst, dstUnit := unitPackage, dstInc := 0,
    seq := seq, ackReq := ackReq, part := part }

/-- A port carries what this package begins in a session opened at a waymark: the package is not quarantined, and the port is not
waiting for its re-admission, which was before (R321, R322). -/
def State.carriesSession (s : State) (p opened : Nat) : Bool :=
  !s.quarantined && !s.portRevoked p && decide ((s.port p).readmitted ≤ opened)

/-- A message to the peer on a link, from the port; a port not yet re-admitted issues only the HELLO of its training (R295,
R321, log 109). -/
def State.sendPeer (s : State) (p type : Nat) (body : List Nat) : State :=
  if !s.carries type || (type != 0x01 && s.portRevoked p) then s else
  let q := s.takeSeq (unitPort p)
  q.2.sendOn p type (q.2.header (unitPort p) q.1 0xFFFF 0xFF false) body

/-- A message is kept until its ACK comes. -/
def State.addUnacked (s : State) (u : Unacked) : State := { s with torus := { s.torus with unacked := s.torus.unacked ++ [u] } }

/-- A message of the package to a position; one with ACK_REQ is kept for retransmission. -/
def State.sendTo (s : State) (dst part type purpose : Nat) (ackReq : Bool) (body : List Nat) : State :=
  if !s.carries type then s else
  let q := s.takeSeq unitPackage
  let s := q.2
  let s := if ackReq then
      s.addUnacked ⟨unitPackage, q.1, none, dst, part, type, body, 0, purpose⟩
    else s
  match s.route dst with
  | some p => s.sendOn p type (s.header unitPackage q.1 dst part ackReq) body
  | none => s.unroutable dst

/-- A flood: on every UP port but the one it came by. The origin's header is kept when it is forwarded. -/
def State.flood (s : State) (type : Nat) (h : CtrlHdr) (but : Option Nat) (body : List Nat) : State :=
  s.each ((List.range 6).filter (fun p => s.linkUp p && but != some p)) (fun s p => s.sendOn p type h body)

/-- A flood that this package begins. -/
def State.floodNew (s : State) (type : Nat) (body : List Nat) : State :=
  if !s.carries type then s else
  let q := s.takeSeq unitPackage
  q.2.flood type (q.2.header unitPackage q.1 0xFFFF 0xFF false) none body

/-! ### Bodies (R303, R315) -/

def helloType : Nat := 0x01
def ackType : Nat := 0x02

/-- The 224 bytes of a HELLO. -/
def State.helloBody (s : State) (p : Nat) : List Nat :=
  padTo 16 s.volz.installation ++ padTo 8 s.nv.identity ++ leBytes 4 (s.incarnation unitPackage) ++ leBytes 2 s.position ++
  [p, min 2 s.healthNow] ++ padTo 64 s.boot.fwDigest ++ padTo 64 s.boot.nvDigest ++ padTo 64 s.volz.runDigest

def revokeBody (r : Rev) : List Nat := leBytes 2 r.pos ++ [0, 0] ++ leBytes 4 r.unit ++ leBytes 4 r.inc

/-- A HELLO leaves a port that is UP or DEGRADED (R304). -/
def State.sendHello (s : State) (p : Nat) : State := if s.linkUp p then s.sendPeer p helloType (s.helloBody p) else s

/-- CC4's own entry in its link map, and the LINK_STATE flood that tells the others (R328). -/
def State.floodLinkState (s : State) (p : Nat) : State :=
  let s := { s with torus := { s.torus with
    links := Map.set 0 s.torus.links (s.position * 8 + p) (s.linkSt p + 1), replan := true } }
  s.floodNew 0x06 (leBytes 2 s.position ++ [p, s.linkSt p] ++ leBytes 4 (s.incarnation (unitPort p)))

/-! ### Revocations (R319 to R322) -/

/-- The lowest free place of the table of revocations. -/
def State.freeRev (s : State) : Option Nat := (List.range 256).find? (fun i => Map.get none s.torus.revs i == none)

/-- A revocation, where it is held or the table has a free place; else it is refused, with its record and nothing more (R319). -/
def State.withRev (s : State) (r : Rev) (f : State → State) : State :=
  if s.isRevoked r.pos r.unit r.inc || s.freeRev.isSome then f s else s.torusRecord 1 0x6A r.pos 0xFF 0xFF r.inc r.unit

/-- TOR_REV_SEL, TOR_REV_UNIT and TOR_REV_INC show the selected entry; TOR_REV_INC keeps what was written while it is
free. -/
def State.showRev (s : State) : State :=
  match Map.get none s.torus.revs (s.fget Reg.torRevSelEntry) with
  | some r => (((s.fset Reg.torRevSelValid 1).fset Reg.torRevSelPos r.pos).fset Reg.torRevUnit r.unit).fset Reg.torRevInc r.inc
  | none => ((s.fset Reg.torRevSelValid 0).fset Reg.torRevSelPos 0).fset Reg.torRevUnit 0

/-- A revocation is entered in the lowest free place of the table. -/
def State.enterRev (s : State) (r : Rev) : State :=
  if s.isRevoked r.pos r.unit r.inc then s else
  match s.freeRev with
  | some i => { s with torus := { s.torus with revs := Map.set none s.torus.revs i (some r) } }.showRev
  | none => s

/-- The entries that `f` names are removed and their places freed (R320). -/
def State.dropRevs (s : State) (f : Rev → Bool) : State :=
  ({ s with torus := { s.torus with revs := s.torus.revs.filter (fun e => match e.2 with | some r => !f r | none => false) } }).showRev

/-- A unit of this package is declared dead: its incarnation is revoked (R319). A port's revocation is flooded. -/
def State.revokeOwn (s : State) (u : Nat) : State :=
  let r : Rev := { pos := s.position, unit := u, inc := s.incarnation u }
  if s.isRevoked r.pos r.unit r.inc then s else
  s.withRev r (fun s =>
    let s := (s.enterRev r).bump Reg.torRevokes
    if u / 2 ^ 28 ≤ 1 then s.floodNew 0x03 (revokeBody r) else s)

/-- The revocations of ports and packages are sent to a new peer (R319); a port that is itself revoked sends them once it is
re-admitted. -/
def State.tellRevs (s : State) (p : Nat) : State :=
  if s.portRevoked p then s.setPort p { s.port p with owes := true } else
  (s.setPort p { s.port p with owes := false }).each s.torus.revs (fun s e => match e.2 with
    | some r => if r.unit / 2 ^ 28 ≤ 1 then s.sendPeer p 0x03 (revokeBody r) else s
    | none => s)

/-- A unit returns with a new incarnation, bits [7:0] raised; at 255 only a reset returns it (R322). -/
def State.readmitOwn (s : State) (u : Nat) : State :=
  let old := s.incarnation u
  if old % 256 = 255 then s else
  let s := if u / 2 ^ 28 = 1 then s.setPort (u % 2 ^ 28) { s.port (u % 2 ^ 28) with upSince := none, readmitted := s.now } else s
  let s := ((s.dropRevs (fun r => r.pos == s.position && r.unit == u)).admission u).showIncs
  if u / 2 ^ 28 = 1 ∧ (s.port (u % 2 ^ 28)).owes ∧ s.linkUp (u % 2 ^ 28) then s.tellRevs (u % 2 ^ 28) else s

/-! ### How a collective ends (R326) -/

/-- Completion codes of R326. -/
def ccDone : Nat := 0x01
def ccDegraded : Nat := 0x02
def ccLinkLost : Nat := 0x10
def ccTimeout : Nat := 0x11
def ccFenced : Nat := 0x12
def ccBadDesc : Nat := 0x13
def ccAborted : Nat := 0x14

/-- A string's flag rises by 1, up to 255; `by_` is the string to blame + 1, 0 for none (R184, R499). -/
def State.raiseFlag (s : State) (x flag by_ : Nat) : State :=
  let q : Seq := Map.get {} s.seqs x
  let q := { q with
    flags := Map.modify 0 q.flags flag (fun v => min 255 (v + 1)), signallers := Map.set 0 q.signallers flag by_ }
  { s with seqs := Map.set {} s.seqs x q }

/-- A collective ends on this member, as the member at `pos` reports: status record, flag, counters, and for a failure its record. -/
def State.endColl (s : State) (c : Coll) (code port pos : Nat) : State :=
  let s := { s with torus := { s.torus with
    colls := s.torus.colls.filter (fun d => !(d.part == c.part && d.id == c.id)),
    collIn := s.torus.collIn.map (fun (d : CollIn) => if d.part = c.part ∧ d.id = c.id then { d with past := true } else d) } }
  let s := s.writeThrough (unitColl ((if port < 6 then port else 0))) (field c.desc 40 8)
    ([code, port] ++ leBytes 2 pos ++ leBytes 4 c.done ++ leBytes 8 s.now)
  let s := s.raiseFlag c.str (field c.desc 3 1) 0
  if code = ccDone then s.bump Reg.torCollDone
  else if code = ccDegraded then s.bump Reg.torCollDegraded
  else (s.bump Reg.torCollFailed).torusRecord 1 0x67 pos port 0xFF (s.incarnation unitPackage) c.id

/-- The collectives of a step end with ABORTED when the step is abandoned, or its partition quiesced (R326). -/
def State.abortColls (s : State) (step : Nat) : State :=
  s.each (s.torus.colls.filter (fun c => c.step == step)) (fun s c => s.endColl c ccAborted 0xFF s.position)

/-- The call of another package that a number stands for in its work (R329). -/
def State.servedAs (s : State) (id : Nat) : Option Served := s.torus.served.find? (fun v => v.run == some id)

/-- The expert calls of a step are forgotten. -/
def State.dropCalls (s : State) (step : Nat) : State :=
  { s with torus := { s.torus with calls := s.torus.calls.filter (fun c => c.step != step) } }

end Sys2Proof.Machine
end

