-- ==== Sys2Proof/Machine/Steps.lean ====
section
/-!
DEFINITION. Steps as a whole: which slots and strings a step has, the registers of its groups (R155, R158), and what a sequencer waits
for (R499).
-/
namespace Sys2Proof.Machine

/-! ### Accessors -/

def State.step? (s : State) (id : Nat) : Option Step := s.steps.find? (fun x => x.id == id)

/-- The step record is replaced. -/
def State.setStep (s : State) (x : Step) : State := { s with steps := s.steps.map (fun y => if y.id = x.id then x else y) }

/-- The HARNESS of a partition. -/
def State.harness (s : State) (p : Nat) : List Nat := s.body 0x10 p

/-- The milepost number that a step would take (R162). -/
def State.nextMilepost (s : State) (p : Nat) : Nat := (s.partGet p).milepost

/-- The slots that take part in a step and have not left it. -/
def State.stepSlots (s : State) (id : Nat) : List Nat :=
  match s.step? id with
  | none => []
  | some x => (x.seqs.filter (fun e => let i := (s.slot (s.globalSlot x.part e.slot)).inStep
      i == some id || (x.twin.isSome && i == x.twin))).map
      (fun e => s.globalSlot x.part e.slot)

/-- The team-local index of a layer on a team. -/
def localLayer (h : List Nat) (t l : Nat) : Nat :=
  match (layerPlaces h l).find? (fun x => x.team == t) with
  | some x => x.loc
  | none => 0xFF

/-- The accumulator's address (R159). -/
def accAddr (t tile i : Nat) : Nat := accRegion + t * 0x40000 + tile * 0x400 + 4 * i

/-! ### Groups' registers follow the groups -/

/-- ACC_STATUS.OPEN, and ACC_GROUP and ACC_GROUP_INFO of one group, as the group stands. -/
def State.showGroup (s : State) (t g : Nat) : State :=
  let x := Map.get {} (s.team t).groups g
  let d := x.desc
  let pend := ((s.team t).deliveries.filter (fun v => v.group == g && !v.stray)).length
  let open_ := s.fget (Reg.accStatusOpen.team t)
  let s := s.fset (Reg.accStatusOpen.team t) (if x.st = 0 then clearBit open_ g else setBit open_ g)
  let s := (s.fset ((Reg.accGroupState.team t).sel g) x.st).fset ((Reg.accGroupMode.team t).sel g) d.mode
  let s := (s.fput ((Reg.accGroupSat.team t).sel g) x.sat).fset ((Reg.accGroupPending.team t).sel g) (min 15 pend)
  let s := (s.fset ((Reg.accGroupVectorsM1.team t).sel g) (d.vectors - 1)).fset ((Reg.accGroupWidthM1.team t).sel g) (d.width - 1)
  let s := (s.fset ((Reg.accGroupFirst.team t).sel g) d.first).fset ((Reg.accGroupInfoLayer.team t).sel g) d.layer
  let s := (s.fset ((Reg.accGroupInfoFix.team t).sel g) d.fix).fset ((Reg.accGroupInfoTopkK.team t).sel g) d.topkK
  (s.fset ((Reg.accGroupInfoOutMx.team t).sel g) d.outMx).fput ((Reg.accGroupInfoTopkDir.team t).sel g) d.topkAsc

/-- A group is changed, with its registers. -/
def State.setGroup (s : State) (t g : Nat) (x : Group) : State :=
  (s.setTeam t { s.team t with groups := Map.set {} (s.team t).groups g x }).showGroup t g

/-- A group becomes FREE without close actions and counts in ACC_ABANDONED (R158); its open runs go with it. -/
def State.abandonGroup (s : State) (t g : Nat) : State :=
  let x := Map.get {} (s.team t).groups g
  if x.st = 0 then s else
  let s := s.setTeam t { s.team t with runs := (s.team t).runs.filter (fun r => r.group != g) }
  (s.setGroup t g { x with st := 0 }).bumpTeam t Reg.accAbandoned 1

/-- The step's open groups on a team are abandoned. -/
def State.abandonGroups (s : State) (id t : Nat) : State :=
  s.each ((s.team t).groups.filter (fun e => e.2.step == id && e.2.st != 0)) (fun s e => s.abandonGroup t e.1)

/-! ### Waits (R499) -/

/-- The unit that a wait names when none is to blame (R499). -/
def nobody : Nat := 0xFFFFFFFF

/-- WAIT, WAIT_ON and WAIT_SINCE of a debug unit; reason 0 when it does not wait. -/
def State.showWait (s : State) (u reason detail on since : Nat) : State :=
  let s := (s.fset (Reg.waitReason.unit u) reason).fset (Reg.waitDetail.unit u) detail
  (s.fset (Reg.waitOn.unit u) on).fset64 (Reg.waitSinceLo.unit u) (Reg.waitSinceHi.unit u) since

/-- The sequencer waits for a reason, or no longer does; a wait that lasts keeps its beginning. -/
def State.seqWait (s : State) (x : Nat) (w : Option (Nat × Nat × Nat)) : State :=
  let q := s.seq x
  match w with
  | none => if q.wait.isNone then s else (s.setSeqr x { q with wait := none }).showWait (32 + x) 0 0 0 0
  | some (r, d, u) =>
    let since := match q.wait with
      | some (r', d', u', t) => if r' = r ∧ d' = d ∧ u' = u then t else s.now
      | none => s.now
    (s.setSeqr x { q with wait := some (r, d, u, since) }).showWait (32 + x) r d u since

/-- A sequencer that leaves its step waits no longer, unless it is halted (R491). -/
def State.stopWait (s : State) (x : Nat) : State := if (s.seq x).halted then s else s.seqWait x none

end Sys2Proof.Machine
end

