-- ==== Sys2Proof/Machine/Arrays.lean ====
section
/-!
DEFINITION. One tile's arithmetic (R55 to R71): cells and columns, exact sums, row classes, the array band, the column
code and the result record; scale stores (R57); the block layout of a plane (R271, R275).
-/
namespace Sys2Proof.Machine

/-! ### Tiles -/

def tileKey (t k : Nat) : Nat := t * 64 + k
def State.tile (s : State) (t k : Nat) : Tile := Map.get {} s.tiles (tileKey t k)
def State.setTile (s : State) (t k : Nat) (x : Tile) : State := { s with tiles := Map.set {} s.tiles (tileKey t k) x }

/-- The stored weight cells and the scale store of a plane (0 A, 1 B). -/
def Tile.cells (x : Tile) (plane : Nat) : SMap Nat := if plane = 0 then x.planeA else x.planeB
def Tile.scales (x : Tile) (plane : Nat) : SMap Nat := if plane = 0 then x.scaleA else x.scaleB

def cellKey (row phys : Nat) : Nat := row * 264 + phys

/-- The stored 4 bits of a cell. -/
def Tile.cell (x : Tile) (plane row phys : Nat) : Nat := Map.get 0 (x.cells plane) (cellKey row phys)

def Tile.setCell (x : Tile) (plane row phys v : Nat) : Tile :=
  if plane = 0 then { x with planeA := Map.set 0 x.planeA (cellKey row phys) (v % 16) }
  else { x with planeB := Map.set 0 x.planeB (cellKey row phys) (v % 16) }

def Tile.setScaleByte (x : Tile) (plane off v : Nat) : Tile :=
  if plane = 0 then { x with scaleA := Map.set 0 x.scaleA off (v % 256) }
  else { x with scaleB := Map.set 0 x.scaleB off (v % 256) }

/-- The BF16 word at a byte offset of a plane's scale store. -/
def Tile.scaleWord (x : Tile) (plane off : Nat) : Nat :=
  Map.get 0 (x.scales plane) off + 256 * Map.get 0 (x.scales plane) (off + 1)

/-- The column scale of logical column `c`, and its segment scale for segment `seg` (R57). -/
def Tile.colScale (x : Tile) (plane c : Nat) : Nat := x.scaleWord plane (2 * c)
def Tile.segScaleOf (x : Tile) (plane seg c : Nat) : Nat := x.scaleWord plane (512 + 2 * (256 * seg + c))

/-- The physical column that carries logical column `c` of a tile: its IN_USE spare column, or its own (R56). -/
def Team.phys (x : Team) (k c : Nat) : Nat :=
  match (List.range 8).find? (fun i =>
      let v := Map.get {} x.cols (k * 8 + i)
      v.st == 1 && v.logical == c) with
  | some i => 256 + i
  | none => c

/-! ### Weights (R55, R71) -/

/-- An S4 weight: the code 0x8 is zero. -/
def s4 (v : Nat) : Int := if v.testBit 3 then -((v % 8 : Nat) : Int) else (v % 8 : Nat)

/-- The weight that logical column `c` adds in a row: S4; in a pair the even column's sign and top bits, or the odd
column's low bits with the sign stored in the even column. -/
def State.weight (s : State) (t k plane row c : Nat) (pair : Bool) : Int :=
  let x := s.tile t k
  let v := x.cell plane row ((s.team t).phys k c)
  if !pair then s4 v else
  if c % 2 = 0 then (if v.testBit 3 then -((v % 8 : Nat) : Int) else (v % 8 : Nat))
  else if (x.cell plane row ((s.team t).phys k (c - 1))).testBit 3 then -((v % 16 : Nat) : Int) else (v % 16 : Nat)

/-- A whole weight: S4, or ±(16 mh + ml) of pair `j` = columns 2j, 2j + 1 (R71). `c` is the result column. -/
def State.resultWeight (s : State) (t k plane row c : Nat) (pair : Bool) : Int :=
  if pair then 16 * s.weight t k plane row (2 * c) true + s.weight t k plane row (2 * c + 1) true
  else s.weight t k plane row c false

/-- The exact sums of the positive and of the negative chain of a column over driven rows, in product units (R59). -/
def State.chainSums (s : State) (t k plane : Nat) (rows : List (Nat × Bool × Nat)) (pair : Bool) (c : Nat) : Nat × Nat :=
  rows.foldl (fun a r =>
    let v := (if r.2.1 then -(r.2.2 : Int) else r.2.2) * s.weight t k plane r.1 c pair
    if 0 ≤ v then (a.1 + v.toNat, a.2) else (a.1, a.2 + (-v).toNat)) (0, 0)

/-- The exact sum of a column over driven rows, in product units (R59). -/
def State.columnSum (s : State) (t k plane : Nat) (rows : List (Nat × Bool × Nat)) (pair : Bool) (c : Nat) : Int :=
  rows.foldl (fun a r => a + (if r.2.1 then -(r.2.2 : Int) else r.2.2) * s.weight t k plane r.1 c pair) 0

/-! ### Row class, band, code (R61, R62, R78) -/

/-- The row class of `n` active rows under a floor. -/
def rowClass (n floor : Nat) : Nat :=
  max ((List.range 5).find? (fun e => decide (n ≤ 64 * 2 ^ e)) |>.getD 4) floor

/-- The LSB exponent X. -/
def lsbExp (n floor : Nat) (pair : Bool) : Nat := rowClass n floor + (if pair then 1 else 0)

/-- The limit g_X of R77. -/
def gainLimit (x : Nat) : Rat := (4 + x : Nat) / 1000

/-- The array band B of an exact sum (R78). -/
def band (x : Nat) (sum : Int) : Rat := gainLimit x * (sum.natAbs : Rat) / 2 ^ x + 46 / 10

/-- The corrected difference clamped to the code range, and whether it clamps (R62). -/
def codeOf (d : Int) : Int × Bool := (clampInt (-4095) 4095 d, decide (d < -4095 ∨ 4095 < d))

/-! ### Raw stamps and their correction (R62, R111, R116) -/

/-- A raw stamp is a 16-bit number of 1/8 LSB. -/
def stampCount : Nat := 65536

/-- GAIN and OFFSET of a chain of a physical column: 0 the positive chain, 1 the negative one. -/
def CoefSet.at (c : CoefSet) (phys chain : Nat) : Int × Int :=
  (Map.get 0 c.gain (2 * phys + chain), Map.get 0 c.offset (2 * phys + chain))

/-- The corrected time u of a raw stamp, in LSB. -/
def correctedTime (g : Int × Int) (stamp : Nat) : Rat := (stamp : Rat) / 8 * (1 + (g.1 : Rat) / 131072) - (g.2 : Rat) / 64

/-- The corrected difference of a column from the raw stamps of its two chains. -/
def correctedDiff (c : CoefSet) (phys pos neg : Nat) : Int :=
  roundEven (correctedTime (c.at phys 0) pos - correctedTime (c.at phys 1) neg)

/-- The raw stamp whose corrected time lies nearest to a time. -/
def stampOf (g : Int × Int) (u : Rat) : Nat :=
  (clampInt 0 65535 (roundEven ((u + (g.2 : Rat) / 64) / (1 + (g.1 : Rat) / 131072) * 8))).toNat

/-- ROT_PERIOD in seconds (R125). -/
def State.rotPeriod (s : State) : Nat := s.safetyCfg 4 2 60

/-- Sampled checks of the last ROT_PERIOD. -/
def State.recentChecks (s : State) (t : Nat) : List Check :=
  (s.team t).checks.filter (fun c => decide (s.now < c.way + secTicks s.rotPeriod))

/-- A tile whose correction holds: its last calibration completed within twice ROT_PERIOD (R116), or it is tracked and its role had at
least 64 sampled checks in the last ROT_PERIOD (R127). -/
def State.isCorrected (s : State) (t k : Nat) : Bool :=
  let c := (s.tile t k).cal
  (c.valid && decide (s.now ≤ c.way + secTicks (2 * s.rotPeriod))) ||
  (s.flag (Reg.calStatusTracking.team t) && (match (s.team t).roleOf k with
    | some r => decide (64 ≤ ((s.recentChecks t).filter (fun q => q.role == r)).length)
    | none => false))

/-- The raw stamps of the two chains of a column. Those of a corrected tile correct to a difference within the band around
S ÷ 2^X, the negative one as near to its chain's exact time as the raw scale lets both stand; which one, and every stamp of a tile
whose correction does not hold, the spec leaves open (log 5). -/
def State.stamps (s : State) (t k x phys : Nat) (sums : Nat × Nat) : (Nat × Nat) × State :=
  let c := (s.tile t k).cal.active
  let p := c.at phys 0
  let n := c.at phys 1
  if s.isCorrected t k then
    let sum : Int := (sums.1 : Int) - sums.2
    let v : Rat := (sum : Rat) / 2 ^ x
    let lo := ceilRat (v - band x sum)
    let hi := (v + band x sum).floor
    let r := s.draw
    let d : Rat := (lo + (r.1 : Int) % (hi - lo + 1) : Int)
    let first := max (correctedTime n 0) (correctedTime p 0 - d)
    let last := min (correctedTime n (stampCount - 1)) (correctedTime p (stampCount - 1) - d)
    let neg := stampOf n (max first (min last ((sums.2 : Rat) / 2 ^ x)))
    ((stampOf p (correctedTime n neg + d), neg), r.2)
  else
    let a := s.draw
    let b := a.2.draw
    ((a.1 % stampCount, b.1 % stampCount), b.2)

/-! ### Result records (R63, R66, R68) -/

/-- The columns of a record. -/
def columns : List Nat := List.range 256

/-- The record of a phase skipped under R68: code 0, X = 0, ZERO. -/
def zeroRec (tile plane : Nat) (p : Pulse) : TileRec :=
  ⟨tile, plane, 0, List.replicate 256 0, List.replicate 256 false, true, List.replicate 256 0, p⟩

/-- What the beat's command tells of analogue faults: corrected differences that are not those of a corrected tile
(team, tile, logical column, difference) and chain ends that did not arrive (team, tile, logical column). -/
structure BeatFaults where
  wrong : List (Nat × Nat × Nat × Int)
  missing : List (Nat × Nat × Nat)

/-- The corrected difference of one column. A missing end gives a saturated code, whose sign the spec leaves open. -/
def State.difference (s : State) (f : BeatFaults) (t k x : Nat) (sums : Nat × Nat) (c : Nat) : Int × State :=
  if f.missing.contains (t, k, c) then
    let r := s.draw
    (if r.1 % 2 = 0 then 4096 else -4096, r.2)
  else
  match f.wrong.find? (fun e => e.1 == t && e.2.1 == k && e.2.2.1 == c) with
  | some e => (e.2.2.2, s)
  | none =>
    let phys := (s.team t).phys k c
    let r := s.stamps t k x phys sums
    (correctedDiff (s.tile t k).cal.active phys r.1.1 r.1.2, r.2)

/-- The corrected differences of a list of columns, in order. -/
def State.differences (s : State) (f : BeatFaults) (t k x plane : Nat) (p : Pulse) : List Nat → List Int × State
  | [] => ([], s)
  | c :: cs =>
    let r := s.difference f t k x (s.chainSums t k plane p.rows p.pair c) c
    let q := r.2.differences f t k x plane p cs
    (r.1 :: q.1, q.2)

/-- One evaluated beat: the record, before any repair. -/
def State.evaluate (s : State) (f : BeatFaults) (t k : Nat) (p : Pulse) : TileRec × State :=
  let plane := (s.tile t k).live
  let x := lsbExp p.rows.length p.floor p.pair
  let r := s.differences f t k x plane p columns
  let codes := r.1.map codeOf
  (⟨k, plane, x, codes.map (·.1), codes.map (·.2), false, codes.map (fun c => c.1 * 2 ^ x), p⟩, r.2)

/-- V of one column for a record of a phase (R66): the high phase of A8 counts 16 times. -/
def phaseValue (r : TileRec) (c : Nat) : Int := (if r.pulse.phase = 1 then 16 else 1) * r.val.getD c 0

/-- What a tile drives belongs to one vector: step, layer, group, vector, input segment. -/
def Pulse.key (p : Pulse) : List Nat := [p.step, p.layer, p.group, p.vec, p.inSeg, if p.stray then 1 else 0]

/-- The vector of a delivery, likewise. -/
def Delivery.key (d : Delivery) : List Nat := [d.step, d.layer, d.group, d.vec, d.inSeg, if d.stray then 1 else 0]

/-! ### Blocks of a plane (R271, R275) -/

/-- Blocks of the plane image, the spare-column store and the scale store. -/
def planeBlocks : Nat := 4304

/-- Where a byte of a block stands: cells (row, physical columns of the low and the high nibble), or a scale byte. -/
inductive PlaneByte where
  | cells (row lo hi : Nat)
  | scale (off : Nat)
  deriving DecidableEq, Repr

def planeByte (blk i : Nat) : PlaneByte :=
  if blk < 4096 then
    let b := 32 * blk + i
    .cells (b / 128) (b % 128 * 2) (b % 128 * 2 + 1)
  else if blk < 4224 then
    let b := 32 * (blk - 4096) + i
    .cells (b / 4) (256 + b % 4 * 2) (256 + b % 4 * 2 + 1)
  else .scale (32 * (blk - 4224) + i)

/-- The bit `i` of byte `b` of a block flipped. -/
def Tile.flip (x : Tile) (plane blk b i : Nat) : Tile :=
  match planeByte blk b with
  | .cells row lo hi =>
    if i < 4 then x.setCell plane row lo (flipBit (x.cell plane row lo) i)
    else x.setCell plane row hi (flipBit (x.cell plane row hi) (i - 4))
  | .scale off => x.setScaleByte plane off (flipBit (Map.get 0 (x.scales plane) off) i)

/-- The key of a block in a tile's map of wrong check words. -/
def blockKey (plane blk : Nat) : Nat := plane * 8192 + blk

/-- The block of a weight cell, and of a scale byte. -/
def cellBlock (row phys : Nat) : Nat :=
  if phys < 256 then (row * 128 + phys / 2) / 32 else 4096 + (row * 4 + (phys - 256) / 2) / 32
def scaleBlock (off : Nat) : Nat := 4224 + off / 32

/-- Memory-record context of a block of a weight plane (R275). -/
def planeContext (t k plane blk syn : Nat) : List Nat :=
  memContext (t + k * 2 ^ 10 + plane * 2 ^ 16 + blk * 2 ^ 17) 2 syn

end Sys2Proof.Machine
end

