-- ==== Sys2Proof/Machine/Flags.lean ====
section
/-!
DEFINITION. Status and flag registers of a team and its tiles, computed from what they hold (R81, R82, R109, R136, R169):
every command that changes a team ends in `showTeam`, so that the registers never disagree with the team.
-/
namespace Sys2Proof.Machine

/-- The swap commands of a team that name a role. -/
def Team.swapsOf (x : Team) (r : Nat) : List SwapCmd := x.swaps.filter (fun c => c.items.any (fun i => i.1 == r))

/-- TILE_STATUS.KIND (R82): 0 working, 1 spare idle, 2 spare serving a role, 3 retired. -/
def Team.kindOf (x : Team) (k : Nat) (out : Bool) : Nat :=
  if x.retired.contains k then 3 else
  match x.roleOf k with
  | some r => if r = k then 0 else 2
  | none => if out && decide (k < 32) then 0 else 1

/-- TILE_STATUS of a tile. -/
def State.showTile (s : State) (t k : Nat) : State :=
  let x := s.team t
  let y := s.tile t k
  let r := (x.roleOf k).getD 0x3F
  let s := (s.fput (Reg.tileStatusOutOfService.tile t k) y.outOfService).fset (Reg.tileStatusRole.tile t k) r
  let s := (s.fset (Reg.tileStatusKind.tile t k) (x.kindOf k y.outOfService)).fset (Reg.tileStatusLive.tile t k) y.live
  let s := (s.fput (Reg.tileStatusDrain.tile t k) y.drain).fput (Reg.tileStatusOpenBusy.tile t k) (!y.queue.isEmpty)
  s.fput (Reg.tileStatusSwapPending.tile t k) (!(x.swapsOf r).isEmpty)

/-- The listed tiles of a team. -/
def State.teamTiles (s : State) (t : Nat) : List Nat := (s.tiles.filter (fun e => e.1 / 64 == t)).map (fun e => e.1 % 64)

/-- The live planes of the roles, a bit each (TEAM_LIVE). -/
def State.livePlanes (s : State) (t : Nat) : Nat :=
  bitWord ((List.range 32).map (fun r => (s.tile t ((s.team t).tileOf r)).live == 1))

/-- TEAM_ROLE0 to TEAM_ROLE7. -/
def State.showRoles (s : State) (t : Nat) : State :=
  s.each (List.range 32) (fun s r =>
    let f := if r % 4 = 0 then Reg.teamRolePhys0 else if r % 4 = 1 then Reg.teamRolePhys1
      else if r % 4 = 2 then Reg.teamRolePhys2 else Reg.teamRolePhys3
    s.fset ((f.team t).nth (r / 4)) ((s.team t).tileOf r))

/-- The team holds the milepost: a run, a delivery, arbitration or a replay request is outstanding (R169). -/
def State.teamHolds (s : State) (t : Nat) : Bool :=
  let x := s.team t
  !x.runs.isEmpty || !x.deliveries.isEmpty || x.arb.isSome ||
  s.steps.any (fun y => y.strings.contains (teamString t) && (!y.asked.isEmpty || y.verdictAsked))

/-- FARR_STATUS follows the repair state (R136). -/
def State.showFarrier (s : State) (t : Nat) : State :=
  let x := s.team t
  let s := (s.fset (Reg.farrStatusBypass.team t) x.bypass.length).fset (Reg.farrStatusRetired.team t) x.retired.length
  let idle := ((List.range 34).filter (fun k => !x.retired.contains k && (x.roleOf k).isNone && !(s.tile t k).outOfService)).length
  let s := (s.fset (Reg.farrStatusIdleSpares.team t) idle).fput (Reg.farrStatusNvPending.team t) x.nvWaits
  (s.fput (Reg.farrStatusPending.team t) x.pendingRetire.isSome).fset (Reg.farrStatusPendingTile.team t) (x.pendingRetire.getD 0x3F)

/-- A tile holds a demand of R120: it takes a role over, serves a calibration, or runs arbitration's input. -/
def Team.inUse (x : Team) (k : Nat) : Bool :=
  (match x.takeover with | some o => o.dst == k || o.src == k | none => false) || x.waitMoves.any (fun o => o.dst == k) ||
  (decide (x.cal.step ≠ 0) && (x.cal.tile == k || x.cal.spare == some k)) ||
  (match x.arb with | some a => a.spare == some k | none => false)

/-- Arbitration waits for a spare. -/
def Team.seeksSpare (x : Team) : Bool := match x.arb with | some a => a.st == 6 | none => false

/-- The idle spare tiles of a team, ascending. -/
def State.idleSpares (s : State) (t : Nat) : List Nat :=
  let x := s.team t
  (List.range 34).filter (fun k => !x.retired.contains k && (x.roleOf k).isNone && !(s.tile t k).outOfService && !x.inUse k)

/-- TRACKING (R127): the team has no idle spare. -/
def State.showTracking (s : State) (t : Nat) : State := s.fput (Reg.calStatusTracking.team t) (s.idleSpares t).isEmpty

/-- Every status register of a team. -/
def State.showTeam (s : State) (t : Nat) : State :=
  let s := s.each (s.teamTiles t) (fun s k => s.showTile t k)
  let x := s.team t
  let s := (s.fput (Reg.teamStatusQuiesced.team t) x.quiesced).fput (Reg.teamStatusStopped.team t) x.stopped
  let s := (s.fput (Reg.teamStatusTakeover.team t) x.takeover.isSome).fput (Reg.teamStatusSwapPending.team t) (!x.swaps.isEmpty)
  let s := s.fput (Reg.teamStatusDrain.team t) ((s.teamTiles t).any (fun k => (s.tile t k).drain))
  let s := (s.fset (Reg.teamLive.team t) (s.livePlanes t)).fput (Reg.accStatusHold.team t) (s.teamHolds t)
  let s := (s.fset (Reg.outrStatusArbQueued.team t) (min 4 x.arbQueue.length)).fput (Reg.outrStatusRefBusy.team t) x.ref.isSome
  let s := (s.fput (Reg.outrStatusDegraded.team t) x.degraded).fput (Reg.outrStatusOutOfService.team t) x.outOfService
  let s := (s.fput (Reg.outrStatusSplitStall.team t) (decide (0 < x.stall))).fput (Reg.outrStatusArbActive.team t) x.arb.isSome
  let s := (s.fput (Reg.outrStatusForcedCheck.team t) (!x.forced.isEmpty)).showTracking t
  s.fset (Reg.outrArbState.team t) (match x.arb with | some a => a.st | none => 0)

/-- STOP takes effect at a vector boundary: no tile of the team stands inside a vector (R81). -/
def State.settleStop (s : State) (t : Nat) : State :=
  let busy := (s.teamTiles t).any (fun k => (s.tile t k).vector.isSome)
  let x := s.team t
  let stop := s.flag (Reg.teamCtrlStop.team t)
  s.setTeam t { x with stopped := stop && (x.stopped || !busy) }

end Sys2Proof.Machine
end

