-- ==== Sys2Proof/Machine/StepRuns.lean ====
section
/-!
DEFINITION. A step on its strings (R144, R158, R163 to R167, R180, R184, R186, R187, R252): how its work is abandoned, where its
replay restarts, what the retention area holds for it, how a string begins it, how it fails.
-/
namespace Sys2Proof.Machine

/-! ### Abandoning a step's work -/

/-- A team at the end of a step: its counts and its recorded mean squares of the step go. -/
def Team.endStep (x : Team) (id : Nat) : Team :=
  { x with stats := x.stats.filter (fun e => e.1 / 64 != id), meansAtStart := Map.erase x.meansAtStart id,
           meanMarks := x.meanMarks.filter (fun e => e.1 / 2 ^ 30 != id) }

/-- A tile without a step's pulses. -/
def Tile.dropStep (k : Tile) (id : Nat) : Tile :=
  { k with
    loading := k.loading.filter (fun q => q.step != id),
    driving := match k.driving with | some q => if q.step = id then none else some q | none => none,
    vector := match k.vector with | some v => if v.headD 0 = id then none else some v | none => none }

/-- What a team still holds of a step is dropped, and the step's open groups are abandoned (R158). Nothing of an
abandoned step is counted as a stray (log 21). A sample that has not all its records is taken anew. -/
def State.dropTeamWork (s : State) (id t : Nat) : State :=
  let s := s.abandonGroups id t
  let x := s.team t
  let lost := x.samples.filter (fun e => !e.2.whole && e.2.step == id)
  let s := s.setTeam t { x with
    jobs := x.jobs.filter (fun j => j.step != id), records := x.records.filter (fun r => r.pulse.step != id),
    combining := x.combining.filter (fun r => r.pulse.step != id),
    deliveries := x.deliveries.filter (fun d => d.step != id), runs := x.runs.filter (fun r => r.step != id),
    stats := x.stats.filter (fun e => e.1 / 64 != id),
    samples := x.samples.filter (fun e => e.2.whole || e.2.step != id),
    due := lost.foldl (fun m e => Map.set 0 m e.1 1) x.due, forced := x.forced.filter (fun r => !lost.any (fun e => e.1 == r)) }
  s.each (s.tiles.filter (fun e => e.1 / 64 == t)) (fun s e =>
    { s with tiles := Map.set {} s.tiles e.1 (e.2.dropStep id) })

/-! ### Placements in a string, and the planes of a staged expert (R179, R180) -/

/-- The placements of a layer in a string. -/
def stringPlaces (h : List Nat) (l x : Nat) : List Place := (layerPlaces h l).filter (fun y => teamString y.team == x)

/-- The teams of a list of placements, ascending. -/
def placeTeams (ps : List Place) : List Nat := ((ps.map (·.team)).eraseDups).mergeSort (fun a b => decide (a ≤ b))

/-- The plane of a placement is live on its role's tile. -/
def State.placeLive (s : State) (y : Place) : Bool := (s.tile y.team ((s.team y.team).tileOf y.role)).live == y.plane

/-- The layers of an expert. -/
def Expert.layerList (e : Expert) : List Nat := (List.range e.layers).map (e.firstLayer + ·)

/-- The placements of an expert, and those in a string. -/
def expertPlaces (h : List Nat) (e : Expert) : List Place := (e.layerList.map (layerPlaces h)).flatten
def expertStringPlaces (h : List Nat) (e : Expert) (x : Nat) : List Place := (expertPlaces h e).filter (fun y => teamString y.team == x)

/-- A swap of every role of some placements, to the placement's plane, or back from it. -/
def State.swapPlaces (s : State) (ps : List Place) (back : Bool) : State :=
  s.each (placeTeams ps) (fun s t =>
    let items := (ps.filter (fun z => z.team == t)).map (fun z => (z.role, if back then 1 - z.plane else z.plane))
    (s.setTeam t { s.team t with swaps := (s.team t).swaps ++ [⟨true, s.now, 0, items.eraseDups⟩] }).showTeam t)

/-- The claims of some placements, for an expert (index + 1) or none (0). -/
def State.claim (s : State) (ps : List Place) (v : Nat) : State :=
  s.each ps (fun s y => s.setTeam y.team { s.team y.team with claims := Map.set 0 (s.team y.team).claims y.role v })

/-- A staged expert whose copy does not come is given up: its claims, its swaps and the planes that wait for it. -/
def State.dropExpert (s : State) (x : Nat) (h : List Nat) (r : ExpertRun) : State :=
  let ps := expertStringPlaces h (harnessExpert h r.expert) x
  let s := (s.claim ps 0).each ps (fun s y =>
    let k := (s.team y.team).tileOf y.role
    let s := s.setTile y.team k { s.tile y.team k with marked := (s.tile y.team k).marked.filter (· != y.plane) }
    (s.setTeam y.team { s.team y.team with
      swaps := (s.team y.team).swaps.filter (fun c => !(c.seq && c.items.contains (y.role, y.plane))) }).showTeam y.team)
  s.setSeqr x { s.seq x with experts := (s.seq x).experts.filter (· != r) }

/-- What a string's staged experts of an abandoned step hold is given back: their claims, the planes that wait for a copy, and the
roles that they swapped (R180). -/
def State.dropExperts (s : State) (id x : Nat) : State :=
  match s.stringPart x with
  | none => s
  | some p =>
    let h := s.harness p
    s.each ((s.seq x).experts.filter (fun r => r.step == id)) (fun s r =>
      if r.st = 0 ∨ r.st = 3 then s else
      let ps := (expertStringPlaces h (harnessExpert h r.expert) x).filter s.placeLive
      let s := s.dropExpert x h r
      if r.st = 4 then s else s.swapPlaces ps true)

/-- The pins that a step's SCOREs keep are released (R206). -/
def State.releasePins (s : State) (id : Nat) : State :=
  match s.step? id with
  | none => s
  | some x =>
    let s := s.each x.scores (fun s e => s.each e.pages (fun s pg => s.unpin x.part pg))
    s.modStep id (fun y => { y with scores := [] })

/-- What a sequencer keeps of a step is dropped. -/
def Seq.forget (q : Seq) (id : Nat) : Seq :=
  { q with restarts := q.restarts.filter (fun r => r.step != id), retained := q.retained.filter (fun r => r.step != id),
           vecs := q.vecs.filter (fun e => e.1 / 4096 != id), opens := q.opens.filter (fun e => e.1 / 24576 != id),
           experts := q.experts.filter (fun e => e.step != id), queue := q.queue.filter (fun e => e.1 != id) }

/-- A sequencer that runs the step becomes idle as at END; the next step record starts it. -/
def Seq.leave (q : Seq) (id : Nat) : Seq :=
  let q := q.forget id
  if q.step = some id then { q with step := none, ended := true, reported := false, loops := [], swapLate := false }
  else q

/-- The seed of a team at a step start (R144). -/
def lfsrSeed (milepost t : Nat) : Nat :=
  let x := (milepost ^^^ (t * 0x9E37)) % 2 ^ 32
  if x = 0 then 1 else x

/-- A team at the start of a step: the running mean squares are recorded and the LFSR reseeded (R144, R167). -/
def Team.beginStep (x : Team) (id milepost t : Nat) : Team :=
  { x with meansAtStart := Map.insert x.meansAtStart id x.means, lfsr := lfsrSeed milepost t }

/-- The earlier of two layers of a step of model `m`: the pacer's layers come before the main model's (R190, R247; log 103). -/
def State.earlier (s : State) (p m a b : Nat) : Nat :=
  let late := fun (l : Nat) => decide ((harnessLayer (s.harness p) l).model = m)
  if late a == late b then min a b else if late a then b else a

/-- The earliest of some layers. -/
def State.earliest (s : State) (p m : Nat) : List Nat → Option Nat
  | [] => none
  | l :: ls => some (ls.foldl (s.earlier p m) l)

/-- The layer from which a step's replay runs again: the earliest offending one (R165), or the earliest that the step executed. -/
def State.replayFrom (s : State) (y : Step) : Option Nat :=
  if y.whole then s.earliest y.part y.model (y.strings.map (fun x =>
    ((s.seq x).restarts.filter (fun r => r.step == y.id)).map (fun r => r.layer))).flatten
  else s.earliest y.part y.model (y.adjust.map (fun e => e.1))

/-- A sequencer's restart point for a replay: the first VEC of the step that names the earliest offending layer or a
higher one of the same model (R186); the first VEC of the step where all of it runs again (log 103). -/
def State.restartPoint (s : State) (x : Nat) (y : Step) (from_ : Nat) : Option Restart :=
  let h := s.harness y.part
  (s.seq x).restarts.find? (fun r => r.step == y.id && (y.whole ||
    (decide (from_ ≤ r.layer) && (harnessLayer h r.layer).model == (harnessLayer h from_).model)))

/-- The sequencer at its restart point: code position, loops, address registers, flags as recorded there; the records
from there on are made again. -/
def Seq.restartAt (q : Seq) (id : Nat) (r : Restart) : Seq :=
  { q with
    step := some id, ended := false, reported := false, pos := r.pos, loops := r.loops, regs := r.regs, flags := r.flags,
    vecs := r.vecs, opens := r.opens, restarts := q.restarts.takeWhile (fun z => z != r) ++
      (q.restarts.dropWhile (fun z => z != r)).filter (fun z => z.step != id), swapLate := false }

/-! ### The retention area (R163, R187, R526) -/

/-- Bytes of the retention area of a string. -/
def State.retainArea (s : State) (p : Nat) : Nat := field (s.harness p) 14 2 * 0x40000

/-- The banks of a string's retention area: those directly below the SRAM pool's. -/
def State.retainBanks (s : State) (p x : Nat) : List Nat :=
  let g := s.goodBanks x
  let n := g.length - s.sramBanks p
  (g.take n).drop (n - field (s.harness p) 14 2)

/-- The tensor address of a byte of the retention area. -/
def State.retainAddr (s : State) (p x o : Nat) : Nat :=
  x * 0x3800000 + (s.retainBanks p x).getD (o / 0x40000) 0 * 0x40000 + o % 0x40000

/-- A range of the area cut at its banks' ends. -/
def bankCuts (o : Nat) : (fuel n : Nat) → List (Nat × Nat)
  | 0, _ => []
  | f + 1, n =>
    if n = 0 then [] else
    let k := min n (0x40000 - o % 0x40000)
    (o, k) :: bankCuts (o + k) f (n - k)

/-- Bytes that inputs hold in the area. -/
def retainedBytes (rs : List Retained) : Nat := (rs.map (fun r => (r.pieces.map (fun p => p.2)).sum)).sum

/-- The free ranges of an area of `area` bytes; `used` ascending. -/
def freeRanges (area : Nat) : (at_ : Nat) → List (Nat × Nat) → List (Nat × Nat)
  | at_, [] => if at_ < area then [(at_, area - at_)] else []
  | at_, u :: us => (if at_ < u.1 then [(at_, u.1 - at_)] else []) ++ freeRanges area (max at_ (u.1 + u.2)) us

/-- The first `n` bytes of some ranges. -/
def takeRanges : (n : Nat) → List (Nat × Nat) → List (Nat × Nat)
  | _, [] => []
  | n, r :: rs => if n = 0 then [] else (r.1, min n r.2) :: takeRanges (n - r.2) rs

/-- The lowest free bytes of the area are where an input goes (R187 gives no place: log 102). -/
def placeInput (area n : Nat) (rs : List Retained) : List (Nat × Nat) :=
  takeRanges n (freeRanges area 0 (((rs.map (fun r => r.pieces)).flatten).mergeSort (fun a b => decide (a.1 ≤ b.1))))

/-- An input's bytes are copied into its pieces. -/
def State.storeInput (s : State) (p x : Nat) : List (Nat × Nat) → List Nat → State
  | [], _ => s
  | c :: cs, b =>
    let s := (bankCuts c.1 (c.2 / 0x40000 + 2) c.2).foldl (fun (a : State × List Nat) k =>
      (a.1.writeThrough (unitString x) (s.retainAddr p x k.1) (a.2.take k.2), a.2.drop k.2)) (s, b.take c.2)
    s.1.storeInput p x cs (b.drop c.2)

/-- An input's bytes as its pieces hold them: the bytes, UE, the state after. -/
def State.loadInput (s : State) (p x : Nat) (cs : List (Nat × Nat)) : List Nat × Bool × State :=
  ((cs.map (fun c => bankCuts c.1 (c.2 / 0x40000 + 2) c.2)).flatten).foldl (fun a k =>
    let r := a.2.2.readThrough (unitString x) (s.retainAddr p x k.1) k.2
    (a.1 ++ r.1, a.2.1 || r.2.1, r.2.2)) ([], false, s)

/-- Bytes that some layers retain of one row in a string: an input of each that is placed there. -/
def layersInput (h : List Nat) (ls : List Nat) (x : Nat) : Nat :=
  (ls.map (fun l =>
    let r := harnessLayer h l
    if (layerPlaces h l).any (fun z => teamString z.team == x) then mxSize r.inMx (r.rowSegs * 1024) else 0)).sum

/-- The layers of a model. -/
def layersOf (h : List Nat) (m : Nat) : List Nat := let z := harnessModel h m; (List.range z.layers).map (z.firstLayer + ·)

/-- Some expert names a layer: GATE chooses it as the step runs. -/
def expertLayer (h : List Nat) (l : Nat) : Bool := (List.range (field h 12 2)).any (fun i =>
  let e := harnessExpert h i
  decide (e.firstLayer ≤ l ∧ l < e.firstLayer + e.layers))

/-- Bytes that one row of a model retains in a string (log 101): of the layers that every row passes, or with `all` of its experts'
too, any of which a GATE may choose. -/
def rowInput (h : List Nat) (all : Bool) (m x : Nat) : Nat :=
  layersInput h ((layersOf h m).filter (fun l => all || !expertLayer h l)) x

/-- Bytes that sequences of a step of model `m` retain in a string: its rows of the main model, and a row of the pacer for each
proposal. -/
def State.seqsInput (s : State) (all : Bool) (p m x : Nat) (es : List StepSeq) : Nat :=
  let h := s.harness p
  (es.map (fun e => e.rows)).sum * rowInput h all m x + (match s.pacerModel p m with
    | 0xFF => 0
    | z => (es.map (fun e => e.propose)).sum * rowInput h all z x)

/-- Bytes of a string's retention area that a step may need, or what it holds where that is more. -/
def State.stepInput (s : State) (x : Nat) (z : Step) : Nat :=
  max (s.seqsInput true z.part z.model x z.seqs) (retainedBytes ((s.seq x).retained.filter (fun r => r.step == z.id)))

/-- A step's inputs might not fit beside those of the partition's older steps on some string that both use (R163). -/
def State.mustWait (s : State) (t : Step) : Bool :=
  t.strings.any (fun x =>
    let older := s.steps.filter (fun z => z.part == t.part && z.posted && decide (z.id < t.id) && z.strings.contains x)
    !older.isEmpty && decide (s.retainArea t.part < s.stepInput x t + (older.map (s.stepInput x)).sum))

/-! ### A step on a string -/

/-- m of a layer and segment of a team at a replay's restart point (R167): as recorded at the step's start where no VEC of the
layer came before that point in the step, else as it was before the first vector of the VEC that comes next. -/
def Team.meanAt (y : Team) (id before key : Nat) : Nat :=
  if before = 0 then Map.get 0 (Map.get [] y.meansAtStart id) key else
  match Map.get 0 y.meanMarks ((id * 64 + key / 256) * 2 ^ 24 + before * 256 + key % 256) with
  | 0 => Map.get 0 y.means key
  | m + 1 => m

/-- The running mean squares of a team for the layers that run again: those of which the string counts more VECs `after` the run
than `before` its restart point. -/
def State.rewindMeans (s : State) (k : Nat) (t : Step) (before after : SMap Nat) : State :=
  let h := s.harness t.part
  let y := s.team k
  let count := fun (v : SMap Nat) (l : Nat) => Map.get 0 v (t.id * 4096 + l)
  let ls := (List.range (field h 6 2)).filter (fun l => count before l < count after l)
  let keys := (ls.map (fun l => ((layerPlaces h l).filter (fun z => z.team == k)).map (fun z => (l, z.loc * 256 + z.rowSeg)))).flatten
  let means := keys.eraseDups.foldl (fun m e => Map.set 0 m e.2 (y.meanAt t.id (count before e.1) e.2)) y.means
  s.setTeam k { y with means := means, lfsr := lfsrSeed t.milepost k }

/-- A new step begins on a string: A0 to A3, and the model's ENTRY within the code area (R184, R240). In the replay of a step
(R328) what the string ran before is taken back first. -/
def State.beginSeq (s : State) (x : Nat) (t : Step) : State :=
  let s := s.stopWait x
  let q := s.seq x
  let s := s.setSeqr x { q with
    step := some t.id, queue := q.queue.drop 1, ended := false, reported := false, loops := [],
    regs := [t.a0, t.a1, t.a2, t.a3] ++ (q.regs ++ zeros 16).drop 4 |>.take 16,
    vecs := q.vecs.filter (fun e => e.1 / 4096 != t.id), opens := q.opens.filter (fun e => e.1 / 24576 != t.id),
    pos := s.modelCfg t.part t.model 0 4 0, swapLate := false }
  s.each ((List.range 24).map (24 * x + ·)) (fun s k =>
    if t.replaying then s.rewindMeans k t [] q.vecs else s.setTeam k ((s.team k).beginStep t.id t.milepost k))

/-- A replay begins on a string that has a restart point in it (R186, R165): running mean squares as they stood there for the
layers that run again (R167), and the seed once more (R144). -/
def State.rebeginSeq (s : State) (x : Nat) (t : Step) : State :=
  let q := (s.stopWait x).seq x
  let q := { q with queue := q.queue.drop 1 }
  match t.replayAt.bind (s.restartPoint x t) with
  | none => s.setSeqr x q
  | some r =>
    let s := (s.stopWait x).setSeqr x (q.restartAt t.id r)
    s.each ((List.range 24).map (24 * x + ·)) (fun s k => s.rewindMeans k t r.vecs q.vecs)

/-- A string's next step record starts, once its part of the step before has ended (R184), no step that a collective failed
waits on it for its replay (R328), and its inputs fit the retention area of every string beside those of older steps (R163). -/
def State.startSeq (s : State) (x : Nat) : State :=
  let q := s.seq x
  if (q.step.isSome && !q.ended) || s.steps.any (fun y => y.collFailed && y.strings.contains x) then s else
  match q.queue with
  | [] => s
  | (id, again) :: rest =>
    match s.step? id with
    | none => s.setSeqr x { q with queue := rest }
    | some t =>
      if again then s.rebeginSeq x t
      else if s.mustWait t then s.seqWait x (some (3, 0, nobody))
      else s.beginSeq x t

/-- The strings of a partition start what waits on them. -/
def State.startSeqs (s : State) (p : Nat) : State := s.each ((List.range 32).filter (s.ownsString p)) State.startSeq

/-- ACC_STATUS.REPLAY on the teams of a partition: a step of it replays. -/
def State.showReplay (s : State) (p : Nat) : State :=
  s.each (s.partTeams p) (fun s t => s.fput (Reg.accStatusReplay.team t) (s.steps.any (fun y => y.part == p && y.replaying)))

/-- The step's records at a sequencer are withdrawn; one that runs it becomes idle. -/
def State.dropSeq (s : State) (id x : Nat) : State :=
  if (s.seq x).step = some id then ((s.stopWait x).setSeqr x (((s.stopWait x).seq x).leave id)) else s.setSeqr x ((s.seq x).leave id)

/-- Everything the package still does for a step ends (R252): sequencers, groups, retained inputs, replay, pins. -/
def State.abandonStep (s : State) (id : Nat) : State :=
  match s.step? id with
  | none => s
  | some x =>
    let s := ((s.releasePins id).abortColls id).dropCalls id
    let s := s.each (s.teams.map (·.1)) (fun s t =>
      let s := s.dropTeamWork id t
      s.setTeam t ((s.team t).endStep id))
    let s := s.each x.strings (fun s k => (s.dropExperts id k).dropSeq id k)
    ({ s with steps := s.steps.filter (fun y => y.id != id) }.showReplay x.part).startSeqs x.part

/-- A sequencer that runs the step becomes idle and keeps what its replay needs. -/
def Seq.park (q : Seq) (id : Nat) : Seq :=
  let q := { q with experts := q.experts.filter (fun e => e.step != id), queue := q.queue.filter (fun e => e.1 != id) }
  if q.step = some id then { q with step := none, ended := true, reported := false, loops := [] } else q

/-- A step's sequencer is parked, and waits no longer. -/
def State.parkSeq (s : State) (id x : Nat) : State :=
  if (s.seq x).step = some id then (s.stopWait x).setSeqr x (((s.stopWait x).seq x).park id) else s.setSeqr x ((s.seq x).park id)

/-- A step's work is abandoned and the step waits for its replay (R165, R328). -/
def State.parkStep (s : State) (id : Nat) : State :=
  match s.step? id with
  | none => s
  | some x =>
    let s := ((s.releasePins id).abortColls id).dropCalls id
    let s := s.each (s.teams.map (·.1)) (fun s t => s.dropTeamWork id t)
    s.each x.strings (fun s k => (s.dropExperts id k).parkSeq id k)

/-- The step and, for a redundant model, its twin are abandoned. -/
def State.abandonBoth (s : State) (id : Nat) : State :=
  match s.step? id with
  | none => s
  | some x => let s := s.abandonStep id; match x.twin with | some t => s.abandonStep t | none => s

/-- The step fails without replay: its slots end FAULTED with a CODE, and its work is abandoned. -/
def State.failStepWith (s : State) (id code : Nat) : State :=
  match s.step? id with
  | none => s
  | some x => (s.each (s.stepSlots id) (fun s g => s.faultSlot x.part g code)).abandonBoth id

def State.failStep (s : State) (id : Nat) : State := s.failStepWith id cStepFault

/-! ### The calls of other packages (R329) -/

/-- The string that serves a call: that of the expert's first placement; none where it has no placement. -/
def State.servingString (s : State) (v : Served) : Option Nat :=
  let h := s.harness v.part
  (expertPlaces h (harnessExpert h v.expert)).head?.map (fun y => teamString y.team)

/-- What a string's teams still do for a call goes. -/
def State.dropCallWork (s : State) (id x : Nat) : State :=
  let s := s.each ((List.range 24).map (24 * x + ·)) (fun s t =>
    let s := s.dropTeamWork id t
    s.setTeam t ((s.team t).endStep id))
  let s := s.dropExperts id x
  s.setSeqr x ((s.seq x).forget id)

/-- A served call ends; its caller hears how. -/
def State.endCall (s : State) (v : Served) (code session : Nat) : State :=
  let s := { s with torus := { s.torus with served := s.torus.served.filter (· != v) } }
  let s := match v.run, s.servingString v with
    | some id, some x => s.dropCallWork id x
    | _, _ => s
  s.sendTo v.src v.part 0x21 2 true (leBytes 4 v.id ++ [code, 0, 0, 0] ++ leBytes 4 session)

/-- A TEAM_FAULT record of a step's work, and the step fails (R523); a call of another package ends with FAULT, its record naming
milepost 0. -/
def State.faultStep (s : State) (id : Nat) (seq : Bool) (unit cause layer group extra : Nat) : State :=
  match s.step? id with
  | none => match s.servedAs id with
    | some v => (s.teamFault seq unit cause layer 0xFF group 0 extra).endCall v 3 0
    | none => s
  | some x => (s.teamFault seq unit cause layer 0xFF group x.milepost extra).failStep id

/-! ### Uncommitted steps of a partition -/

/-- A verdict or a groom finding asks that the uncommitted steps of a partition be replayed (R105, R279). -/
def State.askReplay (s : State) (p : Nat) : State :=
  { s with steps := s.steps.map (fun y => if y.part = p ∧ y.posted then { y with verdictAsked := true } else y) }

/-- The uncommitted steps of a partition fail. -/
def State.failPartSteps (s : State) (p : Nat) : State :=
  s.each ((s.steps.filter (fun y => y.part == p)).map (·.id)) (fun s id => s.failStep id)

end Sys2Proof.Machine
end

