-- ==== Sys2Proof/Machine/Accum.lean ====
section
/-!
DEFINITION. The accumulator bank (chapter 06): the narrow adder and its runs, promotion, groups from open to close,
write-out and top-k, and the counts that request a replay (R147 to R164, R177, R524).
-/
namespace Sys2Proof.Machine

/-! ### Counting against the replay limits (R164) -/

/-- The partition-wide layer that a team gives a local index, in a HARNESS. -/
def layerOfLocal (h : List Nat) (t loc : Nat) : Option Nat :=
  (List.range (field h 6 2)).find? (fun l => (layerPlaces h l).any (fun x => x.team == t && x.loc == loc))

def statKey (step loc : Nat) : Nat := step * 64 + loc
def State.stat (s : State) (t step loc : Nat) : LayerStat := Map.get {} (s.team t).stats (statKey step loc)
def State.setStat (s : State) (t step loc : Nat) (x : LayerStat) : State :=
  if (s.step? step).isNone then s else s.setTeam t { s.team t with stats := Map.set {} (s.team t).stats (statKey step loc) x }

/-- A layer asks for a replay of its step; a replay never asks for another (R164, R165). -/
def State.askLayer (s : State) (step layer : Nat) : State :=
  s.modStep step (fun y => if y.replaying || y.replayed || y.asked.contains layer then y else { y with asked := y.asked ++ [layer] })

/-- A count of a layer exceeds its limit in a step (R164). -/
def overLimits (l : Layer) (x : LayerStat) : Bool :=
  (l.satLimit != 0 && decide (l.satLimit < x.sat)) || (l.uflLimit != 0 && decide (l.uflLimit < x.ufl))

/-- The team requests a replay where a count of the layer exceeds its limit. -/
def State.checkLimits (s : State) (t step loc : Nat) : State :=
  match s.step? step with
  | none => s
  | some y =>
    match layerOfLocal (s.harness y.part) t loc with
    | none => s
    | some l => if overLimits (harnessLayer (s.harness y.part) l) (s.stat t step loc) then s.askLayer step l else s

/-- Saturations of a layer: `wide` tells column saturations and wide clamps. -/
def State.chargeSat (s : State) (t step loc n : Nat) (wide : Bool) : State :=
  if n = 0 then s else
  let x := s.stat t step loc
  ((s.setStat t step loc { x with sat := x.sat + n, colOrWide := x.colOrWide || wide }).bumpTeam t
    (Reg.accLayerSat.sel loc) n).checkLimits t step loc

/-- Output clamps of a layer, with the blocks that clamped. -/
def State.chargeOut (s : State) (t step loc n : Nat) (blocks : List Nat) : State :=
  if n = 0 then s else
  let x := s.stat t step loc
  ((s.setStat t step loc { x with sat := x.sat + n, blocks := x.blocks ++ blocks }).bumpTeam t
    (Reg.accLayerSat.sel loc) n).checkLimits t step loc

/-- Edge underflows of a layer. -/
def State.chargeUfl (s : State) (t step loc n : Nat) : State :=
  if n = 0 then s else
  let x := s.stat t step loc
  ((s.setStat t step loc { x with ufl := x.ufl + n }).bumpTeam t (Reg.accLayerUfl.sel loc) n).checkLimits t step loc

/-! ### Groups and their accumulator tiles (R154, R177) -/

def State.group (s : State) (t g : Nat) : Group := Map.get {} (s.team t).groups g

/-- The column blocks that a team holds of a layer, ascending. -/
def colBlocksOn (h : List Nat) (t l : Nat) : List Nat :=
  ((((layerPlaces h l).filter (fun x => x.team == t)).map (·.colBlock)).eraseDups).mergeSort (fun a b => decide (a ≤ b))

/-- The accumulator tile of column block `blk` of vector `vec` in a group; none for a stray (R156, R177). -/
def State.accTile (s : State) (p t layer g vec blk : Nat) : Option Nat :=
  let x := s.group t g
  let w := (colBlocksOn (s.harness p) t layer).findIdx (fun b => b == blk)
  if x.st = 0 ∨ x.desc.width ≤ w ∨ x.desc.vectors ≤ vec then none
  else some (x.desc.first + vec * x.desc.width + w)

/-- Contributions dropped as strays (R156). Those of a call of another package form its results and meet no group (R329, log 32). -/
def State.strays (s : State) (step t n : Nat) : State := if (s.servedAs step).isSome then s else (s.raise (Reg.accErrStray.team t)).bumpTeam t Reg.accStray n

/-- The group's SAT flag is set. -/
def State.groupSat (s : State) (t g : Nat) : State :=
  let x := s.group t g
  if x.sat || x.st == 0 then s else s.setGroup t g { x with sat := true }

/-! ### Wide additions (R150, R151) -/

/-- Largest finite FP32 magnitude bits. -/
def f32Max : Nat := 0x7F7FFFFF

/-- An FP32 accumulator word after an exact addend, and whether it clamped. -/
def wideAddF (acc : Nat) (v : Rat) : Nat × Bool :=
  match f32 acc with
  | .fin s m =>
    let r := (addNum (.fin s m) (.fin (decide (v < 0)) (if v < 0 then -v else v))).toF32 acc acc
    if r % 2 ^ 31 = 0x7F800000 then (r - 0x7F800000 + f32Max, true) else (r, false)
  | _ => (acc, false)

/-- An INT32 value clamped to ±(2^31 − 1). -/
def clamp32 (i : Int) : Nat × Bool :=
  (ofSigned 32 (clampInt (-2147483647) 2147483647 i), decide (i < -2147483647 ∨ 2147483647 < i))

/-- An INT32 accumulator word after an addend, which rounds to nearest even first. -/
def wideAddI (acc : Nat) (v : Rat) : Nat × Bool := clamp32 (toSigned 32 acc + roundEven v)

/-- A scale that is NaN or infinite. -/
def badScale (w : Nat) : Bool := !(bf16 w).isFin

/-- The rational value of a BF16 scale. -/
def scaleRat (w : Nat) : Rat := (bf16 w).rat

/-- A fault of the team fails a step: BAD_SCALE (R151, R524). -/
def State.badScaleFault (s : State) (t step layer g : Nat) : State :=
  (s.raise (Reg.accErrBadScale.team t)).faultStep step false t 0x03 layer g g

/-- One wide addition into accumulator `i` of a tile: `v` in units of 2^0 before scales, `fix` taking G off in INT32 mode. A bad
scale is a fault in either mode (R151 names none, log 115). -/
def State.wideAdd (s : State) (t g tile i : Nat) (step : Nat) (v : Rat) (scol : Nat) (sseg : Option Nat) : State :=
  let x := s.group t g
  let fp := x.desc.mode == 1
  if badScale scol || (match sseg with | some w => badScale w | none => false) then
    s.badScaleFault t step x.desc.layer g
  else
    let a := accAddr t tile i
    let r := s.readFor (some step) (unitTeam t) a 4
    if r.2.1 then r.2.2.failStep step else
    let w := leValue r.1
    let scale : Rat := scaleRat scol * (match sseg with | some q => scaleRat q | none => 1)
    let q := if fp then wideAddF w (v * scale) else wideAddI w (v * pow2 (-(toSigned 8 x.desc.fix)))
    let s := r.2.2.writeWord a q.1
    if q.2 then ((s.groupSat t g).bumpTeam t Reg.accWideSat 1).chargeSat t step x.desc.layer 1 true else s

/-! ### The narrow adder (R147 to R149) -/

/-- k(V): the exponent of V's lowest set bit, capped at 9. -/
def lowExp (v : Int) : Nat := ((List.range 9).find? (fun i => v.natAbs.testBit i)).getD 9

/-- A value fits the 20-bit significand. -/
def fits20 (a : Int) : Bool := decide (-524288 ≤ a ∧ a < 524288)

/-- A run's scale key equals another's. -/
def Run.sameKey (r q : Run) : Bool := r.e == q.e && r.scol == q.scol && r.sseg == q.sseg

/-- A run is promoted into its wide accumulator. -/
def State.promote (s : State) (t : Nat) (r : Run) : State :=
  let s := s.bumpTeam t Reg.accPromotions 1
  let s := if r.sat then s.groupSat t r.group else s
  s.wideAdd t r.group (r.acc / 256) (r.acc % 256) r.step (r.a * pow2 ((r.xr : Int) + r.e)) r.scol r.sseg

/-- A run is kept for its accumulator. -/
def State.putRun (s : State) (t : Nat) (r : Run) : State :=
  let x := s.team t
  s.setTeam t { x with runs := x.runs.filter (fun q => q.acc != r.acc) ++ [r] }

def State.dropRun (s : State) (t acc : Nat) : State :=
  let x := s.team t
  s.setTeam t { x with runs := x.runs.filter (fun q => q.acc != acc) }

/-- A new run begins with V, or V is promoted alone when it does not fit. -/
def State.startRun (s : State) (t : Nat) (n : Run) (v : Int) : State :=
  let k := lowExp v
  let r := { n with xr := k, a := v / 2 ^ k, count := 1 }
  if fits20 r.a then s.putRun t r else (s.bumpTeam t Reg.accEarly 1).promote t r

/-- V is added to its accumulator's run (R148); `n` carries its key and owner. -/
def State.narrowAdd (s : State) (t : Nat) (n : Run) (v : Int) : State :=
  match (s.team t).runs.find? (fun q => q.acc == n.acc) with
  | none => s.startRun t n v
  | some r =>
    let x := min r.xr (lowExp v)
    let a := r.a * 2 ^ (r.xr - x)
    let b := a + v / 2 ^ x
    let same := r.sameKey n && r.group == n.group && r.vec == n.vec && decide (r.count < 16)
    if same && fits20 a && fits20 b then
      s.putRun t { r with xr := x, a := b, count := r.count + 1, sat := r.sat || n.sat, fresh := true }
    else
      let s := if same then s.bumpTeam t Reg.accEarly 1 else s
      let s := (s.dropRun t r.acc).promote t r
      if (s.group t n.group).st = 0 then s.strays n.step t 1 else s.startRun t n v

/-- The runs of a list that still stand are promoted, in the order given: a bad scale drops those of its step. -/
def State.promoteAll (s : State) (t : Nat) (rs : List Run) : State :=
  s.each rs (fun s r => if (s.team t).runs.contains r then (s.dropRun t r.acc).promote t r else s)

/-- At a beat boundary: runs that received nothing in the beat are promoted, the others wait one beat more (R149). -/
def State.flushRuns (s : State) (t : Nat) : State :=
  let old := (s.team t).runs.filter (fun r => !r.fresh)
  let s := s.promoteAll t old
  let x := s.team t
  s.setTeam t { x with runs := x.runs.map (fun r => { r with fresh := false }) }

/-! ### A combined record enters the adder -/

/-- The accumulator tile of a pulse's contributions: none where its step or its group is gone, for a stray. -/
def State.pulseTile (s : State) (t : Nat) (p : Pulse) : Option Nat :=
  match s.step? p.step with
  | some y => if p.stray || y.failed then none else s.accTile y.part t p.layer p.group p.vec p.colBlock
  | none => none

/-- The contributions of one vector pass: column V values with their flags, from the tile and plane that gave them. Each finds its
group open or is a stray (R156): those of a step that has committed, and those behind one that fails the step. -/
def State.addRecord (s : State) (t : Nat) (k plane : Nat) (p : Pulse) (vs : List (Int × Bool)) : State :=
  let x := s.tile t k
  s.each (List.range vs.length) (fun s i =>
    match s.pulseTile t p with
    | none => s.strays p.step t 1
    | some tile =>
      let c := if p.pair then 2 * i else i
      let v := vs.getD i (0, false)
      s.narrowAdd t { acc := tile * 256 + i, count := 0, a := 0, xr := 0, e := p.scale, scol := x.colScale plane c,
                      sseg := if p.segScale then some (x.segScaleOf plane p.seg c) else none, sat := v.2,
                      group := p.group, vec := p.vec, step := p.step, layer := p.layer, fresh := true } v.1)

/-- V of each result column of a set of phase records (R66, R71): one record for A5, two for A8. -/
def combine (rs : List TileRec) (pair : Bool) : List (Int × Bool) :=
  let v := fun c => ((rs.map (fun r => phaseValue r c)).sum, rs.any (fun r => r.sat.getD c false))
  if pair then (List.range 128).map (fun j =>
    (16 * (v (2 * j)).1 + (v (2 * j + 1)).1, (v (2 * j)).2 || (v (2 * j + 1)).2))
  else columns.map v

/-- Two phase records belong to one pass of one vector of a role. A phase that was skipped has no beat, and its record names the
tile that served the role at conversion. -/
def TileRec.samePass (a b : TileRec) : Bool :=
  a.pulse.role == b.pulse.role && a.pulse.step == b.pulse.step && a.pulse.layer == b.pulse.layer && a.pulse.group == b.pulse.group &&
  a.pulse.vec == b.pulse.vec && a.pulse.colBlock == b.pulse.colBlock && a.pulse.inSeg == b.pulse.inSeg &&
  a.pulse.seg == b.pulse.seg && a.pulse.stray == b.pulse.stray

/-- A tile record reaches the phase combiner (R66): unrepaired saturations are charged; a lone A8 phase waits for the
other; a whole pass enters the narrow adder. -/
def State.takeRecord (s : State) (t : Nat) (r : TileRec) : State :=
  let s := s.chargeSat t r.pulse.step r.pulse.loc (r.sat.filter id).length true
  if r.pulse.fmt = 0 then s.addRecord t r.tile r.plane r.pulse (combine [r] r.pulse.pair) else
  match (s.team t).combining.find? (fun q => q.samePass r && q.pulse.phase != r.pulse.phase) with
  | none => s.setTeam t { s.team t with combining := (s.team t).combining ++ [r] }
  | some q =>
    let s := s.setTeam t { s.team t with combining := (s.team t).combining.filter (fun z => !(z.samePass r && z.pulse.phase == q.pulse.phase)) }
    let b := if r.zero then q else r
    s.addRecord t b.tile b.plane r.pulse (combine [q, r] r.pulse.pair)

/-! ### Opening (R155, R156, R524) -/

def groupTiles (d : GroupDesc) : Nat := d.vectors * d.width

/-- The three refusals of an open: OPEN_BUSY, OVERLAP, BAD_FIELD (R156, R185). -/
def State.openBusy (s : State) (t : Nat) (d : GroupDesc) : Bool := (s.group t d.group).st != 0
def State.openOverlap (s : State) (t : Nat) (d : GroupDesc) : Bool :=
  decide (256 < d.first + groupTiles d) || decide (256 * d.width < d.topkLen) ||
  (s.team t).groups.any (fun e => e.2.st != 0 &&
    decide (d.first < e.2.desc.first + groupTiles e.2.desc ∧ e.2.desc.first < d.first + groupTiles d))
def openBadField (d : GroupDesc) : Bool :=
  d.init == 3 || d.biasFmt == 3 || d.outMx == 6 || decide (64 < d.topkK) || (d.biasFmt == 2 && d.mode == 1)

/-- ACC_ERR bits of a refused open. -/
def State.openErrors (s : State) (t : Nat) (d : GroupDesc) : Nat :=
  (if s.openBusy t d then 1 else 0) + (if s.openOverlap t d then 2 else 0) + (if openBadField d then 32 else 0)

/-- Bytes of one bias value. -/
def biasBytes (d : GroupDesc) : Nat := if d.biasFmt = 0 then 2 else 4

/-- One bias value as an accumulator word; none when it is NaN or infinite; with whether it clamped. -/
def biasWord (d : GroupDesc) (raw : Nat) : Option (Nat × Bool) :=
  if d.biasFmt = 2 then some (raw, false) else
  let w := if d.biasFmt = 0 then bf16Widen raw else raw
  match f32 w with
  | .fin s m =>
    if d.mode = 1 then some (w, false)
    else some (clamp32 (roundEven ((if s then -m else m) * pow2 (-(toSigned 8 d.fix)))))
  | _ => none

/-- The words of accumulator tiles are written: tile `d.first + v * width + w` from `word (256 w + i)`. -/
def State.fillGroup (s : State) (t : Nat) (d : GroupDesc) (word : Nat → Nat) : State :=
  s.each (List.range (groupTiles d)) (fun s j =>
    s.writeThrough (unitTeam t) (accAddr t (d.first + j) 0)
      ((List.range 256).map (fun i => leBytes 4 (word (256 * (j % d.width) + i)))).flatten)

/-- A GOPEN of a group for a layer is counted in its sequencer: how many came before it in the step (R165). -/
def State.countOpen (s : State) (t step : Nat) (d : GroupDesc) : Nat × State :=
  let x := teamString t
  let key := ((step * 24 + t % 24) * 64 + d.layer) * 16 + d.group
  let q := s.seq x
  let n := Map.get 0 q.opens key
  (n, s.setSeqr x { q with opens := Map.set 0 q.opens key (n + 1) })

/-- A valid open: the group is OPEN, and INIT is applied before any contribution. -/
def State.initGroup (s : State) (p t step : Nat) (d : GroupDesc) : State :=
  let k := s.countOpen t step d
  let s := k.2.setGroup t d.group { st := 1, desc := d, sat := false, step := step, occ := k.1 }
  if d.init = 0 then s.fillGroup t d (fun _ => 0) else
  if d.init = 2 then s else
  let n := d.width * 256 * biasBytes d
  if !s.reaches p d.biasAddr n then s.faultStep step false t 0x08 d.layer d.group (d.biasAddr % 2 ^ 32) else
  let r := s.readFor (some step) (unitTeam t) d.biasAddr n
  if r.2.1 then r.2.2.failStep step else
  let ws := (List.range (d.width * 256)).map (fun i => biasWord d (field r.1 (i * biasBytes d) (biasBytes d)))
  if ws.any (·.isNone) then r.2.2.badScaleFault t step d.layer d.group else
  let clamps := (ws.filter (fun w => match w with | some (_, true) => true | _ => false)).length * d.vectors
  let s := r.2.2.fillGroup t d (fun i => match ws.getD i none with | some w => w.1 | none => 0)
  if clamps = 0 then s else
    ((s.groupSat t d.group).bumpTeam t Reg.accWideSat clamps).chargeSat t step d.layer clamps true

/-- GOPEN's effect once its descriptor has been read. -/
def State.openGroup (s : State) (p t step : Nat) (d : GroupDesc) : State :=
  let e := s.openErrors t d
  if e = 0 then s.initGroup p t step d else
  let s := if e.testBit 0 then s.raise (Reg.accErrOpenBusy.team t) else s
  let s := if e.testBit 1 then s.raise (Reg.accErrOverlap.team t) else s
  let s := if e.testBit 5 then s.raise (Reg.accErrBadField.team t) else s
  s.faultStep step false t 0x04 d.layer d.group e

/-! ### Closing (R157, R160, R161) -/

/-- Contributions or deliveries of a group are still to come, those of a staged expert that has not fired among them. -/
def State.groupBusy (s : State) (t g : Nat) : Bool :=
  let x := s.team t
  let of := fun (q : Pulse) => q.group == g && !q.stray
  x.jobs.any (fun j => j.group == g && !j.stray) || x.records.any (fun r => of r.pulse) || x.combining.any (fun r => of r.pulse) ||
  x.deliveries.any (fun d => d.group == g && !d.stray) ||
  (Map.get {} s.seqs (teamString t)).experts.any (fun e => (decide (e.st < 2) || e.st == 4) &&
    e.work.any (fun w => w.team == t && w.group == g && !w.stray)) ||
  (s.teamTiles t).any (fun k => (s.tile t k).loading.any of ||
    (match (s.tile t k).driving with | some q => of q | none => false))

/-- The accumulator words of vector `v` of a group, as held. -/
def State.groupWords (s : State) (t : Nat) (d : GroupDesc) (v : Nat) : List Nat :=
  (List.range (d.width * 256)).map (fun i => leValue (s.codedBytes (accAddr t (d.first + v * d.width + i / 256) (i % 256)) 4))

/-- The number that an accumulator word stands for at write-out. -/
def outNum (d : GroupDesc) (w : Nat) : Num :=
  if d.mode = 1 then f32ForMx w
  else let i := toSigned 32 w; .fin (decide (i < 0)) ((i.natAbs : Rat) * pow2 (toSigned 8 d.fix))

/-- A before B in the ranking of R160; positions break ties. -/
def ranksBefore (d : GroupDesc) (a b : Nat × Nat) : Bool :=
  if d.mode = 1 then
    let x := f32 a.1
    let y := f32 b.1
    if x.isNan || y.isNan then (if x.isNan && y.isNan then decide (a.2 ≤ b.2) else y.isNan) else
    if x = y ∨ (x.rat = 0 ∧ y.rat = 0 ∧ x.isFin ∧ y.isFin) then decide (a.2 ≤ b.2) else
    if d.topkAsc then x.lt y else y.lt x
  else
    let x := toSigned 32 a.1
    let y := toSigned 32 b.1
    if x = y then decide (a.2 ≤ b.2) else if d.topkAsc then decide (x < y) else decide (y < x)

/-- The top-k entries of one vector: value, then position (R160). -/
def topkBytes (d : GroupDesc) (ws : List Nat) : List Nat :=
  let ranked := ((ws.take d.topkLen).zip (List.range d.topkLen)).mergeSort (ranksBefore d)
  ((List.range d.topkK).map (fun i =>
    let e := ranked.getD i (0, 0xFFFFFFFF)
    leBytes 4 e.1 ++ leBytes 4 e.2)).flatten

/-- The key of an output block in a replay's adjustments: team, the group's layer and number, which open of it in the step, block. -/
def outBlockKey (t : Nat) (x : Group) (b : Nat) : Nat :=
  (((t * 64 + x.desc.layer) * 16 + x.desc.group) * 2 ^ 32 + x.occ) * 2 ^ 16 + b

/-- By how much a replay raises X of an output block (R165). -/
def State.raiseOf (s : State) (t : Nat) (x : Group) (b : Nat) : Nat :=
  match s.step? x.step with
  | some y => if y.replaying && y.adjust.any (fun e => e.2.2.contains (outBlockKey t x b)) then 1 else 0
  | none => 0

/-- The group's MX output is written, where it has one. `none` when the address is out of reach. -/
def State.writeOut (s : State) (p t g : Nat) (x : Group) : State :=
  let d := x.desc
  if d.outMx = 7 then s else
  let vs := ((List.range d.vectors).map (fun v => (s.groupWords t d v).map (outNum d))).flatten
  let r := mxTensor d.outMx (fun b => s.raiseOf t x b) vs
  if !s.reaches p d.outAddr r.1.length then s.faultStep x.step false t 0x08 d.layer g (d.outAddr % 2 ^ 32) else
  let clamps := r.2.1.sum
  let hit := ((List.range r.2.1.length).filter (fun b => r.2.1.getD b 0 != 0)).map (outBlockKey t x)
  let s := ((s.writeThrough (unitTeam t) d.outAddr r.1).bumpTeam t Reg.accOutSat clamps).bumpTeam t Reg.accOutUfl r.2.2
  (s.countOp (teamString t) (11 + d.outMx) (ceilDiv vs.length 32)).chargeOut t x.step d.layer clamps hit

/-- The group's top-k is written, where it has one. -/
def State.writeTopk (s : State) (p t g : Nat) (x : Group) : State :=
  let d := x.desc
  if d.topkK = 0 ∨ (s.step? x.step).isNone then s else
  let b := ((List.range d.vectors).map (fun v => topkBytes d (s.groupWords t d v))).flatten
  if !s.reaches p d.topkAddr b.length then s.faultStep x.step false t 0x08 d.layer g (d.topkAddr % 2 ^ 32) else
  (s.writeThrough (unitTeam t) d.topkAddr b).bumpTeam t Reg.accTopk d.vectors

/-- A CLOSING group completes when nothing of it is outstanding (R157). -/
def State.closeGroup (s : State) (t g : Nat) : State :=
  let x := s.group t g
  if x.st ≠ 2 ∨ s.groupBusy t g then s else
  let s := s.promoteAll t ((s.team t).runs.filter (fun r => r.group == g))
  match s.step? x.step with
  | none => s
  | some y =>
    let x := s.group t g
    let reads := x.desc.outMx != 7 || x.desc.topkK != 0
    let r := s.readFor (some x.step) (unitTeam t) (accAddr t x.desc.first 0) (groupTiles x.desc * 1024)
    if reads && r.2.1 then r.2.2.failStep x.step else
    let s := if reads then r.2.2 else s
    let s := (s.writeOut y.part t g x).writeTopk y.part t g x
    if (s.step? x.step).isNone then s else s.setGroup t g { s.group t g with st := 0 }

end Sys2Proof.Machine
end

