-- ==== Sys2Proof/Machine/Edge.lean ====
section
/-!
DEFINITION. The edge converter (R87 to R95, R140 to R146): decoding a segment, the running mean square, outlier
extraction and its budget, the common scale, rounding, and the pulses and outlier deliveries that come of it.
-/
namespace Sys2Proof.Machine

/-! ### The stochastic source (R144) -/

/-- One advance of the LFSR. -/
def lfsrNext (l : Nat) : Nat := if l % 2 = 1 then (l / 2) ^^^ 0x80200003 else l / 2

/-- The states after each of `n` advances. -/
def lfsrRun : Nat → Nat → List Nat
  | _, 0 => []
  | l, n + 1 => lfsrNext l :: lfsrRun (lfsrNext l) n

/-! ### Decoding (R139, R140) -/

/-- The elements of a segment; `n` elements in the whole tensor. -/
def segNums (fmt n seg : Nat) (b : List Nat) : List Num := (List.range 1024).map (fun r => mxAt fmt n b (1024 * seg + r))

/-- The scale code of the block of row `r`. -/
def segScaleCode (fmt n seg r : Nat) (b : List Nat) : Nat := b.getD (mxElemBytes fmt n + (1024 * seg + r) / 32) 0

/-- A decoded element as the edge converter takes it: an infinity is the largest normal of its sign. -/
def edgeValue (fmt code : Nat) : Num → Rat
  | .fin s m => if s then -m else m
  | .inf s => (if s then -1 else 1) * mxLargest fmt * pow2 ((code : Int) - 127)
  | .nan => 0

/-! ### Layer settings in force for a step -/

/-- The causes of a replay's adjustment for a layer (R165): bit 0 E, 1 X, 2 underflow, 3 overflow. -/
def State.causes (s : State) (step layer : Nat) : Nat :=
  match s.step? step with
  | some y => if y.replaying then (match y.adjust.find? (fun e => e.1 == layer) with | some e => e.2.1 | none => 0) else 0
  | none => 0

/-- T as a number: halving an odd setting keeps its half (R108, R165). -/
def threshOf (l : Layer) (causes : Nat) : Rat :=
  if l.outThresh = 0 then 0 else
  let t : Rat := (l.outThresh : Rat) / 8
  let t := if causes.testBit 3 then (if 255 / 8 < 2 * t then 255 / 8 else 2 * t) else t
  if causes.testBit 2 && l.inFmt == 1 then (if t / 2 < 2 then 2 else t / 2) else t

/-- The input form: an A5 layer with edge underflow runs with A8 inputs in the replay. -/
def inFmtOf (l : Layer) (causes : Nat) : Nat := if causes.testBit 2 then 1 else l.inFmt

/-! ### The running mean square (R87) -/

def meanKey (loc seg : Nat) : Nat := loc * 256 + seg

/-- m as a number; none while it is not set. `inf` stands for an m that has overflowed FP32. -/
def meanOf (stored : Nat) : Option Num := if stored = 0 then none else some (f32 (stored - 1))

/-- m': q where m is not set or below q ÷ 256, else m. -/
def meanUsed (stored : Nat) (q : Rat) : Num :=
  match meanOf stored with
  | none => .fin false q
  | some (.fin _ m) => if m < q / 256 then .fin false q else .fin false m
  | some x => x

/-- m after the vector: m' + (q − m') ÷ 16 rounded to nearest even, as stored. -/
def meanNext (used : Num) (q : Rat) : Nat :=
  match used with
  | .fin _ m => f32Mag (m + (q - m) / 16) + 1
  | _ => 0x7F800000 + 1

/-- The square of the threshold T √m'; none where no element can exceed it. -/
def threshSq (t : Rat) (used : Num) : Option Rat :=
  if t = 0 then none else
  match used with
  | .fin _ m => some (t * t * m)
  | _ => none

/-! ### Extraction (R88, R92 to R94) -/

/-- Rows with their values whose magnitude exceeds the threshold, by descending magnitude, lower row first. -/
def rankOutliers (sq : Option Rat) (vs : List Rat) : List (Nat × Rat) :=
  match sq with
  | none => []
  | some h =>
    (((List.range vs.length).zip vs).filter (fun e => decide (h < e.2 * e.2))).mergeSort
      (fun a b => decide (b.2 * b.2 < a.2 * a.2 ∨ (b.2 * b.2 = a.2 * a.2 ∧ a.1 ≤ b.1)))

/-- A placement takes a row: its ZERO_CHAINS bit is clear (R178). -/
def Place.takes (x : Place) (row : Nat) : Bool := !x.zeroChains.testBit (row / 64)

/-- Units of one outlier row: one per tile that it feeds. -/
def rowUnits (ps : List Place) (row : Nat) : Nat := (ps.filter (fun x => x.takes row)).length

/-- The first rows that fit in the units left, and the rest. -/
def serveRows (ps : List Place) : Nat → List (Nat × Rat) → List (Nat × Rat) × List (Nat × Rat)
  | _, [] => ([], [])
  | left, r :: rs =>
    if rowUnits ps r.1 ≤ left then
      let q := serveRows ps (left - rowUnits ps r.1) rs
      (r :: q.1, q.2)
    else ([], r :: rs)

def unitsOf (ps : List Place) (rs : List (Nat × Rat)) : Nat := (rs.map (fun r => rowUnits ps r.1)).sum

/-- A segment after step 2 of R142: the squared magnitude and sign of every bulk row (0 where extracted), and the
extracted rows. -/
structure SegPart where
  seg : Nat
  places : List Place
  bulk : List (Rat × Bool)
  outs : List (Nat × Rat)

/-- An A8 vector is in flight in the team. -/
def State.a8InFlight (s : State) (t : Nat) : Bool :=
  (s.teamTiles t).any (fun k => (s.tile t k).loading.any (fun p => p.fmt == 1) ||
    (match (s.tile t k).driving with | some p => p.fmt == 1 | none => false))

/-- The outlier allowance of a vector period (R92): 1,024 units, of which an A5 vector's one beat has 512 while an A8 vector is in
flight. -/
def State.outlierBudget (s : State) (t fmt : Nat) : Nat := if fmt = 0 ∧ s.a8InFlight t then 512 else 1024

/-- A segment's excess units: a vector is counted once as overflowing, at its first segment with an excess (R93, R95). -/
def State.countOverflow (s : State) (t : Nat) (j : Job) (loc excess : Nat) (l : Layer) : State :=
  let s := s.bumpTeam t (Reg.outrLayerOvfUnits.sel loc) excess
  let old := (s.team t).ovfExcess
  let s := s.setTeam t { s.team t with ovfExcess := old + excess }
  if 0 < old then s else
  let s := (s.bumpTeam t Reg.outrOvfVectors 1).bumpTeam t (Reg.outrLayerOvf.sel loc) 1
  let x := s.stat t j.step loc
  let s := s.setStat t j.step loc { x with ovf := x.ovf + 1 }
  let again := match s.step? j.step with | some y => y.replaying || y.replayed | none => true
  if l.ovfLimit ≠ 0 ∧ x.ovf = l.ovfLimit ∧ !again then (s.bumpTeam t Reg.outrReplays 1).askLayer j.step j.layer else s

/-- Steps 1 and 2 of R142 for one segment: mean square, extraction, budget, policy. A later segment of a vector draws on what
has freed since the vector's first one (DESIGN CHOICE, log 123). -/
def State.extract (s : State) (t : Nat) (j : Job) (l : Layer) (loc : Nat) (ps : List Place) (vs : List Rat) : SegPart × State :=
  let causes := s.causes j.step j.layer
  let q : Rat := (vs.map (fun v => v * v)).sum / 1024
  let key := meanKey loc j.seg
  let used := meanUsed (Map.get 0 (s.team t).means key) q
  let sq := threshSq (threshOf l causes) used
  let ranked := rankOutliers sq vs
  let s := s.bumpTeam t Reg.outrExtractLimit (ranked.length - 256)
  let old := Map.get 0 (s.team t).means key
  let mark := (j.step * 64 + loc) * 2 ^ 24 + j.occ * 256 + j.seg
  let marks := (s.team t).meanMarks
  let s := s.setTeam t { s.team t with
    means := Map.set 0 (s.team t).means key (meanNext used q),
    meanMarks := if j.lead && (s.step? j.step).isSome then Map.set 0 marks mark (old + 1) else marks }
  let outs := ranked.take 256
  let r := serveRows ps (s.outlierBudget t (inFmtOf l causes) - (s.team t).drawn) outs
  let excess := unitsOf ps r.2
  let s := if j.head then s.setTeam t { s.team t with ovfExcess := 0 } else s
  let before := (s.team t).ovfExcess
  let s := if excess = 0 then s else s.countOverflow t j loc excess l
  let clamp := l.clampPolicy && decide (0 < excess)
  let taken := if clamp then r.1 else outs
  let back := if clamp then r.2 else []
  let s := s.bumpTeam t Reg.outrClampedRows back.length
  let periods := if clamp then 0 else ceilDiv (before + excess) 1024 - ceilDiv before 1024
  let units := unitsOf ps taken
  let s := (s.bumpTeam t Reg.outrStallPeriods periods).bumpTeam t Reg.outrOutlierRows taken.length
  let s := s.bumpTeam t Reg.outrOutlierUnits units
  let x := s.team t
  let s := s.setTeam t { x with stall := x.stall + periods, drawn := x.drawn + unitsOf ps r.1,
                                  backlog := x.backlog ++ ((taken.map (fun o => rowUnits ps o.1)).filter (fun u => u != 0)) }
  let bulk := ((List.range vs.length).zip vs).map (fun e =>
    if taken.any (fun o => o.1 == e.1) then (0, false)
    else if back.any (fun o => o.1 == e.1) then (sq.getD 0, decide (e.2 < 0))
    else (e.2 * e.2, decide (e.2 < 0)))
  (⟨j.seg, ps, bulk, taken⟩, s)

/-! ### The common scale and rounding (R142 to R146) -/

/-- The smallest E with √y ≤ Q × 2^E, for y the square of the largest magnitude. -/
def commonScale (y : Rat) (q : Nat) : Int :=
  let r := y / (q * q)
  let e := floorLog2 r / 2
  if r ≤ pow2 (2 * e) then e else e + 1

/-- √y rounded to nearest even. -/
def roundRoot (y : Rat) : Nat :=
  let n := Nat.sqrt y.floor.toNat
  let h : Rat := (n : Rat) + 1 / 2
  if y < h * h then n else if h * h < y then n + 1 else if n % 2 = 0 then n else n + 1

/-- ⌊√y + r⌋ for r in [0, 1). -/
def floorRoot (y r : Rat) : Nat :=
  let n := Nat.sqrt y.floor.toNat
  let h : Rat := (n : Rat) + 1 - r
  if h * h ≤ y then n + 1 else n

/-- The squared magnitude that a run of segments is scaled by: its largest bulk magnitude, or where no bulk is left its
largest outlier; 0 where there is neither. -/
def spanMax (parts : List SegPart) : Rat :=
  let b := (parts.map (fun p => (p.bulk.map (·.1)).foldl max 0)).foldl max 0
  if b ≠ 0 then b else (parts.map (fun p => (p.outs.map (fun o => o.2 * o.2)).foldl max 0)).foldl max 0

/-- The magnitudes q of a segment on the scale 2^E; `ls` the LFSR states of its rows. -/
def magnitudes (stochastic : Bool) (e : Int) (bulk : List (Rat × Bool)) (ls : List Nat) : List Nat :=
  (bulk.zip ls).map (fun b =>
    let y := b.1.1 / pow2 (2 * e)
    if stochastic then floorRoot y ((b.2 % 65536 : Nat) / 65536) else roundRoot y)

/-! ### Pulses (R58, R68, R70, R71) -/

/-- The rows that a placement drives in one phase and pass: `seg` the pass under SEG_SCALE. -/
def drivenRows (x : Place) (fmt phase : Nat) (segScale : Bool) (seg : Nat) (qs : List (Nat × Bool)) :
    List (Nat × Bool × Nat) :=
  ((List.range qs.length).zip qs).filterMap (fun e =>
    let m := if fmt = 0 then e.2.1 % 16 else if phase = 1 then e.2.1 / 16 else e.2.1 % 16
    if m = 0 ∨ !x.takes e.1 ∨ (segScale ∧ e.1 / 256 ≠ seg) then none else some (e.1, e.2.2, m))

/-- The phases and passes of a vector on one tile: the high phase of A8 first. -/
def passesOf (fmt : Nat) (segScale : Bool) : List (Nat × Nat) :=
  ((if fmt = 0 then [0] else [1, 0]).map (fun ph => (if segScale then [0, 1, 2, 3] else [0]).map (fun g => (ph, g)))).flatten

/-- A skipped phase or pass: counted, and its ZERO record sent (R68). -/
def State.skipPhase (s : State) (t k : Nat) (p : Pulse) : State :=
  let s := (s.bumpTile t k Reg.tileZeroCount 1).bumpTeam t Reg.teamZeroSkips 1
  let s := (s.raise (Reg.tileLastZero.tile t k)).fset (Reg.tileLastActiveRows.tile t k) 0
  s.setTeam t { s.team t with records := (s.team t).records ++ [zeroRec k (s.tile t k).live p] }

/-- The pulses of one placement for a converted segment. -/
def State.launch (s : State) (t : Nat) (j : Job) (l : Layer) (causes : Nat) (e : Int) (part : SegPart)
    (qs : List (Nat × Bool)) (x : Place) : State :=
  let k := (s.team t).tileOf x.role
  let fmt := inFmtOf l causes
  s.each (passesOf fmt l.segScale) (fun s pg =>
    let p : Pulse := { role := x.role, rows := drivenRows x fmt pg.1 l.segScale pg.2 qs, fmt := fmt, phase := pg.1,
                       pair := l.pair, segScale := l.segScale, seg := pg.2, floor := l.floor, layer := j.layer,
                       group := j.group, vec := j.vec, colBlock := x.colBlock, scale := e, inSeg := part.seg,
                       step := j.step, loc := x.loc, stray := j.stray }
    if p.rows.isEmpty then s.skipPhase t k p
    else s.setTile t k { s.tile t k with loading := (s.tile t k).loading ++ [p] })

/-- The outlier delivery of one placement, where any extracted row meets it. Its tile and plane are fixed once the vector begins
there; at once where no phase of it has a beat. -/
def State.deliver (s : State) (t : Nat) (j : Job) (l : Layer) (e : Int) (part : SegPart) (x : Place) : State :=
  let rows := part.outs.filter (fun o => x.takes o.1)
  if rows.isEmpty then s else
  let k := (s.team t).tileOf x.role
  let y := s.tile t k
  let d : Delivery := { step := j.step, layer := j.layer, loc := x.loc, group := j.group, vec := j.vec,
                        colBlock := x.colBlock, inSeg := part.seg, tile := k, plane := (s.tile t k).live, e := e,
                        rows := rows, pair := l.pair, segScale := l.segScale, stray := j.stray }
  let d := { d with begun := !(y.loading.any (fun p => p.key == d.key)) }
  (s.setTeam t { s.team t with deliveries := (s.team t).deliveries ++ [d] }).showGroup t j.group

/-- Steps 3 to 6 of R142 for one segment of a span whose scale is 2^E; a replay for column saturation raises E by 1. -/
def State.convertPart (s : State) (t : Nat) (j : Job) (l : Layer) (loc : Nat) (e : Int) (part : SegPart) : State :=
  let causes := s.causes j.step j.layer
  let ls := lfsrRun (s.team t).lfsr 1024
  let s := s.setTeam t { s.team t with lfsr := ls.getD 1023 1 }
  let ms := magnitudes l.stochastic e part.bulk ls
  let qs := ms.zip (part.bulk.map (·.2))
  let ufl := ((part.bulk.zip ms).filter (fun b => decide (b.1.1 ≠ 0) && b.2 == 0)).length
  let s := ((s.bumpTeam t Reg.accEdgeUfl ufl).chargeUfl t j.step loc ufl).countOp (teamString t) (5 + l.inMx) 1
  s.each part.places (fun s x => (s.launch t j l causes e part qs x).deliver t j l e part x)

/-- The jobs that share one E with the front job: later segments of the same vector in the same run (R146). -/
def spanJobs (span : Nat) : List Job → List Job
  | [] => []
  | j :: js => j :: js.takeWhile (fun k =>
      k.step == j.step && k.layer == j.layer && k.group == j.group && k.vec == j.vec && k.addr == j.addr &&
      decide (j.seg < k.seg) && k.seg / 2 ^ span == j.seg / 2 ^ span)

/-- Segments extracted in order. -/
def State.extractAll (s : State) (t : Nat) (l : Layer) (loc : Nat) (h : List Nat) : List Job → List SegPart × State
  | [] => ([], s)
  | j :: js =>
    let n := l.rowSegs * 1024
    let ps := (layerPlaces h j.layer).filter (fun x => x.team == t && x.rowSeg == j.seg)
    let nums := segNums l.inMx n j.seg j.bytes
    let vs := ((List.range 1024).zip nums).map (fun e => edgeValue l.inMx (segScaleCode l.inMx n j.seg e.1 j.bytes) e.2)
    let inf := (nums.filter (fun x => match x with | .inf _ => true | _ => false)).length
    let s := s.chargeSat t j.step loc inf false
    let r := s.extract t j l loc ps vs
    let q := r.2.extractAll t l loc h js
    (r.1 :: q.1, q.2)

/-- The first segment of a list that holds a NaN element or scale. -/
def nanJob (l : Layer) (js : List Job) : Option Nat :=
  (js.find? (fun j => (segNums l.inMx (l.rowSegs * 1024) j.seg j.bytes).any Num.isNan)).map (·.seg)

/-- The team's input is withheld: a SPLIT stall or a forced check (R94, R100), or a full arbitration queue with one more
sample failed (R104). -/
def State.inputStalled (s : State) (t : Nat) : Bool :=
  decide (0 < (s.team t).stall) || !(s.team t).forced.isEmpty || decide (4 < (s.team t).arbQueue.length)

/-- The partition that a job belongs to: its step's, or the team's once the step has committed without its strays. -/
def State.jobPart (s : State) (t : Nat) (j : Job) : Option Nat :=
  match s.step? j.step with
  | some y => some y.part
  | none => s.teamPart t

/-- A NaN in the input of a job: ACC_ERR.NAN_INPUT, a UE fault of the team, and its step fails (R140, R523); a stray of a step that has
committed fails none, and its record names milepost 0. -/
def State.nanInput (s : State) (t : Nat) (j : Job) (loc seg : Nat) : State :=
  let s := s.raise (Reg.accErrNanInput.team t)
  if (s.step? j.step).isSome || (s.servedAs j.step).isSome then s.faultStep j.step false t 0x02 loc 0xFF seg
  else s.teamFault false t 0x02 loc 0xFF 0xFF 0 seg

/-- The front job is converted, with those that share its E. -/
def State.edgeConvert (s : State) (t : Nat) : State :=
  if s.inputStalled t then s else
  match (s.team t).jobs with
  | [] => s
  | j :: rest =>
    match s.jobPart t j with
    | none => s.setTeam t { s.team t with jobs := rest }
    | some p =>
      let h := s.harness p
      let l := harnessLayer h j.layer
      let loc := localLayer h t j.layer
      let run := spanJobs l.span (j :: rest)
      let s := s.setTeam t { s.team t with jobs := (j :: rest).drop run.length }
      match nanJob l run with
      | some seg => s.nanInput t j loc seg
      | none =>
        let r := s.extractAll t l loc h run
        let top := spanMax r.1
        let causes := r.2.causes j.step j.layer
        let e0 := if top = 0 then 0 else commonScale top (if inFmtOf l causes = 1 then 127 else 15)
        let e := if causes.testBit 0 then e0 + 1 else e0
        let s := r.2.each (run.zip r.1) (fun s b => s.convertPart t b.1 l loc e b.2)
        s.showTeam t

/-- EDGE_CONVERT (R142). -/
def execEdgeConvert (t : Nat) (s : State) : Host.Outcome State Fault Refusal :=
  if (s.region (teamString t)).stopped then .next s else
  .next (s.edgeConvert t)

/-- SPLIT_STALL_END (R94): the stalled vector periods have passed. -/
def execSplitStallEnd (t : Nat) (s : State) : Host.Outcome State Fault Refusal :=
  if (s.region (teamString t)).stopped then .next s else
  .next ((s.setTeam t { s.team t with stall := 0, drawn := 0 }).showTeam t)

end Sys2Proof.Machine
end

