-- ==== Sys2Proof/Machine/Planes.lean ====
section
/-!
DEFINITION. Writes into weight planes and digital reads of them (R56, R57, R72, R73, R75, R117, R260, R272, R280, R521):
the write port with its drain queue, the block code over a plane, and a plane as the 133,632-byte record of R260.
-/
namespace Sys2Proof.Machine

/-- Bytes of a plane image and of a placement record (R260). -/
def imageBytes : Nat := 131072
def recordBytes : Nat := 133632

/-! ### Digital reads (R73, R272) -/

/-- The blocks of a plane whose check word is wrong, with their syndromes. -/
def Tile.badOf (x : Tile) (plane : Nat) : List (Nat × Nat) :=
  (x.bad.filter (fun e => e.1 / 8192 == plane)).map (fun e => (e.1 % 8192, e.2))

/-- The tile as a digital read of a plane delivers it: every block that the code mends is mended. -/
def Tile.mended (x : Tile) (plane : Nat) : Tile :=
  (x.badOf plane).foldl (fun x e =>
    match blockVerdict e.2 with
    | .ceData i j => x.flip plane e.1 (mendByte i j) (mendBit i j)
    | _ => x) x

/-- A byte of the record of a plane, by logical column (R56, R465). -/
def recordByte (m : Team) (x : Tile) (k plane off : Nat) : Nat :=
  if off < imageBytes then
    let c := off % 128 * 2
    x.cell plane (off / 128) (m.phys k c) + 16 * x.cell plane (off / 128) (m.phys k (c + 1))
  else Map.get 0 (x.scales plane) (off - imageBytes)

/-- `n` bytes of the record of a plane from an offset on, through the code. -/
def State.planeRecord (s : State) (t k plane off n : Nat) : List Nat :=
  let x := (s.tile t k).mended plane
  (List.range n).map (fun i => recordByte (s.team t) x k plane (off + i))

/-! ### The block code under a write (R521) -/

/-- A write of record bytes [off, off + n) touches a block; the spare store's blocks through the IN_USE columns. -/
def touches (m : Team) (k off n blk : Nat) : Bool :=
  let meets := fun a b => decide (a < off + n ∧ off < b)
  if blk < 4096 then meets (32 * blk) (32 * blk + 32)
  else if blk < 4224 then
    (List.range 8).any (fun i =>
      let c := Map.get {} m.cols (k * 8 + i)
      c.st == 1 && (List.range 8).any (fun r =>
        let o := ((blk - 4096) * 8 + r) * 128 + c.logical / 2
        meets o (o + 1)))
  else meets (imageBytes + 32 * (blk - 4224)) (imageBytes + 32 * (blk - 4224) + 32)

/-- The write covers the block whole. A block of the image counts as covered when its 32 image bytes are, wherever the
farrier steers a column of it (log 22). -/
def covers (m : Team) (k off n blk : Nat) : Bool :=
  let all := fun a b => decide (off ≤ a ∧ b ≤ off + n)
  if blk < 4096 then all (32 * blk) (32 * blk + 32)
  else if blk < 4224 then
    (List.range 8).all (fun i => (Map.get {} m.cols (k * 8 + i)).st == 1) &&
      all ((blk - 4096) * 1024) ((blk - 4096) * 1024 + 1024)
  else all (imageBytes + 32 * (blk - 4224)) (imageBytes + 32 * (blk - 4224) + 32)

/-- The logical column of a physical one. -/
def Team.logicalOf (x : Team) (k phys : Nat) : Option Nat :=
  if phys < 256 then (if x.phys k phys = phys then some phys else none)
  else
    let c := Map.get {} x.cols (k * 8 + (phys - 256))
    if c.st = 1 then some c.logical else none

def cellKeyOf (k row col : Nat) : Nat := k * 2 ^ 19 + row * 2 ^ 9 + col

/-- The physical column of a mended bit of a block of cells. -/
def mendedColumn (blk i j : Nat) : Option Nat :=
  match planeByte blk (mendByte i j) with
  | .scale _ => none
  | .cells _ lo hi => some (if mendBit i j < 4 then lo else hi)

/-- A HARD event at a weight cell is counted for the farrier's CELL condition (R273, R129). -/
def State.noteCell (s : State) (t k blk i j : Nat) : State :=
  match planeByte blk (mendByte i j) with
  | .scale _ => s
  | .cells row lo hi =>
    match (s.team t).logicalOf k (if mendBit i j < 4 then lo else hi) with
    | none => s
    | some c => s.setTeam t { s.team t with cells := Map.modify 0 (s.team t).cells (cellKeyOf k row c) (· + 1) }

/-- A HARD event in a plane: counted, and a data bit's cell noted. -/
def State.hardPlane (s : State) (t k blk syn : Nat) : State :=
  let s := (s.bumpTeam t Reg.groomHard 1).bump Reg.memHard
  match blockVerdict syn with | .ceData i j => s.noteCell t k blk i j | _ => s

/-- The tile with one block's syndrome. -/
def Tile.setBad (x : Tile) (plane blk syn : Nat) : Tile := { x with bad := Map.set 0 x.bad (blockKey plane blk) syn }

/-- A write of fewer bytes than a block reads it through the code first, for the writer: a CE and a UE count and are recorded,
and a block that returns the same syndrome is HARD (R273, R275, R521; log 87). -/
def State.readForMerge (s : State) (t k plane writer : Nat) (e : Nat × Nat) : State :=
  let ctx := planeContext t k plane e.1 e.2
  let hard := (s.tile t k).hard.contains (blockKey plane e.1)
  match blockVerdict e.2 with
  | .clean => s
  | .ue =>
    let s := (s.bumpTeam t Reg.groomUe 1).record 1 4 0x42 writer ctx
    if hard then (s.hardPlane t k e.1 e.2).record 1 4 0x41 writer ctx else s
  | _ =>
    let s := s.bumpTeam t Reg.groomCe 1
    if hard then (s.hardPlane t k e.1 e.2).record 0 4 0x41 writer ctx
    else s.recordSoft writer (leValue (ctx.take 8)) 2 e.2

/-- What a write does to a block that is not clean. -/
def State.mergePlaneBlock (s : State) (t k plane off n writer : Nat) (e : Nat × Nat) : State :=
  if covers (s.team t) k off n e.1 then s.setTile t k ((s.tile t k).setBad plane e.1 0) else
  let s := s.readForMerge t k plane writer e
  match blockVerdict e.2 with
  | .ue => s.setTile t k ((s.tile t k).setBad plane e.1 poisonSyndrome)
  | .ceData i j => s.setTile t k (((s.tile t k).flip plane e.1 (mendByte i j) (mendBit i j)).setBad plane e.1 0)
  | _ => s.setTile t k ((s.tile t k).setBad plane e.1 0)

/-! ### Writes (R56, R57, R72) -/

/-- The tile after a list of bytes is stored from a record offset on. -/
def putBytes (m : Team) (k plane : Nat) : (off : Nat) → List Nat → Tile → Tile
  | _, [], x => x
  | off, b :: bs, x =>
    let x := if off < imageBytes then
        let c := off % 128 * 2
        (x.setCell plane (off / 128) (m.phys k c) (b % 16)).setCell plane (off / 128) (m.phys k (c + 1)) (b / 16)
      else if off < recordBytes then x.setScaleByte plane (off - imageBytes) b else x
    putBytes m k plane (off + 1) bs x

/-- The logical blocks of a plane that a range covers whole. -/
def wholeBlocks (off n : Nat) : List Nat :=
  (((List.range (n / 32 + 1)).map (fun i => (off + 31) / 32 + i)).filter (fun b => decide (32 * b + 32 ≤ off + n))).map
    (fun b => if b < 4096 then b else 4224 + (b - 4096))

/-- A write reaches the cells: check words, bytes, the marks of R117 and R280. -/
def State.storePlane (s : State) (t k : Nat) (w : PlaneWrite) : State :=
  let n := w.bytes.length
  let s := s.each (((s.tile t k).badOf w.plane).filter (fun e => touches (s.team t) k w.off n e.1))
    (fun s e => s.mergePlaneBlock t k w.plane w.off n w.writer e)
  let x := putBytes (s.team t) k w.plane w.off w.bytes (s.tile t k)
  let x := if x.written.contains w.plane then x else { x with written := x.written ++ [w.plane] }
  let x := if x.held == some w.plane || x.marked.contains w.plane then
      { x with reloaded := (x.reloaded ++ (wholeBlocks w.off n).map (blockKey w.plane)).eraseDups } else x
  s.setTile t k x

/-- A write arrives at a tile's write port: dropped for the live plane (R72) unless the plane is held (R280); held in
order while the open plane drains (R75). -/
def State.planeWrite (s : State) (t k : Nat) (w : PlaneWrite) : State :=
  let x := s.tile t k
  if x.live = w.plane ∧ x.held ≠ some w.plane then
    (s.raise (Reg.tileErrLiveWrite.tile t k)).raise (Reg.teamErrLiveWriteAny.team t)
  else if x.drain then s.setTile t k { x with queue := x.queue ++ [w] }
  else s.storePlane t k w

/-- The tiles that a write to a tile reaches as well: the other tile of its role's take-over (R117), and the released tile
of a STATS calibration, whose copy the mirrored writes keep current whatever else the team moves (R121). A take-over that copies
nothing keeps that tile current too. -/
def Team.mirrors (x : Team) (k : Nat) : List Nat :=
  let move := match x.takeover with
    | some o => if o.src = k then [o.dst] else []
    | none => []
  let shadow := if x.cal.mode = 1 ∧ 2 ≤ x.cal.step ∧ x.cal.role.isSome ∧ x.cal.spare = some k then [x.cal.tile] else []
  (move ++ shadow).eraseDups

/-- A write to a tile, and to the tiles that mirror it unless the write was dropped. -/
def State.planeWriteBoth (s : State) (t k : Nat) (w : PlaneWrite) : State :=
  let dropped := (s.tile t k).live == w.plane && (s.tile t k).held != some w.plane
  let s := s.planeWrite t k w
  if dropped then s else s.each ((s.team t).mirrors k) (fun s m =>
    if (s.tile t m).drain then s.setTile t m { s.tile t m with queue := (s.tile t m).queue ++ [w] }
    else s.storePlane t m w)

/-- Bytes written to a role's current tile by a writer. -/
def State.roleWrite (s : State) (writer t r plane off : Nat) (b : List Nat) : State :=
  s.planeWriteBoth t ((s.team t).tileOf r) { plane := plane, off := off, bytes := b, writer := writer }

/-- TEAM, ROLE and PLANE of a plane kind's DST (R263). -/
def planeTarget (dst : Nat) : Nat × Nat × Nat := (bits dst 9 0, bits dst 15 10, bits dst 16 16)

/-- The plane is live, and not one that a hold lets be written (R280). -/
def State.planeBusy (s : State) (k : Nat × Nat × Nat) : Bool :=
  let y := s.tile k.1 ((s.team k.1).tileOf k.2.1)
  y.live == k.2.2 && y.held != some k.2.2

/-- Queued writes go on, in order, while the plane no longer drains; a tile that serves no role has both planes open (R118). -/
def State.flushQueue (s : State) (t k : Nat) : State :=
  let q := (s.tile t k).queue
  let free := ((s.team t).roleOf k).isNone
  (s.setTile t k { s.tile t k with queue := [] }).each q (fun s w => if free then s.storePlane t k w else s.planeWrite t k w)

/-! ### Drain (R75) -/

/-- Outlier reads that still name a plane of a tile, of vectors whose beats have begun; a failed sample keeps the sampled plane
until its verdict (R90). -/
def State.readsHeld (s : State) (t k plane : Nat) : Bool :=
  let x := s.team t
  x.deliveries.any (fun d => d.begun && d.tile == k && d.plane == plane) ||
  (match x.arb with | some a => a.sample.tile == k && a.sample.plane == plane | none => false) ||
  x.arbQueue.any (fun q => q.sample.tile == k && q.sample.plane == plane) ||
  x.records.any (fun r => !r.zero && r.tile == k && r.plane == plane) ||
  x.samples.any (fun e => e.2.tile == k && e.2.plane == plane)

/-- The planes of a tile that are open: both where the tile serves no role any longer (R118). -/
def State.openPlanes (s : State) (t k : Nat) : List Nat :=
  if ((s.team t).roleOf k).isSome then [1 - (s.tile t k).live] else [0, 1]

/-- DRAIN clears once no read of an open plane is outstanding; the held writes follow. -/
def State.endDrain (s : State) (t k : Nat) : State :=
  if !(s.tile t k).drain || (s.openPlanes t k).any (fun p => s.readsHeld t k p) then s
  else (s.setTile t k { s.tile t k with drain := false }).flushQueue t k

/-! ### Reload (R280) -/

/-- The logical blocks that a reload writes. -/
def reloadBlocks : List Nat := List.range 4096 ++ (List.range 80).map (4224 + ·)

/-- Every block of a plane has been written since it was held or marked. -/
def Tile.reloadDone (x : Tile) (plane : Nat) : Bool := reloadBlocks.all (fun b => x.reloaded.contains (blockKey plane b))

/-- The hold and the mark of a plane end. Its spare columns count as written with it (log 22). -/
def Tile.endReload (x : Tile) (plane : Nat) : Tile :=
  { x with bad := x.bad.filter (fun e => e.1 / 8192 != plane || decide (e.1 % 8192 < 4096 ∨ 4224 ≤ e.1 % 8192)),
           held := if x.held = some plane then none else x.held, marked := x.marked.filter (· != plane),
           reloaded := x.reloaded.filter (fun b => b / 8192 != plane) }

/-! ### Staged copies in the DRAM tier (R260, R261) -/

/-- Tensor address of placement record `i` of a staged copy whose first unit is `unit`. -/
def stageAddr (unit i : Nat) : Nat := dramBase + unit * 65536 + i * recordBytes

/-- The copy lies in a neighbour's tier: port [30:28]. -/
def remoteTier (unit : Nat) : Bool := unit.testBit 31
def remotePort (unit : Nat) : Nat := bits unit 30 28

/-- The link to the neighbour that holds a copy is UP; R261 names UP alone. -/
def State.remoteUp (s : State) (unit : Nat) : Bool := s.linkSt (remotePort unit) == lkUp

/-- The staged copy that holds a placement, where the placement belongs to a staged model or expert: first unit and
index of its record. -/
def stagedAt (h : List Nat) (t r plane : Nat) : Option (Nat × Nat) :=
  let fits := fun (x : Place) => x.team == t && x.role == r && x.plane == plane
  let inModel := (List.range (field h 4 2)).findSome? (fun m =>
    let d := harnessModel h m
    if d.home ≠ 2 then none else
    ((modelPlaces h m).findIdx? fits).map (fun i => (d.stageUnit, i)))
  match inModel with
  | some x => some x
  | none => (List.range (field h 12 2)).findSome? (fun e =>
      let d := harnessExpert h e
      if d.home ≠ 1 then none else
      ((((List.range d.layers).map (fun i => layerPlaces h (d.firstLayer + i))).flatten).findIdx? fits).map
        (fun i => (d.whr, i)))

/-- The load context of a partition raises its vector. -/
def State.loadIrq (s : State) (c : Nat) : State :=
  s.raiseVec (if c = 0 then 0 else s.partVf (c - 1)) (s.fget (Reg.loadCtrlIrqVec.ctx c))

/-- A damaged plane is reloaded: from the tier copy of a staged placement, else by the host (R280). -/
def State.startReload (s : State) (p t r plane : Nat) : State :=
  match stagedAt (s.harness p) t r plane with
  | some (unit, i) =>
    if remoteTier unit then s else
    let q := s.readFor none (unitTeam t) (stageAddr unit i) recordBytes
    if q.2.1 then q.2.2 else q.2.2.roleWrite (unitTeam t) t r plane 0 q.1
  | none =>
    let c := p + 1
    let s := (s.raise (Reg.loadReloadPending.ctx c)).fset (Reg.loadReloadTeam.ctx c) t
    ((s.fset (Reg.loadReloadPlane.ctx c) plane).fset (Reg.loadReloadRole.ctx c) r).loadIrq c

/-- A marked plane that is now open, on a tile that serves a role, is reloaded (R279, R280). -/
def State.reloadMarked (s : State) (t k plane : Nat) : State :=
  if !(s.tile t k).marked.contains plane || (s.tile t k).live == plane then s else
  match s.teamPart t, (s.team t).roleOf k with
  | some p, some r => s.startReload p t r plane
  | _, _ => s

/-! ### Commands -/

/-- PLANE_WRITE (R72): bytes at an offset of a plane's record. -/
def execPlaneWrite (t k plane off : Nat) (bytes : List Nat) (s : State) : Host.Outcome State Fault Refusal :=
  .next ((s.planeWriteBoth t k { plane := plane % 2, off := off, bytes := bytes.map (· % 256), writer := unitTeam t }).showTeam t)

/-- HELD_PLANE_RELOADED (R280): the hold ends when every block of the plane has been written. -/
def execHeldPlaneReloaded (t k plane : Nat) (s : State) : Host.Outcome State Fault Refusal :=
  let x := s.tile t k
  .next (if x.reloadDone plane then (s.setTile t k (x.endReload plane)).showTeam t else s)

end Sys2Proof.Machine
end

