-- ==== Sys2Proof/Machine/Groom.lean ====
section
/-!
DEFINITION. Findings in weight planes (R274, R279, R454) and the groom's laps (R276 to R278, R288).
-/
namespace Sys2Proof.Machine

/-- Blocks of both planes of a tile (R276). -/
def lapBlocks : Nat := 2 * planeBlocks

/-- Block number within a lap, plane A's first, as plane and block. -/
def lapBlock (n : Nat) : Nat × Nat := (n / planeBlocks, n % planeBlocks)

/-- When a team's lap began; the first begins at READY. -/
def State.lapFrom (s : State) (t : Nat) : Nat := (s.team t).lapStart.getD s.boot.readyAt
def State.prevLapFrom (s : State) (t : Nat) : Nat := (s.team t).prevLapStart.getD s.boot.readyAt

/-- Start of the tile's previous completed lap part (R279). -/
def State.lapPartStart (s : State) (t k : Nat) : Nat :=
  if lapBlocks ≤ (s.tile t k).groomed then s.lapFrom t else s.prevLapFrom t

/-- A finding is live: in the live plane of a tile that serves a role; in the spare store where the column of the mended bit is
IN_USE, or, where no column is known, where one of the block's is. -/
def State.liveBlock (s : State) (t k plane blk syn : Nat) : Bool :=
  let x := s.team t
  let used := fun (i : Nat) => (Map.get {} x.cols (k * 8 + i)).st == 1
  let column := match blockVerdict syn with | .ceData i j => mendedColumn blk i j | _ => none
  (x.roleOf k).isSome && (s.tile t k).live == plane &&
  (decide (blk < 4096 ∨ 4224 ≤ blk) ||
    (match column with | some c => used (c - 256) | none => (List.range 8).any used))

/-- The scope of a team's findings: its partition (R454). -/
def State.teamScope (s : State) (t : Nat) : Nat := match s.teamPart t with | some p => 2 ^ p | none => 0

/-- A CE is mended; a hard one returns. -/
def State.mendBlock (s : State) (t k plane blk syn : Nat) : State :=
  let x := s.tile t k
  if x.hard.contains (blockKey plane blk) then
    s.hardPlane t k blk syn
  else
    let x := match blockVerdict syn with
      | .ceData i j => x.flip plane blk (mendByte i j) (mendBit i j)
      | _ => x
    s.setTile t k (x.setBad plane blk 0)

/-- What a reader does about a block whose check word is wrong (R279): `cls` 5 for the groom, 4 for another reader. -/
def State.finding (s : State) (t k plane cls : Nat) (e : Nat × Nat) : State :=
  let blk := e.1
  let syn := e.2
  let x := s.tile t k
  let ctx := planeContext t k plane blk syn
  let src := unitTile t k
  let hard := x.hard.contains (blockKey plane blk)
  let live := s.liveBlock t k plane blk syn
  let scope := s.teamScope t
  let start := s.lapPartStart t k
  match blockVerdict syn with
  | .clean => s
  | .ue =>
    let s := s.bumpTeam t Reg.groomUe 1
    let s := if hard then (s.hardPlane t k blk syn).record 1 4 0x41 src ctx else s
    if live then
      let s := s.raise (Reg.groomErrUeLive.team t)
      let s := s.setTile t k { x with held := some plane, reloaded := x.reloaded.filter (fun b => b / 8192 != plane) }
      let s := s.danger 2 cls 0x42 src ctx scope start
      match s.teamPart t, (s.team t).roleOf k with
      | some p, some r => (s.askReplay p).startReload p t r plane
      | _, _ => s
    else
      let s := (s.raise (Reg.groomErrUeOpen.team t)).record 1 4 0x42 src ctx
      if x.marked.contains plane then s else
      let s := s.setTile t k { s.tile t k with
        marked := x.marked ++ [plane], reloaded := x.reloaded.filter (fun b => b / 8192 != plane) }
      s.reloadMarked t k plane
  | _ =>
    let s := (s.bumpTeam t Reg.groomCe 1).mendBlock t k plane blk syn
    let code := if hard then 0x41 else 0x40
    if live then
      let s := (s.raise (Reg.groomErrCeLive.team t)).danger 2 cls code src ctx scope start
      match s.teamPart t with
      | some p => s.askReplay p
      | none => s
    else if hard then s.record 0 4 code src ctx
    else s.recordSoft src (leValue (ctx.take 8)) 2 syn

/-- The wrong blocks of a list of blocks of one plane. -/
def State.findAll (s : State) (t k plane cls : Nat) (hit : Nat → Bool) : State :=
  s.each (((s.tile t k).badOf plane).filter (fun e => hit e.1)) (fun s e => s.finding t k plane cls e)

/-- The blocks that hold a row of weights. -/
def rowBlock (row blk : Nat) : Bool :=
  decide (4 * row ≤ blk ∧ blk < 4 * row + 4) || blk == 4096 + row / 8

/-- The outrider reads rows of a plane through the code (R89, R274). -/
def State.outriderReads (s : State) (t k plane : Nat) (rows : List Nat) : State :=
  s.findAll t k plane 4 (fun b => rows.any (fun r => rowBlock r b))

/-! ### Laps -/

/-- Tiles of a team that a lap covers. -/
def State.lapTiles (s : State) (t : Nat) : List Nat := (List.range 34).filter (fun k => !(s.team t).retired.contains k)

/-- The first tile of a list with the least part read. -/
def State.laggard (s : State) (t : Nat) : List Nat → Nat
  | [] => 0
  | k :: ks => ks.foldl (fun a b => if (s.tile t b).groomed < (s.tile t a).groomed then b else a) k

/-- GROOM_STATUS and GROOM_BOUND of a team. -/
def State.showLap (s : State) (t : Nat) : State :=
  let k := s.laggard t (s.lapTiles t)
  (s.fset (Reg.groomStatusLaggard.team t) k).fset (Reg.groomStatusLeft.team t) (lapBlocks - (s.tile t k).groomed)

/-- GROOM_BOUND in seconds (R278). -/
def State.groomBound (s : State) : Nat := s.safetyCfg 2 2 600

/-- A lap ends when every block has been read, and the next begins (R276). -/
def State.endLap (s : State) (t : Nat) : State :=
  let ks := s.lapTiles t
  if !ks.all (fun k => decide (lapBlocks ≤ (s.tile t k).groomed)) then s else
  let ms := (s.now - s.lapFrom t) / 400000
  let s := (s.fset (Reg.groomLap.team t) ms).fset (Reg.groomLapMax.team t) (max ms (s.fget (Reg.groomLapMax.team t)))
  let s := (s.fset64 (Reg.groomWayLo.team t) (Reg.groomWayHi.team t) s.now).bumpTeam t Reg.groomLaps 1
  let s := s.setTeam t { s.team t with prevLapStart := some (s.lapFrom t), lapStart := some s.now }
  s.each ks (fun s k => s.setTile t k { s.tile t k with groomed := 0 })

/-- The groom reads the next 64 blocks of a tile (R277). -/
def State.groomTile (s : State) (t k : Nat) : State :=
  let n := (s.tile t k).groomed
  let m := min lapBlocks (n + 64)
  let hit := fun plane b => decide (n ≤ plane * planeBlocks + b ∧ plane * planeBlocks + b < m)
  let s := (s.findAll t k 0 5 (hit 0)).findAll t k 1 5 (hit 1)
  s.setTile t k { s.tile t k with groomed := m }

/-- The `n` least advanced of a list of tiles that still need reading. -/
def State.groomPick (s : State) (t : Nat) : Nat → List Nat → List Nat
  | 0, _ => []
  | n + 1, ks =>
    match ks with
    | [] => []
    | _ => let k := s.laggard t ks; k :: s.groomPick t n (ks.filter (· != k))

/-- One beat of the groom over the tiles that stand idle in it: at most four. -/
def State.groomBeat (s : State) (t : Nat) (idle : List Nat) : State :=
  if !s.ready then s else
  let ks := idle.filter (fun k => !(s.team t).retired.contains k && decide ((s.tile t k).groomed < lapBlocks))
  ((s.each (s.groomPick t 4 ks) (fun s k => s.groomTile t k)).endLap t).showLap t

/-- GROOM_NEAR_BOUND (R278): the groom asks for a calibration of a tile whose part is not complete. -/
def execGroomNearBound (t k : Nat) (s : State) : Host.Outcome State Fault Refusal :=
  if lapBlocks ≤ (s.tile t k).groomed ∨ s.now < s.lapFrom t + secTicks s.groomBound * 9 / 10 then .next s else
  let x := s.team t
  .next ((s.setTeam t { x with calQueue := if x.calQueue.contains k then x.calQueue else x.calQueue ++ [k] }).bumpTeam t
    Reg.groomTakeovers 1)

/-- GROOM_LAP_LATE (R278). -/
def execGroomLapLate (t : Nat) (s : State) : Host.Outcome State Fault Refusal :=
  .next ((s.raise (Reg.groomErrLapLate.team t)).record 1 5 0x43 (unitTeam t)
    (leBytes 8 (t + s.laggard t (s.lapTiles t) * 2 ^ 10) ++ [2, 0, 0xFF, 0xFF]))

end Sys2Proof.Machine
end

