-- ==== Sys2Proof/Machine/Takeover.lean ====
section
/-!
DEFINITION. Spare tiles and take-overs (R117 to R122).
-/
namespace Sys2Proof.Machine

/-! ### CAL_STATUS -/

/-- CAL_STATUS follows the calibration. -/
def State.showCalStatus (s : State) (t : Nat) : State :=
  let c := (s.team t).cal
  let s := (s.fset (Reg.calStatusTile.team t) (if c.step = 0 then 0x3F else c.tile)).fset (Reg.calStatusStep.team t) c.step
  let s := (s.fput (Reg.calStatusBusy.team t) (c.step != 0)).fset (Reg.calStatusMode.team t) c.mode
  s.showTracking t

def State.setCal (s : State) (t : Nat) (c : Cal) : State := (s.setTeam t { s.team t with cal := c }).showCalStatus t

/-! ### Taking over (R117, R118) -/

/-- A model of the harness names the plane of a role. -/
def State.planeNamed (s : State) (t r plane : Nat) : Bool :=
  match s.teamPart t with
  | none => false
  | some p =>
    let h := s.harness p
    (List.range (field h 4 2)).any (fun m => (modelPlaces h m).any (fun x => x.team == t && x.role == r && x.plane == plane))

/-- The planes that a take-over copies: the live one, and the open one where it holds writes or a named model. -/
def State.planesToCopy (s : State) (t r k : Nat) : List Nat :=
  let x := s.tile t k
  if x.written.contains (1 - x.live) || s.planeNamed t r (1 - x.live) then [x.live, 1 - x.live] else [x.live]

/-- A take-over begins, or waits while the team's one take-over is in progress (R120). -/
def State.startTakeover (s : State) (t r dst why reason column : Nat) (planes : List Nat) : State :=
  let x := s.team t
  let o : Takeover :=
    { role := r, src := x.tileOf r, dst := dst, planes := planes, done := planes.isEmpty, why := why, reason := reason,
      column := column }
  s.setTeam t (if x.takeover.isSome then { x with waitMoves := x.waitMoves ++ [o] } else { x with takeover := some o })

/-- A waiting take-over is still wanted: its tile has not been retired, and the role stands on the tile that it leaves; a return has
not happened yet. -/
def Team.wants (x : Team) (o : Takeover) : Bool :=
  !x.retired.contains o.dst &&
    (if o.why = 3 then x.tileOf o.role != o.dst else x.tileOf o.role == o.src && (x.roleOf o.dst).isNone)

/-- The oldest waiting take-over that is still wanted begins; what it copies is what the role's tile holds now. -/
def State.beginNext (s : State) (t : Nat) : List Takeover → State
  | [] => s.setTeam t { s.team t with waitMoves := [] }
  | o :: os =>
    if (s.team t).wants o then
      (s.setTeam t { s.team t with waitMoves := os }).startTakeover t o.role o.dst o.why o.reason o.column
        (if o.planes.isEmpty then [] else s.planesToCopy t o.role ((s.team t).tileOf o.role))
    else s.beginNext t os

/-- Once a take-over has ended, the next one begins. -/
def State.nextMove (s : State) (t : Nat) : State :=
  let x := s.team t
  if x.takeover.isSome || x.waitMoves.isEmpty then s else s.beginNext t x.waitMoves

/-- A plane is copied through the read port and the write port; the receiving tile computes its own check bits. -/
def State.copyPlane (s : State) (t src dst plane : Nat) : State :=
  let b := s.planeRecord t src plane 0 recordBytes
  let y := s.tile t dst
  let y := { y with bad := y.bad.filter (fun e => e.1 / 8192 != plane) }
  s.setTile t dst (putBytes (s.team t) dst plane 0 b y)

/-- What the receiving tile takes over beside the copied planes: the live selection, holds, marks, queued writes. -/
def State.carryOver (s : State) (t src dst : Nat) (planes : List Nat) : State :=
  let x := s.tile t src
  let y := s.tile t dst
  let y := { y with live := x.live, held := x.held, marked := x.marked, reloaded := x.reloaded,
                    written := (x.written.filter planes.contains) ++ (y.written.filter (fun p => !planes.contains p)), queue := [] }
  (s.setTile t dst y).each x.queue (fun s w => s.planeWrite t dst w)

/-- The copy of a take-over is complete: its reads count in the groom's lap (R276), and a wrong block met is a finding. A tile that
still drains accepts no writes, so its copy is not complete before (R75, R118). -/
def State.finishCopy (s : State) (t : Nat) : State :=
  match (s.team t).takeover with
  | none => s
  | some o =>
    if o.done || (s.tile t o.dst).drain then s else
    let s := s.each o.planes (fun s p => s.findAll t o.src p 4 (fun _ => true))
    let s := s.each o.planes (fun s p => s.copyPlane t o.src o.dst p)
    let s := s.carryOver t o.src o.dst o.planes
    let s := s.setTile t o.src { s.tile t o.src with groomed := lapBlocks }
    s.setTeam t { s.team t with takeover := some { o with done := true } }

/-- The role stands at a vector boundary: the tile drives no vector. -/
def State.atBoundary (s : State) (t k : Nat) : Bool := (s.tile t k).vector.isNone

/-- The role moves: the waiting input goes to the new tile, with the outlier rows of vectors that have not begun; a released tile
is out of service, a returning spare idle. -/
def State.moveRole (s : State) (t : Nat) (o : Takeover) : State :=
  let s := s.calTrace t o.dst (if o.why = 3 then 2 else 1)
  let x := s.team t
  let a := s.tile t o.src
  let b := s.tile t o.dst
  let s := s.setTeam t { x with roles := Map.set o.role x.roles o.role o.dst, takeover := none,
                                began := Map.insert x.began o.role s.now,
                                deliveries := x.deliveries.map (fun d =>
                                  if d.tile = o.src ∧ !d.begun then { d with tile := o.dst } else d) }
  let s := s.setTile t o.dst { b with loading := b.loading ++ a.loading, live := a.live, outOfService := false }
  let a := s.tile t o.src
  let reads := s.readsHeld t o.src 0 || s.readsHeld t o.src 1
  s.setTile t o.src { a with loading := [], outOfService := o.why != 3, drain := reads, held := none, marked := [], reloaded := [] }

end Sys2Proof.Machine
end

