-- ==== Sys2Proof/Machine/Farrier.lean ====
section
/-!
DEFINITION. The farrier: remaps, retirements, bypass columns, lost teams, and their studbook record (R128 to R138).
-/
namespace Sys2Proof.Machine

/-! ### Registers and the studbook (R133, R138) -/

/-- FARR_MAP and FARR_BYPASS follow the repair state. -/
def State.showRepair (s : State) (t : Nat) : State :=
  let x := s.team t
  let s := s.each (List.range 4) (fun s i =>
    match x.bypass[i]? with
    | some b => ((s.raise ((Reg.farrBypassValid.team t).nth i)).fset ((Reg.farrBypassTile.team t).nth i) b.1).fset
        ((Reg.farrBypassColumn.team t).nth i) b.2
    | none => ((s.clear ((Reg.farrBypassValid.team t).nth i)).fset ((Reg.farrBypassTile.team t).nth i) 0).fset
        ((Reg.farrBypassColumn.team t).nth i) 0)
  let s := s.each x.cols (fun s e =>
    let w := e.1 / 8 * 4 + e.1 % 8 / 2
    if e.1 % 2 = 0 then (s.fset ((Reg.farrMapStateLo.team t).nth w) e.2.st).fset ((Reg.farrMapLogicalLo.team t).nth w) e.2.logical
    else (s.fset ((Reg.farrMapStateHi.team t).nth w) e.2.st).fset ((Reg.farrMapLogicalHi.team t).nth w) e.2.logical)
  s.showFarrier t

/-- The role map without the moves of a calibration or an in-field test, which end with the role's return. -/
def State.homeRoles (s : State) (t : Nat) : SMap Nat :=
  let x := s.team t
  let home := fun (m : SMap Nat) (r k : Nat) => Map.set r m r k
  let m := match x.cal.role with
    | some r => if 2 ≤ x.cal.step ∧ !x.retired.contains x.cal.tile then home x.roles r x.cal.tile else x.roles
    | none => x.roles
  (s.safety.tileTest.filter (fun e => e.1 / 64 == t && decide (4 ≤ e.2))).foldl
    (fun m e => home m (e.2 - (if e.2 < 40 then 4 else if e.2 < 80 then 40 else 80)) (e.1 % 64)) m

/-- The team's repair state as the studbook holds it. -/
def State.farrRec (s : State) (t : Nat) : FarrRec :=
  let x := s.team t
  { roles := s.homeRoles t, retired := x.retired, bypass := x.bypass, cols := x.cols, pending := x.pendingRetire }

/-- The record is written, or waits: for the temperature window, or after a write that failed otherwise (R133, R138). -/
def State.writeFarrier (s : State) (t : Nat) (fail : Bool) : State :=
  let s := if s.nvOk && !fail then
      (({ s with nv := { s.nv with farrier := Map.set {} s.nv.farrier t (s.farrRec t) } }).setTeam t
        { s.team t with nvWaits := false })
    else
      (if s.nvOk then s.raise (Reg.farrErrNvFail.team t) else s).setTeam t { s.team t with nvWaits := true }
  (s.showRepair t).updateHealth

/-- An action is recorded; whether the store takes the write inside the window is open (log 93). -/
def State.recordFarrier (s : State) (t : Nat) : State :=
  let r := s.draw
  r.2.writeFarrier t (r.1 % 2 == 1)

/-- Values of FARR_LAST.REASON. -/
def frGain : Nat := 1
def frOffset : Nat := 2
def frNoise : Nat := 3
def frStuck : Nat := 4
def frAbrupt : Nat := 5
def frArbitration : Nat := 6
def frCell : Nat := 7
def frTrimLimit : Nat := 8
def frWindow : Nat := 9
def frCommand : Nat := 0xA
def frSpares : Nat := 0xB

/-- FARR_LAST as a word. -/
def farrLastWord (action reason k col : Nat) : Nat := action * 2 ^ 28 + reason * 2 ^ 24 + k * 2 ^ 16 + col

/-- An action of the farrier: FARR_LAST, its time, and the studbook record. -/
def State.farrAction (s : State) (t action reason k col : Nat) : State :=
  let s := (s.fset (Reg.farrLastAction.team t) action).fset (Reg.farrLastReason.team t) reason
  let s := (s.fset (Reg.farrLastTile.team t) k).fset (Reg.farrLastColumn.team t) col
  (s.fset64 (Reg.farrLastWayLo.team t) (Reg.farrLastWayHi.team t) s.now).recordFarrier t

/-- A team goes out of service, and the uncommitted steps of its partition fail (R105, R131, R464). -/
def State.loseTeam (s : State) (t : Nat) : State :=
  let s := (s.setTeam t { s.team t with outOfService := true }).revokeOwn (unitTeam t)
  let s := match s.teamPart t with | some p => s.failPartSteps p | none => s
  (s.showTeam t).updateHealth

/-- A fifth bypass, or a whole-tile retirement that no spare can serve, costs the team: TEAM_LOST (R131, R132). -/
def State.teamLost (s : State) (t reason k col : Nat) : State :=
  let s := (s.farrAction t 5 reason k col).teamFault false t 0x09 0xFF k 0xFF 0 (farrLastWord 5 reason k col)
  s.loseTeam t

/-! ### Retirement (R131, R132) -/

/-- A column of a tile is handed to the outrider. -/
def State.bypassColumn (s : State) (t k reason col : Nat) : State :=
  let x := s.team t
  if x.bypass.contains (k, col) then s else
  if 4 ≤ x.bypass.length then (s.raise (Reg.farrErrBypassFull.team t)).teamLost t reason k col else
  (s.setTeam t { x with bypass := x.bypass ++ [(k, col)] }).farrAction t 3 reason k col

/-- A tile that is retired takes no role back: its calibration and every return to it end. -/
def State.dropReturns (s : State) (t k : Nat) : State :=
  let x := s.team t
  let back := fun (o : Takeover) => o.dst == k
  let s := s.setTeam t { x with takeover := x.takeover.filter (fun o => !back o), waitMoves := x.waitMoves.filter (fun o => !back o) }
  if x.cal.step ≠ 0 ∧ x.cal.tile = k then s.setCal t { step := 0, mode := x.cal.mode } else s

/-- A tile that serves no role is retired where it stands. -/
def State.retireTile (s : State) (t k reason : Nat) : State :=
  let x := s.team t
  if x.retired.contains k then s else
  let x := { x with retired := x.retired ++ [k], bypass := x.bypass.filter (fun b => b.1 != k), inPlace := x.inPlace.filter (· != k),
                    asked := x.asked.filter (fun e => e.1 != k), suspects := x.suspects.filter (fun e => e.1 != k) }
  (((((s.setTeam t x).dropReturns t k).revokeOwn (unitTile t k)).bumpTeam t Reg.farrRetireCount 1).calTrace t k 4).farrAction t 2 reason k 0

/-- A retirement that finds no idle spare (R131, R132); column 512 stands for none. A pending TRIM_LIMIT retirement of another
tile gives way to a later one (DESIGN CHOICE, log 94). FARR_RETIRE names no column, and the spec does not say what it does
without a spare: NO_SPARE_TILE alone (DESIGN CHOICE, log 124). -/
def State.retireNoSpare (s : State) (t k reason col : Nat) : State :=
  let s := s.raise (Reg.farrErrNoSpareTile.team t)
  if reason = frTrimLimit then
    (s.setTeam t { s.team t with pendingRetire := some k }).recordFarrier t
  else if reason = frWindow then s.teamLost t frWindow k 0
  else if col < 256 then s.bypassColumn t k reason col else s

/-- The take-over of a tile's calibration serves the tile's retirement, and the calibration ends. -/
def State.takeoverRetires (s : State) (t k reason col : Nat) : State :=
  let x := s.team t
  let turn := fun (o : Takeover) => if o.why = 0 ∧ o.src = k then { o with why := 2, reason := reason, column := col } else o
  (s.setTeam t { x with takeover := x.takeover.map turn, waitMoves := x.waitMoves.map turn }).setCal t
    { step := 0, mode := x.cal.mode }

/-- The farrier retires a tile: in place, through a take-over, or as R131 and R132 say without a spare. A spare that a calibration
of another tile holds is not idle, and R120 abandons calibrations for arbitration alone (DESIGN CHOICE, log 125). It decides
nothing while CC5 is halted (R22, R491). -/
def State.retire (s : State) (t k reason col : Nat) : State :=
  let x := s.team t
  if x.retired.contains k then s else
  if s.coreHalted 5 then s.setTeam t { x with toRetire := x.toRetire ++ [(k, reason, col)] } else
  match x.roleOf k with
  | none => s.retireTile t k reason
  | some r =>
    if x.cal.step = 1 ∧ x.cal.tile = k then (s.takeoverRetires t k reason col).showTeam t else
    match s.idleSpares t with
    | [] => s.retireNoSpare t k reason col
    | d :: _ =>
      if x.takeover.isSome then s.setTeam t { x with toRetire := x.toRetire ++ [(k, reason, col)] }
      else (s.startTakeover t r d 2 reason col (s.planesToCopy t r k)).showTeam t

/-- Once a take-over has ended, or CC5 runs again, a retirement that waited goes on. -/
def State.nextRetire (s : State) (t : Nat) : State :=
  let x := s.team t
  if s.coreHalted 5 then s else
  match x.takeover, x.toRetire with
  | none, e :: es => (s.setTeam t { x with toRetire := es }).retire t e.1 e.2.1 e.2.2
  | _, _ => s

/-! ### Remaps (R130) -/

/-- The lowest FREE spare column of a tile. -/
def Team.freeColumn (x : Team) (k : Nat) : Option Nat := (List.range 8).find? (fun i => (Map.get {} x.cols (k * 8 + i)).st == 0)

/-- The cells of physical column `a` of both planes are copied into column `b`, as the digital port reads them. -/
def State.copyColumn (s : State) (t k a b : Nat) : State :=
  let s := s.each [0, 1] (fun s p =>
    let y := (s.tile t k).mended p
    s.each (List.range 1024) (fun s r => s.setTile t k ((s.tile t k).setCell p r b (y.cell p r a))))
  s.each [0, 1] (fun s p => s.each (((s.tile t k).badOf p).filter (fun e => decide (4096 ≤ e.1 ∧ e.1 < 4224)))
    (fun s e => match blockVerdict e.2 with
      | .ue => s.setTile t k ((s.tile t k).setBad p e.1 poisonSyndrome)
      | _ => s.setTile t k ((s.tile t k).setBad p e.1 0)))

/-- A logical column moves into a spare column. -/
def State.remap (s : State) (t k col reason : Nat) : State :=
  let x := s.team t
  let phys := x.phys k col
  let cols := if phys < 256 then x.cols else Map.set {} x.cols (k * 8 + (phys - 256)) { st := 2, logical := col }
  match ({ x with cols := cols } : Team).freeColumn k with
  | none =>
    let s := (s.setTeam t { x with cols := cols }).raise (Reg.farrErrNoSpareColumn.team t)
    s.retire t k frSpares col
  | some i =>
    let s := s.copyColumn t k phys (256 + i)
    let x := s.team t
    let x := { x with cols := Map.set {} cols (k * 8 + i) { st := 1, logical := col },
                      cells := x.cells.filter (fun e => !(e.1 / 2 ^ 19 == k && e.1 % 2 ^ 9 == col)) }
    (((s.setTeam t x).bumpTeam t Reg.farrRemapCount 1).calTrace t k 3).farrAction t 1 reason k col

/-! ### Commands -/

/-- A FARR_CTRL command is refused. -/
def State.farrRefused (s : State) (t : Nat) : State := s.raise (Reg.farrErrCmdRefused.team t)

/-- The fields of FARR_CTRL as written with GO. -/
def State.farrFields (s : State) (t cmd k col : Nat) : State :=
  ((s.fset (Reg.farrCtrlCmd.team t) cmd).fset (Reg.farrCtrlTile.team t) k).fset (Reg.farrCtrlColumn.team t) col

/-- FARR_RETIRE (R131). -/
def execFarrRetire (t k : Nat) (s : State) : Host.Outcome State Fault Refusal :=
  let s := s.farrFields t 2 k (s.fget (Reg.farrCtrlColumn.team t))
  .next (if 34 ≤ k ∨ (s.team t).retired.contains k then s.farrRefused t else (s.retire t k frCommand 512).showTeam t)

/-- FARR_NV_RETRY (R133): every second while NV_PENDING is set. `fail`: the write fails other than by the temperature
window. -/
def execFarrNvRetry (t : Nat) (fail : Bool) (s : State) : Host.Outcome State Fault Refusal :=
  .next (if !(s.team t).nvWaits then s else
    s.writeFarrier t fail)

/-- PENDING_RETIRE_COMPLETE (R132): a spare has become idle; CC5 decides (R22). -/
def execPendingRetireComplete (t : Nat) (s : State) : Host.Outcome State Fault Refusal :=
  let x := s.team t
  if s.coreHalted 5 then .next s else
  .next (match x.pendingRetire with
    | none => s
    | some k =>
      if (s.idleSpares t).isEmpty ∨ x.takeover.isSome then s else
      (((s.setTeam t { x with pendingRetire := none }).retire t k frTrimLimit 512).recordFarrier t).showTeam t)

/-- TCO of a tile: the engine's, which starts as the studbook's (R113). -/
def State.tco (s : State) (t k : Nat) : Int := (s.tile t k).cal.active.tco.getD (Map.get 0 s.nv.tco (tileKey t k))

/-- A tile's coefficients in force with their TCO, and its last result's. -/
def State.inForce (s : State) (t k : Nat) : CoefSet := { (s.tile t k).cal.active with tco := some (s.tco t k) }
def State.lastTco (s : State) (t k : Nat) : Int := (s.tile t k).cal.target.tco.getD (Map.get 0 s.nv.tco (tileKey t k))

/-- The trim of a tile referred to a temperature in °C (R128). -/
def trimAt (delay tco : Int) (tCal : Int) (deg : Int) : Int := delay + roundEven ((tco : Rat) * (deg - (tCal : Rat) / 16) / 16)

/-- DAILY_TRIM_RECORD (R128): the tile's trims referred to 25 °C go to the studbook while the temperature window allows;
a trim that passes −1,000 steps at 105 °C retires the tile. CC5 does it (R22). -/
def execDailyTrimRecord (t k : Nat) (s : State) : Host.Outcome State Fault Refusal :=
  let c := (s.tile t k).cal
  if s.coreHalted 5 then .next s else
  let tco := s.tco t k
  let v := (trimAt c.active.delay tco c.active.tCal 25, trimAt c.active.win tco c.active.tCal 25)
  let s := if s.nvOk then { s with nv := { s.nv with trims := Map.set (0, 0) s.nv.trims (tileKey t k) v } } else s
  .next (if trimAt c.active.delay tco c.active.tCal 105 < -1000 ∧ (s.team t).pendingRetire ≠ some k then
    (s.retire t k frTrimLimit 512).showTeam t else s)

end Sys2Proof.Machine
end

