-- ==== Sys2Proof/Machine/Calibration.lean ====
section
/-!
DEFINITION. Calibration (R110 to R128, R134 to R137): coefficients, temperature, slews, rotation, fits, and the moves of
take-overs, which calibrations, in-field tests, retirements and verdicts share.
-/
namespace Sys2Proof.Machine

/-! ### Temperature (R112) -/

/-- The calibration temperature of a string in 1/16 °C: the mean of its two sensors, or the one good sensor. -/
def State.calTemp (s : State) (x : Nat) : Option Rat :=
  let a := Map.get {} s.thermal.sensors (2 * x)
  let b := Map.get {} s.thermal.sensors (2 * x + 1)
  if a.good && b.good then some ((a.temp + b.temp : Int) / 2)
  else if a.good then some a.temp else if b.good then some b.temp else none

/-- A trim moved to a temperature. -/
def trimNow (trim tco tCal : Int) (temp : Rat) : Int := trim + roundEven ((tco : Rat) * (temp - tCal) / 256)

def State.setTileCal (s : State) (t k : Nat) (c : TileCal) : State := s.setTile t k { s.tile t k with cal := c }

/-- The window trim of a tile reached the limit of R65. -/
def State.windowFault (s : State) (t k : Nat) : State :=
  let c := (s.tile t k).cal
  let day := c.windowFaults.filter (fun w => decide (s.now < w + secTicks 86400))
  let s := s.setTileCal t k { c with windowFaults := day ++ [s.now] }
  if day.isEmpty then s else s.retire t k frWindow 512

/-- A window trim in force held to the trims that keep the window between 14.4 ns and 15.6 ns at a temperature (R65). -/
def holdWin (t k : Nat) (temp : Rat) (w : Int) : Int :=
  let lo := clampInt (-1024) 1024 (Config.winLow t k (roundEven temp))
  clampInt lo (min 1024 (lo + Config.winSteps t k (roundEven temp))) w

/-- A window trim was clamped to the limit of R65: WIN_LIMIT, which counts anew when the trim was not there already. -/
def State.winLimited (s : State) (t k : Nat) (was now : Int) : State :=
  let s := s.raise (Reg.tileErrWinLimit.tile t k)
  if was = now then s else s.windowFault t k

/-- A WIN_TRIM that a calibration would set, clamped to the limit at the temperature of the string. -/
def State.setWin (s : State) (t k : Nat) (w : Int) : Int × State :=
  match s.calTemp (teamString t) with
  | none => (w, s)
  | some temp =>
    let v := holdWin t k temp w
    (v, if v = w then s else s.winLimited t k (s.tile t k).cal.winEff v)

/-- The coefficients whose trims are in force: those of a CALREF calibration that fits with its new trims (R121), else the tile's. -/
def State.trimSet (s : State) (t k : Nat) : CoefSet :=
  let a := s.inForce t k
  let c := (s.team t).cal
  match c.trims with
  | some v => if c.step = 3 ∧ c.tile = k then { a with delay := v.1, win := v.2, tCal := c.tCal } else a
  | none => a

/-- The trims in force follow the temperature of the string (R112): now, or with `wait` from the next beat boundary on. A clamp at
±1,024 sets TRIM_LIMIT, and costs the team where the tile's retirement is pending (R132). -/
def State.retrimTo (s : State) (wait : Bool) (t k : Nat) : State :=
  match s.calTemp (teamString t) with
  | none => s
  | some temp =>
    let c := (s.tile t k).cal
    let a := s.trimSet t k
    let d := trimNow a.delay (a.tco.getD 0) a.tCal temp
    let w := trimNow a.win (a.tco.getD 0) a.tCal temp
    let dEff := clampInt (-1024) 1024 d
    let wEff := holdWin t k temp (clampInt (-1024) 1024 w)
    let s := s.setTileCal t k
      (if wait then { c with nextEff := some (dEff, wEff) } else { c with delayEff := dEff, winEff := wEff, nextEff := none })
    let s := if wEff = clampInt (-1024) 1024 w then s else s.winLimited t k c.winEff wEff
    if -1024 ≤ d ∧ d ≤ 1024 ∧ -1024 ≤ w ∧ w ≤ 1024 then s else
    let s := s.raise (Reg.calErrTrimLimit.team t)
    if (s.team t).pendingRetire = some k ∧ !s.coreHalted 5 then
      (s.setTeam t { s.team t with pendingRetire := none }).teamLost t frTrimLimit k 0
    else s

def State.retrim (s : State) (t k : Nat) : State := s.retrimTo false t k

/-- The beat boundary puts the trims of the last temperature sample in force. -/
def State.applyTrims (s : State) (t k : Nat) : State :=
  let c := (s.tile t k).cal
  match c.nextEff with
  | none => s
  | some v => s.setTileCal t k { c with delayEff := v.1, winEff := v.2, nextEff := none }

/-! ### The selected coefficients (R136) -/

/-- CAL_COEF, CAL_TRIM, CAL_TEMP, CAL_EFF, CAL_INFO and CAL_WAY of what CAL_SEL selects. A trim clamped at +1,024 does not fit the
signed 11-bit field of CAL_EFF and shows as −1,024 (DESIGN CHOICE, log 95). -/
def State.showCalSel (s : State) (t : Nat) : State :=
  let k := s.fget (Reg.calSelTile.team t)
  let c := (s.tile t k).cal
  let set := s.fget (Reg.calSelSet.team t)
  let v : CoefSet := if set = 0 then c.active else if set = 1 then c.target else if set = 2 then c.previous else {}
  let e := s.fget (Reg.calSelColumn.team t) * 2 + s.fget (Reg.calSelChain.team t)
  let s := (s.fset (Reg.calCoefGain.team t) (ofSigned 16 (Map.get 0 v.gain e))).fset (Reg.calCoefOffset.team t)
    (ofSigned 12 (Map.get 0 v.offset e))
  let s := (s.fset (Reg.calTrimWin.team t) (ofSigned 11 v.win)).fset (Reg.calTrimDelay.team t) (ofSigned 11 v.delay)
  let s := (s.fset (Reg.calEffWin.team t) (ofSigned 11 c.winEff)).fset (Reg.calEffDelay.team t) (ofSigned 11 c.delayEff)
  let s := (s.fset (Reg.calTempTco.team t) (ofSigned 8 (s.tco t k))).fset (Reg.calTempTCal.team t) (ofSigned 16 c.active.tCal)
  let s := (s.fset (Reg.calInfoCount.team t) (min 65535 c.count)).fset (Reg.calInfoResid.team t) (min 255 c.resid)
  let s := (s.fset (Reg.calInfoLastMode.team t) c.lastMode).fput (Reg.calInfoValid.team t) c.valid
  s.fset64 (Reg.calWayLo.team t) (Reg.calWayHi.team t) c.way

/-- Tiles of a team that are slewing. -/
def State.showSlewing (s : State) (t : Nat) : State :=
  (s.fset (Reg.calStatusSlewing.team t) ((s.teamTiles t).filter (fun k => (s.tile t k).cal.slew.isSome)).length).showCalSel t

/-! ### Slews (R123, R124) -/

/-- PREVIOUS + (TARGET − PREVIOUS) × k ÷ 16. -/
def slewAt (k : Nat) (a b : Int) : Int := roundEven ((a : Rat) + ((b - a) * k : Int) / (16 : Rat))

/-- A map of coefficients at step k of a slew. -/
def slewMap (k : Nat) (a b : SMap Int) : SMap Int :=
  ((a.map (·.1) ++ b.map (·.1)).eraseDups).foldl (fun m i => Map.set 0 m i (slewAt k (Map.get 0 a i) (Map.get 0 b i))) []

def slewSet (k : Nat) (a b : CoefSet) : CoefSet :=
  { gain := slewMap k a.gain b.gain, offset := slewMap k a.offset b.offset, delay := slewAt k a.delay b.delay,
    win := slewAt k a.win b.win, tco := some (slewAt k (a.tco.getD 0) (b.tco.getD 0)), tCal := slewAt k a.tCal b.tCal }

/-- A new result takes force: a slew begins from the coefficients in force, or an abrupt result applies at once. -/
def State.applyResult (s : State) (t k : Nat) (v : CoefSet) (abrupt : Bool) : State :=
  let c := (s.tile t k).cal
  let c := { c with previous := s.inForce t k, target := v }
  let s := if abrupt then
      (s.setTileCal t k { c with active := v, slew := none }).bumpTeam t Reg.calAbruptCount 1
    else s.setTileCal t k { c with slew := some 0 }
  (s.retrim t k).showSlewing t

/-- SLEW_STEP (R123). -/
def execSlewStep (t k : Nat) (s : State) : Host.Outcome State Fault Refusal :=
  let c := (s.tile t k).cal
  .next (match c.slew with
    | none => s
    | some n =>
      let n := n + 1
      let s := s.setTileCal t k { c with active := if n = 16 then c.target else slewSet n c.previous c.target,
                                         slew := if n = 16 then none else some n }
      (s.retrim t k).showSlewing t)

/-! ### Abandoning a calibration (R120) -/

/-- A calibration is abandoned: no coefficient changes, it is counted and retried at the next rotation slot, and the role
returns to its original tile, with a copy back in CALREF mode, whose patterns overwrite the tile and whose role's writes are not
mirrored. -/
def State.abandonCal (s : State) (t : Nat) : State :=
  let x := s.team t
  let c := x.cal
  if c.step = 0 ∨ c.abandoned then s else
  let s := (s.bumpTeam t Reg.calSkippedCount 1).fset (Reg.calRotNext.team t) c.tile
  match c.role with
  | none => (s.setCal t { step := 0, mode := c.mode }).retrim t c.tile
  | some r =>
    if c.step = 1 then
      let s := s.setTeam t { x with takeover := x.takeover.filter (fun o => o.why != 0), waitMoves := x.waitMoves.filter (fun o => o.why != 0) }
      (s.setCal t { step := 0, mode := c.mode }).nextMove t
    else
    let s := (s.setCal t { c with step := 4, abandoned := true, result := none, trims := none }).retrim t c.tile
    if c.step = 4 then s else
    s.startTakeover t r c.tile 3 0 0 (if c.mode = 0 then s.planesToCopy t r (x.tileOf r) else [])

/-! ### Starting a calibration (R115, R120, R121, R126) -/

/-- The mode of a calibration that starts now: 0 CALREF, 1 STATS. -/
def State.calMode (s : State) : Nat := if s.clocks.calref && s.safetyCfg 6 1 0 == 0 then 0 else 1

/-- The tile with the ROM patterns in both planes. -/
def Tile.patterned (x : Tile) : Tile :=
  let cells := fun p => (List.range (1024 * 264)).filterMap (fun i =>
    if Config.romCell p i % 16 = 0 then none else some (i, Config.romCell p i % 16))
  let scales := fun p => (List.range 2560).filterMap (fun i =>
    if Config.romScale p i % 256 = 0 then none else some (i, Config.romScale p i % 256))
  { x with planeA := cells 0, planeB := cells 1, scaleA := scales 0, scaleB := scales 1, bad := [], queue := [] }

/-- The calibration measures with ROM patterns: in CALREF mode, and in place. -/
def Cal.usesPatterns (c : Cal) : Bool :=
  (c.step == 2 && c.mode == 0) || (c.step == 3 && c.role.isNone)

/-- The ROM patterns are written as soon as the tile no longer drains (R118, R121). -/
def State.writePatterns (s : State) (t : Nat) : State :=
  let c := (s.team t).cal
  if !c.usesPatterns || c.overwritten || (s.tile t c.tile).drain then s else
  (s.setTile t c.tile (s.tile t c.tile).patterned).setCal t { c with overwritten := true }

/-- DRAIN_END (R75): held writes go on, and a calibration that waited for it writes its patterns. -/
def execDrainEnd (t k : Nat) (s : State) : Host.Outcome State Fault Refusal :=
  .next (((s.endDrain t k).writePatterns t).showTeam t)

/-- The calibration temperature that a result carries; the last one where no sensor is good. -/
def State.tempNow (s : State) (t k : Nat) : Int :=
  match s.calTemp (teamString t) with | some r => roundEven r | none => (s.tile t k).cal.target.tCal

/-- A tile is calibrated: one that serves a role is taken over by an idle spare first. -/
def State.startCal (s : State) (t k : Nat) (readmit : Bool) : State :=
  let x := s.team t
  let m := s.calMode
  match x.roleOf k with
  | none => (s.setCal t { step := if m = 0 then 2 else 3, tile := k, mode := m, readmit := readmit }).writePatterns t
  | some r =>
    match s.idleSpares t with
    | [] => s.raise (Reg.calErrNoSpare.team t)
    | d :: _ =>
      (s.setCal t { step := 1, tile := k, role := some r, spare := some d, mode := m }).startTakeover t r d 0 0 0
        (s.planesToCopy t r k)

/-- Arbitration waits for a spare, or an in-field test whose deferral has expired: they come before calibration (R120). -/
def State.spareAwaited (s : State) (t : Nat) : Bool :=
  (s.team t).seeksSpare || s.safety.tileTest.any (fun e => e.1 / 64 == t && e.2 == 2 && ((s.team t).roleOf (e.1 % 64)).isSome)

/-- A tile without a role that nothing else uses: no run of arbitration, no take-over, no test. -/
def State.tileFree (s : State) (t k : Nat) : Bool := !(s.team t).inUse k && decide (Map.get 0 s.safety.tileTest (t * 64 + k) < 3)

/-- A calibration can start: none runs, nor a take-over. -/
def State.calFree (s : State) (t : Nat) : Bool := (s.team t).cal.step == 0 && (s.team t).takeover.isNone

/-- A tile can be calibrated now: a spare is idle where it serves a role, and no higher demand of R120 waits for that spare, or for
the tile itself where it is an idle spare. -/
def State.canCal (s : State) (t k : Nat) : Bool :=
  if ((s.team t).roleOf k).isSome then !(s.idleSpares t).isEmpty && !s.spareAwaited t
  else s.tileFree t k && !((s.idleSpares t).contains k && s.spareAwaited t)

/-- The queue without the tiles that have been retired since, but for those of READMIT (R126, R134). -/
def Team.pruneQueue (x : Team) : Team :=
  { x with calQueue := x.calQueue.filter (fun k => !x.retired.contains k || x.readmits.contains k) }

/-- The first queued tile that can be calibrated is, ahead of rotation (R126); CC5 starts none while it is halted (R22). -/
def State.nextCal (s : State) (t : Nat) : State :=
  if !s.calFree t || s.coreHalted 5 then s else
  let x := (s.team t).pruneQueue
  match x.calQueue.find? (fun k => s.canCal t k) with
  | none => s.setTeam t x
  | some k =>
    (s.setTeam t { x with calQueue := x.calQueue.filter (· != k), readmits := x.readmits.filter (· != k) }).startCal t k
      (x.retired.contains k)

/-- A tile joins the queue once. -/
def State.queueCal (s : State) (t k : Nat) : State :=
  let x := s.team t
  if x.calQueue.contains k then s else s.setTeam t { x with calQueue := x.calQueue ++ [k] }

/-- The next non-retired tile from `k` on, in ascending order and round. -/
def Team.nextTile (x : Team) (k : Nat) : Nat :=
  (((List.range 34).map (fun i => (k + i) % 34)).find? (fun i => !x.retired.contains i)).getD 0

/-- ROTATION_VISIT (R126): a queued tile, else the next one; a visit that finds no idle spare is retried. -/
def execRotationVisit (t : Nat) (s : State) : Host.Outcome State Fault Refusal :=
  if s.flag (Reg.calCtrlHold.team t) || !s.calFree t || s.coreHalted 5 then .next s else
  let s := s.setTeam t (s.team t).pruneQueue
  if !(s.team t).calQueue.isEmpty then
    .next (if (s.team t).calQueue.any (fun k => s.canCal t k) then (s.nextCal t).showTeam t
      else (s.raise (Reg.calErrNoSpare.team t)).showTracking t)
  else
  let k := (s.team t).nextTile (s.fget (Reg.calRotNext.team t))
  if !s.canCal t k then
    .next ((s.raise (Reg.calErrNoSpare.team t)).showTracking t)
  else .next (((s.startCal t k false).fset (Reg.calRotNext.team t) ((s.team t).nextTile (k + 1))).showTeam t)

/-- CAL_REQUEST (R126). A tile that is retired or does not exist is ignored, without a flag (DESIGN CHOICE, log 96). -/
def execCalRequest (t k : Nat) (s : State) : Host.Outcome State Fault Refusal :=
  let s := s.fset (Reg.calCtrlTile.team t) k
  .next (if 34 ≤ k ∨ (s.team t).retired.contains k then s else ((s.queueCal t k).nextCal t).showTeam t)

/-- CAL_ABANDON (R120). -/
def execCalAbandon (t : Nat) (s : State) : Host.Outcome State Fault Refusal := .next ((s.abandonCal t).showTeam t)

/-- CAL_HOLD: CAL_CTRL.HOLD. -/
def execCalHold (t : Nat) (hold : Bool) (s : State) : Host.Outcome State Fault Refusal :=
  .next (s.fput (Reg.calCtrlHold.team t) hold)

/-- CAL_LATE (R126). -/
def execCalLate (t : Nat) (s : State) : Host.Outcome State Fault Refusal :=
  .next ((s.raise (Reg.calErrLate.team t)).bumpTeam t Reg.calLateCount 1)

/-- FARR_READMIT (R134): refused without qualified CALREF, and for a tile that is not retired. -/
def execFarrReadmit (t k : Nat) (s : State) : Host.Outcome State Fault Refusal :=
  let s := s.farrFields t 3 k (s.fget (Reg.farrCtrlColumn.team t))
  .next (if !s.clocks.calref || !(s.team t).retired.contains k then s.farrRefused t
    else
      let s := s.queueCal t k
      ((s.setTeam t { s.team t with readmits := (s.team t).readmits ++ [k] }).nextCal t).showTeam t)

/-- FARR_REMAP (R130): refused for a tile or column that does not exist, and for a retired tile. A tile that serves a role is taken
out of service for it by a calibration, unless it is under repair in place. -/
def execFarrRemap (t k col : Nat) (s : State) : Host.Outcome State Fault Refusal :=
  let s := s.farrFields t 1 k col
  .next (if 34 ≤ k ∨ 256 ≤ col ∨ (s.team t).retired.contains k then s.farrRefused t
    else if (((s.team t).roleOf k).isSome && !(s.team t).inPlace.contains k) || s.coreHalted 5 then
      let s := s.queueCal t k
      ((s.setTeam t { s.team t with asked := (s.team t).asked ++ [(k, col)] }).nextCal t).showTeam t
    else (s.remap t k col frCommand).showTeam t)

/-! ### CALREF (R114, R115) -/

/-- CALREF_QUALIFIED. -/
def execCalrefQualified (s : State) : Host.Outcome State Fault Refusal :=
  .next (({ s with clocks := { s.clocks with calref := true } }).each (List.range 768) (fun s t =>
    s.raise (Reg.calStatusCalrefOk.team t)))

/-- CALREF_LOST: a calibration in CALREF mode is abandoned. -/
def execCalrefLost (s : State) : Host.Outcome State Fault Refusal :=
  .next (({ s with clocks := { s.clocks with calref := false } }).each (List.range 768) (fun s t =>
    let s := (s.clear (Reg.calStatusCalrefOk.team t)).raise (Reg.calErrCalrefLost.team t)
    if (s.team t).cal.step ≠ 0 ∧ (s.team t).cal.mode = 0 then (s.abandonCal t).showTeam t else s))

/-! ### Measuring and fitting (R115, R121, R124, R129) -/

/-- CAL_GATE_DONE (R115): both rings have been counted over a whole gate, which opens once the patterns are written, and the new
trims are known, which are in force from then on until the tile returns. -/
def execCalGateDone (t : Nat) (delay win : Int) (s : State) : Host.Outcome State Fault Refusal :=
  let c := (s.team t).cal
  if c.step ≠ 2 ∨ c.abandoned ∨ !c.overwritten then .next s else
  let w := s.setWin t c.tile win
  let s := w.2.setCal t { (w.2.team t).cal with step := 3, trims := some (delay, w.1), tCal := w.2.tempNow t c.tile }
  .next ((s.retrim t c.tile).showTeam t)

/-- The coefficient set that a fit gives on top of the coefficients in force. -/
def fittedSet (a : CoefSet) (fits : List (Nat × Int × Int)) (delay win : Int) : CoefSet :=
  { gain := fits.foldl (fun m e => Map.set 0 m e.1 (clampInt (-32768) 32767 e.2.1)) a.gain,
    offset := fits.foldl (fun m e => Map.set 0 m e.1 (clampInt (-2048) 2047 e.2.2)) a.offset,
    delay := clampInt (-1024) 1023 delay, win := clampInt (-1024) 1023 win }

/-- Physical columns whose result is abrupt (R124). -/
def abruptColumns (a : CoefSet) (fits : List (Nat × Int × Int)) : List Nat :=
  ((fits.filter (fun e => decide (1311 < (e.2.1 - Map.get 0 a.gain e.1).natAbs ∨
    128 < (e.2.2 - Map.get 0 a.offset e.1).natAbs))).map (fun e => e.1 / 2)).eraseDups

/-- The farrier conditions that a fit shows: reason and physical column, in the order of R129. -/
def fitConditions (c : TileCal) (fits : List (Nat × Int × Int)) (noisy stuck : List Nat) : List (Nat × Nat) :=
  (fits.filter (fun e => decide (3932 < e.2.1.natAbs))).map (fun e => (frGain, e.1 / 2)) ++
  (fits.filter (fun e => decide (512 < e.2.2.natAbs))).map (fun e => (frOffset, e.1 / 2)) ++
  noisy.map (fun p => (frNoise, p)) ++ stuck.map (fun p => (frStuck, p)) ++
  ((abruptColumns c.active fits).filter c.abrupt.contains).map (fun p => (frAbrupt, p))

/-- One reason per logical column, the first that names it. -/
def firstReasons : List (Nat × Nat) → List (Nat × Nat)
  | [] => []
  | e :: es => e :: (firstReasons es).filter (fun x => x.2 != e.2)

/-- The columns to remap after a fit: fit conditions, cells with two hard faults, a verdict's column where nothing else is found,
and what FARR_CTRL asked for. -/
def State.dueRemaps (s : State) (t k : Nat) (fits : List (Nat × Int × Int)) (noisy stuck : List Nat) : List (Nat × Nat) :=
  let x := s.team t
  let fit := (fitConditions (s.tile t k).cal fits noisy stuck).filterMap (fun e => (x.logicalOf k e.2).map (fun c => (e.1, c)))
  let cell := (x.cells.filter (fun e => e.1 / 2 ^ 19 == k && decide (2 ≤ e.2))).map (fun e => (frCell, e.1 % 2 ^ 9))
  let arb := (x.suspects.filter (fun e => e.1 == k)).map (fun e => (frArbitration, e.2))
  let asked := (x.asked.filter (fun e => e.1 == k)).map (fun e => (frCommand, e.2))
  firstReasons (fit ++ cell ++ (if fit.isEmpty && cell.isEmpty then arb else []) ++ asked)

/-- TCO once it has moved a quarter of the way towards the coefficient observed (R113); temperatures in 1/16 °C. The rule does
not say whether the new TCO or the movement is rounded: the new TCO is (DESIGN CHOICE, log 97). -/
def movedTco (tco oldTrim newTrim oldT newT : Int) : Int :=
  if (newT - oldT).natAbs < 32 then tco else
  let seen : Rat := ((newTrim - oldTrim) * 256 : Int) / ((newT - oldT : Int) : Rat)
  clampInt (-128) 127 (roundEven ((tco : Rat) + (seen - tco) / 4))

/-- A result with its T_CAL, and with the TCO moved by what changed since the previous calibration's result. -/
def State.withTemp (s : State) (t k : Nat) (v : CoefSet) (temp : Int) : CoefSet :=
  let c := (s.tile t k).cal
  let last := s.lastTco t k
  { v with tCal := temp, tco := some (if c.valid then movedTco last c.target.delay v.delay c.target.tCal temp else last) }

/-- A calibration of a tile is complete: its result takes force, with its time and counts. -/
def State.completeCal (s : State) (t k mode : Nat) (v : CoefSet) (abrupt : Bool) : State :=
  let c := (s.tile t k).cal
  let count := if s.flag (Reg.teamCtrlCntFreeze.team t) then c.count else min 65535 (c.count + 1)
  let s := s.setTileCal t k { c with valid := true, lastMode := mode, count := count, way := s.now }
  (s.bumpTeam t Reg.calDoneCount 1).applyResult t k v abrupt

/-- A tile that was out of service becomes an idle spare, with a new incarnation (R135). -/
def State.becomeSpare (s : State) (t k : Nat) : State :=
  if s.incarnation (unitTile t k) % 256 = 255 then s else
  let s := (s.setTile t k { s.tile t k with outOfService := false }).readmitOwn (unitTile t k)
  let s := s.fset (Reg.tileIncarnation.tile t k) (s.incarnation (unitTile t k))
  let x := s.team t
  s.setTeam t { x with suspects := x.suspects.filter (fun e => e.1 != k), inPlace := x.inPlace.filter (· != k) }

/-- TRIM_LIMIT of R128: a fitted trim referred to 105 °C passes −1,000 steps. -/
def trimSpent (v : CoefSet) : Bool := decide (trimAt v.delay (v.tco.getD 0) v.tCal 105 < -1000)

/-- WINDOW of R129: a window fault was set twice within 24 h. -/
def State.windowSpent (s : State) (t k : Nat) : Bool :=
  decide (2 ≤ ((s.tile t k).cal.windowFaults.filter (fun w => decide (s.now < w + secTicks 86400))).length)

/-- The farrier's decision on a tile that was calibrated out of service (R134, R135): a retired tile that READMIT named is re-admitted
where a CALREF-mode calibration shows no condition; a released one is retired on TRIM_LIMIT, else becomes a spare. While CC5 is
halted the tile waits for another calibration (R22). -/
def State.judgeTile (s : State) (t : Nat) (c : Cal) (v : CoefSet) (due : Bool) : State :=
  let k := c.tile
  if s.coreHalted 5 then
    let s := s.queueCal t k
    if c.readmit then s.setTeam t { s.team t with readmits := (s.team t).readmits ++ [k] } else s
  else if (s.team t).retired.contains k then
    if c.readmit && c.mode == 0 && !due && !trimSpent v && !s.windowSpent t k then
      ((s.setTeam t { s.team t with retired := (s.team t).retired.filter (· != k) }).becomeSpare t k).farrAction t 4 0 k 0
    else s
  else if trimSpent v then s.retire t k frTrimLimit 512
  else s.becomeSpare t k

/-- The fit of a tile that serves no role ends its calibration: an idle spare was fitted in place, and a tile out of service is
judged. -/
def State.endIdleCal (s : State) (t : Nat) (c : Cal) (v : CoefSet) (abrupt due : Bool) : State :=
  let k := c.tile
  let s := (s.setCal t { step := 0, mode := c.mode }).completeCal t k c.mode v abrupt
  if (s.team t).retired.contains k || (s.tile t k).outOfService then s.judgeTile t c v due else s

/-- A fit can end the calibration: its patterns have been written, or 128 phases at least were shadowed and the shadowing has
ended (R121). -/
def Cal.fitReady (c : Cal) : Bool :=
  c.step == 3 && !c.abandoned &&
  (if c.role.isSome && c.mode == 1 then decide (512 ≤ c.shadowed) || (c.ended && decide (128 ≤ c.shadowed)) else c.overwritten)

/-- The chains whose fit counts: FREE spare columns keep their coefficients where live data made the fit (R121). -/
def Team.fitted (x : Team) (c : Cal) (fits : List (Nat × Int × Int)) : List (Nat × Int × Int) :=
  if c.role.isSome && c.mode == 1 then
    fits.filter (fun e => decide (e.1 / 2 < 256) || (Map.get {} x.cols (c.tile * 8 + (e.1 / 2 - 256))).st != 0)
  else fits

/-- The farrier's remaps after a fit, which answer what a verdict or FARR_CTRL asked for; none while CC5 is halted. -/
def State.remapDue (s : State) (t k : Nat) (due : List (Nat × Nat)) : State :=
  if s.coreHalted 5 || (s.team t).retired.contains k then s else
  let s := s.each due (fun s e => s.remap t k e.2 e.1)
  let x := s.team t
  s.setTeam t { x with suspects := x.suspects.filter (fun e => e.1 != k), asked := x.asked.filter (fun e => e.1 != k) }

/-- The trims of the median rule (R115): the window trim moves by as many steps as the delay trim, and is held to its limit. -/
def State.medianTrims (s : State) (t k : Nat) (delay : Int) : (Int × Int) × State :=
  let a := (s.tile t k).cal.active
  let d := clampInt (-1024) 1023 delay
  let w := s.setWin t k (a.win + (d - a.delay))
  ((d, w.1), w.2)

/-- CAL_FIT_DONE (R121): the fit of every chain measured, the delay trim of the median rule (used without CALREF), the worst
residual, and the noisy and stuck physical columns. The farrier acts on the released tile before the role returns. -/
def execCalFitDone (t : Nat) (fits : List (Nat × Int × Int)) (delay : Int) (resid : Nat) (noisy stuck : List Nat)
    (s : State) : Host.Outcome State Fault Refusal :=
  let c := (s.team t).cal
  if !c.fitReady then .next s else
  let k := c.tile
  let fits := (s.team t).fitted c fits
  let d := match c.trims with | some v => (v, s) | none => s.medianTrims t k delay
  let s := d.2
  let old := (s.tile t k).cal
  let v := s.withTemp t k (fittedSet old.active fits d.1.1 d.1.2) (if c.trims.isSome then c.tCal else s.tempNow t k)
  let abrupt := abruptColumns old.active fits
  let due := s.dueRemaps t k fits noisy stuck
  let poor := !(fitConditions old fits noisy stuck).isEmpty
  let s := if poor then s.raise (Reg.calErrFitPoor.team t) else s
  let s := (s.setTileCal t k { old with abrupt := abrupt, resid := min 255 resid }).remapDue t k due
  let lost := (s.team t).retired.contains k && !c.readmit
  let s := match c.role with
    | none => s.endIdleCal t c v (!abrupt.isEmpty) (!due.isEmpty)
    | some r =>
      if lost then s.setCal t { step := 0, mode := c.mode } else
      let s := (s.setCal t { c with step := 4, result := some v, abrupt := !abrupt.isEmpty }).retrim t k
      s.startTakeover t r k 3 0 0 (if c.mode = 0 then s.planesToCopy t r ((s.team t).tileOf r) else [])
  .next ((s.nextCal t).showTeam t)

/-- STATS_SHADOW_END (R121): the 20 ms of shadowing are over. Fewer than 128 phases end the calibration without a change. -/
def execStatsShadowEnd (t : Nat) (s : State) : Host.Outcome State Fault Refusal :=
  let c := (s.team t).cal
  match c.role with
  | none => .next s
  | some r =>
    if c.step ≠ 3 ∨ c.mode ≠ 1 ∨ c.abandoned then .next s else
    if 128 ≤ c.shadowed then .next ((s.setCal t { c with ended := true }).showTeam t) else
    let s := (s.raise (Reg.calErrNoData.team t)).bumpTeam t Reg.calSkippedCount 1
    .next (((s.setCal t { c with step := 4, abandoned := true, ended := true }).startTakeover t r c.tile 3 0 0 []).showTeam t)

/-! ### Moves of a take-over (R118) -/

/-- TAKEOVER_COPY_DONE (R117). -/
def execTakeoverCopyDone (t : Nat) (s : State) : Host.Outcome State Fault Refusal := .next ((s.finishCopy t).showTeam t)

/-- What follows once the role has moved, by the take-over's purpose. -/
def State.afterMove (s : State) (t : Nat) (o : Takeover) : State :=
  let c := (s.team t).cal
  if o.why = 0 then (s.setCal t { c with step := if c.mode = 0 then 2 else 3 }).writePatterns t
  else if o.why = 2 then s.retireTile t o.src o.reason
  else if o.why = 3 then
    if c.step ≠ 4 ∨ c.tile ≠ o.dst then s else
    match c.result, c.abandoned with
    | some v, false => (s.completeCal t c.tile c.mode v c.abrupt).setCal t { step := 0, mode := c.mode }
    | _, _ => s.setCal t { step := 0, mode := c.mode }
  else if o.why = 4 then s.queueCal t o.src
  else s

/-- TAKEOVER_MOVE (R118): at the first vector boundary after the copy; what waited for the team's take-over goes on (R120). -/
def execTakeoverMove (t : Nat) (s : State) : Host.Outcome State Fault Refusal :=
  match (s.team t).takeover with
  | none => .next s
  | some o =>
    if !o.done || !s.atBoundary t o.src then .next s else
    .next (((((((s.moveRole t o).afterMove t o).nextMove t).nextRetire t).nextCal t).updateHealth).showTeam t)

end Sys2Proof.Machine
end

