-- ==== Sys2Proof/Machine/Outrider.lean ====
section
/-!
DEFINITION. The outrider (chapter 04): deliveries of outlier rows, sampled checks, arbitration, the self-test and
reference runs; tracking of coefficients from sampled checks (R127).
-/
namespace Sys2Proof.Machine

/-! ### Deliveries (R89, R91, R150) -/

/-- A term of a delivery in units of 2^−24 product units: rounded to nearest even, and whether it lost anything. -/
def fineTerm (v : Rat) : Int × Bool := let r := roundEven (v * 16777216); (r, decide ((r : Rat) ≠ v * 16777216))

/-- A sum clamped to ±(2^39 − 2^−24), in units of 2^−24. -/
def clampDelivery (o : Int) : Int × Bool :=
  let m : Int := 2 ^ 63 - 1
  (clampInt (-m) m o, decide (2 ^ 63 ≤ o.natAbs))

/-- The terms of one column for the rows of one scale segment (`none`: all rows). -/
def State.deliveryTerms (s : State) (t : Nat) (d : Delivery) (seg : Option Nat) (c : Nat) : List (Int × Bool) :=
  (d.rows.filter (fun r => match seg with | some g => r.1 / 256 == g | none => true)).map (fun r =>
    fineTerm (r.2 / pow2 d.e * s.resultWeight t d.tile d.plane r.1 c d.pair))

/-- One column's contribution enters its wide accumulator. -/
def State.deliverColumn (s : State) (t : Nat) (d : Delivery) (acc : Nat) (seg : Option Nat) (c : Nat) (terms : List (Int × Bool)) : State :=
  let s := s.bumpTeam t Reg.outrFineLoss (terms.filter (·.2)).length
  let o := clampDelivery (terms.map (·.1)).sum
  let s := if o.2 then ((s.bumpTeam t Reg.outrSatUnrepaired 1).chargeSat t d.step d.loc 1 true).groupSat t d.group else s
  let x := s.tile t d.tile
  let col := if d.pair then 2 * c else c
  (s.bumpTeam t Reg.accOutrAdds 1).wideAdd t d.group acc c d.step ((o.1 : Rat) * pow2 (d.e - 24)) (x.colScale d.plane col)
    (seg.map (fun g => x.segScaleOf d.plane g col))

/-- The oldest delivery whose vector has begun reaches its group; the rows of vectors that have not begun wait (R91). -/
def State.outriderDelivery (s : State) (t : Nat) : State :=
  match (s.team t).deliveries.find? (·.begun) with
  | none => s
  | some d =>
    let s := s.setTeam t { s.team t with deliveries := (s.team t).deliveries.erase d }
    let s := s.outriderReads t d.tile d.plane (d.rows.map (·.1))
    let m := s.setTile t d.tile ((s.tile t d.tile).mended d.plane)
    let cols := List.range (if d.pair then 128 else 256)
    match (match s.step? d.step with
      | some y => if d.stray then none else s.accTile y.part t d.layer d.group d.vec d.colBlock
      | none => none) with
    | none => (s.strays d.step t cols.length).showGroup t d.group
    | some acc =>
      let segs : List (Option Nat) := if d.segScale then (d.rows.map (fun r => some (r.1 / 256))).eraseDups else [none]
      (s.each segs (fun s g => s.each cols (fun s c =>
        if (s.step? d.step).isNone then s else s.deliverColumn t d acc g c (m.deliveryTerms t d g c)))).showGroup t d.group

/-- OUTRIDER_DELIVERY (R91). -/
def execOutriderDelivery (t : Nat) (s : State) : Host.Outcome State Fault Refusal :=
  if (s.region (teamString t)).stopped then .next s else
  .next ((s.outriderDelivery t).showTeam t)

/-! ### Grading (R98, R99) -/

/-- Outcome of a code: 0 within the band, 1 near, 2 far. -/
def grade (x : Nat) (code : Int) (flag : Bool) (sum : Int) : Nat :=
  let q : Rat := (sum.natAbs : Rat) / 2 ^ x
  let b := band x sum
  let d : Rat :=
    if !flag then (((code : Rat) - (sum : Rat) / 2 ^ x)).abs
    else if 0 < code * sum then (if q < 4095 then 4095 - q else 0)
    else 4095 + q
  if 2 * b < d ∨ (!flag ∧ 4095 + b < q) then 2 else if b < d then 1 else 0

/-- The exact sums of the columns of a record's pulse, with the weights that the code mends. -/
def State.exactSums (s : State) (t k plane : Nat) (p : Pulse) : List Int :=
  let m := s.setTile t k ((s.tile t k).mended plane)
  columns.map (fun c => m.columnSum t k plane p.rows p.pair c)

/-- Codes of a sample's records graded against sums: (phase, column, outcome) of every code outside its band. -/
def gradeAll (recs : List (Nat × List Int × List Bool × Nat)) (sums : List (List Int)) : List (Nat × Nat × Nat) :=
  ((recs.zip sums).map (fun e => columns.filterMap (fun c =>
    let g := grade e.1.1 (e.1.2.1.getD c 0) (e.1.2.2.1.getD c false) (e.2.getD c 0)
    if g = 0 then none else some (e.1.2.2.2, c, g)))).flatten

/-- X, codes, flags and phase of a record. -/
def TileRec.graded (r : TileRec) : Nat × List Int × List Bool × Nat := (r.x, r.codes, r.sat, r.pulse.phase)

/-- A set of outcomes fails on its own: a far code, or two near ones. -/
def failsAlone (g : List (Nat × Nat × Nat)) : Bool := g.any (fun e => e.2.2 == 2) || decide (2 ≤ g.length)

/-- The columns of the near codes. -/
def nearColumns (g : List (Nat × Nat × Nat)) : List Nat := (g.filter (fun e => e.2.2 == 1)).map (fun e => e.2.1)

/-- A set of outcomes of a physical tile fails (R99): on its own, or by a column that was near in that tile's previous sample. -/
def Team.sampleFails (x : Team) (k : Nat) (g : List (Nat × Nat × Nat)) : Bool :=
  failsAlone g || (nearColumns g).any (fun c => (Map.get [] x.nearBefore k).contains c)

/-! ### Sampling (R97, R100, R101, R127) -/

/-- A role becomes due, unless it already is with a higher claim. -/
def State.makeDue (s : State) (t r why : Nat) : State :=
  let x := s.team t
  s.setTeam t { x with due := Map.set 0 x.due r (max why (Map.get 0 x.due r)) }

/-- SAMPLE_DUE (R97): the per-team sequence has chosen the role's next evaluated beat. -/
def execSampleDue (t r : Nat) (s : State) : Host.Outcome State Fault Refusal :=
  .next (if r < 32 then s.makeDue t r 1 else s)

/-- OUTR_SAMPLE: OUTR_CTRL with SAMPLE. -/
def execOutrSample (t r : Nat) (s : State) : Host.Outcome State Fault Refusal :=
  let s := s.fset (Reg.outrCtrlRole.team t) r
  .next (if r < 32 then s.makeDue t r 2 else s)

/-- A sample holds the team's input for the vector period it needs. -/
def State.forceCheck (s : State) (t r : Nat) : State :=
  let x := s.team t
  (s.setTeam t { x with forced := if x.forced.contains r then x.forced else x.forced ++ [r] }).bumpTeam t Reg.outrCheckStalls 1

/-- FORCED_CHECK (R100): a due sample that lacked capacity takes a forced check, which stalls the input; a role whose sample has
not begun takes it with the sample. -/
def execForcedCheck (t r : Nat) (s : State) : Host.Outcome State Fault Refusal :=
  let x := s.team t
  .next ((if x.samples.any (fun e => e.1 == r) then s.forceCheck t r
    else if Map.get 0 x.due r = 0 then s else s.setTeam t { x with due := Map.set 0 x.due r 3 }).showTeam t)

/-- CHECK_LATE (R100, R523). -/
def execCheckLate (t r : Nat) (s : State) : Host.Outcome State Fault Refusal :=
  .next ((s.raise (Reg.outrErrCheckLate.team t)).teamFault false t 0x01 0xFF ((s.team t).tileOf r) 0xFF 0 r)

/-- The points of a column in a tile's checks: the exact value in LSB, and the code's error against it. A flagged code is clamped,
and tells nothing of the column. -/
def checkPoints (cs : List Check) (c : Nat) : List (Rat × Rat) :=
  ((cs.map (·.obs)).flatten).filterMap (fun o =>
    if o.2.2.1.getD c false then none else
    let v : Rat := (o.2.2.2.getD c 0 : Rat) / 2 ^ o.1
    some (v, o.2.1.getD c 0 - v))

/-- The straight line through points by least squares: slope and offset; slope 0 where all stand at one value (log 126). -/
def fitPoints (ps : List (Rat × Rat)) : Option (Rat × Rat) :=
  if ps.isEmpty then none else
  let n : Rat := ps.length
  let sv := (ps.map (·.1)).sum
  let se := (ps.map (·.2)).sum
  let den := n * (ps.map (fun p => p.1 * p.1)).sum - sv * sv
  let g := if den = 0 then 0 else (n * (ps.map (fun p => p.1 * p.2)).sum - sv * se) / den
  some (g, (se - g * sv) / n)

/-- What tracking fits for a tile (R127): per physical column the gain error and the offset, from the checks of the last ROT_PERIOD. -/
def State.trackFits (s : State) (t k : Nat) : List (Nat × Rat × Rat) :=
  let x := s.team t
  let cs := (s.recentChecks t).filter (fun q => q.tile == k)
  columns.filterMap (fun c => (fitPoints (checkPoints cs c)).map (fun f => (x.phys k c, f)))

/-- Both chains' GAIN move against half their error, and both OFFSETs against half theirs; half an error is rounded to nearest even
(DESIGN CHOICE, log 98). -/
def movedSet (a : CoefSet) (fits : List (Nat × Rat × Rat)) : CoefSet :=
  fits.foldl (fun v e =>
    let g := roundEven (e.2.1 * 65536)
    let o := roundEven (e.2.2 * 32)
    let move := fun (m : SMap Int) (i : Nat) (d : Int) => Map.set 0 m i (Map.get 0 m i + d)
    { v with gain := move (move v.gain (2 * e.1) (-g)) (2 * e.1 + 1) (-g),
             offset := move (move v.offset (2 * e.1) o) (2 * e.1 + 1) (-o) }) a

/-- The steps by which the median rule moves the trims (R115): the median of the fitted chain gains, one step of 2^−12 for 32 codes. -/
def medianSteps (v : CoefSet) (fits : List (Nat × Rat × Rat)) : Int :=
  let gs := ((fits.map (fun e => [Map.get 0 v.gain (2 * e.1), Map.get 0 v.gain (2 * e.1 + 1)])).flatten).mergeSort
    (fun a b => decide (a ≤ b))
  let n := gs.length
  roundEven (((gs.getD ((n - 1) / 2) 0 + gs.getD (n / 2) 0 : Int) : Rat) / 64)

/-- The coefficients of tracking (R127): the moved ones, with the median of the chain gains taken over by the trims. -/
def trackedSet (a : CoefSet) (fits : List (Nat × Rat × Rat)) (moved : Int) (trims : Int × Int) : CoefSet :=
  let v := movedSet a fits
  let g := fun (m : SMap Int) (i : Nat) => Map.set 0 m i (clampInt (-32768) 32767 (Map.get 0 m i - 32 * moved))
  let o := fun (m : SMap Int) (i : Nat) => Map.set 0 m i (clampInt (-2048) 2047 (Map.get 0 m i))
  let is : List Nat := (fits.map (fun e => [2 * e.1, 2 * e.1 + 1])).flatten
  { v with gain := is.foldl g v.gain, offset := is.foldl o v.offset, delay := trims.1, win := trims.2 }

/-- The chains that a tracking fit moved, as a calibration's fit names them. -/
def trackedFits (v : CoefSet) (fits : List (Nat × Rat × Rat)) : List (Nat × Int × Int) :=
  (fits.map (fun e => [2 * e.1, 2 * e.1 + 1].map (fun i => (i, Map.get 0 v.gain i, Map.get 0 v.offset i)))).flatten

/-- A tile of a NO_SPARE verdict is repaired in place by the tracking that follows it (R105, R129, R130). -/
def State.repairInPlace (s : State) (t k : Nat) (v : CoefSet) (fits : List (Nat × Rat × Rat)) : State :=
  if !(s.team t).inPlace.contains k || s.coreHalted 5 then s else
  let s := s.remapDue t k (s.dueRemaps t k (trackedFits v fits) [] [])
  let x := s.team t
  s.setTeam t { x with inPlace := x.inPlace.filter (· != k), calQueue := x.calQueue.filter (· != k) }

/-- A sampled check is kept for tracking as long as ROT_PERIOD. -/
def State.keepCheck (s : State) (t : Nat) (q : Check) : State := s.setTeam t { s.team t with checks := s.recentChecks t ++ [q] }

/-- A sampled check corrects a team that has no idle spare (R127). -/
def State.track (s : State) (t k : Nat) : State :=
  let fits := s.trackFits t k
  if fits.isEmpty || !s.flag (Reg.calStatusTracking.team t) then s else
  let a := s.inForce t k
  let n := medianSteps (movedSet a fits) fits
  let d := s.medianTrims t k (a.delay + n)
  let v := trackedSet a fits (d.1.1 - a.delay) d.1
  let s := d.2.setTileCal t k { (d.2.tile t k).cal with previous := a, target := v, slew := some 0 }
  ((s.retrim t k).showSlewing t).repairInPlace t k v fits

/-! ### Arbitration (R104 to R107) -/

/-- The moment from which steps are suspect: the role's last passing sample on its present tile, else when that tile began to
serve it (R104). -/
def State.suspectSince (s : State) (t r : Nat) : Nat := max (Map.get 0 (s.team t).lastPass r) (Map.get 0 (s.team t).began r)

/-- An arbitration begins with the code check, or waits in the queue. -/
def State.startArb (s : State) (t : Nat) (q : Sample) (col phase : Nat) : State :=
  let x := s.team t
  let a : Arb := { sample := q, st := 1, column := col, phase := phase, spare := none, since := s.suspectSince t q.role, next := 0 }
  if x.arb.isNone then s.setTeam t { x with arb := some a } else s.setTeam t { x with arbQueue := x.arbQueue ++ [a] }

/-- An arbitration of the team, running or queued, holds a step's milepost. -/
def heldBy (y : Step) (t : Nat) (a : Arb) : Bool := decide (a.since < Map.get 0 y.beats (t * 64 + a.sample.role))

/-- Arbitration holds the milepost of a step (R104). -/
def State.stepHeld (s : State) (y : Step) : Bool :=
  s.teams.any (fun e => (match e.2.arb with | some a => heldBy y e.1 a | none => false) || e.2.arbQueue.any (heldBy y e.1))

/-- The record of a verdict, and its registers (R105, R472). -/
def State.reportVerdict (s : State) (t v : Nat) (a : Arb) : State :=
  let q := a.sample
  let ctx := [v, q.role + 64 * a.phase, q.tile, 0] ++ leBytes 2 a.column ++ leBytes 6 q.way
  let s := (s.fset (Reg.outrArbVerdict.team t) v).fset (Reg.outrArbPhase.team t) a.phase
  let s := (s.fset (Reg.outrArbWhereSpare.team t) (a.spare.getD 0x3F)).fset (Reg.outrArbWherePhys.team t) q.tile
  let s := (s.fset (Reg.outrArbWhereRole.team t) q.role).fset (Reg.outrArbWhereColumn.team t) a.column
  let s := (s.fset64 (Reg.outrArbWayLo.team t) (Reg.outrArbWayHi.team t) q.way).bumpTeam t Reg.outrArbCount 1
  if v = 1 ∨ v = 2 ∨ v = 3 ∨ v = 7 then s.danger 2 1 0x11 (unitTeam t) ctx (s.teamScope t) a.since
  else s.record (if v = 4 then 0 else 1) 1 0x11 (unitTeam t) ctx

/-- Uncommitted steps of the team's partition are replayed. -/
def State.askTeamReplay (s : State) (t : Nat) : State := match s.teamPart t with | some p => s.askReplay p | none => s

/-- The spare keeps the role (verdict TILE): the planes are copied, and the role moves (R117, R166), after a take-over in progress. -/
def State.keepSpare (s : State) (t : Nat) (a : Arb) : State :=
  match a.spare with
  | none => s
  | some d =>
    let x := s.team t
    let s := s.setTeam t { x with suspects := x.suspects ++ [(a.sample.tile, a.column)] }
    if x.tileOf a.sample.role ≠ a.sample.tile then s else
    s.startTakeover t a.sample.role d 4 0 0 (s.planesToCopy t a.sample.role a.sample.tile)

/-- A NO_SPARE verdict: the tile goes to calibration as after TILE, and its farrier works in place (R105, R129, R130). -/
def State.fixInPlace (s : State) (t : Nat) (a : Arb) : State :=
  let x := s.team t
  let k := a.sample.tile
  let places := if x.inPlace.contains k then x.inPlace else x.inPlace ++ [k]
  ((s.setTeam t { x with suspects := x.suspects ++ [(k, a.column)], inPlace := places }).queueCal t k).nextCal t

/-- A verdict ends an arbitration; the next queued one begins. -/
def State.verdict (s : State) (t v : Nat) : State :=
  match (s.team t).arb with
  | none => s
  | some a =>
    let s := (s.reportVerdict t v a).calTrace t a.sample.tile 5
    let x := s.team t
    let s := s.setTeam t { x with arb := x.arbQueue.head?, arbQueue := x.arbQueue.tail }
    if v = 1 then s.askTeamReplay t
    else if v = 2 then
      let k := a.sample.tile
      let y := s.tile t k
      let s := s.setTile t k { y with held := some a.sample.plane, reloaded := y.reloaded.filter (fun b => b / 8192 != a.sample.plane) }
      match s.teamPart t with
      | some p => (s.askReplay p).startReload p t a.sample.role a.sample.plane
      | none => s
    else if v = 3 then (s.keepSpare t a).askTeamReplay t
    else if v = 4 then (s.setTeam t { s.team t with degraded := true }).updateHealth
    else if v = 5 then s.loseTeam t
    else if v = 6 then
      if x.unresolved then s.loseTeam t else (s.setTeam t { s.team t with unresolved := true }).askTeamReplay t
    else (s.fixInPlace t a).askTeamReplay t

/-- The arbitration in progress is changed. -/
def State.setArb (s : State) (t : Nat) (a : Arb) : State := s.setTeam t { s.team t with arb := some a }

/-- ARB_CODE_CHECK_DONE (R104 step 1): the block code of every weight row that drove the sample. -/
def execArbCodeCheckDone (t : Nat) (s : State) : Host.Outcome State Fault Refusal :=
  if (s.region (teamString t)).stopped then .next s else
  match (s.team t).arb with
  | none => .next s
  | some a =>
    if a.st ≠ 1 then .next s else
    let q := a.sample
    let rows := ((q.recs.map (fun r => r.pulse.rows.map (·.1))).flatten).eraseDups
    let bad := ((s.tile t q.tile).badOf q.plane).filter (fun e => rows.any (fun r => rowBlock r e.1))
    if bad.isEmpty then .next ((s.setArb t { a with st := 2 }).showTeam t) else
    let s := s.each bad (fun s e => if blockVerdict e.2 == .ue then s else s.mendBlock t q.tile q.plane e.1 e.2)
    .next ((s.verdict t (if bad.any (fun e => blockVerdict e.2 == .ue) then 2 else 1)).showTeam t)

/-- Arbitration takes an idle spare, or waits for one; a calibration that holds the only one is abandoned (R120). -/
def State.seekSpare (s : State) (t : Nat) (a : Arb) : State :=
  match s.idleSpares t with
  | d :: _ => s.setArb t { a with st := 3, spare := some d }
  | [] => (s.abandonCal t).setArb t { a with st := 6 }

/-- Units of a sampled check: the active rows of each phase and pass (R84). -/
def sampleUnits (recs : List TileRec) : Nat := (recs.map (fun r => r.pulse.rows.length)).sum

/-- ARB_REFERENCE_DONE (R104 step 2): whether the reference recompute agrees with the first run's sums. -/
def execArbReferenceDone (t : Nat) (agrees : Bool) (s : State) : Host.Outcome State Fault Refusal :=
  if (s.region (teamString t)).stopped then .next s else
  match (s.team t).arb with
  | none => .next s
  | some a =>
    if a.st ≠ 2 then .next s else
    let s := s.countUnits (teamString t) (sampleUnits a.sample.recs)
    .next ((if agrees then s.seekSpare t a else s.verdict t 5).showTeam t)

/-- ARB_SPARE_LOAD_DONE (R104 step 3): the sampled plane and scale store stand in the spare, which takes no write while it drains. -/
def execArbSpareLoadDone (t : Nat) (s : State) : Host.Outcome State Fault Refusal :=
  match (s.team t).arb with
  | none => .next s
  | some a =>
    let a := if a.st = 6 then (match s.idleSpares t with | d :: _ => { a with st := 3, spare := some d } | [] => a) else a
    match a.spare with
    | some d =>
      if a.st ≠ 3 ∨ (s.tile t d).drain then .next s else
      let s := s.copyPlane t a.sample.tile d a.sample.plane
      let s := s.setTile t d { s.tile t d with live := a.sample.plane }
      .next ((s.setArb t { a with st := 4 }).showTeam t)
    | none => .next s

/-- The spare runs the kept input: codes of each record. -/
def State.runSpare (s : State) (t d : Nat) (f : BeatFaults) : List TileRec → List TileRec × State
  | [] => ([], s)
  | r :: rs =>
    let a := s.evaluate f t d r.pulse
    let b := a.2.runSpare t d f rs
    (a.1 :: b.1, b.2)

/-- ARB_SPARE_RUN_DONE (R105): the spare's codes are graded against the exact sums and against the original codes.
`wrong`: differences of the spare that are not those of a corrected tile (logical column, difference). -/
def execArbSpareRunDone (t : Nat) (wrong : List (Nat × Int)) (s : State) : Host.Outcome State Fault Refusal :=
  if (s.region (teamString t)).stopped then .next s else
  match (s.team t).arb with
  | none => .next s
  | some a =>
    match a.spare with
    | none => .next s
    | some d =>
      if a.st ≠ 4 then .next s else
      let r := s.runSpare t d ⟨wrong.map (fun e => (t, d, e.1, e.2)), []⟩ a.sample.recs
      let codes := r.1.map TileRec.graded
      let orig := a.sample.recs.map (fun x => x.codes.map (fun c => c * 2 ^ x.x))
      let s := r.2
      let x := s.team t
      if !x.sampleFails d (gradeAll codes a.sample.sums) then .next ((s.verdict t 3).showTeam t)
      else if !x.sampleFails d (gradeAll codes orig) then .next ((s.setArb t { a with st := 5, next := 4 }).showTeam t)
      else .next ((s.verdict t 6).showTeam t)

/-- ARB_NO_SPARE_TIMEOUT (R105): no spare idle after 50 µs. -/
def execArbNoSpareTimeout (t : Nat) (s : State) : Host.Outcome State Fault Refusal :=
  match (s.team t).arb with
  | none => .next s
  | some a => .next (if a.st = 6 then (s.setArb t { a with st := 5, next := 7 }).showTeam t else s)

/-- OUTRIDER_SELFTEST_DONE (R106). -/
def execOutriderSelftestDone (t : Nat) (pass : Bool) (s : State) : Host.Outcome State Fault Refusal :=
  if (s.region (teamString t)).stopped then .next s else
  let s := (s.raise (Reg.outrStatusSelftestDone.team t)).fput (Reg.outrStatusSelftestPass.team t) pass
  let s := s.setTeam t { s.team t with selftest := false }
  match (s.team t).arb with
  | none => .next (s.showTeam t)
  | some a => .next ((if a.st ≠ 5 then s else s.verdict t (if pass then a.next else 5)).showTeam t)

/-- OUTR_SELFTEST: refused unless the team is stopped or quiesced (R109). -/
def execOutrSelftest (t : Nat) (s : State) : Host.Outcome State Fault Refusal :=
  let x := s.team t
  .next (if x.stopped || x.quiesced then s.setTeam t { x with selftest := true }
    else s.raise (Reg.outrErrSelftestRefused.team t))

/-! ### A sample is complete (R98, R99) -/

/-- First failing code of a failed sample, as phase and column. The spec does not say which of several is first: the first far one
in the order of the records, the high phase before the low one, else the first near one (DESIGN CHOICE, log 99). -/
def firstFail (g : List (Nat × Nat × Nat)) : Nat × Nat :=
  match g.find? (fun e => e.2.2 == 2) with
  | some e => (e.1, e.2.1)
  | none => match g with | e :: _ => (e.1, e.2.1) | [] => (0, 0)

/-- SAMPLE_COMPLETE (R99): the sample of a role is graded. `lanes`: exact sums that faulty lanes gave (record, column,
sum). -/
def execSampleComplete (t r : Nat) (lanes : List (Nat × Nat × Int)) (s : State) : Host.Outcome State Fault Refusal :=
  if (s.region (teamString t)).stopped then .next s else
  match (s.team t).samples.find? (fun e => e.1 == r) with
  | none => .next s
  | some (_, q) =>
    if !q.whole then .next s else
    let sums := ((List.range q.recs.length).zip q.recs).map (fun e =>
      ((List.range 256).zip (s.exactSums t q.tile q.plane e.2.pulse)).map (fun c =>
        match lanes.find? (fun l => l.1 == e.1 && l.2.1 == c.1) with
        | some l => l.2.2
        | none => c.2))
    let g := gradeAll (q.recs.map TileRec.graded) sums
    let near := nearColumns g
    let x := s.team t
    let fails := x.sampleFails q.tile g
    let s := s.setTeam t { x with samples := x.samples.filter (fun e => e.1 != r), forced := x.forced.filter (· != r),
                                  nearBefore := Map.set [] x.nearBefore q.tile near.eraseDups }
    let s := (s.bumpTeam t Reg.outrChecks 1).bumpTeam t Reg.outrNear near.length
    let s := s.outriderReads t q.tile q.plane (((q.recs.map (fun r => r.pulse.rows.map (·.1))).flatten).eraseDups)
    let obs := (q.recs.zip sums).map (fun e => (e.1.x, e.1.codes, e.1.sat, e.2))
    let s := (s.countUnits (teamString t) (sampleUnits q.recs)).keepCheck t { role := r, tile := q.tile, way := q.way, obs := obs }
    let s := s.track t q.tile
    let s := if fails then
        (s.bumpTeam t Reg.outrCheckFails 1).startArb t { q with sums := sums } (firstFail g).2 (firstFail g).1
      else s.setTeam t { s.team t with lastPass := Map.insert (s.team t).lastPass r q.way }
    .next (s.showTeam t)

/-! ### Reference runs (R102, R103) -/

/-- A range lies in the partition's SRAM: its strings' slices and its hub share. -/
def State.refRange (s : State) (t a n : Nat) : Bool := match s.teamPart t with | some p => s.inSram p a n | none => false

/-- The rows of one phase of a reference input. -/
def refRows (b : List Nat) (fmt phase : Nat) (segScale : Bool) (seg : Nat) : List (Nat × Bool × Nat) :=
  ((List.range 1024).zip b).filterMap (fun e =>
    let m := if fmt = 0 then e.2 % 16 else if phase = 1 then e.2 % 128 / 16 else e.2 % 16
    if m = 0 ∨ (segScale ∧ e.1 / 256 ≠ seg) then none else some (e.1, e.2.testBit 7, m))

/-- The 1,600 bytes of one phase: record words, sums, saturation mask. -/
def refBlock (x : Nat) (sums : List Int) : List Nat :=
  let q := sums.map (fun v => roundEven ((v : Rat) / 2 ^ x))
  (q.map (fun c => leBytes 2 (x * 8192 + ofSigned 13 (codeOf c).1))).flatten ++
  (sums.map (fun v => leBytes 4 (ofSigned 32 v))).flatten ++
  leBytes 32 (bitWord (q.map (fun c => (codeOf c).2))) ++ zeros 32

/-- One phase of a reference run. -/
def State.refPhase (s : State) (t k plane floor phase fmt : Nat) (pair segScale : Bool) (seg : Nat) (b : List Nat) : List Nat :=
  let rows := refRows b fmt phase segScale seg
  if rows.isEmpty then refBlock 0 (List.replicate 256 0) else
  let m := s.setTile t k ((s.tile t k).mended plane)
  refBlock (lsbExp rows.length floor pair) (columns.map (fun c => m.columnSum t k plane rows pair c))

/-- OUTR_REF_GO (R103): OUTR_REF_CTRL is written with GO = 1 and the fields of `w`. -/
def execOutrRefGo (t w : Nat) (s : State) : Host.Outcome State Fault Refusal :=
  let s := (s.fset (Reg.outrRefCtrlTile.team t) (bits w 21 16)).fset (Reg.outrRefCtrlPlane.team t) (bits w 12 12)
  let s := (s.fset (Reg.outrRefCtrlSeg.team t) (bits w 11 10)).fset (Reg.outrRefCtrlSegScale.team t) (bits w 9 9)
  let s := (s.fset (Reg.outrRefCtrlPair.team t) (bits w 8 8)).fset (Reg.outrRefCtrlInFmt.team t) (bits w 7 7)
  let s := s.fset (Reg.outrRefCtrlClassFloor.team t) (bits w 6 4)
  let s := if w.testBit 0 then s.clear (Reg.outrRefCtrlDone.team t) else s
  let a := s.fget (Reg.outrRefInLo.team t) * 64 + 2 ^ 32 * s.fget (Reg.outrRefInHi.team t)
  let b := s.fget (Reg.outrRefOutLo.team t) * 64 + 2 ^ 32 * s.fget (Reg.outrRefOutHi.team t)
  let n := if w.testBit 7 then 3200 else 1600
  if (s.team t).ref.isSome || decide (34 ≤ bits w 21 16) || decide (4 < bits w 6 4) || !s.refRange t a 1024 || !s.refRange t b n
  then .next (s.raise (Reg.outrErrRefBad.team t))
  else .next ((s.setTeam t { s.team t with ref := some ⟨w, a, b⟩ }).showTeam t)

/-- REFERENCE_RUN_DONE (R102, R103): the input is read, and the output written. -/
def execReferenceRunDone (t : Nat) (s : State) : Host.Outcome State Fault Refusal :=
  if (s.region (teamString t)).stopped then .next s else
  match (s.team t).ref with
  | none => .next s
  | some f =>
    let w := f.ctrl
    let s := s.setTeam t { s.team t with ref := none }
    let r := s.readFor none (unitTeam t) f.input 1024
    let s := r.2.2
    if !w.testBit 7 && r.1.any (fun b => b % 128 / 16 != 0) then .next ((s.raise (Reg.outrErrRefBad.team t)).showTeam t) else
    let k := bits w 21 16
    let plane := bits w 12 12
    let s := s.outriderReads t k plane ((refRows r.1 1 0 false 0 ++ refRows r.1 1 1 false 0).map (·.1))
    let units := fun ph => (refRows r.1 (bits w 7 7) ph (w.testBit 9) (bits w 11 10)).length
    let s := s.countUnits (teamString t) (units 0 + if w.testBit 7 then units 1 else 0)
    let run := fun ph => s.refPhase t k plane (bits w 6 4) ph (bits w 7 7) (w.testBit 8) (w.testBit 9) (bits w 11 10) r.1
    let out := run 0 ++ (if w.testBit 7 then run 1 else [])
    .next (((s.writeThrough (unitTeam t) f.output out).raise (Reg.outrRefCtrlDone.team t)).showTeam t)

end Sys2Proof.Machine
end

