-- ==== Sys2Proof/Machine/FieldTests.lean ====
section
/-!
DEFINITION. The in-field tests: tile tests and team digital tests, when each begins, and how it ends (R461 to R464).
-/
namespace Sys2Proof.Machine

/-! ### Records of tests -/

def State.tileTest (s : State) (t k : Nat) : Nat := Map.get 0 s.safety.tileTest (t * 64 + k)
def State.setTileTest (s : State) (t k v : Nat) : State :=
  { s with safety := { s.safety with tileTest := Map.set 0 s.safety.tileTest (t * 64 + k) v } }

def State.teamTest (s : State) (t : Nat) : Nat := Map.get 0 s.safety.teamTest t
def State.setTeamTest (s : State) (t v : Nat) : State :=
  { s with safety := { s.safety with teamTest := Map.set 0 s.safety.teamTest t v } }

/-- A test has ended and is counted; a failed one marks its team. -/
def State.countTest (s : State) (t : Nat) (failed : Bool) : State :=
  let s := s.bump Reg.safeIftDone
  if failed && !s.safety.iftFailed.contains t then
    { s with safety := { s.safety with iftFailed := s.safety.iftFailed ++ [t] } }
  else s

/-! ### When a test may begin -/

/-- No step of the team's partition is under way: the partition stands at a step boundary. -/
def State.stepBoundary (s : State) (t : Nat) : Bool :=
  match s.teamPart t with
  | some p => s.steps.all (fun y => !y.posted || y.part != p)
  | none => true

/-- The team has a step in progress: its string runs one, or work of one is in the team (R463). -/
def State.teamStep (s : State) (t : Nat) : Bool :=
  let q := s.seq (teamString t)
  let x := s.team t
  (q.step.isSome && !q.ended) || !x.jobs.isEmpty || !x.records.isEmpty || !x.combining.isEmpty || !x.deliveries.isEmpty || !x.runs.isEmpty ||
  (s.teamTiles t).any (fun k => !(s.tile t k).loading.isEmpty || (s.tile t k).driving.isSome)

/-- The tile has no vector in flight. -/
def State.noFlight (s : State) (t k : Nat) : Bool :=
  let y := s.tile t k
  y.vector.isNone && y.loading.isEmpty && y.driving.isNone

/-- No arbitration of the team runs or waits, and no sample is pending. -/
def State.teamClear (s : State) (t : Nat) : Bool :=
  let x := s.team t
  x.arb.isNone && x.arbQueue.isEmpty && x.samples.isEmpty && x.due.isEmpty

/-! ### Beginning (R461 to R463) -/

/-- A tile test of a tile that serves role `r` begins with a take-over, which CC5 starts (R22); without an idle spare, or behind an
arbitration that waits for one, it waits, and a forced one takes the spare of a calibration (R120). -/
def State.beginRoleTest (s : State) (t k r : Nat) (forced : Bool) : State :=
  if (s.team t).takeover.isSome || s.coreHalted 5 || (s.team t).seeksSpare then s else
  match s.idleSpares t with
  | [] => if forced then s.abandonCal t else s
  | d :: _ =>
    let s := if forced then s.bump Reg.safeIftForced else s
    (s.startTakeover t r d 1 0 0 (s.planesToCopy t r k)).setTileTest t k (4 + r)

/-- A due tile test begins where its moment has come. A tile that serves no role is tested where it stands once it is an
idle spare. -/
def State.beginTileTest (s : State) (t k : Nat) : State :=
  let v := s.tileTest t k
  if (s.team t).retired.contains k ∨ (s.team t).outOfService then s.setTileTest t k 0 else
  match (s.team t).roleOf k with
  | some r =>
    if v = 2 then s.beginRoleTest t k r true
    else if s.stepBoundary t && s.noFlight t k then s.beginRoleTest t k r false else s
  | none =>
    if (s.idleSpares t).contains k then
      (s.setTile t k { (s.tile t k).patterned with outOfService := true }).setTileTest t k 3
    else s

/-- A tile that its take-over has released takes the ROM patterns once it no longer drains (R118), and its test runs (R461). -/
def State.runRoleTest (s : State) (t k : Nat) : State :=
  let r := s.tileTest t k - 4
  if (s.team t).takeover.isSome || ((s.team t).roleOf k).isSome || (s.tile t k).drain then s
  else (s.setTile t k (s.tile t k).patterned).setTileTest t k (80 + r)

/-- A tile that has passed returns to its role. -/
def State.returnTested (s : State) (t k : Nat) : State :=
  let r := s.tileTest t k - 40
  if (s.team t).retired.contains k then s.setTileTest t k 0 else
  if (s.team t).takeover.isSome then s else
  (s.startTakeover t r k 3 0 0 (s.planesToCopy t r ((s.team t).tileOf r))).setTileTest t k 0

/-- A due team test begins where its moment has come: with no step in progress, or at a vector boundary once forced. -/
def State.beginTeamTest (s : State) (t : Nat) : State :=
  let v := s.teamTest t
  if (s.team t).outOfService then s.setTeamTest t 0 else
  let still := (s.teamTiles t).all (fun k => (s.tile t k).vector.isNone)
  if !s.teamClear t || !still then s
  else if v = 2 then (s.bump Reg.safeIftForced).setTeamTest t 3
  else if !s.teamStep t then s.setTeamTest t 3 else s

/-- The tests of a team that wait for a moment are tried. -/
def State.tryTests (s : State) (t : Nat) : State :=
  let s := if s.teamTest t = 1 ∨ s.teamTest t = 2 then s.beginTeamTest t else s
  s.each ((s.safety.tileTest.filter (fun e => e.1 / 64 == t)).map (fun e => (e.1, e.2))) (fun s e =>
    let k := e.1 % 64
    if e.2 ≤ 2 then s.beginTileTest t k else if e.2 = 3 ∨ 80 ≤ e.2 then s
    else if e.2 < 40 then s.runRoleTest t k else s.returnTested t k)

/-- TILE_IFT_DUE (R461, R462): the test of the rotation's next tile falls due. -/
def execTileIftDue (t k : Nat) (s : State) : Host.Outcome State Fault Refusal :=
  if !s.ready ∨ 34 ≤ k ∨ (s.team t).retired.contains k then .next s else
  let s := { s with safety := { s.safety with iftNext := Map.set 0 s.safety.iftNext t ((s.team t).nextTile (k + 1)) } }
  let s := if s.tileTest t k = 0 then s.setTileTest t k 1 else s
  .next ((s.tryTests t).showTeam t)

/-- TEAM_TEST_DUE (R463). -/
def execTeamTestDue (t : Nat) (s : State) : Host.Outcome State Fault Refusal :=
  if !s.ready ∨ (s.team t).outOfService then .next s else
  let s := if s.teamTest t = 0 then s.setTeamTest t 1 else s
  .next ((s.tryTests t).showTeam t)

/-- IFT_DEFER_EXPIRE (R462, R463): IFT_DEFER passed for the test of a tile, or of a team (`none`). -/
def execIftDeferExpire (t : Nat) (tile : Option Nat) (s : State) : Host.Outcome State Fault Refusal :=
  let s := match tile with
    | some k => if s.tileTest t k = 1 then s.setTileTest t k 2 else s
    | none => if s.teamTest t = 1 then s.setTeamTest t 2 else s
  .next ((s.tryTests t).showTeam t)

/-! ### Ending (R461, R463, R464) -/

/-- The interval of suspect results of a test begins at its last pass, or at READY. -/
def testSince (passes : SMap Nat) (i readyAt : Nat) : Nat := Map.get readyAt passes i

/-- TILE_IFT_COMPLETE: `fail` 0 for a pass, else the first failing check, 1 to 5. -/
def execTileIftComplete (t k fail : Nat) (s : State) : Host.Outcome State Fault Refusal :=
  let v := s.tileTest t k
  if (v ≠ 3 ∧ v < 80) ∨ ((s.team t).roleOf k).isSome then .next s else
  let s := s.countTest t (fail != 0)
  if fail = 0 then
    let s := { s with safety := { s.safety with tilePass := Map.insert s.safety.tilePass (t * 64 + k) s.now } }
    let s := if v = 3 then (s.setTile t k { s.tile t k with outOfService := false }).setTileTest t k 0
      else s.setTileTest t k (v - 40)
    .next ((s.tryTests t).showTeam t)
  else
    let s := (s.setTileTest t k 0).retire t k frCommand 512
    let s := s.danger 2 7 0x12 (unitTile t k) [k, fail] (s.teamScope t) (testSince s.safety.tilePass (t * 64 + k) s.boot.readyAt)
    .next (s.showTeam t)

/-- TEAM_TEST_COMPLETE: `fail` 0 for a pass, else the first failing part, 1 to 6. -/
def execTeamTestComplete (t fail : Nat) (s : State) : Host.Outcome State Fault Refusal :=
  if s.teamTest t ≠ 3 then .next s else
  let s := (s.setTeamTest t 0).countTest t (fail != 0)
  if fail = 0 then .next ({ s with safety := { s.safety with teamPass := Map.insert s.safety.teamPass t s.now } }.showTeam t)
  else
    let s := s.loseTeam t
    let s := s.danger 2 6 0x13 (unitTeam t) [fail] (s.teamScope t) (testSince s.safety.teamPass t s.boot.readyAt)
    .next (s.showTeam t)

end Sys2Proof.Machine
end

