-- ==== Sys2Proof/Machine/Beat.lean ====
section
/-!
DEFINITION. The beat boundary (R61 to R70, R74 to R76, R86, R92, R96, R277, R391, R392): every 20 ns each tile latches its
codes, swaps take effect, and the next beats start under the rein. The commands of the team window stand at the end.
-/
namespace Sys2Proof.Machine

/-! ### The rein (R391) -/

/-- The effective rein of a string. -/
def State.reinNow (s : State) (x : Nat) : Nat :=
  min (min (s.fget Reg.reinStatusPackage) (Map.get 64 s.thermal.rein x))
    (min (s.fget Reg.reinStatusThermalPkg) (s.fget Reg.reinCeil))

/-- Slot k of a window of 64 is one in which rein R issues beats. -/
def slotAllowed (r k : Nat) : Bool := decide (k * r / 64 < (k + 1) * r / 64)

/-! ### The beat that ends: codes and records (R63, R65, R69, R82) -/

/-- TILE_CONFIG and TILE_LAST of the beat evaluated. -/
def State.showBeat (s : State) (t k : Nat) (r : TileRec) : State :=
  let p := r.pulse
  let s := (s.fset (Reg.tileConfigPhase.tile t k) p.phase).fset (Reg.tileConfigSeg.tile t k) (if p.segScale then p.seg else 0)
  let s := (s.fput (Reg.tileConfigSegScale.tile t k) p.segScale).fput (Reg.tileConfigPair.tile t k) p.pair
  let s := (s.fset (Reg.tileConfigClassFloor.tile t k) p.floor).fset (Reg.tileConfigInFmt.tile t k) p.fmt
  let s := (s.fset (Reg.tileLastActiveRows.tile t k) p.rows.length).clear (Reg.tileLastZero.tile t k)
  let s := (s.fput (Reg.tileLastSatAny.tile t k) (r.sat.any id)).fset (Reg.tileLastX.tile t k) r.x
  s.fset (Reg.tileLastClass.tile t k) (rowClass p.rows.length p.floor)

/-- The saturated columns of a beat (R69). -/
def State.showSat (s : State) (t k : Nat) (r : TileRec) : State :=
  let n := (r.sat.filter id).length
  if n = 0 then s else
  let s := (s.bumpTile t k Reg.tileSatCount n).bumpTeam t Reg.teamSatCount n
  let s := s.each (List.range 8) (fun s i =>
    s.fset ((Reg.tileSatMask.tile t k).nth i) (bitWord ((List.range 32).map (fun j => r.sat.getD (32 * i + j) false))))
  s.fset64 (Reg.tileSatWayLo.tile t k) (Reg.tileSatWayHi.tile t k) (s.now - 8)

/-- A tile whose chain ends did not arrive (R65, R523). -/
def State.edgeMissing (s : State) (t k : Nat) (r : TileRec) (n : Nat) : State :=
  if n = 0 then s else
  ((s.raise (Reg.tileErrEdgeMissing.tile t k)).teamFault false t 0x07 r.pulse.loc k 0xFF 0 n).windowFault t k

/-- The tiles of a team that drive, ascending. -/
def State.driving (s : State) (t : Nat) : List Nat := (s.teamTiles t).filter (fun k => (s.tile t k).driving.isSome)

/-- The tile's beat ends: its record, and its vector where no pulse of it is left. -/
def State.latch (s : State) (f : BeatFaults) (t k : Nat) (p : Pulse) : TileRec × State :=
  let r := s.evaluate f t k p
  let s := (r.2.showBeat t k r.1).showSat t k r.1
  let s := s.edgeMissing t k r.1 (f.missing.filter (fun e => e.1 == t && e.2.1 == k)).length
  let s := if s.flag (Reg.teamCtrlCntFreeze.team t) then s else s.bump64 (Reg.tileBeatsLo.tile t k) (Reg.tileBeatsHi.tile t k) 1
  let s := s.bumpTeam t (Reg.teamClassHist.nth r.1.x) 1
  let s := (((s.countBeat p.rows.length)).countOp (teamString t) (p.fmt + if p.pair then 2 else 0) 1).countOp (teamString t) 4 (p.rows.length * if p.pair then 128 else 256)
  let y := s.tile t k
  let more := match y.loading with | q :: _ => q.key == p.key | [] => false
  (r.1, s.setTile t k { y with driving := none, vector := if more then y.vector else none })

/-- The records of the beat that ends, in ascending order of tiles. -/
def State.latchAll (s : State) (f : BeatFaults) (t : Nat) : List Nat → List TileRec × State
  | [] => ([], s)
  | k :: ks =>
    match (s.tile t k).driving with
    | none => s.latchAll f t ks
    | some p =>
      let a := s.latch f t k p
      let b := a.2.latchAll f t ks
      (a.1 :: b.1, b.2)

/-- A sampled vector's record is kept; the sample is whole when its tile has left the vector (R97). -/
def State.keepSample (s : State) (t : Nat) (r : TileRec) : State :=
  match (s.team t).samples.find? (fun e => e.2.tile == r.tile && e.2.pulse.key == r.pulse.key && !e.2.whole) with
  | none => s
  | some (i, q) =>
    let q := { q with recs := q.recs ++ [r], whole := (s.tile t r.tile).vector.isNone }
    s.setTeam t { s.team t with samples := Map.insert (s.team t).samples i q }

/-! ### The outrider's pool and repairs (R85, R86, R92, R96, R131) -/

/-- Units that the outrider finishes in a beat: fewer while the core clock is stretched (R86). What a beat's work may take is 1,024
units always, as a stretch changes when results appear and not what they are (R369). -/
def State.pool (s : State) (t : Nat) : Nat := if (s.region (teamString t)).stretched then 768 else 1024

/-- Units of a saturation repair of one column, or of one pair, with N active rows (R84). -/
def repairUnits (p : Pulse) : Nat := if p.pair then ceilDiv p.rows.length 128 else ceilDiv p.rows.length 256

/-- The columns of a record put right exactly: their values, without flags. -/
def TileRec.exact (r : TileRec) (sum : Nat → Int) (cs : List Nat) : TileRec :=
  { r with val := columns.map (fun c => if cs.contains c then sum c else r.val.getD c 0),
           sat := columns.map (fun c => if cs.contains c then false else r.sat.getD c false) }

/-- The bypass columns of a record's tile (R131), with the partner of a pair. -/
def bypassOf (x : Team) (r : TileRec) : List Nat :=
  let cs := (x.bypass.filter (fun b => b.1 == r.tile)).map (·.2)
  if r.pulse.pair then (cs.map (fun c => [c / 2 * 2, c / 2 * 2 + 1])).flatten.eraseDups else cs

/-- The saturated columns, or pairs, of a record in ascending order; a pair as its two columns. -/
def repairItems (r : TileRec) : List (List Nat) :=
  if r.pulse.pair then
    (List.range 128).filterMap (fun j =>
      if r.sat.getD (2 * j) false || r.sat.getD (2 * j + 1) false then some [2 * j, 2 * j + 1] else none)
  else columns.filterMap (fun c => if r.sat.getD c false then some [c] else none)

/-- The items that fit in the units left, each passed over where it does not fit; and what is left. -/
def chooseRepairs (units : Nat) : Nat → List (List Nat) → List Nat × Nat
  | left, [] => ([], left)
  | left, i :: is =>
    if units ≤ left then
      let q := chooseRepairs units (left - units) is
      (i ++ q.1, q.2)
    else chooseRepairs units left is

/-- Units of a record's bypass columns (R131). -/
def Team.bypassUnits (x : Team) (r : TileRec) : Nat :=
  repairUnits r.pulse * (if r.pulse.pair then (bypassOf x r).length / 2 else (bypassOf x r).length)

/-- The waiting rows that a number of units serves, each whole and in order (R92), and those that go on waiting. -/
def serveBacklog : Nat → List Nat → List Nat × List Nat
  | _, [] => ([], [])
  | left, u :: us =>
    if u ≤ left then
      let q := serveBacklog (left - u) us
      (u :: q.1, q.2)
    else ([], u :: us)

/-- Outlier work of the beat, the bypass columns of its records ahead of it; what is left of the pool after it and after
arbitration's recompute. -/
def State.outlierWork (s : State) (t : Nat) (a8 : Bool) (rs : List TileRec) : Nat × State :=
  let x := s.team t
  let bypass := (rs.map x.bypassUnits).sum
  let q := serveBacklog ((if a8 then 512 else 1024) - bypass) x.backlog
  let done := bypass + q.1.sum
  let arb := match x.arb with
    | some a => if a.st = 2 then sampleUnits a.sample.recs else 0
    | none => 0
  let s := s.setTeam t { x with backlog := q.2, drawn := x.drawn - (if a8 then 512 else 1024) }
  let s := s.countUnits (teamString t) done
  (1024 - done - arb, s)

/-- Bypass columns and repairs of one record; the units left after it. -/
def State.repair (s : State) (t left : Nat) (r : TileRec) : TileRec × Nat × State :=
  let m := s.setTile t r.tile ((s.tile t r.tile).mended r.plane)
  let sum := fun c => m.columnSum t r.tile r.plane r.pulse.rows r.pulse.pair c
  let by_ := bypassOf (s.team t) r
  let r := r.exact sum by_
  let pick := chooseRepairs (repairUnits r.pulse) left (repairItems r)
  let lost := ((repairItems r).flatten.filter (fun c => r.sat.getD c false && !pick.1.contains c)).length
  let s := (s.bumpTeam t Reg.outrSatRepaired pick.1.length).bumpTeam t Reg.outrSatUnrepaired lost
  let s := if pick.1.isEmpty && by_.isEmpty then s else s.outriderReads t r.tile r.plane (r.pulse.rows.map (·.1))
  (r.exact sum pick.1, pick.2, s.countUnits (teamString t) (left - pick.2))

/-- The records of a beat repaired in the order given, and the units left. -/
def State.repairAll (s : State) (t : Nat) : (left : Nat) → List TileRec → List TileRec × Nat × State
  | left, [] => ([], left, s)
  | left, r :: rs =>
    let a := s.repair t left r
    let b := a.2.2.repairAll t a.2.1 rs
    (a.1 :: b.1, b.2)

/-- A beat in which `used` units of work came to be done ends: what stretched clocks have not finished waits, and withholds the input of
the team while it is much (R86). -/
def State.lateWork (s : State) (t used : Nat) : State :=
  let x := s.team t
  let n := x.late + used - s.pool t
  let left := n + x.backlog.sum
  let was := s.flag (Reg.outrStatusBackpressure.team t)
  (s.setTeam t { x with late := n }).fput (Reg.outrStatusBackpressure.team t) (decide (2048 < left) || (was && decide (1024 < left)))

/-- Ascending role (R96). -/
def byRole (rs : List TileRec) : List TileRec := rs.mergeSort (fun a b => decide (a.pulse.role ≤ b.pulse.role))

/-- A calibration in STATS mode shadows the phases that the spare evaluates for its role, up to 512; the outrider's exact chain sums of
each are reference work (R84, R121). -/
def State.shadow (s : State) (t : Nat) (rs : List TileRec) : State :=
  let x := s.team t
  let c := x.cal
  if c.step ≠ 3 ∨ c.mode ≠ 1 ∨ c.role.isNone ∨ c.ended then s else
  let seen := (rs.filter (fun r => c.spare == some r.tile && c.role == some r.pulse.role)).take (512 - c.shadowed)
  (s.setTeam t { x with cal := { c with shadowed := c.shadowed + seen.length } }).countUnits (teamString t) (sampleUnits seen)

/-- The end of a beat of one team. -/
def State.endBeat (s : State) (f : BeatFaults) (t : Nat) : State :=
  let ks := s.driving t
  let a8 := s.a8InFlight t
  let r := s.latchAll f t ks
  let s := r.2.each r.1 (fun s q => s.keepSample t q)
  let s := if ks.isEmpty || s.flag (Reg.teamCtrlCntFreeze.team t) then s
    else s.bump64 (Reg.teamBeatsLo.team t) (Reg.teamBeatsHi.team t) 1
  let w := (s.shadow t r.1).outlierWork t a8 r.1
  let q := w.2.repairAll t w.1 (byRole r.1)
  let s := q.2.2.lateWork t (1024 - q.2.1)
  s.setTeam t { s.team t with records := (s.team t).records ++ q.1 }

/-! ### Swaps (R74 to R76) -/

/-- Writes hold the swap of a role: a descriptor's once its first write is queued, a relayed descriptor's once its first chunk is
written (R264, R268), and for the plane itself a LOADM's (R188, R189). -/
def State.loadsInto (s : State) (t r plane : Nat) : Bool :=
  s.loads.any (fun c => c.2.first == some true && (match c.2.plane with | some k => k.1 == t && k.2.1 == r | none => false)) ||
  s.loads.any (fun c => c.2.rx.any (fun x => x.kind != 0 && decide (0 < x.written) && !x.dropped &&
    (planeTarget x.dst).1 == t && (planeTarget x.dst).2.1 == r)) ||
  (match s.teamPart t with
   | some p => (s.seq (teamString t)).loading.any (fun m =>
       (modelPlaces (s.harness p) m.1).any (fun x => x.team == t && x.role == r && x.plane == plane))
   | none => false)

/-- By a boundary at which a swap of a role is due, a descriptor that moves data to the role may have queued its first write,
which checks that the plane is open: whether it has is open (R264, log 100). -/
def State.queueFirst (s : State) (t r : Nat) : State :=
  s.each s.loads (fun s c =>
    match c.2.plane with
    | some k =>
      if k.1 ≠ t ∨ k.2.1 ≠ r ∨ c.2.first.isSome then s else
      let d := s.draw
      if d.1 % 2 = 0 then d.2 else { d.2 with loads := Map.set {} d.2.loads c.1 { c.2 with first := some (!s.planeBusy k) } }
    | none => s)

/-- Nothing holds the swap of a role: its plane is live already, or no write to it is queued, reloaded or loaded (R74). -/
def State.swapReady (s : State) (t : Nat) (i : Nat × Nat) : Bool :=
  let y := s.tile t ((s.team t).tileOf i.1)
  y.live == i.2 || (!(y.queue.any (fun w => w.plane == i.2)) && !y.marked.contains i.2 && !s.loadsInto t i.1 i.2)

/-- The role stands at a vector boundary, so that both phases of an A8 vector use one plane (R67). -/
def State.betweenVectors (s : State) (t : Nat) (i : Nat × Nat) : Bool :=
  let y := s.tile t ((s.team t).tileOf i.1)
  y.live == i.2 || y.vector.isNone

/-- A role stands in a take-over that copies, whose completion its swap waits for (R74, R122). -/
def Team.inTakeover (x : Team) (r : Nat) : Bool :=
  match x.takeover with | some o => o.role == r && !o.planes.isEmpty | none => false

/-- A command has reached the team in time for this boundary. -/
def State.swapCame (s : State) (c : SwapCmd) : Bool := decide (c.came + 1 < s.now ∧ c.notBefore ≤ s.now)

/-- The roles of a command that switch at this boundary: of those in no take-over, the ones between two vectors. A sequencer's SWAP
is issued for each role by itself (R188); a register command waits until every named role is free of queued writes (R74; log 115). -/
def State.swapPart (s : State) (t : Nat) (c : SwapCmd) : List (Nat × Nat) :=
  if !s.swapCame c then [] else
  let free := c.items.filter (fun i => !(s.team t).inTakeover i.1)
  if !c.seq && !free.all (fun i => s.swapReady t i) then []
  else free.filter (fun i => s.swapReady t i && s.betweenVectors t i)

/-- A tile switches plane and scale store: it drains where reads of the plane now open are outstanding. A mark that a FREE spare column
brought on the plane while it was live is acted on now (R279). -/
def State.swapTile (s : State) (t k plane : Nat) : State :=
  let y := s.tile t k
  (s.setTile t k { y with live := plane, drain := s.readsHeld t k (1 - plane), written := [] }).reloadMarked t k (1 - plane)

/-- Two commands name one role with different planes. -/
def conflicts (a b : List (Nat × Nat)) : Bool := a.any (fun i => b.any (fun j => i.1 == j.1 && i.2 != j.2))

/-- The swaps of a boundary: register commands that meet a sequencer's are discarded; the tiles that spend the dead
beat are returned. Every role is compared with the plane live before the boundary, so of two register commands that name it with
different planes the one that changes it holds (DESIGN CHOICE, log 91). -/
def State.swaps (s : State) (t : Nat) : List Nat × State :=
  let x := s.team t
  let s := s.each ((((x.swaps.filter (fun c => s.swapCame c)).map (fun c => c.items.map (·.1))).flatten).eraseDups)
    (fun s r => s.queueFirst t r)
  let due := (x.swaps.map (fun c => (c, s.swapPart t c))).filter (fun e => !e.2.isEmpty)
  let lost := due.filter (fun e => !e.1.seq && due.any (fun d => d.1.seq && conflicts e.2 d.2))
  let s := if lost.isEmpty then s else s.raise (Reg.teamErrSwapConflict.team t)
  let go := due.filter (fun e => !lost.contains e)
  let items := (((go.map (·.2)).flatten).filter (fun i => (s.tile t (x.tileOf i.1)).live != i.2)).eraseDups
  let s := s.each items (fun s i => s.swapTile t (x.tileOf i.1) i.2)
  let rest := x.swaps.filterMap (fun c =>
    if lost.any (fun e => e.1 == c) then none else
    let part := ((go.filter (fun e => e.1 == c)).map (·.2)).flatten
    let left := c.items.filter (fun i => !part.contains i)
    if left.isEmpty then none else some { c with items := left })
  (items.map (fun i => x.tileOf i.1), s.setTeam t { s.team t with swaps := rest })

/-! ### The beat that starts (R64, R86, R97, R391, R392) -/

/-- The team issues no new vector: stopped, quiesced, out of service. -/
def State.noVectors (s : State) (t : Nat) : Bool :=
  let x := s.team t
  s.flag (Reg.teamCtrlStop.team t) || x.quiesced || x.outOfService || x.selftest || Map.get 0 s.safety.teamTest t == 3

/-- A tile's next pulse may start: within its vector, or as a new vector that nothing withholds. -/
def State.tileReady (s : State) (t k : Nat) : Bool :=
  let y := s.tile t k
  match y.loading with
  | [] => false
  | p :: _ => y.held.isNone && (y.vector == some p.key || !s.noVectors t)

/-- A tile is in the middle of a vector, so that back-pressure does not hold its next pulse. -/
def State.inVector (s : State) (t k : Nat) : Bool :=
  match (s.tile t k).loading with
  | p :: _ => (s.tile t k).vector == some p.key
  | [] => false

/-- A step has issued a beat to a role (R104). -/
def State.noteBeat (s : State) (t : Nat) (p : Pulse) : State :=
  s.modStep p.step (fun y => { y with beats := Map.insert y.beats (t * 64 + p.role) (s.now + 1) })

/-- A new vector begins on a tile: its outlier rows are read from the plane now live, and a due sample begins. -/
def State.beginVector (s : State) (t k : Nat) (p : Pulse) : State :=
  let x := s.team t
  let live := (s.tile t k).live
  let ds := x.deliveries.map (fun d => if d.tile = k ∧ d.key = p.key then { d with plane := live, begun := true } else d)
  let x : Team := { x with deliveries := ds }
  if Map.get 0 x.due p.role = 0 ∨ x.tileOf p.role ≠ k ∨ (x.samples.find? (fun e => e.1 == p.role)).isSome then s.setTeam t x else
  let q : Sample := { role := p.role, tile := k, plane := live, layer := p.loc, step := p.step, way := s.now, recs := [],
                      pulse := p, whole := false, sums := [] }
  let forced := Map.get 0 x.due p.role == 3
  let s := s.setTeam t { x with due := Map.set 0 x.due p.role 0, samples := Map.insert x.samples p.role q }
  if forced then s.forceCheck t p.role else s

/-- A tile starts its next beat. -/
def State.startTile (s : State) (t k : Nat) : State :=
  match (s.tile t k).loading with
  | [] => s
  | p :: rest =>
    let s := if (s.tile t k).vector = some p.key then s else s.beginVector t k p
    let y := s.tile t k
    (s.setTile t k { y with loading := rest, driving := some p, vector := some p.key }).noteBeat t p

/-- The tile serves an outrider read, or a test, calibration, arbitration run or copy that evaluates or writes it, so that its slot is
not idle for the groom (R277). -/
def State.otherUse (s : State) (t k : Nat) : Bool :=
  let x := s.team t
  x.deliveries.any (fun d => d.begun && d.tile == k) || x.samples.any (fun e => e.2.whole && e.2.tile == k) ||
  (match x.ref with | some f => bits f.ctrl 21 16 == k | none => false) ||
  (match x.arb with
   | some a => (decide (a.st = 1 ∨ a.st = 2) && a.sample.tile == k) || (decide (a.st = 3 ∨ a.st = 4) && a.spare == some k)
   | none => false) ||
  (decide (x.cal.step = 2 ∨ x.cal.step = 3) && x.cal.tile == k) ||
  (match x.takeover with | some o => !o.done && o.dst == k | none => false) ||
  ((x.roleOf k).isNone && (let v := s.tileTest t k; decide ((3 ≤ v ∧ v < 40) ∨ 80 ≤ v)))

/-- The start of a beat of one team: swaps, whose dead beats count as beats (R382), then beats, then the groom in the tiles left idle. -/
def State.startBeat (s : State) (t : Nat) : State :=
  let ok := slotAllowed (s.reinNow (teamString t)) (s.power.beat % 64)
  let sw := if ok then s.swaps t else ([], s)
  let s := sw.2.each sw.1 (fun s _ => s.countBeat 0)
  let ready := (s.teamTiles t).filter (fun k => !sw.1.contains k && s.tileReady t k)
  let bp := s.flag (Reg.outrStatusBackpressure.team t)
  let go := ready.filter (fun k => !bp || s.inVector t k)
  let s := if bp && decide (go.length < ready.length) then s.bumpTeam t Reg.outrBackpressure 1 else s
  let s := if ok then s.each go (fun s k => s.startTile t k)
    else if go.isEmpty then s else s.bumpTeam t Reg.teamHeld 1
  let idle := (List.range 34).filter (fun k =>
    (s.tile t k).driving.isNone && (s.tile t k).queue.isEmpty && !sw.1.contains k && !s.otherUse t k)
  s.groomBeat t idle

/-- What a team waits for after a beat (R499): its outrider, or a rein of 0. -/
def State.teamReason (s : State) (t : Nat) : Nat :=
  if s.flag (Reg.outrStatusBackpressure.team t) ∨ 0 < (s.team t).stall ∨ s.flag (Reg.outrStatusForcedCheck.team t) then 10
  else if s.reinNow (teamString t) = 0 ∧ (s.teamTiles t).any (fun k => !(s.tile t k).loading.isEmpty) then 12 else 0

/-- The team's WAIT; a wait that lasts keeps its beginning. -/
def State.teamWait (s : State) (t : Nat) : State :=
  let u := 64 + t
  let r := s.teamReason t
  if r = s.fget (Reg.waitReason.unit u) then s
  else if r = 0 then s.showWait u 0 0 0 0 else s.showWait u r 0 nobody s.now

/-- One beat boundary of one team, unless the clocks of its region are stopped. -/
def State.teamBeat (s : State) (f : BeatFaults) (t : Nat) : State :=
  if (s.region (teamString t)).stopped then s else
  let s := s.each (s.teamTiles t) (fun s k => s.applyTrims t k)
  ((((((s.flushRuns t).endBeat f t).startBeat t).tryTests t).settleStop t).teamWait t).showTeam t

/-- The teams that hold anything, or any tile of which does. -/
def State.listedTeams (s : State) : List Nat :=
  let ts : List Nat := s.teams.map (fun e => e.1)
  let ks : List Nat := s.tiles.map (fun e => e.1 / 64)
  let a : List Nat := s.safety.tileTest.map (fun e => e.1 / 64)
  let b : List Nat := s.safety.teamTest.map (fun e => e.1)
  (ts ++ ks ++ a ++ b).eraseDups

/-- One beat boundary of the package. -/
def State.beatBoundary (s : State) (f : BeatFaults) : State :=
  let s := s.each s.listedTeams (fun s t => s.teamBeat f t)
  if s.ready then { s with power := { s.power with beat := s.power.beat + 1 } } else s

/-! ### Commands of a team -/

/-- TILE_RECORD_ARRIVE (R66): the team's oldest record reaches the phase combiner. R153 leaves the order of contributions open; the
model takes records first in, first out (DESIGN CHOICE, log 128). -/
def execTileRecordArrive (t : Nat) (s : State) : Host.Outcome State Fault Refusal :=
  if (s.region (teamString t)).stopped then .next s else
  match (s.team t).records with
  | [] => .next s
  | r :: rest => .next (((s.setTeam t { s.team t with records := rest }).takeRecord t r).showTeam t)

/-- GROUP_CLOSE_COMPLETE (R157). -/
def execGroupCloseComplete (t g : Nat) (s : State) : Host.Outcome State Fault Refusal :=
  if (s.region (teamString t)).stopped then .next s else
  .next ((s.closeGroup t g).showTeam t)

/-- ACC_ABANDON (R158): only while the team is stopped or quiesced. -/
def execAccAbandon (t g : Nat) (s : State) : Host.Outcome State Fault Refusal :=
  let s := s.fset (Reg.accCtrlGroup.team t) g
  let x := s.team t
  .next (if x.stopped || x.quiesced then (s.abandonGroup t (g % 16)).showTeam t else s)

/-- TEAM_STOP (R81): TEAM_CTRL.STOP. -/
def execTeamStop (t : Nat) (stop : Bool) (s : State) : Host.Outcome State Fault Refusal :=
  .next (((s.fput (Reg.teamCtrlStop.team t) stop).settleStop t).showTeam t)

/-- TEAM_CNT_FREEZE (R81): TEAM_CTRL.CNT_FREEZE. -/
def execTeamCntFreeze (t : Nat) (freeze : Bool) (s : State) : Host.Outcome State Fault Refusal :=
  .next (s.fput (Reg.teamCtrlCntFreeze.team t) freeze)

/-- TEAM_SWAP_GO (R74): a swap of TEAM_SWAP_MASK.ROLES to a plane. -/
def execTeamSwapGo (t plane : Nat) (s : State) : Host.Outcome State Fault Refusal :=
  let m := s.fget (Reg.teamSwapMask.team t)
  let items := ((List.range 32).filter (fun r => m.testBit r)).map (fun r => (r, plane % 2))
  let x := s.team t
  .next ((if items.isEmpty then s else
    s.setTeam t { x with swaps := x.swaps ++ [⟨false, s.now, 0, items⟩] }).showTeam t)

end Sys2Proof.Machine
end

