-- ==== Sys2Proof/Machine/Sequencer.lean ====
section
/-!
DEFINITION. String sequencers (R183 to R190, R490, R491, R499, R525, R526): how an instruction issues, stalls, meets a
breakpoint and moves the code position, and the instructions that no vector unit, gate or collective is needed for. A
command of a sequencer row carries the operands of the instruction that the sequencer executes next (log 25).
-/
namespace Sys2Proof.Machine

/-! ### Halts and breakpoints (R490, R491) -/

/-- The sequencer halts at an instruction boundary: cause 1 HALT, 2 STEP, 3 BREAKPOINT. -/
def State.haltSeq (s : State) (x cause bp : Nat) : State :=
  let s := s.setSeqr x { s.seq x with halted := true, stepping := false }
  let s := (s.raise (Reg.runstatHalted.unit (32 + x))).fset (Reg.runstatCause.unit (32 + x)) cause
  (s.fset (Reg.runstatBp.unit (32 + x)) bp).seqWait x (some (13, 0, nobody))

/-- The sequencer resumes. The instruction that it halted at does not hit its breakpoint again. -/
def State.resumeSeq (s : State) (x : Nat) : State :=
  if !(s.seq x).halted then s else
  let s := s.setSeqr x { s.seq x with halted := false, stepping := false, skipBp := true }
  (s.clear (Reg.runstatHalted.unit (32 + x))).seqWait x none

/-- What an instruction touches: its opcode, and the tensor ranges (address, length) that it reads and writes. -/
structure Touch where
  op : Nat
  loads : List (Nat × Nat)
  stores : List (Nat × Nat)

/-- An address lies in one of the ranges. -/
def inRanges (a : Nat) (rs : List (Nat × Nat)) : Bool := rs.any (fun r => decide (r.1 ≤ a ∧ a < r.1 + r.2))

/-- Breakpoint `k` of sequencer `x` hits an instruction. -/
def State.bpHits (s : State) (x : Nat) (c : Touch) (k : Nat) : Bool :=
  let u := 32 + x
  let a := s.fget64 ((Reg.bpAddrLo.unit u).nth (2 * k)) ((Reg.bpAddrHi.unit u).nth (2 * k))
  s.flag ((Reg.bpCtrlEnable.unit u).nth k) &&
  (match s.fget ((Reg.bpCtrlType.unit u).nth k) with
   | 0 => (s.seq x).pos == a
   | 1 => inRanges a c.loads
   | 2 => inRanges a c.stores
   | _ => a % 256 == c.op)

/-- The breakpoints that an instruction hits. -/
def State.hits (s : State) (x : Nat) (c : Touch) : List Nat :=
  if (s.seq x).skipBp then [] else (List.range 8).filter (s.bpHits x c)

/-- A hit raises the trace trigger BREAK where it asks for it, and with ACTION TRACE writes a BREAK entry. -/
def State.breakHit (s : State) (x k : Nat) : State :=
  let u := 32 + x
  let s := if s.flag ((Reg.bpCtrlAction.unit u).nth k) then
      s.traceEvent 3 (unitSeq x) 0x40 (k :: leBytes 8 (s.seq x).pos) else s
  if s.flag ((Reg.bpCtrlTrig.unit u).nth k) then s.traceTrigger 2 else s

/-- The first breakpoint of a list whose ACTION is HALT. -/
def State.haltingBp (s : State) (x : Nat) (ks : List Nat) : Option Nat :=
  ks.find? (fun k => !s.flag ((Reg.bpCtrlAction.unit (32 + x)).nth k))

/-! ### The code position (R184) -/

/-- Control arrives at a code offset: at the end of a loop's body it repeats the body or leaves the loop. -/
def arrive (pos : Nat) : List LoopFrame → Nat × List LoopFrame
  | [] => (pos, [])
  | f :: fs =>
    if pos = f.stop then (if 1 < f.left then (f.first, { f with left := f.left - 1 } :: fs) else arrive pos fs)
    else (pos, f :: fs)

/-- The sequencer at a code offset. -/
def Seq.goto (q : Seq) (pos : Nat) : Seq := { q with pos := (arrive pos q.loops).1, loops := (arrive pos q.loops).2 }

/-- The instruction after this one. -/
def Seq.advance (q : Seq) : Seq := q.goto (q.pos + 8)

/-- LOOP: the body of `len` instructions `count` times; with COUNT 0 control continues after it. -/
def Seq.loop (count len : Nat) (q : Seq) : Seq :=
  if count = 0 then q.goto (q.pos + 8 + 8 * len)
  else { q with pos := q.pos + 8, loops := ⟨q.pos + 8, q.pos + 8 + 8 * len, count⟩ :: q.loops }

/-- Address register n. -/
def Seq.a (q : Seq) (n : Nat) : Nat := q.regs.getD n 0

/-- The sequencer with a value in address register n. -/
def Seq.setA (q : Seq) (n v : Nat) : Seq :=
  { q with regs := (List.range 16).map (fun i => if i = n then v % 2 ^ 64 else q.regs.getD i 0) }

/-! ### Issue (R184) -/

/-- The sequencer runs a step, is neither halted (but for one STEP) nor stopped with its region. -/
def State.canIssue (s : State) (x : Nat) : Bool :=
  let q := s.seq x
  q.step.isSome && !q.ended && (!q.halted || q.stepping) && !(s.region x).stopped

/-- The step and its record, where the sequencer runs one. -/
def State.seqStep (s : State) (x : Nat) : Option Step :=
  match (s.seq x).step with
  | some id => s.step? id
  | none => none

/-- One instruction of string `x`: it halts at a breakpoint, or stalls, or executes `f` and moves on by `go`. -/
def State.issue (s : State) (x : Nat) (c : Touch) (stall : Option (Nat × Nat × Nat)) (go : Seq → Seq) (f : State → State) :
    State :=
  if !s.canIssue x then s else
  let hs := s.hits x c
  match s.haltingBp x hs with
  | some k => (s.each hs (fun s k => s.breakHit x k)).haltSeq x 3 k
  | none =>
    match stall with
    | some w => s.seqWait x (some w)
    | none =>
      let s := (s.each hs (fun s k => s.breakHit x k)).seqWait x none
      let id := (s.seq x).step
      let pos := (s.seq x).pos
      let step := (s.seq x).stepping
      let s := f ((s.setSeqr x { s.seq x with skipBp := false }).countOp x 27 1)
      let s := if (s.seq x).step = id ∧ !(s.seq x).ended ∧ (s.seq x).pos = pos then s.setSeqr x (go (s.seq x)) else s
      if step then s.haltSeq x 2 0 else s

/-! ### The program in SRAM (R183, R526) -/

/-- The tensor address of byte `b` of string `x`'s program. -/
def State.progAddr (s : State) (x b : Nat) : Nat :=
  x * 0x3800000 + (s.goodBanks x).getD (b / 0x40000) 0 * 0x40000 + b % 0x40000

/-- Eight program bytes from a program byte on, read through the code: the value, UE, the state after. -/
def State.readProg (s : State) (x b : Nat) : Nat × Bool × State :=
  let n := min 8 (0x40000 - b % 0x40000)
  let r := s.readThrough (unitString x) (s.progAddr x b) n
  if n = 8 then (leValue r.1, r.2.1, r.2.2) else
  let q := r.2.2.readThrough (unitString x) (s.progAddr x (b + n)) (8 - n)
  (leValue (r.1 ++ q.1), r.2.1 || q.2.1, q.2.2)

/-- Length of the string's code area, and the program byte at which its data area starts. -/
def State.codeLen (s : State) (p x : Nat) : Nat := (progDir (s.harness p) x).2.1
def State.dataStart (s : State) (p x : Nat) : Nat := up64 (s.codeLen p x)

/-! ### Failing a step for its sequencer (R184, R188, R523, R525) -/

/-- The step that the sequencer runs fails with a TEAM_FAULT record of the string. -/
def State.seqFault (s : State) (x cause layer group extra : Nat) : State :=
  match (s.seq x).step with
  | some id => s.faultStep id true x cause layer group extra
  | none => s

/-- The step that the sequencer runs fails with a TEAM_FAULT record of a team. -/
def State.teamSeqFault (s : State) (x t cause layer group extra : Nat) : State :=
  match (s.seq x).step with
  | some id => s.faultStep id false t cause layer group extra
  | none => s

/-- The step that the sequencer runs fails without a record of its own (a UE of stored data). -/
def State.seqFail (s : State) (x : Nat) : State :=
  match (s.seq x).step with
  | some id => s.failStep id
  | none => s

/-! ### Stalls of issued work (R184) -/

/-- The team's queue is full: why it does not move, as R499 names it. -/
def State.queueStall (s : State) (t : Nat) : Option (Nat × Nat × Nat) :=
  if (s.team t).jobs.length ≤ Config.teamQueue then none
  else if s.reinNow (teamString t) = 0 then some (12, 0, unitTeam t)
  else some (10, 0, unitTeam t)

/-- The first stall among those of several teams. -/
def firstStall (ws : List (Option (Nat × Nat × Nat))) : Option (Nat × Nat × Nat) := ws.findSome? id

/-- A role stands held (R280). -/
def State.roleHeld (s : State) (t r : Nat) : Bool := (s.tile t ((s.team t).tileOf r)).held.isSome

/-- A swap of a role is pending now: a SWAPAT that is not yet due does not count (R188, R190). -/
def State.swapPending (s : State) (t r : Nat) : Bool :=
  (s.team t).swaps.any (fun c => decide (c.notBefore ≤ s.now) && c.items.any (fun i => i.1 == r))

/-- The stall of an instruction that needs the roles of some placements: a swap pending, and for VEC a role held (R184). -/
def State.roleStall (s : State) (held : Bool) (ps : List Place) : Option (Nat × Nat × Nat) :=
  ps.findSome? (fun y =>
    if held && s.roleHeld y.team y.role then some (7, y.role, unitTile y.team ((s.team y.team).tileOf y.role))
    else if s.swapPending y.team y.role then some (8, y.role, unitTeam y.team) else none)

/-- The stall of a VEC (`held`) or GATE on placements: a held role, a pending swap, a full queue. -/
def State.workStall (s : State) (held : Bool) (ps : List Place) : Option (Nat × Nat × Nat) :=
  firstStall [s.roleStall held ps, firstStall ((placeTeams ps).map s.queueStall)]

/-! ### VEC (R177, R186, R187) -/

/-- How many VECs of a layer the step has executed on the string. -/
def Seq.occ (q : Seq) (id layer : Nat) : Nat := Map.get 0 q.vecs (id * 4096 + layer)

/-- The retained input that a replay's VEC of its earliest offending layer reads again (R165). -/
def State.again (s : State) (x : Nat) (y : Step) (layer : Nat) : Option Retained :=
  let q := s.seq x
  if y.replayAt = some layer then
    q.retained.find? (fun r => r.step == y.id && r.layer == layer && r.occ == q.occ y.id layer)
  else none

/-- The inputs that a string retains, but for a VEC's own of the run before. -/
def Seq.otherInputs (q : Seq) (step layer occ : Nat) : List Retained :=
  q.retained.filter (fun r => !(r.step == step && r.layer == layer && r.occ == occ))

/-- The sequencer records a restart point at a VEC (R186). -/
def Seq.mark (q : Seq) (id layer : Nat) : Seq :=
  { q with restarts := q.restarts ++ [⟨id, layer, q.pos, q.loops, q.regs, q.flags, q.vecs, q.opens⟩] }

/-- A VEC's input is copied into the retention area (R163, R187, R526), and the VEC counted. -/
def State.retain (s : State) (x p step layer : Nat) (b : List Nat) : State :=
  let q := s.seq x
  let occ := q.occ step layer
  let rest := q.otherInputs step layer occ
  let cs := placeInput (s.retainArea p) b.length rest
  (s.setSeqr x { q with retained := rest ++ [⟨step, layer, occ, cs⟩], vecs := Map.set 0 q.vecs (step * 4096 + layer) (occ + 1) }).storeInput p x cs b

/-- The jobs of one vector on one team: one per distinct row segment that the team holds, ascending. -/
def vectorJobs (step layer group vec addr : Nat) (stray lead : Bool) (occ : Nat) (b : List Nat) (ps : List Place) : List Job :=
  let segs := ((ps.map (·.rowSeg)).eraseDups).mergeSort (fun a c => decide (a ≤ c))
  segs.map (fun g =>
    { step := step, layer := layer, group := group, vec := vec, seg := g, addr := addr, bytes := b, stray := stray,
      head := some g == segs.head?, occ := occ, lead := lead })

/-- The jobs of the vectors of a VEC on one team: `vs` gives each vector's index, address and bytes. -/
def vecJobs (step layer group : Nat) (stray : Bool) (occ : Nat) (vs : List (Nat × Nat × List Nat)) (ps : List Place) : List Job :=
  (((List.range vs.length).zip vs).map (fun e =>
    vectorJobs step layer group e.2.1 e.2.2.1 stray (e.1 == 0) occ e.2.2.2 ps)).flatten

/-- Vectors of a layer queued on the teams of a string. -/
def State.queueVectors (s : State) (x step layer group occ : Nat) (h : List Nat) (vs : List (Nat × Nat × List Nat)) : State :=
  let ps := stringPlaces h layer x
  s.each (placeTeams ps) (fun s t =>
    let stray := (s.group t group).st != 1
    let js := vecJobs step layer group stray occ vs (ps.filter (fun y => y.team == t))
    (s.setTeam t { s.team t with jobs := (s.team t).jobs ++ js }).showTeam t)

/-- The step's inputs alone exceed the retention area (R187, R242): the step does not go on, the batch is split. -/
def State.retainOverflow (s : State) (id : Nat) : State :=
  match s.step? id with
  | none => s
  | some y =>
    let gs := s.stepSlots id
    let s := (s.abandonStep id).bump (Reg.gateSplits.gate y.part)
    s.each gs (fun s g => (s.abandonTentative y.part (s.localSlot y.part g)).setSlot g (s.slot g).leaveStep)

/-- VEC with its input read: queued, once it is retained. -/
def State.vecInput (s : State) (x layer group a n vectors occ : Nat) (y : Step) (b : List Nat) : State :=
  s.queueVectors x y.id layer group occ (s.harness y.part) ((List.range vectors).map (fun v => (v, a + v * n, slice b (v * n) n)))

/-- The body of VEC (R177, R186, R187, R525). -/
def State.vec (s : State) (x layer group a vectors : Nat) (y : Step) : State :=
  let s := s.setSeqr x ((s.seq x).mark y.id layer)
  if vectors = 0 then s else
  let l := harnessLayer (s.harness y.part) layer
  let n := mxSize l.inMx (l.rowSegs * 1024)
  let q := s.seq x
  let occ := q.occ y.id layer
  match s.again x y layer with
  | some r =>
    let b := s.loadInput y.part x r.pieces
    if b.2.1 then b.2.2.seqFail x else
    (b.2.2.setSeqr x { b.2.2.seq x with vecs := Map.set 0 q.vecs (y.id * 4096 + layer) (occ + 1) }).vecInput x layer group a n vectors occ y b.1
  | none =>
    let t := ((placeTeams (stringPlaces (s.harness y.part) layer x)).head?).getD (24 * x)
    if !s.reaches y.part a (n * vectors) then
      s.teamSeqFault x t 0x08 (localLayer (s.harness y.part) t layer) group (a % 2 ^ 32)
    else
      let r := s.readThrough (unitTeam t) a (n * vectors)
      if r.2.1 then r.2.2.seqFail x
      else if s.retainArea y.part < n * vectors + retainedBytes ((q.otherInputs y.id layer occ).filter (fun z => z.step == y.id))
      then r.2.2.retainOverflow y.id
      else (r.2.2.retain x y.part y.id layer r.1).vecInput x layer group a n vectors occ y r.1

/-- Inputs of `n` bytes more do not fit the retention area while older steps fill it (R163, R187). -/
def State.retainStall (s : State) (x n : Nat) (y : Step) (rest : List Retained) : Option (Nat × Nat × Nat) :=
  if rest.any (fun r => r.step != y.id) ∧ s.retainArea y.part < n + retainedBytes rest then some (3, 0, nobody) else none

/-- The stall of VEC: its placements', or a retention area that older steps still fill. -/
def State.vecStall (s : State) (x layer a vectors : Nat) : Option (Nat × Nat × Nat) :=
  match s.seqStep x with
  | none => none
  | some y =>
    if vectors = 0 then none else
    let l := harnessLayer (s.harness y.part) layer
    let n := mxSize l.inMx (l.rowSegs * 1024) * vectors
    let q := s.seq x
    firstStall [s.workStall true (stringPlaces (s.harness y.part) layer x),
      if s.reaches y.part a n then s.retainStall x n y (q.otherInputs y.id layer (q.occ y.id layer)) else none]

/-! ### Models on two planes (R188, R189) -/

/-- The placements of a model in a string. -/
def modelStringPlaces (h : List Nat) (m x : Nat) : List Place := (modelPlaces h m).filter (fun y => teamString y.team == x)

/-- A LOADM of a model is not complete. -/
def Seq.loads (q : Seq) (m : Nat) : Bool := q.loading.any (fun e => e.1 == m)

/-- LOADM: refused when a plane of the model is live; a resident model loads nothing. -/
def State.loadModel (s : State) (x m : Nat) (y : Step) : State :=
  let h := s.harness y.part
  if (harnessModel h m).home ≠ 2 then s else
  if (modelStringPlaces h m x).any s.placeLive then s.seqFault x 0x0D 0xFF 0xFF m
  else if (s.seq x).loads m then s
  else s.setSeqr x { s.seq x with loading := (s.seq x).loading ++ [(m, y.id)] }

/-- The records of a model's placements in a string, with their index in the staged copy. -/
def modelRecords (h : List Nat) (m x : Nat) : List (Nat × Place) :=
  let ps := modelPlaces h m
  ((List.range ps.length).zip ps).filter (fun e => teamString e.2.team == x)

/-- A staged record is written into its plane: read from this package's tier, or delivered from a neighbour's. A UE of
the copy fails the step (R274). -/
def State.loadRecord (s : State) (x unit : Nat) (remote : List (Nat × List Nat)) (e : Nat × Place) : State :=
  if remoteTier unit then
    match remote.find? (fun r => r.1 == e.1) with
    | some r => (s.roleWrite (unitTeam e.2.team) e.2.team e.2.role e.2.plane 0 (padTo recordBytes r.2)).showTeam e.2.team
    | none => s
  else
    let q := s.readThrough (unitTeam e.2.team) (stageAddr unit e.1) recordBytes
    if q.2.1 then q.2.2.seqFail x else (q.2.2.roleWrite (unitTeam e.2.team) e.2.team e.2.role e.2.plane 0 q.1).showTeam e.2.team

/-- SWAP and SWAPAT: an R74 swap of every role that holds a placement of the model, to that placement's plane. -/
def State.swapModel (s : State) (x m notBefore : Nat) (y : Step) : State :=
  let ps := modelStringPlaces (s.harness y.part) m x
  s.each (placeTeams ps) (fun s t =>
    let items := (ps.filter (fun z => z.team == t)).map (fun z => (z.role, z.plane))
    (s.setTeam t { s.team t with swaps := (s.team t).swaps ++ [⟨true, s.now, notBefore, items.eraseDups⟩] }).showTeam t)

/-- The stall of SWAP and SWAPAT: a LOADM of the same model, or another swap of one of its roles. -/
def State.swapStall (s : State) (x m : Nat) : Option (Nat × Nat × Nat) :=
  match s.seqStep x with
  | none => none
  | some y =>
    if (s.seq x).loads m then some (7, m, unitLoad (y.part + 1))
    else (modelStringPlaces (s.harness y.part) m x).findSome? (fun z =>
      if s.swapPending z.team z.role then some (8, z.role, unitTeam z.team) else none)

/-! ### The instructions -/

/-- An instruction that touches no tensor. -/
def touchNone (op : Nat) : Touch := ⟨op, [], []⟩

/-- NOP (R184). -/
def execNop (x : Nat) (s : State) : Host.Outcome State Fault Refusal := .next (s.issue x (touchNone 0x00) none Seq.advance id)

/-- LDA (R184): A(a) ← 8 bytes of the data area. -/
def execLda (x a off : Nat) (s : State) : Host.Outcome State Fault Refusal :=
  match s.seqStep x with
  | none => .next s
  | some y =>
    let b := s.dataStart y.part x + off
    .next (s.issue x ⟨0x01, [(s.progAddr x b, 8)], []⟩ none Seq.advance (fun s =>
      let r := s.readProg x b
      if r.2.1 then r.2.2.seqFail x else r.2.2.setSeqr x ((r.2.2.seq x).setA a r.1)))

/-- ADDA (R184): A(a) ← A(a) + IMM, 64 bits. -/
def execAdda (x a : Nat) (imm : Int) (s : State) : Host.Outcome State Fault Refusal :=
  .next (s.issue x (touchNone 0x02) none Seq.advance (fun s =>
    s.setSeqr x ((s.seq x).setA a (ofSigned 64 ((s.seq x).a a + imm)))))

/-- LOOP (R184). -/
def execLoop (x count len : Nat) (s : State) : Host.Outcome State Fault Refusal :=
  .next (s.issue x (touchNone 0x03) none (Seq.loop count len) id)

/-- GOPEN (R155, R156, R185, R525): the group described at A(a) is opened in a team of the string. -/
def execGopen (x team a : Nat) (s : State) : Host.Outcome State Fault Refusal :=
  match s.seqStep x with
  | none => .next s
  | some y =>
    let t := 24 * x + team % 24
    let d := (s.seq x).a a
    .next (s.issue x ⟨0x10, [(d, 64)], []⟩ none Seq.advance (fun s =>
      if !s.reaches y.part d 64 then s.seqFault x 0x08 0xFF 0xFF (d % 2 ^ 32) else
      let r := s.readThrough (unitString x) d 64
      if r.2.1 then r.2.2.seqFail x else (r.2.2.openGroup y.part t y.id (parseGroup r.1)).showTeam t))

/-- GCLOSE (R157): an OPEN group begins to close. -/
def execGclose (x team group : Nat) (s : State) : Host.Outcome State Fault Refusal :=
  let t := 24 * x + team % 24
  .next (s.issue x (touchNone 0x11) none Seq.advance (fun s =>
    let g := s.group t group
    if g.st = 1 then (s.setGroup t group { g with st := 2 }).showTeam t else s))

/-- GWAIT (R184): stall until the group is FREE. -/
def execGwait (x team group : Nat) (s : State) : Host.Outcome State Fault Refusal :=
  let t := 24 * x + team % 24
  .next (s.issue x (touchNone 0x12) (if (s.group t group).st = 0 then none else some (1, group, unitTeam t)) Seq.advance id)

/-- VEC (R177, R186, R187). -/
def execVec (x layer group a vectors : Nat) (s : State) : Host.Outcome State Fault Refusal :=
  match s.seqStep x with
  | none => .next s
  | some y =>
    let l := harnessLayer (s.harness y.part) layer
    let d := (s.seq x).a a
    .next (s.issue x ⟨0x20, [(d, mxSize l.inMx (l.rowSegs * 1024) * vectors)], []⟩ (s.vecStall x layer d vectors) Seq.advance
      (fun s => s.vec x layer group d vectors y))

/-- LOADM (R184, R188): it waits for a pending swap of a role that the model needs. -/
def execLoadm (x model : Nat) (s : State) : Host.Outcome State Fault Refusal :=
  match s.seqStep x with
  | none => .next s
  | some y =>
    .next (s.issue x (touchNone 0x38) (s.roleStall false (modelStringPlaces (s.harness y.part) model x)) Seq.advance
      (fun s => s.loadModel x model y))

/-- LOADM_COMPLETE (R188, R189, R260, R261): the staged records of the model's placements in the string are in their
planes; `remote` holds the records (by index) that a neighbour's tier delivered over a port that is UP. -/
def execLoadmComplete (x model : Nat) (remote : List (Nat × List Nat)) (s : State) : Host.Outcome State Fault Refusal :=
  match s.stringPart x with
  | none => .next s
  | some p =>
    if !(s.seq x).loads model then .next s else
    let h := s.harness p
    let unit := (harnessModel h model).stageUnit
    if remoteTier unit && !s.remoteUp unit then .next s else
    let s := s.each (modelRecords h model x) (fun s e => s.loadRecord x unit remote e)
    .next (s.setSeqr x { s.seq x with loading := (s.seq x).loading.filter (fun e => e.1 != model) })

/-- SWAP (R188). -/
def execSwapPlanes (x model : Nat) (s : State) : Host.Outcome State Fault Refusal :=
  match s.seqStep x with
  | none => .next s
  | some y => .next (s.issue x (touchNone 0x39) (s.swapStall x model) Seq.advance (fun s => s.swapModel x model 0 y))

/-- SWAPAT (R188, R189): the swap takes effect at the first boundary at or after the waymark in A(a); executed later than
100 ns before it, it takes effect at the next boundary and the completion reports SWAP_LATE. -/
def execSwapat (x model a : Nat) (s : State) : Host.Outcome State Fault Refusal :=
  match s.seqStep x with
  | none => .next s
  | some y =>
    let w := (s.seq x).a a
    .next (s.issue x (touchNone 0x3A) (s.swapStall x model) Seq.advance (fun s =>
      if w < s.now + 40 then (s.setSeqr x { s.seq x with swapLate := true }).swapModel x model 0 y
      else s.swapModel x model w y))

/-- SIGNAL (R184): a string's flag rises by 1, up to 255. -/
def execSignal (x str flag : Nat) (s : State) : Host.Outcome State Fault Refusal :=
  .next (s.issue x (touchNone 0x3B) none Seq.advance (fun s =>
    let q := s.seq str
    s.setSeqr str { q with flags := Map.modify 0 q.flags flag (fun v => min 255 (v + 1)),
                           signallers := Map.set 0 q.signallers flag (x + 1) }))

/-- WAITF (R184): stall until the flag is at least COUNT, then subtract COUNT. -/
def execWaitf (x flag count : Nat) (s : State) : Host.Outcome State Fault Refusal :=
  let q := s.seq x
  let by_ := Map.get 0 q.signallers flag
  .next (s.issue x (touchNone 0x3C)
    (if count ≤ Map.get 0 q.flags flag then none else some (2, flag, if by_ = 0 then nobody else unitSeq (by_ - 1)))
    Seq.advance (fun s =>
      let q := s.seq x
      s.setSeqr x { q with flags := Map.modify 0 q.flags flag (fun v => v - count) }))

/-- END (R184): idle until the next step record. -/
def execSeqEnd (x : Nat) (s : State) : Host.Outcome State Fault Refusal :=
  .next (s.issue x (touchNone 0x3F) none Seq.advance (fun s => (s.setSeqr x { s.seq x with ended := true }).startSeq x))

/-- BAD_INSTRUCTION_FETCH (R184, R274): the word at the code position lies at or beyond the end of the code, breaks the
rules of R184, or meets a UE. Where it does none of these the sequencer would execute it, and nothing happens here. -/
def execBadInstructionFetch (x : Nat) (s : State) : Host.Outcome State Fault Refusal :=
  match s.seqStep x with
  | none => .next s
  | some y =>
    if !s.canIssue x then .next s else
    let pos := (s.seq x).pos
    if s.codeLen y.part x ≤ pos then .next (s.seqFault x 0x0C 0xFF 0xFF pos) else
    let r := s.readProg x pos
    if r.2.1 then .next (r.2.2.seqFail x) else
    match decodeSeq r.1 with
    | none => .next (r.2.2.seqFault x 0x0C 0xFF 0xFF pos)
    | some op => .next (if op.legal then r.2.2 else r.2.2.seqFault x 0x0C 0xFF 0xFF pos)

end Sys2Proof.Machine
end

