-- ==== Sys2Proof/Machine/VectorUnit.lean ====
section
/-!
DEFINITION. The team vector unit (R161, R181, R182, R525). Every operation reads its operands, computes in FP32 and
writes its result when it issues; FUNC[7] (`half`) makes FP32 operands and results BF16 in memory.
-/
namespace Sys2Proof.Machine

/-! ### Operands -/

/-- Bytes of an element. -/
def elemBytes (half : Bool) : Nat := if half then 2 else 4

/-- The FP32 words of `n` elements. -/
def elems (half : Bool) (n : Nat) (b : List Nat) : List Nat :=
  (List.range n).map (fun i => if half then bf16Widen (field b (2 * i) 2) else field b (4 * i) 4)

/-- The bytes of FP32 words as stored: a BF16 result is rounded once. -/
def storeElems (half : Bool) (ws : List Nat) : List Nat :=
  (ws.map (fun w => if half then leBytes 2 (bf16Round w) else leBytes 4 w)).flatten

/-! ### Arithmetic (R182) -/

/-- Elementwise over two lists. -/
def zip2 (f : Nat → Nat → Nat) (as bs : List Nat) : List Nat := (as.zip bs).map (fun e => f e.1 e.2)

/-- The words of one lane, ascending. -/
def lane (ws : List Nat) (i : Nat) : List Nat :=
  (List.range ((ws.length + 255 - i) / 256)).map (fun j => ws.getD (256 * j + i) 0)

/-- One level of pairwise additions by index. -/
def pairUp : List Nat → List Nat
  | a :: b :: rest => fadd a b :: pairUp rest
  | rest => rest

/-- `n` levels of pairwise additions. -/
def pairLevels : Nat → List Nat → List Nat
  | 0, ws => ws
  | n + 1, ws => pairLevels n (pairUp ws)

/-- The sum of 256 lanes, each formed by `f` from +0, combined pairwise over eight levels. -/
def laneSum (f : Nat → Nat → Nat) (ws : List Nat) : Nat :=
  (pairLevels 8 ((List.range 256).map (fun i => (lane ws i).foldl f 0))).headD 0

/-- SUM (R182). -/
def vuSum (ws : List Nat) : Nat := laneSum fadd ws

/-- The sum of squares, one fused multiply-add per element. -/
def vuSumSq (ws : List Nat) : Nat := laneSum (fun acc w => ffma w w acc) ws

/-- RMSNORM: a × b ÷ √(mean(a²) + 2^−20), each operation rounded to FP32 in the order of the formula (DEDUCED, log 9). -/
def vuRmsNorm (as bs : List Nat) : List Nat :=
  let den := fsqrt (fadd (fdivNat (vuSumSq as) as.length) 0x35800000)
  zip2 (fun a b => fdiv (fmul a b) den) as bs

/-- SOFTMAX: e^(a − max a) ÷ Σ. -/
def vuSoftmax (as : List Nat) : List Nat :=
  let m := match as with | [] => 0 | a :: rest => rest.foldl fmax a
  let es := as.map (fun a => fexp (fsub a m))
  let t := vuSum es
  es.map (fun e => fdiv e t)

/-- ROPE on one pair. -/
def ropePair (a0 a1 th : Nat) : List Nat := [(frope a0 a1 th).1, (frope a0 a1 th).2]

/-- ROPE: adjacent pairs rotate; an odd last element stays. -/
def vuRope (as bs : List Nat) : List Nat :=
  ((List.range (as.length / 2)).map (fun k => ropePair (as.getD (2 * k) 0) (as.getD (2 * k + 1) 0) (bs.getD k 0))).flatten ++
  (if as.length % 2 = 1 then [as.getD (as.length - 1) 0] else [])

/-! ### One operation -/

/-- What an operation names: the ranges it reads and writes. All must lie where the partition reaches (R525). -/
def State.firstBad (s : State) (p : Nat) (rs : List (Nat × Nat)) : Option Nat :=
  (rs.find? (fun r => !s.reaches p r.1 r.2)).map (fun r => r.1)

/-- Several ranges read through the code by a unit: their bytes, whether one met a UE, the state after. -/
def State.readAll (s : State) (u : Nat) : List (Nat × Nat) → List (List Nat) × Bool × State
  | [] => ([], false, s)
  | r :: rs =>
    let a := s.readThrough u r.1 r.2
    let b := a.2.2.readAll u rs
    (a.1 :: b.1, a.2.1 || b.2.1, b.2.2)

/-- An operation of the vector unit of team `t`: `reads` its operand ranges, `dst` its result range, `f` the result's
bytes from the operands' bytes. -/
def State.vuRun (s : State) (x t : Nat) (y : Step) (reads : List (Nat × Nat)) (dst : Nat × Nat)
    (f : List (List Nat) → List Nat) (after : State → State) : State :=
  match s.firstBad y.part (reads ++ [dst]) with
  | some a => s.teamSeqFault x t 0x08 0xFF 0xFF (a % 2 ^ 32)
  | none =>
    let r := s.readAll (unitTeam t) reads
    if r.2.1 then r.2.2.seqFail x else after (r.2.2.writeThrough (unitTeam t) dst.1 (f r.1))

/-- A VU instruction on team-in-string `team`, issued with its operand ranges. -/
def State.vuIssue (s : State) (x team : Nat) (y : Step) (reads : List (Nat × Nat)) (dst : Nat × Nat)
    (f : List (List Nat) → List Nat) (after : State → State) : State :=
  let t := 24 * x + team % 24
  s.issue x ⟨0x30, reads, [dst]⟩ (s.queueStall t) Seq.advance (fun s => s.vuRun x t y reads dst f after)

/-- The counter of an elementwise operation (R501): 17 for FP32 operands, 18 for BF16. -/
def vuCount (half : Bool) : Nat := if half then 18 else 17

/-- An elementwise operation of one operand, `count` elements. -/
def State.vu1 (s : State) (x team : Nat) (half : Bool) (a d count cnt : Nat) (f : List Nat → List Nat) : State :=
  match s.seqStep x with
  | none => s
  | some y =>
    let q := s.seq x
    let n := elemBytes half * count
    s.vuIssue x team y [(q.a a, n)] (q.a d, n) (fun bs => storeElems half (f (elems half count (bs.getD 0 []))))
      (fun s => s.countOp x cnt count)

/-- An elementwise operation of two operands. -/
def State.vu2 (s : State) (x team : Nat) (half : Bool) (a b d count cnt : Nat) (f : List Nat → List Nat → List Nat) : State :=
  match s.seqStep x with
  | none => s
  | some y =>
    let q := s.seq x
    let n := elemBytes half * count
    s.vuIssue x team y [(q.a a, n), (q.a b, n)] (q.a d, n)
      (fun bs => storeElems half (f (elems half count (bs.getD 0 [])) (elems half count (bs.getD 1 []))))
      (fun s => s.countOp x cnt count)

/-- VU COPY: d ← a. -/
def execVuCopy (x team : Nat) (half : Bool) (a d count : Nat) (s : State) : Host.Outcome State Fault Refusal :=
  .next (s.vu1 x team half a d count (vuCount half) id)

/-- VU ADD: d ← a + b. -/
def execVuAdd (x team : Nat) (half : Bool) (a b d count : Nat) (s : State) : Host.Outcome State Fault Refusal :=
  .next (s.vu2 x team half a b d count (vuCount half) (zip2 fadd))

/-- VU MUL: d ← a × b. -/
def execVuMul (x team : Nat) (half : Bool) (a b d count : Nat) (s : State) : Host.Outcome State Fault Refusal :=
  .next (s.vu2 x team half a b d count (vuCount half) (zip2 fmul))

/-- VU FMA: d ← a × b + d, fused. -/
def execVuFma (x team : Nat) (half : Bool) (a b d count : Nat) (s : State) : Host.Outcome State Fault Refusal :=
  match s.seqStep x with
  | none => .next s
  | some y =>
    let q := s.seq x
    let n := elemBytes half * count
    .next (s.vuIssue x team y [(q.a a, n), (q.a b, n), (q.a d, n)] (q.a d, n)
      (fun bs => storeElems half
        (((elems half count (bs.getD 0 [])).zip ((elems half count (bs.getD 1 [])).zip (elems half count (bs.getD 2 [])))).map
          (fun e => ffma e.1 e.2.1 e.2.2)))
      (fun s => s.countOp x (vuCount half) count))

/-- VU MAX: d ← max(a, b). -/
def execVuMax (x team : Nat) (half : Bool) (a b d count : Nat) (s : State) : Host.Outcome State Fault Refusal :=
  .next (s.vu2 x team half a b d count (vuCount half) (zip2 fmax))

/-- VU SUM: d[0] ← Σ a. -/
def execVuSum (x team : Nat) (half : Bool) (a d count : Nat) (s : State) : Host.Outcome State Fault Refusal :=
  match s.seqStep x with
  | none => .next s
  | some y =>
    let q := s.seq x
    .next (s.vuIssue x team y [(q.a a, elemBytes half * count)] (q.a d, elemBytes half)
      (fun bs => storeElems half [vuSum (elems half count (bs.getD 0 []))]) (fun s => s.countOp x (vuCount half) count))

/-- VU EXP: d ← e^a. -/
def execVuExp (x team : Nat) (half : Bool) (a d count : Nat) (s : State) : Host.Outcome State Fault Refusal :=
  .next (s.vu1 x team half a d count 19 (fun as => as.map fexp))

/-- VU RSQRT: d ← 1 ÷ √a. -/
def execVuRsqrt (x team : Nat) (half : Bool) (a d count : Nat) (s : State) : Host.Outcome State Fault Refusal :=
  .next (s.vu1 x team half a d count 19 (fun as => as.map frsqrt))

/-- VU RECIP: d ← 1 ÷ a. -/
def execVuRecip (x team : Nat) (half : Bool) (a d count : Nat) (s : State) : Host.Outcome State Fault Refusal :=
  .next (s.vu1 x team half a d count 19 (fun as => as.map frecip))

/-- VU SILU: d ← a ÷ (1 + e^−a). -/
def execVuSilu (x team : Nat) (half : Bool) (a d count : Nat) (s : State) : Host.Outcome State Fault Refusal :=
  .next (s.vu1 x team half a d count 19 (fun as => as.map fsilu))

/-- VU GELU, tanh form. -/
def execVuGelu (x team : Nat) (half : Bool) (a d count : Nat) (s : State) : Host.Outcome State Fault Refusal :=
  .next (s.vu1 x team half a d count 19 (fun as => as.map fgelu))

/-- VU RMSNORM. -/
def execVuRmsnorm (x team : Nat) (half : Bool) (a b d count : Nat) (s : State) : Host.Outcome State Fault Refusal :=
  .next (s.vu2 x team half a b d count 19 vuRmsNorm)

/-- VU SOFTMAX. -/
def execVuSoftmax (x team : Nat) (half : Bool) (a d count : Nat) (s : State) : Host.Outcome State Fault Refusal :=
  .next (s.vu1 x team half a d count 19 vuSoftmax)

/-- VU ROPE: b holds ⌊COUNT ÷ 2⌋ angles. -/
def execVuRope (x team : Nat) (half : Bool) (a b d count : Nat) (s : State) : Host.Outcome State Fault Refusal :=
  match s.seqStep x with
  | none => .next s
  | some y =>
    let q := s.seq x
    let n := elemBytes half
    .next (s.vuIssue x team y [(q.a a, n * count), (q.a b, n * (count / 2))] (q.a d, n * count)
      (fun bs => storeElems half (vuRope (elems half count (bs.getD 0 [])) (elems half (count / 2) (bs.getD 1 []))))
      (fun s => s.countOp x 19 count))

/-! ### GATHER and SCATTER -/

/-- The address that an INT32 index selects from a base; none where it lies below 0. -/
def indexAddr (base ew idx : Nat) : Option Nat :=
  let a : Int := base + ew * toSigned 32 idx
  if a < 0 then none else some a.toNat

/-- The addresses that `n` INT32 indexes select. -/
def indexAddrs (base ew n : Nat) (b : List Nat) : List (Option Nat) :=
  (List.range n).map (fun i => indexAddr base ew (field b (4 * i) 4))

/-- The elements that the indexes at `b` select from a base, as the ranges that a breakpoint compares (R490). -/
def State.indexed (s : State) (half : Bool) (count base b : Nat) : List (Nat × Nat) :=
  (indexAddrs base (elemBytes half) count (s.codedBytes b (4 * count))).filterMap (fun o => o.map (fun a => (a, elemBytes half)))

/-- The first selected address out of the partition's reach, with its low bits; 0 for one below 0. -/
def State.badIndex (s : State) (p ew : Nat) (as : List (Option Nat)) : Option Nat :=
  as.findSome? (fun a => match a with
    | none => some 0
    | some a => if s.reaches p a ew then none else some a)

/-- The body of GATHER. -/
def State.gather (s : State) (x t : Nat) (y : Step) (half : Bool) (a b d count : Nat) : State :=
  let ew := elemBytes half
  match s.firstBad y.part [(b, 4 * count), (d, ew * count)] with
  | some z => s.teamSeqFault x t 0x08 0xFF 0xFF (z % 2 ^ 32)
  | none =>
    let r := s.readThrough (unitTeam t) b (4 * count)
    if r.2.1 then r.2.2.seqFail x else
    let as := indexAddrs a ew count r.1
    match r.2.2.badIndex y.part ew as with
    | some z => r.2.2.teamSeqFault x t 0x08 0xFF 0xFF (z % 2 ^ 32)
    | none =>
      let q := r.2.2.readAll (unitTeam t) (as.map (fun o => (o.getD 0, ew)))
      if q.2.1 then q.2.2.seqFail x else
      (q.2.2.writeThrough (unitTeam t) d (storeElems half (elems half count q.1.flatten))).countOp x (vuCount half) count

/-- The body of SCATTER: where two indices coincide the element from the higher i stays. -/
def State.scatter (s : State) (x t : Nat) (y : Step) (half : Bool) (a b d count : Nat) : State :=
  let ew := elemBytes half
  match s.firstBad y.part [(a, ew * count), (b, 4 * count)] with
  | some z => s.teamSeqFault x t 0x08 0xFF 0xFF (z % 2 ^ 32)
  | none =>
    let r := s.readAll (unitTeam t) [(a, ew * count), (b, 4 * count)]
    if r.2.1 then r.2.2.seqFail x else
    let ds := indexAddrs d ew count (r.1.getD 1 [])
    match r.2.2.badIndex y.part ew ds with
    | some z => r.2.2.teamSeqFault x t 0x08 0xFF 0xFF (z % 2 ^ 32)
    | none =>
      let ws := elems half count (r.1.getD 0 [])
      (r.2.2.each (ds.zip ws) (fun s e => s.writeThrough (unitTeam t) (e.1.getD 0) (storeElems half [e.2]))).countOp x (vuCount half) count

/-- VU GATHER: d[i] ← a[b[i]], b INT32. -/
def execVuGather (x team : Nat) (half : Bool) (a b d count : Nat) (s : State) : Host.Outcome State Fault Refusal :=
  match s.seqStep x with
  | none => .next s
  | some y =>
    let q := s.seq x
    let t := 24 * x + team % 24
    let n := elemBytes half * count
    .next (s.issue x ⟨0x30, (q.a b, 4 * count) :: s.indexed half count (q.a a) (q.a b), [(q.a d, n)]⟩ (s.queueStall t) Seq.advance
      (fun s => s.gather x t y half (q.a a) (q.a b) (q.a d) count))

/-- VU SCATTER: d[b[i]] ← a[i], b INT32. -/
def execVuScatter (x team : Nat) (half : Bool) (a b d count : Nat) (s : State) : Host.Outcome State Fault Refusal :=
  match s.seqStep x with
  | none => .next s
  | some y =>
    let q := s.seq x
    let t := 24 * x + team % 24
    let n := elemBytes half * count
    .next (s.issue x ⟨0x30, [(q.a a, n), (q.a b, 4 * count)], s.indexed half count (q.a d) (q.a b)⟩ (s.queueStall t) Seq.advance
      (fun s => s.scatter x t y half (q.a a) (q.a b) (q.a d) count))

/-! ### MX conversions (R139, R161) -/

/-- VU TO_MX: `count` elements at a to MX format `fmt` at d. -/
def execVuToMx (x team : Nat) (half : Bool) (fmt a d count : Nat) (s : State) : Host.Outcome State Fault Refusal :=
  match s.seqStep x with
  | none => .next s
  | some y =>
    let q := s.seq x
    let t := 24 * x + team % 24
    let f := fmt % 6
    let src := (q.a a, elemBytes half * count)
    let dst := (q.a d, mxSize f count)
    .next (s.issue x ⟨0x30, [src], [dst]⟩ (s.queueStall t) Seq.advance (fun s =>
      match s.firstBad y.part [src, dst] with
      | some z => s.teamSeqFault x t 0x08 0xFF 0xFF (z % 2 ^ 32)
      | none =>
        let r := s.readThrough (unitTeam t) src.1 src.2
        if r.2.1 then r.2.2.seqFail x else
        let m := mxTensor f (fun _ => 0) ((elems half count r.1).map f32ForMx)
        let s := r.2.2.writeThrough (unitTeam t) dst.1 m.1
        (((s.bumpTeam t Reg.accOutSat m.2.1.sum).bumpTeam t Reg.accOutUfl m.2.2).countOp x 22 count).showTeam t))

/-- The FP32 words of an MX tensor. -/
def fromMx (f n : Nat) (b : List Nat) : List Nat := (List.range n).map (fun i => (mxAt f n b i).toF32 0 0)

/-- VU FROM_MX: MX format `fmt` at a to `count` elements at d. -/
def execVuFromMx (x team : Nat) (half : Bool) (fmt a d count : Nat) (s : State) : Host.Outcome State Fault Refusal :=
  match s.seqStep x with
  | none => .next s
  | some y =>
    let q := s.seq x
    let f := fmt % 6
    .next (s.vuIssue x team y [(q.a a, mxSize f count)] (q.a d, elemBytes half * count)
      (fun bs => storeElems half (fromMx f count (bs.getD 0 []))) (fun s => s.countOp x 23 count))

end Sys2Proof.Machine
end

