-- ==== Sys2Proof/Machine/Attention.lean ====
section
/-!
DEFINITION. The attention passes (R194, R201 to R209, R211, R214, R217, R223): SCORE and VALUE over the pages of a
sequence in one cache.
-/
namespace Sys2Proof.Machine

/-! ### The descriptor (R201) -/

structure AttnDesc where
  cache : Nat
  layer : Nat
  append : Bool
  causal : Bool
  slot : Nat
  scale : Nat
  columns : Nat
  newK : Nat
  newV : Nat
  sram : Nat
  sramBytes : Nat
  dramBytes : Nat
  dram : Nat
  scoreAt : Nat

def parseAttn (b : List Nat) : AttnDesc :=
  { cache := field b 0 2, layer := field b 2 1, append := (field b 3 1).testBit 0, causal := (field b 3 1).testBit 1,
    slot := field b 4 2, scale := field b 8 4, columns := field b 12 4, newK := field b 16 8, newV := field b 24 8,
    sram := field b 32 8, sramBytes := field b 40 4, dramBytes := field b 44 4, dram := field b 48 8, scoreAt := field b 56 8 }

/-- The shape of a cache (R191). -/
structure CacheShape where
  first : Nat
  layers : Nat
  heads : Nat
  gqa : Nat
  dim : Nat
  fmt : Nat

def State.cacheShape (s : State) (p c : Nat) : CacheShape :=
  { first := s.cacheRec p c 0 2, layers := s.cacheRec p c 2 1, heads := s.cacheRec p c 3 1, gqa := s.cacheRec p c 5 1,
    dim := 32 * 2 ^ s.cacheRec p c 6 1, fmt := s.cacheRec p c 7 1 }

/-- The layer of the pass is spread by position (R174, KV_SPREAD). -/
def State.byPosition (s : State) (p : Nat) (c : CacheShape) (layer : Nat) : Bool :=
  (harnessLayer (s.harness p) (c.first + layer)).spreadPos

/-! ### Bytes of a page (R194) -/

/-- The tensor ranges of `n` bytes of a page from byte `off` of its frame, each with its offset among the bytes: an SRAM
frame lies over several banks. -/
def State.pageSpans (s : State) (p : Nat) (x : Page) (off n : Nat) : List (Nat × Nat × Nat) :=
  let m := 0x40000 - (x.frame * s.frameBytes p + off) % 0x40000
  if x.tier ≠ 0 then [(s.frameByte p x.tier x.str x.frame off, n, 0)] else
  ((List.range (n / 0x40000 + 2)).map (fun i =>
    let b := if i = 0 then 0 else m + (i - 1) * 0x40000
    (s.frameByte p 0 x.str x.frame (off + b), min (if i = 0 then m else 0x40000) (n - b), b))).filter (fun r => r.2.1 != 0)

/-- Bytes written to a page by a unit. -/
def State.writePage (s : State) (u p : Nat) (x : Page) (off : Nat) (b : List Nat) : State :=
  s.each (s.pageSpans p x off b.length) (fun s r => s.writeThrough u r.1 (slice b r.2.2 r.2.1))

/-- Bytes read from a page by a unit: the bytes, UE, the state after. -/
def State.readPage (s : State) (u p : Nat) (x : Page) (off n : Nat) : List Nat × Bool × State :=
  let r := s.readAll u ((s.pageSpans p x off n).map (fun e => (e.1, e.2.1)))
  (r.1.flatten, r.2.1, r.2.2)

/-- Where the key (kind 0) or value (kind 1) tensor of a held layer and head stands in a page of 2^log2 positions. -/
def kvOffset (c : CacheShape) (log2 layer head kind : Nat) : Nat :=
  4 * 2 ^ log2 + ((layer * c.heads + head) * 2 + kind) * mxSize c.fmt (2 ^ log2 * c.dim)

/-- Where position entry `i` stands in such a tensor: its element bytes and its scale codes, each with its length. -/
def entrySpans (c : CacheShape) (log2 layer head kind i : Nat) : (Nat × Nat) × (Nat × Nat) :=
  let o := kvOffset c log2 layer head kind
  let n := c.dim / 32
  ((o + i * (n * mxBlockBytes c.fmt), n * mxBlockBytes c.fmt),
   (o + mxElemBytes c.fmt (2 ^ log2 * c.dim) + i * n, n))

/-- The FP32 words of a vector from its element bytes and scale codes. -/
def mxVector (f d : Nat) (els scales : List Nat) : List Nat :=
  (List.range d).map (fun j =>
    let w := mxWidth f
    (mxScaled f (scales.getD (j / 32) 0) (field els (j / 32 * mxBlockBytes f) (mxBlockBytes f) / 2 ^ (w * (j % 32)) % 2 ^ w)).toF32 0 0)

/-! ### Columns (R203) -/

/-- A column: its page, the index in the page, its position, and whether it is committed for the sequence. -/
structure Col where
  page : Nat
  idx : Nat
  pos : Nat
  committed : Bool
  deriving DecidableEq

/-- The visible entries of a table entry's page (R203 step 2); its own tentative ones when the sequence alone refers to it. -/
def State.visible (s : State) (p key : Nat) (e : Entry) : List Col :=
  let x := s.page p e.page
  let n := e.view + if x.refs = 1 ∧ x.owner = key + 1 then x.tentative else 0
  (List.range n).map (fun i => ⟨e.page, i, e.firstPos + i, decide (i < e.view)⟩)

/-- The column set of a sequence in a cache, in ascending position. -/
def State.columnsOf (s : State) (p slot c : Nat) : List Col := ((s.seqTab p slot c).entries.map (s.visible p (seqKey p slot c))).flatten

/-- The entry of a position. -/
def State.entryAt (s : State) (p slot c pos : Nat) : Option Entry :=
  (s.seqTab p slot c).entries.find? (fun e => decide (e.firstPos ≤ pos ∧ pos < e.firstPos + 2 ^ e.log2))

/-! ### Append (R203 step 1, R214) -/

/-- One position's keys and values of one row are written as a tentative entry; its importance starts at 0. -/
def State.appendRow (s : State) (t p slot : Nat) (d : AttnDesc) (c : CacheShape) (ks vs : List Nat) (n pos r : Nat) : State :=
  match s.entryAt p slot d.cache pos with
  | none => s
  | some e =>
    let x := s.page p e.page
    if x.refs ≠ 1 then s else
    let i := pos - e.firstPos
    let m := c.dim / 32
    let put := fun (s : State) (h kind : Nat) (b : List Nat) =>
      let blk := (r * c.heads + h) * m
      let sp := entrySpans c e.log2 d.layer h kind i
      (s.writePage (unitTeam t) p x sp.1.1 (slice b (blk * mxBlockBytes c.fmt) sp.1.2)).writePage (unitTeam t) p x sp.2.1
        (slice b (mxElemBytes c.fmt (n * c.heads * c.dim) + blk) sp.2.2)
    let s := s.each (List.range c.heads) (fun s h => put (put s h 0 ks) h 1 vs)
    let s := s.writePage (unitTeam t) p x (4 * i) (zeros 4)
    s.setPage p e.page { s.page p e.page with tentative := max x.tentative (i + 1 - e.view), owner := seqKey p slot d.cache + 1 }

/-- The rows of a step appended in order. -/
def State.appendRows (s : State) (t p slot : Nat) (d : AttnDesc) (c : CacheShape) (n : Nat) (ks vs : List Nat) : State :=
  let base := (s.seqTab p slot d.cache).nextPos
  s.each (List.range n) (fun s r => s.appendRow t p slot d c ks vs n (base + r) r)

/-! ### Reading keys and values (R223) -/

/-- A page met an uncorrectable block, or was POISONED before: POISONED, KV_ERR.POISON, and the step fails. -/
def State.poisonRead (s : State) (x p id : Nat) : State :=
  ((s.setPage p id { s.page p id with st := .poisoned }).raise Reg.kvErrPoison).seqFail x

/-- The vectors of a list of columns for one head and kind. Where a page fails, the page. -/
def State.colVectors (s : State) (t p : Nat) (c : CacheShape) (layer head kind : Nat) :
    List Col → List (List Nat) × Option Nat × State
  | [] => ([], none, s)
  | k :: ks =>
    let x := s.page p k.page
    if x.st = .poisoned then ([], some k.page, s) else
    let sp := entrySpans c x.log2 layer head kind k.idx
    let a := s.readPage (unitTeam t) p x sp.1.1 sp.1.2
    let b := a.2.2.readPage (unitTeam t) p x sp.2.1 sp.2.2
    if a.2.1 || b.2.1 then ([], some k.page, b.2.2) else
    let r := b.2.2.colVectors t p c layer head kind ks
    (mxVector c.fmt c.dim a.1 b.1 :: r.1, r.2.1, r.2.2)

/-- The vectors of every head. -/
def State.headVectors (s : State) (t p : Nat) (c : CacheShape) (layer kind : Nat) (ks : List Col) :
    List Nat → List (List (List Nat)) × Option Nat × State
  | [] => ([], none, s)
  | h :: hs =>
    let a := s.colVectors t p c layer h kind ks
    match a.2.1 with
    | some bad => ([], some bad, a.2.2)
    | none =>
      let b := a.2.2.headVectors t p c layer kind ks hs
      (a.1 :: b.1, b.2.1, b.2.2)

/-! ### Arithmetic (R205) -/

/-- q · k: the products added pairwise by index, level by level. -/
def dot (q k : List Nat) : Nat := (pairLevels (Nat.log2 q.length) (zip2 fmul q k)).headD 0

def negInf : Nat := 0xFF800000

/-- (m, s) after one more column. A column at −∞ adds nothing, so that s is 0 where every column is masked. -/
def statStep (q : Nat × Nat) (x : Nat) : Nat × Nat :=
  if x = negInf then q
  else if (f32 q.1).lt (f32 x) then (x, fadd (fmul q.2 (sexp (fsub q.1 x))) 0x3F800000)
  else (q.1, fadd q.2 (sexp (fsub x q.1)))

/-- p = e^(x − m) ÷ s; zeros in a row with s = 0. -/
def normal (x m s : Nat) : Nat := if s % 2 ^ 31 = 0 then 0 else fnormalise x m s

/-- A word as it reads back from memory. -/
def stored (half : Bool) (w : Nat) : Nat := if half then bf16Widen (bf16Round w) else w

/-- The scores x of one score row: `row` of `c.heads * c.gqa` per query row. -/
def scoreRow (d : AttnDesc) (c : CacheShape) (next : Nat) (ks : List Col) (keys : List (List (List Nat))) (row : Nat)
    (q : List Nat) : List Nat :=
  let r := row / (c.heads * c.gqa)
  let h := row / c.gqa % c.heads
  (ks.zip (keys.getD h [])).map (fun e =>
    if d.causal ∧ next + r < e.1.pos then negInf else fmul d.scale (dot q e.2))

/-! ### Refusals (R207) -/

/-- The operation is refused: KV_ERR.DESC, a TEAM_FAULT record, and the step fails. -/
def State.kvRefuse (s : State) (x t desc : Nat) : State :=
  (s.raise Reg.kvErrDesc).teamSeqFault x t 0x06 0xFF 0xFF (desc % 2 ^ 32)

/-- The descriptor and COUNT are acceptable for the executing team. -/
def State.attnOk (s : State) (p t n : Nat) (d : AttnDesc) : Bool :=
  decide (1 ≤ n ∧ n ≤ 1024) && decide (d.cache < s.cacheCount p) && s.cacheHolder p d.cache == t &&
  decide (d.layer < (s.cacheShape p d.cache).layers) && decide (d.slot < s.slotCount p)

/-- Every range is empty or within reach. -/
def State.allReach (s : State) (p : Nat) (rs : List (Nat × Nat)) : Bool := rs.all (fun r => s.reaches p r.1 r.2)

/-- Score rows of a pass. -/
def attnRows (c : CacheShape) (n : Nat) : Nat := n * c.heads * c.gqa

/-- The row stride of a score page of N columns. -/
def scoreStride (half : Bool) (n : Nat) : Nat := up64 (n * elemBytes half)

/-! ### SCORE (R203) -/

/-- VALUE has completed: the pins of the SCOREs with its descriptor are released (R206). -/
def State.dropScore (s : State) (id desc : Nat) : State :=
  match s.step? id with
  | none => s
  | some y =>
    let s := s.each (y.scores.filter (fun e => e.desc == desc)) (fun s e => s.each e.pages (fun s pg => s.unpin y.part pg))
    s.modStep id (fun y => { y with scores := y.scores.filter (fun e => e.desc != desc) })

/-- The step's work for a slot carries the slot's present GEN; page actions of other work are discarded (R234). -/
def State.genNow (s : State) (y : Step) (slot : Nat) : Bool :=
  y.seqs.all (fun e => e.slot != slot || e.gen == (s.slot (s.globalSlot y.part slot)).gen)

/-- The score page, its statistics and the descriptor's device fields, once the keys have been read. -/
def State.scoreWrite (s : State) (t at_ da dd n : Nat) (half byPos : Bool) (d : AttnDesc) (c : CacheShape) (next : Nat)
    (ks : List Col) (keys : List (List (List Nat))) (qs : List Nat) : State :=
  let rows := List.range (attnRows c n)
  let res := rows.map (fun row =>
    let xs := scoreRow d c next ks keys row ((List.range c.dim).map (fun j => qs.getD (row * c.dim + j) 0))
    (xs, xs.foldl statStep (negInf, 0)))
  let s := s.each (rows.zip res) (fun s e =>
    let m := e.2.2.1
    let q := e.2.2.2
    let ps := if byPos then e.2.1 else e.2.1.map (fun x => normal (stored half x) m q)
    s.writeThrough (unitTeam t) (at_ + e.1 * scoreStride half ks.length) (storeElems half ps))
  let s := s.writeThrough (unitTeam t) dd (storeElems half (res.map (fun e => [e.2.1, e.2.2])).flatten)
  (s.writeThrough (unitTeam t) (da + 12) (leBytes 4 ks.length)).writeThrough (unitTeam t) (da + 56) (leBytes 8 at_)

/-- SCORE once its descriptor is accepted: append, columns, pins, score page. -/
def State.scoreRun (s : State) (x t : Nat) (y : Step) (half : Bool) (aa da dd n : Nat) (d : AttnDesc) : State :=
  let p := y.part
  let c := s.cacheShape p d.cache
  let kvb := mxSize c.fmt (n * c.heads * c.dim)
  let nk := s.readAll (unitTeam t) (if d.append then [(d.newK, kvb), (d.newV, kvb)] else [])
  if nk.2.1 then nk.2.2.seqFail x else
  let s := nk.2.2
  let next := (s.seqTab p d.slot d.cache).nextPos
  let mine := s.genNow y d.slot
  let app := if d.append && mine then (List.range n).filterMap (fun r => (s.entryAt p d.slot d.cache (next + r)).map (·.page)) else []
  let s := if d.append && mine then s.appendRows t p d.slot d c n (nk.1.getD 0 []) (nk.1.getD 1 []) else s
  let ks := if mine then s.columnsOf p d.slot d.cache else []
  let bytes := attnRows c n * scoreStride half ks.length
  match (if bytes ≤ d.sramBytes then some d.sram else if bytes ≤ d.dramBytes then some d.dram else none) with
  | none => (s.raise Reg.kvErrScoreSpace).teamSeqFault x t 0x05 0xFF 0xFF (bytes % 2 ^ 32)
  | some at_ =>
    let pages : List Nat := (ks.map (·.page) ++ app).eraseDups
    let s := s.each pages (fun s pg => s.pin p pg)
    let cols := ks.map (fun k => (k.page, k.idx, k.pos, k.committed))
    let s := s.modStep y.id (fun z => { z with scores := z.scores ++ [⟨da, seqKey p d.slot d.cache, pages, cols⟩] })
    let q := s.readThrough (unitTeam t) aa (attnRows c n * c.dim * elemBytes half)
    if q.2.1 then q.2.2.seqFail x else
    let kv := q.2.2.headVectors t p c d.layer 0 ks (List.range c.heads)
    match kv.2.1 with
    | some bad => kv.2.2.poisonRead x p bad
    | none =>
      (kv.2.2.scoreWrite t at_ da dd n half (s.byPosition p c d.layer) d c next ks kv.1
        (elems half (attnRows c n * c.dim) q.1)).countOp x 20 1

/-- The ranges that a descriptor names (R207): NEW_K and NEW_V of `n` rows, and the two score areas. -/
def AttnDesc.ranges (d : AttnDesc) (c : CacheShape) (n : Nat) : List (Nat × Nat) :=
  let kvb := mxSize c.fmt (n * c.heads * c.dim)
  [(d.newK, kvb), (d.newV, kvb), (d.sram, d.sramBytes), (d.dram, d.dramBytes)]

/-- The body of SCORE. -/
def State.score (s : State) (x t : Nat) (y : Step) (half : Bool) (aa da dd n : Nat) : State :=
  let p := y.part
  if !s.reaches p da 64 then s.kvRefuse x t da else
  let r := s.readThrough (unitTeam t) da 64
  if r.2.1 then r.2.2.seqFail x else
  let d := parseAttn r.1
  let s := r.2.2
  let c := s.cacheShape p d.cache
  if !s.attnOk p t n d || !s.allReach p ((aa, attnRows c n * c.dim * elemBytes half) :: (dd, attnRows c n * 2 * elemBytes half) ::
      d.ranges c n)
  then s.kvRefuse x t da
  else s.scoreRun x t y half aa da dd n d

/-- What SCORE touches through its operands (R490): queries, descriptor, NEW_K and NEW_V; the statistics, the score page and the
descriptor's device fields. One that is refused reads its descriptor alone. -/
def State.scoreTouch (s : State) (t : Nat) (y : Step) (half : Bool) (aa da dd n : Nat) : Touch :=
  let p := y.part
  let d := parseAttn (s.codedBytes da 64)
  let c := s.cacheShape p d.cache
  if !s.reaches p da 64 || !s.attnOk p t n d then ⟨0x30, [(da, 64)], []⟩ else
  let kvb := mxSize c.fmt (n * c.heads * c.dim)
  let mine := s.genNow y d.slot
  let s' := if d.append && mine then s.appendRows t p d.slot d c n [] [] else s
  let cols := if mine then (s'.columnsOf p d.slot d.cache).length else 0
  let bytes := attnRows c n * scoreStride half cols
  let page : List (Nat × Nat) :=
    if bytes ≤ d.sramBytes then [(d.sram, bytes)] else if bytes ≤ d.dramBytes then [(d.dram, bytes)] else []
  ⟨0x30, [(aa, attnRows c n * c.dim * elemBytes half), (da, 64)] ++ (if d.append then [(d.newK, kvb), (d.newV, kvb)] else []) ++
      (if s.byPosition p c d.layer then [] else page),
    [(dd, attnRows c n * 2 * elemBytes half), (da + 12, 4), (da + 56, 8)] ++ page⟩

/-- VU SCORE (R203): A(a) queries, A(b) descriptor, A(d) statistics, COUNT query rows. -/
def execVuScore (x team : Nat) (half : Bool) (a b d count : Nat) (s : State) : Host.Outcome State Fault Refusal :=
  match s.seqStep x with
  | none => .next s
  | some y =>
    let q := s.seq x
    let t := 24 * x + team % 24
    .next (s.issue x (s.scoreTouch t y half (q.a a) (q.a b) (q.a d) count) (s.queueStall t) Seq.advance
      (fun s => s.score x t y half (q.a a) (q.a b) (q.a d) count))

/-! ### VALUE (R204) -/

/-- Importance of one committed column (R217): p of every score row, in score-row order. A UE of its read poisons the page and
fails the step (R223). -/
def State.addImportance (s : State) (x t p : Nat) (decay : Nat) (k : Col) (ps : List Nat) : State :=
  if !k.committed || (s.seqStep x).isNone then s else
  let y := s.page p k.page
  let r := s.readPage (unitTeam t) p y (4 * k.idx) 4
  if r.2.1 then r.2.2.poisonRead x p k.page else
  r.2.2.writePage (unitTeam t) p y (4 * k.idx) (leBytes 4 (importanceWord (leValue r.1) decay ps))

/-- VALUE once accepted: normalise where the cache is spread by position, form the outputs, update the importance. -/
def State.valueRun (s : State) (x t : Nat) (y : Step) (half : Bool) (aa da dd n : Nat) (d : AttnDesc) (sc : ScoreRec) : State :=
  let p := y.part
  let c := s.cacheShape p d.cache
  let rows := attnRows c n
  let ks : List Col := (sc.cols.map (fun k => ⟨k.1, k.2.1, k.2.2.1, k.2.2.2 && s.genNow y d.slot⟩)).take d.columns
  let stride := scoreStride half d.columns
  let sp := s.readThrough (unitTeam t) d.scoreAt (rows * stride)
  let byPos := s.byPosition p c d.layer
  let st := if byPos then sp.2.2.readThrough (unitTeam t) aa (rows * 2 * elemBytes half) else ([], false, sp.2.2)
  if sp.2.1 || st.2.1 then st.2.2.seqFail x else
  let kv := st.2.2.headVectors t p c d.layer 1 ks (List.range c.heads)
  match kv.2.1 with
  | some bad => kv.2.2.poisonRead x p bad
  | none =>
    let stats := elems half (rows * 2) st.1
    let page := (List.range rows).map (fun row =>
      let xs := elems half ks.length (slice sp.1 (row * stride) (ks.length * elemBytes half))
      if byPos then xs.map (fun v => stored half (normal v (stats.getD (2 * row) 0) (stats.getD (2 * row + 1) 0))) else xs)
    let s := if byPos then kv.2.2.each ((List.range rows).zip page) (fun s e =>
        s.writeThrough (unitTeam t) (d.scoreAt + e.1 * stride) (storeElems half e.2)) else kv.2.2
    let outs := ((List.range rows).zip page).map (fun e =>
      let vs := kv.1.getD (e.1 / c.gqa % c.heads) []
      (List.range c.dim).map (fun j => (e.2.zip vs).foldl (fun acc v => ffma v.1 (v.2.getD j 0) acc) 0))
    let s := s.writeThrough (unitTeam t) dd (storeElems half outs.flatten)
    let s := s.each ((List.range ks.length).zip ks) (fun s e =>
      s.addImportance x t p (s.cacheRec p d.cache 13 1 % 16) e.2 (page.map (fun r => r.getD e.1 0)))
    (s.dropScore y.id da).countOp x 21 1

/-- The body of VALUE. -/
def State.value (s : State) (x t : Nat) (y : Step) (half : Bool) (aa da dd n : Nat) : State :=
  let p := y.part
  if !s.reaches p da 64 then s.kvRefuse x t da else
  let r := s.readThrough (unitTeam t) da 64
  if r.2.1 then r.2.2.seqFail x else
  let d := parseAttn r.1
  let s := r.2.2
  let c := s.cacheShape p d.cache
  let rows := attnRows c n
  let mine := match s.step? y.id with | some z => z.scores.reverse.find? (fun e => e.desc == da) | none => none
  if !s.attnOk p t n d || !s.allReach p ((aa, rows * 2 * elemBytes half) :: (dd, rows * c.dim * elemBytes half) ::
      (d.scoreAt, rows * scoreStride half d.columns) :: d.ranges c n)
  then s.kvRefuse x t da
  else match mine with
    | none => s.kvRefuse x t da
    | some sc => s.valueRun x t y half aa da dd n d sc

/-- What VALUE touches through its operands (R490): descriptor, score page and, where it normalises, the statistics; its output. -/
def State.valueTouch (s : State) (t : Nat) (y : Step) (half : Bool) (aa da dd n : Nat) : Touch :=
  let p := y.part
  let d := parseAttn (s.codedBytes da 64)
  let c := s.cacheShape p d.cache
  if !s.reaches p da 64 || !s.attnOk p t n d then ⟨0x30, [(da, 64)], []⟩ else
  let page := (d.scoreAt, attnRows c n * scoreStride half d.columns)
  let byPos := s.byPosition p c d.layer
  ⟨0x30, [(da, 64), page] ++ (if byPos then [(aa, attnRows c n * 2 * elemBytes half)] else []),
    (dd, attnRows c n * c.dim * elemBytes half) :: (if byPos then [page] else [])⟩

/-- VU VALUE (R204): A(a) statistics, A(b) descriptor, A(d) output, COUNT query rows. -/
def execVuValue (x team : Nat) (half : Bool) (a b d count : Nat) (s : State) : Host.Outcome State Fault Refusal :=
  match s.seqStep x with
  | none => .next s
  | some y =>
    let q := s.seq x
    let t := 24 * x + team % 24
    .next (s.issue x (s.valueTouch t y half (q.a a) (q.a b) (q.a d) count) (s.queueStall t) Seq.advance
      (fun s => s.value x t y half (q.a a) (q.a b) (q.a d) count))

end Sys2Proof.Machine
end

