-- ==== Sys2Proof/Machine/Discipline.lean ====
section
/-!
DEFINITION. The sources of waymark time: which is valid, which is in use, and the discipline state that follows (R373 to R377). Links
bring sources in and out, so that this stands before them.
-/
namespace Sys2Proof.Machine

/-! ### Records (R380) -/

def clockContext (s : State) (region : Nat) : List Nat := leBytes 8 s.now ++ leBytes 4 region

/-! ### Discipline (R372 to R377) -/

/-- The source list, and TIME_ROOT. -/
def State.waySources (s : State) : List Nat := [1, 2, 3, 4].map (fun i => s.clockCfg i 1 0)
def State.timeRoot (s : State) : Nat := s.clockCfg 6 2 0
def State.isRoot (s : State) : Bool := s.position == s.timeRoot

def State.setWay (s : State) (w : Way) : State := { s with clocks := { s.clocks with way := w } }

/-- The upstream port (R375). -/
def State.upstream (s : State) : Option Nat := if s.isRoot then none else s.route s.timeRoot

/-- A source is valid (R373, R376). -/
def State.wayValid (s : State) (src : Nat) : Bool :=
  let w := s.clocks.way
  if src = 1 then w.ppsValid else if src = 2 then w.ptpValid
  else if src = 3 then
    (if s.isRoot then decide (stLinksUp < s.stage)
     else match s.upstream with | some p => s.linkOpen p && (s.port p).waySt != 0 | none => false)
  else false

/-- Ticks and eighths of a second; an offset's phase within the second, −0.5 s to 0.5 s. -/
def secEighths : Int := 3200000000
def phaseOf (o : Int) : Int :=
  let m := o % secEighths
  if secEighths / 2 ≤ m then m - secEighths else m

/-- What sets and rate have added to the counter since the package's start, in 1/8 tick. Offsets are kept with it, so that two that were
taken at different times compare, and one that is kept says what it would be now. -/
def Way.added (w : Way) : Int := w.adj / 536870912
def Way.offsetNow (w : Way) (kept : Int) : Int := kept - w.added

/-- PPS and PTP disagree on the phase by more than 1 µs (R373). -/
def State.wayDisagree (s : State) : Bool :=
  let w := s.clocks.way
  w.ppsValid && w.ptpValid && decide (3200 < (phaseOf (w.ppsOffset - w.ptpOffset)).natAbs)

/-- The first listed source that is valid; PPS where PPS and PTP disagree. -/
def State.waySource (s : State) : Nat :=
  let vs := s.waySources.filter s.wayValid
  if s.wayDisagree && vs.contains 1 then 1 else vs.headD 0

/-- Hops to TIME_ROOT under TORUS, by the dimension order (log 41). -/
def State.rootHops (s : State) : Nat :=
  ([0, 1, 2].map (fun a =>
    let n := s.dim a
    let up := (coord s.timeRoot a + n - coord s.position a) % n
    min up (n - up))).sum

/-- ACQUIRING begins, with one set allowed. -/
def State.acquire (s : State) : State :=
  (s.fset Reg.wayStatusState 1).setWay { s.clocks.way with setUsed := false, good := 0, offsets := [] }

/-- The source in use and the state follow the validity of the sources (R373, R377). -/
def State.reSource (s : State) : State :=
  let s := s.fput Reg.wayStatusSourceDisagree s.wayDisagree
  if s.clocks.monFault then s else
  let old := s.fget Reg.wayStatusSource
  let new := s.waySource
  if new = old then s else
  let st := s.fget Reg.wayStatusState
  let s := (s.fset Reg.wayStatusSource new).fset Reg.wayStatusHops (if new = 3 then s.rootHops else 0x1F)
  if new = 0 then
    (if st = 2 then (s.fset Reg.wayStatusState 3).record 0 0 0x31 unitPackage (clockContext s 0xFFFFFFFF) else s)
  else if st = 0 ∨ st = 3 then s.acquire
  else if st = 2 ∧ !s.wayValid old then s.acquire
  else s.setWay { s.clocks.way with good := 0, offsets := [] }

end Sys2Proof.Machine
end

