-- ==== Sys2Proof/Machine/Collectives.lean ====
section
/-!
DEFINITION. Control messages received (R316, R320, R321), DATA sessions (R317) and collectives (R323 to R328). The members
of a collective advance step by step: a step ends when its transfers are acknowledged and received (log 31).
-/
namespace Sys2Proof.Machine

/-! ### Receiving control messages (R316, R320, R321) -/

/-- A message was acted on before: the same unit, incarnation and SEQ of one position. -/
def State.seenBefore (s : State) (h : CtrlHdr) : Bool := s.torus.seen.contains (h.srcPos, h.srcUnit, h.srcInc, h.seq)

/-- The message is remembered, within a window of 4,096 SEQ values. -/
def State.remember (s : State) (h : CtrlHdr) : State :=
  let old := s.torus.seen.filter (fun e =>
    !(e.1 == h.srcPos && e.2.1 == h.srcUnit && e.2.2.1 == h.srcInc) || decide ((h.seq + 2 ^ 32 - e.2.2.2) % 2 ^ 32 < 4096) ||
      decide (2 ^ 31 ≤ (h.seq + 2 ^ 32 - e.2.2.2) % 2 ^ 32))
  { s with torus := { s.torus with seen := old ++ [(h.srcPos, h.srcUnit, h.srcInc, h.seq)] } }

/-- The SEQ of the newest message acted on of a sender about a subject. -/
def State.newest (s : State) (h : CtrlHdr) (subject : List Nat) : Option Nat :=
  (s.torus.latest.find? (fun e => e.1 == [h.srcPos, h.srcUnit, h.srcInc] ++ subject)).map (·.2)

/-- A newer message of the sender about the subject has been acted on. -/
def State.overtaken (s : State) (h : CtrlHdr) (subject : List Nat) : Bool :=
  match s.newest h subject with
  | some n => decide ((n + 2 ^ 32 - h.seq) % 2 ^ 32 < 2 ^ 31 ∧ n ≠ h.seq)
  | none => false

/-- Messages of one sender about one subject take effect in the order of SEQ: one that a newer one has overtaken changes
nothing more (R312, log 108). -/
def State.inOrder (s : State) (h : CtrlHdr) (subject : List Nat) (f : State → State) : State :=
  let key := [h.srcPos, h.srcUnit, h.srcInc] ++ subject
  match s.newest h subject with
  | some _ => if s.overtaken h subject then s else
      f { s with torus := { s.torus with latest := s.torus.latest.map (fun e => if e.1 = key then (key, h.seq) else e) } }
  | none => f { s with torus := { s.torus with latest := s.torus.latest ++ [(key, h.seq)] } }

/-- Entries of the sender's unit whose incarnation the message shows to be of an earlier start are removed (R320). -/
def State.seenReset (s : State) (pos unit inc : Nat) : State :=
  if s.torus.revs.any (fun e => match e.2 with
    | some r => r.pos == pos && r.unit == unit && decide (r.inc / 256 < inc / 256) | none => false)
  then s.dropRevs (fun r => r.pos == pos && r.unit == unit && decide (r.inc / 256 < inc / 256)) else s

/-- Traffic of a revoked incarnation is dropped: counted, flagged, and once per second answered with REVOKED (R321). -/
def State.fence (s : State) (p pos unit inc : Nat) : State :=
  let s := (s.bump (Reg.linkFenced.port p)).raise (Reg.linkErrFenced.port p)
  let s := s.torusRecord 0 0x66 pos p 0xFF inc unit
  match s.torus.answered.find? (fun e => e.1 == pos && e.2.1 == unit) with
  | some e => if s.now < e.2.2 + secTicks 1 then s else
      ({ s with torus := { s.torus with answered := s.torus.answered.map (fun a => if a = e then (pos, unit, s.now) else a) } }).sendTo
        pos 0xFF 0x04 0 false (revokeBody { pos := pos, unit := unit, inc := inc })
  | none =>
    ({ s with torus := { s.torus with answered := s.torus.answered ++ [(pos, unit, s.now)] } }).sendTo pos 0xFF 0x04 0 false
      (revokeBody { pos := pos, unit := unit, inc := inc })

/-- The addressee of a message is a unit of this package in the incarnation that the message names; DST_INC 0 accepts any
(R314). -/
def State.addressed (s : State) (h : CtrlHdr) : Bool := h.dstInc == 0 || h.dstInc == s.incarnation h.dstUnit

/-- A message with ACK_REQ is answered: on the link itself where it came for the peer (R316). -/
def State.ackTo (s : State) (p : Nat) (h : CtrlHdr) : State :=
  let b := leBytes 4 h.seq ++ zeros 4
  if !h.ackReq then s
  else if h.dstPos = 0xFFFF then s.sendPeer p ackType b
  else s.sendTo h.srcPos h.part ackType 0 false b

/-- A control message arrives on a port: dropped on a bad CRC, forwarded when it is for another package, fenced when its
sender is revoked, dropped when its addressee has another incarnation (log 81), acknowledged, and acted on once. -/
def State.ctrlIn (s : State) (p : Nat) (ok : Bool) (type : Nat) (h : CtrlHdr) (body : List Nat) (f : State → State) : State :=
  if !s.linkUp p || s.hubStopped then s else
  if !ok then s.bump Reg.torCtrlCrc else
  if h.dstPos ≠ 0xFFFF ∧ h.dstPos ≠ s.position then
    s.forward p (ctrlPacket type h body)
  else
    let s := s.seenReset h.srcPos h.srcUnit h.srcInc
    if s.isRevoked h.srcPos h.srcUnit h.srcInc then s.fence p h.srcPos h.srcUnit h.srcInc else
    if !s.addressed h then s else
    let s := s.ackTo p h
    if s.seenBefore h then s else f (s.remember h)

/-- What a quarantined package does not carry (R321): it acts on nothing of its partitions' torus traffic. -/
def State.unlessQuarantined (s : State) (f : State → State) : State := if s.quarantined then s else f s

/-! ### Sessions (R317) -/

/-- The byte of a session at an offset, where some piece holds it. -/
def Session.byte (x : Session) (i : Nat) : Option Nat :=
  (x.pieces.find? (fun e => decide (e.1 ≤ i ∧ i < e.1 + e.2.length))).map (fun e => e.2.getD (i - e.1) 0)

/-- Offsets below `n` that the pieces cover. -/
def Session.covers (x : Session) (n : Nat) : Bool := (List.range n).all (fun i => (x.byte i).isSome)

/-- The first `n` bytes of a session, zeros where none has come. -/
def Session.bytes (x : Session) (n : Nat) : List Nat := (List.range n).map (fun i => (x.byte i).getD 0)

def State.session? (s : State) (src num : Nat) : Option Session :=
  s.torus.sessions.find? (fun x => x.src == src && x.num == num)

/-- A control message opens a session; one whose bytes came before it takes the message's sender and purpose. -/
def State.openSession (s : State) (h : CtrlHdr) (num kind : Nat) : State :=
  match s.session? h.srcPos num with
  | some _ => { s with torus := { s.torus with sessions := s.torus.sessions.map (fun (x : Session) =>
      if x.src = h.srcPos ∧ x.num = num then { x with unit := h.srcUnit, inc := h.srcInc, kind := kind } else x) } }
  | none => { s with torus := { s.torus with sessions := s.torus.sessions ++ [⟨h.srcPos, h.srcUnit, h.srcInc, num, kind, [], s.now⟩] } }

def State.closeSession (s : State) (src num : Nat) : State :=
  { s with torus := { s.torus with sessions := s.torus.sessions.filter (fun x => !(x.src == src && x.num == num)) } }

/-- The packets of a session's bytes leave on a port, at most 4,096 bytes each (R313), on the credits of member `m`; a
quarantined package sends none, and a port carries only sessions opened after its re-admission (R321, R322, log 109). -/
def State.sendData (s : State) (m p dst cls session opened : Nat) (b : List Nat) : State :=
  if !s.carriesSession p opened then s else
  s.each (List.range (ceilDiv b.length 4096)) (fun s i =>
    let piece := (b.drop (4096 * i)).take 4096
    s.enqueue p ((dataPacket dst s.position cls (s.nextVc p none) session (4096 * i) piece).for_ m))

/-- A new session number. -/
def State.takeSession (s : State) : Nat × State :=
  (s.torus.nextSession, { s with torus := { s.torus with nextSession := (s.torus.nextSession + 1) % 2 ^ 32 } })

/-! ### The collective descriptor (R323) and its rings (R301, R324) -/

def collOp (d : List Nat) : Nat := field d 0 1
def collElem (d : List Nat) : Nat := field d 1 1
def collReduce (d : List Nat) : Nat := field d 2 1
def collCount (d : List Nat) : Nat := field d 16 4
def collRings (d : List Nat) : List Nat := (slice d 8 3).takeWhile (fun r => r != 0xFF)

/-- Bytes of an element in memory. -/
def collElemBytes (d : List Nat) : Nat := match collElem d with | 1 => 2 | 3 => 1 | _ => 4

/-- Coordinates of a ring along its axis, in DIR order. -/
def State.ringCoords (s : State) (r : Nat) : List Nat :=
  let o := 160 + 16 * r
  let n := s.dim (s.routeCfg o 1 0)
  let dir := s.routeCfg (o + 1) 1 0
  let lo := s.routeCfg (o + 2) 1 0
  let hi := s.routeCfg (o + 3) 1 0
  let k := if dir = 0 then (hi + n - lo) % n else (lo + n - hi) % n
  (List.range (k + 1)).map (fun i => if dir = 0 then (lo + i) % n else (lo + n - i) % n)

def State.ringAxis (s : State) (r : Nat) : Nat := s.routeCfg (160 + 16 * r) 1 0
def State.ringClosed (s : State) (r : Nat) : Bool := (s.ringCoords r).length == s.dim (s.ringAxis r)

/-- The members of a ring through a position. -/
def State.ringMembers (s : State) (pos r : Nat) : List Nat := (s.ringCoords r).map (fun c => withCoord pos (s.ringAxis r) c)

/-- Every member of a collective: the product of its rings through this package. -/
def State.collMembers (s : State) (rs : List Nat) : List Nat :=
  rs.foldl (fun ps r => ((ps.map (fun q => s.ringMembers q r)).flatten).eraseDups) [s.position]

/-- A field of the descriptor is invalid (BAD_DESC of R326). -/
def State.collBad (s : State) (p : Nat) (d : List Nat) : Bool :=
  let rs := collRings d
  let op := collOp d
  let root := field d 12 2
  decide (3 < op) || decide (3 < collElem d) || (collElem d == 3 && decide (op < 2)) || decide (2 < collReduce d) ||
  (decide (2 ≤ op) && collReduce d != 0) || d.getD 11 0 != 0 || !allZero (slice d 14 2) || !allZero (slice d 20 4) ||
  !allZero (slice d 48 16) ||
  rs.any (fun r => decide (s.routeCfg 4 1 0 ≤ r) || !(s.routeCfg (160 + 16 * r + 4) 4 0).testBit p ||
    !(s.ringMembers s.position r).contains s.position) ||
  (op == 3 && !(s.collMembers rs).contains root) ||
  s.torus.colls.any (fun c => c.part == p && c.id == field d 4 4)

/-! ### Shards and phases (R324) -/

/-- Shard `j` of a region of `len` elements cut for `n` members: offset and length. -/
def shard (len n j : Nat) : Nat × Nat :=
  let sz := ceilDiv len n
  (min len (j * sz), min sz (len - min len (j * sz)))

/-- The place of this package among a ring's members. -/
def State.ringSelf (s : State) (r : Nat) : Nat := (s.ringMembers s.position r).idxOf s.position

/-- A phase of kind `k` over ring `r` on a region. -/
def State.collPhase (s : State) (kind r off len root : Nat) : CollPhase :=
  { kind := kind, members := s.ringMembers s.position r, self := s.ringSelf r, closed := s.ringClosed r, off := off, len := len,
    root := root }

/-- The reduce-scatter phases over rings in turn, each on the shard that the one before left. -/
def State.scatterPhases (s : State) : (off len : Nat) → List Nat → List CollPhase
  | _, _, [] => []
  | off, len, r :: rs =>
    let p := s.collPhase 0 r off len 0
    let x := shard len p.members.length p.self
    p :: s.scatterPhases (off + x.1) x.2 rs

/-- The all-gather phases of ALL_GATHER: blocks of ring 1, then of ring 2 and so on; the first offset of this package's
block, the block's length before the phase, and the phases. -/
def State.gatherPhases (s : State) (off block : Nat) : List Nat → List CollPhase
  | [] => []
  | r :: rs =>
    let n := (s.ringMembers s.position r).length
    s.collPhase 1 r (off - s.ringSelf r * block) (block * n) 0 ::
      s.gatherPhases (off - s.ringSelf r * block) (block * n) rs

/-- Where this package's share of an ALL_GATHER stands: the offset of its share in the whole. -/
def State.shareOff (s : State) (block : Nat) : List Nat → Nat
  | [] => 0
  | r :: rs => s.ringSelf r * block + s.shareOff (block * (s.ringMembers s.position r).length) rs

/-- The broadcast phases: a package takes part in a phase where its coordinates of the later rings are the root's; the others pass
over as many steps, so that STEP means the same on every member. -/
def State.castPhases (s : State) (count root : Nat) : List Nat → List CollPhase
  | [] => []
  | r :: rs =>
    let p := s.collPhase 2 r 0 count ((s.ringMembers s.position r).findIdx (fun q => coord q (s.ringAxis r) == coord root (s.ringAxis r)))
    { p with idle := !rs.all (fun q => coord s.position (s.ringAxis q) == coord root (s.ringAxis q)) } :: s.castPhases count root rs

/-- The phases of a collective. -/
def State.collPhases (s : State) (d : List Nat) : List CollPhase :=
  let rs := collRings d
  match collOp d with
  | 0 =>
    let ps := s.scatterPhases 0 (collCount d) rs
    ps ++ ps.reverse.map (fun p => { p with kind := 1 })
  | 1 => s.scatterPhases 0 (collCount d) rs
  | 2 => s.gatherPhases (s.shareOff (collCount d) rs) (collCount d) rs
  | _ => s.castPhases (collCount d) (field d 12 2) rs

/-- Elements of the working tensor, and of the result, with the result's offset in it. -/
def State.collTotal (s : State) (d : List Nat) : Nat :=
  if collOp d = 2 then collCount d * ((collRings d).map (fun r => (s.ringMembers s.position r).length)).prod else collCount d

def State.collResult (s : State) (d : List Nat) : Nat × Nat :=
  if collOp d = 1 then
    (match (s.scatterPhases 0 (collCount d) (collRings d)).getLast? with
     | some p => let x := shard p.len p.members.length p.self; (p.off + x.1, x.2)
     | none => (0, collCount d))
  else (0, s.collTotal d)

/-- Steps of a phase. -/
def CollPhase.steps (p : CollPhase) : Nat :=
  let n := p.members.length
  if n ≤ 1 then 0 else if p.kind = 2 then 2 * n - 2 else n - 1

/-- The part of shard `j` that travels in a direction: dir 0 the ring's DIR, 1 the opposite way. -/
def CollPhase.piece (p : CollPhase) (dir j : Nat) : Nat × Nat :=
  let x := shard p.len p.members.length j
  if p.kind = 2 ∨ !p.closed then (p.off + x.1, x.2)
  else if dir = 0 then (p.off + x.1, (x.2 + 1) / 2) else (p.off + x.1 + (x.2 + 1) / 2, x.2 / 2)

/-- A transfer: direction, the other member, offset and length in elements. -/
structure CollMove where
  dir : Nat
  peer : Nat
  off : Nat
  len : Nat

/-- The member `d` places further on in a direction. -/
def CollPhase.next (p : CollPhase) (dir d : Nat) : Nat :=
  let n := p.members.length
  p.members.getD ((if dir = 0 then p.self + d else p.self + n - d % n) % n) 0

/-- The shard that member `i` sends in step `k` of a reduce-scatter or all-gather, in a direction. -/
def CollPhase.sendShard (p : CollPhase) (dir k : Nat) : Nat :=
  let n := p.members.length
  let b := if p.kind = 0 then k else k - 1
  (if dir = 0 then p.self + n * k - b else p.self + b) % n

/-- The shard that it receives. -/
def CollPhase.recvShard (p : CollPhase) (dir k : Nat) : Nat :=
  let n := p.members.length
  let b := if p.kind = 0 then k + 1 else k
  (if dir = 0 then p.self + n * (k + 1) - b else p.self + b) % n

/-- The directions that a phase uses. -/
def CollPhase.dirs (p : CollPhase) : List Nat := if p.kind ≠ 2 ∧ p.closed then [0, 1] else [0]

/-- What this member sends in step `k`. -/
def CollPhase.sendsAt (p : CollPhase) (k : Nat) : List CollMove :=
  let n := p.members.length
  if p.idle then []
  else if p.kind = 2 then
    let d := (p.self + n - p.root) % n
    if d + 1 < n ∧ d + 1 ≤ k ∧ k ≤ d + n then
      (let x := p.piece 0 (k - d - 1); [⟨0, p.next 0 1, x.1, x.2⟩]) else []
  else p.dirs.map (fun dir => let x := p.piece dir (p.sendShard dir k); ⟨dir, p.next dir 1, x.1, x.2⟩)

/-- What it receives in step `k`. -/
def CollPhase.recvsAt (p : CollPhase) (k : Nat) : List CollMove :=
  let n := p.members.length
  if p.idle then []
  else if p.kind = 2 then
    let d := (p.self + n - p.root) % n
    if 1 ≤ d ∧ d ≤ k ∧ k < d + n then
      (let x := p.piece 0 (k - d); [⟨0, p.next 1 1, x.1, x.2⟩]) else []
  else p.dirs.map (fun dir => let x := p.piece dir (p.recvShard dir k); ⟨dir, p.next (1 - dir) 1, x.1, x.2⟩)

/-! ### Elements -/

/-- Bytes of an element on the wire: BF16 travels as FP32 while it is combined. -/
def wireBytes (d : List Nat) (kind : Nat) : Nat := if collElem d = 1 ∧ kind = 0 then 4 else collElemBytes d

/-- Elements as they are read: BF16 is widened where a reduction follows. -/
def collLoad (d : List Nat) (b : List Nat) : List Nat :=
  let n := collElemBytes d
  (List.range (b.length / n)).map (fun i =>
    let w := field b (n * i) n
    if collElem d = 1 ∧ collOp d < 2 then bf16Widen w else w)

/-- The sum of two FP32 words, clamped to the largest finite value where it overflows (R150). -/
def faddClamp (a b : Nat) : Nat :=
  let r := fadd a b
  if (f32 a).isFin && (f32 b).isFin && r % 2 ^ 31 == 0x7F800000 then r - 1 else r

/-- A received value combined with this member's own (R324). -/
def collCombine (d : List Nat) (a b : Nat) : Nat :=
  if collElem d = 2 then
    let x := toSigned 32 a
    let y := toSigned 32 b
    (match collReduce d with
     | 0 => ofSigned 32 (clampInt (-2147483647) 2147483647 (x + y))
     | 1 => ofSigned 32 (max x y)
     | _ => ofSigned 32 (min x y))
  else match collReduce d with
    | 0 => faddClamp a b
    | 1 => fmax a b
    | _ => fneg (fmax (fneg a) (fneg b))

/-- A region of the working tensor replaced by received elements, combined in a reduce-scatter. -/
def collPut (d : List Nat) (kind : Nat) (buf : List Nat) (off : Nat) (ws : List Nat) : List Nat :=
  (List.range buf.length).map (fun i =>
    let old := buf.getD i 0
    if off ≤ i ∧ i < off + ws.length then
      (let w := ws.getD (i - off) 0; if kind = 0 then collCombine d w old else w)
    else old)

/-- The elements of a message. -/
def wireWords (n : Nat) (b : List Nat) : List Nat := (List.range (b.length / n)).map (fun i => field b (n * i) n)

/-! ### Running a collective -/

def State.coll? (s : State) (p id : Nat) : Option Coll := s.torus.colls.find? (fun c => c.part == p && c.id == id)
def State.setColl (s : State) (c : Coll) : State :=
  { s with torus := { s.torus with colls := s.torus.colls.map (fun d => if d.part = c.part ∧ d.id = c.id then c else d) } }

def State.addCollIn (s : State) (d : CollIn) : State := { s with torus := { s.torus with collIn := s.torus.collIn ++ [d] } }

/-- The port of the collective's present transfer, or of its last one, whose engine runs it. -/
def State.collPort (s : State) (c : Coll) : Nat :=
  let p := (c.phases[c.phase]? <|> c.phases.getLast?)
  match p.bind (fun p => (p.sendsAt c.k ++ p.recvsAt c.k ++ p.sendsAt p.steps ++ p.recvsAt p.steps).head?) with
  | some m => (s.planned m.peer).getD 0
  | none => 0

/-- DESC_CHECK. -/
def Coll.check (c : Coll) : Nat := crc32c (slice c.desc 0 24)

/-- A step of a collective goes out (again) on a port: its bytes in its session, then COLL_STEP. -/
def State.sendCollStep (s : State) (c : Coll) (x : CollSend) : State :=
  if s.quarantined then s else
  let s := s.sendData c.part x.port x.dst 1 x.session s.now x.bytes
  let q := s.takeSeq unitPackage
  let s := q.2
  let body := leBytes 4 c.id ++ leBytes 2 x.step ++ [x.dir, 0] ++ leBytes 4 x.session ++ leBytes 4 x.bytes.length ++ leBytes 4 c.check
  let s := s.addUnacked
    { unit := unitPackage, seq := q.1, port := none, dst := x.dst, part := c.part, type := 0x10, body := body, sends := 0,
      purpose := 1 }
  s.sendOn x.port 0x10 (s.header unitPackage q.1 x.dst c.part true) body

/-- The step of the collective fails: once it is replayed after the re-plan, a second time its slots end (R328). -/
def State.collFailStep (s : State) (id : Nat) : State :=
  match s.step? id with
  | none => s
  | some y =>
    if y.collReplayed then s.failStep id
    else (s.modStep id (fun y => { y with collReplayed := true, collFailed := true, waiting := y.strings })).parkStep id

/-- A collective ends with a failure that spreads: COLL_ABORT to every other member (R327). -/
def State.abortColl (s : State) (c : Coll) (code port : Nat) : State :=
  let body := leBytes 4 c.id ++ [code, port] ++ leBytes 2 s.position
  let s := s.unlessQuarantined (fun s => s.each ((s.collMembers (collRings c.desc)).filter (· != s.position)) (fun s m =>
    s.sendTo m c.part 0x12 1 true body))
  let s := s.endColl c code port s.position
  if code = ccLinkLost ∨ code = ccTimeout ∨ code = ccFenced then s.collFailStep c.step else s

/-- The transfers of the current step go out. False when one finds no way: a chain has none but its own links (R327). -/
def State.sendMoves (s : State) (c : Coll) (p : CollPhase) : (List CollMove) → List CollSend × Bool × State
  | [] => ([], true, s)
  | m :: ms =>
    match s.ringWay p.closed m.peer with
    | none => ([], false, s)
    | some port =>
      let t := s.takeSession
      let b := (((c.buf.drop m.off).take m.len).map (leBytes (wireBytes c.desc p.kind))).flatten
      let x : CollSend := ⟨m.dir, c.done + 1, t.1, m.peer, port, s.planned m.peer != some port, b⟩
      let r := (t.2.sendCollStep c x).sendMoves c p ms
      (x :: r.1, r.2.1, r.2.2)

/-- The COLL_STEP that brings a transfer, once its bytes are held. -/
def State.arrived (s : State) (c : Coll) (m : CollMove) : Option CollIn :=
  s.torus.collIn.find? (fun d => d.src == m.peer && d.part == c.part && d.id == c.id && d.step == c.done + 1 && d.dir == m.dir &&
    d.acked && !d.past)

/-- The bytes of a COLL_STEP. -/
def State.collBytes (s : State) (d : CollIn) : List Nat :=
  match s.session? d.src d.session with
  | some x => x.bytes d.bytes
  | none => zeros d.bytes

/-- The collective is complete: its result goes to DST and it ends (R326). -/
def State.finishColl (s : State) (c : Coll) : State :=
  let r := s.collResult c.desc
  let b := (((c.buf.drop r.1).take r.2).map (leBytes (collElemBytes c.desc))).flatten
  let s := s.writeThrough (unitColl (s.collPort c)) (field c.desc 32 8) b
  let s := if c.degraded then s.modStep c.step (fun y => { y with degraded := true }) else s
  s.endColl c (if c.degraded then ccDegraded else ccDone) 0xFF s.position

/-- The collective at the end of a phase: after the last reduce-scatter phase BF16 results are rounded once. -/
def Coll.nextPhase (c : Coll) : Coll :=
  let last := match c.phases[c.phase]?, c.phases[c.phase + 1]? with
    | some p, some q => p.kind == 0 && q.kind != 0
    | some p, none => p.kind == 0
    | _, _ => false
  { c with phase := c.phase + 1, k := 1, sent := false,
           buf := if last && collElem c.desc == 1 then c.buf.map bf16Round else c.buf }

/-- The collective goes on as far as what it has sent and received allows; `n` bounds the moves. -/
def State.runColl (s : State) (p id : Nat) : Nat → State
  | 0 => s
  | n + 1 =>
    match s.coll? p id with
    | none => s
    | some c =>
      match c.phases[c.phase]? with
      | none => s.finishColl c
      | some ph =>
        if ph.steps < c.k then (s.setColl c.nextPhase).runColl p id n
        else if !c.sent then
          if s.quarantined then s else
          let r := s.sendMoves c ph (ph.sendsAt c.k)
          if !r.2.1 then r.2.2.abortColl c ccLinkLost ((s.planned ((ph.sendsAt c.k).headD ⟨0, 0, 0, 0⟩).peer).getD 0xFF)
          else (r.2.2.setColl { c with sent := true, sends := c.sends ++ r.1,
                                       degraded := c.degraded || r.1.any (·.other) }).runColl p id n
        else
          let ms := ph.recvsAt c.k
          if !c.sends.isEmpty || !ms.all (fun m => (s.arrived c m).isSome) then s else
          let buf := ms.foldl (fun buf m => match s.arrived c m with
            | some d => collPut c.desc ph.kind buf m.off (wireWords (wireBytes c.desc ph.kind) (s.collBytes d))
            | none => buf) c.buf
          let s := s.each ms (fun s m => match s.arrived c m with | some d => s.closeSession d.src d.session | none => s)
          (s.setColl { c with buf := buf, k := c.k + 1, sent := false, done := c.done + 1 }).runColl p id n

/-- Moves enough for a whole collective. -/
def Coll.moves (c : Coll) : Nat := 4 + ((c.phases.map (fun p => 2 * p.steps + 2)).sum : Nat)

def State.advanceColl (s : State) (p id : Nat) : State :=
  match s.coll? p id with
  | some c => s.runColl p id c.moves
  | none => s

/-- COLL (R324, R326): the collective described at A(a) starts on this member. -/
def State.startColl (s : State) (x a : Nat) (y : Step) : State :=
  if !s.reaches y.part a 64 then s.seqFault x 0x08 0xFF 0xFF (a % 2 ^ 32) else
  let r := s.readThrough (unitString x) a 64
  if r.2.1 then r.2.2.seqFail x else
  let s := r.2.2
  let d := r.1
  let st := field d 40 8
  if !s.reaches y.part st 16 then s.seqFault x 0x08 0xFF 0xFF (st % 2 ^ 32) else
  let bad := s.collBad y.part d
  let eb := collElemBytes d
  let single := (collRings d).isEmpty
  let out := bad || (single && collOp d == 3 && field d 12 2 != s.position) ||
    !s.reaches y.part (field d 24 8) (collCount d * eb) || !s.reaches y.part (field d 32 8) ((s.collResult d).2 * eb)
  let c : Coll := { id := field d 4 4, part := y.part, str := x, step := y.id, desc := d, phases := if out then [] else s.collPhases d,
                    phase := 0, k := 1, sent := false, done := 0, buf := [], sends := [], degraded := false, issued := s.now }
  if out then s.abortColl c ccBadDesc 0xFF else
  let q := s.readFor (some y.id) (unitColl (s.collPort c)) (field d 24 8) (collCount d * eb)
  if q.2.1 then q.2.2.seqFail x else
  let own := collLoad d q.1
  let buf := if collOp d = 2 then
      collPut d 1 (zeros (s.collTotal d)) (s.shareOff (collCount d) (collRings d)) own
    else own
  -- with no ring a BF16 reduction is its own value
  let c := { c with buf := if single && collElem d == 1 && collOp d < 2 then buf.map bf16Round else buf }
  let s := { q.2.2 with torus := { q.2.2.torus with colls := q.2.2.torus.colls ++ [c] } }
  if s.torus.collIn.any (fun e => e.part == c.part && e.id == c.id && !e.past && e.check != c.check) then s.abortColl c ccBadDesc 0xFF
  else s.advanceColl c.part c.id

/-- What COLL touches: its descriptor, and where that can be read SRC, DST and STATUS. -/
def State.collTouch (s : State) (a : Nat) (y : Step) : Touch :=
  if !s.reaches y.part a 64 then ⟨0x3D, [(a, 64)], []⟩ else
  let d := s.codedBytes a 64
  ⟨0x3D, [(a, 64), (field d 24 8, collCount d * collElemBytes d)],
    [(field d 32 8, (s.collResult d).2 * collElemBytes d), (field d 40 8, 16)]⟩

/-- COLL x A(a). -/
def execColl (x a : Nat) (s : State) : Host.Outcome State Fault Refusal :=
  match s.seqStep x with
  | none => .next s
  | some y =>
    let d := (s.seq x).a a
    .next (s.issue x (s.collTouch d y) none Seq.advance (fun s => s.startColl x d y))

/-! ### Steps of other members -/

/-- Every COLL_STEP whose bytes are now held is acknowledged (R325), and the collectives go on. -/
def State.ackHeld (s : State) : State :=
  let ready := s.torus.collIn.filter (fun d => !d.acked &&
    (match s.session? d.src d.session with | some x => x.covers d.bytes | none => d.bytes == 0))
  let s := { s with torus := { s.torus with collIn := s.torus.collIn.map (fun (d : CollIn) => if ready.contains d then { d with acked := true } else d) } }
  s.each ready (fun s d =>
    (s.sendTo d.src d.part 0x11 1 false (leBytes 4 d.id ++ leBytes 2 d.step ++ [d.dir, 0])).advanceColl d.part d.id)

/-- What COLL_ABORT says is in the order of SEQ with the steps of its collective. -/
def abortSubject (part id : Nat) : List Nat := [0x12, part, id]

/-- COLL_STEP (R325, R327); one older than an abort of its collective that its sender has sent changes nothing (R312). -/
def execCollStep (p : Nat) (ok : Bool) (h : CtrlHdr) (id step dir session bytes check : Nat) (s : State) :
    Host.Outcome State Fault Refusal :=
  .next (s.ctrlIn p ok 0x10 h
    (leBytes 4 id ++ leBytes 2 step ++ [dir, 0] ++ leBytes 4 session ++ leBytes 4 bytes ++ leBytes 4 check)
    (fun s => s.unlessQuarantined (fun s =>
      let same := fun (d : CollIn) => d.src == h.srcPos && d.part == h.part && d.id == id && d.step == step && d.dir == dir && d.session == session
      match s.torus.collIn.find? same with
      | some d =>
        if d.acked then s.sendTo h.srcPos h.part 0x11 1 false (leBytes 4 id ++ leBytes 2 step ++ [dir, 0]) else s
      | none =>
        if s.overtaken h (abortSubject h.part id) then s else
        let s := s.openSession h session 0
        let s := s.addCollIn
          { src := h.srcPos, part := h.part, id := id, step := step, dir := dir, session := session, bytes := bytes, check := check,
            acked := false, past := false }
        match s.coll? h.part id with
        | some c => if c.check = check then s.ackHeld else s.abortColl c ccBadDesc 0xFF
        | none => s.ackHeld)))

/-- COLL_ACK (R325): the step's bytes are freed and the collective goes on. -/
def execCollAck (p : Nat) (ok : Bool) (h : CtrlHdr) (id step dir : Nat) (s : State) : Host.Outcome State Fault Refusal :=
  .next (s.ctrlIn p ok 0x11 h (leBytes 4 id ++ leBytes 2 step ++ [dir, 0]) (fun s => s.unlessQuarantined (fun s =>
    match s.coll? h.part id with
    | none => s
    | some c =>
      (s.setColl { c with sends := c.sends.filter (fun x => !(x.step == step && x.dir == dir && x.dst == h.srcPos)) }).advanceColl
        h.part id)))

/-- COLL_ABORT (R327): the collective ends on this member with the code and the reporter's port and position. -/
def execCollAbort (p : Nat) (ok : Bool) (h : CtrlHdr) (id code port pos : Nat) (s : State) : Host.Outcome State Fault Refusal :=
  .next (s.ctrlIn p ok 0x12 h (leBytes 4 id ++ [code, port] ++ leBytes 2 pos) (fun s => s.unlessQuarantined (fun s =>
    s.inOrder h (abortSubject h.part id) (fun s =>
      match s.coll? h.part id with
      | none => s
      | some c =>
        let s := s.endColl c code port pos
        if code = ccLinkLost ∨ code = ccTimeout ∨ code = ccFenced then s.collFailStep c.step else s))))

/-- COLL_STEP_RESEND (R325): no COLL_ACK within 200 µs; the whole step goes again on the same route, while it is there. -/
def execCollStepResend (part id dir : Nat) (s : State) : Host.Outcome State Fault Refusal :=
  match s.coll? part id with
  | none => .next s
  | some c => .next (s.unlessQuarantined (fun s =>
      s.each (c.sends.filter (fun x => x.dir == dir && s.linkUp x.port)) (fun s x => s.sendCollStep c x)))

/-- COLL_TIMEOUT (R326). -/
def execCollTimeout (part id : Nat) (s : State) : Host.Outcome State Fault Refusal :=
  match s.coll? part id with
  | none => .next s
  | some c => .next (s.abortColl c ccTimeout 0xFF)

/-! ### A port is lost, a member is fenced (R327) -/

/-- The ring of the current phase is closed, so that the other way round it exists. -/
def Coll.onRing (c : Coll) : Bool := match c.phases[c.phase]? with | some p => p.closed | none => false

/-- The steps that a port carried go the other way round the same ring, in new sessions, which the port there carries whenever it was
re-admitted (R322); where there is none, the collective is lost. -/
def State.rerouteColls (s : State) (p : Nat) : State :=
  s.each (s.torus.colls.filter (fun c => c.sends.any (fun x => x.port == p))) (fun s c0 =>
    match s.coll? c0.part c0.id with
    | none => s
    | some c =>
      if !c.onRing || !s.linkUp (otherPort p) then s.abortColl c ccLinkLost p else
      let q := c.sends.foldl (fun (a : List CollSend × State) x =>
        if x.port = p then
          let t := a.2.takeSession
          (a.1 ++ [{ x with port := otherPort p, other := true, session := t.1 }], t.2)
        else (a.1 ++ [x], a.2)) ([], s)
      let s := q.2.setColl { c with sends := q.1, degraded := true }
      s.each (q.1.filter (fun x => x.other && x.port == otherPort p)) (fun s x => s.sendCollStep c x))

/-- The collectives with a member at a revoked package end with FENCED. -/
def State.fenceColls (s : State) (pos : Nat) : State :=
  s.each (s.torus.colls.filter (fun c => (s.collMembers (collRings c.desc)).contains pos)) (fun s c => s.abortColl c ccFenced 0xFF)

end Sys2Proof.Machine
end

