-- ==== Sys2Proof/Machine/Experts.lean ====
section
/-!
DEFINITION. Expert gating (R179, R180), remote experts (R329) and the DATA packets that carry them and the collectives (R317).
Staged experts go on at every beat boundary, so BEAT_BOUNDARY stands here.
-/
namespace Sys2Proof.Machine

/-! ### The top-k entries and the dispatch lists (R180) -/

/-- TOPK_K of the entries at an address: that of the string's group whose TOPK_ADDR it is (log 33). -/
def State.gateK (s : State) (x a : Nat) : Nat :=
  ((((List.range 24).map (fun i => (s.team (24 * x + i)).groups.map (fun e => e.2.desc))).flatten.find? (fun d =>
    d.topkK != 0 && d.topkAddr == a)).map (fun d => d.topkK)).getD 0

/-- The entries of `n` vectors: vector, value, position; those with position 0xFFFF_FFFF skipped. -/
def gateEntries (k n : Nat) (b : List Nat) : List (Nat × Nat × Nat) :=
  (((List.range n).map (fun v => (List.range k).map (fun j => (v, field b (8 * (v * k + j)) 4, field b (8 * (v * k + j) + 4) 4)))).flatten).filter
    (fun e => e.2.2 != 0xFFFFFFFF)

/-- The expert record of a set and a position: its index. -/
def expertIndex (h : List Nat) (set pos : Nat) : Option Nat :=
  (List.range (field h 12 2)).find? (fun i => (harnessExpert h i).set == set && (harnessExpert h i).position == pos)

/-- The experts that some entry chooses, in ascending POSITION, each with its listed vectors and values. -/
def chosen (h : List Nat) (set : Nat) (es : List (Nat × Nat × Nat)) : List (Nat × List (Nat × Nat)) :=
  let ps := ((es.map (fun e => e.2.2)).eraseDups).mergeSort (fun a b => decide (a ≤ b))
  ps.filterMap (fun p => (expertIndex h set p).map (fun i => (i, (es.filter (fun e => e.2.2 == p)).map (fun e => (e.1, e.2.1)))))

/-- A dispatch list. -/
def dispatchList (vs : List (Nat × Nat)) : List Nat :=
  leBytes 4 vs.length ++ (vs.map (fun v => leBytes 4 v.1 ++ leBytes 4 v.2)).flatten

/-! ### Firing -/

/-- The OPEN group of a team that a layer's contributions go to: the one whose LAYER is the layer's LOCAL (log 33). -/
def State.layerGroup (s : State) (t loc : Nat) : Option Nat :=
  ((s.team t).groups.find? (fun e => e.2.st == 1 && e.2.desc.layer == loc)).map (fun e => e.1)

/-- The bytes of the listed vectors of a layer: index, address, bytes. `none` when one lies out of reach. -/
def State.listedInput (s : State) (x p a : Nat) (l : Layer) (vs : List Nat) : List (Nat × Nat × List Nat) × Bool × Bool × State :=
  let n := mxSize l.inMx (l.rowSegs * 1024)
  vs.foldl (fun acc v =>
    let r := acc.2.2.2.readThrough (unitString x) (a + v * n) n
    (acc.1 ++ [(v, a + v * n, r.1)], acc.2.1 || !s.reaches p (a + v * n) n, acc.2.2.1 || r.2.1, r.2.2)) ([], false, false, s)

/-- The listed vectors of a layer as its retained input holds them, which a replay reads again (R165). -/
def State.listedAgain (s : State) (x p a : Nat) (l : Layer) (vs : List Nat) (r : Retained) :
    List (Nat × Nat × List Nat) × Bool × Bool × State :=
  let n := mxSize l.inMx (l.rowSegs * 1024)
  let b := s.loadInput p x r.pieces
  (((List.range vs.length).zip vs).map (fun e => (e.2, a + e.2 * n, slice b.1 (e.1 * n) n)), false, b.2.1, b.2.2)

/-- The work of an expert on the string: per layer and team, the listed vectors; out of reach, UE, and the state after the
reads. Each layer with work here retains its input (R163), and counts as a VEC does; the earliest offending layer of a replay
reads its retained input. -/
def State.expertWork (s : State) (x p a : Nat) (y : Step) (h : List Nat) (e : Expert) (vs : List Nat) :
    List ExpertWork × Bool × Bool × State :=
  let step := y.id
  e.layerList.foldl (fun acc l =>
    let r := match acc.2.2.2.again x y l with
      | some q => acc.2.2.2.listedAgain x p a (harnessLayer h l) vs q
      | none => acc.2.2.2.listedInput x p a (harnessLayer h l) vs
    let ts := placeTeams (stringPlaces h l x)
    let occ := (r.2.2.2.seq x).occ step l
    let ws := ts.map (fun t =>
      let g := s.layerGroup t (localLayer h t l)
      { layer := l, team := t, group := g.getD 0, stray := g.isNone, vecs := r.1, occ := occ : ExpertWork })
    let s' := if ts.isEmpty then r.2.2.2 else r.2.2.2.retain x p step l (r.1.map (fun v => v.2.2)).flatten
    (acc.1 ++ ws, acc.2.1 || r.2.1, acc.2.2.1 || r.2.2.1, s')) ([], false, false, s)

/-- Bytes that an expert's layers retain of `n` vectors on a string. -/
def expertInput (h : List Nat) (e : Expert) (x n : Nat) : Nat :=
  (e.layerList.map (fun l =>
    let r := harnessLayer h l
    if (stringPlaces h l x).isEmpty then 0 else n * mxSize r.inMx (r.rowSegs * 1024))).sum

/-- Work is queued on its team. -/
def State.queueWork (s : State) (step : Nat) (h : List Nat) (w : ExpertWork) : State :=
  let ps := (layerPlaces h w.layer).filter (fun y => y.team == w.team)
  let js := vecJobs step w.layer w.group w.stray w.occ w.vecs ps
  (s.setTeam w.team { s.team w.team with jobs := (s.team w.team).jobs ++ js }).showTeam w.team

/-- EXPERT_CALL, then the listed vectors in their session (R329). -/
def State.callExpert (s : State) (c : ExpCall) (p : Nat) (h : List Nat) : State :=
  let e := harnessExpert h c.expert
  let t := s.takeSession
  let s := t.2.sendTo c.dst p 0x20 2 true (leBytes 4 c.id ++ leBytes 2 e.set ++ leBytes 2 e.position ++ leBytes 2 c.vectors ++ [0, 0] ++
    leBytes 4 t.1 ++ leBytes 4 c.bytes.length ++ leBytes 4 c.outBytes)
  match s.route c.dst with
  | some q => s.sendData p q c.dst 1 t.1 s.now c.bytes
  | none => s.unroutable c.dst

/-- A call identifier. -/
def State.takeCall (s : State) : Nat × State :=
  (s.torus.nextCall, { s with torus := { s.torus with nextCall := (s.torus.nextCall + 1) % 2 ^ 32 } })

/-- The calling team of a string's GATE: the spec names none, so the string's first (log 33). -/
def callingTeam (x : Nat) : Nat := 24 * x

/-- One expert of a GATE fires; `out` is where its results go. Answers where the next expert's go. -/
def State.fire (s : State) (x a out : Nat) (y : Step) (h : List Nat) (c : Nat × List (Nat × Nat)) : Nat × State :=
  let e := harnessExpert h c.1
  if (s.step? y.id).isNone then (out, s) else
  let rest := (s.seq x).retained.filter (fun z => z.step == y.id)
  if e.home ≠ 2 ∧ s.retainArea y.part < expertInput h e x c.2.length + retainedBytes rest then (out, s.retainOverflow y.id) else
  let r := s.expertWork x y.part a y h e (c.2.map (fun v => v.1))
  if r.2.1 then (out, s.teamSeqFault x (callingTeam x) 0x08 0xFF 0xFF (a % 2 ^ 32))
  else if r.2.2.1 then (out, r.2.2.2.seqFail x)
  else
    let s := r.2.2.2
    match e.home with
    | 0 => (out, s.each r.1 (fun s w => s.queueWork y.id h w))
    | 1 => (out, s.setSeqr x { s.seq x with experts := (s.seq x).experts ++ [⟨c.1, y.id, 0, r.1⟩] })
    | _ =>
      let q := s.listedInput x y.part a (harnessLayer h e.firstLayer) (c.2.map (fun v => v.1))
      let n := Config.expertOut e.set e.position c.2.length
      if q.2.2.1 then (out, q.2.2.2.seqFail x) else
      let s := q.2.2.2
      let k := s.takeCall
      let call : ExpCall := { id := k.1, step := y.id, str := x, expert := c.1, dst := e.whr % 4096, vectors := c.2.length,
                              bytes := (q.1.map (fun v => v.2.2)).flatten, outAddr := out, outBytes := n, again := false, sessionOut := none, since := s.now }
      let s := { k.2 with torus := { k.2.torus with calls := k.2.torus.calls ++ [call] } }
      (up64 (out + n), s.unlessQuarantined (fun s => s.callExpert call y.part h))

/-- Experts fire: resident first, then the others, each in ascending POSITION. -/
def State.fireAll (s : State) (x a : Nat) (y : Step) (h : List Nat) : (out : Nat) → List (Nat × List (Nat × Nat)) → State
  | _, [] => s
  | out, c :: cs => let r := s.fire x a out y h c; r.2.fireAll x a y h r.1 cs

/-- The body of GATE. -/
def State.gate (s : State) (x set topk inp disp vectors : Nat) (y : Step) : State :=
  let h := s.harness y.part
  let s := s.countOp x 25 1
  let k := s.gateK x topk
  let n := vectors * k * 8
  if !s.reaches y.part topk n then s.teamSeqFault x (callingTeam x) 0x08 0xFF 0xFF (topk % 2 ^ 32) else
  let r := s.readThrough (unitString x) topk n
  if r.2.1 then r.2.2.seqFail x else
  let es := gateEntries k vectors r.1
  let s := r.2.2.countOp x 26 (es.filter (fun e => (expertIndex h set e.2.2).isNone)).length
  let cs := chosen h set es
  let b := (cs.map (fun c => dispatchList c.2)).flatten
  if !s.reaches y.part disp b.length then s.teamSeqFault x (callingTeam x) 0x08 0xFF 0xFF (disp % 2 ^ 32) else
  let s := s.writeThrough (unitString x) disp b
  let home := fun (c : Nat × List (Nat × Nat)) => (harnessExpert h c.1).home
  s.fireAll x inp y h (up64 (disp + b.length)) (cs.filter (fun c => home c == 0) ++ cs.filter (fun c => home c != 0))

/-- The stall of GATE: a swap pending of a chosen resident expert's role, a full queue, or a retention area that older steps
still fill. -/
def State.gateStall (s : State) (x set topk vectors : Nat) (y : Step) : Option (Nat × Nat × Nat) :=
  let h := s.harness y.part
  let k := s.gateK x topk
  if !s.reaches y.part topk (vectors * k * 8) then none else
  let cs := chosen h set (gateEntries k vectors (s.codedBytes topk (vectors * k * 8)))
  let here := cs.filter (fun c => (harnessExpert h c.1).home != 2)
  firstStall [
    cs.findSome? (fun c => if (harnessExpert h c.1).home = 0 then
      s.workStall false (expertStringPlaces h (harnessExpert h c.1) x) else none),
    s.retainStall x (here.map (fun c => expertInput h (harnessExpert h c.1) x c.2.length)).sum y (s.seq x).retained]

/-- GATE (R180): SET, and the registers of the top-k entries, the input and the dispatch area. It is none of the instructions whose
operands LOAD and STORE breakpoints compare (R490). -/
def execGate (x set topk inp disp vectors : Nat) (s : State) : Host.Outcome State Fault Refusal :=
  match s.seqStep x with
  | none => .next s
  | some y =>
    let q := s.seq x
    let t := q.a topk
    .next (s.issue x (touchNone 0x28) (s.gateStall x set t vectors y) Seq.advance
      (fun s => s.gate x set t (q.a inp) (q.a disp) vectors y))

/-! ### Staged experts (R180, R260, R261) -/

/-- A role is claimed by a staged expert, or a swap of it is pending. -/
def State.roleTaken (s : State) (y : Place) : Bool :=
  Map.get 0 (s.team y.team).claims y.role != 0 || s.swapPending y.team y.role

/-- One placement's record is loaded from the expert's staged copy; a copy in a neighbour's tier comes by PLANE_WRITE, and
the plane waits for it as a marked one does. -/
def State.loadExpert (s : State) (x unit : Nat) (e : Nat × Place) : State :=
  if remoteTier unit then
    let k := (s.team e.2.team).tileOf e.2.role
    let y := s.tile e.2.team k
    (s.setTile e.2.team k { y with marked := (y.marked ++ [e.2.plane]).eraseDups }).showTeam e.2.team
  else
    let q := s.readThrough (unitTeam e.2.team) (stageAddr unit e.1) recordBytes
    if q.2.1 then q.2.2.seqFail x else (q.2.2.roleWrite (unitTeam e.2.team) e.2.team e.2.role e.2.plane 0 q.1).showTeam e.2.team

/-- A team still holds work of a step, or of another package's call. -/
def State.workLeft (s : State) (t id : Nat) : Bool :=
  let x := s.team t
  x.jobs.any (fun j => j.step == id) || x.records.any (fun r => r.pulse.step == id) || x.combining.any (fun r => r.pulse.step == id) ||
  x.deliveries.any (fun d => d.step == id) ||
  (s.teamTiles t).any (fun k => (s.tile t k).loading.any (fun q => q.step == id) ||
    (match (s.tile t k).driving with | some q => q.step == id | none => false))

/-- Work of some layers of a step is still on a team. -/
def State.layersBusy (s : State) (t step : Nat) (ls : List Nat) : Bool :=
  let x := s.team t
  let of := fun (q : Pulse) => q.step == step && ls.contains q.layer
  x.jobs.any (fun j => j.step == step && ls.contains j.layer) ||
  (s.teamTiles t).any (fun k => (s.tile t k).loading.any of || (match (s.tile t k).driving with | some q => of q | none => false))

/-- An expert's placements in a string, each with its index among all of them. -/
def expertMine (h : List Nat) (e : Expert) (x : Nat) : List (Nat × Place) :=
  let all := expertPlaces h e
  ((List.range all.length).zip all).filter (fun z => teamString z.2.team == x)

/-- A staged expert goes one stage further where it can: the run as it then stands, none once it has swapped back. -/
def State.expertGoes (s : State) (x p : Nat) (r : ExpertRun) : Option ExpertRun × State :=
  let h := s.harness p
  let e := harnessExpert h r.expert
  let ps := expertStringPlaces h e x
  match r.st with
  | 0 =>
    if ps.any s.roleTaken then (some r, s) else
    if e.home = 0 then (some { r with st := 2 }, s.each r.work (fun s w => s.queueWork r.step h w)) else
    let s := s.claim ps (r.expert + 1)
    if remoteTier e.whr && !s.remoteUp e.whr then (some { r with st := 4 }, s) else
    (some { r with st := 1 }, (s.each (expertMine h e x) (fun s z => s.loadExpert x e.whr z)).swapPlaces ps false)
  | 1 =>
    if !ps.all s.placeLive then (some r, s) else
    (some { r with st := 2 }, s.each r.work (fun s w => s.queueWork r.step h w))
  | 2 =>
    if (placeTeams ps).any (fun t => s.layersBusy t r.step e.layerList) then (some r, s) else
    if e.home = 0 then (none, s) else
    (some { r with st := 3 }, (s.claim ps 0).swapPlaces ps true)
  | 3 => if ps.any s.placeLive then (some r, s) else (none, s)
  | _ =>
    if !s.remoteUp e.whr then (some r, s) else
    (some { r with st := 1 }, (s.each (expertMine h e x) (fun s z => s.loadExpert x e.whr z)).swapPlaces ps false)

/-- The staged experts of a string go on. -/
def State.expertsGo (s : State) (x : Nat) : State :=
  match s.stringPart x with
  | none => s
  | some p =>
    s.each (s.seq x).experts (fun s r =>
      if !(s.seq x).experts.contains r then s else
      let q := s.expertGoes x p r
      q.2.setSeqr x { q.2.seq x with experts := (q.2.seq x).experts.filterMap (fun z => if z = r then q.1 else some z) })

/-- A staged expert still waits for its copy from a neighbour. -/
def State.awaitsCopy (s : State) (x : Nat) (h : List Nat) (r : ExpertRun) : Bool :=
  r.st == 4 || (r.st == 1 && (expertStringPlaces h (harnessExpert h r.expert) x).any (fun y =>
    (s.tile y.team ((s.team y.team).tileOf y.role)).marked.contains y.plane))

/-- REMOTE_TIER_WAIT_EXPIRE (R261): the port of a neighbour's copy of a model, or of an `expert`, has not been UP for 1 ms; the
load fails its step as a UE fault of the team. -/
def execRemoteTierWaitExpire (x : Nat) (expert : Bool) (n : Nat) (s : State) : Host.Outcome State Fault Refusal :=
  match s.stringPart x with
  | none => .next s
  | some p =>
    let h := s.harness p
    if expert then
      let e := harnessExpert h n
      if !remoteTier e.whr || s.remoteUp e.whr then .next s else
      match (s.seq x).experts.find? (fun r => r.expert == n && s.awaitsCopy x h r) with
      | none => .next s
      | some r =>
        .next ((s.dropExpert x h r).faultStep r.step false ((placeTeams (expertStringPlaces h e x)).headD (24 * x)) 0x0A 0xFF 0xFF
          (remotePort e.whr))
    else
      let unit := (harnessModel h n).stageUnit
      if !remoteTier unit || s.remoteUp unit then .next s else
      match (s.seq x).loading.find? (fun e => e.1 == n) with
      | none => .next s
      | some e =>
        let s := s.setSeqr x { s.seq x with loading := (s.seq x).loading.filter (· != e) }
        .next (s.faultStep e.2 false ((placeTeams (modelStringPlaces h n x)).headD (24 * x)) 0x0A 0xFF 0xFF (remotePort unit))

/-! ### Remote experts, the serving side (R329) -/

def State.sendDone (s : State) (dst part id code session : Nat) : State :=
  s.sendTo dst part 0x21 2 true (leBytes 4 id ++ [code, 0, 0, 0] ++ leBytes 4 session)

/-- The call is replaced in the list of those served. -/
def State.putServed (s : State) (v w : Served) : State :=
  { s with torus := { s.torus with served := s.torus.served.map (fun z => if z = v then w else z) } }

/-- The listed vectors as they came: index and bytes of each, `n` for a layer. -/
def callVectors (v : Served) (b : List Nat) (n : Nat) : List (Nat × Nat × List Nat) :=
  (List.range v.vectors).map (fun i => (i, 0, slice b (i * (v.inBytes / v.vectors)) n))

/-- The work of a call on the string that serves it: as of a local dispatch, with no group of a step to go to. -/
def callWork (h : List Nat) (v : Served) (x : Nat) (b : List Nat) : List ExpertWork :=
  ((harnessExpert h v.expert).layerList.map (fun l =>
    let r := harnessLayer h l
    (placeTeams (stringPlaces h l x)).map (fun t =>
      { layer := l, team := t, group := 0, stray := true, vecs := callVectors v b (mxSize r.inMx (r.rowSegs * 1024)) : ExpertWork }))).flatten

/-- The results of a served call: its OUT_BYTES, for which the spec gives neither layout nor place, are free values (log 32), sent in
a session of this package before EXPERT_DONE. -/
def State.answerCall (s : State) (v : Served) : State :=
  let r := (List.range v.outBytes).foldl (fun (acc : List Nat × State) _ => let d := acc.2.draw; (acc.1 ++ [d.1 % 256], d.2)) ([], s)
  let q := r.2.takeSession
  let s := match q.2.route v.src with
    | some port => q.2.sendData v.part port v.src 1 q.1 q.2.now r.1
    | none => q.2.unroutable v.src
  s.endCall v 0 q.1

/-- A served call goes on: once its vectors are all here its expert runs on the string as one that a GATE dispatched (R180); when the
string has done with it, the results go back. -/
def State.serve (s : State) (v : Served) : State :=
  let h := s.harness v.part
  if !s.inService v.part then s.endCall v 2 0 else
  match s.servingString v with
  | none => s.endCall v 1 0
  | some x =>
    let ps := expertStringPlaces h (harnessExpert h v.expert) x
    if (placeTeams ps).any (fun t => (s.team t).outOfService) || (s.region x).stopped then s.endCall v 3 0 else
    match v.run with
    | none =>
      (match s.session? v.src v.sessionIn with
       | none => s
       | some z =>
         if !z.covers v.inBytes then s else
         let id := s.nextStep
         let s := ({ s.closeSession v.src v.sessionIn with nextStep := id + 1 }).putServed v { v with run := some id }
         s.setSeqr x { s.seq x with experts := (s.seq x).experts ++ [⟨v.expert, id, 0, callWork h v x (z.bytes v.inBytes)⟩] })
    | some id =>
      if (s.seq x).experts.any (fun r => r.step == id && r.st != 3) || (placeTeams ps).any (fun t => s.workLeft t id) then s
      else s.answerCall v

def State.serveAll (s : State) : State := s.each s.torus.served (fun s v => s.serve v)

/-- BEAT_BOUNDARY (R64): `wrong` the corrected differences that a faulty tile forms (team, tile, logical column,
difference), `missing` the chain ends that do not arrive (team, tile, logical column). -/
def execBeatBoundary (wrong : List (Nat × Nat × Nat × Int)) (missing : List (Nat × Nat × Nat)) (s : State) :
    Host.Outcome State Fault Refusal :=
  let s := s.beatBoundary ⟨wrong, missing⟩
  .next (s.each ((s.seqs.filter (fun e => !e.2.experts.isEmpty)).map (fun e => e.1)) (fun s x => s.expertsGo x)).serveAll

/-- A call supersedes one before it: the same caller's of the same expert and sizes, at least COLL_TIMEOUT old, and not newer by SEQ
(R312, R329; log 32). -/
def State.supersedes (s : State) (h : CtrlHdr) (n v : Served) : Bool :=
  v.src == n.src && v.part == n.part && v.expert == n.expert && v.vectors == n.vectors && v.inBytes == n.inBytes &&
  v.outBytes == n.outBytes && decide (v.since + s.collTimeout ≤ s.now) && decide ((h.seq + 2 ^ 32 - v.seq) % 2 ^ 32 < 2 ^ 31)

/-- A superseded call's work and results are dropped. -/
def State.dropCall (s : State) (v : Served) : State :=
  let s := { s with torus := { s.torus with served := s.torus.served.filter (· != v) } }
  match v.run, s.servingString v with
  | some id, some x => s.dropCallWork id x
  | _, _ => s.closeSession v.src v.sessionIn

/-- EXPERT_CALL (R329). -/
def execExpertCall (p : Nat) (ok : Bool) (h : CtrlHdr) (id set position vectors sessionIn inBytes outBytes : Nat) (s : State) :
    Host.Outcome State Fault Refusal :=
  .next (s.ctrlIn p ok 0x20 h
    (leBytes 4 id ++ leBytes 2 set ++ leBytes 2 position ++ leBytes 2 vectors ++ [0, 0] ++ leBytes 4 sessionIn ++
      leBytes 4 inBytes ++ leBytes 4 outBytes)
    (fun s => s.unlessQuarantined (fun s =>
      if !s.inService h.part then s.sendDone h.srcPos h.part id 2 0 else
      match expertIndex (s.harness h.part) set position with
      | none => s.sendDone h.srcPos h.part id 1 0
      | some e =>
        let v : Served := { src := h.srcPos, part := h.part, id := id, expert := e, vectors := vectors, sessionIn := sessionIn,
                            inBytes := inBytes, outBytes := outBytes, seq := h.seq, since := s.now }
        let s := s.openSession h sessionIn 2
        let s := s.each (s.torus.served.filter (s.supersedes h v)) State.dropCall
        ({ s with torus := { s.torus with served := s.torus.served ++ [v] } }).serveAll)))

/-! ### Remote experts, the calling side -/

/-- A call whose results are all here: they reach the dispatch area, and the call ends. -/
def State.collect (s : State) (c : ExpCall) : State :=
  match c.sessionOut with
  | none => s
  | some n =>
    match s.session? c.dst n, s.step? c.step with
    | some x, some y =>
      if !x.covers c.outBytes then s else
      let s := s.closeSession c.dst n
      let s := { s with torus := { s.torus with calls := s.torus.calls.filter (· != c) } }
      if !s.reaches y.part c.outAddr c.outBytes then
        s.faultStep c.step false (callingTeam c.str) 0x08 0xFF 0xFF (c.outAddr % 2 ^ 32)
      else s.writeThrough (unitTeam (callingTeam c.str)) c.outAddr (x.bytes c.outBytes)
    | _, _ => s

def State.collectAll (s : State) : State := s.each s.torus.calls (fun s c => s.collect c)

/-- A call fails its step as a UE fault of the calling team. -/
def State.failCall (s : State) (c : ExpCall) (code : Nat) : State := s.faultStep c.step false (callingTeam c.str) 0x0B 0xFF 0xFF code

/-- EXPERT_DONE (R329). -/
def execExpertDone (p : Nat) (ok : Bool) (h : CtrlHdr) (id code session : Nat) (s : State) : Host.Outcome State Fault Refusal :=
  .next (s.ctrlIn p ok 0x21 h (leBytes 4 id ++ [code, 0, 0, 0] ++ leBytes 4 session) (fun s => s.unlessQuarantined (fun s =>
    match s.torus.calls.find? (fun c => c.id == id && c.dst == h.srcPos) with
    | none => s
    | some c =>
      if code ≠ 0 then s.failCall c code else
      let s := s.openSession h session 3
      ({ s with torus := { s.torus with
          calls := s.torus.calls.map (fun d => if d = c then { d with sessionOut := some session } else d) } }).collectAll)))

/-- A call gets no answer: once more with a new CALL_ID, then the step fails. -/
def State.callLost (s : State) (id : Nat) : State :=
  match s.torus.calls.find? (fun c => c.id == id) with
  | none => s
  | some c =>
    if c.sessionOut.isSome then s else
    if c.again then s.failCall c 0xFF else
    match s.step? c.step with
    | none => s
    | some y =>
      let k := s.takeCall
      let d := { c with id := k.1, again := true }
      let s := { k.2 with torus := { k.2.torus with calls := k.2.torus.calls.map (fun z => if z = c then d else z) } }
      s.unlessQuarantined (fun s => s.callExpert d y.part (s.harness y.part))

/-- EXPERT_CALL_TIMEOUT (R329): no EXPERT_DONE within COLL_TIMEOUT. -/
def execExpertCallTimeout (id : Nat) (s : State) : Host.Outcome State Fault Refusal := .next (s.callLost id)

/-! ### DATA packets (R310, R317) -/

/-- A sender's bytes are awaited before the message that opens their session comes (R325, R329, log 34): it is a member of a
collective in progress, or an outstanding call's destination. -/
def State.awaits (s : State) (src : Nat) : Bool :=
  s.torus.colls.any (fun c => (s.collMembers (collRings c.desc)).contains src) || s.torus.calls.any (fun c => c.dst == src)

/-- A piece is placed by OFFSET in a session. -/
def State.putPiece (s : State) (src num off : Nat) (b : List Nat) : State :=
  { s with torus := { s.torus with sessions := s.torus.sessions.map (fun x =>
      if x.src = src ∧ x.num = num then { x with pieces := x.pieces ++ [(off, b)] } else x) } }

end Sys2Proof.Machine
end

