-- ==== Sys2Proof/Machine/Links.lean ====
section
/-!
DEFINITION. Ports, lanes, flits, causeways, discovery, routing plans and revocation (R289 to R322, R328, R331).
-/
namespace Sys2Proof.Machine

/-! ### A port's state and its registers -/

/-- What a lane keeps of the last millisecond. -/
def Lane.lastMs (y : Lane) (now : Nat) : List (Nat × Nat) := y.recent.filter (fun e => decide (now < e.1 + msTicks 1))

/-- LINK_LANE follows the lane that LINK_LANE_SEL selects. -/
def State.showLane (s : State) (p : Nat) : State :=
  let x := Map.get {} (s.port p).lanes (s.fget (Reg.linkLaneSelLane.port p))
  let s := (s.fset (Reg.linkLaneState.port p) x.st).fset (Reg.linkLaneLogical.port p) x.logical
  s.fset (Reg.linkLaneSymErr.port p) (min 0xFFFF ((x.lastMs s.now).map (·.2)).sum)

/-- Corrected symbols of a lane are kept for a millisecond. -/
def State.laneSyms (s : State) (p lane n : Nat) : State :=
  let x := s.port p
  let y := Map.get {} x.lanes lane
  s.setPort p { x with lanes := Map.set {} x.lanes lane { y with recent := y.lastMs s.now ++ [(s.now, n)] } }

/-- Position of the peer, as LINK_PEER shows it. -/
def State.peerPos (s : State) (p : Nat) : Nat :=
  s.fget (Reg.linkPeerX.port p) + 16 * s.fget (Reg.linkPeerY.port p) + 256 * s.fget (Reg.linkPeerZ.port p)

/-- LINK_STATUS.STATE and LANES change, with the LINK entry of the trace (R495); the sources of time follow (R373). -/
def State.setLink (s : State) (p st width : Nat) : State :=
  let old := s.linkSt p
  let s := (s.fset (Reg.linkStatusState.port p) st).fset (Reg.linkStatusLanes.port p) width
  let s := s.traceEvent 4 (unitPort p) 0x50 ([p, old, st, s.fget (Reg.linkStatusCause.port p)] ++ leBytes 2 (s.peerPos p))
  s.updateHealth.reSource

/-- Lanes with no traffic: OFF, no logical position. -/
def State.lanesOff (s : State) (p : Nat) : State :=
  (s.setPort p { s.port p with lanes := [], subs := 0 }).showLane p

/-- A training begins: the initial one of R295, or a full training or retrain. -/
def State.train (s : State) (p : Nat) (initial : Bool) : State :=
  (s.setPort p { s.port p with initial := initial, attempts := 0, firstFail := none }).setLink p lkTraining 0

/-- A retrain from UP or DEGRADED. -/
def State.retrain (s : State) (p : Nat) : State :=
  if s.linkUp p then (s.bump (Reg.linkRetrains.port p)).train p false else s

/-- The port goes DARK: transmitters off. -/
def State.darken (s : State) (p : Nat) : State := (s.lanesOff p).setLink p lkDark 0

/-- Something holds the port dark: LINK_CTRL.DARK, discovery, a digest difference, its engine's sensor. -/
def State.heldDark (s : State) (p : Nat) : Bool :=
  s.flag (Reg.linkCtrlDark.port p) || (s.port p).discDark || (s.port p).skewDark || (s.port p).sensorDark

/-- A DARK port leaves DARK when its causeway is OPEN, its policy is not UNUSED and nothing holds it (R295). -/
def State.undark (s : State) (p : Nat) : State :=
  if s.linkSt p = lkDark ∧ s.fget (Reg.cwayStatusState.port p) = cwOpen ∧ s.policy p ≠ 0 ∧ !s.heldDark p then s.train p true else s

/-! ### Causeways (R297, R298) -/

/-- The causeway of an axis, as both its windows show it. -/
def State.setCway (s : State) (a st : Nat) : State :=
  (s.fset (Reg.cwayStatusState.port (2 * a)) st).fset (Reg.cwayStatusState.port (2 * a + 1)) st
def State.cway (s : State) (a : Nat) : Nat := s.fget (Reg.cwayStatusState.port (2 * a))
def State.setCwayHeld (s : State) (a : Nat) (b : Bool) : State :=
  (s.fput (Reg.cwayStatusHeld.port (2 * a)) b).fput (Reg.cwayStatusHeld.port (2 * a + 1)) b
def State.setCwayFault (s : State) (a : Nat) (b : Bool) : State :=
  (s.fput (Reg.cwayStatusFault.port (2 * a)) b).fput (Reg.cwayStatusFault.port (2 * a + 1)) b

/-- The switch of an axis is driven towards OPEN, unless both its ports are UNUSED. -/
def State.openCway (s : State) (a : Nat) : State :=
  if s.cway a = cwClosed ∧ (s.policy (2 * a) ≠ 0 ∨ s.policy (2 * a + 1) ≠ 0) then ((s.setCway a cwOpening).setCwayHeld a false).setCwayFault a false else s

/-- An OPEN causeway is closed by command or by CWAY_ON_FAULT. -/
def State.holdCway (s : State) (a : Nat) : State :=
  if s.cway a = cwOpen then
    (s.each [2 * a, 2 * a + 1] State.darken).setCway a cwClosing |>.setCwayHeld a true
  else s

/-- CWAY_OPEN (R298): CWAY_CTRL.OPEN of an axis, ignored outside READY. -/
def execCwayOpen (a : Nat) (s : State) : Host.Outcome State Fault Refusal := .next (if s.ready then s.openCway a else s)

/-- CWAY_CLOSE (R298). -/
def execCwayClose (a : Nat) (s : State) : Host.Outcome State Fault Refusal := .next (s.holdCway a)

/-- CWAY_CONFIRM (R298): the switch confirms its position. -/
def execCwayConfirm (a : Nat) (s : State) : Host.Outcome State Fault Refusal :=
  if s.cway a = cwOpening then .next ((s.setCway a cwOpen).each [2 * a, 2 * a + 1] State.undark)
  else if s.cway a = cwClosing then .next (s.setCway a cwClosed)
  else .next s

/-- CWAY_CONFIRM_TIMEOUT (R298): no confirmation within 2 ms while OPENING. -/
def execCwayConfirmTimeout (a : Nat) (s : State) : Host.Outcome State Fault Refusal :=
  if s.cway a = cwOpening then
    .next (((s.setCway a cwClosing).setCwayFault a true).torusRecord 1 0x68 s.position (2 * a) 0xFF (s.incarnation (unitPort (2 * a))) cwClosing)
  else .next s

/-! ### DOWN (R295, R296, R319) -/

/-- The packets that the router still queues for a port are routed again; one for the peer on the link itself has no other
way. -/
def State.requeue (s : State) (ks : List Packet) : State :=
  s.each ks (fun s k =>
    if k.dst = 0xFFFF then s
    else if k.inp < 6 then s.forward k.inp k
    else match s.route k.dst with
      | some q => s.enqueue q { k with vc := s.nextVc q none }
      | none => s.unroutable k.dst)

/-- A port goes to DOWN with a cause: the packets it has accepted are lost and those that wait are routed again, its
incarnation is revoked, LINK_STATE is flooded, collectives
go the other way; both ports of an axis DOWN by LASER close the causeway where CWAY_ON_FAULT asks for it. -/
def State.portDown (s : State) (p cause : Nat) : State :=
  let s := (s.fset (Reg.linkStatusCause.port p) cause).raise (Reg.linkErrDown.port p)
  let x := s.port p
  let s := s.setPort p { x with replay := [], waiting := [], lastNak := none, naks := 0, naking := false, upSince := none }
  let s := ((s.lanesOff p).setLink p lkDown 0).requeue x.waiting
  let s := s.torusRecord 1 0x61 (s.peerPos p) p 0xFF (s.incarnation (unitPort p)) cause
  let s := ((s.revokeOwn (unitPort p)).floodLinkState p).rerouteColls p
  let q := otherPort p
  if cause = 3 ∧ s.linkSt q = lkDown ∧ s.fget (Reg.linkStatusCause.port q) = 3 ∧ s.cwayOnFault (portAxis p) then s.holdCway (portAxis p) else s

/-- LASER_LOW (R290). -/
def execLaserLow (p : Nat) (s : State) : Host.Outcome State Fault Refusal :=
  if s.linkUp p then
    let s := s.raise (Reg.linkErrLaserLow.port p)
    .next ((s.torusRecord 1 0x69 (s.peerPos p) p 0xFF (s.incarnation (unitPort p)) 0).portDown p 3)
  else .next s

/-- DOWN_LIGHT_CHECK (R295): light at a DOWN port starts full training. -/
def execDownLightCheck (p : Nat) (light : Bool) (s : State) : Host.Outcome State Fault Refusal :=
  .next (if s.linkSt p = lkDown ∧ light then s.train p false else s)

/-- LINK_RETRAIN (R295). -/
def execLinkRetrain (p : Nat) (s : State) : Host.Outcome State Fault Refusal := .next (s.retrain p)

/-- LINK_DARK (R295): LINK_CTRL.DARK. -/
def execLinkDark (p : Nat) (dark : Bool) (s : State) : Host.Outcome State Fault Refusal :=
  let s := s.fput (Reg.linkCtrlDark.port p) dark
  .next (if dark then s.darken p else s.undark p)

/-! ### Flits and replay (R291, R292) -/

/-- An ACK frees the flits up to it. -/
def TorPort.ackTo (x : TorPort) (ack : Nat) : TorPort :=
  if x.replay.any (fun f => f.seq == ack) then
    { x with replay := (x.replay.dropWhile (fun f => f.seq != ack)).drop 1, lastNak := none, naks := 0 }
  else x

/-- A NAK with the last good SEQ: every flit after it is resent; a flit whose replay fails four times in a row starts a
retrain. -/
def State.onNak (s : State) (p last : Nat) : State :=
  let n := if (s.port p).lastNak = some last then (s.port p).naks + 1 else 1
  let x := (s.port p).ackTo last
  let s := (s.setPort p { x with lastNak := some last, naks := n }).bumpBy (Reg.linkReplays.port p) x.replay.length
  let s := s.each x.replay (fun s f => s.sendFlit p f)
  if 5 ≤ n then s.retrain p else s.drainPort p

/-- The fields of a received flit's header, and whether its link CRC is right. -/
def flitSeq (b : List Nat) : Nat := bits (field b 0 4) 14 0
def flitLm (b : List Nat) : Bool := (field b 0 4).testBit 15
def flitAck (b : List Nat) : Nat := bits (field b 0 4) 30 16
def flitNak (b : List Nat) : Bool := (field b 0 4).testBit 31
def flitGood (b : List Nat) : Bool := crc32 (b.take 508) == field b 508 4

/-- The flit expected next is accepted and acknowledged; one that does not follow is discarded, and the first such answered
with NAK. -/
def State.acceptFlit (s : State) (p seq : Nat) : State :=
  let x := s.port p
  if seq = x.rxSeq then (s.setPort p { x with rxSeq := (seq + 1) % 32768, naking := false }).answerFlit p false
  else if x.naking then s
  else (s.setPort p { x with naking := true }).answerFlit p true

/-- FLIT_RECEIVE (R291, R292): the 512 bytes, the codewords corrected (lane and symbols) and how many are uncorrectable. A flit that fails is discarded with every
later one and answered with NAK of the last good SEQ. -/
def execFlitReceive (p : Nat) (bytes : List Nat) (corr : List (Nat × Nat)) (uncorr : Nat) (s : State) :
    Host.Outcome State Fault Refusal :=
  if !s.linkUp p || s.hubStopped then .next s else
  let b := padTo 512 (bytes.map (· % 256))
  let s := (s.each corr (fun s e => s.laneSyms p e.1 e.2)).showLane p
  let s := (s.bumpBy (Reg.linkFecCorr.port p) corr.length).bumpBy (Reg.linkFecUncorr.port p) uncorr
  if !flitGood b || decide (0 < uncorr) then
    let s := if flitGood b then s else s.bump (Reg.linkCrcErr.port p)
    .next ((s.setPort p { s.port p with naking := true }).answerFlit p true)
  else
    let s := if flitNak b then s.onNak p (flitAck b) else (s.setPort p ((s.port p).ackTo (flitAck b))).drainPort p
    .next (if flitLm b then s else s.acceptFlit p (flitSeq b))

/-- NAK_RECEIVED (R292). -/
def execNakReceived (p last : Nat) (s : State) : Host.Outcome State Fault Refusal :=
  .next (if s.linkUp p && !s.hubStopped then s.onNak p last else s)

/-! ### Lanes (R293, R294) -/

/-- The lowest-numbered lane in a state. -/
def TorPort.lowest (x : TorPort) (st : Nat) : Option Nat := (List.range 34).find? (fun i => (Map.get {} x.lanes i).st == st)
def TorPort.count (x : TorPort) (st : Nat) : Nat := ((List.range 34).filter (fun i => (Map.get {} x.lanes i).st == st)).length

/-- LANE_FAIL (R293): the lowest spare lane takes an active lane's place; with none left the port retrains. -/
def execLaneFail (p lane : Nat) (s : State) : Host.Outcome State Fault Refusal :=
  let x := s.port p
  let y := Map.get {} x.lanes lane
  if !s.linkUp p || !(y.st == 1 || y.st == 2) then .next s else
  let x : TorPort := { x with lanes := Map.set {} x.lanes lane { y with st := 3, logical := 0x3F } }
  let s := ((s.setPort p x).raise (Reg.linkErrLaneFailed.port p)).showLane p
  let left := x.count 2
  let rec_ := fun (s : State) (n : Nat) => s.torusRecord 0 0x60 (s.peerPos p) p lane (s.incarnation (unitPort p)) n
  if y.st = 2 then .next (rec_ s left) else
  match x.lowest 2 with
  | some k =>
    let x : TorPort := { x with
      lanes := Map.set {} x.lanes k { Map.get {} x.lanes k with st := 1, logical := y.logical }, subs := x.subs + 1 }
    .next (((rec_ (s.setPort p x) (left - 1)).bump (Reg.linkLaneSubs.port p)).showLane p).updateHealth
  | none => .next ((rec_ s 0).retrain p)

/-- The lanes after a training: the lowest-numbered good lanes active, the other good ones spare, the rest failed. -/
def trainedLanes (good : List Nat) (width : Nat) : SMap Lane :=
  (List.range 34).foldl (fun m i =>
    let k := (good.filter (fun g => decide (g < i))).length
    let v : Lane := if good.contains i then (if k < width then { st := 1, logical := k } else { st := 2 }) else { st := 3 }
    Map.set {} m i v) []

/-! ### Discovery (R303 to R308) -/

/-- The peer's place as R305 asks for it: places from here along the port's direction, `none` off the port's line. -/
def State.peerSteps (s : State) (p pos : Nat) : Option Nat :=
  let a := portAxis p
  let n := s.dim a
  if [0, 1, 2].any (fun b => b != a && coord pos b != coord s.position b) || decide (n ≤ coord pos a) then none else
  let d := if portUpward p then (coord pos a + n - coord s.position a) % n else (coord s.position a + n - coord pos a) % n
  some (if d = 0 then n else d)

/-- The HELLO is that of the expected peer; SKIP + 1. -/
def State.expected (s : State) (p : Nat) (b : List Nat) : Option Nat :=
  let pos := field b 28 2
  match s.peerSteps p pos with
  | none => none
  | some k =>
    let id := s.posIdentity pos
    if k ≤ s.maxBypass + 1 ∧ field b 30 1 = otherPort p ∧ slice b 0 16 = padTo 16 s.volz.installation ∧
        (allZero id ∨ id = slice b 16 8) then some k else none

/-- Every port in use has a discovery outcome (R306, R308). -/
def State.allDecided (s : State) : Bool :=
  (List.range 6).all (fun p => s.policy p == 0 || s.fget (Reg.linkStatusDisc.port p) != 0)

/-- A REQUIRED port's outcome holds its partitions until it comes back (R308). -/
def State.lack (s : State) (p : Nat) : State :=
  (s.setPort p { s.port p with lacked := true }).fset Reg.torNeed (s.fget Reg.torNeed ||| s.requiredMask p)

/-- The outcome of a port is recorded; TOR_STATUS counts the missing links per axis and tells when every port has an
outcome (R334), TOR_NEED names the partitions held. -/
def State.setDisc (s : State) (p v : Nat) : State :=
  let s := s.fset (Reg.linkStatusDisc.port p) v
  let miss := fun (s : State) (a : Nat) => ([2 * a, 2 * a + 1].filter (fun q => s.fget (Reg.linkStatusDisc.port q) == 3)).length
  let s := ((s.fset Reg.torStatusLostX (miss s 0)).fset Reg.torStatusLostY (miss s 1)).fset Reg.torStatusLostZ (miss s 2)
  let s := if s.allDecided then s.raise Reg.torStatusDiscDone else s
  (if 2 ≤ v ∧ s.policy p = 2 then s.lack p else s).reSource

/-- A partition's bit is cleared when every port of it that was MISSING, UNEXPECTED or REVOKED has reached UP or DEGRADED with
outcome EXPECTED (R308). -/
def State.clearNeeds (s : State) : State :=
  let s := s.each ((List.range 6).filter (fun q => s.linkUp q && s.fget (Reg.linkStatusDisc.port q) == 1)) (fun s q =>
    s.setPort q { s.port q with lacked := false })
  s.each (List.range 32) (fun s n =>
    let still := (List.range 6).any (fun q => (s.port q).lacked && (s.requiredMask q).testBit n)
    if (s.fget Reg.torNeed).testBit n ∧ !still then s.fset Reg.torNeed (clearBit (s.fget Reg.torNeed) n) else s)

/-- The digests of a HELLO are compared; a difference is new when either side's digest is not the one last compared. Under HOLD_DARK a
RUN_DIGEST difference holds the port DARK, and equal digests end that (R307). -/
def State.compareDigests (s : State) (p : Nat) (b : List Nat) : State :=
  let fw := slice b 32 64
  let run := slice b 160 64
  let x := s.port p
  let skewRun := run != padTo 64 s.volz.runDigest
  let skewFw := fw != padTo 64 s.boot.fwDigest
  let s := (s.fput (Reg.linkStatusConfigSkew.port p) skewRun).fput (Reg.linkStatusFwSkew.port p) skewFw
  let ownRun := padTo 64 s.volz.runDigest
  let ownFw := padTo 64 s.boot.fwDigest
  let s := s.setPort p { s.port p with peerRun := run, peerFw := fw, ownRun := ownRun, ownFw := ownFw }
  let s := if skewRun && (run != x.peerRun || ownRun != x.ownRun) then
      (s.raise (Reg.linkErrSkew.port p)).torusRecord 0 0x64 (field b 28 2) p 0xFF (field b 24 4) (field run 0 4) else s
  let s := if skewFw && (fw != x.peerFw || ownFw != x.ownFw) then
      (s.raise (Reg.linkErrSkew.port p)).torusRecord 0 0x65 (field b 28 2) p 0xFF (field b 24 4) (field fw 0 4) else s
  let s := s.setPort p { s.port p with skewDark := s.holdDark && skewRun }
  if s.holdDark && skewRun then (if s.linkSt p = lkDark then s else s.darken p) else s.undark p

/-- A HELLO decides the port's outcome (R305, R306). A peer that reported this package revoked counts so until it is another, or the
package is re-admitted. -/
def State.onHello (s : State) (p : Nat) (b : List Nat) : State :=
  let pos := field b 28 2
  let inc := field b 24 4
  let x := s.port p
  let fresh := !x.met || x.peerId != slice b 16 8 || x.peerInc != inc
  let s := s.setPort p { x with met := true, peerId := slice b 16 8, peerInc := inc, waySt := if fresh then 0 else x.waySt }
  let s := ((s.fset (Reg.linkPeerX.port p) (coord pos 0)).fset (Reg.linkPeerY.port p) (coord pos 1)).fset (Reg.linkPeerZ.port p) (coord pos 2)
  let s := ((s.fset (Reg.linkPeerPort.port p) (field b 30 1)).fset (Reg.linkPeerIdLo.port p) (field b 16 4)).fset (Reg.linkPeerIdHi.port p) (field b 20 4)
  let s := (s.fset (Reg.linkPeerInc.port p) inc).seenReset pos unitPackage inc
  let s := s.compareDigests p b
  let s := s.setPort p { s.port p with reported := (s.port p).reported && !fresh && s.quarantined }
  if s.isRevoked pos unitPackage inc then (s.fence p pos unitPackage inc).setDisc p 4
  else if (s.port p).reported then s.setDisc p 4 else
  match s.expected p b with
  | some k =>
    let s := ((s.fset (Reg.linkStatusSkip.port p) (k - 1)).setDisc p 1).clearNeeds
    if fresh then s.tellRevs p else s
  | none =>
    let s := (s.setDisc p 2).raise (Reg.linkErrUnexpected.port p)
    let s := s.torusRecord 1 0x62 pos p 0xFF inc (field b 16 4)
    (s.setPort p { s.port p with discDark := true }).darken p

/-- HELLO_SEND (R304). -/
def execHelloSend (p : Nat) (s : State) : Host.Outcome State Fault Refusal := .next (s.sendHello p)

/-- HELLO (R305 to R307): a port held dark by a digest difference still listens for one with equal digests. It is heard whether or not
the port that sends it is revoked (log 109), and acknowledged where it asks for that (R316). -/
def execHello (p : Nat) (ok : Bool) (h : CtrlHdr) (body : List Nat) (s : State) : Host.Outcome State Fault Refusal :=
  if (!s.linkUp p && !(s.port p).skewDark) || s.hubStopped then .next s else
  if !ok then .next (s.bump Reg.torCtrlCrc) else
  let s := (s.seenReset h.srcPos h.srcUnit h.srcInc).ackTo p h
  if s.seenBefore h then .next s else .next ((s.remember h).inOrder h [0x01, p] (fun s => s.onHello p body))

/-- The peer of a training differs from the one before: the replay buffer is discarded and SEQ restarts (R296). -/
def State.newPeer (s : State) (p : Nat) (b : List Nat) : State :=
  let x := s.port p
  if x.met && (x.peerId != slice b 16 8 || x.peerInc != field b 24 4) then
    (s.bumpBy (Reg.linkReplays.port p) x.replay.length).setPort p { x with replay := [], txSeq := 0, rxSeq := 0, naking := false, lastNak := none, naks := 0 }
  else s

/-- An attempt has failed: the 8th ends in DOWN. An initial training has no limit until the discovery deadline. -/
def State.attemptFails (s : State) (p : Nat) : State :=
  let x := s.port p
  if x.initial && !s.flag Reg.torStatusDiscDone then s else
  let x := { x with attempts := x.attempts + 1, firstFail := some (x.firstFail.getD s.now) }
  let s := s.setPort p x
  if 8 ≤ x.attempts then s.portDown p 1 else s

/-- TRAINING_ATTEMPT_END (R294 to R296): the good lanes, whether FEC lock and deskew were reached, and the peer's HELLO body
where one was exchanged. -/
def execTrainingAttemptEnd (p : Nat) (good : List Nat) (lock : Bool) (hello : Option (List Nat)) (s : State) :
    Host.Outcome State Fault Refusal :=
  if s.linkSt p ≠ lkTraining then .next s else
  let g := (List.range 34).filter (fun i => good.contains i)
  match hello with
  | none => .next (s.attemptFails p)
  | some b =>
    if !lock ∨ g.length < 16 then .next (s.attemptFails p) else
    let width := if 32 ≤ g.length then 32 else 16
    let s := s.newPeer p b
    let s := s.setPort p { s.port p with lanes := trainedLanes g width, subs := 0, initial := false, attempts := 0, firstFail := none,
                                         upSince := if s.portRevoked p then some s.now else none }
    let s := (s.setLink p (if width = 32 then lkUp else lkDegraded) width).showLane p
    let s := if g.length < 34 then s.raise (Reg.linkErrLaneFailed.port p) else s
    .next ((((s.drainPort p).sendHello p).floodLinkState p).onHello p b)

/-- TRAINING_TIME_LIMIT (R295): 1 ms has passed since the first failed attempt. -/
def execTrainingTimeLimit (p : Nat) (s : State) : Host.Outcome State Fault Refusal :=
  .next (if s.linkSt p = lkTraining ∧ (s.port p).firstFail.isSome then s.portDown p 2 else s)

/-- DISCOVERY_DEADLINE (R295, R306, R308): ports without an outcome are MISSING, and those that train without light go to
DOWN; `lit` the ports that see light. -/
def execDiscoveryDeadline (lit : List Nat) (s : State) : Host.Outcome State Fault Refusal :=
  if s.flag Reg.torStatusDiscDone then .next s else
  let s := s.each (List.range 6) (fun s p =>
    if s.policy p = 0 ∨ s.fget (Reg.linkStatusDisc.port p) ≠ 0 then s else
    let s := if s.linkSt p = lkTraining ∧ !lit.contains p then s.portDown p 4 else s
    (s.setDisc p 3).torusRecord (if s.policy p = 2 then 1 else 0) 0x63 s.position p 0xFF (s.incarnation (unitPort p)) (s.requiredMask p))
  .next (s.raise Reg.torStatusDiscDone)

/-- PORT_AUTO_READMIT (R322): CC4 re-admits its own port, which then floods READMIT. -/
def execPortAutoReadmit (p : Nat) (s : State) : Host.Outcome State Fault Refusal :=
  if !s.linkUp p || !s.portRevoked p || (s.port p).upSince.isNone || s.coreHalted 4 then .next s else
  let old := s.incarnation (unitPort p)
  let s := s.readmitOwn (unitPort p)
  .next (if s.incarnation (unitPort p) = old then s else
    s.floodNew 0x05 (leBytes 2 s.position ++ [0, 0] ++ leBytes 4 (unitPort p) ++ leBytes 4 old ++ leBytes 4 (s.incarnation (unitPort p))))

/-! ### Control messages (R316) -/

/-- ACK (R316). -/
def execAck (p : Nat) (ok : Bool) (h : CtrlHdr) (acked : Nat) (s : State) : Host.Outcome State Fault Refusal :=
  .next (s.ctrlIn p ok ackType h (leBytes 4 acked ++ zeros 4) (fun s =>
    { s with torus := { s.torus with
      unacked := s.torus.unacked.filter (fun u => !(u.seq == acked && (u.dst == h.srcPos || u.port == some p))) } }))

/-- The destination of a message counts as unreachable for its purpose (R316): a collective whose step it carried loses that way
(R327), and a call gets no answer (R329). A member that an abort does not reach ends by its own timeout, and what a relay, a served
call's end or an answer misses is seen by their timeouts. -/
def State.unreachable (s : State) (u : Unacked) : State :=
  if u.type = 0x10 then
    (match s.coll? u.part (field u.body 0 4) with
     | some c => match c.sends.find? (fun x => x.dst == u.dst && x.step == field u.body 4 2 && x.dir == field u.body 6 1) with
       | some x => if x.other then s.abortColl c ccLinkLost x.port else s.rerouteColls x.port
       | none => s
     | none => s)
  else if u.type = 0x20 then s.callLost (field u.body 0 4)
  else s

/-- CTRL_RETRANSMIT (R316): a message is resent, at most 8 times, each time on the route that then holds; after the eighth its
destination is unreachable. -/
def execCtrlRetransmit (unit seq : Nat) (s : State) : Host.Outcome State Fault Refusal :=
  match s.torus.unacked.find? (fun u => u.unit == unit && u.seq == seq) with
  | none => .next s
  | some u =>
    if !s.carries u.type then .next s else
    if u.sends < 8 then
      let s := { s with torus := { s.torus with
        unacked := s.torus.unacked.map (fun v => if v = u then { v with sends := v.sends + 1 } else v) } }
      let s := s.bump Reg.torCtrlRetx
      let h := s.header u.unit u.seq (if u.port.isSome then 0xFFFF else u.dst) u.part true
      .next (match u.port with
        | some p => s.sendOn p u.type h u.body
        | none => match s.route u.dst with
          | some p => s.sendOn p u.type h u.body
          | none => s.unroutable u.dst)
    else
      let s := { s with torus := { s.torus with unacked := s.torus.unacked.filter (· != u) } }
      .next (s.unreachable u)

/-! ### Revocation (R319 to R322) -/

/-- A revocation received or issued is held and counted: this package's own quarantines it, a member's fences its collectives. -/
def State.learnRevoke (s : State) (r : Rev) : State :=
  let s := (s.enterRev r).bump Reg.torRevokes
  let s := if r.pos = s.position ∧ r.unit = unitPackage ∧ r.inc = s.incarnation unitPackage then
      (s.raise Reg.torStatusQuarantine).updateHealth else s
  if r.unit = unitPackage then s.fenceColls r.pos else s

/-- REVOKE (R319): recorded, and flooded once onward; refused by a full table. -/
def execRevoke (p : Nat) (ok : Bool) (h : CtrlHdr) (pos unit inc : Nat) (s : State) : Host.Outcome State Fault Refusal :=
  let r : Rev := { pos := pos, unit := unit, inc := inc }
  .next (s.ctrlIn p ok 0x03 h (revokeBody r) (fun s =>
    s.withRev r (fun s => (s.inOrder h [0x03, pos, unit] (fun s => s.learnRevoke r)).flood 0x03 h (some p) (revokeBody r))))

/-- REVOKED (R321): this package learns that one of its own units is revoked; when it is the package, the outcome of the
port that reports it is REVOKED. -/
def execRevoked (p : Nat) (ok : Bool) (h : CtrlHdr) (pos unit inc : Nat) (s : State) : Host.Outcome State Fault Refusal :=
  let r : Rev := { pos := pos, unit := unit, inc := inc }
  .next (s.ctrlIn p ok 0x04 h (revokeBody r) (fun s =>
    if pos ≠ s.position ∨ inc ≠ s.incarnation unit then s else
    s.withRev r (fun s =>
      let s := s.learnRevoke r
      if unit = unitPackage ∧ s.peerPos p = h.srcPos then (s.setPort p { s.port p with reported := true }).setDisc p 4 else s)))

/-- TOR_REVOKE (R319): physical function 0 declares the package at POS dead at incarnation TOR_REV_INC. -/
def State.torRevoke (s : State) (pos inc : Nat) : State :=
  let r : Rev := { pos := pos, unit := unitPackage, inc := inc }
  s.withRev r (fun s => (s.learnRevoke r).floodNew 0x03 (revokeBody r))

def execTorRevoke (pos : Nat) (s : State) : Host.Outcome State Fault Refusal :=
  let s := (s.fset Reg.torRevokePos pos).showRev
  .next (s.torRevoke pos (s.fget Reg.torRevInc))

/-! ### The link map and detours (R328) -/

/-- LINK_STATE (R328): CC4's map takes the link's state, and the flood goes on. -/
def execLinkState (p : Nat) (ok : Bool) (h : CtrlHdr) (pos port state inc : Nat) (s : State) : Host.Outcome State Fault Refusal :=
  let b := leBytes 2 pos ++ [port, state] ++ leBytes 4 inc
  .next (s.ctrlIn p ok 0x06 h b (fun s =>
    (s.inOrder h [0x06, pos, port] (fun s => { s with torus := { s.torus with
      links := Map.set 0 s.torus.links (pos * 8 + port) (state + 1), replan := true } })).flood 0x06 h (some p) b))

/-- One end of a link is up by the map; a link of which no flood has told counts as up (log 35). -/
def State.endUp (s : State) (pos p : Nat) : Bool :=
  if pos = s.position then s.linkUp p else
  let v := Map.get 0 s.torus.links (pos * 8 + p)
  v == 0 || v == lkUp + 1 || v == lkDegraded + 1

/-- The position `k` places from one along a port's direction. -/
def State.along (s : State) (pos p k : Nat) : Nat :=
  let a := portAxis p
  let n := s.dim a
  withCoord pos a ((if portUpward p then coord pos a + k else coord pos a + n - k % n) % n)

/-- The links of an axis by-pass a position: it is planned empty, or a port of this package skips it (R305). -/
def State.byPassed (s : State) (a pos : Nat) : Bool :=
  !s.present pos || ([0, 1, 2].all (fun b => b == a || coord pos b == coord s.position b) && (s.skips (2 * a) pos || s.skips (2 * a + 1) pos))

/-- How many positions a link advances: over those that it by-passes (R309). -/
def State.stride (s : State) (pos p : Nat) : Nat :=
  ((List.range (s.dim (portAxis p))).drop 1).find? (fun k => !s.byPassed (portAxis p) (s.along pos p k)) |>.getD 1

/-- The neighbour of a position on a port. -/
def State.neighbour (s : State) (pos p : Nat) : Nat := s.along pos p (s.stride pos p)

/-- The link of a position's port by-passes a destination's coordinate. -/
def State.passesBy (s : State) (pos p dst : Nat) : Bool :=
  ((List.range (s.stride pos p)).drop 1).any (fun k => coord (s.along pos p k) (portAxis p) == coord dst (portAxis p))

/-- The link of a position's port is up at both ends. -/
def State.mapUp (s : State) (pos p : Nat) : Bool :=
  s.dim (portAxis p) != 1 && s.endUp pos p && s.endUp (s.neighbour pos p) (otherPort p)

/-- Every position of the installation. -/
def State.positions (s : State) : List Nat :=
  ((List.range (s.dim 0)).map (fun x => ((List.range (s.dim 1)).map (fun y => (List.range (s.dim 2)).map (fun z => x + 16 * y + 256 * z))).flatten)).flatten

/-- R309 and R310 reach a destination hop by hop, a packet having come by port `via`. -/
def State.walks (s : State) (dst : Nat) : Nat → Option Nat → Nat → Bool
  | 0, _, _ => false
  | n + 1, via, pos =>
    match [0, 1, 2].find? (fun a => coord dst a != coord pos a) with
    | none => true
    | some a =>
      let d := s.dim a
      let up := (coord dst a + d - coord pos a) % d
      let p := if 2 * up ≤ d then 2 * a else 2 * a + 1
      let q := if s.mapUp pos p && via != some p then p else otherPort p
      s.mapUp pos q && !s.passesBy pos q dst && s.walks dst n (some (otherPort q)) (s.neighbour pos q)

/-- The positions from which a destination is reached in at most `n` hops. -/
def State.reachSet (s : State) (dst : Nat) : Nat → List Nat
  | 0 => [dst]
  | n + 1 =>
    let r := s.reachSet dst n
    s.positions.filter (fun q => r.contains q || (List.range 6).any (fun p => s.mapUp q p && r.contains (s.neighbour q p)))

/-- The first port of the shortest UP path, lower axis and increasing direction preferred. -/
def State.detour (s : State) (dst : Nat) : Option Nat :=
  match (List.range s.positions.length).find? (fun k => (s.reachSet dst k).contains s.position) with
  | none => none
  | some 0 => none
  | some (k + 1) => (List.range 6).find? (fun p => s.mapUp s.position p && (s.reachSet dst k).contains (s.neighbour s.position p))

/-- ROUTE_REPLAN (R328). -/
def execRouteReplan (s : State) : Host.Outcome State Fault Refusal :=
  if s.coreHalted 4 then .next s else
  let ds := s.positions.foldl (fun m q =>
    if q = s.position ∨ s.walks q (2 * s.positions.length) none s.position then m
    else match s.detour q with | some p => Map.set 0 m q (p + 1) | none => m) []
  .next { s with torus := { s.torus with detours := ds, replan := false } }.reSource

/-! ### Waymark exchange (R331) -/

/-- WAY_SYNC_SEND (R331): `frac` eighths of a tick at the first symbol. -/
def execWaySyncSend (p frac : Nat) (s : State) : Host.Outcome State Fault Refusal :=
  .next (if s.linkUp p then s.sendPeer p 0x08 (leBytes 8 s.now ++ [frac % 8] ++ zeros 7) else s)

/-- WAY_SYNC (R331): answered with WAY_REPLY; `frac` eighths of a tick at arrival and departure. -/
def execWaySync (p : Nat) (ok : Bool) (h : CtrlHdr) (t1 f1 frac : Nat) (s : State) : Host.Outcome State Fault Refusal :=
  .next (s.ctrlIn p ok 0x08 h (leBytes 8 t1 ++ [f1] ++ zeros 7) (fun s =>
    s.sendPeer p 0x09 (leBytes 8 t1 ++ leBytes 8 s.now ++ leBytes 8 s.now ++ [f1, frac % 8, frac % 8, s.fget Reg.wayStatusState] ++ zeros 4)))

end Sys2Proof.Machine
end

