-- ==== Sys2Proof/Machine/Power.lean ====
section
/-!
DEFINITION. The bridle, the rails and the converter (R381 to R399, R411 to R418). Power is in watts, exact; registers show
it in their own units.
-/
namespace Sys2Proof.Machine

/-! ### Records (R418) -/

/-- The POWER event while the PCI Express link is up (R418). -/
def State.powerEvent (s : State) : State := if s.flag Reg.pciStatusLinkUp then s.pkgEvent .power else s

/-- Context of a record of R418: subject, value, and the rest in 16-bit fields (log 38). -/
def powerContext (subject value : Nat) (rest : List Nat) : List Nat :=
  leBytes 2 subject ++ leBytes 2 value ++ (rest.map (leBytes 2)).flatten

/-- A record of R418 that is no dangerous failure. -/
def State.powerRecord (s : State) (hubUe : Bool) (sev code source subject value : Nat) (rest : List Nat) : State :=
  (s.recordAs hubUe sev 0 code source (powerContext subject value rest)).powerEvent

/-! ### The LIMIT and CLOCK values -/

def State.openGait (s : State) : Bool := s.clockCfg 0 1 0 == 1
def State.capMax (s : State) : Nat := s.limitCfg 2 2 1500
def State.reinFloor (s : State) : Nat := s.limitCfg 4 1 8
def State.boostMargin (s : State) : Rat := (s.limitCfg 12 1 5 : Nat)
def State.backstopPct (s : State) : Rat := (s.limitCfg 13 1 3 : Nat)

/-- Throttle and trip points of a group (0 strings, 1 hub, 2 optical), in 1/16 °C. -/
def State.throttlePoint (s : State) (g : Nat) : Int :=
  16 * (if g = 0 then s.limitCfg 6 1 100 else if g = 1 then s.limitCfg 8 1 95 else s.limitCfg 10 1 80 : Nat)
def State.tripPoint (s : State) (g : Nat) : Int :=
  16 * (if g = 0 then s.limitCfg 7 1 115 else if g = 1 then s.limitCfg 9 1 110 else s.limitCfg 11 1 90 : Nat)

/-! ### Temperatures (R400) -/

def State.sensor (s : State) (i : Nat) : Sensor := Map.get {} s.thermal.sensors i

/-- The hottest good sensor of a list. -/
def State.hottest (s : State) (is : List Nat) : Option Int :=
  ((is.filter (fun i => (s.sensor i).good)).map (fun i => (s.sensor i).temp)).max?

def hubSensors : List Nat := [64, 65, 66, 67]
def opticalSensors : List Nat := [68, 69, 70, 71, 72, 73]
def State.stringTemp (s : State) (x : Nat) : Option Int := s.hottest [2 * x, 2 * x + 1]
def State.hubTemp (s : State) : Option Int := s.hottest hubSensors
def State.opticalTemp (s : State) : Option Int := s.hottest opticalSensors

/-! ### The converter and the board sense table (R411 to R415) -/

def State.chan (s : State) (c : Nat) : Chan := Map.get {} s.adc.chans c
def State.setChan (s : State) (c : Nat) (x : Chan) : State := { s with adc := { s.adc with chans := Map.set {} s.adc.chans c x } }

/-- ROLE of an external channel (R415): 0 none, 1 rail current, 2 coolant in, 3 coolant out, 4 user. -/
def State.chanRole (s : State) (c : Nat) : Nat :=
  if c < 24 then s.userCfg 4 (192 + 16 * c) 1 (if c ≤ 18 then 1 else if c = 19 then 2 else if c = 20 then 3 else 0) else 0

/-- The table's settings of a channel that a start loads: enabled, OPEN_TEST, SHIFT, AVG_LOG2. The factory default names channels 0 to 20;
it tests no other (log 38). -/
def State.chanTable (s : State) (c : Nat) : Bool × Bool × Nat × Nat :=
  if c < 24 then
    (s.chanRole c != 0, s.userCfg 4 (195 + 16 * c) 1 (if c ≤ 20 then 1 else 0) != 0,
     min 8 (s.userCfg 4 (194 + 16 * c) 1 4), min 8 (s.userCfg 4 (193 + 16 * c) 1 4))
  else (true, false, if c ≤ 50 then 2 else 0, if c ≤ 50 then 2 else 0)

/-- The channels. -/
def adcChannels : List Nat := List.range 24 ++ (List.range 21).map (· + 32)

/-- ADC_CFG as the start loads it, and the sequence running. -/
def State.loadAdc (s : State) : State :=
  let s := s.each adcChannels (fun s c =>
    let v := s.chanTable c
    let s := (s.fset (Reg.adcCfgRole.chan c) (s.chanRole c)).fput (Reg.adcCfgEnable.chan c) v.1
    ((s.fput (Reg.adcCfgOpenTest.chan c) v.2.1).fset (Reg.adcCfgShift.chan c) v.2.2.1).fset (Reg.adcCfgAvgLog2.chan c) v.2.2.2)
  s.raise Reg.adcStatusRunning

/-- The enabled channels, ascending. -/
def State.sequence (s : State) : List Nat := adcChannels.filter (fun c => s.flag (Reg.adcCfgEnable.chan c))

/-- Voltage at a channel's input for a mean code: 1.2 V full scale; a rail's channel stands behind a ÷2 divider. -/
def chanVolts (c : Nat) (code : Rat) : Rat := code * (12 / 10) / 16384 * (if 32 ≤ c ∧ c ≤ 50 then 2 else 1)

/-- The quantity that an external channel measures: SCALE × volts + OFFSET; a SCALE or OFFSET that is no number counts 0. -/
def State.chanQuantityAt (s : State) (c : Nat) (code : Rat) : Rat :=
  (f32 (s.userCfg 4 (196 + 16 * c) 4 (Config.boardScale c))).rat * chanVolts c code +
  (f32 (s.userCfg 4 (200 + 16 * c) 4 (Config.boardOffset c))).rat
def State.chanQuantity (s : State) (c : Nat) : Rat := s.chanQuantityAt c (s.chan c).mean

/-- V_k and I_k of rail k (R394). -/
def State.railVolts (s : State) (k : Nat) : Rat := chanVolts (32 + k) (s.chan (32 + k)).mean
def State.railAmps (s : State) (k : Nat) : Rat := s.chanQuantity k

/-- An unsigned register value of a quantity in units of 1/n. -/
def regUnits (w n : Nat) (v : Rat) : Nat := clampNat 0 (2 ^ w - 1) (v * (n : Nat)).floor.toNat

/-- BRDL_RAIL of rail k follows its channels. -/
def State.showRail (s : State) (k : Nat) : State :=
  (s.fset (Reg.brdlRailVoltage.sel k) (regUnits 16 10000 (s.railVolts k))).fset (Reg.brdlRailCurrent.sel k)
    (if s.chanRole k = 1 then regUnits 16 16 (s.railAmps k) else 0)

/-- A reading of the reference outside 0.600 V ± 0.5 % (R411). -/
def refBad (v : Rat) : Bool := decide (v < 597 / 1000 ∨ 603 / 1000 < v)

/-- MEAS_VALID at a value: MEAS_LOST is set while it is 0, and its POWER event raised where either is news (R383, R418). -/
def State.setMeasValid (s : State) (v : Bool) : State :=
  let news := !v && (s.flag Reg.brdlStatusMeasValid || !s.flag Reg.brdlErrMeasLost)
  let s := s.fput Reg.brdlStatusMeasValid v
  let s := if v then s else s.raise Reg.brdlErrMeasLost
  if news then s.powerEvent else s

/-- A channel's visit ends: its result, and what the reference tells. -/
def State.visitDone (s : State) (c : Nat) (x : Chan) (sum : Nat) : State :=
  let v := sum / 2 ^ x.curShift % 2 ^ 22
  let mean : Rat := (v * 2 ^ x.curShift : Nat) / (2 ^ x.curAvg : Nat)
  let s := s.setChan c { x with sum := 0, count := 0, mean := mean, fresh := true }
  let s := (s.fset (Reg.adcResultValue.chan c) v).raise (Reg.adcResultFresh.chan c)
  let s := if c < 19 then s.showRail c else if 32 ≤ c ∧ c ≤ 50 then s.showRail (c - 32) else s
  if c ≠ 51 then s else
  let bad := refBad (chanVolts 51 mean)
  let s := { s with adc := { s.adc with refBad := bad } }
  if bad then (s.raise Reg.adcErrRefFault).setMeasValid false else s

/-- A sweep ends with the visit of the last enabled channel: its length, and the measurement interval of R416. -/
def State.sweepEnd (s : State) : State :=
  let n := s.adc.sweep
  let s := ({ s with adc := { s.adc with sweep := 0 } }).fset Reg.adcStatusSweepUs (min 65535 n)
  (s.fset Reg.brdlStatusMeasMs (min 255 (max 1 (ceilDiv n 1000)))).fput Reg.brdlStatusMeasSlow (decide (1000 < n))

/-- The urgent requests held; with no conversion of the sequence running, the first one's begins at once. -/
def State.holdUrgent (s : State) (us : List (Nat × Bool)) : State :=
  let idle := !s.flag Reg.adcStatusRunning || s.sequence.isEmpty
  ({ s with adc := { s.adc with urgent := us, urgentRuns := !us.isEmpty && (s.adc.urgentRuns || idle) } }).fput
    Reg.adcStatusUrgentBusy (decide (2 ≤ us.length))

/-- The bridle issues its next pair of urgent requests once the results of the pair before are there. They go before a host's requests,
save one whose conversion runs (R414, log 111). -/
def State.urgentPair (s : State) : State :=
  if s.adc.urgent.any (·.2) ∨ s.power.urgentCur.isEmpty then s else
  let n := if s.adc.urgentRuns then 1 else 0
  let pair := (s.power.urgentCur.take 2).map (fun c => (c, true))
  ({ s with power := { s.power with urgentCur := s.power.urgentCur.drop 2 } }).holdUrgent
    (s.adc.urgent.take n ++ pair ++ s.adc.urgent.drop n)

/-- The urgent request in front is served (R414): the host's last one gives DONE (R422). -/
def State.urgentDone (s : State) (code : Nat) : State :=
  match s.adc.urgent with
  | [] => s
  | (c, bridle) :: rest =>
    let s := s.holdUrgent rest
    if bridle then ({ s with power := { s.power with urgentLog := Map.insert s.power.urgentLog c code } }).urgentPair
    else ((s.fput Reg.adcUrgentResultDone (!(rest.any (fun e => !e.2)))).fset Reg.adcUrgentResultCode code).urgentPair

/-- The channel whose conversion ends next in the sequence: the one whose visit is under way, else the enabled channel that
follows it in ascending order, else the first (R411). -/
def State.nextChan (s : State) : Option Nat :=
  match s.adc.at_ with
  | none => s.sequence.head?
  | some c =>
    if (s.chan c).count ≠ 0 then some c
    else match s.sequence.find? (fun d => decide (c < d)) with
      | some d => some d
      | none => s.sequence.head?

/-- ADC_CONVERSION_DONE (R411, R412, R414): the code of the sequence's channel, or of the urgent request in front. The
sequence visits its channels in ascending order, so no other channel's conversion ends; each conversion that ends lets the urgent request
in front begin. -/
def execAdcConversionDone (c code : Nat) (urgent : Bool) (s : State) : Host.Outcome State Fault Refusal :=
  if if urgent then s.adc.urgent.isEmpty || !s.adc.urgentRuns else s.nextChan != some c || s.adc.urgentRuns then .next s else
  let s := { s with adc := { s.adc with sweep := s.adc.sweep + 1, urgentRuns := !s.adc.urgent.isEmpty } }
  if urgent then .next (s.urgentDone (code % 16384)) else
  let s := { s with adc := { s.adc with at_ := some c } }
  let x := s.chan c
  let x := if x.count = 0 then { x with curAvg := s.fget (Reg.adcCfgAvgLog2.chan c), curShift := s.fget (Reg.adcCfgShift.chan c) } else x
  let sum := x.sum + code % 16384
  if x.count + 1 < 2 ^ x.curAvg then .next (s.setChan c { x with sum := sum, count := x.count + 1 }) else
  let s := s.visitDone c x sum
  .next (if s.sequence.any (fun d => decide (c < d)) then s else s.sweepEnd)

/-- ADC_OPEN_TEST (R413): the codes of the pull-up and the pull-down conversion, which lengthen the sweep by 2 µs (R411). -/
def execAdcOpenTest (c up down : Nat) (s : State) : Host.Outcome State Fault Refusal :=
  if !s.flag (Reg.adcCfgOpenTest.chan c) then .next s else
  let s := { s with adc := { s.adc with sweep := s.adc.sweep + 2 } }
  let open_ := decide (115 / 100 ≤ chanVolts c up ∧ chanVolts c down ≤ 5 / 100)
  let was := s.flag (Reg.adcResultOpen.chan c)
  let s := s.fput (Reg.adcResultOpen.chan c) open_
  .next (if open_ && !was then
      (s.raise Reg.adcErrOpenWire).powerRecord false 0 0x56 unitPackage c (s.fget (Reg.adcResultValue.chan c)) [s.chanRole c]
    else s)

/-- ADC_URGENT_GO (R414): two requests are held, the bridle's first; a third is refused. A refused GO clears DONE too (R422). -/
def execAdcUrgentGo (c : Nat) (s : State) : Host.Outcome State Fault Refusal :=
  let s := (s.fset Reg.adcUrgentChannel c).clear Reg.adcUrgentResultDone
  .next (if 2 ≤ s.adc.urgent.length then s.raise Reg.adcErrUrgentRefused
    else s.holdUrgent (s.adc.urgent ++ [(c % 64, false)]))

/-! ### The estimate (R381, R382, R388) -/

/-- Nominal coefficients of R382, in the order of its table: pJ for the first six, then W (width 32, width 16, string, hub,
stack). -/
def nominalCoeff (i : Nat) : Rat :=
  ([120, 44 / 100, 16, 5 / 10, 7 / 10, 96 / 10, 45 / 10, 26 / 10, 12 / 10, 10, 3] : List Rat).getD i 0

/-- The activity counts of one tick, over the package. -/
structure Activity where
  beats : Nat
  rows : Nat
  units : Nat
  lanes : Nat
  sram : Nat
  dram : Nat
  deriving DecidableEq, Repr

/-- Watts of `n` events of `pj` picojoules in 10 µs. -/
def eventWatts (pj : Rat) (n : Nat) : Rat := pj * (n : Nat) / 10000000

/-- The rein-scaled terms. -/
def Activity.array (a : Activity) (k : Nat → Rat) : Rat :=
  eventWatts (k 0) a.beats + eventWatts (k 1) a.rows + eventWatts (k 2) a.units

/-- The boost-clocked terms. -/
def Activity.boosted (a : Activity) (k : Nat → Rat) : Rat := eventWatts (k 3) a.lanes + eventWatts (k 4) a.sram

/-- Power of the ports that are not DARK; a port of width 16 takes the smaller figure, any other the larger (log 38). -/
def State.portWatts (s : State) (k : Nat → Rat) : Rat :=
  ((List.range 6).map (fun p =>
    if s.linkSt p = lkDark then (0 : Rat) else if s.fget (Reg.linkStatusLanes.port p) = 16 then k 7 else k 6)).sum

/-- 2^(1/480) and its powers below 480, times 2^96, each cut to 96 bits behind the point. -/
def growthStep : Nat := 79342655114324997321602614242
def growthPower : Nat → Nat
  | 0 => 2 ^ 96
  | n + 1 => growthPower n * growthStep / 2 ^ 96

/-- ln 2 times 2^96, cut. -/
def lnTwo : Nat := 54916777467707473351141471128
/-- 2^x for 0 ≤ x < 1/480, by the first terms of its series. -/
def growthRest (x : Rat) : Rat :=
  let z := x * ((lnTwo : Nat) / (2 ^ 96 : Nat))
  1 + z * (1 + z / 2 * (1 + z / 3 * (1 + z / 4 * (1 + z / 5 * (1 + z / 6 * (1 + z / 7 * (1 + z / 8)))))))

/-- 2^((T − 25) ÷ 30) of R382 for a temperature in 1/16 °C, to within 2^-80 of itself (log 10). -/
def staticGrowth (t : Rat) : Rat :=
  let n := (t - 400).floor
  let p : Rat := (growthPower (n % 480).toNat : Nat) / (2 ^ 96 : Nat) * growthRest ((t - 400 - n) / 480)
  if 0 ≤ n then p * (2 ^ (n / 480).toNat : Nat) else p / (2 ^ (-(n / 480)).toNat : Nat)

/-- The static terms: `f` the growth factor of a string, `h` that of the hub. -/
def State.staticWatts (s : State) (k : Nat → Rat) (f : Nat → Rat) (h : Rat) : Rat :=
  ((List.range 32).map (fun x => k 8 * f x)).sum + k 9 * h + (if stDramUp < s.stage then 8 * k 10 else 0)

/-- Temperature of the fixed-gait static terms in 1/16 °C: coolant inlet + 45 °C, or 75 °C. -/
def State.nominalTemp (s : State) : Rat :=
  match (List.range 24).find? (fun c => s.chanRole c == 2) with
  | some c => (s.chanQuantity c + 45) * 16
  | none => 1200

/-- A coefficient that the studbook's part data hold (R382, R438, log 10). -/
def State.partCoeff (s : State) (i : Nat) : Rat := Map.get (Config.partCoeff i) s.nv.coeffs i

/-- P_arr, the boost-clocked part of P_other, and the rest of P_other, with the part's own coefficients. A string or hub
without a temperature counts at 25 °C (log 38). -/
def State.rawPower (s : State) (a : Activity) : Rat × Rat × Rat :=
  let k := s.partCoeff
  (a.array k, a.boosted k, eventWatts (k 5) a.dram + s.portWatts k +
    s.staticWatts k (fun x => staticGrowth ((s.stringTemp x).getD 400)) (staticGrowth (s.hubTemp.getD 400)))

/-- The same on the nominal estimate of fixed gait. -/
def State.nominalPower (s : State) (a : Activity) : Rat × Rat × Rat :=
  let k := nominalCoeff
  let f := staticGrowth s.nominalTemp
  (a.array k, a.boosted k, eventWatts (k 5) a.dram + s.portWatts k + s.staticWatts k (fun _ => f) f)

/-! ### Boost (R386, R367) -/

/-- A region holds boost, by the bridle's decision. -/
def State.boosted (s : State) (r : Nat) : Bool := (s.fget Reg.brdlBoost).testBit r

/-- The bridle grants or withdraws boost; the dividers follow at BOOST_SWITCH. -/
def State.setBoost (s : State) (r : Nat) (on : Bool) : State :=
  let w := s.fget Reg.brdlBoost
  let s := s.fset Reg.brdlBoost (if on then setBit w r else clearBit w r)
  { s with power := { s.power with boostNext := Map.set 0 s.power.boostNext r (if on then 1 else 2) } }

/-- A region's plan value allows boost (R409): s ≤ 3.0 %, and open setpoint plus guard band at most 0.750 V. -/
def guardBand (v : Int) : Nat := min 40 (2 * (ceilRat ((v : Rat) / 25)).toNat)
def State.planValue (s : State) (m : Nat) : Int := Map.get 0 s.thermal.plan m
def eligible (v : Int) : Bool := decide (v ≤ 300 ∧ 680 + guardBand v ≤ 750)

/-- Region r is cool enough, and eligible. -/
def State.boostFit (s : State) (r : Nat) : Bool :=
  (match s.stringTemp r with | some t => decide (t + 80 ≤ s.throttlePoint 0) | none => false) && eligible (s.planValue r)

/-- The grants of a tick: every condition has held for 100 consecutive ticks. `ok`: the package's conditions. -/
def State.grantBoost (s : State) (ok : Bool) : State :=
  s.each (List.range 32) (fun s r =>
    let n := if ok && s.boostFit r then min 100 (Map.get 0 s.power.boostTicks r + 1) else 0
    let s := { s with power := { s.power with boostTicks := Map.set 0 s.power.boostTicks r n } }
    if n = 100 ∧ !s.boosted r then (s.setBoost r true).bump Reg.brdlBoostGrants else s)

/-- BOOST_SWITCH (R367): at the waymark microsecond boundary the dividers of region r follow the bridle's decision. -/
def execBoostSwitch (r : Nat) (s : State) : Host.Outcome State Fault Refusal :=
  match Map.get 0 s.power.boostNext r with
  | 0 => .next s
  | v =>
    let s := { s with power := { s.power with boostNext := Map.set 0 s.power.boostNext r 0 } }
    .next (s.setRegion r { s.region r with boost := v == 1 })

/-! ### The tick (R385) -/

/-- The control cap of R387 and R388. -/
def State.controlCap (s : State) : Rat :=
  (s.fget Reg.brdlCapCap : Nat) - (if s.openGait then 0 else s.power.drop)

/-- R_new of R385: `cur` the rein in force, from the control cap, the fit and the two sums. -/
def newRein (cur : Nat) (cap g o arr other : Rat) : Int :=
  if arr = 0 then 64 else ((cur : Nat) * ((cap - o) / g - other) / arr).floor

/-- The rein of R385 after its limits. -/
def limitRein (cur floor_ : Nat) (r : Int) : Nat := (clampInt floor_ 64 (min r (cur + 4))).toNat

/-- REIN_FLOOR stands and the cap is not met (R385): from the 100th consecutive tick on, each further 100 are a millisecond that
counts. -/
def State.floorTick (s : State) (low : Bool) : State :=
  let n := if low then s.power.floorTicks + 1 else 0
  let s := ({ s with power := { s.power with floorTicks := n } }).fput Reg.brdlStatusUnmet (decide (100 ≤ n))
  let s := if 100 < n ∧ n % 100 = 0 then s.bump Reg.brdlUnmetMs else s
  if n = 100 then (s.raise Reg.brdlErrCapUnmet).powerRecord false 0 0x50 unitPackage 0 (regUnits 16 1 s.power.pEst)
      [s.fget Reg.brdlCapCap, s.reinFloor]
  else s

/-- A POWER entry of the trace when the package rein changes (R495). -/
def State.setPackageRein (s : State) (r : Nat) : State :=
  if r = s.fget Reg.reinStatusPackage then s else
  (s.fset Reg.reinStatusPackage r).traceEvent 5 unitPackage 0x60
    ([r, s.fget Reg.reinStatusThermalPkg] ++ leBytes 2 (regUnits 16 16 s.power.pEst) ++ leBytes 2 (s.fget Reg.brdlCapCap))

/-- The array's activity since the last tick has been taken. -/
def State.clearActivity (s : State) : State := { s with power := { s.power with beats := 0, rows := 0, units := 0 } }

/-- BRIDLE_TICK (R381, R385, R386, R414): the array's activity is what the beats since the last tick counted; the lane
operations, SRAM and router bytes and DRAM bytes of the preceding 10 µs come with the command. -/
def execBridleTick (lanes sram dram : Nat) (s : State) : Host.Outcome State Fault Refusal :=
  let a : Activity := ⟨s.power.beats, s.power.rows, s.power.units, lanes, sram, dram⟩
  let s := s.clearActivity
  if s.coreHalted 2 then .next s else
  let raw := s.rawPower a
  let v := if s.openGait then raw else s.nominalPower a
  let g : Rat := if s.openGait then s.power.g else 1
  let o : Rat := if s.openGait then s.power.o else 0
  let est := g * (v.1 + v.2.1 + v.2.2) + o
  let last := s.power.pEst
  let cap : Rat := (s.fget Reg.brdlCapCap : Nat)
  let cc := s.controlCap
  let s := { s with power := { s.power with pEst := est, ticks := s.power.ticks ++ [raw.1 + raw.2.1 + raw.2.2] } }
  let s := (s.fset Reg.brdlEstPower (regUnits 16 16 est)).fset Reg.brdlEstArray (regUnits 16 16 (g * v.1))
  let cur := s.fget Reg.reinStatusPackage
  let lowers := decide (newRein cur cc g o v.1 (v.2.1 + v.2.2) < cur)
  let all := decide (cap * (1 - s.boostMargin / 200) < est) || lowers
  let gone := (List.range 32).filter (fun r => s.boosted r && (all || !s.boostFit r || !s.openGait))
  let s := s.each gone (fun s r => s.setBoost r false)
  let other := v.2.2 + (if gone.isEmpty then v.2.1 else v.2.1 / (12 / 10))
  let s := s.setPackageRein (limitRein cur s.reinFloor (newRein cur cc g o v.1 other))
  let s := s.grantBoost (s.openGait && cur == 64 && s.flag Reg.brdlStatusMeasValid &&
    decide (est ≤ cap * (1 - s.boostMargin / 100)))
  let s := s.floorTick (s.fget Reg.reinStatusPackage == s.reinFloor && decide (cc < est))
  let jump := decide (cap / 10 < |est - last|)
  .next (if jump && s.power.urgentCur.isEmpty then
      ({ s with power := { s.power with urgentCur := List.range 8 } }).urgentPair else s)

/-! ### The measurement (R383, R384, R388, R390) -/

/-- A rail's contribution is measured: a current channel with a fresh average and no open wire (R383). -/
def State.railMeasured (s : State) (k : Nat) : Bool :=
  s.chanRole k == 1 && (s.chan k).fresh && !s.flag (Reg.adcResultOpen.chan k)

def ratMean (xs : List Rat) : Rat := if xs.isEmpty then 0 else xs.sum / (xs.length : Nat)

/-- The least-squares line of the second members against the first: gain and offset; with the gain held where the first
members span less than `least`. -/
def fitLine (g least : Rat) (ps : List (Rat × Rat)) : Rat × Rat :=
  let mx := ratMean (ps.map (·.1))
  let my := ratMean (ps.map (·.2))
  let sxx := (ps.map (fun e => (e.1 - mx) * (e.1 - mx))).sum
  let sxy := (ps.map (fun e => (e.1 - mx) * (e.2 - my))).sum
  let span := ((ps.map (·.1)).max?.getD 0) - ((ps.map (·.1)).min?.getD 0)
  if span < least ∨ sxx = 0 then (g, my - g * mx) else (sxy / sxx, my - sxy / sxx * mx)

/-- BRDL_FIT. -/
def State.showFit (s : State) : State :=
  (s.fset Reg.brdlFitGain (regUnits 16 16384 s.power.g)).fset Reg.brdlFitOffset (ofSigned 16 (s.power.o * 16).floor)

/-- The fit as READY begins it (R384). -/
def State.resetFit (s : State) : State := { s with power := { s.power with g := 1, o := 0 } }.showFit

/-- The refit of R384. -/
def State.refit (s : State) (meas : Rat) : State :=
  if s.power.ticks.isEmpty then s else
  let ps := s.power.pairs ++ [(ratMean s.power.ticks, meas)]
  let ps := ps.drop (ps.length - 64)
  let f := fitLine s.power.g ((s.fget Reg.brdlCapCap : Nat) / 20) ps
  let s := { s with power := { s.power with
    pairs := ps, g := clampRat (1 / 2) 2 f.1, o := clampRat (-150) 150 f.2, urgentLog := [] } }
  s.showFit.bump Reg.brdlRefits

/-- The backstop of fixed gait (R388). -/
def State.backstop (s : State) (meas : Rat) : State :=
  if s.openGait then s else
  let cap : Rat := (s.fget Reg.brdlCapCap : Nat)
  let d := if cap * (1 + s.backstopPct / 100) < meas then s.power.drop + (meas - cap)
    else if meas ≤ cap then max 0 (s.power.drop - cap / 100) else s.power.drop
  ({ s with power := { s.power with drop := d } }).fput Reg.brdlStatusBackstop (decide (0 < d))

/-- P_meas of the interval as the registers show it, and the energy (R383). -/
def State.showMeas (s : State) (meas : Rat) (ms : Nat) : State :=
  let e := s.power.energy + meas * (ms : Nat)
  (({ s with power := { s.power with energy := e } }).fset Reg.brdlMeasPower (regUnits 16 16 meas)).fset64
    Reg.brdlEnergyLo Reg.brdlEnergyHi e.floor.toNat

/-- The bound of R390 for the running gait. -/
def State.capBound (s : State) : Rat :=
  let cap : Rat := (s.fget Reg.brdlCapCap : Nat)
  if s.openGait then cap * (102 / 100) else cap * (1 + s.backstopPct / 100) + cap * (2 / 100)

/-- What a valid measurement does: the refit, the count of R390 and the backstop. -/
def State.useMeas (s : State) (meas : Rat) : State :=
  let s := s.refit meas
  let s := if s.capBound < meas then s.bump Reg.brdlOverCap else s
  s.backstop meas

/-- A fresh interval begins. -/
def State.endInterval (s : State) : State :=
  { s with power := { s.power with ticks := [] },
           adc := { s.adc with chans := s.adc.chans.map (fun e => (e.1, { e.2 with fresh := false })) } }

/-- P_meas: the rails with a current channel (R383). -/
def State.measured (s : State) : Rat :=
  (((List.range 19).filter (fun k => s.chanRole k == 1)).map (fun k => s.railVolts k * s.railAmps k)).sum

/-- BRIDLE_MEASURE (R383, R384, R388, R390): the end of a measurement interval; its milliseconds count where C stood below CAP. -/
def execBridleMeasure (s : State) : Host.Outcome State Fault Refusal :=
  if s.coreHalted 2 then .next s else
  let ms := s.fget Reg.brdlStatusMeasMs
  let meas := s.measured
  let valid := (List.range 19).all s.railMeasured && !s.adc.refBad
  let s := if s.flag Reg.brdlStatusBackstop then s.bumpBy Reg.brdlBackstopMs ms else s
  let s := (s.setMeasValid valid).showMeas meas ms
  .next ((if valid then s.useMeas meas else s).endInterval)

/-- BRDL_CAP_WRITE (R390): the cap held between 600 W and CAP_MAX. -/
def execBrdlCapWrite (cap : Nat) (s : State) : Host.Outcome State Fault Refusal :=
  .next (s.fset Reg.brdlCapCap (clampNat 600 s.capMax (cap % 2048)))

/-! ### Rails (R394 to R398) -/

def State.rail (s : State) (k : Nat) : Rail := Map.get {} s.power.rails k
def State.setRail (s : State) (k : Nat) (x : Rail) : State := { s with power := { s.power with rails := Map.set {} s.power.rails k x } }

/-- The largest guard band of the strings that rail VDD_Ck feeds; the hub's for VDD_HUB, mV (R409). -/
def State.railGuard (s : State) (k : Nat) : Nat :=
  if k < 8 then ([4 * k, 4 * k + 1, 4 * k + 2, 4 * k + 3].map (fun x => guardBand (s.planValue x))).foldl max 0
  else if k = 10 then guardBand (s.planValue 32) else 0

/-- A rail's setpoint of R394 in microvolts: the running gait's from READY on, fixed gait's before (R398). -/
def State.railTarget (s : State) (k : Nat) : Nat :=
  if k < 8 then 1000 * ((if s.ready && s.openGait then 680 else 620) + s.railGuard k)
  else if k ≤ 9 then 550000 else if k = 10 then 1000 * (700 + s.railGuard 10)
  else if k ≤ 15 then Config.hbmSetpoint k else if k = 16 then 900000 else if k = 17 then 750000 else 1800000

/-- A rail's setpoint in microvolts; VDD_HUB, which the board turns on, has its 0.700 V from the start. -/
def State.railSet (s : State) (k : Nat) : Nat :=
  if k = 10 ∧ (s.rail 10).setpoint = 0 then 700000 else (s.rail k).setpoint

/-- The rails whose setpoint the device commands take their targets (R394, R398). -/
def State.retarget (s : State) : State :=
  s.each (List.range 8 ++ [10]) (fun s k =>
    let r := s.rail k
    s.setRail k { r with
      setpoint := s.railSet k, old := if r.setpoint = r.target then s.railSet k else r.old, target := s.railTarget k })

/-- A rail is commanded on at its setpoint. -/
def State.turnOn (s : State) (k : Nat) : State :=
  let v := s.railTarget k
  let s := s.setRail k { s.rail k with on := true, good := false, setpoint := v, target := v, old := v }
  { s with power := { s.power with turning := some k } }.commandRail k v

/-- Some sensor stands at or above its throttle point (R406). -/
def sensorGroup (i : Nat) : Nat := if i < 64 then 0 else if i < 68 then 1 else 2
def State.tooHot (s : State) : Bool :=
  (List.range 74).any (fun i => (s.sensor i).good && decide (s.throttlePoint (sensorGroup i) ≤ (s.sensor i).temp))

/-- The commanded rails begin to turn on, unless a temperature holds them off (R396, R406). -/
def State.startRails (s : State) : State :=
  if s.tooHot then { s with power := { s.power with heldOff := true } }
  else ({ s with power := { s.power with heldOff := false } }).turnOn 15

/-- The rail that follows in the order. -/
def railAfter (k : Nat) : Option Nat := railOrder[railOrder.idxOf k + 1]?

/-- RAIL_GOOD (R396): the next rail turns on; with the last one PINS_SET ends (R427). -/
def execRailGood (k : Nat) (s : State) : Host.Outcome State Fault Refusal :=
  if s.power.turning ≠ some k then .next s else
  let s := s.setRail k { s.rail k with good := true }
  .next (match railAfter k with
    | some j => s.turnOn j
    | none =>
      let s := { s with power := { s.power with turning := none } }
      if s.stage = stPinsSet ∧ !s.paddock then s.fset Reg.rstStatusStage stDramUp else s)

/-- RAIL_GOOD_TIMEOUT (R396): `word` the regulator's STATUS_WORD. -/
def execRailGoodTimeout (k word : Nat) (s : State) : Host.Outcome State Fault Refusal :=
  if s.power.turning ≠ some k then .next s else
  let s := { s with power := { s.power with turning := none } }
  .next (s.powerRecord true 1 0x54 unitPackage k word [s.railAddress k])

/-- RAIL_ON_TEMP_RECHECK (R406). -/
def execRailOnTempRecheck (s : State) : Host.Outcome State Fault Refusal :=
  .next (if s.power.heldOff ∧ !s.paddock then s.startRails else s)

/-- The regions that a rail feeds (R394, R397). -/
def railRegions (k : Nat) : List Nat :=
  if k < 8 then [4 * k, 4 * k + 1, 4 * k + 2, 4 * k + 3] else if k = 8 then List.range 16
  else if k = 9 then (List.range 16).map (· + 16) else if k ≤ 16 then List.range 33 else []

/-- The partitions with a string in a list of regions, as a scope. -/
def State.regionScope (s : State) (rs : List Nat) : Nat :=
  bitWord ((List.range 32).map (fun p => rs.any (fun r => decide (r < 32) && s.ownsString p r)))

/-- A rail's monitor or its regulator stops the regions it feeds until a reset (R397). -/
def State.railStops (s : State) (k : Nat) : State :=
  let s := s.each (railRegions k) State.stopRegion
  { s with power := { s.power with monitored := (s.power.monitored ++ railRegions k).eraseDups } }

/-- A voltage in mV lies outside the comparators' ±8 % window: of the setpoint, or in a move the wider one of its two ends
(R397). -/
def State.crosses (s : State) (k : Nat) (over_ : Bool) (mv : Nat) : Bool :=
  let r := s.rail k
  let ends := if r.setpoint = r.target then [s.railSet k] else [r.old, s.railSet k, r.target]
  if over_ then decide (108 * ends.foldl max 0 < 100 * (1000 * mv))
  else decide (100 * (1000 * mv) < 92 * ends.foldl min (s.railSet k))

/-- VOLT_MONITOR_TRIP (R397): `over` or under, the sensed voltage in mV. -/
def execVoltMonitorTrip (k : Nat) (over_ : Bool) (mv : Nat) (s : State) : Host.Outcome State Fault Refusal :=
  if 16 < k ∨ (k ≠ 10 ∧ !(s.rail k).on) ∨ !s.crosses k over_ mv then .next s else
  let s := s.railStops k
  let set_ := s.railSet k
  .next ((s.danger 2 3 0x53 unitPackage (powerContext k mv [set_ / 1000, if over_ then 1 else 0])
    (s.regionScope (railRegions k)) (s.now - usTicks 10)).powerEvent)

/-- The status of every regulator of a commanded rail is read, each at its address of the board sense table (R395, R415). -/
def State.readStatus (s : State) : State := s.each (List.range 17) State.readStatusOf

/-- PMBUS_ALERT (R395): the rails that a fault stopped with their STATUS_WORD, the number of warnings, and whether a
transaction failed. -/
def execPmbusAlert (stops : List (Nat × Nat)) (warns : Nat) (failed : Bool) (s : State) : Host.Outcome State Fault Refusal :=
  let s := if failed then s.readStatus.raise Reg.brdlErrPmbus else s.readStatus
  let s := s.bumpBy Reg.brdlPmbusWarn warns
  .next (s.each stops (fun s e =>
    let s := s.raise Reg.brdlErrRailFault
    if s.stage < stReady then (s.railStops e.1).powerRecord true 1 0x54 unitPackage e.1 e.2 [s.railAddress e.1] else
    let s := s.railStops e.1
    (s.danger 2 3 0x54 unitPackage (powerContext e.1 e.2 [s.railAddress e.1]) (s.regionScope (railRegions e.1))
      (s.now - usTicks 10)).powerEvent))

/-- One step of a setpoint towards its target: at most 2 mV. -/
def stepTowards (v target : Nat) : Nat := if v < target then min target (v + 2000) else max target (v - 2000)

/-- SETPOINT_STEP (R398): every 10 µs; `failed` the rails whose bus transaction failed, which stay where they are. -/
def execSetpointStep (failed : List Nat) (s : State) : Host.Outcome State Fault Refusal :=
  .next (s.each (List.range 17) (fun s k =>
    if (k ≠ 10 ∧ !(s.rail k).on) ∨ (s.rail k).setpoint = (s.rail k).target then s
    else if failed.contains k then s.raise (if k < 8 ∨ k = 10 then Reg.brdlErrAvsbus else Reg.brdlErrPmbus)
    else
      let v := stepTowards (s.rail k).setpoint (s.rail k).target
      (s.setRail k { s.rail k with setpoint := v }).commandRail k v))

end Sys2Proof.Machine
end

