-- ==== Sys2Proof/Machine/Thermal.lean ====
section
/-!
DEFINITION. Temperatures, throttling, the thermal trip, sensor failures and ageing (R400 to R410). Temperatures in 1/16 °C.
-/
namespace Sys2Proof.Machine

def State.setSensor (s : State) (i : Nat) (x : Sensor) : State :=
  { s with thermal := { s.thermal with sensors := Map.set {} s.thermal.sensors i x } }

/-- THRM_SENSOR of a sensor. -/
def State.showSensor (s : State) (i : Nat) : State :=
  let x := s.sensor i
  ((s.fput (Reg.thrmSensorGood.sel i) x.good).fput (Reg.thrmSensorFast.sel i) x.fast).fset (Reg.thrmSensorTemp.sel i)
    (ofSigned 16 x.temp)

/-- THRM_MAX and THRM_HUB, with NV_OK of R407. -/
def State.showTemps (s : State) : State :=
  let hot := ((List.range 32).filterMap s.stringTemp).max?
  let s := (s.fset Reg.thrmMaxHigh (ofSigned 16 (s.opticalTemp.getD 0))).fset Reg.thrmMaxLow (ofSigned 16 (hot.getD 0))
  let s := s.fset Reg.thrmHubLow (ofSigned 16 (s.hubTemp.getD 0))
  let two := decide (2 ≤ (hubSensors.filter (fun i => (s.sensor i).good)).length)
  s.fput Reg.thrmHubNvOk (two && (match s.hubTemp with | some t => decide (0 ≤ t ∧ t ≤ 1360) | none => false))

/-! ### Throttling (R402) -/

/-- The thermal rein of a group's temperature. -/
def State.thermalRein (s : State) (g : Nat) (t : Option Int) : Nat :=
  match t with
  | none => 64
  | some t =>
    if t ≤ s.throttlePoint g then 64
    else 64 - (ceilRat ((s.limitCfg 5 1 8 : Nat) * ((t - s.throttlePoint g : Int) : Rat) / 16)).toNat

/-- THRM_STATUS bit of a group. -/
def throttleBit (g : Nat) : Fld := if g = 0 then Reg.thrmStatusThrottleString else if g = 1 then Reg.thrmStatusThrottleHub else Reg.thrmStatusThrottleOpt

/-- The group's bit follows its temperature; the first sample above the point is recorded, once per second (R402, R418). -/
def State.noteThrottle (s : State) (g subject : Nat) (t : Option Int) (rein : Nat) : State :=
  let above := match t with | some t => decide (s.throttlePoint g < t) | none => false
  let first := above && !s.flag (throttleBit g)
  let s := s.fput (throttleBit g) above
  if !first then s else
  let s := s.raise Reg.thrmErrThrottleEntry
  let last := Map.get 0 s.thermal.lastThrottle g
  if last ≠ 0 ∧ s.now + 1 < last + secTicks 1 then s else
  let s := { s with thermal := { s.thermal with lastThrottle := Map.set 0 s.thermal.lastThrottle g (s.now + 1) } }
  s.powerRecord false 0 0x51 unitPackage subject (ofSigned 16 (t.getD 0)) [ofSigned 16 (s.throttlePoint g), rein]

/-- The hottest string, for the group's bit. -/
def State.hotStrings (s : State) : Option Int := ((List.range 32).filterMap s.stringTemp).max?

/-- REIN_STRING of a string: its thermal rein, the effective rein, and the term that limits it (R391, R420; log 111). -/
def State.showRein (s : State) (x : Nat) : State :=
  let th := min (Map.get 64 s.thermal.rein x) (s.fget Reg.reinStatusThermalPkg)
  let e := s.reinNow x
  let lim := if e = 64 then 0 else if e = s.fget Reg.reinStatusPackage then 1 else if e = th then 2 else 3
  ((s.fset (Reg.reinStringLimiter.sel x) lim).fset (Reg.reinStringThermal.sel x) (Map.get 64 s.thermal.rein x)).fset
    (Reg.reinStringEffective.sel x) e

/-- Some thermal rein is below 64. -/
def State.anyThermal (s : State) : Bool :=
  s.thermal.rein.any (fun e => decide (e.2 < 64)) || decide (s.fget Reg.reinStatusThermalPkg < 64)

/-- The waymark millisecond of a sample counts once where a thermal rein is below 64 (R402); every millisecond has samples. -/
def State.countThrottle (s : State) : State :=
  let ms := s.now / msTicks 1 + 1
  if !s.anyThermal ∨ s.thermal.msCounted = ms then s
  else ({ s with thermal := { s.thermal with msCounted := ms } }).bump Reg.thrmThrottleMs

/-- The thermal reins after a sample of sensor `i`. -/
def State.throttle (s : State) (i : Nat) : State :=
  let s := s.countThrottle
  let s := if i < 64 then
      (let r := s.thermalRein 0 (s.stringTemp (i / 2))
       let s := { s with thermal := { s.thermal with rein := Map.set 64 s.thermal.rein (i / 2) r } }
       s.noteThrottle 0 i s.hotStrings r)
    else
      (let r := min (s.thermalRein 1 s.hubTemp) (s.thermalRein 2 s.opticalTemp)
       let s := s.fset Reg.reinStatusThermalPkg r
       if i < 68 then s.noteThrottle 1 i s.hubTemp r else s.noteThrottle 2 i s.opticalTemp r)
  s.countThrottle

/-! ### The trip (R403) -/

/-- The unit that a sensor's records name. -/
def sensorUnit (i : Nat) : Nat := if i < 64 then unitString (i / 2) else if i < 68 then unitPackage else unitPort (i - 68)

/-- A thermal trip at a sensor: regions stop, causeways are commanded to close, the waymark is latched, and the record of
severity FATAL goes out. No detection of R454, so nothing is marked. -/
def State.trip (s : State) (i : Nat) (t : Int) (hard : Bool) : State :=
  if s.thermal.trip ≠ 0 then s else
  let s := s.stopAll.each [0, 1, 2] State.holdCway
  let s := (s.raise Reg.thrmStatusTripped).fput Reg.thrmStatusHardTrip hard
  let s := s.fset64 Reg.thrmTripWayLo Reg.thrmTripWayHi s.now
  let s := { s with thermal := { s.thermal with trip := 1 }, nv := { s.nv with tripOwed := true } }
  let s := if hard then { s with pins := { s.pins with thermtrip := true } } else s
  let ctx := powerContext i (ofSigned 16 t) [ofSigned 16 (s.tripPoint (sensorGroup i)), if hard then 1 else 0]
  (s.danger 3 0 0x52 (sensorUnit i) ctx 0 s.now).powerEvent

/-- TRIP_RAILS_OFF (R403): the commanded rails but VDD_OPT. -/
def execTripRailsOff (s : State) : Host.Outcome State Fault Refusal :=
  if s.thermal.trip ≠ 1 then .next s else
  .next (({ s with thermal := { s.thermal with trip := 2 } } : State).railsOffBut [16])

/-- TRIP_FINAL (R403): VDD_OPT off, THERMTRIP_N asserted until a reset. -/
def execTripFinal (s : State) : Host.Outcome State Fault Refusal :=
  if s.thermal.trip ≠ 2 then .next s else
  let s := { s with thermal := { s.thermal with trip := 3 }, pins := { s.pins with thermtrip := true } }
  .next s.railsOff

/-! ### Sensor failures (R405) -/

/-- A string without a good sensor stops, and its teams go out of service. -/
def State.loseString (s : State) (x : Nat) : State :=
  if s.thermal.lostStrings.contains x then s else
  let s := { s with thermal := { s.thermal with lostStrings := s.thermal.lostStrings ++ [x] } }
  let s := (s.stopRegion x).revokeOwn (unitString x)
  (s.each ((List.range 24).map (fun j => 24 * x + j)) State.loseTeam).updateHealth

/-- A sensor has failed: what its place does without it. -/
def State.failSensor (s : State) (i : Nat) : State :=
  let x := s.sensor i
  let s := (s.setSensor i { x with good := false, failed := true, fast := false, atTrip := false }).showSensor i
  let s := ((s.raise Reg.thrmErrSensorFail).bump Reg.thrmSensorFaults).powerRecord (sensorGroup i == 1) 1 0x55 (sensorUnit i) i (ofSigned 16 x.temp) []
  if i < 64 then
    (if (s.sensor (2 * (i / 2))).failed && (s.sensor (2 * (i / 2) + 1)).failed then s.loseString (i / 2) else s.updateHealth)
  else if i < 68 then
    (if 2 < (hubSensors.filter (fun j => (s.sensor j).failed)).length then s.trip i x.temp false else s)
  else
    (s.setPort (i - 68) { s.port (i - 68) with sensorDark := true }).darken (i - 68)

/-- The two sensors of a string differ by more than 15 °C: which one is kept is open, since a string has no other
temperatures that the rule could mean (R405, log 39). -/
def State.compareSensors (s : State) (x : Nat) : State :=
  let a := s.sensor (2 * x)
  let b := s.sensor (2 * x + 1)
  if !a.good || !b.good || decide ((a.temp - b.temp).natAbs ≤ 240) then s else
  let r := s.draw
  r.2.failSensor (2 * x + r.1 % 2)

/-! ### The sample (R401) -/

/-- Fast sampling begins within 5 °C below the throttle point and ends 7 °C below it. -/
def State.setFast (s : State) (i : Nat) : State :=
  let x := s.sensor i
  let thr := s.throttlePoint (sensorGroup i)
  if !x.fast ∧ thr - 80 ≤ x.temp then (s.setSensor i { x with fast := true }).bump Reg.thrmFastEntries
  else if x.fast ∧ x.temp ≤ thr - 112 then s.setSensor i { x with fast := false }
  else s

/-- The trip conditions of R403. -/
def State.checkTrip (s : State) (i : Nat) (was : Bool) : State :=
  let t := (s.sensor i).temp
  let p := s.tripPoint (sensorGroup i)
  if p + 80 ≤ t then s.trip i t true else if p ≤ t ∧ was then s.trip i t false else s

/-- The trims of the tiles of a string follow its temperature, from the next beat boundary on (R112). -/
def State.retrimString (s : State) (x : Nat) : State :=
  let ts := s.listedTeams.filter (fun t => teamString t == x)
  (s.each ts (fun s t => s.each (s.teamTiles t) (fun s k => s.retrimTo true t k))).each ts State.showTeam

/-- The temperatures of a region over the last 10 ms, the one that it had as they began among them; 32 is the hub (R408). -/
def recentTemps (now : Nat) (l : List (Nat × Int)) : List (Nat × Int) :=
  let from_ := now - msTicks 10
  let before := l.filter (fun e => decide (e.1 ≤ from_))
  before.drop (before.length - 1) ++ l.filter (fun e => decide (from_ < e.1))

/-- A region's temperature after a sample is kept while it is news and recent. -/
def State.keepTemp (s : State) (m : Nat) : State :=
  match if m < 32 then s.stringTemp m else s.hubTemp with
  | none => s
  | some t =>
    let l := recentTemps s.now (Map.get [] s.thermal.temps m)
    let l := if l.getLast?.map (·.2) = some t then l else l ++ [(s.now, t)]
    { s with thermal := { s.thermal with temps := Map.set [] s.thermal.temps m l } }

/-- What follows every sample of sensor `i`, a failed one too: the temperatures shown, the throttle and the trims. -/
def State.settleTemps (s : State) (i : Nat) : State :=
  let s := ((s.showSensor i).showTemps).throttle i
  let s := if i < 64 then s.keepTemp (i / 2) else if i < 68 then s.keepTemp 32 else s
  if i < 64 then s.retrimString (i / 2) else s

/-- What a good sample of sensor `i` changes. -/
def State.takeSample (s : State) (i : Nat) (was : Bool) : State :=
  let s := s.setFast i
  let s := if i < 64 then s.compareSensors (i / 2) else s
  let s := s.settleTemps i
  if (s.sensor i).good then s.checkTrip i was else s

/-- THERMAL_SAMPLE (R401 to R405): a sample of sensor `i` in 1/16 °C. A failed sensor is not sampled again. -/
def execThermalSample (i : Nat) (temp : Int) (s : State) : Host.Outcome State Fault Refusal :=
  let x := s.sensor i
  if x.failed ∨ 74 ≤ i then .next s else
  let was := x.atTrip
  let s := s.setSensor i { x with temp := temp, good := true, atTrip := decide (s.tripPoint (sensorGroup i) ≤ temp) }
  let s := if temp < -640 ∨ 2400 < temp then (s.failSensor i).settleTemps i else s.takeSample i was
  .next ((s.each (List.range 32) State.showRein).keepFaults).updateHealth

/-! ### Ageing (R408 to R410) -/

/-- A plan value's window target in units of 10 ps. -/
def windowTarget (v : Int) : Nat := (max 1440 (roundEven (1500 - (v : Rat) / 10))).toNat

/-- THRM_AGE and THRM_PLAN of a monitor; `v` the slowdown shown. -/
def State.showAge (s : State) (m : Nat) (v : Int) : State :=
  let p := s.planValue m
  let s := (s.fset (Reg.thrmAgeSlowdown.sel m) (ofSigned 16 v)).fput (Reg.thrmAgeEligible.sel m) (decide (m < 32) && eligible p)
  (s.fset (Reg.thrmPlanWindow.sel m) (if m < 32 then windowTarget p else 0)).fset (Reg.thrmPlanGuard.sel m) (guardBand p)

/-- The slowdown of a monitor in 0.01 %, from the counts of its stressed and its reference oscillator over the gate and the
ratio measured at manufacture: 1 − r ÷ r0, to nearest even (log 113). -/
def slowdown (r0 : Rat) (stressed reference : Nat) : Int :=
  roundEven (10000 * (1 - (stressed : Rat) / (reference : Rat) / r0))

/-- The slowdown that a monitor measures; of a reference oscillator that did not count, R408 states none, so it is free
(log 113). -/
def State.measuredSlowdown (s : State) (m : Nat) (c : Nat × Nat) : Int × State :=
  if c.2 = 0 then let d := s.draw; (toSigned 16 (d.1 % 65536), d.2) else (slowdown (Map.get (Config.ageRatio m) s.nv.ageRatios m) c.1 c.2, s)

/-- The temperature of a monitor's region has moved less than 1 °C in the preceding 10 ms, as far as it was sampled (R408). -/
def State.settled (s : State) (m : Nat) : Bool :=
  let ts := (recentTemps s.now (Map.get [] s.thermal.temps m)).map (·.2)
  match ts.max?, ts.min? with
  | some a, some b => decide (a - b < 16)
  | _, _ => true

/-- The waymark hour, plus 1. -/
def State.hourNow (s : State) : Nat := s.now / secTicks 3600 + 1

/-- One monitor measures, once in a waymark hour (R408). -/
def State.measureAge (s : State) (m : Nat) (c : Nat × Nat) : State :=
  if !s.settled m ∨ Map.get 0 s.thermal.measured m = s.hourNow then s else
  let v := s.measuredSlowdown m c
  let h := Map.modify [] v.2.thermal.hourly m (fun l => l ++ [v.1])
  let d := Map.set 0 v.2.thermal.measured m s.hourNow
  ({ v.2 with thermal := { v.2.thermal with hourly := h, measured := d } }).showAge m v.1

/-- AGEING_MEASURE (R408): the counts of the two oscillators of each of the 33 monitors. A monitor whose region is not settled waits for
another moment of the hour. -/
def execAgeingMeasure (counts : List (Nat × Nat)) (s : State) : Host.Outcome State Fault Refusal :=
  if s.coreHalted 2 then .next s else
  .next (s.each (List.range (min 33 counts.length)) (fun s m => s.measureAge m (counts.getD m (0, 0))))

/-- The median of a list: of an even number the mean of the middle two, rounded to nearest even (log 40). -/
def median (xs : List Int) : Option Int :=
  let ys := xs.mergeSort (fun a b => decide (a ≤ b))
  if ys.isEmpty then none
  else if ys.length % 2 = 1 then ys[ys.length / 2]?
  else some (roundEven (((ys.getD (ys.length / 2 - 1) 0 + ys.getD (ys.length / 2) 0 : Int) : Rat) / 2))

/-- Life consumed, in 0.1 %, of a plan. -/
def lifeOf (plan : SMap Int) : Nat := min 65535 (2 * ((plan.map (fun e => e.2)).foldl max 0)).toNat

/-- The monitor with the largest plan value. -/
def State.oldest (s : State) : Nat :=
  ((List.range 33).find? (fun m => (List.range 33).all (fun n => decide (s.planValue n ≤ s.planValue m)))).getD 0

/-- Life consumed as the plan gives it: the register, and EOL with its record (R410). -/
def State.setLife (s : State) : State :=
  let l := lifeOf s.thermal.plan
  let s := s.fset Reg.thrmLifeConsumed l
  if l < 1000 ∨ s.flag Reg.thrmStatusEol then s else
  (s.raise Reg.thrmStatusEol).powerRecord false 0 0x57 unitPackage s.oldest l [s.oldest]

/-- The plan's outputs: guard bands, the strings' eligibility and window targets (the hub has neither), life. -/
def planOutputs (plan : SMap Int) : List (Nat × Bool × Nat) × Nat :=
  ((List.range 33).map (fun m =>
    let v := Map.get 0 plan m
    (guardBand v, decide (m < 32) && eligible v, if m < 32 then windowTarget v else 0)), lifeOf plan)

/-- AGEING_REPLAN (R409, R410): once a day. -/
def execAgeingReplan (s : State) : Host.Outcome State Fault Refusal :=
  if s.coreHalted 2 then .next s else
  let old := s.thermal.plan
  let plan := (List.range 33).foldl (fun m i =>
    match median (Map.get [] s.thermal.hourly i) with
    | some v => Map.set 0 m i (max (Map.get 0 old i) v)
    | none => m) old
  let s := { s with thermal := { s.thermal with plan := plan, hourly := [] } }
  let s := if planOutputs plan = planOutputs old then s else s.raise Reg.thrmErrPlanChange
  let s := s.each (List.range 33) (fun s m => s.showAge m (s.planValue m))
  let s := s.retarget.setLife
  let s := if s.nvOk then
      { s with nv := { s.nv with plan := plan, life := lifeOf plan, eol := s.flag Reg.thrmStatusEol } } else s
  .next s.updateHealth

end Sys2Proof.Machine
end

