-- ==== Sys2Proof/Machine/Clocks.lean ====
section
/-!
DEFINITION. Clock regions and waymark time (R364 to R377). Offsets are in 1/8 tick; a positive one says that the source is
ahead of this package's counter.
-/
namespace Sys2Proof.Machine

/-! ### Regions (R365 to R370) -/

/-- CLK_REGION and CLK_CYC of a region. -/
def State.showRegion (s : State) (r : Nat) : State :=
  let x := s.region r
  let s := (s.fput (Reg.clkRegionStopped.sel r) x.stopped).fput (Reg.clkRegionStretched.sel r) x.stretched
  (s.fput (Reg.clkRegionBoost.sel r) x.boost).fset64 (Reg.clkCycLo.sel r) (Reg.clkCycHi.sel r) (x.fifths / 5)

/-- The rail at a region's sense point: VDD_Ck of its string, or VDD_HUB. -/
def senseRail (r : Nat) : Nat := if r < 32 then r / 4 else 10

/-- A supply in mV lies DROOP_MV or more below the setpoint of the region's rail (R399). -/
def State.droops (s : State) (r mv : Nat) : Bool :=
  decide (1000 * (mv + s.limitCfg 14 1 40) ≤ s.railSet (senseRail r))

/-- DROOP_TRIP (R368, R399): the supply at the region's sense point, in mV; the region's clocks are stretched. -/
def execDroopTrip (r mv : Nat) (s : State) : Host.Outcome State Fault Refusal :=
  let x := s.region r
  .next (if x.stopped || x.stretched || !s.droops r mv then s else (s.setRegion r { x with stretched := true }).bump (Reg.clkStretches.sel r))

/-- STRETCH_END (R368): the region returns to its gait dividers. -/
def execStretchEnd (r : Nat) (s : State) : Host.Outcome State Fault Refusal :=
  .next (s.setRegion r { s.region r with stretched := false })

/-- Only a reset restarts the region: a trip, a root monitor, a rail's monitor, a lockstep mismatch, no sensor. -/
def State.heldStopped (s : State) (r : Nat) : Bool :=
  s.thermal.trip != 0 || s.clocks.monFault || s.power.monitored.contains r || s.safety.lockstopped || s.thermal.lostStrings.contains r

/-- REGION_RESTART (R370): a stopped region restarts, RESUME first. -/
def execRegionRestart (r : Nat) (s : State) : Host.Outcome State Fault Refusal :=
  .next (if s.heldStopped r then s else s.startRegion r 1)

/-- Divisors of the 9.6 GHz root for a region's core, fabric and hub clocks (R364, R368); the array and waymark clocks divide
by 24 always, the SerDes reference by 60. -/
def Region.coreDiv (x : Region) : Nat := if x.stretched then 8 else if x.boost then 5 else 6
def Region.fabricDiv (x : Region) : Nat := if x.stretched then 16 else if x.boost then 10 else 12
def Region.hubDiv (x : Region) : Nat := if x.stretched then 8 else 6
def arrayDiv : Nat := 24
def serdesDiv : Nat := 60

/-- Fifths of a core cycle in one waymark tick of 24 root cycles. -/
def Region.rate (x : Region) : Nat := if x.stopped then 0 else 5 * arrayDiv / x.coreDiv

/-- The waymark after one 400 MHz cycle (R371). -/
def State.tick (s : State) : State :=
  let t : Int := s.clocks.way.frac + toSigned 32 (s.fget Reg.wayRate)
  let now_ : Int := s.now + 1 + t / (2 ^ 32 : Nat)
  let rs := (List.range 33).foldl (fun m r =>
    let x := s.region r
    Map.set {} m r { x with fifths := x.fifths + x.rate }) s.clocks.regions
  { s with now := now_.toNat, clocks := { s.clocks with regions := rs, way := { s.clocks.way with
      frac := (t % (2 ^ 32 : Nat)).toNat, adj := s.clocks.way.adj + toSigned 32 (s.fget Reg.wayRate) } } }

/-- CLOCK_MONITOR_FAIL (R366): `pll` where PLL lock failed, else SYSCLK; each monitor fails once. -/
def execClockMonitorFail (pll : Bool) (s : State) : Host.Outcome State Fault Refusal :=
  if s.clocks.monSeen.contains pll then .next s else
  let s := s.stopAll
  let s := (s.raise Reg.clkStatusMonFault).raise Reg.clkStatusBackupOsc
  let s := if pll then s.clear Reg.clkStatusPllLock else s
  let s := ({ s with clocks := { s.clocks with monFault := true, monSeen := s.clocks.monSeen ++ [pll] } }).fset Reg.wayStatusState 3
  .next (s.danger 2 3 0x30 unitPackage (clockContext s 0xFFFFFFFF) scopeAll (s.now - usTicks 10))

/-! ### Discipline (R372 to R377) -/

/-- WAY_STATUS.FAR, and WAY_FAR at most once a minute (R372, R380). -/
def State.setFar (s : State) (o : Int) : State :=
  let far := decide (3200 < o.natAbs)
  let s := s.fput Reg.wayStatusFar far
  let due := match s.clocks.way.farAt with | some w => decide (w + secTicks 60 ≤ s.now) | none => true
  if far && due then (s.setWay { s.clocks.way with farAt := some s.now }).record 0 0 0x32 unitPackage (clockContext s 0xFFFFFFFF) else s

/-- An update with a filtered offset: WAY_OFFSET, FAR, the count of R377, and the rate. -/
def State.wayFiltered (s : State) (o rate : Int) : State :=
  let s := (s.fset Reg.wayOffset (ofSigned 32 (clampInt (-2147483648) 2147483647 o))).setFar o
  let s := s.fset Reg.wayRate (ofSigned 32 (clampInt (-858993) 858993 rate))
  if s.fget Reg.wayStatusState ≠ 1 then s else
  let n := if o.natAbs < 160 then s.clocks.way.good + 1 else 0
  let s := s.setWay { s.clocks.way with good := n }
  if 16 ≤ n then s.fset Reg.wayStatusState 2 else s

/-- The waymark is set, once per acquisition, before READY only. -/
def State.setNow (s : State) (v : Nat) : State :=
  let w := s.clocks.way
  let d : Int := (v % 2 ^ 64 : Nat) - (s.now : Int)
  ({ s with now := v % 2 ^ 64 }).setWay { w with
    setUsed := true, frac := 0, offsets := [], good := 0, ppsAt := w.ppsAt + d, adj := w.adj + d * 2 ^ 32, ptp := { w.ptp with sync := none, asked := none } }

/-- The discipline loop may set the counter: ACQUIRING, before READY, no set made in this acquisition (R372). -/
def State.maySet (s : State) : Bool :=
  s.fget Reg.wayStatusState == 1 && decide (s.stage < stReady) && !s.clocks.way.setUsed

/-- An offset of the source in use steers the rate, filtered over the last 64. -/
def State.wayTrack (s : State) (o : Int) : State :=
  let os := s.clocks.way.offsets ++ [o]
  let os := os.drop (os.length - 64)
  (s.setWay { s.clocks.way with offsets := os }).wayFiltered (Config.wayFilter os) (Config.waySteer os)

/-- An update from the source in use: `o` its offset. The loop sets the counter on the first update of an acquisition
before READY (log 42), which leaves less than a tick; later updates steer the rate. -/
def State.wayUpdate (s : State) (o : Int) : State :=
  if s.clocks.monFault then s else
  if s.maySet then ((s.setFar o).setNow (s.now + (o / 8)).toNat).setFar (o % 8) else s.wayTrack o

/-- LINK_WAY_DELAY and LINK_WAY_OFS of a port from T1 to T4 in 1/8 tick (R331). -/
def wayOfs (t1 t2 t3 t4 : Int) : Int := ((t2 - t1) - (t4 - t3)) / 2
def wayDelay (t1 t2 t3 t4 : Int) : Int := ((t4 - t1) - (t3 - t2)) / 2

/-- The discipline state that a peer's WAY_REPLY reports. -/
def State.heardWay (s : State) (p state : Nat) : State := s.setPort p { s.port p with waySt := state }

/-- What the upstream port's exchange does (R373, R375). -/
def State.fromUpstream (s : State) (p : Nat) (o : Int) : State :=
  if s.upstream ≠ some p then s else
  let s := s.reSource
  if s.fget Reg.wayStatusSource = 3 then s.wayUpdate o else s

/-- WAY_REPLY (R331, R375): T1, T2, T3 in ticks with their eighths, the replier's state, and `frac` the eighths at arrival. -/
def execWayReply (p : Nat) (ok : Bool) (h : CtrlHdr) (t1 t2 t3 f1 f2 f3 state frac : Nat) (s : State) :
    Host.Outcome State Fault Refusal :=
  let b := leBytes 8 t1 ++ leBytes 8 t2 ++ leBytes 8 t3 ++ [f1, f2, f3, state] ++ zeros 4
  .next (s.ctrlIn p ok 0x09 h b (fun s =>
    let v := wayOfs (8 * t1 + f1) (8 * t2 + f2) (8 * t3 + f3) (8 * s.now + frac)
    let d := wayDelay (8 * t1 + f1) (8 * t2 + f2) (8 * t3 + f3) (8 * s.now + frac)
    (((s.fset (Reg.linkWayOfs.port p) (ofSigned 32 v)).fset (Reg.linkWayDelay.port p) (ofSigned 32 d)).heardWay p state).fromUpstream p v))

/-- The value that WAY_CTRL.SET gives: WAY_SET, of which only the seconds count while PPS without PTP gives the phase (R373, log 42). -/
def State.waySetValue (s : State) : Nat :=
  let v := s.fget64 Reg.waySetLo Reg.waySetHi
  let w := s.clocks.way
  if s.fget Reg.wayStatusSource ≠ 1 ∨ w.ptpValid then v
  else (v + (phaseOf (8 * (s.now - (v : Int)) + w.offsetNow w.ppsOffset)) / 8).toNat

/-- WAY_SET (R372): WAY_CTRL.SET. What is left of the last offset decides WAY_STATUS.FAR. -/
def execWaySet (s : State) : Host.Outcome State Fault Refusal :=
  if stReady ≤ s.stage then .next (s.raise Reg.wayErrSetRefused)
  else if s.clocks.way.setUsed then .next s
  else
    let v := s.waySetValue
    let o : Int := toSigned 32 (s.fget Reg.wayOffset) - 8 * ((v : Int) - s.now)
    .next ((s.setNow v).setFar (if s.fget Reg.wayStatusSource = 0 then 0 else o))

/-- Ticks from an edge to the last, and the edge's offset: the nearest second, less the counter. -/
def ppsOffsetOf (now_ : Nat) : Int :=
  let m : Int := (now_ % 400000000 : Nat)
  8 * (if 200000000 ≤ m then 400000000 - m else -m)

/-- The edge is followed: PTP gives the seconds where it is valid; the counter is set only then (R373). -/
def State.ppsUpdate (s : State) (o : Int) : State :=
  if s.fget Reg.wayStatusSource ≠ 1 then s
  else if !s.maySet then s.wayUpdate o
  else if s.clocks.way.ptpValid then
    (let target : Int := s.now + s.clocks.way.offsetNow s.clocks.way.ptpOffset / 8
     s.wayUpdate (8 * ((target + 200000000) / 400000000 * 400000000 - s.now)))
  else s.wayTrack o

/-- PPS_EDGE (R373): an edge on PPS_IN; the edge that the CLOCK section does not name is ignored. -/
def execPpsEdge (falling : Bool) (s : State) : Host.Outcome State Fault Refusal :=
  if falling ≠ (s.clockCfg 8 1 0 == 1) then .next s else
  let w := s.clocks.way
  let d := s.now - w.ppsAt
  let n := if 399960000 ≤ d ∧ d ≤ 400040000 then min 3 (w.ppsEdges + 1) else 0
  let o := ppsOffsetOf s.now
  let s := (s.fset64 Reg.wayPpsLo Reg.wayPpsHi s.now).setWay { w with ppsEdges := n, ppsValid := n == 3, ppsAt := s.now, ppsOffset := o + w.added }
  .next (s.reSource.ppsUpdate o)

/-! ### PTP (R374) -/

/-- A PTP time in 1/8 tick: nanoseconds since the epoch, and the correction field in 2^-16 ns. -/
def ptpEighths (ns : Nat) (corr : Int) : Int := ((ns * 65536 : Nat) + corr) * 16 / 327680

/-- The device's time at the MAC, in 1/8 tick. -/
def State.macTime (s : State) (frac : Nat) : Int := 8 * (s.now : Int) + (frac % 8 : Nat)

/-- A Sync's time is known: t2 − t1, and the Delay_Req of the end-to-end mechanism leaves. -/
def State.ptpDelayReq (s : State) (d : Int) (frac : Nat) : State :=
  let w := s.clocks.way
  let q := w.ptp.next
  let s := s.setWay { w with ptp := { sync := none, asked := some (q, d, s.macTime frac), next := (q + 1) % 65536 } }
  s.send (.delayReq s.macAddr s.vlanTag (s.clockCfg 5 1 0) q)

/-- An exchange is complete with t4: the offset to the master, which PTP then gives. -/
def State.ptpDone (s : State) (d t3 t4 : Int) : State :=
  let w := s.clocks.way
  let o := (t4 - t3 - d) / 2
  let s := (s.setWay { w with ptpValid := true, ptpOffset := o + w.added, ptp := { w.ptp with asked := none } }).reSource
  if s.fget Reg.wayStatusSource = 2 then s.wayUpdate o else s

/-- PTP_SYNC (R373, R374): a Sync of one or two steps, a Follow_Up or a Delay_Resp of the one domain; `frac` eighths of a tick at its
arrival, and `out` at the departure of what it brings about. -/
def execPtpSync (domain : Nat) (m : PtpMsg) (frac out : Nat) (s : State) : Host.Outcome State Fault Refusal :=
  if domain ≠ s.clockCfg 5 1 0 ∨ !s.safety.portUp ∨ s.coreHalted 6 then .next s else
  let w := s.clocks.way
  .next (match m with
  | .sync seq true _ corr => s.setWay { w with ptp := { w.ptp with sync := some (seq, s.macTime frac - ptpEighths 0 corr) } }
  | .sync _ false t1 corr => s.ptpDelayReq (s.macTime frac - ptpEighths t1 corr) out
  | .followUp seq t1 corr => (match w.ptp.sync with
    | some (q, t2) => if q = seq then s.ptpDelayReq (t2 - ptpEighths t1 corr) out else s
    | none => s)
  | .delayResp seq t4 corr => (match w.ptp.asked with
    | some (q, d, t3) => if q = seq then s.ptpDone d t3 (ptpEighths t4 (-corr)) else s
    | none => s))

/-- TIME_SOURCE_INVALID (R373, R377): the validity of a source lapses. -/
def execTimeSourceInvalid (src : Nat) (s : State) : Host.Outcome State Fault Refusal :=
  let w := s.clocks.way
  let w := if src = 1 then { w with ppsEdges := 0, ppsValid := false } else if src = 2 then { w with ptpValid := false }
    else w
  let s := match (if src = 3 then s.upstream else none) with | some p => s.heardWay p 0 | none => s
  .next (s.setWay w).reSource

/-- TIME_ROOT_DISCIPLINE_UPDATE (R376): each millisecond at TIME_ROOT under TORUS. -/
def execTimeRootDisciplineUpdate (s : State) : Host.Outcome State Fault Refusal :=
  let s := s.reSource
  .next (if s.isRoot ∧ s.fget Reg.wayStatusSource = 3 ∧ !s.clocks.monFault then s.wayFiltered 0 0 else s)

end Sys2Proof.Machine
end

