-- ==== Sys2Proof/Machine/Reserve.lean ====
section
/-!
DEFINITION. Securing pages for a sequence (R195, R196, R208, R210, R212, R218 to R223, R232): reservation, eviction,
spilling, page moves and copies, page waits, forks, and the KV snapshot and host-area registers.
-/
namespace Sys2Proof.Machine

/-! ### Pages -/

/-- Bytes of a page of a cache (R194). -/
def State.pageSize (s : State) (p c log2 : Nat) : Nat :=
  let k := s.cacheShape p c
  4 * 2 ^ log2 + k.layers * k.heads * 2 * mxSize k.fmt (2 ^ log2 * k.dim)

/-- Host address of a frame of the host area (R195, R196). -/
def State.hostFrame (s : State) (p frame : Nat) : Nat :=
  s.fget (Reg.kvPHostLo.kvPart p) * 4096 + s.fget (Reg.kvPHostHi.kvPart p) * 2 ^ 32 + frame * s.frameBytes p

/-- A KV entry of the trace: partition, action, slot, page. -/
def State.kvTrace (s : State) (p action slot page : Nat) : State :=
  s.traceEvent 7 unitKv 0x80 ([p, action] ++ leBytes 2 slot ++ leBytes 4 page)

/-- A page takes part in a move or copy. -/
def State.inMove (s : State) (p id : Nat) : Bool := s.kv.moves.any (fun m => m.part == p && m.page == id)

/-! ### Eviction (R218) -/

/-- The mean of the first `n` importance words of a page. -/
def meanImportance (b : List Nat) (n : Nat) : Rat := ((List.range n).map (fun i => (f32 (field b (4 * i) 4)).rat)).sum / n

/-- The eviction score of a page: mean importance of its VIEW committed entries. A UE of the read poisons the page (R223). A page in
the host pool has the importance that it was moved there with (log 104). -/
def State.evictScore (s : State) (p : Nat) (e : Entry) : Rat × State :=
  let x := s.page p e.page
  if x.tier = 2 then (meanImportance (Map.get [] s.kv.hostImportance (p * 2 ^ 24 + e.page)) e.view, s) else
  let r := s.readPage unitKv p x 0 (4 * e.view)
  if r.2.1 then (0, (r.2.2.setPage p e.page { r.2.2.page p e.page with st := .poisoned }).raise Reg.kvErrPoison) else
  (meanImportance r.1 e.view, r.2.2)

/-- The better of two candidates: lower score, then the earlier one. -/
def betterPick (best : Option (Rat × Entry)) (q : Rat) (e : Entry) : Option (Rat × Entry) :=
  match best with
  | none => some (q, e)
  | some b => if q < b.1 then some (q, e) else some b

/-- The entry that eviction takes: lowest score, lower FIRST_POS on equal scores. -/
def State.evictPick (s : State) (p slot c : Nat) : Option (Rat × Entry) × State :=
  let es := (s.seqTab p slot c).entries
  let ok := ((List.range es.length).zip es).filter (fun e => s.evictable p c e.1 es.length e.2)
  ok.foldl (fun a e => let q := a.2.evictScore p e.2; (betterPick a.1 q.1 e.2, q.2)) (none, s)

/-- One page is evicted from a sequence, where any is eligible and none is found POISONED. -/
def State.evictOne (s : State) (p slot c : Nat) : Bool × State :=
  let r := s.evictPick p slot c
  match r.1 with
  | none => (false, r.2)
  | some (_, e) =>
    let s := r.2
    if s.seqPoisoned p slot then (false, s) else
    let t := s.seqTab p slot c
    let s := s.setSeq p slot c { t with entries := t.entries.filter (fun z => z.page != e.page) }
    (true, ((s.releasePage p e.page).bump (Reg.kvPEvict.kvPart p)).kvTrace p 4 slot e.page)

/-- Evict until `done` holds or no page is eligible; `n` bounds the pages of the table. -/
def State.evictUntil (s : State) (p slot c : Nat) (done : State → Bool) : Nat → State
  | 0 => s
  | n + 1 =>
    if done s then s else
    let r := s.evictOne p slot c
    if r.1 then r.2.evictUntil p slot c done n else r.2

/-! ### What a reservation needs (R219) -/

/-- The need of one cache: pages to bring home, entries to copy, FIRST_POS of pages to add. -/
structure CacheNeed where
  cache : Nat
  fetch : List Nat
  copy : List Entry
  add : List Nat

/-- The page blocks of positions [a, b) that this holder keeps (R208). -/
def State.holderBlocks (s : State) (p c a b : Nat) : List Nat :=
  if b ≤ a then [] else
  let l := s.cacheLog2 p c
  ((List.range ((b - 1) / 2 ^ l + 1 - a / 2 ^ l)).map (a / 2 ^ l + ·)).filter (fun k => k % s.spreadCount p c == s.spreadIndex p c)

/-- The need of one cache for positions up to `upto`. -/
def State.cacheNeed (s : State) (p slot upto c : Nat) : CacheNeed :=
  let t := s.seqTab p slot c
  let l := s.cacheLog2 p c
  let bs := s.holderBlocks p c t.nextPos upto
  { cache := c,
    fetch := (t.entries.filter (fun e => !s.pageHome p c (s.page p e.page))).map (fun e => e.page),
    copy := t.entries.filter (fun e => bs.contains (e.firstPos / 2 ^ l) && decide (1 < (s.page p e.page).refs)),
    add := (bs.filter (fun k => !t.entries.any (fun e => e.firstPos == k * 2 ^ l))).map (fun k => k * 2 ^ l) }

/-- Frames that a need takes, and page records. -/
def CacheNeed.frames (n : CacheNeed) : Nat := n.fetch.length + n.copy.length + n.add.length
def CacheNeed.ids (n : CacheNeed) : Nat := n.copy.length + n.add.length

/-- A frame pool: tier and string. -/
abbrev Pool := Nat × Nat
def State.cachePool (s : State) (p c : Nat) : Pool := (s.cacheHome p c, s.cacheStr p c)

/-- Frames needed of a pool. -/
def State.poolNeed (s : State) (p : Nat) (ns : List CacheNeed) (h : Pool) : Nat :=
  ((ns.filter (fun n => s.cachePool p n.cache == h)).map CacheNeed.frames).sum

/-- Frames that a sequence may take of a pool: free ones and those set aside for it, where no other sequence waits in
front of it (R222). -/
def State.poolRoom (s : State) (p slot : Nat) (h : Pool) : Nat :=
  let ws := s.kv.waiters.filter (fun w => w.part == p && w.tier == h.1 && (h.1 != 0 || w.str == h.2))
  match ws with
  | [] => (s.freeFrames p h.1 h.2).length
  | w :: _ => if w.slot = slot then (s.freeFrames p h.1 h.2).length + w.got.length else 0

/-- Every pool covers the need, and the page records do. -/
def State.enough (s : State) (p slot : Nat) (ns : List CacheNeed) : Bool :=
  (ns.map (fun n => s.cachePool p n.cache)).all (fun h => decide (s.poolNeed p ns h ≤ s.poolRoom p slot h)) &&
  decide ((ns.map CacheNeed.ids).sum ≤ (s.freeIds p).length)

/-! ### Starting moves (R212, R219, R221) -/

/-- The page's record changes its state. -/
def State.pageState (s : State) (p id : Nat) (st : PageSt) : State := s.setPage p id { s.page p id with st := st }

/-- A move of a whole page begins: a frame is allocated, and the page is MOVING and pinned until the move completes. -/
def State.startMove (s : State) (p id : Nat) (kind : MoveKind) (h : Pool) (seq : Nat) : State :=
  match s.freeFrames p h.1 h.2 with
  | [] => s
  | f :: _ =>
    let m : Move := { part := p, page := id, kind := kind, tier := h.1, str := h.2, frame := f, newPage := 0, seq := seq,
                      entry := 0, view := 0 }
    let s := { s with kv := { s.kv with moves := s.kv.moves ++ [m] } }
    ((s.bump (Reg.kvPAlloc.kvPart p)).pageState p id .moving).pin p id

/-- A copy on write begins: the old page is pinned and loses the writer's reference (R212). -/
def State.startCopy (s : State) (p slot c : Nat) (e : Entry) : State :=
  let h := s.cachePool p c
  match s.freeFrames p h.1 h.2, s.freeIds p with
  | f :: _, id :: _ =>
    let m : Move := { part := p, page := e.page, kind := .copy, tier := h.1, str := h.2, frame := f, newPage := id,
                      seq := seqKey p slot c, entry := e.firstPos, view := e.view }
    let s := { s with kv := { s.kv with moves := s.kv.moves ++ [m] } }
    let s := (s.pin p e.page).bump (Reg.kvPAlloc.kvPart p)
    s.setPage p e.page { s.page p e.page with refs := (s.page p e.page).refs - 1 }
  | _, _ => s

/-- An entry is put into a table in ascending FIRST_POS. -/
def insertEntry (e : Entry) : List Entry → List Entry
  | [] => [e]
  | x :: xs => if e.firstPos < x.firstPos then e :: x :: xs else x :: insertEntry e xs

/-- A new page for positions from `first` on. -/
def State.addPage (s : State) (p slot c first : Nat) : State :=
  let h := s.cachePool p c
  match s.freeFrames p h.1 h.2, s.freeIds p with
  | f :: _, id :: _ =>
    let l := s.cacheLog2 p c
    let s := s.setPage p id { frame := f, tier := h.1, str := h.2, refs := 1, log2 := l, st := .live, cache := c }
    let t := s.seqTab p slot c
    (s.setSeq p slot c { t with entries := insertEntry ⟨id, l, first, 0⟩ t.entries }).bump (Reg.kvPAlloc.kvPart p)
  | _, _ => s

/-- A need that every pool covers is taken; a page that a reader pins stays where it is (R211). -/
def State.takeNeed (s : State) (p slot : Nat) (n : CacheNeed) : State :=
  let s := s.each n.fetch (fun s id => if s.inMove p id || decide (0 < (s.page p id).pins) then s else
    s.startMove p id .fetch (s.cachePool p n.cache) (seqKey p slot n.cache))
  let s := s.each n.copy (fun s e => s.startCopy p slot n.cache e)
  s.each n.add (fun s f => s.addPage p slot n.cache f)

/-! ### Spilling (R220, R253) -/

/-- Where a page of a pool moves to, one tier down; none where there is no free frame below. -/
def State.below (s : State) (p tier : Nat) : Option Pool :=
  if tier = 0 ∧ !(s.freeFrames p 1 0).isEmpty then some (1, 0)
  else if tier < 2 ∧ !(s.freeFrames p 2 0).isEmpty then some (2, 0) else none

/-- A host move of the page met a DMA error (R221). -/
def State.lacksRoom (s : State) (p id : Nat) : Bool := s.kv.noRoom.contains (p * 2 ^ 24 + id)

/-- The pages of a sequence that may be moved out of a pool: unpinned, with REFCOUNT 1, and no failed move that counts as no
room. -/
def State.spillable (s : State) (p slot : Nat) (h : Pool) : List Nat :=
  (s.seqPages p slot).filter (fun id =>
    let x := s.page p id
    x.tier == h.1 && (h.1 != 0 || x.str == h.2) && x.pins == 0 && x.refs == 1 && x.st == .live && !s.lacksRoom p id)

/-- Paused slots of a partition (parked ones included), longest paused first. -/
def State.pausedSlots (s : State) (p : Nat) : List Nat :=
  let gs := (s.busySlots p).filter (fun g => (s.slot g).parkedAt.isSome)
  (gs.mergeSort (fun a b => decide ((s.slot a).parkedAt.getD 0 ≤ (s.slot b).parkedAt.getD 0))).map (s.localSlot p)

/-- Pages of paused sequences start to move down until `n` have. -/
def State.spill (s : State) (p : Nat) (h : Pool) (n : Nat) : State :=
  let ids := ((s.pausedSlots p).map (fun k => (s.spillable p k h).map (fun id => (k, id)))).flatten
  s.each (ids.take n) (fun s e => match s.below p h.1 with
    | none => s
    | some d => s.startMove p e.2 .spill d (seqKey p e.1 0))

/-- Moves out of a pool that are under way. -/
def State.leavingPool (s : State) (p : Nat) (h : Pool) : Nat :=
  (s.kv.moves.filter (fun m => m.part == p && m.kind == .spill && (s.page p m.page).tier == h.1 &&
    (h.1 != 0 || (s.page p m.page).str == h.2))).length

/-! ### Reservation (R219 to R223) -/

/-- What a reservation answers: pages in place; moves still run; no frame, the sequence waits; the slot fails. -/
inductive Reserved where
  | ok | moving | wait
  | fail (code : Nat)
  deriving DecidableEq

/-- The sequence enters PAGE_WAIT on some pools, or stays in it. What counted as no room has been counted. -/
def State.enterWait (s : State) (p g rows : Nat) (ns : List CacheNeed) (hs : List Pool) : State :=
  let k := s.localSlot p g
  let s := { s with kv := { s.kv with noRoom := s.kv.noRoom.filter (fun e => e / 2 ^ 24 != p) } }
  if s.waiting p k then s else
  let ws := hs.map (fun h => ({ part := p, slot := k, tier := h.1, str := h.2, need := s.poolNeed p ns h, got := [], since := s.now } : Waiter))
  let s := { s with kv := { s.kv with waiters := s.kv.waiters ++ ws } }
  let s := (s.bump (Reg.kvPWaits.kvPart p)).kvTrace p 1 k 0
  s.setSlot g { s.slot g with pageWait := true, waitFrom := some s.now, waitRows := rows }

/-- The needs of every cache. -/
def State.needs (s : State) (p slot upto : Nat) : List CacheNeed := (List.range (s.cacheCount p)).map (s.cacheNeed p slot upto)

/-- Entries that a cache's table would hold beyond MAX_PAGES. -/
def State.tableExcess (s : State) (p slot : Nat) (n : CacheNeed) : Nat :=
  (s.seqTab p slot n.cache).entries.length + n.add.length - s.maxPages p

/-- A cache whose table would hold more than MAX_PAGES entries evicts (R220). -/
def State.fitTables (s : State) (p slot upto : Nat) : State :=
  s.each (List.range (s.cacheCount p)) (fun s c =>
    s.evictUntil p slot c (fun s => s.tableExcess p slot (s.cacheNeed p slot upto c) == 0) (s.maxPages p))

/-- The need of the first stage: the pages to bring home. Copies and new pages follow once they are there (R219). -/
def State.homeNeeds (s : State) (p slot upto : Nat) : List CacheNeed :=
  (s.needs p slot upto).map (fun n => { n with copy := [], add := [] })

/-- A move or copy for the sequence is under way. -/
def State.seqMoves (s : State) (p slot : Nat) : Bool :=
  (s.seqPages p slot).any (fun id => s.inMove p id) ||
  s.kv.moves.any (fun m => m.part == p && m.seq / 2 ^ 10 == p * 2 ^ 14 + slot && m.kind == .copy && !m.orphan)

/-- A need that every pool covers is taken; frames set aside beyond it pass to the next waiter (R222). -/
def State.takeAll (s : State) (p g : Nat) (take : State → State) : State :=
  let w := s.takeWaits p (s.localSlot p g)
  let s := take (w.2.setSlot g { w.2.slot g with pageWait := false, waitFrom := none, waitRows := 0 })
  s.passFrames p w.1

/-- Securing the frames of a need (R220): each cache that is short evicts where it may, paused sequences' pages move down, and the
sequence waits. `take` uses the frames; `ns` gives the need in a state. -/
def State.secureNeed (s : State) (p g rows : Nat) (ns : State → List CacheNeed) (take : State → Reserved × State) : Reserved × State :=
  let k := s.localSlot p g
  let s := s.each (ns s) (fun s n =>
    if n.frames = 0 then s else
    s.evictUntil p k n.cache (fun s =>
      let h := s.cachePool p n.cache
      decide (s.poolNeed p (ns s) h ≤ s.poolRoom p k h ∧ ((ns s).map CacheNeed.ids).sum ≤ (s.freeIds p).length)) (s.maxPages p))
  if s.seqPoisoned p k then (.fail cStepFault, s) else
  let need := ns s
  let failed := need.filter (fun n => n.fetch.any (s.lacksRoom p))
  if !failed.isEmpty then (.wait, s.enterWait p g rows need (failed.map (fun n => s.cachePool p n.cache)).eraseDups)
  else if s.enough p k need then take s
  else
    let hs := (need.map (fun n => s.cachePool p n.cache)).eraseDups
    let s' := s.each hs (fun s h => s.spill p h (s.poolNeed p need h - s.poolRoom p k h - s.leavingPool p h))
    if hs.any (fun h => decide (0 < s'.leavingPool p h ∧ s.poolRoom p k h < s.poolNeed p need h)) then (.moving, s')
    else (.wait, s'.enterWait p g rows need (hs.filter (fun h =>
      decide (s'.poolRoom p k h < s'.poolNeed p need h) || decide ((s'.freeIds p).length < (need.map CacheNeed.ids).sum))))

/-- The frames of a need are taken: the reservation is made, or pages still are to come home, or copies run. -/
def State.takeNeeds (s : State) (p g : Nat) (ns : List CacheNeed) : Reserved × State :=
  let k := s.localSlot p g
  let s := s.takeAll p g (fun s => s.each ns (fun s n => s.takeNeed p k n))
  (if s.seqMoves p k || ns.any (fun n => !n.fetch.isEmpty) then .moving else .ok, s)

/-- Reservation of `rows` positions for the slot's sequence (R219): pages outside their HOME tier come home first; a table that is
full then evicts, and the pages for the new positions are provided. -/
def State.reserve (s : State) (p g rows : Nat) : Reserved × State :=
  let k := s.localSlot p g
  let upto := (s.slot g).nextPos + rows
  if s.seqPoisoned p k then (.fail cStepFault, s) else
  if s.seqMoves p k then (.moving, s) else
  if (s.needs p k upto).any (fun n => !n.fetch.isEmpty) then
    s.secureNeed p g rows (fun s => s.homeNeeds p k upto) (fun s => s.takeNeeds p g (s.homeNeeds p k upto))
  else
    let s := s.fitTables p k upto
    if s.seqPoisoned p k then (.fail cStepFault, s) else
    if (s.needs p k upto).any (fun n => s.tableExcess p k n != 0) then (.fail cExhausted, s.bump (Reg.kvPExhausted.kvPart p)) else
    s.secureNeed p g rows (fun s => s.needs p k upto) (fun s => s.takeNeeds p g (s.needs p k upto))

/-! ### Moves complete (R221) -/

/-- A frame that a move gives up goes to the waiters of its pool, unless it is retired. -/
def State.giveFrame (s : State) (p tier str frame : Nat) : State :=
  if s.frameRetired p tier str frame then s
  else { s with kv := { s.kv with waiters := setAside p tier str frame s.kv.waiters } }

/-- The bytes that a move reads: from the host where the page lies there. -/
def State.moveBytes (s : State) (p n : Nat) (x : Page) (host : List Nat) : List Nat × Bool × State :=
  if x.tier = 2 then (padTo n host, false, s) else s.readPage unitKv p x 0 n

/-- The bytes are written to a page's new place. -/
def State.placeBytes (s : State) (p : Nat) (x : Page) (b : List Nat) : State :=
  if x.tier = 2 then s.toHost (s.partVf p) (s.hostFrame p x.frame) b else s.writePage unitKv p x 0 b

/-- A page meets an uncorrectable block in a move or copy (R223): it is POISONED and stays. The sequence of a copy has read it: its
reference stands again, and its slot fails. -/
def State.poisonMoved (s : State) (m : Move) : State :=
  let s := (s.pageState m.part m.page .poisoned).unpin m.part m.page
  let s := (s.raise Reg.kvErrPoison).giveFrame m.part m.tier m.str m.frame
  if m.kind != .copy || m.orphan then s else
  let s := s.setPage m.part m.page { s.page m.part m.page with refs := (s.page m.part m.page).refs + 1 }
  s.faultSlot m.part (s.globalSlot m.part (m.seq / 2 ^ 10 % 2 ^ 14)) cStepFault

/-- The counter and the trace action of a whole-page move. -/
def State.countMove (s : State) (m : Move) (slot : Nat) : State :=
  match m.kind with
  | .fetch => (s.bump (Reg.kvPFetch.kvPart m.part)).kvTrace m.part 3 slot m.page
  | .spill => (s.bump ((if m.tier = 1 then Reg.kvPSpillDram else Reg.kvPSpillHost).kvPart m.part)).kvTrace m.part 2 slot m.page
  | .copy => (s.bump (Reg.kvPCow.kvPart m.part)).kvTrace m.part 5 slot m.page

/-- The slot of a move's sequence, partition-local. -/
def Move.slot (m : Move) : Nat := m.seq / 2 ^ 10 % 2 ^ 14

/-- The resources that a page's bytes cross between two tiers (R357). -/
def pagePath (src dst : Nat) : List Nat :=
  (if src = 1 then [0] else if src = 2 then [2, 1] else []) ++ (if dst = 1 then [0] else if dst = 2 then [3, 1] else [])

/-- A move of a whole page completes: the record points at the new frame. -/
def State.endMove (s : State) (m : Move) (host : List Nat) : State :=
  let p := m.part
  let x := s.page p m.page
  let r := s.moveBytes p (s.pageSize p x.cache x.log2) x host
  if r.2.1 then r.2.2.poisonMoved m else
  let y := { x with tier := m.tier, str := m.str, frame := m.frame, st := if x.st = .moving then .live else x.st }
  let s := ((r.2.2.charge p false r.1.length (pagePath x.tier y.tier)).placeBytes p y r.1).setPage p m.page y
  let words := if y.tier = 2 then r.1.take (4 * 2 ^ x.log2) else []
  let s := { s with kv := { s.kv with hostImportance := Map.set [] s.kv.hostImportance (p * 2 ^ 24 + m.page) words } }
  ((s.giveFrame p x.tier x.str x.frame).unpin p m.page).countMove m m.slot

/-- The parts of a page that a copy takes: importance, keys and values of the first `view` entries. -/
def State.copyParts (s : State) (p : Nat) (x y : Page) (view : Nat) (b : List Nat) : State :=
  let c := s.cacheShape p x.cache
  let s := s.writePage unitKv p y 0 (b.take (4 * view))
  s.each (List.range (c.layers * c.heads * 2)) (fun s i =>
    s.each (List.range view) (fun s j =>
      let sp := entrySpans c x.log2 (i / 2 / c.heads) (i / 2 % c.heads) (i % 2) j
      (s.writePage unitKv p y sp.1.1 (slice b sp.1.1 sp.1.2)).writePage unitKv p y sp.2.1 (slice b sp.2.1 sp.2.2)))

/-- A copy on write completes: the sequence's entry points at the new page (R212). -/
def State.endCopy (s : State) (m : Move) : State :=
  let p := m.part
  let x := s.page p m.page
  let r := s.moveBytes p (s.pageSize p x.cache x.log2) x []
  if r.2.1 then r.2.2.poisonMoved m else
  let y : Page := { frame := m.frame, tier := m.tier, str := m.str, refs := 1, pins := 0, committed := m.view, tentative := 0,
                    log2 := x.log2, st := .live, cache := x.cache, commitWay := x.commitWay }
  let s := ((r.2.2.charge p false r.1.length (pagePath x.tier y.tier)).copyParts p x y m.view r.1).setPage p m.newPage y
  let slot := m.slot
  let c := m.seq % 2 ^ 10
  let t := s.seqTab p slot c
  let hit := !m.orphan && t.entries.any (fun e => e.firstPos == m.entry && e.page == m.page)
  let s := if hit then s.setSeq p slot c { t with
      entries := t.entries.map (fun e => if e.firstPos = m.entry then { e with page := m.newPage } else e) }
    else s.releasePage p m.newPage
  (s.unpin p m.page).countMove m slot

/-- PAGE_MOVE_COMPLETE (R221): the move or copy of a page ends; `err` a DMA error of a host move, `host` the bytes read
from host memory. -/
def execPageMoveComplete (p page : Nat) (err : Bool) (host : List Nat) (s : State) : Host.Outcome State Fault Refusal :=
  match s.kv.moves.find? (fun m => m.part == p && m.page == page) with
  | none => .next s
  | some m =>
    let s := { s with kv := { s.kv with moves := s.kv.moves.filter (fun z => !(z == m)) } }
    if s.dmaError err && ((s.page p page).tier == 2 || m.tier == 2) then
      let s := if (s.page p page).st = .moving then s.pageState p page .live else s
      let s := if m.kind != .copy || m.orphan then s else s.setPage p page { s.page p page with refs := (s.page p page).refs + 1 }
      let s := { s with kv := { s.kv with noRoom := (s.kv.noRoom ++ [p * 2 ^ 24 + page]).eraseDups } }
      .next (((s.unpin p page).raise Reg.kvErrHostDma).giveFrame p m.tier m.str m.frame)
    else .next (match m.kind with
      | .copy => s.endCopy m
      | _ => s.endMove m host)

/-! ### Forks (R210, R232) -/

/-- The entries that a fork takes of one cache. -/
def State.forkEntries (s : State) (p src n c : Nat) : List Entry :=
  ((s.seqTab p src c).entries.filter (fun e => decide (e.firstPos < n))).map (fun e => { e with view := min e.view (n - e.firstPos) })

/-- The source of a fork: a RUNNING, PAUSED or cache-holding DONE slot of the same model, far enough, and no page of the prefix
POISONED (R223). -/
def State.forkOk (s : State) (p g : Nat) : Bool :=
  let d := (s.slot g).work
  let a := s.globalSlot p d.forkFrom
  let x := s.slot a
  (x.st == .running || x.st == .paused || (x.st == .done && x.cacheHeld)) && x.work.model == d.model &&
  decide (d.forkLen ≤ x.nextPos) && (s.seqPages p (s.localSlot p g)).isEmpty &&
  (List.range (s.cacheCount p)).all (fun c => (s.forkEntries p d.forkFrom d.forkLen c).all (fun e => (s.page p e.page).st != .poisoned))

/-- The entries whose page stands at the greatest REFCOUNT, so that they are copied. -/
def State.forkFull (s : State) (p src n c : Nat) : List Entry :=
  (s.forkEntries p src n c).filter (fun e => (s.page p e.page).refs == 65535)

/-- One page is copied for the fork. -/
def State.forkCopy (s : State) (p slot c : Nat) (e : Entry) : State :=
  let h := s.cachePool p c
  match s.freeFrames p h.1 h.2, s.freeIds p with
  | f :: _, id :: _ =>
    let x := s.page p e.page
    let r := s.moveBytes p (s.pageSize p x.cache x.log2) x []
    if r.2.1 then (r.2.2.pageState p e.page .poisoned).raise Reg.kvErrPoison else
    let y : Page := { frame := f, tier := h.1, str := h.2, refs := 1, committed := e.view, log2 := x.log2, st := .live, cache := c,
                      commitWay := x.commitWay }
    let s := (r.2.2.copyParts p x y e.view r.1).setPage p id y
    let t := s.seqTab p slot c
    let s := s.setSeq p slot c { t with entries := insertEntry { e with page := id } t.entries }
    ((s.bump (Reg.kvPRefCopies.kvPart p)).bump (Reg.kvPAlloc.kvPart p)).raise Reg.kvErrRefLimit
  | _, _ => s

/-- One page is shared with the fork. -/
def State.forkShare (s : State) (p slot c : Nat) (e : Entry) : State :=
  let s := s.setPage p e.page { s.page p e.page with refs := (s.page p e.page).refs + 1 }
  let t := s.seqTab p slot c
  s.setSeq p slot c { t with entries := insertEntry e t.entries }

/-- The needs of a fork's copies: one frame of the HOME pool each. -/
def State.forkNeeds (s : State) (p src n : Nat) : List CacheNeed :=
  (List.range (s.cacheCount p)).map (fun c => { cache := c, fetch := [], copy := s.forkFull p src n c, add := [] })

/-- The fork once its copies have their frames: every entry of the prefix is shared or copied. A copy that meets a UE fails the
slot (R223). -/
def State.forkTake (s : State) (p g : Nat) : Reserved × State :=
  let d := (s.slot g).work
  let k := s.localSlot p g
  let s := s.takeAll p g (fun s => s.each (List.range (s.cacheCount p)) (fun s c =>
    let s := s.each (s.forkEntries p d.forkFrom d.forkLen c) (fun s e =>
      if (s.page p e.page).refs = 65535 then s.forkCopy p k c e else s.forkShare p k c e)
    s.setSeq p k c { s.seqTab p k c with nextPos := d.forkLen }))
  if (List.range (s.cacheCount p)).any (fun c => (s.forkEntries p d.forkFrom d.forkLen c).any (fun e => (s.page p e.page).st == .poisoned))
  then (.fail cStepFault, s)
  else (.ok, (s.setSlot g { s.slot g with nextPos := d.forkLen, forked := true }).bump (Reg.kvPForks.kvPart p))

/-- A fork at first admission (R210): its copies are secured as a reservation's frames are. -/
def State.fork (s : State) (p g rows : Nat) : Reserved × State :=
  let d := (s.slot g).work
  if !s.forkOk p g then (.fail cForkRefused, s) else
  s.secureNeed p g rows (fun s => s.forkNeeds p d.forkFrom d.forkLen) (fun s => s.forkTake p g)

/-- A sequence is secured for `rows` rows: its fork at first admission, then its pages. -/
def State.secure (s : State) (p g rows : Nat) : Reserved × State :=
  let x := s.slot g
  if x.work.fork && !x.forked then
    let r := s.fork p g rows
    match r.1 with
    | .ok => r.2.reserve p g rows
    | _ => r
  else s.reserve p g rows

/-! ### Page waits -/

/-- A slot's reservation has failed it. -/
def State.failReserve (s : State) (p g code : Nat) : State := s.faultSlot p g code

/-- PAGE_WAIT_RETRY (R220, R222): the waiting slot's fork or reservation runs again. -/
def execPageWaitRetry (g : Nat) (s : State) : Host.Outcome State Fault Refusal :=
  match s.slotPart g with
  | none => .next s
  | some p =>
    if !s.waiting p (s.localSlot p g) then .next s else
    let r := s.secure p g (s.slot g).waitRows
    .next (match r.1 with
      | .fail code => r.2.failReserve p g code
      | _ => r.2)

/-- PAGE_WAIT_EXPIRE (R220, R222, R233): the slot ends FAULTED with CACHE_EXHAUSTED. -/
def execPageWaitExpire (g : Nat) (s : State) : Host.Outcome State Fault Refusal :=
  match s.slotPart g with
  | none => .next s
  | some p =>
    if !s.waiting p (s.localSlot p g) then .next s
    else .next ((s.faultSlot p g cExhausted).bump (Reg.kvPExhausted.kvPart p))

/-! ### Registers (R196, R225) -/

/-- KV_SEL1_WRITE (R225): INDEX and CACHE are stored and the snapshot is latched. -/
def execKvSel1Write (index cache : Nat) (s : State) : Host.Outcome State Fault Refusal :=
  let s := (s.fset Reg.kvSel1Index index).fset Reg.kvSel1Cache cache
  let p := s.fget Reg.kvSel0Part
  let k := s.fget Reg.kvSel0Slot
  let c := s.fget Reg.kvSel1Cache
  let t := s.seqTab p k c
  let e? := t.entries[s.fget Reg.kvSel1Index]?
  let known := decide (k < s.slotCount p ∧ c < s.cacheCount p)
  let s := s.fput Reg.kvStatusSnapValid (known && e?.isSome)
  let s := (s.fset Reg.kvSeqCount (if known then t.entries.length else 0)).fset Reg.kvSeqState (if known then s.seqState p k c else 0)
  let s := s.fset Reg.kvSeqLen (if known then t.nextPos else 0)
  let e := e?.getD ⟨0, 0, 0, 0⟩
  let x : Page := if e?.isSome then s.page p e.page else {}
  .next ((s.fsetWords Reg.kvPte 0 e.words).fsetWords Reg.kvPage 0 x.words)

/-- KV_HOST_AREA_WRITE (R196): `which` 0 KV_P_HOST_LO, 1 KV_P_HOST_HI, 2 KV_P_HOST_FRAMES. -/
def execKvHostAreaWrite (p which value : Nat) (s : State) : Host.Outcome State Fault Refusal :=
  if (s.livePages p).any (fun e => e.2.tier == 2) then .next (s.raise Reg.kvErrHostBusy) else
  .next (match which with
    | 0 => s.fset (Reg.kvPHostLo.kvPart p) (value / 4096)
    | 1 => s.fset (Reg.kvPHostHi.kvPart p) value
    | _ => s.fset (Reg.kvPHostFrames.kvPart p) value)

end Sys2Proof.Machine
end

