-- ==== Sys2Proof/Machine/Slots.lean ====
section
/-!
DEFINITION. The starting gate (R226 to R239, R246, R250 to R255): host writes to descriptors, the six commands of the state
word, the end of a run, parking and time to live, payload reads.
-/
namespace Sys2Proof.Machine

/-! ### Parking (R253) -/

/-- A slot is parked: its TTL runs, and with PARK_TIER 1 its SRAM pages start to move to the DRAM pool. -/
def State.parkSlot (s : State) (p g : Nat) : State :=
  let s := s.park g
  if s.serveCfg p 44 1 0 ≠ 1 then s else
  let k := s.localSlot p g
  let ids := (s.seqPages p k).filter (fun id =>
    let x := s.page p id
    x.tier == 0 && x.pins == 0 && x.refs == 1 && x.st == .live)
  s.each ids (fun s id => if (s.freeFrames p 1 0).isEmpty then s else s.startMove p id .spill (1, 0) (seqKey p k 0))

/-- The slot's TTL in milliseconds; none when it never expires (R229, R256). -/
def State.ttlMs (s : State) (p g : Nat) : Option Nat :=
  let v := if (s.slot g).work.ttl = 0 then s.serveCfg p 40 4 600000 else (s.slot g).work.ttl
  if v = 0xFFFFFFFF then none else some v

/-! ### Entry into DONE (R233, R236, R246, R254) -/

/-- A run ends: payload first, then the header; pages kept or released. `bytes` is the payload, `count` OUT_COUNT. -/
def State.finishRun (s : State) (p g code : Nat) (yielded : Bool) (count : Nat) (bytes : List Nat) : State :=
  let s := s.writeThrough (unitCore 0) (windowAddr g + 64) bytes
  let keep := (s.slot g).work.keep || yielded
  let x := s.slot g
  let s := s.setSlot g { x.leaveStep with
    outCount := count, dones := (x.dones + 1) % 65536, yielded := yielded, cacheHeld := keep, cacheReleased := !keep,
    pageWait := false, pendingTok := if keep then x.pendingTok else none }
  let s := if keep then s.parkSlot p g else s.releaseSeq p (s.localSlot p g)
  s.enter p g .done code

/-- The payload of a TOKENS-mode run: its tokens. -/
def tokenBytes (ts : List Nat) : List Nat := (ts.map (leBytes 4)).flatten

/-! ### Commands of the state word (R230, R233) -/

/-- The descriptor as the host has written it, read through the code (R227). -/
def State.readDesc (s : State) (g : Nat) : Desc × State :=
  let r := s.readThrough unitPackage (descAddr g) 256
  (parseDesc r.1, r.2.2)

/-- A command that the state machine does not list for the slot's state (R230). -/
def State.ignoreCmd (s : State) (p : Nat) : State := s.bump (Reg.gateIgnored.gate p)

/-- The working copy of a refused descriptor: an IRQ_VEC outside the function's vectors raises nothing (R231, R239). -/
def State.refusedDesc (s : State) (p : Nat) (d : Desc) : Desc := { d with irq := d.irq && decide (d.irqVec < fnVectors (s.partVf p)) }

/-- A valid ARM. -/
def State.arm (s : State) (p g : Nat) (d : Desc) : State :=
  let x := s.slot g
  let s := s.setSlot g { ({} : Slot) with
    gen := (x.gen + 1) % 65536, work := d, armedAt := s.now, inputLeft := d.inputCount,
    pacerL := if d.pacer then s.pacerLen p d.model else 0 }
  (s.enter p g .armed cNone).bump (Reg.gateArms.gate p)

/-- ARM on a slot. -/
def State.cmdArm (s : State) (p g : Nat) : State :=
  if (s.slot g).st ≠ .free then s.ignoreCmd p else
  let r := s.readDesc g
  let d := r.1
  let s := r.2
  if !s.inService p then
    (s.setSlot g { s.slot g with work := s.refusedDesc p d }).enter p g .faulted cNotInService
  else if s.badDesc p false d then
    ((s.setSlot g { s.slot g with work := s.refusedDesc p d }).enter p g .faulted cBadDesc).bump (Reg.gateBadDesc.gate p)
  else s.arm p g d

/-- CONTINUE with its cache held and a valid descriptor: the input follows the pending token, where there is one. -/
def State.continueRun (s : State) (p g : Nat) (d : Desc) : State :=
  let x := s.slot g
  let lead := if d.inputCount = 0 then none else x.pendingTok
  let s := s.setSlot g { x with
    work := d, inputLeft := d.inputCount + (if lead.isSome then 1 else 0), lead := lead,
    pendingTok := if d.inputCount = 0 then x.pendingTok else none, run := [], outCount := 0, yielded := false, reduced := false, degraded := false,
    cacheHeld := false, ttlFrom := none, parkedAt := none, lastCommit := none,
    pacerL := if d.pacer then (if x.work.pacer then x.pacerL else s.pacerLen p d.model) else 0 }
  let s := s.enter p g .armed cNone
  if d.inputCount = 0 ∧ x.pendingTok.isNone then s.finishRun p g cComplete false 0 [] else s

/-- CONTINUE on a slot. -/
def State.cmdContinue (s : State) (p g : Nat) : State :=
  let x := s.slot g
  if x.st ≠ .done then s.ignoreCmd p else
  if !x.cacheHeld then s.enter p g .faulted cNoCache else
  let r := s.readDesc g
  let d := r.1
  let s := r.2
  if s.badDesc p true d then
    ((s.setSlot g { x with work := s.refusedDesc p d }).faultSlot p g cBadDesc).bump (Reg.gateBadDesc.gate p)
  else s.continueRun p g d

/-- The slot is PAUSED now: it leaves any page wait, its TTL starts, it is parked. -/
def State.pauseNow (s : State) (p g : Nat) : State :=
  let s := s.leaveWait p (s.localSlot p g)
  let s := s.setSlot g { (s.slot g).leaveStep with pageWait := false, waitFrom := none }
  (s.parkSlot p g).enter p g .paused cNone

/-- PAUSE on a slot: a RUNNING slot in a step pauses at the step's milepost. -/
def State.cmdPause (s : State) (p g : Nat) : State :=
  let x := s.slot g
  if x.st = .armed ∨ (x.st = .running ∧ x.inStep = none) then s.pauseNow p g
  else if x.st = .running then s.setSlot g { x with pauseAsked := true }
  else s.ignoreCmd p

/-- RESUME on a slot. -/
def State.cmdResume (s : State) (p g : Nat) : State :=
  let x := s.slot g
  if x.st ≠ .paused then s.ignoreCmd p
  else (s.setSlot g { x with ttlFrom := none, parkedAt := none }).enter p g .armed cNone

/-- CANCEL on a slot (R250); when no slot of its step is left CC0 abandons the step (R252), once it runs. -/
def State.cmdCancel (s : State) (p g : Nat) : State :=
  let x := s.slot g
  if x.st ≠ .armed ∧ x.st ≠ .running ∧ x.st ≠ .paused then s.ignoreCmd p else
  let s := (s.endSlot p g .cancelled cHostCancel).bump (Reg.gateCancels.gate p)
  match x.inStep with
  | some id => if (s.stepSlots id).isEmpty && !s.coreHalted 0 then s.abandonBoth id else s
  | none => s

/-- RELEASE on a slot. -/
def State.cmdRelease (s : State) (p g : Nat) : State :=
  let x := s.slot g
  if x.st ≠ .done ∧ x.st ≠ .cancelled ∧ x.st ≠ .faulted then s.ignoreCmd p else
  let s := s.releaseSeq p (s.localSlot p g)
  let s := s.setSlot g { s.slot g with cacheHeld := false, ttlFrom := none, parkedAt := none, pendingTok := none }
  s.enter p g .free cNone

/-- A command by its number; values 0 and 7 to 15 are ignored. -/
def State.slotCmd (s : State) (p g cmd : Nat) : State :=
  match cmd with
  | 1 => s.cmdArm p g
  | 2 => s.cmdContinue p g
  | 3 => s.cmdPause p g
  | 4 => s.cmdResume p g
  | 5 => s.cmdCancel p g
  | 6 => s.cmdRelease p g
  | _ => s

/-- A command of a defined slot. -/
def State.onSlot (s : State) (g : Nat) (f : Nat → State) : State := match s.slotPart g with | some p => f p | none => s

/-- ARM (R230, R233). -/
def execArm (g : Nat) (s : State) : Host.Outcome State Fault Refusal := .next (s.onSlot g (fun p => s.cmdArm p g))

/-- CONTINUE (R230, R233, R246). -/
def execContinueSlot (g : Nat) (s : State) : Host.Outcome State Fault Refusal := .next (s.onSlot g (fun p => s.cmdContinue p g))

/-- PAUSE (R230, R233, R253). -/
def execPause (g : Nat) (s : State) : Host.Outcome State Fault Refusal := .next (s.onSlot g (fun p => s.cmdPause p g))

/-- RESUME (R230, R233, R255). -/
def execResume (g : Nat) (s : State) : Host.Outcome State Fault Refusal := .next (s.onSlot g (fun p => s.cmdResume p g))

/-- CANCEL (R250 to R252). -/
def execCancel (g : Nat) (s : State) : Host.Outcome State Fault Refusal := .next (s.onSlot g (fun p => s.cmdCancel p g))

/-- RELEASE (R230, R233). -/
def execRelease (g : Nat) (s : State) : Host.Outcome State Fault Refusal := .next (s.onSlot g (fun p => s.cmdRelease p g))

/-! ### BAR2 writes and payload reads (R226, R228, R229, R237) -/

/-- The partition of an enabled virtual function in D0 whose function-level reset does not run. -/
def State.vfOpen (s : State) (fn : Nat) : Option Nat :=
  if !s.pci.vfEnable ∨ s.pci.numVfs < fn ∨ (s.fnCfg fn).d3 then none else
  match s.vfPart fn with
  | some p => if (s.partGet p).flr then none else some p
  | none => none

/-- A read that completes with Unsupported Request, or a write dropped and logged as one. -/
def State.unsupported (s : State) (fn : Nat) : State :=
  ((s.raise Reg.pciErrUr).bump Reg.pciUrCount).aerReport fn 1

/-- BAR2 answers a function: READY, and a virtual function enabled and not in its reset (R353, R354, R428). -/
def State.bar2Open (s : State) (fn : Nat) : Bool := s.ready && (if fn = 0 then !(s.fnCfg 0).d3 else (s.vfOpen fn).isSome)

/-- The global slot that a function reaches at slot number `k` of its BAR2. -/
def State.barSlot (s : State) (fn k : Nat) : Option Nat :=
  if fn = 0 then (if (s.slotPart k).isSome then some k else none) else
  match s.vfOpen fn with
  | none => none
  | some p => if k < s.slotCount p then some (s.globalSlot p k) else none

/-- Bytes 0x04 to 0xFF of a descriptor are stored; the state word is a command. -/
def State.descWrite (s : State) (g off : Nat) (b : List Nat) : State :=
  let keep := (List.range b.length).filter (fun i => decide (4 ≤ off + i))
  let s := if keep.isEmpty then s else
    s.writeThrough unitPackage (descAddr g + off + keep.headD 0) (keep.map (fun i => b.getD i 0))
  if off = 0 then s.onSlot g (fun p => s.slotCmd p g (b.headD 0 % 16)) else s

/-- SLOT_DESCRIPTOR_WRITE (R228): a write of function `fn` at BAR2 offset `off`. Writes that are not naturally aligned 32- or
64-bit ones, and writes to result windows, are discarded. -/
def execSlotDescriptorWrite (fn off : Nat) (bytes : List Nat) (poison : Bool) (s : State) : Host.Outcome State Fault Refusal :=
  if poison then .next (s.poisonedWrite fn off) else
  if !s.bar2Open fn then .next (s.unsupported fn) else
  let n := bytes.length
  if (n ≠ 4 ∧ n ≠ 8) ∨ off % n ≠ 0 ∨ 0x400000 ≤ off then .next s else
  .next (match s.barSlot fn (off / 256) with
    | none => s
    | some g => s.descWrite g (off % 256) (bytes.map (· % 256)))

/-- The bytes of a result window as a read finds them: the header, then the payload, zeros while STATE is not DONE. -/
def State.windowBytes (s : State) (g off n : Nat) : List Nat :=
  let h := (s.slot g).header
  (List.range n).map (fun i =>
    if off + i < 64 then h.getD (off + i) 0
    else if (s.slot g).st = .done then s.codedByte (windowAddr g + off + i) else 0)

/-- A function's read request of `n` bytes at offset `off` of the result window of slot `k` of its BAR2 (R226, R237). The window is read
through the code (R227), the payload only while STATE is DONE. -/
def State.resultRead (s : State) (fn k off n : Nat) : State :=
  if !s.bar2Open fn then (s.unsupported fn).send (.completion 1 []) else
  match s.barSlot fn k with
  | none => s.send (.completion 0 (zeros n))
  | some g =>
    let x := s.slot g
    let b := s.windowBytes g off n
    let r := s.readThrough unitPackage (windowAddr g + off) (if x.st = .done then n else min n (64 - off))
    let s := if off + n ≤ 64 ∨ n = 0 then r.2.2
      else if x.st = .done then r.2.2.setSlot g { x with reads := min 0xFFFFFFFF (x.reads + 1) }
      else r.2.2.setSlot g { x with earlyReads := min 0xFFFFFFFF (x.earlyReads + 1) }
    s.send (.completion (if r.2.1 then 2 else 0) b)

/-- RESULT_PAYLOAD_READ (R237): function, slot number in its BAR2, offset and length. -/
def execResultPayloadRead (fn k off n : Nat) (s : State) : Host.Outcome State Fault Refusal := .next (s.resultRead fn k off n)

/-! ### Time to live (R255) -/

/-- TTL_EXPIRE (R233, R255): a PAUSED slot is cancelled; a DONE slot's cache is released. -/
def execTtlExpire (g : Nat) (s : State) : Host.Outcome State Fault Refusal :=
  .next (s.onSlot g (fun p =>
    let x := s.slot g
    if x.ttlFrom.isNone || (s.ttlMs p g).isNone || s.coreHalted 0 then s else
    if x.st = .paused then (s.endSlot p g .cancelled cTtl).bump (Reg.gateTtlExpired.gate p)
    else if x.st = .done ∧ x.cacheHeld then (s.releaseDone p g).bump (Reg.gateTtlExpired.gate p)
    else s))

end Sys2Proof.Machine
end

