-- ==== Sys2Proof/Machine/Plan.lean ====
section
/-!
DEFINITION. Planning and posting steps (R187, R219, R232, R240 to R242, R247, R468): which sequences join, their batch table
and tokens, and the step record that starts the sequencers.
-/
namespace Sys2Proof.Machine

/-! ### Candidates (R241) -/

/-- The slot may join a step of model `m`. -/
def State.mayJoin (s : State) (p m g : Nat) : Bool :=
  let x := s.slot g
  (x.st == .armed || x.st == .running) && x.inStep.isNone && x.work.model == m && !s.waiting p (s.localSlot p g)

/-- Decode sequences: PRIORITY, then least recent step, first. -/
def State.decodeSlots (s : State) (p m : Nat) : List Nat :=
  let gs := (s.busySlots p).filter (fun g => s.mayJoin p m g && (s.slot g).inputLeft == 0 && (s.slot g).pendingTok.isSome)
  gs.mergeSort (fun a b =>
    let x := s.slot a
    let y := s.slot b
    decide (x.work.priority < y.work.priority ∨ (x.work.priority = y.work.priority ∧ x.lastStep ≤ y.lastStep)))

/-- Sequences with input left, in order of ARMED_AT. -/
def State.promptSlots (s : State) (p m : Nat) : List Nat :=
  let gs := (s.busySlots p).filter (fun g => s.mayJoin p m g && (s.slot g).inputLeft != 0)
  gs.mergeSort (fun a b => decide ((s.slot a).armedAt ≤ (s.slot b).armedAt))

/-- L(q): the proposal length of a slot. -/
def Slot.proposals (x : Slot) : Nat := if x.work.pacer && x.suspend == 0 then x.pacerL else 0

/-! ### The plan -/

/-- The plan so far: rows, and the sequences with their slots. -/
structure PlanState where
  s : State
  rows : Nat := 0
  seqs : List (Nat × StepSeq) := []
  stop : Bool := false

/-- A sequence joins when it is secured; a failed reservation fails its slot. -/
def PlanState.join (a : PlanState) (p g rows propose kind : Nat) : PlanState :=
  let r := a.s.secure p g rows
  match r.1 with
  | .ok =>
    let x := r.2.slot g
    { a with
      s := r.2, rows := a.rows + rows,
      seqs := a.seqs ++ [(g, { slot := r.2.localSlot p g, gen := x.gen, rows := rows, firstRow := a.rows, propose := propose,
                               kind := kind, pos := x.nextPos })] }
  | .fail code => { a with s := r.2.failReserve p g code }
  | _ => { a with s := r.2 }

/-- One decode sequence of the plan. -/
def PlanState.decode (a : PlanState) (p : Nat) (tokens seqs : Nat) (g : Nat) : PlanState :=
  if a.stop || a.seqs.length == seqs || a.rows == tokens then { a with stop := true } else
  let l := min (a.s.slot g).proposals (tokens - a.rows - 1)
  a.join p g (1 + l) l 0

/-- One sequence with input left. -/
def PlanState.prompt (a : PlanState) (p : Nat) (tokens seqs lo hi : Nat) (g : Nat) : PlanState :=
  let left := (a.s.slot g).inputLeft
  let c := min (min left hi) (tokens - a.rows)
  if a.stop || a.seqs.length == seqs || decide (c < lo ∧ c < left) then { a with stop := true } else
  a.join p g c 0 (if c = left then 2 else 1)

/-! ### Retention (R242) -/

/-- Some sequences' inputs exceed a string's retention area. -/
def State.overRetained (s : State) (p m : Nat) (es : List StepSeq) : Bool :=
  (List.range 32).any (fun x => decide (s.retainArea p < s.seqsInput false p m x es))

/-- The sequences that stay: the longest leading part of the plan whose inputs fit. -/
def State.trimPlan (s : State) (p m : Nat) (xs : List (Nat × StepSeq)) : List (Nat × StepSeq) :=
  let n := ((List.range (xs.length + 1)).reverse.find? (fun n =>
    !s.overRetained p m ((xs.take n).map (fun e => e.2)))).getD 0
  xs.take n

/-- The smallest part of a sequence: one decode row, or one CHUNK_MIN chunk. -/
def smallest (lo : Nat) (x : Slot) (e : StepSeq) : StepSeq :=
  { e with rows := if x.inputLeft = 0 then 1 else min lo x.inputLeft, propose := 0 }

/-! ### The batch (R240) -/

/-- The row result size rounded up to 64 bytes. -/
def State.rowStride (s : State) (p m : Nat) : Nat :=
  up64 (if s.vectorMode p m then s.resultBytes p m else s.outTopk p m * 8)

/-- The strings that a step's record goes to: those of STRINGS whose program has code. -/
def State.stepStrings (s : State) (p : Nat) : List Nat :=
  (List.range 32).filter (fun x => s.ownsString p x && (field (s.harness p) 0 4).testBit x && decide (0 < s.codeLen p x))

/-- The twin of a model under SAFETY (R467). -/
def State.twinOf (s : State) (p m : Nat) : Option Nat :=
  ((twinsOf (s.body 6 pkgScope)).find? (fun e => e.1 == p && e.2.1 == m)).map (fun e => e.2.2)

/-- The 16 bytes of a batch entry. -/
def StepSeq.bytes (e : StepSeq) (desc : Nat) : List Nat :=
  leBytes 2 e.slot ++ leBytes 2 e.rows ++ leBytes 2 e.firstRow ++ [e.propose, e.kind] ++ leBytes 4 e.pos ++ leBytes 4 desc

/-- Cache and held layer of each attention descriptor of a sequence, cache-major (R240). -/
def State.heldLayers (s : State) (p : Nat) : List (Nat × Nat) :=
  ((List.range (s.cacheCount p)).map (fun c => (List.range (s.cacheShape p c).layers).map (fun l => (c, l)))).flatten

/-- An attention descriptor as CC0/CC1 prepares it: CACHE, LAYER and SLOT over the bytes it chose for the rest. -/
def attnLine (line : List Nat) (cache layer slot : Nat) : List Nat :=
  leBytes 2 cache ++ [layer, line.getD 3 0 % 4] ++ leBytes 2 slot ++ [0, 0] ++ (padTo 64 line).drop 8

/-- Input token `i` of a slot's run where it does not come by a pull: the leading pending token, then INLINE tokens. -/
def Slot.inlineAt (x : Slot) (i : Nat) : Nat :=
  match x.lead with
  | some t => if i = 0 then t else x.work.inline.getD (i - 1) 0
  | none => x.work.inline.getD i 0

/-- Tokens of the run's input, the leading pending token included. -/
def Slot.inputTotal (x : Slot) : Nat := x.work.inputCount + if x.lead.isSome then 1 else 0

/-- The tokens of a sequence's rows that CC0/CC1 has at planning: the pending token, or INLINE input. -/
def Slot.rowTokens (x : Slot) (e : StepSeq) : List Nat :=
  if e.kind = 0 then [x.pendingTok.getD 0]
  else if x.work.inputSrc = 0 then (List.range e.rows).map (fun i => x.inlineAt (x.inputTotal - x.inputLeft + i))
  else []

/-- The batch table, the attention descriptors and the tokens are written. -/
def State.writeBatch (s : State) (p a0 a1 : Nat) (attn : List (List Nat)) (es : List (Nat × StepSeq)) : State :=
  let held := s.heldLayers p
  let base := up64 (16 * es.length)
  s.each ((List.range es.length).zip es) (fun s e =>
    let d := base + e.1 * 64 * held.length
    let x := s.slot e.2.1
    let s := s.writeThrough (unitCore 0) (a0 + 16 * e.1) (e.2.2.bytes d)
    let s := s.each ((List.range held.length).zip held) (fun s h =>
      s.writeThrough (unitCore 0) (a0 + d + 64 * h.1) (attnLine (attn.getD (e.1 * held.length + h.1) []) h.2.1 h.2.2 e.2.2.slot))
    s.writeThrough (unitCore 0) (a1 + 4 * e.2.2.firstRow) (tokenBytes (x.rowTokens e.2.2)))

/-- The slots whose chunk is still to be pulled. -/
def State.pullsOf (s : State) (es : List (Nat × StepSeq)) : List Nat :=
  (es.filter (fun e => e.2.kind != 0 && (s.slot e.1).work.inputSrc != 0)).map (fun e => e.1)

/-- A new step, not yet posted. -/
def newStep (id part model : Nat) (seqs : List StepSeq) (a0 a1 a2 rows : Nat) (strings pulls : List Nat) (twin : Option Nat) : Step :=
  { id := id, part := part, model := model, seqs := seqs, a0 := a0, a1 := a1, a2 := a2,
    a3 := seqs.length + rows * 2 ^ 16 + model * 2 ^ 32, posted := false, pulls := pulls, strings := strings, waiting := strings,
    startedAt := 0, asked := [], verdictAsked := false, replaying := false, replayed := false, whole := false, replayAt := none, adjust := [], beats := [],
    failed := false, degraded := false, reduced := false, collReplayed := false, collFailed := false, twin := twin, redReplayed := false,
    atMilepost := false, milepost := 0, scores := [] }

/-- A slot joins a step: an ARMED slot is RUNNING. -/
def State.joinStep (s : State) (p id g : Nat) : State :=
  let x := s.slot g
  let s := s.setSlot g { x with inStep := some id, admitted := true, lastStep := id + 1, pageWait := false,
                                suspend := x.suspend }
  if x.st = .armed then s.enter p g .running cNone else s

/-- The step of a plan, and for a redundant model its twin's, with the result area `a2b`. -/
def State.createStep (s : State) (p m a0 a1 a2 a2b : Nat) (attn : List (List Nat)) (es : List (Nat × StepSeq)) : State :=
  let id := s.nextStep
  let rows := (es.map (fun e => e.2.rows)).sum
  let seqs := es.map (fun e => e.2)
  let strs := s.stepStrings p
  let s := s.writeBatch p a0 a1 attn es
  let pulls := s.pullsOf es
  let s := match s.twinOf p m with
    | none => { s with
        steps := s.steps ++ [newStep id p m seqs a0 a1 a2 rows strs pulls none], nextStep := id + 1 }
    | some m' => { s with
        steps := s.steps ++ [newStep id p m seqs a0 a1 a2 rows strs pulls (some (id + 1)),
                             newStep (id + 1) p m' seqs a0 a1 a2b rows strs [] (some id)], nextStep := id + 2 }
  s.each es (fun s e => s.joinStep p id e.1)

/-- STEP_PLAN (R241, R242): CC0/CC1 plans a step of model `m` of partition `p`. `a0`, `a1`, `a2` (and `a2b` for a twin) are
the areas it chose, `attn` the attention descriptors it prepares. -/
def execStepPlan (p m a0 a1 a2 a2b : Nat) (attn : List (List Nat)) (s : State) : Host.Outcome State Fault Refusal :=
  if !s.ready || !s.inService p || s.coreHalted 0 then .next s else
  let tokens := s.serveCfg p 32 2 1024
  let lo := s.serveCfg p 34 2 64
  let hi := s.serveCfg p 36 2 512
  let seqs := s.serveCfg p 38 2 1024
  let a : PlanState := (s.decodeSlots p m).foldl (fun a g => a.decode p tokens seqs g) { s := s }
  let a := (a.s.promptSlots p m).foldl (fun a g => a.prompt p tokens seqs lo hi g) { a with stop := false }
  let keep := a.s.trimPlan p m a.seqs
  let gone := a.seqs.drop keep.length
  let s := if gone.isEmpty then a.s else a.s.bump (Reg.gateSplits.gate p)
  let s := s.each gone (fun s e =>
    if s.overRetained p m [smallest lo (s.slot e.1) e.2] then s.faultSlot p e.1 cOversize else s)
  .next (if keep.isEmpty then s else s.createStep p m a0 a1 a2 a2b attn keep)

/-! ### Pulling a chunk's tokens (R232) -/

/-- The chunk of a slot in a step that waits for its pull. -/
def State.pulling (s : State) (g : Nat) : Option (Step × StepSeq) :=
  match s.steps.find? (fun y => y.pulls.contains g) with
  | none => none
  | some y => (y.seqs.find? (fun e => s.globalSlot y.part e.slot == g)).map (fun e => (y, e))

/-- The chunk's tokens: the leading pending token where the chunk begins the run, then the input buffer's. -/
def State.chunkTokens (s : State) (g : Nat) (e : StepSeq) (host : List Nat) : List Nat × Bool × State :=
  let x := s.slot g
  let at_ := x.inputTotal - x.inputLeft
  let led := match x.lead with | some t => if at_ = 0 then [t] else [] | none => []
  let skip := if x.lead.isSome then at_ - 1 else at_
  let n := e.rows - led.length
  if x.work.inputSrc = 1 then (led ++ (host ++ zeros n).take n, false, s) else
  let a := x.work.inputAddr + 4 * skip
  match s.slotPart g with
  | none => ([], true, s)
  | some p =>
    if !s.reaches p a (4 * n) then ([], true, s) else
    let r := s.readThrough (unitCore 0) a (4 * n)
    (led ++ wordsOf n r.1, r.2.1, r.2.2)

/-- INPUT_PULL_COMPLETE (R232): the tokens of a slot's chunk are there (`host` those of HOST input), or the pull ended with an
error. -/
def execInputPullComplete (g : Nat) (err : Bool) (host : List Nat) (s : State) : Host.Outcome State Fault Refusal :=
  match s.pulling g with
  | none => .next s
  | some (y, e) =>
    let s := s.modStep y.id (fun z => { z with pulls := z.pulls.filter (· != g) })
    let err := err || (s.pci.lost && (s.slot g).work.inputSrc == 1)
    let r := s.chunkTokens g e host
    if (s.slot g).inStep ≠ some y.id then .next s else
    if err || r.2.1 then
      let s := (if err then s else r.2.2).faultSlot y.part g cInputDma
      .next (if (s.stepSlots y.id).isEmpty then s.abandonBoth y.id else s)
    else .next (r.2.2.writeThrough (unitCore 0) (y.a1 + 4 * e.firstRow) (tokenBytes r.1))

/-! ### Posting (R240) -/

/-- The rows of a step. -/
def Step.rows (y : Step) : Nat := (y.seqs.map (fun e => e.rows)).sum

/-- A step's record goes to every sequencer of its strings. The step takes its milepost number here, which seeds the LFSR of its teams
(R144) and is recorded at its milepost (R162, log 74). -/
def State.postStep (s : State) (y : Step) : State :=
  let mp := s.nextMilepost y.part
  let s := s.partSet y.part { s.partGet y.part with milepost := (mp + 1) % 2 ^ 32 }
  let s := s.modStep y.id (fun z => { z with posted := true, startedAt := s.now, milepost := mp })
  let s := s.traceEvent 2 (unitPart y.part) 0x30 ([y.part, y.model, 0, 0] ++ leBytes 2 y.rows ++ leBytes 4 mp)
  s.each y.strings (fun s x =>
    ((s.setSeqr x { s.seq x with queue := (s.seq x).queue ++ [(y.id, false)] }).countOp x 28 1).startSeq x)

/-- STEP_RECORD (R240): CC0/CC1 posts the record of a planned step whose input is there, and its twin's. -/
def execStepRecord (id : Nat) (s : State) : Host.Outcome State Fault Refusal :=
  match s.step? id with
  | none => .next s
  | some y =>
    if y.posted || !y.pulls.isEmpty || !s.inService y.part || s.coreHalted 0 then .next s else
    let s := s.postStep y
    match y.twin with
    | none => .next s
    | some t => match s.step? t with
      | none => .next s
      | some z => .next (if z.posted then s else s.postStep z)

end Sys2Proof.Machine
end

