-- ==== Sys2Proof/Machine/Milepost.lean ====
section
/-!
DEFINITION. MILEPOST, the commit of a step and its replay (R162 to R167, R186, R215, R243 to R249, R468, R469, R498): token
selection, acceptance of the pacer's proposals, the end of runs, twin steps.
-/
namespace Sys2Proof.Machine

/-! ### MILEPOST and armed dumps (R186, R498) -/

/-- Fields of a dump request's line (R497). -/
def Dump.part (d : Dump) : Nat := field d.line 32 1
def Dump.count (d : Dump) : Nat := field d.line 33 1
def Dump.tag (d : Dump) : Nat := field d.line 34 2
def Dump.len (d : Dump) : Nat := field d.line 36 4
def Dump.src (d : Dump) : Nat := field d.line 40 8
def Dump.dst (d : Dump) : Nat := field d.line 48 8

def State.dump? (s : State) (i : Nat) : Option Dump := Map.get none s.dbgState.dumps i

/-- A dump slot is armed or disarmed, and DBG_STATUS.DUMPS follows. -/
def State.setDump (s : State) (i : Nat) (d : Option Dump) : State :=
  let s := { s with dbgState := { s.dbgState with dumps := Map.set none s.dbgState.dumps i d } }
  let w := s.fget Reg.dbgStatusDumps
  s.fset Reg.dbgStatusDumps (if d.isSome then setBit w i else clearBit w i)

/-- The slots whose request matches a partition and a TAG. -/
def State.dumpsOf (s : State) (p tag : Nat) : List Nat :=
  (List.range 16).filter (fun i => match s.dump? i with | some d => d.part == p && d.tag == tag | none => false)

/-- One dump: the header, then the bytes, at occurrence k's place; after COUNT occurrences the request is disarmed. -/
def State.copyDump (s : State) (x tag attempt i : Nat) : State :=
  match s.dump? i with
  | none => s
  | some d =>
    let at_ := dramBase + d.dst + d.done * (64 + d.len)
    if !mapped at_ (64 + d.len) then s else
    let r := s.readThrough (unitString x) d.src d.len
    let head := slice d.line 0 32 ++ leBytes 8 s.now ++ [x, attempt] ++ leBytes 2 tag ++ leBytes 4 d.len ++ zeros 16
    let s := (r.2.2.writeThrough (unitString x) at_ head).writeThrough (unitString x) (at_ + 64) r.1
    s.setDump i (if d.count ≠ 0 ∧ d.count ≤ d.done + 1 then none else some { d with done := d.done + 1 })

/-- What an armed dump waits for: a group of the string that still closes, a collective that it issued. -/
def State.dumpStall (s : State) (x : Nat) (y : Step) : Option (Nat × Nat × Nat) :=
  let closing := ((List.range 24).map (24 * x + ·)).findSome? (fun t =>
    ((s.team t).groups.find? (fun e => e.2.st == 2 && e.2.step == y.id)).map (fun e => (1, e.1, unitTeam t)))
  match closing with
  | some w => some w
  | none => (s.torus.colls.find? (fun c => c.str == x && c.step == y.id)).map (fun c => (5, c.id % 65536, unitColl (s.collPort c)))

/-- MILEPOST (R186, R498): the string's part of the step ends, and its completion is reported with TAG. -/
def execMilepost (x tag : Nat) (s : State) : Host.Outcome State Fault Refusal :=
  match s.seqStep x with
  | none => .next s
  | some y =>
    let ds := s.dumpsOf y.part tag
    .next (s.issue x ⟨0x3E, [], []⟩ (if ds.isEmpty then none else s.dumpStall x y) Seq.advance (fun s =>
      let s := s.each ds (fun s i => s.copyDump x tag (if y.replaying || y.replayed then 1 else 0) i)
      let s := s.setSeqr x { s.seq x with tag := tag, lateTag := (s.seq x).swapLate, reported := true, reportedAt := s.now, ended := true }
      ((s.modStep y.id (fun z => { z with waiting := z.waiting.filter (· != x) })).countOp x 29 1).startSeq x))

/-! ### Selecting tokens (R243) -/

/-- The top-k entries of a row: value word and token id. -/
def rowEntries (n : Nat) (b : List Nat) : List (Nat × Nat) := (List.range n).map (fun i => (field b (8 * i) 4, field b (8 * i + 4) 4))

/-- The entry at which the cumulative weight reaches a bound; the last one where none does. -/
def reachWeight (bound : Rat) : Rat → List (Nat × Rat) → Nat
  | _, [] => 0
  | _, [e] => e.1
  | sum, e :: es => if bound ≤ sum + e.2 then e.1 else reachWeight bound (sum + e.2) es

/-- u of R243 as a rational. -/
def tokenDraw (seed gen pos : Nat) : Rat :=
  ((field (Config.shake256 (leBytes 4 seed ++ leBytes 4 gen ++ leBytes 4 pos)) 0 4 : Nat) : Rat) / 4294967296

/-- The token that a slot's descriptor selects from a row's entries. -/
def selectToken (d : Desc) (gen pos : Nat) (es : List (Nat × Nat)) : Nat :=
  match es with
  | [] => 0
  | e0 :: _ =>
    let t := bf16 d.temp
    if !((Num.fin false 0).lt t) && !t.isNan || d.topkS == 1 then e0.2 else
    let ws := (es.take d.topkS).map (fun e => (e.2, tokenWeight e.1 e0.1 d.temp))
    let total : Rat := (ws.map (fun w => w.2)).sum
    reachWeight (tokenDraw d.seed gen pos * total) 0 ws

/-! ### The rows that CC0/CC1 reads -/

/-- Results of some rows, read from the step's result area; true when one meets a UE. -/
def State.readRows (s : State) (a2 stride n : Nat) : List Nat → List (Nat × List Nat) × Bool × State
  | [] => ([], false, s)
  | r :: rs =>
    let q := s.readThrough (unitCore 0) (a2 + r * stride) n
    let t := q.2.2.readRows a2 stride n rs
    ((r, q.1) :: t.1, q.2.1 || t.2.1, t.2.2)

/-- Bytes of a row result: top-k entries, or the output (R240). -/
def State.rowBytes (s : State) (p m : Nat) : Nat := if s.vectorMode p m then s.resultBytes p m else s.outTopk p m * 8

/-- The sequences of a step whose slot still takes part with the same GEN (R234). -/
def State.liveSeqs (s : State) (y : Step) : List (Nat × StepSeq) :=
  (y.seqs.map (fun e => (s.globalSlot y.part e.slot, e))).filter (fun e =>
    let x := s.slot e.1
    (x.inStep == some y.id || (y.twin.isSome && x.inStep == y.twin)) && x.gen == e.2.gen)

/-- The rows whose results count: those of decodes, and the last of last chunks (R244). -/
def StepSeq.outRows (e : StepSeq) : List Nat :=
  if e.kind = 0 then (List.range e.rows).map (e.firstRow + ·) else if e.kind = 2 then [e.firstRow + e.rows - 1] else []

def rowOf (rows : List (Nat × List Nat)) (r : Nat) : List Nat := match rows.find? (fun e => e.1 == r) with | some e => e.2 | none => []

/-- The token of a row of a sequence under R243. -/
def State.rowToken (s : State) (p m : Nat) (rows : List (Nat × List Nat)) (g : Nat) (e : StepSeq) (r : Nat) : Nat :=
  selectToken (s.slot g).work e.gen (e.pos + (r - e.firstRow)) (rowEntries (s.outTopk p m) (rowOf rows r))

/-! ### What a sequence of the step yields (R244 to R247) -/

/-- What a sequence commits: accepted positions, tokens kept, proposals accepted, and the end of the run (CODE, YIELDED). -/
structure Yield where
  a : Nat
  toks : List Nat
  accepted : Nat
  fin : Option (Nat × Bool)

/-- Tokens kept, in order, up to the one that ends the run: a stop id, MAX_NEW, YIELD_EVERY (R245, R246). `n` tokens stand
in the run before them. -/
def keepTokens (d : Desc) : (n : Nat) → List Nat → List Nat × Option (Nat × Bool)
  | _, [] => ([], none)
  | n, t :: ts =>
    if t ≠ 0xFFFFFFFF ∧ (t = d.stop0 ∨ t = d.stop1) then ([t], some (cStop, false))
    else if d.maxNew ≤ n + 1 then ([t], some (cComplete, false))
    else if d.yieldEvery ≠ 0 ∧ d.yieldEvery ≤ n + 1 then ([t], some (cYield, true))
    else let r := keepTokens d (n + 1) ts; (t :: r.1, r.2)

/-- How many leading proposals equal the tokens selected for the rows before them (R247). -/
def acceptedOf : List Nat → List Nat → Nat
  | d :: ds, t :: ts => if d = t then 1 + acceptedOf ds ts else 0
  | _, _ => 0

/-- What a sequence yields; `sel` gives the token of a row, `prop` the proposals of a decode. -/
def Slot.yield (x : Slot) (vector : Bool) (e : StepSeq) (sel : Nat → Nat) (prop : List Nat) : Yield :=
  if e.kind = 1 then ⟨e.rows, [], 0, none⟩ else
  if vector then ⟨e.rows, [], 0, some (cForward, false)⟩ else
  if x.work.maxNew = 0 then ⟨if e.kind = 0 then 1 else e.rows, [], 0, some (cComplete, false)⟩ else
  if e.kind = 2 then
    let k := keepTokens x.work x.run.length [sel (e.firstRow + e.rows - 1)]
    ⟨e.rows, k.1, 0, k.2⟩
  else
    let ts := (List.range e.rows).map (fun j => sel (e.firstRow + j))
    let n := acceptedOf prop ts
    let k := keepTokens x.work x.run.length (ts.take (n + 1))
    ⟨k.1.length, k.1, n, k.2⟩

/-! ### The pacer (R248, R249) -/

/-- L after a speculative step that ran `l` proposals and accepted `n`. -/
def Slot.pace (x : Slot) (len l n : Nat) : Slot :=
  if n = 0 then
    if 16 ≤ x.rejects + 1 then { x with rejects := 0, suspend := 256, pacerSuspended := true, pacerL := max 1 (l / 2) }
    else { x with rejects := x.rejects + 1, pacerL := max 1 (l / 2) }
  else if n < l then { x with rejects := 0, pacerL := l }
  else { x with rejects := 0, pacerL := min (2 * l) len }

/-- A step of a suspended slot: the suspension's last one ends it with L = 1. -/
def Slot.unsuspend (x : Slot) : Slot :=
  if x.suspend ≤ 1 then { x with suspend := 0, pacerL := 1, pacerSuspended := false } else { x with suspend := x.suspend - 1 }

/-- The pacer state of a slot after a step. -/
def State.paceSlot (s : State) (p g l n : Nat) : State :=
  let x := s.slot g
  if !x.work.pacer then s else
  if x.suspend ≠ 0 then s.setSlot g x.unsuspend else
  if l = 0 then s else
  let z := x.pace (s.pacerLen p x.work.model) l n
  let s := s.setSlot g z
  if z.suspend ≠ 0 then s.bump (Reg.gateSuspends.gate p) else s

/-- Cache `c` belongs to the pacer of model `m`: it holds a layer of that model. -/
def State.pacerCache (s : State) (p m c : Nat) : Bool :=
  let k := s.cacheShape p c
  s.pacerModel p m != 0xFF && (List.range k.layers).any (fun i => (harnessLayer (s.harness p) (k.first + i)).model == s.pacerModel p m)

/-- The positions that a cache of a sequence has written, tentative ones included. -/
def State.writtenTo (s : State) (p slot c : Nat) : Nat :=
  ((s.seqTab p slot c).entries.map (fun e =>
    let t := (s.page p e.page).tentative
    if t = 0 then 0 else e.firstPos + e.view + t)).foldl max 0

/-! ### Committing a sequence (R215, R233) -/

/-- Every cache of a sequence commits. -/
def State.commitCaches (s : State) (p m slot upto : Nat) : State :=
  s.each (List.range (s.cacheCount p)) (fun s c =>
    let own := (s.seqTab p slot c).nextPos
    s.commitCache p slot c (if s.pacerCache p m c then min upto (max own (s.writtenTo p slot c)) else upto))

/-- The slot's counts after a commit. -/
def Slot.advance (x : Slot) (y : Step) (now : Nat) (e : StepSeq) (o : Yield) : Slot :=
  { x with
    nextPos := x.nextPos + o.a, produced := x.produced + o.toks.length, run := x.run ++ o.toks,
    inputLeft := if e.kind = 0 then x.inputLeft else x.inputLeft - e.rows,
    pendingTok := if o.toks.isEmpty then (if e.kind = 0 then none else x.pendingTok) else o.toks.getLast?,
    proposed := min 0xFFFFFFFF (x.proposed + e.propose), accepted := min 0xFFFFFFFF (x.accepted + o.accepted),
    firstAt := if x.firstAt = 0 ∧ (!o.toks.isEmpty ∨ o.fin.isSome) then now else x.firstAt,
    lastCommit := some now, reduced := x.reduced || y.reduced, degraded := x.degraded || y.degraded }

/-- The slot after its step: its run ends, or it pauses, or it goes on. -/
def State.settleSlot (s : State) (y : Step) (g : Nat) (o : Yield) (vec : List Nat) : State :=
  match o.fin with
  | some (code, yielded) =>
    if code = cForward then s.finishRun y.part g code false vec.length vec
    else s.finishRun y.part g code yielded (s.slot g).run.length (tokenBytes (s.slot g).run)
  | none => if (s.slot g).pauseAsked then s.pauseNow y.part g else s.setSlot g (s.slot g).leaveStep

/-- One sequence of a step commits. -/
def State.commitSeq (s : State) (y : Step) (g : Nat) (e : StepSeq) (o : Yield) (vec : List Nat) : State :=
  let s := s.commitCaches y.part y.model e.slot (e.pos + o.a)
  let s := s.setSlot g ((s.slot g).advance y s.now e o)
  (s.paceSlot y.part g e.propose o.accepted).settleSlot y g o vec

/-! ### The end of a step (R162) -/

/-- A team's counts of the step still exceed a limit after its replay (R165). -/
def State.stillOver (s : State) (y : Step) (t : Nat) : Bool :=
  (s.team t).stats.any (fun e => e.1 / 64 == y.id && (match layerOfLocal (s.harness y.part) t (e.1 % 64) with
    | some l =>
      let h := harnessLayer (s.harness y.part) l
      overLimits h e.2 || (h.ovfLimit != 0 && decide (h.ovfLimit < e.2.ovf))
    | none => false))

/-- A replayed step that still exceeds a limit is counted, and its results are marked. -/
def State.limitReplayed (s : State) (y : Step) : Bool × State :=
  let ts := (s.partTeams y.part).filter (fun t => s.stillOver y t)
  if !y.replayed || ts.isEmpty then (false, s) else (true, s.each ts (fun s t => s.bumpTeam t Reg.accReplayLimited 1))

/-- What the package does once for a step that committed: the milepost is recorded, inputs, counts and pins released. -/
def State.endStep (s : State) (y : Step) : State :=
  let n := y.milepost
  let s := (s.releasePins y.id).bump (Reg.gateSteps.gate y.part)
  let tag := match y.strings with | x :: _ => (s.seq x).tag | [] => 0
  let s := s.traceEvent 2 (unitPart y.part) 0x31 ([y.part, y.model] ++ leBytes 2 tag ++ leBytes 2 y.rows ++ leBytes 4 n)
  let s := s.each (s.partTeams y.part) (fun s t =>
    (s.setTeam t ((s.team t).endStep y.id)).fset (Reg.accMilepost.team t) n)
  let s := s.each y.strings (fun s x => s.setSeqr x ((s.seq x).leave y.id))
  ({ s with steps := s.steps.filter (fun z => z.id != y.id) }.showReplay y.part).startSeqs y.part

/-- Every group of the step is FREE, and none of its experts, calls or collectives is under way. -/
def State.stepIdle (s : State) (id : Nat) : Bool :=
  s.teams.all (fun e => e.2.groups.all (fun g => g.2.step != id || g.2.st == 0)) &&
  s.seqs.all (fun e => e.2.experts.all (fun r => r.step != id)) &&
  s.torus.colls.all (fun c => c.step != id) && s.torus.calls.all (fun c => c.step != id)

/-- The step has reached its milepost (R162). -/
def State.reached (s : State) (y : Step) : Bool :=
  y.posted && y.waiting.isEmpty && s.stepIdle y.id && !s.stepHeld y && y.asked.isEmpty && !y.verdictAsked && !y.collFailed

/-- The commit of a step whose rows' tokens `sel` selects (R215, R236, R243). -/
def State.commitStep (s : State) (y : Step) (rows : List (Nat × List Nat)) (sel : Nat → StepSeq → Nat → Nat) : State :=
  let lim := s.limitReplayed y
  let y := { y with reduced := y.reduced || lim.1 }
  let v := lim.2.vectorMode y.part y.model
  let os := (lim.2.liveSeqs y).map (fun e =>
    let prop := wordsOf e.2.propose (lim.2.readBytes (y.a1 + 4 * (e.2.firstRow + 1)) (4 * e.2.propose))
    (e, (lim.2.slot e.1).yield v e.2 (sel e.1 e.2) prop))
  (lim.2.each os (fun s o => s.commitSeq y o.1.1 o.1.2 o.2 (rowOf rows (o.1.2.firstRow + o.1.2.rows - 1)))).endStep y

/-- A step without a twin commits. -/
def State.commitAlone (s : State) (y : Step) : State :=
  let need := ((s.liveSeqs y).map (fun e => e.2.outRows)).flatten
  let q := s.readRows y.a2 (s.rowStride y.part y.model) (s.rowBytes y.part y.model) need
  if q.2.1 then q.2.2.failStep y.id else
  q.2.2.commitStep y q.1 (fun g e r => q.2.2.rowToken y.part y.model q.1 g e r)

/-! ### Twin steps (R468, R469) -/

/-- Every row of a step. -/
def Step.allRows (y : Step) : List Nat := List.range y.rows

/-- A run's entries hold a token within RED_MARGIN of its entry 0. -/
def holdsNear (margin : Rat) (es : List (Nat × Nat)) (tok : Nat) : Bool :=
  match es with
  | [] => false
  | e0 :: _ => es.any (fun e => e.2 == tok && (f32 e0.1).isFin && (f32 e.1).isFin &&
      decide ((f32 e0.1).rat - (f32 e.1).rat ≤ margin))

/-- The words of two results agree within RED_TOL. -/
def wordsAgree (tol : Rat) (a b : Nat) : Bool :=
  let x := f32 a
  let y := f32 b
  x.isFin && y.isFin &&
    decide (|x.rat - y.rat| ≤ tol * max 1 (max |x.rat| |y.rat|))

/-- How one row of the two runs compares: the token both take, none on a disagreement; and whether it was a tie. -/
def State.compareRow (s : State) (y z : Step) (ra rb : List (Nat × List Nat)) (g : Nat) (e : StepSeq) (r : Nat) : Option Nat × Bool :=
  let p := y.part
  if s.vectorMode p y.model then
    let n := s.resultBytes p y.model / 4
    let tol : Rat := (f32 (s.safetyCfg 16 4 0)).rat
    (if ((wordsOf n (rowOf ra r)).zip (wordsOf n (rowOf rb r))).all (fun w => wordsAgree tol w.1 w.2) then some 0 else none, false)
  else
    let t := s.rowToken p y.model ra g e r
    let u := s.rowToken p z.model rb g e r
    let m : Rat := (f32 (s.safetyCfg 20 4 0)).rat
    if t = u then (some t, false)
    else if holdsNear m (rowEntries (s.outTopk p y.model) (rowOf ra r)) u && holdsNear m (rowEntries (s.outTopk p z.model) (rowOf rb r)) t
    then (some (min t u), true) else (none, false)

/-- The rows of a sequence. -/
def StepSeq.seqRows (e : StepSeq) : List Nat := (List.range e.rows).map (e.firstRow + ·)

/-- REDUNDANT_MISMATCH of one slot (R469, R472). -/
def State.mismatch (s : State) (y : Step) (e : StepSeq) : State :=
  (s.raise Reg.safeErrRedundant).record 1 9 0x14 (unitPart y.part)
    (leBytes 2 e.slot ++ [y.model, if y.redReplayed then 1 else 0] ++ zeros 8)

/-- Both twins have reached their mileposts: they commit with the agreed selections, replay once, or end the slots that
disagree again. `y` is the paired model's step, `z` its twin's. -/
def State.commitTwins (s : State) (y z : Step) : State :=
  let n := s.rowBytes y.part y.model
  let qa := s.readRows y.a2 (s.rowStride y.part y.model) n y.allRows
  let qb := qa.2.2.readRows z.a2 (s.rowStride z.part z.model) (s.rowBytes z.part z.model) z.allRows
  let s := qb.2.2
  if qa.2.1 || qb.2.1 then s.failStep y.id else
  let live := s.liveSeqs y
  let cmp := fun (e : Nat × StepSeq) (r : Nat) => s.compareRow y z qa.1 qb.1 e.1 e.2 r
  let bad := live.filter (fun e => e.2.seqRows.any (fun r => (cmp e r).1.isNone))
  if !bad.isEmpty && !y.redReplayed then
    let s := s.each bad (fun s e => s.mismatch y e.2)
    let again := fun (w : Step) => { w with verdictAsked := true, redReplayed := true, atMilepost := false }
    (s.modStep y.id again).modStep z.id again
  else
    let s := s.each bad (fun s e => (s.mismatch y e.2).faultSlot y.part e.1 cStepFault)
    let ties : Nat := ((live.map (fun e => (e.2.seqRows.filter (fun r => (cmp e r).2)).length)).sum : Nat)
    let s := (s.bumpBy Reg.safeRedTies ties).bump Reg.safeRedSteps
    let s := s.commitStep y qa.1 (fun g e r => ((cmp (g, e) r).1).getD 0)
    match s.step? z.id with | some w => s.endStep w | none => s

/-- MILEPOST_REACHED (R162, R215, R468): the step commits once R162 holds; one of two twins waits for the other. -/
def execMilepostReached (id : Nat) (s : State) : Host.Outcome State Fault Refusal :=
  match s.step? id with
  | none => .next s
  | some y =>
    if !s.reached y || s.coreHalted 0 then .next s else
    match y.twin with
    | none => .next (s.commitAlone y)
    | some t =>
      let s := s.modStep id (fun z => { z with atMilepost := true })
      match s.step? t with
      | none => .next (s.commitAlone y)
      | some z =>
        if !z.atMilepost || !s.reached z then .next s
        else .next (if id < t then s.commitTwins { y with atMilepost := true } z else s.commitTwins z { y with atMilepost := true })

/-! ### Replay (R165 to R167, R328) -/

/-- Causes and clamped blocks of an offending layer, over the teams that hold it. -/
def State.causesOf (s : State) (y : Step) (l : Nat) : Nat × Nat × List Nat :=
  let h := s.harness y.part
  let r := harnessLayer h l
  let xs := ((layerPlaces h l).map (fun z => (z.team, z.loc))).eraseDups.map (fun z => s.stat z.1 y.id z.2)
  let sat := xs.filter (fun x => r.satLimit != 0 && decide (r.satLimit < x.sat))
  let blocks := (sat.map (fun x => x.blocks)).flatten.eraseDups
  let ufl := xs.any (fun x => r.uflLimit != 0 && decide (r.uflLimit < x.ufl))
  let ovf := xs.any (fun x => r.ovfLimit != 0 && decide (r.ovfLimit < x.ovf))
  (l, (if sat.any (fun x => x.colOrWide) then 1 else 0) + (if blocks.isEmpty then 0 else 2) + (if ufl then 4 else 0) +
    (if ovf then 8 else 0), blocks)


/-- A take-over that a verdict ordered still runs in the partition, and a replay that a verdict asked for waits (R166). -/
def State.verdictMoves (s : State) (p : Nat) : Bool :=
  (s.partTeams p).any (fun t => (match (s.team t).takeover with | some o => o.why == 4 | none => false) ||
    (s.team t).waitMoves.any (fun o => o.why == 4))

/-- A role of the partition is held for the reload of its damaged plane, which a replay waits for (R105, R279, R280). -/
def State.planeHeld (s : State) (p : Nat) : Bool :=
  (s.partTeams p).any (fun t => (s.teamTiles t).any (fun k => (s.tile t k).held.isSome))

/-- A string that runs again from a restart point: its work is abandoned, its step record queued again in front. -/
def State.restartString (s : State) (id x : Nat) (again : Bool) : State :=
  let s := s.each ((List.range 24).map (24 * x + ·)) (fun s t => s.dropTeamWork id t)
  let s := s.each (s.torus.colls.filter (fun c => c.step == id && c.str == x)) (fun s c => s.endColl c ccAborted 0xFF s.position)
  let s := (s.dropExperts id x).parkSeq id x
  s.setSeqr x { s.seq x with queue := (id, again) :: (s.seq x).queue }

/-- The step as its replay runs: the offending layers with their causes, or all of it for a verdict, a damaged plane or a failed
collective. -/
def State.replayed (s : State) (y : Step) : Step :=
  let z := { y with replaying := true, replayed := true, whole := y.verdictAsked || y.collFailed, adjust := y.asked.map (s.causesOf y),
                    asked := [], verdictAsked := false, collFailed := false, atMilepost := false }
  { z with replayAt := s.replayFrom z }

/-- The replay of a step begins: its open groups are abandoned on every team (R158, R165). -/
def State.startReplay (s : State) (y : Step) : State :=
  let z := s.replayed y
  let back := y.strings.filter (fun x => (z.replayAt.bind (s.restartPoint x z)).isSome)
  let s := s.dropCalls y.id
  let s := s.each y.strings (fun s x =>
    if back.contains x then s.restartString y.id x true else if y.collFailed then s.restartString y.id x false else s)
  let s := s.each (s.teams.map (·.1)) (fun s t => s.abandonGroups y.id t)
  let s := s.modStep y.id (fun w => { z with
    scores := w.scores, waiting := if y.collFailed then y.strings else w.waiting ++ back.filter (fun x => !w.waiting.contains x) })
  let s := s.each (s.partTeams y.part) (fun s t =>
    (s.bumpTeam t Reg.accReplays 1).raise (Reg.accStatusReplay.team t))
  s.each y.strings (fun s x => s.startSeq x)

/-- REPLAY_START (R165 to R167, R279, R328): a replay that was asked for begins; one that a verdict or a damaged plane asked for waits
for the take-over or the reload, one after a failed collective for the re-plan. -/
def execReplayStart (id : Nat) (s : State) : Host.Outcome State Fault Refusal :=
  match s.step? id with
  | none => .next s
  | some y =>
    if (y.asked.isEmpty && !y.verdictAsked && !y.collFailed) || !y.posted || s.stepHeld y then .next s else
    if (y.verdictAsked && (s.verdictMoves y.part || s.planeHeld y.part)) || (y.collFailed && s.torus.replan) then .next s else
    .next (s.startReplay y)

end Sys2Proof.Machine
end

