-- ==== Sys2Proof/Machine/Loads.lean ====
section
/-!
DEFINITION. Load contexts, descriptor chains and relay (R262 to R269, R330), and the reception of DATA packets (R310, R317).
Context 0 is physical function 0's, context 1 + p partition p's.
-/
namespace Sys2Proof.Machine

/-! ### Contexts -/

/-- The partition of a context; none for physical function 0's. -/
def ctxPart (c : Nat) : Option Nat := if c = 0 then none else some (c - 1)

/-- PART of a relay's control messages, and the context that such a PART names. -/
def ctxTag (c : Nat) : Nat := if c = 0 then 0xFF else c - 1
def tagCtx (part : Nat) : Nat := if part = 0xFF then 0 else part + 1

def State.load (s : State) (c : Nat) : LoadCtx := Map.get {} s.loads c
def State.setLoad (s : State) (c : Nat) (x : LoadCtx) : State := { s with loads := Map.set {} s.loads c x }

/-- LOAD_STATUS.STATE values. -/
def ldIdle : Nat := 0
def ldFetch : Nat := 1
def ldMove : Nat := 2
def ldWaitAck : Nat := 3

def State.loadSt (s : State) (c : Nat) : Nat := s.fget (Reg.loadStatusState.ctx c)
def State.setLoadSt (s : State) (c v : Nat) : State :=
  (s.setLoad c { s.load c with since := s.now }).fset (Reg.loadStatusState.ctx c) v

/-- STATUS codes of R264. -/
def ldDone : Nat := 0x01
def ldDma : Nat := 0x02
def ldRange : Nat := 0x03
def ldLive : Nat := 0x04
def ldBad : Nat := 0x05
def ldAborted : Nat := 0x06
def ldSourceUe : Nat := 0x07
def ldRetired : Nat := 0x08
def ldRelayShort : Nat := 0x09

/-! ### The descriptor (R263) -/

def loadKind (d : List Nat) : Nat := field d 0 1
def loadRelay (d : List Nat) : Bool := (field d 1 1).testBit 0
def loadLen (d : List Nat) : Nat := field d 4 4
def loadSrc (d : List Nat) : Nat := field d 8 8
def loadDst (d : List Nat) : Nat := field d 16 8
def loadNext (d : List Nat) : Nat := field d 24 8
def loadHops (d : List Nat) : Nat := field d 32 2
def loadRing (d : List Nat) : Nat := field d 34 1

/-- First byte of the staging area (R32). -/
def stagingByte : Nat := 6283264 * 65536

/-- A tier range that a context may name. -/
def State.tierOk (s : State) (c a n : Nat) : Bool :=
  decide (a + n ≤ stagingByte) &&
  (match ctxPart c with | none => true | some p => s.inShare p (dramBase + a) n)

/-- A plane that a context may name. -/
def State.planeOk (s : State) (c : Nat) (k : Nat × Nat × Nat) : Bool :=
  decide (k.1 < 768 ∧ k.2.1 < 32) && (match ctxPart c with | none => true | some p => s.teamPart k.1 == some p)

/-- The shape of DST and LENGTH that a KIND asks for. -/
def dstShape (kind dst len : Nat) : Bool :=
  if kind = 0 then len % 64 == 0 && dst % 64 == 0 else len == recordBytes && dst / 2 ^ 17 == 0

/-- A ring that a relay may name: one of the ROUTE section that holds this package. -/
def State.ringOk (s : State) (r : Nat) : Bool := decide (r < s.routeCfg 4 1 0) && (s.ringMembers s.position r).contains s.position

/-- BAD_DESC (R264). -/
def State.loadBad (s : State) (d : List Nat) : Bool :=
  decide (2 < loadKind d) || decide (1 < field d 1 1) || field d 2 2 != 0 || !allZero (slice d 48 16) ||
  !dstShape (loadKind d) (loadDst d) (loadLen d) || loadSrc d % 64 != 0 || loadNext d % 64 != 0 ||
  (if loadRelay d then loadKind d == 2 || field d 35 1 != 0 || loadHops d == 0 || decide (4095 < loadHops d) || !s.ringOk (loadRing d)
   else field d 32 4 != 0)

/-- The outcome of the checks of R264 that a descriptor's arrival can make; 0 where they pass. -/
def State.loadCheck (s : State) (c : Nat) (d : List Nat) : Nat :=
  let k := planeTarget (loadDst d)
  if s.loadBad d then ldBad
  else if loadKind d = 0 then (if s.tierOk c (loadDst d) (loadLen d) then 0 else ldRange)
  else if !s.planeOk c k || (loadKind d == 2 && !s.tierOk c (loadSrc d) recordBytes) then ldRange else 0

/-! ### Writing what has been moved -/

/-- A write that skips retired units and banks (R284). -/
def State.writeSkip (s : State) (source a : Nat) (b : List Nat) : State :=
  s.each (pieces a b.length) (fun s u =>
    let lo := max a (u * 65536)
    let hi := min (a + b.length) ((u + 1) * 65536)
    if s.retiredAt (u * 65536) then s else s.writeThrough source lo (slice b (lo - a) (hi - lo)))

/-- Bytes of a descriptor's data, from offset `off`, are written to its DST. -/
def State.loadPut (s : State) (c kind dst off : Nat) (b : List Nat) : State :=
  if kind = 0 then s.writeSkip (unitLoad c) (dramBase + dst + off) b else
  let k := planeTarget dst
  (s.roleWrite (unitLoad c) k.1 k.2.1 k.2.2 off b).showTeam k.1

/-- Bytes moved by the context, counted in KiB. -/
def State.loadCount (s : State) (c n : Nat) : State :=
  let x := s.load c
  (s.setLoad c { x with rest := (x.rest + n) % 1024 }).bumpBy (Reg.loadKib.ctx c) ((x.rest + n) / 1024)

/-! ### The end of a descriptor (R262) -/

/-- LOAD_CUR shows the descriptor in progress, or the last. -/
def State.showCur (s : State) (c : Nat) : State :=
  let a := (s.load c).cur
  (s.fset (Reg.loadCurLo.ctx c) (a / 64)).fset (Reg.loadCurHi.ctx c) (a / 2 ^ 32)

/-- The member of the tollgate on whose credits a context moves its data (R355). -/
def ctxMember (c : Nat) : Nat := (ctxPart c).getD 32

/-- The function for which a load context reads and writes host memory. -/
def State.ctxFn (s : State) (c : Nat) : Nat := if c = 0 then 0 else s.partVf (c - 1)

/-- A descriptor ends with a code: STATUS and DONE_AT go to host memory; the chain follows NEXT, or ends. -/
def State.loadEnd (s : State) (c code : Nat) : State :=
  let x := s.load c
  let s := s.toHost (s.ctxFn c) (x.cur + 0x24) (leBytes 4 code ++ leBytes 8 s.now)
  let s := (s.fset (Reg.loadStatusLastCode.ctx c) code).bump (Reg.loadDescs.ctx c)
  let next := loadNext x.desc
  let x := { x with plane := none, first := none, acks := [], desc := [] }
  if code = ldDone ∧ next ≠ 0 then ((s.setLoad c { x with cur := next }).setLoadSt c ldFetch).showCur c
  else (((s.setLoad c x).setLoadSt c ldIdle).raise (Reg.loadStatusEvent.ctx c)).loadIrq c

/-! ### Relay at the origin (R267, R330) -/

/-- The successor of this package on a ring. -/
def State.ringNext (s : State) (r : Nat) : Nat :=
  let ms := s.ringMembers s.position r
  ms.getD ((ms.idxOf s.position + 1) % ms.length) s.position

def startBody (seq hops session kind len dst : Nat) : List Nat :=
  leBytes 2 seq ++ leBytes 2 hops ++ leBytes 4 session ++ [kind, 0, 0, 0] ++ leBytes 4 len ++ leBytes 8 dst
def endBody (seq chunks : Nat) : List Nat := leBytes 2 seq ++ [0, 0] ++ leBytes 4 chunks

/-- RELAY_START opens the descriptor's session at its successor. -/
def State.relayStart (s : State) (c : Nat) (d : List Nat) : State :=
  let t := s.takeSession
  let x := t.2.load c
  let seq := (x.relaySeq + 1) % 65536
  (t.2.setLoad c { x with relaySeq := seq, session := t.1, opened := s.now }).sendTo (s.ringNext (loadRing d)) (ctxTag c) 0x18 3 true
    (startBody seq (loadHops d) t.1 (loadKind d) (loadLen d) (loadDst d))

/-- Chunks of the descriptor leave for the successor, each counted, where the port carries the relay's session. -/
def State.relayChunks (s : State) (c : Nat) (d b : List Nat) : State :=
  let next := s.ringNext (loadRing d)
  match s.route next with
  | none => s.unroutable next
  | some q =>
    let x := s.load c
    if s.carriesSession q x.opened then (s.sendData c q next 2 x.session x.opened b).bumpBy Reg.relayFwdChunks (ceilDiv b.length 4096)
    else s

/-! ### Commands of a context -/

/-- LOAD_GO (R262): LOAD_CTRL with GO = 1; ignored while the context is not IDLE. -/
def execLoadGo (c irqVec : Nat) (s : State) : Host.Outcome State Fault Refusal :=
  let s := s.fset (Reg.loadCtrlIrqVec.ctx c) irqVec
  if s.loadSt c ≠ ldIdle then .next s else
  let a := s.fget (Reg.loadHeadLo.ctx c) * 64 + s.fget (Reg.loadHeadHi.ctx c) * 2 ^ 32
  .next (((s.setLoad c { s.load c with cur := a, desc := [] }).setLoadSt c ldFetch).showCur c)

/-- LOAD_DESC_ARRIVE (R262 to R264): the descriptor has been read, or its read failed. -/
def execLoadDescArrive (c : Nat) (err : Bool) (bytes : List Nat) (s : State) : Host.Outcome State Fault Refusal :=
  if s.loadSt c ≠ ldFetch then .next s else
  if s.dmaError err then .next (s.loadEnd c ldDma) else
  let d := padTo 64 (bytes.map (· % 256))
  let s := s.setLoad c { s.load c with desc := d, acks := [] }
  let code := s.loadCheck c d
  if code ≠ 0 then .next (s.loadEnd c code) else
  let k := if loadKind d = 0 then none else some (planeTarget (loadDst d))
  let s := (s.setLoad c { s.load c with plane := k, first := none }).setLoadSt c ldMove
  .next (if loadRelay d then s.relayStart c d else s)

/-- The bytes that a descriptor moves: those pulled from the host, or the first `n` of the tier's copy; true where one of its
source blocks is uncorrectable, which ends them. -/
def State.loadBytes (s : State) (c : Nat) (d host : List Nat) (n : Nat) : List Nat × Bool × State :=
  if loadKind d ≠ 2 then ((host.map (· % 256)).take n, false, s) else
  let a := dramBase + loadSrc d
  let q := s.readThrough (unitLoad c) a n
  let good := fun i => !(s.retiredAt (a + i) || blockVerdict (s.syndrome ((a + i) / 32)) == .ue)
  if q.2.1 then (((List.range n).takeWhile good).map (fun i => q.1.getD i 0), true, q.2.2) else (q.1, false, q.2.2)

/-- The resources that a descriptor's data cross: from the host or the DRAM tier, and to the DRAM tier (R357). -/
def loadPath (kind : Nat) : List Nat := (if kind = 2 then [0] else [2, 1]) ++ (if kind = 0 then [0] else [])

/-- Part of a descriptor's data is moved: written, relayed, counted. -/
def State.loadMove (s : State) (c : Nat) (d b : List Nat) : State :=
  let s := s.charge (ctxMember c) true b.length (loadPath (loadKind d))
  let s := (s.loadPut c (loadKind d) (loadDst d) 0 b).loadCount c b.length
  if loadRelay d then s.relayChunks c d b else s

/-- The plane was open when the first write was queued: as a swap boundary found, else now (R264). -/
def State.firstOpen (s : State) (c : Nat) : Bool :=
  match (s.load c).plane, (s.load c).first with
  | none, _ => true
  | some _, some ok => ok
  | some k, none => !s.planeBusy k

/-- LOAD_MOVE_COMPLETE (R262, R264, R269): the move has ended; `bytes` are those read from the host, `err` where a host read
ended in an error. -/
def execLoadMoveComplete (c : Nat) (err : Bool) (bytes : List Nat) (s : State) : Host.Outcome State Fault Refusal :=
  if s.loadSt c ≠ ldMove then .next s else
  if !s.firstOpen c then .next (s.loadEnd c ldLive) else
  let d := (s.load c).desc
  let n := loadLen d
  let err := err || (s.pci.lost && loadKind d != 2)
  let r := s.loadBytes c d (if err then bytes else padTo n bytes) n
  let s := r.2.2.loadMove c d r.1
  if err then .next (s.loadEnd c ldDma) else
  if r.2.1 then .next (s.loadEnd c ldSourceUe) else
  let s := if loadRelay d then
      s.sendTo (s.ringNext (loadRing d)) (ctxTag c) 0x19 3 true (endBody (s.load c).relaySeq (ceilDiv n 4096))
    else s
  if loadKind d = 0 ∧ s.anyRetired (dramBase + loadDst d) n then .next (s.loadEnd c ldRetired) else
  if loadRelay d ∧ (s.load c).acks.length < loadHops d then
    .next ((s.setLoad c { s.load c with plane := none, first := none }).setLoadSt c ldWaitAck)
  else .next (s.loadEnd c ldDone)

/-- The chain of a context ends with ABORTED, after the bytes of whole 4 KiB pieces that had been moved (R265). -/
def State.abortLoad (s : State) (c : Nat) (host : List Nat) (n : Nat) : State :=
  if s.loadSt c = ldIdle then s else
  if s.loadSt c ≠ ldMove then s.loadEnd c ldAborted else
  let d := (s.load c).desc
  let r := s.loadBytes c d host (min (loadLen d) (n / 4096 * 4096))
  if !s.firstOpen c then s.loadEnd c ldAborted else (r.2.2.loadMove c d r.1).loadEnd c ldAborted

/-- LOAD_ABORT (R265): `moved` bytes have been moved at the next 4 KiB boundary, `bytes` those of the host. -/
def execLoadAbort (c moved : Nat) (bytes : List Nat) (s : State) : Host.Outcome State Fault Refusal := .next (s.abortLoad c bytes moved)

/-- RELAY_ACK_TIMEOUT (R269): 10 ms without the acknowledgements. -/
def execRelayAckTimeout (c : Nat) (s : State) : Host.Outcome State Fault Refusal :=
  .next (if s.loadSt c = ldWaitAck then s.loadEnd c ldRelayShort else s)

/-! ### Relay at a receiver (R267 to R269, R330) -/

/-- LOAD_RX.OUTCOME values. -/
def rxReceiving : Nat := 1
def rxComplete : Nat := 2
def rxIncomplete : Nat := 3
def rxDropped : Nat := 4

def LoadCtx.rx? (x : LoadCtx) (origin : Nat) (f : RelayRx → Bool) : Option RelayRx := x.rx.find? (fun r => r.origin == origin && f r)

/-- A receiver's record of a relayed descriptor is replaced, or removed. -/
def State.setRx (s : State) (c : Nat) (r : RelayRx) : State :=
  let x := s.load c
  s.setLoad c { x with rx := x.rx.map (fun q => if q.origin = r.origin ∧ q.session = r.session then r else q) }
def State.dropRx (s : State) (c : Nat) (r : RelayRx) : State :=
  let x := s.load c
  (s.setLoad c { x with rx := x.rx.filter (fun q => !(q.origin == r.origin && q.session == r.session)) }).closeSession r.origin r.session

/-- The registers show the last relayed descriptor received. -/
def State.rxShown (s : State) (c : Nat) (r : RelayRx) : Bool :=
  match (s.load c).rx.getLast? with | some q => q.origin == r.origin && q.session == r.session | none => true
def State.showRx (s : State) (c : Nat) (r : RelayRx) (outcome : Nat) : State :=
  if !s.rxShown c r then s else
  ((s.fset (Reg.loadRxSeq.ctx c) r.seq).fset (Reg.loadRxOutcome.ctx c) outcome).fset (Reg.loadRxChunks.ctx c) r.written

/-- The port at which a ring's traffic arrives: that towards its predecessor. -/
def State.ringPort (s : State) (r : Nat) : Nat :=
  let o := 160 + 16 * r
  2 * s.routeCfg o 1 0 + (if s.routeCfg (o + 1) 1 0 = 0 then 1 else 0)

/-- The ring of a relay that came by port `p`: the message does not name it, so it is the lowest-numbered ring through this package
on which the origin stands and whose traffic arrives there, or, where a detour brought it, the lowest-numbered that holds both
(log 37). -/
def State.relayRing (s : State) (p origin : Nat) : Option Nat :=
  let rs := (List.range (s.routeCfg 4 1 0)).filter (fun r => s.ringOk r && (s.ringMembers s.position r).contains origin)
  match rs.find? (fun r => s.ringPort r == p) with
  | some r => some r
  | none => rs.head?

/-- A relay's message goes on to the successor with the origin's header. -/
def State.relayOn (s : State) (ring : Option Nat) (h : CtrlHdr) (type : Nat) (body : List Nat) : State :=
  match ring with
  | none => s
  | some r =>
    let next := s.ringNext r
    match s.route next with
    | some q => s.sendOn q type { h with dstPos := next } body
    | none => s.unroutable next

/-- RELAY_START (R268, R330). -/
def execRelayStart (p : Nat) (ok : Bool) (h : CtrlHdr) (seq hopsLeft session kind len dst : Nat) (s : State) :
    Host.Outcome State Fault Refusal :=
  .next (s.ctrlIn p ok 0x18 h (startBody seq hopsLeft session kind len dst) (fun s => s.unlessQuarantined (fun s =>
    let c := tagCtx h.part
    if 32 < c then s else
    let early := (s.load c).ends.find? (fun e => e.1 == h.srcPos && e.2.1 == seq)
    let r : RelayRx := { seq := seq, origin := h.srcPos, session := session, hops := hopsLeft - 1, kind := kind, dst := dst, len := len,
                         written := 0, total := early.map (fun e => e.2.2), dropped := false, ring := s.relayRing p h.srcPos }
    let s := s.openSession h session 1
    let x := s.load c
    let s := (s.setLoad c { x with
      rx := x.rx.filter (fun q => !(q.origin == r.origin && q.session == r.session)) ++ [r],
      ends := x.ends.filter (fun e => !(e.1 == h.srcPos && e.2.1 == seq)) }).showRx c r rxReceiving
    if r.hops = 0 then s else
    let s := s.relayOn r.ring h 0x18 (startBody seq r.hops session kind len dst)
    match early with
    | some e => s.relayOn r.ring h 0x19 (endBody seq e.2.2)
    | none => s)))

/-- A chunk passes the receiver's own checks of R264: range, shape, open plane, and no retired unit. -/
def State.chunkOk (s : State) (c : Nat) (r : RelayRx) (off n : Nat) : Bool :=
  let k := planeTarget r.dst
  decide (r.kind < 2) && dstShape r.kind r.dst r.len && decide (off + n ≤ r.len) &&
  (if r.kind = 0 then s.tierOk c (r.dst + off) n && !s.anyRetired (dramBase + r.dst + off) n else s.planeOk c k && !s.planeBusy k)

/-- A receiver that has written every chunk acknowledges to the origin. -/
def State.rxFinish (s : State) (c : Nat) (r : RelayRx) : State :=
  if r.total ≠ some r.written ∨ r.dropped then s else
  let s := s.showRx c r rxComplete
  (s.sendTo r.origin (ctxTag c) 0x1A 3 true (endBody r.seq r.written)).dropRx c r

/-- The context and record of a relayed chunk. -/
def State.rxOf (s : State) (src session : Nat) : Option (Nat × RelayRx) :=
  s.loads.findSome? (fun e => (e.2.rx? src (fun r => r.session == session)).map (fun r => (e.1, r)))

/-- A chunk goes on to the successor, whatever becomes of the local write. -/
def State.passChunk (s : State) (ring : Option Nat) (c p src session off : Nat) (b : List Nat) (late : Bool) : State :=
  match ring with
  | none => s
  | some r =>
    let next := s.ringNext r
    match s.route next with
    | none => s.unroutable next
    | some q =>
      let s := s.enqueue q { (dataPacket next src clsBulk (s.nextVc q none) session off b).for_ c with inp := p }
      let s := s.bump Reg.relayFwdChunks
      if late then s.bump Reg.relayFwdLate else s

/-- A relayed chunk arrives by port `p`. -/
def State.relayChunk (s : State) (p src session off : Nat) (b : List Nat) (late : Bool) : State :=
  match s.rxOf src session with
  | none => s
  | some (c, r) =>
    let s := if r.hops = 0 then s else s.passChunk r.ring c p src session off b late
    if !s.chunkOk c r off b.length then
      let r := { r with dropped := true }
      (s.setRx c r).showRx c r rxDropped
    else
      let s := ((s.charge (ctxMember c) true b.length (if r.kind = 0 then [0] else [])).loadPut c r.kind r.dst off b).loadCount c b.length
      let r := { r with written := r.written + 1 }
      ((s.setRx c r).showRx c r (if r.dropped then rxDropped else rxReceiving)).rxFinish c r

/-- What arrives in DATA for a session that no sender opened, or a revoked one, is dropped (R317, R321). -/
def State.dropData (s : State) (p : Nat) : State := (s.bump (Reg.linkFenced.port p)).raise (Reg.linkErrFenced.port p)

/-- A port carries a session opened here: it is not waiting for its re-admission, and the session is not older than that
(R322, log 109). -/
def State.sessionOn (s : State) (p : Nat) (x : Session) : Bool := !s.portRevoked p && decide ((s.port p).readmitted ≤ x.opened)

/-- RELAY_CHUNK_RECEIVE (R267, R268): a chunk of a relayed descriptor; `late` when it was forwarded later than 300 ns. -/
def execRelayChunkReceive (p src session off : Nat) (bytes : List Nat) (late : Bool) (s : State) : Host.Outcome State Fault Refusal :=
  if !s.linkUp p || s.quarantined || s.hubStopped then .next s else
  match s.session? src session with
  | none => .next (s.dropData p)
  | some x => .next (if s.isRevoked x.src x.unit x.inc || !s.sessionOn p x then s.dropData p else s.relayChunk p src session off (bytes.map (· % 256)) late)

/-- RELAY_END (R269, R330); one that overtook its RELAY_START waits for it (R312). -/
def execRelayEnd (p : Nat) (ok : Bool) (h : CtrlHdr) (seq chunks : Nat) (s : State) : Host.Outcome State Fault Refusal :=
  .next (s.ctrlIn p ok 0x19 h (endBody seq chunks) (fun s => s.unlessQuarantined (fun s =>
    let c := tagCtx h.part
    match (s.load c).rx? h.srcPos (fun r => r.seq == seq) with
    | none =>
      if 32 < c then s else
      s.setLoad c { s.load c with ends := ((s.load c).ends.filter (fun e => !(e.1 == h.srcPos && e.2.1 == seq))) ++ [(h.srcPos, seq, chunks)] }
    | some r =>
      let s := if r.hops = 0 then s else s.relayOn r.ring h 0x19 (endBody seq chunks)
      let r := { r with total := some chunks }
      (s.setRx c r).rxFinish c r)))

/-- RELAY_ACK (R269): at the origin. -/
def execRelayAck (p : Nat) (ok : Bool) (h : CtrlHdr) (seq chunks : Nat) (s : State) : Host.Outcome State Fault Refusal :=
  .next (s.ctrlIn p ok 0x1A h (endBody seq chunks) (fun s => s.unlessQuarantined (fun s =>
    let c := tagCtx h.part
    let x := s.load c
    if (s.loadSt c ≠ ldMove ∧ s.loadSt c ≠ ldWaitAck) ∨ !loadRelay x.desc ∨ x.relaySeq ≠ seq ∨ x.acks.contains h.srcPos then s else
    let s := s.setLoad c { x with acks := x.acks ++ [h.srcPos] }
    if s.loadSt c = ldWaitAck ∧ loadHops x.desc ≤ x.acks.length + 1 then s.loadEnd c ldDone else s)))

/-- RELAY_RX_TIMEOUT (R269): 10 ms after the last chunk or message of a relayed descriptor from an origin. -/
def execRelayRxTimeout (c origin session : Nat) (s : State) : Host.Outcome State Fault Refusal :=
  match (s.load c).rx? origin (fun r => r.session == session) with
  | none => .next s
  | some r => .next ((s.showRx c r (if r.dropped then rxDropped else rxIncomplete)).dropRx c r)

/-! ### DATA packets (R310, R317) -/

/-- DATA_PACKET_RECEIVE (R310, R317): transit packets go on; the rest is placed in an open session, or dropped as fenced. -/
def execDataPacketReceive (p dst src cls vc session off : Nat) (bytes : List Nat) (s : State) : Host.Outcome State Fault Refusal :=
  if !s.linkUp p || s.hubStopped then .next s else
  if dst ≠ 0xFFFF ∧ dst ≠ s.position then
    .next (s.forward p (dataPacket dst src cls vc session off (bytes.map (· % 256))))
  else
    if s.quarantined then .next s else
    match s.session? src session with
    | some x =>
      if s.isRevoked x.src x.unit x.inc || !s.sessionOn p x then .next (s.dropData p)
      else if x.kind = 1 then .next (s.relayChunk p src session off (bytes.map (· % 256)) false)
      else .next (((s.putPiece src session off bytes).ackHeld).serveAll.collectAll)
    | none =>
      if s.awaits src && !s.portRevoked p && !s.torus.revs.any (fun e => match e.2 with | some r => r.pos == src && r.unit == unitPackage | none => false)
      then
        let x : Session := ⟨src, unitPackage, 0, session, 0, [], s.now⟩
        let s := { s with torus := { s.torus with sessions := s.torus.sessions ++ [x] } }
        .next (((s.putPiece src session off bytes).ackHeld).serveAll.collectAll)
      else .next (s.dropData p)

end Sys2Proof.Machine
end

