-- ==== Sys2Proof/Machine/Sweeps.lean ====
section
/-!
DEFINITION. Sweeps over SRAM, the accumulator region and the DRAM tier (R281 to R283), and retirement of DRAM units and SRAM
banks (R284, R285).
-/
namespace Sys2Proof.Machine

/-! ### Sweeps -/

def State.sweepAt (s : State) (c : Nat) : Option Sweep := Map.get none s.sweeps c
def State.setSweep (s : State) (c : Nat) (x : Option Sweep) : State := { s with sweeps := Map.set none s.sweeps c x }

/-- Outcomes of a sweep. -/
def swComplete : Nat := 1
def swAborted : Nat := 2
def swBadRange : Nat := 3

/-- The memory that a sweep takes a range for: 0 SRAM, 1 DRAM tier, 2 accumulators, 3 none. -/
def sweepKind (a : Nat) : Nat :=
  match memKind a with | .sram => 0 | .slots => 0 | .dram => 1 | .acc => 2 | .unmapped => 3

/-- A range lies wholly in one memory. -/
def oneMemory (a n : Nat) : Bool :=
  sweepKind a != 3 && (pieces a n).all (fun u => sweepKind (u * 65536) == sweepKind a)

/-- Blocks of a range whose check word is wrong, outside retired units and banks. -/
def State.sweepBlocks (s : State) (a n : Nat) : List Nat := s.badBlocks a n

/-- Retired units or banks that a range touches. -/
def State.sweepSkips (s : State) (a n : Nat) : Nat :=
  (((pieces a n).filter (fun u => s.retiredAt (u * 65536))).map (fun u =>
    if memKind (u * 65536) = .dram then unitOf (u * 65536) else bankOf (u * 65536))).eraseDups.length

/-- Zeros with their check words over a range, retired units and banks left out. -/
def State.zeroRange (s : State) (a n : Nat) : State :=
  let out := fun (x : Nat) => decide (x < a ∨ a + n ≤ x) || s.retiredAt x
  { s with mem := s.mem.filter (fun e => out e.1), syndromes := s.syndromes.filter (fun e => out (32 * e.1)) }

/-- The 64 bytes of a summary (R282). -/
def sweepSummary (x : Sweep) (covered ce ue hard skipped outcome first last now : Nat) : List Nat :=
  leBytes 8 x.start ++ leBytes 8 covered ++ leBytes 4 ce ++ leBytes 4 ue ++ leBytes 4 hard ++ leBytes 2 skipped ++
  [outcome, x.mode] ++ leBytes 8 first ++ leBytes 8 last ++ leBytes 8 x.began ++ leBytes 8 now

/-- The unit that sweeps. -/
def sweepUnit : Nat := unitPackage

/-- A sweep ends: its summary, its registers and the memory event. -/
def State.endSweep (s : State) (c outcome : Nat) (summary : List Nat) (sum : Nat) : State :=
  let s := if memKind sum = .sram ∧ memKind (sum + 63) = .sram then s.writeThrough sweepUnit sum summary else s
  let s := (s.setSweep c none).fset (Reg.sweepStatusBusy.sweep c) 0
  ((s.fset (Reg.sweepStatusOutcome.sweep c) outcome).raise (Reg.sweepStatusDone.sweep c)).pkgEvent .memory

/-- The first `n` bytes of a sweep have been covered, and it ends; lines of the DRAM tier take the package's credits (R356). -/
def State.runSweep (s : State) (c n outcome : Nat) (x : Sweep) : State :=
  let s := if memKind x.start = .dram then s.charge 32 true n [0] else s
  let all := 0xFFFFFFFFFFFFFFFF
  let skips := s.sweepSkips x.start n
  if x.mode = 2 then
    (s.zeroRange x.start n).endSweep c outcome (sweepSummary x n 0 0 0 skips outcome all all s.now) x.sum
  else
    let bs := s.sweepBlocks x.start n
    let ues := bs.filter (fun b => blockVerdict (s.syndrome b) == .ue)
    let ces := bs.filter (fun b => blockVerdict (s.syndrome b) != .ue)
    let hard := ((if x.mode = 1 then bs else ues).filter (fun b => s.hardBlocks.contains b)).length
    let first := match ues.head? with | some b => 32 * b | none => all
    let last := match ues.getLast? with | some b => 32 * b | none => all
    let t := s.each bs (fun s b => s.readBlock sweepUnit (x.mode == 1) b)
    t.endSweep c outcome (sweepSummary x n ces.length ues.length hard skips outcome first last s.now) x.sum

/-- SWEEP_GO (R281): SWEEP_CTRL with GO = 1 on contexts 0 to 3; ignored while the context sweeps, or scrubs (R350). -/
def execSweepGo (c mode : Nat) (s : State) : Host.Outcome State Fault Refusal :=
  if 4 ≤ c ∨ (s.sweepAt c).isSome ∨ (c = 3 ∧ !s.scrubs.isEmpty) then .next s else
  let s := s.fset (Reg.sweepCtrlMode.sweep c) mode
  let a := s.fget (Reg.sweepStartLoAddrLo.sweep c) * 4096 + s.fget (Reg.sweepStartHi.sweep c) * 2 ^ 32
  let sum := s.fget (Reg.sweepSumLoAddrLo.sweep c) * 4096 + s.fget (Reg.sweepSumLoAddrMid.sweep c) * 64 +
    s.fget (Reg.sweepSumHi.sweep c) * 2 ^ 32
  let x : Sweep := { mode := mode % 4, start := a, len := s.fget (Reg.sweepLen.sweep c) * 4096, sum := sum, began := s.now }
  if mode % 4 = 3 ∨ s.fget (Reg.sweepStartLoAddrMid.sweep c) ≠ 0 ∨ !oneMemory a x.len ∨ memKind sum ≠ .sram then
    .next (s.endSweep c swBadRange
      (sweepSummary x 0 0 0 0 0 swBadRange 0xFFFFFFFFFFFFFFFF 0xFFFFFFFFFFFFFFFF s.now) sum)
  else .next ((s.setSweep c (some x)).fset (Reg.sweepStatusBusy.sweep c) 1)

/-- SWEEP_COMPLETE (R282). -/
def execSweepComplete (c : Nat) (s : State) : Host.Outcome State Fault Refusal :=
  match s.sweepAt c with
  | none => .next s
  | some x => .next (s.runSweep c x.len swComplete x)

/-- SWEEP_ABORT (R283): the sweep ends at its next 4 KiB boundary, `pages` of 4 KiB covered. -/
def execSweepAbort (c pages : Nat) (s : State) : Host.Outcome State Fault Refusal :=
  match s.sweepAt c with
  | none => .next s
  | some x => .next (s.runSweep c (min x.len (4096 * pages)) swAborted x)

/-! ### Retirement (R284, R285) -/

/-- DRAM_RETIRED, and the entries that the two SEL registers select. -/
def State.showRetired (s : State) : State :=
  let all := s.nv.units.map (fun u => (0, u)) ++ s.nv.banks.map (fun b => (1, b))
  let s := (s.fset Reg.dramRetiredUnits s.nv.units.length).fset Reg.dramRetiredBanks s.nv.banks.length
  let e := all[s.fget Reg.dramRetSelIndex]?
  let s := (s.fput Reg.dramRetEntryValid e.isSome).fset Reg.dramRetEntryKind (match e with | some x => x.1 | none => 0)
  let s := (s.fset Reg.dramRetEntryCount 0).fset Reg.dramRetEntryIndex (match e with | some x => x.2 | none => 0)
  let h := s.hardTable[s.fget Reg.dramHardSelIndex % 64]?
  let s := (s.fput Reg.dramHardEntryValid h.isSome).fset Reg.dramHardEntryKind (match h with | some x => x.1 | none => 0)
  (s.fset Reg.dramHardEntryCount (match h with | some x => x.2.2 | none => 0)).fset Reg.dramHardEntryIndex
    (match h with | some x => x.2.1 | none => 0)

/-- Codes of DRAM_RETIRE_RESULT. -/
def retDone : Nat := 1
def retAlready : Nat := 2
def retFull : Nat := 3
def retReserved : Nat := 4

/-- A unit or bank that is never retired: the staging area, the slot area, and an index that names nothing. -/
def retireReserved (kind index : Nat) : Bool :=
  if kind = 0 then decide (6283264 ≤ index) else decide (7168 + 752 ≤ index)

/-- Whether an index has been retired, and whether the list of its kind is full. -/
def State.isRetired (s : State) (kind index : Nat) : Bool :=
  if kind = 0 then s.nv.units.contains index else s.nv.banks.contains index
def State.retireFull (s : State) (kind : Nat) : Bool :=
  if kind = 0 then decide (4096 ≤ s.nv.units.length) else decide (256 ≤ s.nv.banks.length)

/-- A retirement takes force; its studbook write waits for the window where it is shut. -/
def State.retireNow (s : State) (kind index : Nat) : State :=
  let n := s.nv
  let s := { s with nv := if kind = 0 then { n with units := n.units ++ [index] } else { n with banks := n.banks ++ [index] } }
  let s := if s.nvOk then s else
    { s with retireWaits := s.retireWaits ++ [(kind, index)] }.raise Reg.dramStatusNvPending
  s.showRetired.updateHealth

/-- DRAM_RETIRE (R284, R285): DRAM_RETIRE with GO = 1. -/
def execDramRetire (kind index : Nat) (s : State) : Host.Outcome State Fault Refusal :=
  let k := kind % 2
  let i := index % 2 ^ 23
  let s := (s.fset Reg.dramRetireKind k).fset Reg.dramRetireIndex i
  .next (if s.isRetired k i then s.fset Reg.dramRetireResultCode retAlready
    else if retireReserved k i then s.fset Reg.dramRetireResultCode retReserved
    else if s.retireFull k then s.fset Reg.dramRetireResultCode retFull
    else (s.retireNow k i).fset Reg.dramRetireResultCode retDone)

/-- RETIRE_NV_RETRY (R285): every second while NV_PENDING is set. -/
def execRetireNvRetry (s : State) : Host.Outcome State Fault Refusal :=
  .next (if s.nvOk then { s with retireWaits := [] }.clear Reg.dramStatusNvPending else s)

end Sys2Proof.Machine
end

