-- ==== Sys2Proof/Machine/Partition.lean ====
section
/-!
DEFINITION. Partitions (R348 to R354), the tollgate (R355 to R357), moderation of vectors (R347), the PCI Express events of
R336, R354, R358 and R359, and the return of a revoked package (R320, R322).
-/
namespace Sys2Proof.Machine

/-! ### PART_STATUS -/

/-- STATE of PART_STATUS. -/
def PartSt.code : PartSt → Nat
  | .undef => 0 | .inService => 1 | .quiescing => 2 | .quiesced => 3 | .scrubbing => 4

/-- PART_SERVICE: bit p while partition p is IN_SERVICE. -/
def State.serviceMask (s : State) : Nat := bitWord ((List.range 32).map s.inService)

/-- PART_STATUS of a partition, and PART_SERVICE. -/
def State.showPart (s : State) (p : Nat) : State :=
  let x := s.partGet p
  let s := (s.fset (Reg.partStatusState.sel p) x.st.code).fput (Reg.partStatusScrubbed.sel p) x.scrubbed
  let s := (s.fset (Reg.partStatusCause.sel p) x.cause).fset (Reg.partStatusVf.sel p) (s.partVf p)
  (s.fput (Reg.partStatusHeld.sel p) ((s.fget Reg.torNeed).testBit p)).fset Reg.partService s.serviceMask

/-- A partition changes its state: the registers follow and vector 0 of its function hears of it (R346, R348). -/
def State.enterPart (s : State) (p : Nat) (x : Part) : State := ((s.partSet p x).showPart p).partEvent p

/-- A command was refused or cancelled under R351 or R352. -/
def State.refusePart (s : State) (p : Nat) : State := s.raise (Reg.partStatusRefused.sel p)

/-! ### The end of a Volzal load without commit (R38, R47, R48, R50) -/

/-- VOLZ_STATUS.STATE values. -/
def vzIdle : Nat := 0
def vzPull : Nat := 1
def vzVerify : Nat := 2
def vzApply : Nat := 3

/-- A load ends refused: RESULT, EVENT and the VOLZ event. -/
def State.volzRefuse (s : State) (v : Verdict) : State :=
  let s := { s with volz := { s.volz with kind := none, parsed := [] } }
  let s := (s.fset Reg.volzStatusState vzIdle).fset Reg.volzResultCode v.1
  ((s.fset Reg.volzResultSection v.2).raise Reg.volzEventRefused).pkgEvent .volz

/-- A partial load of partition `p` runs. -/
def State.loadsPart (s : State) (p : Nat) : Bool := s.volz.kind == some (.part p)

/-! ### The RUNNING half (R32, R43) -/

/-- First byte of the INCOMING and of the RUNNING half in the tensor space. -/
def incomingAddr : Nat := dramBase + 6283264 * 65536
def runningAddr : Nat := dramBase + 6287360 * 65536

/-- Where the body of a running section begins in the RUNNING half: the sections stand there in the order of R51, each behind
its header on a 64-byte boundary. -/
def State.runningBody (s : State) (type scope : Nat) : Nat :=
  runningAddr + runningBytes (s.volz.running.takeWhile (fun x => !(x.type == type && x.scope == scope))) + 96

/-! ### Quiesce (R349) -/

/-- The strings of a partition. -/
def State.stringsOf (s : State) (p : Nat) : List Nat := (List.range 32).filter (fun x => s.ownsString p x)

/-- A sequencer stops: nothing waits for it, and a halt of it is cleared (R491). -/
def Seq.stop (q : Seq) : Seq := { q with queue := [], wait := none, halted := false, stepping := false, skipBp := false }

/-- Sequencers and steps of a partition end (R349 items 1 and 2). -/
def State.stopSeqs (s : State) (p : Nat) : State :=
  let s := s.each (s.stringsOf p) (fun s x => (s.setSeqr x (s.seq x).stop).clear (Reg.runstatHalted.unit (32 + x)))
  s.each ((s.steps.filter (fun y => y.part == p)).map (·.id)) (fun s id => s.abandonStep id)

/-- The teams of a partition stop issuing, or issue again. -/
def State.quiesceTeams (s : State) (p : Nat) (on : Bool) : State :=
  s.each (s.partTeams p) (fun s t => (s.setTeam t { s.team t with quiesced := on }).showTeam t)

/-- The function's vectors enter the internal mask: what was pending is cleared (R347). -/
def State.maskVectors (s : State) (fn : Nat) : State :=
  { s with vectors := s.vectors.map (fun e => if e.1 / 2048 = fn then (e.1, { e.2 with pending := false }) else e) }

/-- Armed dumps of a partition are disarmed (R498). -/
def State.disarmDumps (s : State) (p : Nat) : State :=
  s.each (List.range 16) (fun s i => match s.dump? i with | some d => if d.part = p then s.setDump i none else s | none => s)

/-- The calls that the partition serves for others end with NOT_IN_SERVICE (R329). -/
def State.dropServed (s : State) (p : Nat) : State := s.each (s.torus.served.filter (fun x => x.part == p)) (fun s v => s.endCall v 2 0)

/-- A quiesce begins: what takes effect before the loads of the context and the host reads have ended. -/
def State.beginQuiesce (s : State) (p cause : Nat) (flr : Bool) : State :=
  let s := (s.stopSeqs p).quiesceTeams p true
  let s := s.each (s.busySlots p) (fun s g => s.quiesceSlot p g)
  let s := ((s.disarmDumps p).dropServed p).maskVectors (s.partVf p)
  s.enterPart p { s.partGet p with st := .quiescing, cause := cause, scrubbed := false, flr := flr }

/-- A scrub is requested: scrubs run one at a time, in that order (R350). -/
def State.beginScrub (s : State) (p : Nat) : State :=
  ({ s with scrubs := if s.scrubs.contains p then s.scrubs else s.scrubs ++ [p] }.fset (Reg.sweepStatusBusy.sweep 3) 1).enterPart p { s.partGet p with st := .scrubbing }

/-- A waiting RETURN is cancelled (R352). -/
def State.cancelReturn (s : State) (p : Nat) : State :=
  if !(s.partGet p).returnWaits then s else (s.partSet p { s.partGet p with returnWaits := false }).refusePart p

/-- A partial load of the partition ends before its commit (R48). -/
def State.abortPartial (s : State) (p : Nat) : State := if s.loadsPart p then s.volzRefuse (vrAborted, noSection) else s

/-- A QUIESCE, or with `flr` a function-level reset, reaches a partition (R348, R352, R354). Whatever the partition's state, it
ends a partial load of it with ABORTED (R48; beside R352's "no effect" DEDUCED, log 89). In paddock mode it stays QUIESCED. -/
def State.askQuiesce (s : State) (p cause : Nat) (flr : Bool) : State :=
  let s := (s.cancelReturn p).abortPartial p
  match (s.partGet p).st with
  | .undef => s
  | .inService => s.beginQuiesce p cause flr
  | .quiescing | .scrubbing => if flr then s.partSet p { s.partGet p with flr := true } else s
  | .quiesced => if flr && !s.paddock then (s.partSet p { s.partGet p with flr := true }).beginScrub p else s

/-- PART_QUIESCE (R349, R352): PART_CTRL with CMD QUIESCE, for the partition of PART_SEL. -/
def execPartQuiesce (s : State) : Host.Outcome State Fault Refusal :=
  .next ((s.fset Reg.partCtrlCmd 1).askQuiesce (s.fget Reg.partSelPart) 2 false)

/-- QUIESCE_COMPLETE (R349): every action of a quiesce is done; its load context has ended after `moved` bytes, `bytes` those
that came from the host. -/
def execQuiesceComplete (p moved : Nat) (bytes : List Nat) (s : State) : Host.Outcome State Fault Refusal :=
  if (s.partGet p).st ≠ .quiescing then .next s else
  let s := s.abortLoad (p + 1) bytes moved
  let s := s.enterPart p { s.partGet p with st := .quiesced }
  .next (if (s.partGet p).flr && !s.paddock then s.beginScrub p else s)

/-! ### Return (R351) -/

/-- A piece of a program is copied: read and written through the code; a block that the device cannot read leaves a poisoned
block where it would have stood (DESIGN CHOICE, log 90). -/
def State.copyPiece (s : State) (src dst n : Nat) : State :=
  let bad := (s.badBlocks src n).filter (fun b => blockVerdict (s.syndrome b) == .ue)
  let r := s.readThrough unitPackage src n
  (r.2.2.writeThrough unitPackage dst r.1).each bad (fun s b =>
    { s with syndromes := Map.set 0 s.syndromes (dst / 32 + b - src / 32) poisonSyndrome })

/-- `n` bytes of the tensor space become the program bytes of string `x` from byte `off` on, bank by bank (R526). -/
def State.copyArea (s : State) (x off src n : Nat) : State :=
  s.each (List.range 4) (fun s i =>
    let a := max off (i * 0x40000)
    let e := min (off + n) ((i + 1) * 0x40000)
    if e ≤ a then s else s.copyPiece (src + (a - off)) (s.progAddr x a) (e - a))

/-- A string's program is copied into its slice (R183, R526) from a HARNESS body at an address. -/
def State.copyProgram (s : State) (h : List Nat) (body x : Nat) : State :=
  let d := progDir h x
  (s.copyArea x 0 (body + d.1) d.2.1).copyArea x (up64 d.2.1) (body + d.2.2.1) d.2.2.2

/-- The programs of a partition are copied from the RUNNING half as it stands (R43, R351). -/
def State.copyPrograms (s : State) (p : Nat) : State :=
  s.each ((s.stringsOf p).filter (usesString (s.harness p))) (fun s x =>
    s.copyProgram (s.harness p) (s.runningBody 0x10 p) x)

/-- Every page record of a partition is FREE and every sequence table empty. -/
def Kv.forget (k : Kv) (p : Nat) : Kv :=
  { k with
    pages := k.pages.filter (fun e => e.1 / 2 ^ 24 != p), seqs := k.seqs.filter (fun e => e.1 / 2 ^ 24 != p),
    waiters := k.waiters.filter (fun w => w.part != p), moves := k.moves.filter (fun m => m.part != p),
    noRoom := k.noRoom.filter (fun e => e / 2 ^ 24 != p) }

/-- Every running mean square of a partition is unset (R87). -/
def State.unsetMeans (s : State) (p : Nat) : State :=
  s.each (s.partTeams p) (fun s t => s.setTeam t { s.team t with means := [], meansAtStart := [] })

/-- A QUIESCED partition returns to service. -/
def State.returnPart (s : State) (p : Nat) : State :=
  let s := ({ s.copyPrograms p with kv := s.kv.forget p }.unsetMeans p).quiesceTeams p false
  s.enterPart p { s.partGet p with st := .inService, scrubbed := false, returnWaits := false, flr := false, milepost := 1 }

/-- TOR_NEED holds the partition (R308). -/
def State.torHeld (s : State) (p : Nat) : Bool := (s.fget Reg.torNeed).testBit p

/-- A RETURN: accepted from QUIESCED, waiting for a scrub or a load to end, refused otherwise (R351, R352). -/
def State.askReturn (s : State) (p : Nat) : State :=
  let x := s.partGet p
  if !s.ready || s.torHeld p || (x.st != .quiesced && x.st != .scrubbing) then s.refusePart p
  else if x.st = .scrubbing ∨ s.loadsPart p then s.partSet p { x with returnWaits := true }
  else s.returnPart p

/-- A scrub or a load has ended: a RETURN that waited for it proceeds. -/
def State.resumeReturn (s : State) (p : Nat) : State :=
  if !(s.partGet p).returnWaits then s else (s.partSet p { s.partGet p with returnWaits := false }).askReturn p

/-- PART_RETURN (R351, R352): PART_CTRL with CMD RETURN, for the partition of PART_SEL. -/
def execPartReturn (s : State) : Host.Outcome State Fault Refusal :=
  .next ((s.fset Reg.partCtrlCmd 3).askReturn (s.fget Reg.partSelPart))

/-! ### Scrub (R350) -/

/-- PART_SCRUB (R350, R352): PART_CTRL with CMD SCRUB; one more for a partition that is being scrubbed changes nothing. -/
def execPartScrub (s : State) : Host.Outcome State Fault Refusal :=
  let p := s.fget Reg.partSelPart
  let s := s.fset Reg.partCtrlCmd 2
  .next (match (s.partGet p).st with
    | .quiesced => if s.paddock then s.refusePart p else s.beginScrub p
    | .scrubbing => s
    | _ => s.refusePart p)

/-- A tile with both planes and scale stores cleared through its write port. -/
def Tile.scrub (k : Tile) : Tile :=
  { k with
    planeA := [], planeB := [], scaleA := [], scaleB := [], bad := [], queue := [], held := none, marked := [], reloaded := [],
    written := [1 - k.live] }

/-- The tiles of a partition's teams are cleared. -/
def State.scrubTiles (s : State) (p : Nat) : State :=
  let mine := fun (e : Nat × Tile) => s.ownsString p (teamString (e.1 / 64))
  let s := s.each (s.tiles.filter mine) (fun s e => { s with tiles := Map.set {} s.tiles e.1 e.2.scrub })
  s.each (s.partTeams p) (fun s t => s.showTeam t)

/-- Memory of a partition that a scrub clears: slices, hub share, accumulators, slots. -/
def State.scrubMemory (s : State) (p : Nat) : State :=
  let s := s.each (s.stringsOf p) (fun s x => s.zeroRange (x * 0x3800000) 0x3800000)
  let hub := s.partRec p 12 2 * 0x40000
  let s := (s.charge 32 true hub [1]).zeroRange (0x70000000 + s.partRec p 10 2 * 0x40000) hub
  let s := s.each (s.stringsOf p) (fun s x => s.zeroRange (accRegion + 24 * x * 0x40000) (24 * 0x40000))
  let s := s.zeroRange (descAddr (s.slotBase p)) (s.slotCount p * 0x100)
  let s := s.zeroRange (windowAddr (s.slotBase p)) (s.slotCount p * 0x1000)
  { s with slots := s.slots.filter (fun e => decide (e.1 < s.slotBase p ∨ s.slotBase p + s.slotCount p ≤ e.1)) }

/-- The registers of a word range are 0. -/
def State.clearRegs (s : State) (a n : Nat) : State :=
  { s with fields := s.fields.filter (fun e => decide (e.1 / 8 < a ∨ a + n ≤ e.1 / 8)) }

/-- The registers that a scrub clears: host frames and the load context. -/
def State.scrubRegs (s : State) (p : Nat) : State :=
  let s := ((s.clear (Reg.kvPHostLo.kvPart p)).clear (Reg.kvPHostHi.kvPart p)).clear (Reg.kvPHostFrames.kvPart p)
  (s.clearRegs (Reg.loadCtrlGo.ctx (p + 1)).addr 0x100).setLoad (p + 1) {}

/-- The scrub of a partition is complete. -/
def State.endScrub (s : State) (p : Nat) : State :=
  let s := ((s.scrubMemory p).scrubTiles p).scrubRegs p
  let s := s.enterPart p { s.partGet p with st := .quiesced, scrubbed := true, flr := false }
  s.resumeReturn p

/-- SCRUB_COMPLETE (R350): the scrub that runs is complete; the next one requested starts. A sweep that context 3 had begun
goes first. -/
def execScrubComplete (s : State) : Host.Outcome State Fault Refusal :=
  match s.scrubs with
  | [] => .next s
  | p :: rest =>
    if (s.sweepAt 3).isSome then .next s else
    let s := { s with scrubs := rest }
    .next ((if rest.isEmpty then s.fset (Reg.sweepStatusBusy.sweep 3) 0 else s).endScrub p)

/-! ### Resets of PCI Express (R354) -/

/-- A function-level reset returns what configuration requests set, and drops the function's translations (log 131). -/
def State.resetFn (s : State) (fn : Nat) : State :=
  { s with pci := { s.pci with
    fns := Map.erase s.pci.fns fn, atc := s.pci.atc.filter (fun e => e.1 != fn), invals := s.pci.invals.filter (fun e => e.1 != fn) } }

/-- VF_FLR (R353, R354): function-level reset of virtual function `k`. -/
def execVfFlr (k : Nat) (s : State) : Host.Outcome State Fault Refusal :=
  let s := s.resetFn k
  match s.vfPart k with
  | none => .next s
  | some p => .next (s.askQuiesce p 3 true)

/-- Quiesce and scrub of every partition, in ascending order; VF Enable is cleared. -/
def State.flrAll (s : State) (cause : Nat) : State :=
  let s := s.each (List.range 32) (fun s p => s.askQuiesce p cause true)
  { s with pci := { s.pci with vfEnable := false, fns := [], atc := [], invals := [] } }

/-- PF_FLR (R354). -/
def execPfFlr (s : State) : Host.Outcome State Fault Refusal := .next (s.flrAll 4)

/-- HOT_RESET (R354): Hot Reset or Link Disable. -/
def execHotReset (s : State) : Host.Outcome State Fault Refusal := .next (s.flrAll 5)

/-- VF_ENABLE_CLEARED (R354): `n` virtual functions are left, 0 when VF Enable is cleared; partitions keep their state. -/
def execVfEnableCleared (n : Nat) (s : State) : Host.Outcome State Fault Refusal :=
  .next { s with pci := { s.pci with vfEnable := s.pci.vfEnable && n != 0, numVfs := n } }

/-! ### The link and errors (R336, R354, R358 to R360) -/

/-- A link below 16 GT/s or below 16 lanes (R336). -/
def belowSpec (rate width : Nat) : Bool := decide (rate < 4 ∨ width < 16)

/-- PCIE_LINK_UP (R336): RATE as PCI_STATUS numbers it, and lanes. -/
def execPcieLinkUp (rate width : Nat) (flit : Bool) (s : State) : Host.Outcome State Fault Refusal :=
  let s := ((s.fset Reg.pciStatusRate rate).fset Reg.pciStatusWidth width).fput Reg.pciStatusFlit flit
  let s := { s with pci := { s.pci with lost := false } }
  .next ((s.fput Reg.pciStatusBelowSpec (belowSpec rate width)).raise Reg.pciStatusLinkUp)

/-- PCIE_LINK_DOWN (R354, R361): the link left L0 without Hot Reset; partitions keep running, and the device's host accesses end
as DMA errors until the link is up again. -/
def execPcieLinkDown (s : State) : Host.Outcome State Fault Refusal :=
  let s := { s with pci := { s.pci with lost := true } }
  .next (((s.clear Reg.pciStatusLinkUp).raise Reg.pciErrLinkDown).pciRecord 1 0x70 0 0xFFFF 0)

/-- MALFORMED_TLP (R359): dropped, and reported as a fatal error. -/
def execMalformedTlp (fn : Nat) (s : State) : Host.Outcome State Fault Refusal := .next (s.aerReport fn 2)

/-- MSIX_INTERVAL_END (R347): a pending vector sends its message. -/
def execMsixIntervalEnd (fn vec : Nat) (s : State) : Host.Outcome State Fault Refusal :=
  let x := s.vecGet fn vec
  if !x.running then .next s else
  let s := s.vecSet fn vec { x with running := false }
  .next (s.vecRelease fn vec)

/-! ### The tollgate (R355 to R357) -/

/-- Weight of a member at a resource: partition 0 to 31, or 32 for the package account. -/
def State.tollWeight (s : State) (m r : Nat) : Nat :=
  if m = 32 then s.partCfg 1 1 16 else
  s.partRec m (if r = 0 then 14 else if r = 1 then 15 else if r ≤ 3 then 16 else 17) 1

/-- Capacity of the PCI Express link in one direction, bytes per microsecond. -/
def State.pciCapacity (s : State) : Nat :=
  let rate := s.fget Reg.pciStatusRate
  let full := if rate = 6 then 121000 * 16 else if rate = 5 then 60500 * 16 else if rate = 4 then 30250 * 16
    else if rate = 3 then 30250 * 8 else if rate = 2 then 30250 * 5 else if rate = 1 then 30250 * 5 / 2 else 0
  if s.flag Reg.pciStatusLinkUp then full * s.fget Reg.pciStatusWidth / 256 else 0

/-- Capacity of a resource for the coming period. -/
def State.tollCapacity (s : State) (r : Nat) : Nat :=
  if r = 0 then 16000000 else if r = 1 then 6000000 else if r ≤ 3 then s.pciCapacity else
  let lanes := s.fget (Reg.linkStatusLanes.port (r - 4))
  (if lanes = 32 then 832000 else if lanes = 16 then 416000 else 0) - (s.port (r - 4)).transit

/-- Members of the sums: partitions IN_SERVICE, and the package account. -/
def State.tollMembers (s : State) : List Nat := (List.range 32).filter s.inService ++ [32]

/-- Credits of 64 bytes that a member receives (R355). -/
def State.tollCredits (s : State) (r m : Nat) : Nat :=
  if !s.tollMembers.contains m then 0 else
  s.tollCapacity r * s.tollWeight m r / ((s.tollMembers.map (fun k => s.tollWeight k r)).sum * 64)

/-- What a member asked of a resource in a period: lines that DATA and BULK moved or wait to move. -/
structure TollAsk where
  member : Nat
  resource : Nat
  data : Nat
  bulk : Nat

/-- DATA and BULK lines that a member's own credits serve: while DATA waits, BULK uses at most its share of them (R356). -/
def tollOwn (credits share data bulk : Nat) : Nat × Nat :=
  let b := min bulk (max (credits * share / 16) (credits - data))
  if data + bulk ≤ credits then (data, bulk) else (min data (credits - b), b)

/-- Spare credits drawn in turn: in each round every member that still asks takes the same number, the last credits one each in
order (R356, log 105). Answers what each takes. -/
def drawSpare : (rounds : Nat) → (spare : Nat) → (needs : List Nat) → List Nat
  | 0, _, ns => ns.map (fun _ => 0)
  | n + 1, spare, ns =>
    let asking := (ns.filter (fun x => decide (0 < x))).length
    if asking = 0 ∨ spare = 0 then ns.map (fun _ => 0)
    else if spare < asking then
      (ns.foldl (fun (a : List Nat × Nat) x => if 0 < x ∧ 0 < a.2 then (a.1 ++ [1], a.2 - 1) else (a.1 ++ [0], a.2)) ([], spare)).1
    else
      let each := spare / asking
      let got := ns.map (fun x => min x each)
      let more := drawSpare n (spare - got.sum) ((ns.zip got).map (fun e => e.1 - e.2))
      (got.zip more).map (fun e => e.1 + e.2)

/-- What a member asked of a resource below 4: the lines that transfers moved, and what waited beside them. -/
def State.tollAsks (s : State) (asks : List TollAsk) (r : Nat) : List TollAsk :=
  ((List.range 33).map (fun m =>
    let moved := Map.get (0, 0) s.pci.moved (tollSel m r)
    let xs := asks.filter (fun a => a.resource == r && a.member == m)
    ⟨m, r, moved.1 + (xs.map TollAsk.data).sum, moved.2 + (xs.map TollAsk.bulk).sum⟩)).filter (fun a => decide (0 < a.data + a.bulk))

/-- A resource's period ends (R356): each member uses its own credits, what it does not need goes to the spare, and those that
ask for more draw on the spare in turn; who finds neither waits for the refill. -/
def State.tollPeriod (s : State) (asks : List TollAsk) (r : Nat) : State :=
  let xs := s.tollAsks asks r
  let credits := fun m => s.fget (Reg.tollGrantCredits.sel (tollSel m r))
  let use := xs.map (fun a => tollOwn (credits a.member) (s.bulkShare a.member) a.data a.bulk)
  let own := use.map (fun u => u.1 + u.2)
  let left := ((List.range 33).map (fun m => credits m)).sum - own.sum
  let needs := (xs.zip own).map (fun e => e.1.data + e.1.bulk - e.2)
  let spare := drawSpare 34 (left + ceilDiv (Map.get 0 s.pci.spare r) 64) needs
  let s := { s with pci := { s.pci with
    served := (xs.zip use).foldl (fun m (e : TollAsk × Nat × Nat) => Map.set (0, 0) m (tollSel e.1.member r) e.2) s.pci.served } }
  s.each (xs.zip (own.zip (needs.zip spare))) (fun s e =>
    let k := tollSel e.1.member r
    let s := (s.bumpBy (Reg.tollUsed.sel k) e.2.1).bumpBy (Reg.tollSpare.sel k) e.2.2.2
    if e.2.2.2 < e.2.2.1 then s.bump (Reg.tollStarved.sel k) else s)

/-- A port's period ends: a member whose lines wait for credit is starved. -/
def State.portPeriod (s : State) (p : Nat) : State :=
  let x := s.port p
  s.each ((List.range 33).filter (fun m =>
    s.linkUp p && x.waiting.any (fun k => k.member == some m && x.room k && !s.hasCredit p k)))
    (fun s m => s.bump (Reg.tollStarved.sel (tollSel m (4 + p))))

/-- The credits of the coming period, and the remainder that begins its spare, in bytes (R355). -/
def State.tollDivide (s : State) (r : Nat) : State :=
  let cap := s.tollCapacity r
  let got := (List.range 33).map (fun m => s.tollCredits r m)
  let s := s.each (List.range 33) (fun s m => s.fset (Reg.tollGrantCredits.sel (tollSel m r)) (got.getD m 0))
  { s with pci := { s.pci with
    left := (List.range 33).foldl (fun l m => Map.set 0 l (tollSel m r) (got.getD m 0)) s.pci.left,
    bulkUsed := s.pci.bulkUsed.filter (fun e => e.1 / 256 != r),
    moved := s.pci.moved.filter (fun e => e.1 / 256 != r),
    spare := Map.set 0 s.pci.spare r (cap - 64 * got.sum) } }

/-- TOLLGATE_REFILL (R355 to R357): the period that ends, as `asks` says what waited in it beside what the model moved (member,
resource 0 to 3, DATA lines, BULK lines); then every resource's capacity is divided for the coming one, and the ports go on. -/
def execTollgateRefill (asks : List (Nat × Nat × Nat × Nat)) (s : State) : Host.Outcome State Fault Refusal :=
  let xs : List TollAsk := asks.map (fun a => ⟨a.1, a.2.1, a.2.2.1, a.2.2.2⟩)
  let s := (s.each (List.range 4) (fun s r => s.tollPeriod xs r)).each (List.range 6) State.portPeriod
  let s := s.each (List.range 10) State.tollDivide
  .next (s.each (List.range 6) (fun s p => (s.setPort p { s.port p with transit := 0 }).drainPort p))

/-! ### Re-admission (R320, R322) -/

/-- This package has been re-admitted: its quarantine ends and its partitions stay quiesced until the host returns them. -/
def State.packageReadmitted (s : State) : State :=
  let s := (s.clear Reg.torStatusQuarantine).updateHealth
  s.each (List.range 32) (fun s p => if s.inService p then s.askQuiesce p (s.partGet p).cause false else s)

/-- A revocation entry is removed by a re-admission of the unit that it names. -/
def State.readmitted (s : State) (r : Rev) : State :=
  let s := s.dropRevs (· == r)
  if r.pos ≠ s.position ∨ r.inc ≠ s.incarnation r.unit then s else
  let s := s.readmitOwn r.unit
  if r.unit = unitPackage then s.packageReadmitted else s

/-- Body of a READMIT message. -/
def readmitBody (r : Rev) (new : Nat) : List Nat :=
  leBytes 2 r.pos ++ [0, 0] ++ leBytes 4 r.unit ++ leBytes 4 r.inc ++ leBytes 4 new

/-- TOR_READMIT (R320, R322): physical function 0 re-admits the package or port of an entry with a new incarnation. -/
def execTorReadmit (entry : Nat) (s : State) : Host.Outcome State Fault Refusal :=
  let s := s.fset Reg.torReadmitEntry entry
  match Map.get none s.torus.revs entry with
  | none => .next s
  | some r =>
    if 1 < r.unit / 2 ^ 28 ∨ r.inc % 256 = 255 ∨ s.coreHalted 4 then .next s else
    .next ((s.readmitted r).floodNew 0x05 (readmitBody r (r.inc + 1)))

/-- READMIT (R320): the entry goes, and the message is forwarded once. -/
def execReadmit (p : Nat) (ok : Bool) (h : CtrlHdr) (pos unit inc new : Nat) (s : State) : Host.Outcome State Fault Refusal :=
  let r : Rev := { pos := pos, unit := unit, inc := inc }
  .next (s.ctrlIn p ok 0x05 h (readmitBody r new) (fun s =>
    (s.inOrder h [0x03, pos, unit] (fun s => s.readmitted r)).flood 0x05 h (some p) (readmitBody r new)))

end Sys2Proof.Machine
end

