-- ==== Sys2Proof/Machine/Volz.lean ====
section
/-!
DEFINITION. The VOLZ block (R32, R37 to R54): pulls and copies into the INCOMING half, the checks, the boot slot's choice and
its fallback, partial loads and their commit, the RUNNING half and the digests.
-/
namespace Sys2Proof.Machine

/-! ### The staging area (R32, R43) -/

/-- The 96-byte header of a section (R28). -/
def Sect.header (x : Sect) : List Nat :=
  leBytes 2 x.type ++ leBytes 2 x.version ++ leBytes 2 x.flags ++ [0, 0] ++ leBytes 4 x.scope ++ leBytes 4 x.body.length ++
  zeros 16 ++ padTo 64 x.digest

/-- A section as the RUNNING half holds it, on a 64-byte boundary. -/
def Sect.copy (x : Sect) : List Nat := padTo (up64 (96 + x.body.length)) (x.header ++ x.body)

/-- The running configuration digest of a set of sections (R51). -/
def runDigestOf (cfg : List Sect) : List Nat := Config.shake256 ((cfg.map Sect.header).flatten)

/-- The running configuration digest as the device reports it: zeros before a commit and in paddock mode (R52). -/
def State.reportedDigest (s : State) : List Nat := if s.paddock then zeros 64 else padTo 64 s.volz.runDigest

/-- VOLZ_SECT registers of the section that VOLZ_SECT_SEL selects (R54), and the digests. In paddock mode VOLZ_RUN_DIGEST shows
the zeros that the device reports (DESIGN CHOICE, log 119). -/
def State.showVolz (s : State) : State :=
  let n := s.volz.running.length
  let s := (s.fset Reg.volzSectCount n).fset Reg.volzSvnMin s.nv.minVolz
  let s := s.fsetWords Reg.volzRunDigest 0 (wordsOf 16 s.reportedDigest)
  let s := s.fsetWords Reg.volzImageDigest 0 (wordsOf 16 (padTo 64 s.volz.imageDigest))
  match s.volz.running[s.fget Reg.volzSectSelIndex]? with
  | some x =>
    let s := (s.fset Reg.volzSectInfoType x.type).fset Reg.volzSectInfoScope (if x.scope = pkgScope then 0xFF else x.scope)
    let s := (s.fput Reg.volzSectInfoIgnored x.ignored).fset Reg.volzSectLen x.body.length
    s.fsetWords Reg.volzSectDigest 0 (wordsOf 16 (padTo 64 x.digest))
  | none =>
    let s := (s.fset Reg.volzSectInfoType 0).fset Reg.volzSectInfoScope 0
    ((s.fset Reg.volzSectInfoIgnored 0).fset Reg.volzSectLen 0).fsetWords Reg.volzSectDigest 0 (zeros 16)

/-- A set of sections becomes the running configuration: the RUNNING half and VOLZ_RUN_DIGEST follow (R43, R46, R51). -/
def State.runSections (s : State) (cfg : List Sect) : State :=
  let s := { s with volz := { s.volz with running := cfg, runDigest := runDigestOf cfg } }
  (s.writeThrough unitPackage runningAddr ((cfg.map Sect.copy).flatten)).showVolz

/-- An image arrives in the INCOMING half and its check begins (R42). -/
def State.takeImage (s : State) (b : List Nat) : State :=
  let s := { s with volz := { s.volz with incoming := b } }
  (s.writeThrough unitPackage incomingAddr b).fset Reg.volzStatusState vzVerify

/-! ### The failed-start marker and the boot slot (R39, R430, R431) -/

/-- The bytes of a Volzal slot: 0 A, 1 B; none when EMPTY. -/
def Nv.volzSlot (n : Nv) (i : Nat) : Option (List Nat) := if i = 0 then n.volzA else n.volzB

/-- The previous start failed after IMAGE_LOAD began with the slot that now carries TRIAL (R39). -/
def Nv.trialFailed (n : Nv) : Bool :=
  match n.attempt, n.volzTrial with
  | some a, some t => a.2.1 && a.1 == t
  | _, _ => false

/-- The Volzal slot that this start loads first, and whether as the trial slot (R39 items 1 to 3). -/
def Nv.firstSlot (n : Nv) : Nat × Bool :=
  match n.volzTrial with
  | some t => if n.trialFailed then (n.volzActive, false) else (t, true)
  | none => (n.volzActive, false)

/-- NV_STATUS (R450). -/
def State.showNv (s : State) : State :=
  let n := s.nv
  let two := fun (a b : Option (List Nat)) => bitWord [a.isSome, b.isSome]
  let mark := fun (t : Option Nat) => match t with | some i => i + 1 | none => 0
  let s := (s.fset Reg.nvStatusVolzValid (two n.volzA n.volzB)).fset Reg.nvStatusFwValid (two n.fwA n.fwB)
  let s := (s.fput Reg.nvStatusUserPresent n.userNv.isSome).fset Reg.nvStatusVolzActive n.volzActive
  let s := (s.fset Reg.nvStatusVolzTrial (mark n.volzTrial)).fset Reg.nvStatusFwActive n.fwActive
  let s := (s.fset Reg.nvStatusFwTrial (mark n.fwTrial)).fput Reg.nvStatusTempOk s.nvOk
  (s.fput Reg.nvStatusBusy (s.sec.nvCmd.isSome || s.safety.nvOpen.isSome)).fset Reg.rstStartCount n.startCount

/-- The marker of R430 item 2: FAIL_COUNT + 1 and LAST_ATTEMPT, once per start and only inside the window of R407. The slot
about to be loaded is chosen with it; a failed trial loses its TRIAL mark. -/
def State.tryMark (s : State) : State :=
  if s.boot.marked || !s.nvOk then s else
  let n := s.nv
  let host := s.bootSrc == 1
  let lost := !host && n.trialFailed
  let pick := if host then (2, false) else n.firstSlot
  let fw := s.boot.fwSlot.getD 0
  let nv := { n with
    failCount := n.failCount + 1, volzTrial := if lost then none else n.volzTrial,
    fwTrial := if s.flag Reg.nvStatusFwTrialFailed then none else n.fwTrial,
    attempt := some (pick.1, pick.2, fw, n.fwTrial == some fw) }
  let s := { s with nv := nv, boot := { s.boot with marked := true, imgSlot := pick.1 } }
  ((if lost then s.raise Reg.volzStatusTrialFailed else s).showFailCount).showNv

/-- A boot slot's image is copied into the INCOMING half, to be checked. -/
def State.loadSlot (s : State) (i : Nat) : State :=
  let b := (s.nv.volzSlot i).getD []
  { s with volz := { s.volz with kind := some (if i = 0 then .slotA else .slotB), len := b.length },
           boot := { s.boot with imgSlot := i } }.takeImage b

/-- In IMAGE_LOAD, outside paddock mode. -/
def State.imageLoad (s : State) : Bool := s.stage == stImageLoad && !s.paddock

/-- IMAGE_LOAD_SLOT (R39, R42, R430): the slot first chosen is loaded, once the marker stands. -/
def execImageLoadSlot (s : State) : Host.Outcome State Fault Refusal :=
  if !s.imageLoad || s.bootSrc == 1 || s.volz.kind.isSome || !s.boot.imgRefused.isEmpty then .next s else
  let s := s.tryMark
  .next (if s.boot.marked then s.loadSlot s.boot.imgSlot else s)

/-- A boot slot has been refused: the other one is tried, or the start fails with this refusal's code (R39 item 4). -/
def State.slotRefused (s : State) (v : Verdict) : State :=
  let i := s.boot.imgSlot
  let first := s.boot.imgRefused.isEmpty
  let s := { s with boot := { s.boot with imgRefused := s.boot.imgRefused ++ [i] },
                    volz := { s.volz with kind := none, parsed := [] } }
  let s := ((s.fset Reg.volzResultCode v.1).fset Reg.volzResultSection v.2).raise Reg.volzEventRefused
  if first then (s.raise Reg.volzStatusFallback).loadSlot (1 - i)
  else (s.fset Reg.volzStatusState vzIdle).enterPaddock 2 v.1

/-! ### VOLZ_CTRL (R41, R44, R45, R47) -/

/-- A pull begins. -/
def State.startPull (s : State) (k : LoadKind) : State :=
  let src := s.fget Reg.volzSrcLo * 64 + s.fget Reg.volzSrcHi * 2 ^ 32
  { s with volz := { s.volz with kind := some k, src := src, len := s.fget Reg.volzLen } }.fset Reg.volzStatusState vzPull

/-- An idle VOLZ block. -/
def State.volzIdle (s : State) : Bool := s.fget Reg.volzStatusState == vzIdle

/-- VOLZ_FULL (R41): CMD FULL, in IMAGE_LOAD with boot source HOST. While a load already runs it is ignored: R47's BUSY is said of
PARTIAL alone (DESIGN CHOICE, log 85). The command carries no PART, and VOLZ_CTRL.PART stays (DESIGN CHOICE, log 122). -/
def execVolzFull (s : State) : Host.Outcome State Fault Refusal :=
  if !s.imageLoad || s.bootSrc != 1 || !s.volzIdle then .next s else
  if 0x10000000 < s.fget Reg.volzLen then .next (s.volzRefuse (vrTooLarge, noSection)) else
  .next (s.tryMark.startPull .host)

/-- What a PARTIAL command is refused with at the write; 0 where it is accepted (R45). -/
def State.partialCheck (s : State) (p : Nat) : Nat :=
  if !s.volzIdle then vrBusy else if !s.ready then vrNotReady
  else if (s.partGet p).st = .undef then vrScope else if (s.partGet p).st ≠ .quiesced then vrNotQuiesced
  else if 0x10000000 < s.fget Reg.volzLen then vrTooLarge else 0

/-- VOLZ_PARTIAL (R44, R45, R47): CMD PARTIAL with PART. A BUSY refusal leaves the running load alone. A refusal at
the write leaves LOAD_PART at the last load that was accepted (DESIGN CHOICE, log 122). -/
def execVolzPartial (part : Nat) (s : State) : Host.Outcome State Fault Refusal :=
  let p := part % 32
  let s := s.fset Reg.volzCtrlPart p
  let code := s.partialCheck p
  if code = vrBusy then
    .next (((s.fset Reg.volzResultCode code).fset Reg.volzResultSection noSection).raise Reg.volzEventRefused |>.pkgEvent .volz)
  else if code ≠ 0 then .next (s.volzRefuse (code, noSection))
  else .next ((s.fset Reg.volzStatusLoadPart p).startPull (.part p))

/-- The partition of a partial load is free again: a RETURN that waited proceeds (R48). -/
def State.freePart (s : State) (k : Option LoadKind) : State :=
  match k with | some (.part p) => s.resumeReturn p | _ => s

/-- A load ends without commit. -/
def State.volzFail (s : State) (v : Verdict) : State :=
  match s.volz.kind with
  | some .slotA | some .slotB => s.slotRefused v
  | k => (s.volzRefuse v).freePart k

/-- VOLZ_ABORT (R47): CMD ABORT; no effect when no load runs. VOLZ_CTRL.PART stays (DESIGN CHOICE, log 122). -/
def execVolzAbort (s : State) : Host.Outcome State Fault Refusal :=
  if s.volzIdle then .next s else .next (s.volzFail (vrAborted, noSection))

/-- VOLZ_PULL_COMPLETE (R38, R42): the pull has ended, with an error or with the bytes that came. Nothing is pulled before the
marker of R430 stands. -/
def execVolzPullComplete (err : Bool) (bytes : List Nat) (s : State) : Host.Outcome State Fault Refusal :=
  if s.fget Reg.volzStatusState ≠ vzPull then .next s else
  let s := if s.volz.kind = some .host then s.tryMark else s
  if s.volz.kind = some .host ∧ !s.boot.marked then .next s else
  if s.dmaError err then .next (s.volzFail (vrDma, noSection)) else
  if s.volz.len < bytes.length then .next (s.volzFail (vrTooLarge, noSection)) else
  .next ((s.charge 32 true bytes.length [2, 1]).takeImage (padTo s.volz.len (bytes.map (· % 256))))

/-! ### The checks, and the commit of a partial load (R37, R43, R46, R526) -/

/-- The verdict on the image in the INCOMING half. -/
def State.volzVerdict (s : State) : Verdict :=
  match s.volz.kind with
  | some (.part p) => s.checkPartial p s.volz.incoming s.volz.len
  | _ => s.checkBoot s.volz.incoming s.volz.len

/-- VOLZ_VERIFY_COMPLETE (R37, R39, R41): the first failure refuses the image; an accepted one waits for its commit. -/
def execVolzVerifyComplete (s : State) : Host.Outcome State Fault Refusal :=
  if s.fget Reg.volzStatusState ≠ vzVerify then .next s else
  let v := s.volzVerdict
  if v.1 ≠ vrDone then .next (s.volzFail v) else
  .next ({ s with volz := { s.volz with parsed := imageSections s.volz.incoming } }.fset Reg.volzStatusState vzApply)

/-- The layout of a partition's slices is made anew over the banks that are not retired (R526). -/
def State.relayout (s : State) (p : Nat) : State :=
  let mine := fun (b : Nat) => s.ownsString p (b / 224)
  { s with volz := { s.volz with laidOut := s.volz.laidOut.filter (fun b => !mine b) ++ s.nv.banks.filter mine } }

/-- A load commits: RESULT, EVENT and the VOLZ event (R50). -/
def State.volzDone (s : State) : State :=
  let s := { s with volz := { s.volz with kind := none, parsed := [] } }
  let s := (s.fset Reg.volzStatusState vzIdle).fset Reg.volzResultCode vrDone
  ((s.fset Reg.volzResultSection noSection).raise Reg.volzEventDone).pkgEvent .volz

/-- Loads of staged weights that the old harness began are forgotten. -/
def State.dropLoading (s : State) (p : Nat) : State :=
  s.each (s.stringsOf p) (fun s x => s.setSeqr x { s.seq x with loading := [] })

/-- VOLZ_COMMIT (R46): the partial load that has passed every check replaces the partition's sections; a HELLO tells the
neighbours of the new digest (R304). A load that still ran when paddock mode was entered goes on and commits: R45's NOT_READY
is judged at the command alone (DESIGN CHOICE, log 86). -/
def execVolzCommit (s : State) : Host.Outcome State Fault Refusal :=
  match s.volz.kind with
  | some (.part p) =>
    if s.fget Reg.volzStatusState ≠ vzApply then .next s else
    let s := (s.runSections (replaceSections s.volz.running s.volz.parsed)).relayout p
    let s := ((s.dropLoading p).copyPrograms p).each (List.range 6) State.sendHello
    .next (s.volzDone.resumeReturn p)
  | _ => .next s

end Sys2Proof.Machine
end

