-- ==== Sys2Proof/Machine/Boot.lean ====
section
/-!
DEFINITION. Reset, the stages of a start, failed starts, READY (R423 to R435), the non-volatile store (R436 to R443), identity,
ownership and attestation (R444 to R448).
-/
namespace Sys2Proof.Machine

/-! ### Reset (R298, R423 to R426, R436, R437, R507) -/

/-- What the store holds once writes that had not been made are lost (R285, R437). -/
def Nv.afterLoss (n : Nv) (waits : List (Nat × Nat)) : Nv :=
  { n with units := n.units.filter (fun u => !waits.contains (0, u)), banks := n.banks.filter (fun b => !waits.contains (1, b)) }

/-- A reset during IMAGE_LOAD or later of a start that had not reached READY, or had not yet cleared its marker (R430,
R431): the next start shows RESET_IN_LOAD. -/
def State.resetInLoad (s : State) : Bool := s.boot.marked && s.nv.attempt.isSome && !s.paddock

/-- Reset clears everything but the store, the power controller's own state, and what is no state of the device: the queue,
what has been sent, and cells that have gone bad (R425). `tap`: the test access port keeps its instruction (R485). -/
def State.cleared (s : State) (tap : Bool) : State :=
  let n := s.freeCount
  { State.reset with
    pending := s.pending, out := s.out, freeCount := n + 3, nv := s.nv.afterLoss s.retireWaits, hardBlocks := s.hardBlocks,
    tiles := (s.tiles.filter (fun e => !e.2.hard.isEmpty)).map (fun e => (e.1, { hard := e.2.hard })),
    sec := { challenge := randomBytes n }, safety := { challenge := randomBytes (n + 2) },
    dbgState :=
      if tap then
        { challenge := randomBytes (n + 1), ir := s.dbgState.ir, boundary := s.dbgState.boundary, driving := s.dbgState.driving,
          access := s.dbgState.access }
      else { challenge := randomBytes (n + 1) } }

/-- A reset with its cause: 0 POWER_ON, 1 PERST. Causeways that are not CLOSED go to CLOSING (R298). -/
def State.resets (s : State) (cause : Nat) : State :=
  let t := s.railsOff.cleared (cause == 1)
  let t := (t.fset Reg.rstStatusStage stPor).fset Reg.rstStatusCause cause
  let t := t.fset Reg.rstStatusReason (if s.resetInLoad then 3 else s.fget Reg.rstStatusReason * (if s.stage = stPor then 1 else 0))
  t.each [0, 1, 2] (fun t a => t.setCway a (if s.cway a = cwClosed then cwClosed else cwClosing))

/-- PERST_N_ASSERT (R424): a low pulse of a number of nanoseconds; one shorter than 1 µs is ignored. -/
def execPerstNAssert (ns : Nat) (s : State) : Host.Outcome State Fault Refusal := .next (if ns < 1000 then s else s.resets 1)

/-- POWER_ON_DETECT (R423, R512). -/
def execPowerOnDetect (s : State) : Host.Outcome State Fault Refusal := .next (s.resets 0)

/-- A command of the store that is interrupted: a firmware or Volzal slot being written stands EMPTY already (R437). -/
def State.dropNvCmd (s : State) : State :=
  { s with sec := { s.sec with nvCmd := none }, safety := { s.safety with nvOpen := none } }.showNv

/-- RAIL_POWER_LOSS (R298, R507): rail `k` is lost; causeways close passively, and what was being written is not. -/
def execRailPowerLoss (k : Nat) (s : State) : Host.Outcome State Fault Refusal :=
  let s := s.setRail k (s.rail k).off
  let s := s.each [0, 1, 2] (fun s a => if s.cway a = cwClosed then s else (s.each [2 * a, 2 * a + 1] State.darken).setCway a cwClosed)
  .next s.dropNvCmd

/-- INTERNAL_RESET_END (R424, R427, R485): t0 of a start; the test port returns to IDCODE. -/
def execInternalResetEnd (s : State) : Host.Outcome State Fault Refusal :=
  if s.stage ≠ stPor then .next s else
  let s := { s with now := 0, dbgState := { s.dbgState with ir := 1, driving := false } }
  .next ((s.fset Reg.clkStatusPllLock 1).fset Reg.rstStatusStage stRom)

/-! ### The firmware slots (R439, R441) -/

/-- The bytes of a firmware slot: 0 A, 1 B. -/
def Nv.fwSlotBytes (n : Nv) (i : Nat) : Option (List Nat) := if i = 0 then n.fwA else n.fwB

/-- The previous start failed with the firmware slot that now carries TRIAL. -/
def Nv.fwTrialLost (n : Nv) : Bool :=
  match n.attempt, n.fwTrial with
  | some a, some t => a.2.2.2 && a.2.2.1 == t
  | _, _ => false

/-- What of the store the registers show: marks, counts, ownership and identity. -/
def State.showStore (s : State) : State :=
  let n := s.nv
  let s := (s.showNv.showFailCount).fset Reg.rstStatusFailLimit s.failLimit
  let s := (s.fset Reg.secIdentityLo (field n.identity 0 4)).fset Reg.secIdentityHi (field n.identity 4 4)
  let kid := if n.ownerKey.isEmpty then zeros 8 else keyId n.ownerKey
  let s := (s.fset Reg.secOwnerIdLo (field kid 0 4)).fset Reg.secOwnerIdHi (field kid 4 4)
  let s := (s.fput Reg.secStatusOwner (!n.ownerKey.isEmpty)).fset Reg.secCertLen n.cert.length
  (s.fput Reg.secStatusBusy s.sec.cmd.isSome).fsetWords Reg.secChallenge 0 (wordsOf 8 s.sec.challenge)

/-- Both firmware slots are refused: the ROM's own paddock service. -/
def State.romPaddock (s : State) : State :=
  ({ s with boot := { s.boot with romPaddock := true, fwSlot := none, fwDigest := zeros 64 } }.enterPaddock 2 0).showStore

/-- ROM_STAGE_END (R439): a trial that has failed loses its mark, here or, outside the window of R407, with the marker of
IMAGE_LOAD; the TRIAL slot, or the ACTIVE one where there is no trial or it has failed. -/
def execRomStageEnd (s : State) : Host.Outcome State Fault Refusal :=
  if s.stage ≠ stRom ∨ s.paddock then .next s else
  if s.nv.fwA.isNone ∧ s.nv.fwB.isNone then .next s.romPaddock else
  let lost := s.nv.fwTrialLost
  let pick := if lost then s.nv.fwActive else s.nv.fwTrial.getD s.nv.fwActive
  let s := if lost then s.raise Reg.nvStatusFwTrialFailed else s
  let s := if lost && s.nvOk then { s with nv := { s.nv with fwTrial := none } } else s
  .next ({ s with boot := { s.boot with fwSlot := some pick } }.fset Reg.rstStatusStage stFwVerify)

/-- FW_VERIFY_END (R439, R441): the slot's image is accepted, or the other slot is tried, or the ROM enters paddock mode. -/
def execFwVerifyEnd (s : State) : Host.Outcome State Fault Refusal :=
  if s.stage ≠ stFwVerify ∨ s.paddock then .next s else
  let i := s.boot.fwSlot.getD 0
  let b := (s.nv.fwSlotBytes i).getD []
  if s.checkFw b b.length = 0 then
    let total := field b 0x18 4
    let s := { s with boot := { s.boot with fwDigest := slice b (total - 3388) 64, fwSvn := field b 0x10 4 } }
    .next ((s.raise Reg.safeStatusCc6Ok).fset Reg.rstStatusStage stNvLoad)
  else
    let s := { s with boot := { s.boot with fwRefused := s.boot.fwRefused ++ [i] } }
    if s.boot.fwRefused.contains (1 - i) then .next s.romPaddock
    else .next { s with boot := { s.boot with fwSlot := some (1 - i) } }

/-! ### NV_LOAD (R133, R285, R404, R410, R430, R433, R443) -/

/-- A team takes its part of the retirement record. -/
def Team.fromRecord (x : Team) (r : FarrRec) : Team :=
  { x with roles := r.roles, retired := r.retired, bypass := r.bypass, cols := r.cols, pendingRetire := r.pending }

/-- The retirement record is applied. -/
def State.applyFarrier (s : State) : State :=
  s.each s.nv.farrier (fun s e => ((s.setTeam e.1 ((s.team e.1).fromRecord e.2)).showRepair e.1).showRoles e.1 |>.showTeam e.1)

/-- The ageing plan of the studbook is in force. -/
def State.applyPlan (s : State) : State :=
  let s := { s with thermal := { s.thermal with plan := s.nv.plan } }
  let s := s.each (List.range 33) (fun s m => s.showAge m (s.planValue m))
  (s.fset Reg.thrmLifeConsumed s.nv.life).fput Reg.thrmStatusEol s.nv.eol

/-- The start count rises; a trip that the power controller has kept is counted. -/
def Nv.countStart (n : Nv) : Nv :=
  { n with startCount := (n.startCount + 1) % 2 ^ 32, trips := n.trips + (if n.tripOwed then 1 else 0), tripOwed := false }

/-- The user NV image is checked; none, or a refused one, leaves the factory defaults (R442, R443). -/
def State.loadUser (s : State) : State × Bool :=
  match s.nv.userNv with
  | none => (s, true)
  | some b =>
    if s.checkUserNv b ≠ 0 then (s, false)
    else ({ s with boot := { s.boot with user := b, nvDigest := slice b 708 64, nvSvn := field b 8 4 } }, true)

/-- NV_LOAD_END: waits for the window of R407; then the start is counted, the user NV image checked, and what the studbook
holds applied. -/
def execNvLoadEnd (s : State) : Host.Outcome State Fault Refusal :=
  if s.stage ≠ stNvLoad ∨ s.paddock ∨ !s.nvOk then .next s else
  let s := { s with nv := s.nv.countStart }
  let u := s.loadUser
  let s := ((u.1.applyFarrier).applyPlan).showRetired
  let s := ((s.showStore).showIncs).fset Reg.torPosPos s.position
  if !u.2 then .next (s.enterPaddock 2 0)
  else if s.failLimit ≤ s.nv.failCount then .next (s.enterPaddock 4 0)
  else .next ((s.fset Reg.rstStatusStage stPinsSet).updateHealth)

/-! ### PINS_SET to LINKS_UP (R376, R396, R406, R426, R427, R518) -/

/-- Pins take the PINS group over the factory defaults. -/
def State.setPins (s : State) : State :=
  let cfg := (List.range 16).map (fun i => s.userCfg 3 (128 + i) 1 0x08)
  let pins := { s.pins with configured := true, gpioCfg := cfg, statusOd := s.userCfg 3 146 1 0, drive := s.userCfg 3 147 1 0 }
  let s := { s with pins := pins }.fset Reg.hubGpioOutLevel (s.userCfg 3 144 2 0)
  { s with pins := { s.pins with status := s.statusValue } }

/-- PINS_SET_END: pins, the ADC sequence, and the commanded rails turned on; the last RAIL_GOOD moves the start on. -/
def execPinsSetEnd (s : State) : Host.Outcome State Fault Refusal :=
  if s.stage ≠ stPinsSet ∨ s.paddock ∨ s.pins.configured then .next s else .next ((s.setPins.loadAdc).startRails)

/-- DRAM_UP_END: the stacks are initialised and trained; in LINKS_UP the management port negotiates (R475). -/
def execDramUpEnd (s : State) : Host.Outcome State Fault Refusal :=
  if s.stage ≠ stDramUp ∨ s.paddock then .next s else
  .next (((s.fset Reg.dramStatusStacksUp 0xFF).fset Reg.rstStatusStage stLinksUp).send (.portOffer (!s.kxOnly)))

/-- The reports that waited while the port was down are sent (R480). -/
def State.sendWaiting (s : State) : State :=
  if !s.safety.portUp || !s.cc6Runs then s else
  let ws := s.safety.reports.filter (fun r => r.sends == 0)
  let s := s.each ws (fun s r => ((s.mgmtSend 0x02 r.body).bump Reg.safeReports))
  s.setReports (s.safety.reports.map (fun r => if r.sends = 0 then { r with sends := 1 } else r))

/-- The management port is up. -/
def State.mgmtUp (s : State) : State := { s with safety := { s.safety with portUp := true } }.sendWaiting

/-- LINKS_UP_END (R427, R430): the management port is up; IMAGE_LOAD begins with the failed-start marker. -/
def execLinksUpEnd (s : State) : Host.Outcome State Fault Refusal :=
  if s.stage ≠ stLinksUp ∨ s.paddock then .next s else
  let s := (s.mgmtUp.fset Reg.rstStatusStage stImageLoad).fset Reg.volzStatusBootSrc 3
  .next s.reSource.tryMark

/-! ### IMAGE_LOAD_END (R42, R43, R51, R348, R361, R363, R378, R390, R417, R502, R526) -/

/-- What the header of the boot image gives. -/
def State.takeHeader (s : State) : State :=
  let b := s.volz.incoming
  let v := { s.volz with
    bootSvn := field b 0x18 4, bootSerial := field b 0x1C 4, installation := slice b 0x20 16,
    raiseSvn := (field b 0x0E 2).testBit 1, imageDigest := slice b (field b 8 4 - 3388) 64, laidOut := s.nv.banks }
  let s := { s with volz := v }
  ((s.fset Reg.volzImageSvn v.bootSvn).fset Reg.volzImageSerial v.bootSerial).fset Reg.volzStatusBootSrc s.boot.imgSlot

/-- Registers that take the image's values. -/
def State.imageRegs (s : State) : State :=
  let s := (s.fput Reg.clkStatusGait s.openGait).fset Reg.brdlCapCap (s.limitCfg 0 2 1200)
  let s := (s.fset Reg.brdlCapCapMax s.capMax).fset Reg.reinStatusFloor s.reinFloor
  let s := s.traceRegs
  s.fset Reg.torPosDimM1 ((s.dim 0 - 1) + 16 * (s.dim 1 - 1) + 256 * (s.dim 2 - 1))

/-- The moderation intervals of R361. -/
def State.imageMods (s : State) : State :=
  let m := min 1000 (s.partCfg 10 2 0)
  let s := s.each (List.range 64) (fun s i => s.fset (Reg.pciModInterval.nth i) m)
  s.each (List.range 32) (fun s p => if s.partStrings p = 0 then s else
    s.each (List.range 62) (fun s i => s.fset ((Reg.partVModInterval.vf p).nth i) m))

/-- TOLL_WEIGHT of every member and resource (R363). -/
def State.imageWeights (s : State) : State :=
  s.each (List.range 33) (fun s m => s.each (List.range 10) (fun s r =>
    (s.fset (Reg.tollWeightWeight.sel (tollSel m r)) (s.tollWeight m r)).fset (Reg.tollWeightBulkShare.sel (tollSel m r))
      (if m = 32 then 0 else s.partRec m 18 1)))

/-- Every defined partition stands QUIESCED with its programs in place. -/
def State.definePartitions (s : State) : State :=
  s.each ((List.range 32).filter (fun p => s.partStrings p != 0)) (fun s p =>
    (s.copyPrograms p).enterPart p { ({} : Part) with st := .quiesced, cause := 1 })

/-- IMAGE_LOAD_END: the accepted boot image is committed. -/
def execImageLoadEnd (s : State) : Host.Outcome State Fault Refusal :=
  if !s.imageLoad || s.fget Reg.volzStatusState != vzApply then .next s else
  let s := (s.takeHeader).runSections s.volz.parsed
  let s := ((s.imageRegs).imageMods).imageWeights
  let s := ((s.definePartitions).reSource).volzDone
  .next ((s.fset Reg.rstStatusStage stSelfCal).updateHealth)

/-! ### SELF_CAL and CAUSEWAY_OPEN (R121, R298, R308, R427) -/

/-- One tile has been calibrated in place, with the ROM patterns in its planes; without CALREF its trims follow the median rule. -/
def State.selfCal (s : State) (f : SelfFit) : State :=
  let t := f.team
  let k := f.tile
  let s := s.setTile t k (s.tile t k).patterned
  let w := s.setWin t k f.win
  let d := if s.calMode = 0 then ((f.delay, w.1), w.2) else s.medianTrims t k f.delay
  let s := d.2
  let old := (s.tile t k).cal
  let v := fittedSet old.active f.fits d.1.1 d.1.2
  let abrupt := abruptColumns old.active f.fits
  let due := s.dueRemaps t k f.fits f.noisy f.stuck
  let poor := !(fitConditions old f.fits f.noisy f.stuck).isEmpty
  let s := if poor then s.raise (Reg.calErrFitPoor.team t) else s
  let s := (s.setTileCal t k { old with abrupt := abrupt, resid := min 255 f.resid }).remapDue t k due
  (s.completeCal t k s.calMode v (!abrupt.isEmpty)).showTeam t

/-- The causeways that have a port in use are driven open (R298). -/
def State.openCauseways (s : State) : State :=
  s.each [0, 1, 2] (fun s a => if s.policy (2 * a) = 0 ∧ s.policy (2 * a + 1) = 0 then s else s.openCway a)

/-- SELF_CAL_END: what each tile's calibration gave. -/
def execSelfCalEnd (fits : List SelfFit) (s : State) : Host.Outcome State Fault Refusal :=
  if s.stage ≠ stSelfCal ∨ s.paddock then .next s else
  let s := s.each fits State.selfCal
  .next ((s.fset Reg.rstStatusStage stCauseway).openCauseways)

/-- Every port has a discovery outcome, or the discovery deadline has passed (R308). -/
def State.discovered (s : State) : Bool := s.flag Reg.torStatusDiscDone || s.allDecided

/-! ### READY (R40, R36, R430, R431, R441, R443) -/

/-- A firmware image has come into force: it writes its key list and revocation mask (R438, log 134). -/
def Nv.updateKeys (n : Nv) (fw : List Nat) : Nv :=
  { n with imageKeys := Config.fwImageKeys fw, debugKeys := Config.fwDebugKeys fw, keyMask := Config.fwKeyMask fw }

/-- The studbook as READY leaves it: FAIL_COUNT 0, marks moved for a trial that ran, minimum SVNs raised. -/
def State.readyNv (s : State) : Nv :=
  let n := s.nv
  let n := { n with failCount := 0, attempt := none, minFw := max n.minFw s.boot.fwSvn, minNv := max n.minNv s.boot.nvSvn }
  let n := if s.volz.raiseSvn then { n with minVolz := max n.minVolz s.volz.bootSvn } else n
  let n := if n.volzTrial = some s.boot.imgSlot ∧ s.boot.imgRefused.isEmpty then
      { n with volzActive := s.boot.imgSlot, volzTrial := none } else n
  if n.fwTrial.isSome ∧ n.fwTrial = s.boot.fwSlot ∧ s.boot.fwRefused.isEmpty then
      { n with fwActive := s.boot.fwSlot.getD 0, fwTrial := none }.updateKeys
        ((if s.boot.fwSlot = some 1 then n.fwB else n.fwA).getD []) else n

/-- The writes of READY, or what waits for the window. -/
def State.readyWrites (s : State) : State :=
  if s.nvOk then { s with nv := s.readyNv, boot := { s.boot with failPending := none } }.showStore
  else { s with boot := { s.boot with failPending := some 0 } }.showStore

/-- Capture is armed: indices and counters cleared, the settings taken, the ring restarted (R496). -/
def State.armTrace (s : State) : State :=
  let s := { s with trace := { s.trace with
    buf := [], written := 0, postLeft := 0, src := s.fget Reg.trcSrc, trig := s.fget Reg.trcTrig,
    post := clampNat 1 524288 (s.fget Reg.trcPost) } }
  let s := (s.fset Reg.trcStatusHead 0).fset Reg.trcStatusState trcRing
  (((s.clear Reg.trcWritten).clear Reg.trcLost).clear Reg.trcDropped).clear Reg.trcLateTrigs

/-- Partitions with AUTO_START that nothing holds enter service (R348). -/
def State.autoStart (s : State) : State :=
  s.each (List.range 32) (fun s p =>
    if (s.partGet p).st = .quiesced ∧ (s.partRec p 5 1).testBit 0 ∧ !s.torHeld p then s.returnPart p else s)

/-- CAUSEWAY_OPEN_END (R308, R427): the device enters READY. -/
def execCausewayOpenEnd (s : State) : Host.Outcome State Fault Refusal :=
  if s.stage ≠ stCauseway ∨ s.paddock ∨ !s.discovered then .next s else
  let s := { s with boot := { s.boot with readyAt := s.now } }.raise Reg.torStatusDiscDone
  let s := ((s.fset Reg.rstStatusStage stReady).raise Reg.rstStatusBootLock).fset64 Reg.rstReadyWayLo Reg.rstReadyWayHi s.now
  .next ((((((s.readyWrites).resetFit).retarget).armTrace).autoStart).updateHealth)

/-! ### Failed starts (R429 to R431, R435) -/

/-- START_DEADLINE_EXPIRE (R429, R434). -/
def execStartDeadlineExpire (s : State) : Host.Outcome State Fault Refusal :=
  .next (if s.stage = stPor ∨ stReady ≤ s.stage then s else s.enterPaddock 1 0)

/-- FAIL_COUNT_NV_RETRY (R430, R431): every second, a write that the window refused is tried again. -/
def execFailCountNvRetry (s : State) : Host.Outcome State Fault Refusal :=
  .next (match s.boot.failPending with
    | some v => if s.ready then s.readyWrites else s.writeFailCount v
    | none => if s.imageLoad then s.tryMark else s)

/-- R435: the next start runs its stages once more. Answers the result code of the management reply. -/
def State.retry (s : State) : Nat × State :=
  let n := s.boot.failPending.getD s.nv.failCount
  if !s.paddock then (0x04, s) else if n < s.failLimit then (0x01, s)
  else if !s.nvOk then (0x03, s.raise Reg.rstErrRetryRefused)
  else (0x01, { s with nv := { s.nv with failCount := s.failLimit - 1 }, boot := { s.boot with failPending := none } }.showFailCount)

/-- RST_RETRY (R435): RST_CTRL.RETRY. -/
def execRstRetry (s : State) : Host.Outcome State Fault Refusal := .next s.retry.2

/-! ### NV commands (R440, R450) -/

def nvDone : Nat := 0x01
def nvBusy : Nat := 0x02
def nvTemp : Nat := 0x03
def nvNotReady : Nat := 0x04
def nvFormat : Nat := 0x05
def nvDma : Nat := 0x09
def nvTooLarge : Nat := 0x0A
def nvActive : Nat := 0x0B
def nvEmpty : Nat := 0x0C

/-- A target of NV_CTRL: 0 FW_A, 1 FW_B, 2 VOLZ_A, 3 VOLZ_B, 4 USER_NV. -/
def Nv.get (n : Nv) (t : Nat) : Option (List Nat) :=
  if t = 0 then n.fwA else if t = 1 then n.fwB else if t = 2 then n.volzA else if t = 3 then n.volzB else n.userNv

def Nv.put (n : Nv) (t : Nat) (b : Option (List Nat)) : Nv :=
  if t = 0 then { n with fwA := b } else if t = 1 then { n with fwB := b } else if t = 2 then { n with volzA := b }
  else if t = 3 then { n with volzB := b } else { n with userNv := b }

/-- A slot carries the ACTIVE mark, or the TRIAL mark. -/
def Nv.isActive (n : Nv) (t : Nat) : Bool := if t < 2 then n.fwActive == t else t < 4 && n.volzActive == t - 2
def Nv.isTrial (n : Nv) (t : Nat) : Bool := if t < 2 then n.fwTrial == some t else t < 4 && n.volzTrial == some (t - 2)

/-- The TRIAL mark of a kind of slot. -/
def Nv.setTrial (n : Nv) (t : Nat) (on : Bool) : Nv :=
  if t < 2 then { n with fwTrial := if on then some t else none }
  else { n with volzTrial := if on then some (t - 2) else none }

/-- Bytes that a target holds. -/
def nvSize (t : Nat) : Nat := if t < 2 then 0x800000 else if t < 4 then 0x10000000 else 4096

/-- What a command is refused with before it starts; 0 where it is accepted. -/
def State.nvCheck (s : State) (cmd t len : Nat) : Nat :=
  if s.sec.nvCmd.isSome || s.safety.nvOpen.isSome then nvBusy
  else if !(s.ready || s.paddock) then nvNotReady
  else if !s.nvOk then nvTemp
  else if cmd = 0 ∨ 4 < cmd ∨ 4 < t ∨ (t = 4 ∧ cmd ≠ 1) then nvFormat
  else if cmd ≤ 3 ∧ s.nv.isActive t then nvActive
  else if cmd = 1 ∧ nvSize t < len then nvTooLarge
  else if cmd = 3 ∧ (s.nv.get t).isNone then nvEmpty else 0

/-- A command starts: a slot that is written or erased stands EMPTY until it succeeds, and loses TRIAL first. -/
def State.nvOpenSlot (s : State) (cmd t : Nat) : State :=
  if 2 < cmd ∨ 3 < t then s else
  let n := if s.nv.isTrial t then s.nv.setTrial t false else s.nv
  { s with nv := n.put t none }

/-- NV_RESULT and NV_EVENT at the end of a command. -/
def State.nvResult (s : State) (code : Nat) : State :=
  let s := (s.fset Reg.nvResultCode code).raise (if code = nvDone then Reg.nvEventDone else Reg.nvEventRefused)
  s.showNv

/-- A command of NV_CTRL with GO = 1. -/
def State.nvCommand (s : State) (cmd t : Nat) : State :=
  let s := (s.fset Reg.nvCtrlCmd cmd).fset Reg.nvCtrlTarget t
  let len := s.fget Reg.nvLen
  let code := s.nvCheck cmd t len
  if code ≠ 0 then s.nvResult code else
  let c : NvCmd := { cmd := cmd, target := t, src := s.fget Reg.nvSrcLo * 64 + s.fget Reg.nvSrcHi * 2 ^ 32, len := len }
  ({ s.nvOpenSlot cmd t with sec := { s.sec with nvCmd := some c } }).showNv

/-- NV_WRITE, NV_ERASE, NV_SET_TRIAL and NV_CLEAR_TRIAL (R440): the target. -/
def execNvWrite (target : Nat) (s : State) : Host.Outcome State Fault Refusal := .next (s.nvCommand 1 (target % 8))
def execNvErase (target : Nat) (s : State) : Host.Outcome State Fault Refusal := .next (s.nvCommand 2 (target % 8))
def execNvSetTrial (target : Nat) (s : State) : Host.Outcome State Fault Refusal := .next (s.nvCommand 3 (target % 8))
def execNvClearTrial (target : Nat) (s : State) : Host.Outcome State Fault Refusal := .next (s.nvCommand 4 (target % 8))

/-- The check at the end of a WRITE, as the region's own load would make it: DONE, or the code. -/
def State.nvJudge (s : State) (t : Nat) (b : List Nat) : Nat :=
  if t < 2 then (if s.checkFw b b.length = 0 then nvDone else s.checkFw b b.length)
  else if t < 4 then
    let v := (s.checkImage1 b b.length false).1
    if v = vrDone then nvDone else if v = vrKey then 6 else if v = vrSignature then 7 else if v = vrVersion then 8 else nvFormat
  else if s.checkUserNv b = 0 then nvDone else s.checkUserNv b

/-- The last act of a command whose bytes are all there; answers its code. -/
def State.nvFinish (s : State) (cmd t : Nat) (b : List Nat) : Nat × State :=
  if cmd = 1 then
    let code := s.nvJudge t b
    (code, if code = nvDone then { s with nv := s.nv.put t (some b) } else s)
  else if cmd = 3 then (nvDone, { s with nv := s.nv.setTrial t true })
  else if cmd = 4 then (nvDone, if s.nv.isTrial t then { s with nv := s.nv.setTrial t false } else s)
  else (nvDone, s)

/-- NV_COMMAND_COMPLETE (R440): the command ends; for a WRITE with the bytes pulled, or the pull's error. -/
def execNvCommandComplete (err : Bool) (bytes : List Nat) (s : State) : Host.Outcome State Fault Refusal :=
  match s.sec.nvCmd with
  | none => .next s
  | some c =>
    let s := { s with sec := { s.sec with nvCmd := none } }
    if c.cmd = 1 ∧ s.dmaError err then .next (s.nvResult nvDma) else
    let r := s.nvFinish c.cmd c.target (if c.cmd = 1 then padTo c.len (bytes.map (· % 256)) else [])
    .next (r.2.nvResult r.1)

/-! ### Attestation (R447, R448) -/

/-- FLAGS of a report and of a heartbeat; bit 2 stands from the first unlock to the next reset (R488). -/
def State.attestFlags (s : State) : Nat :=
  bitWord [s.paddock, !s.nv.ownerKey.isEmpty, s.dbgState.everUnlocked, s.flag Reg.thrmStatusEol]

/-- KEY_ID of the owner key, or zeros. -/
def State.ownerId (s : State) : List Nat := if s.nv.ownerKey.isEmpty then zeros 8 else keyId s.nv.ownerKey

/-- HEALTH_DETAIL. -/
def State.healthDetail (s : State) : List Nat :=
  leBytes 2 (s.teams.map (fun e => e.2.retired.length)).sum ++ leBytes 2 s.nv.units.length ++ leBytes 2 s.nv.banks.length ++
  leBytes 2 (s.teams.filter (fun e => e.2.outOfService)).length ++ leBytes 4 s.safety.dfCount ++ zeros 4

/-- Bytes 0 to 383 of a report. -/
def State.attestBody (s : State) (nonce : List Nat) : List Nat :=
  leBytes 4 0x5441574C ++ leBytes 2 1 ++ leBytes 2 3696 ++ padTo 8 s.nv.identity ++ padTo 32 nonce ++ leBytes 8 s.now ++
  leBytes 4 s.nv.startCount ++ leBytes 4 (s.incarnation unitPackage) ++ leBytes 2 s.position ++ [s.healthNow, s.stage] ++
  [s.nv.failCount % 256, s.attestFlags] ++ leBytes 2 (s.fget Reg.thrmLifeConsumed) ++
  leBytes 4 s.boot.fwSvn ++ leBytes 4 s.boot.nvSvn ++ leBytes 4 s.volz.bootSvn ++ leBytes 4 s.volz.bootSerial ++ s.ownerId ++
  padTo 64 s.boot.fwDigest ++ padTo 64 s.boot.nvDigest ++ padTo 64 s.volz.imageDigest ++ s.reportedDigest ++
  s.healthDetail ++ zeros 16

/-- The whole report, signed with the identity key. -/
def State.attestReport (s : State) (nonce : List Nat) : List Nat :=
  let b := s.attestBody nonce
  b ++ padTo 3309 (Config.identitySign (Config.shake256 b) "LW7160-ATTEST") ++ zeros 3

/-! ### SEC commands (R445, R446, R448, R451) -/

def secDone : Nat := 0x01
def secBusy : Nat := 0x02
def secTemp : Nat := 0x03
def secFormat : Nat := 0x04
def secState : Nat := 0x05
def secChallengeBad : Nat := 0x06
def secSignature : Nat := 0x07
def secDma : Nat := 0x08

/-- SEC_RESULT and SEC_EVENT. -/
def State.secResult (s : State) (code : Nat) : State :=
  (s.fset Reg.secResultCode code).raise (if code = secDone then Reg.secEventDone else Reg.secEventRefused)

/-- SEC_CHALLENGE is renewed. -/
def State.renewSec (s : State) : State :=
  let r := s.drawRandom
  { r.2 with sec := { r.2.sec with challenge := r.1 } }

/-- A command of SEC_CTRL with GO = 1; an ENROL or TRANSFER refused with BUSY renews the challenge too (R446). -/
def State.secCommand (s : State) (cmd : Nat) : State :=
  let s := s.fset Reg.secCtrlCmd cmd
  if s.sec.cmd.isSome then (if cmd = 2 ∨ cmd = 3 then s.renewSec.showStore else s).secResult secBusy else
  let c : SecCmd := { cmd := cmd, src := s.fget Reg.secSrcLo * 64 + s.fget Reg.secSrcHi * 2 ^ 32 }
  { s with sec := { s.sec with cmd := some c } }.raise Reg.secStatusBusy

/-- SEC_ATTEST, SEC_ENROL and SEC_TRANSFER. -/
def execSecAttest (s : State) : Host.Outcome State Fault Refusal := .next (s.secCommand 1)
def execSecEnrol (s : State) : Host.Outcome State Fault Refusal := .next (s.secCommand 2)
def execSecTransfer (s : State) : Host.Outcome State Fault Refusal := .next (s.secCommand 3)

/-- A record of R445 judged for a command: DONE, or the code. -/
def State.enrolCheck (s : State) (cmd : Nat) (b : List Nat) : Nat :=
  let key := if cmd = 2 then slice b 48 1952 else s.nv.ownerKey
  if field b 0 4 ≠ 0x4E45574C ∨ field b 4 1 ≠ cmd ∨ !allZero (slice b 5 3) ∨ slice b 8 8 ≠ padTo 8 s.nv.identity ∨
      !allZero (slice b 5309 3) then secFormat
  else if s.nv.ownerKey.isEmpty ≠ (cmd == 2) then secState
  else if slice b 16 32 ≠ s.sec.challenge then secChallengeBad
  else if !Config.mldsaVerify key (Config.shake256 (slice b 0 2000)) (slice b 2000 3309) "LW7160-OWNER" then secSignature
  else if !s.nvOk then secTemp else secDone

/-- An ENROL or TRANSFER ends; the challenge is renewed, whatever the outcome. -/
def State.enrol (s : State) (cmd : Nat) (err : Bool) (b : List Nat) : State :=
  let code := if err then secDma else s.enrolCheck cmd b
  let key := slice b 48 1952
  let s := if code = secDone then { s with nv := { s.nv with ownerKey := if allZero key then [] else key } } else s
  (s.renewSec.showStore).secResult code

/-- SEC_COMMAND_COMPLETE (R446, R448): `bytes` the record pulled, or `err`. -/
def execSecCommandComplete (err : Bool) (bytes : List Nat) (s : State) : Host.Outcome State Fault Refusal :=
  match s.sec.cmd with
  | none => .next s
  | some c =>
    let s := { s with sec := { s.sec with cmd := none } }.clear Reg.secStatusBusy
    if c.cmd = 1 then
      let b := s.attestReport (s.fgetBytes Reg.secNonce 8)
      .next ({ s with sec := { s.sec with report := b } }.secResult secDone)
    else .next (s.enrol c.cmd (s.dmaError err) (padTo 5312 (bytes.map (· % 256))))

end Sys2Proof.Machine
end

