-- ==== Sys2Proof/Machine/SafeBlock.lean ====
section
/-!
DEFINITION. The SAFE block's commands and the management port (R452 to R484): lockstep and watchdog, weight digests, error
reports, heartbeats, and the messages of R478.
-/
namespace Sys2Proof.Machine

/-! ### Lockstep, watchdog, acknowledgement (R458 to R460) -/

/-- LOCKSTEP_MISMATCH (R459): pair 0 CC0/CC1, 1 CC2/CC3. Every partition is marked and every region stops until a reset. -/
def execLockstepMismatch (pair : Nat) (s : State) : Host.Outcome State Fault Refusal :=
  let s := s.raise (if pair = 0 then Reg.safeErrLockstep01 else Reg.safeErrLockstep23)
  let s := s.danger 3 2 0x10 (unitCore (if pair = 0 then 0 else 2)) [if pair = 0 then 0 else 1] scopeAll (s.now - usTicks 1)
  .next ({ s.stopAll with safety := { s.safety with lockstopped := true } })

/-- CC6_WATCHDOG_EXPIRE (R460): paused while CC6 is halted (R491). -/
def execCc6WatchdogExpire (s : State) : Host.Outcome State Fault Refusal :=
  if s.coreHalted 6 then .next s else
  let s := ((s.assertFaultN.clear Reg.safeStatusCc6Ok).raise Reg.safeErrCc6Watchdog).pkgEvent .fault
  .next ({ s with safety := { s.safety with cc6Down := true } }.recordAs true 1 0 0x15 (unitCore 6) [])

/-- SAFE_ACK (R458): SAFE_CTRL.ACK. -/
def execSafeAck (s : State) : Host.Outcome State Fault Refusal := .next (s.clear Reg.safeStatusFaultN)

/-- SAFE_LOG_SEL_WRITE (R471, R484): the selected record is latched into SAFE_LOG0 to SAFE_LOG7. -/
def execSafeLogSelWrite (n : Nat) (s : State) : Host.Outcome State Fault Refusal :=
  let s := s.fset Reg.safeLogSel n
  let r := Map.get {} s.safety.log (s.fget Reg.safeLogSel % 8192)
  .next (s.fsetWords Reg.safeLog 0 (wordsOf 8 r.bytes))

/-! ### Weight digests (R465, R466) -/

def digestKey (p m : Nat) : Nat := p * 16 + m

/-- A model of a partition's harness is resident (R173). -/
def State.residentModel (s : State) (p m : Nat) : Bool :=
  let h := s.harness p
  decide (m < field h 4 2) && decide ((harnessModel h m).home ≤ 1)

/-- A digest computation starts, unless it runs. -/
def State.startDigest (s : State) (p m : Nat) : State :=
  if s.safety.digesting.contains (digestKey p m) || !s.residentModel p m then s else
  { s with safety := { s.safety with digesting := s.safety.digesting ++ [digestKey p m] } }

/-- SAFE_DIGEST_NOW (R465, R484). -/
def execSafeDigestNow (s : State) : Host.Outcome State Fault Refusal :=
  .next (s.each (List.range 32) (fun s p => if s.partStrings p = 0 then s else
    s.each (List.range 16) (fun s m => s.startDigest p m)))

/-- No digest of a model has completed since its last due time (R465). -/
def State.digestLate (s : State) (key : Nat) : Bool :=
  let due := Map.get 0 s.safety.digestDue key
  let d := Map.get {} s.safety.digests key
  s.safety.digesting.contains key && due != 0 && !(d.valid && decide (due ≤ d.way + 1))

/-- DIGEST_DUE (R465): a model of which no digest has completed within the period is late. -/
def execDigestDue (p m : Nat) (s : State) : Host.Outcome State Fault Refusal :=
  if !s.ready || s.partStrings p == 0 then .next s else
  let late := s.digestLate (digestKey p m)
  let s := { s with safety := { s.safety with digestDue := Map.set 0 s.safety.digestDue (digestKey p m) (s.now + 1) } }
  let s := if late then (s.bump Reg.safeDigestLate).record 0 0 0x18 unitPackage [p, m] else s
  .next (s.startDigest p m)

/-- The 133,632-byte record of a placement, read through the digital port: the bytes, and what the reader finds. -/
def State.digestRead (s : State) (x : Place) : List Nat × State :=
  let k := (s.team x.team).tileOf x.role
  (s.planeRecord x.team k x.plane 0 recordBytes, s.findAll x.team k x.plane 4 (fun _ => true))

/-- The records of a list of placements, one after the other. -/
def State.digestAll (s : State) : List Place → List Nat × State
  | [] => ([], s)
  | x :: xs =>
    let a := s.digestRead x
    let b := a.2.digestAll xs
    (a.1 ++ b.1, b.2)

/-- DIGEST_COMPLETE (R465, R466): the digest is published and sent as WEIGHT_DIGEST. -/
def execDigestComplete (p m : Nat) (s : State) : Host.Outcome State Fault Refusal :=
  let key := digestKey p m
  if !s.safety.digesting.contains key then .next s else
  let r := s.digestAll (modelPlaces (s.harness p) m)
  let d := padTo 64 (Config.shake256 r.1)
  let s := r.2
  let s := { s with safety := { s.safety with
    digesting := s.safety.digesting.filter (· != key),
    digests := Map.set {} s.safety.digests key { valid := true, bytes := d, way := s.now } } }
  .next (if s.cc6Runs then s.mgmtSend 0x04 ([p, m] ++ zeros 6 ++ leBytes 8 s.now ++ d) else s)

/-! ### Heartbeats and reports (R479, R480) -/

/-- The 320-byte body of a heartbeat. -/
def State.heartbeatBody (s : State) : List Nat :=
  leBytes 8 s.now ++ [s.healthNow, s.stage, s.attestFlags, 0] ++ leBytes 2 s.position ++ [0, 0] ++
  leBytes 4 (s.fget Reg.safeLogHead) ++ leBytes 4 s.safety.dfCount ++ leBytes 4 s.serviceMask ++
  leBytes 2 (s.fget Reg.thrmLifeConsumed) ++ [0, 0] ++ padTo 32 s.safety.challenge ++ padTo 64 s.boot.fwDigest ++
  padTo 64 s.boot.nvDigest ++ s.reportedDigest ++ padTo 64 s.volz.imageDigest

/-- The sum of 16-bit big-endian words with the carry added back in. -/
def onesSum : List Nat → Nat
  | a :: b :: rest => let t := 256 * a + b + onesSum rest; t % 65536 + t / 65536
  | [a] => 256 * a
  | [] => 0

/-- An ICMPv6 message under its pseudo-header, and the same with its checksum filled in. -/
def icmpSum (src dst m : List Nat) : Nat := onesSum (src ++ dst ++ (leBytes 4 m.length).reverse ++ [0, 0, 0, 58] ++ m)
def icmpSeal (src dst m : List Nat) : List Nat :=
  let c := 0xFFFF - icmpSum src dst (m.set 2 0 |>.set 3 0)
  (m.set 2 (c / 256)).set 3 (c % 256)

/-- The package's own unicast addresses (R475, R476). -/
def State.ownAddr (s : State) (a : List Nat) : Bool := a == s.linkAddr || (!allZero s.staticAddr && a == s.staticAddr)

/-- ICMPv6 of R475: what the package answers to a message `m` from `src` to `dst`, as source, destination and message. An echo
request gives an echo reply; a neighbour solicitation for an address of the package gives an advertisement with its MAC address, to
all nodes where the solicitation came from no address. No command of the table brings such a message (log 137). -/
def State.icmpReply (s : State) (src dst m : List Nat) : Option (List Nat × List Nat × List Nat) :=
  if !s.safety.portUp || icmpSum src dst m != 0xFFFF || m.getD 1 0 != 0 then none else
  match m.headD 0 with
  | 128 =>
    let a := if s.ownAddr dst then dst else s.sourceFor src
    if s.ownAddr dst || dst.headD 0 == 0xFF then some (a, src, icmpSeal a src (129 :: m.drop 1)) else none
  | 135 =>
    let target := slice m 8 16
    let back := if allZero src then [0xFF, 2] ++ zeros 13 ++ [1] else src
    if s.ownAddr target then
      some (target, back, icmpSeal target back ([136, 0, 0, 0, if allZero src then 0x20 else 0x60, 0, 0, 0] ++ target ++ [2, 1] ++ s.macAddr))
    else none
  | _ => none

/-- HEARTBEAT_SEND (R479): every second, from the end of LINKS_UP and in paddock mode. A CC6 that sends one runs again
(R460), and what waited for it is sent. -/
def execHeartbeatSend (s : State) : Host.Outcome State Fault Refusal :=
  if (s.stage ≤ stLinksUp ∧ !s.paddock) ∨ s.coreHalted 6 then .next s else
  let s := ({ s with safety := { s.safety with cc6Down := false } }.raise Reg.safeStatusCc6Ok).sendWaiting
  .next (s.mgmtSend 0x01 s.heartbeatBody)

/-- ERROR_REPORT_RESEND (R480): 100 ms passed without an ERROR_ACK for a report that has been sent. -/
def execErrorReportResend (id : Nat) (s : State) : Host.Outcome State Fault Refusal :=
  match s.safety.reports.find? (fun r => r.id == id) with
  | none => .next s
  | some r =>
    if r.sends = 0 then .next s else
    if 10 ≤ r.sends then .next ((s.setReports (s.safety.reports.filter (fun x => x.id != id))).reportDropped id) else
    if !s.safety.portUp || !s.cc6Runs then .next s else
    let s := s.setReports (s.safety.reports.map (fun x => if x.id = id then { x with sends := x.sends + 1 } else x))
    .next ((s.mgmtSend 0x02 r.body).bump Reg.safeReports)

/-- MANAGEMENT_PORT_DOWN (R480): the port negotiates anew (R475). -/
def execManagementPortDown (s : State) : Host.Outcome State Fault Refusal :=
  .next ({ s with safety := { s.safety with portUp := false } }.send (.portOffer (!s.kxOnly)))

/-- MANAGEMENT_PORT_UP (R475, R480). -/
def execManagementPortUp (s : State) : Host.Outcome State Fault Refusal := .next s.mgmtUp

/-! ### Messages to the device (R477, R478, R481) -/

/-- Header and body of a message to the device (R477). -/
def mgmtBytes (h : MgmtHdr) (type : Nat) (body : List Nat) : List Nat :=
  mgmtHeader h.magic type (if h.auth.isSome then 1 else 0) (leBytes 8 h.identity) h.pkgInc h.seq h.length h.reqSeq ++ body

/-- The authorisation block: CHALLENGE, signature and 3 zero bytes. -/
def authBytes : Option (List Nat × List Nat) → List Nat
  | none => []
  | some (c, sig) => padTo 32 c ++ padTo 3309 sig ++ zeros 3

/-- The message reaches CC6: the port is up, CC6 runs, the datagram came to UDP_PORT, and CRC, MAGIC and LENGTH are right
and IDENTITY names this package or any (R477). -/
def State.hears (s : State) (h : MgmtHdr) (type : Nat) (body : List Nat) : Bool :=
  s.safety.portUp && s.cc6Runs && h.port == s.udpPort && h.magic == mgmtMagic && h.length == body.length &&
  (h.identity == 0 || leBytes 8 h.identity == padTo 8 s.nv.identity) &&
  h.crc == crc32c (mgmtBytes h type body ++ authBytes h.auth)

/-- From the end of NV_LOAD onward and in paddock mode. -/
def State.afterNvLoad (s : State) : Bool := decide (stNvLoad < s.stage) || s.paddock

/-- An IPv6 address is unicast: neither unspecified nor multicast. -/
def unicast (a : List Nat) : Bool := !allZero a && a.headD 0 != 0xFF

/-- A link-local address (fe80::/10). -/
def linkLocal (a : List Nat) : Bool := a.headD 0 == 0xFE && a.getD 1 0 / 64 == 2

/-- The source-address rule where no owner key is enrolled. -/
def State.fromFleet (s : State) (h : MgmtHdr) : Bool :=
  let a := s.fleetAddr
  let b := s.fleetAddr2
  if unicast a || unicast b then (unicast a && padTo 16 h.src == a) || (unicast b && padTo 16 h.src == b)
  else linkLocal h.src && h.hop == 255

/-- NV_BEGIN, RETRY and REVOKE take effect (R481). -/
def State.authorised (s : State) (h : MgmtHdr) (type : Nat) (body : List Nat) : Bool :=
  if s.nv.ownerKey.isEmpty then s.fromFleet h else
  match h.auth with
  | none => false
  | some (c, sig) =>
    padTo 32 c == padTo 32 s.safety.challenge &&
    Config.mldsaVerify s.nv.ownerKey (Config.shake256 (mgmtBytes h type body ++ padTo 32 c)) (padTo 3309 sig) "LW7160-MGMT"

/-- CHALLENGE is renewed after an authorised command. -/
def State.renewMgmt (s : State) : State :=
  let r := s.drawRandom
  { r.2 with safety := { r.2.safety with challenge := r.1 } }

/-- The body of NV_RESULT. -/
def resultBody (code accepted : Nat) : List Nat := [code, 0, 0, 0] ++ leBytes 4 accepted

/-- An NV_RESULT reply. -/
def State.replyResult (s : State) (h : MgmtHdr) (code accepted : Nat) : State :=
  s.mgmtTo h.src 0x22 h.seq (resultBody code accepted)

/-- An authorised command runs, its reply goes out, and the challenge is renewed. `f` answers code, bytes accepted, state. -/
def State.mgmtCommand (s : State) (h : MgmtHdr) (type : Nat) (body : List Nat) (f : State → Nat × Nat × State) : State :=
  if !s.hears h type body || !s.authorised h type body then s else
  let r := f s
  (r.2.2.replyResult h r.1 r.2.1).renewMgmt

/-- ERROR_ACK (R458, R478): the report is acknowledged; the last outstanding one releases FAULT_N. -/
def execErrorAck (h : MgmtHdr) (id : Nat) (s : State) : Host.Outcome State Fault Refusal :=
  if !s.hears h 0x03 (leBytes 4 id) || !s.safety.reports.any (fun r => r.id == id) then .next s else
  let s := s.setReports (s.safety.reports.filter (fun r => r.id != id))
  .next (if s.safety.reports.isEmpty then s.clear Reg.safeStatusFaultN else s)

/-- GET_ATTEST (R447, R478). -/
def execGetAttest (h : MgmtHdr) (nonce : List Nat) (s : State) : Host.Outcome State Fault Refusal :=
  .next (if !s.hears h 0x10 (padTo 32 (nonce.map (· % 256))) || !s.afterNvLoad then s else
    s.mgmtTo h.src 0x11 h.seq (s.attestReport (padTo 32 (nonce.map (· % 256)))))

/-- The numbers of the records that a GET_LOG asks for and that the ring still holds. -/
def State.logNumbers (s : State) (first count : Nat) : List Nat :=
  let head := s.fget Reg.safeLogHead
  ((List.range (min count 32)).map (first + ·)).filter (fun n => decide (n < head ∧ head ≤ n + 8192))

/-- GET_LOG (R471, R478). -/
def execGetLog (h : MgmtHdr) (first count : Nat) (s : State) : Host.Outcome State Fault Refusal :=
  .next (if !s.hears h 0x12 (leBytes 4 first ++ leBytes 4 count) || !s.afterNvLoad then s else
    let ns := s.logNumbers first count
    s.mgmtTo h.src 0x13 h.seq (leBytes 4 (ns.headD first) ++ leBytes 4 ns.length ++
      (ns.map (fun n => (Map.get {} s.safety.log (n % 8192)).bytes)).flatten))

/-- A command that NV_BEGIN opened ends: its code in NV_RESULT, and in the reply. -/
def State.nvEnd (s : State) (cmd t : Nat) (b : List Nat) : Nat × Nat × State :=
  let s := { s with safety := { s.safety with nvOpen := none } }
  let r := s.nvFinish cmd t b
  (r.1, b.length, r.2.nvResult r.1)

/-- NV_BEGIN's command (R440): refused, carried out, or a WRITE that waits for its chunks. -/
def State.nvBegin (cmd target len : Nat) (s : State) : Nat × Nat × State :=
  let code := s.nvCheck cmd target len
  if code ≠ 0 then (code, 0, s.nvResult code) else
  let s := s.nvOpenSlot cmd target
  if cmd ≠ 1 ∨ len = 0 then s.nvEnd cmd target [] else
  (0, 0, ({ s with safety := { s.safety with nvOpen := some (cmd, target, len, []) } }).showNv)

/-- NV_BEGIN (R478, R481). -/
def execNvBegin (h : MgmtHdr) (cmd target len : Nat) (s : State) : Host.Outcome State Fault Refusal :=
  .next (s.mgmtCommand h 0x20 ([cmd % 256, target % 256, 0, 0] ++ leBytes 4 len)
    (State.nvBegin (cmd % 256) (target % 256) (len % 2 ^ 32)))

/-- NV_CHUNK (R478): contiguous bytes, at most 1,024, go into the region; the image is checked once LENGTH have arrived. -/
def execNvChunk (h : MgmtHdr) (off : Nat) (bytes : List Nat) (s : State) : Host.Outcome State Fault Refusal :=
  if !s.hears h 0x21 (leBytes 4 off ++ bytes.map (· % 256)) then .next s else
  match s.safety.nvOpen with
  | none => .next (s.replyResult h nvFormat 0)
  | some (cmd, t, len, got) =>
    if off ≠ got.length ∨ bytes.isEmpty ∨ 1024 < bytes.length ∨ len < got.length + bytes.length then
      .next (s.replyResult h nvFormat got.length)
    else
      let b := got ++ bytes.map (· % 256)
      if b.length = len then
        let r := s.nvEnd cmd t b
        .next (r.2.2.replyResult h r.1 r.2.1)
      else .next ({ s with safety := { s.safety with nvOpen := some (cmd, t, len, b) } }.replyResult h 0 b.length)

/-- NV_CHUNK_GAP_TIMEOUT (R437, R478): 10 s without a chunk abandon the WRITE. -/
def execNvChunkGapTimeout (s : State) : Host.Outcome State Fault Refusal :=
  .next ({ s with safety := { s.safety with nvOpen := none } }.showNv)

/-- MGMT_RETRY (R435, R478): RETRY. -/
def execMgmtRetry (h : MgmtHdr) (s : State) : Host.Outcome State Fault Refusal :=
  .next (s.mgmtCommand h 0x23 [] (fun s => (s.retry.1, 0, s.retry.2)))

/-- MGMT_REVOKE (R319, R478): REVOKE of a package's incarnation. -/
def execMgmtRevoke (h : MgmtHdr) (pos inc : Nat) (s : State) : Host.Outcome State Fault Refusal :=
  .next (s.mgmtCommand h 0x24 (leBytes 2 pos ++ [0, 0] ++ leBytes 4 inc)
    (fun s => (nvDone, 0, s.torRevoke (pos % 4096) (inc % 2 ^ 32))))

end Sys2Proof.Machine
end

