-- ==== Sys2Proof/Machine/Host.lean ====
section
/-!
DEFINITION. The host's accesses: registers through BAR0 and BAR2 (R2 to R8, R337 to R339, R520, R522), the MSI-X table, BAR4
(R340 to R342, R359), and configuration requests (R335, R428).
-/
namespace Sys2Proof.Machine

/-! ### Words of the register space -/

/-- Where a register word is described: the address of the first word of its kind, the distance of its window from the first
window, and what its SEL register selects. -/
structure RegWord where
  base : Nat
  win : Nat
  sel : Nat := 0
  deriving DecidableEq, Repr

/-- Every register field, for the first window of its kind. -/
def allFields : List Fld :=
  Reg.volzRegs ++ Reg.teamRegs ++ Reg.tileRegs ++ Reg.outrRegs ++ Reg.calRegs ++ Reg.farrRegs ++ Reg.accRegs ++
  Reg.groomRegs ++ Reg.kvRegs ++ Reg.kvPartRegs ++ Reg.gateRegs ++ Reg.relayRegs ++ Reg.dramRegs ++ Reg.linkRegs ++
  Reg.torRegs ++ Reg.pciRegs ++ Reg.vfRegs ++ Reg.partRegs ++ Reg.tollRegs ++ Reg.clkRegs ++ Reg.brdlRegs ++
  Reg.reinRegs ++ Reg.thrmRegs ++ Reg.adcRegs ++ Reg.rstRegs ++ Reg.nvRegs ++ Reg.secRegs ++ Reg.safeRegs ++
  Reg.dbgRegs ++ Reg.trcRegs ++ Reg.cntRegs ++ Reg.unitRegs ++ Reg.hubRegs

/-- A window of the register space: first address, end, distance between windows, address of the first window. -/
structure Window where
  lo : Nat
  hi : Nat
  stride : Nat
  first : Nat

/-- Windows that repeat outside the team windows (R224, R286, R287, R333, R339, R422, R490, R258). -/
def windows : List Window :=
  [⟨0xA0000, 0xA6000, 0x1000, 0xA0000⟩, ⟨0xD1000, 0xD3000, 0x100, 0xD1000⟩, ⟨0xB1000, 0xB3000, 0x100, 0xB0100⟩,
   ⟨0xC0100, 0xC0200, 0x40, 0xC0100⟩, ⟨0x60100, 0x60450, 0x10, 0x60100⟩, ⟨0x10000000, 0x10020000, 0x1000, 0x10000000⟩,
   ⟨0x20000000, 0x20200000, 0x10000, 0x20000000⟩, ⟨0x30000000, 0x30036800, 0x100, 0x30000000⟩]

/-- Register arrays: first word, words, words of one entry. -/
def regArrays : List (Nat × Nat × Nat) :=
  [(0xE0040, 16, 1), (0xE0080, 16, 1), (0xE0100, 16, 1), (0x1000020, 8, 1), (0x1000060, 8, 1), (0x1001820, 8, 1),
   (0x1000C20, 4, 1), (0x1000D00, 136, 1), (0xD0020, 4, 1), (0xD0040, 8, 1), (0x10000800, 512, 1), (0x70100, 64, 1),
   (0x20000100, 62, 1), (0x30040, 8, 1), (0x30060, 8, 1), (0x31000, 924, 1), (0x34000, 8192, 1), (0x80020, 8, 1),
   (0x80080, 16, 1), (0x90040, 8, 1), (0x92100, 58, 1), (0x30000040, 16, 2), (0x30000080, 8, 1)]

/-- The place of a team-window address within the first team window, tiles within the window of spare tile 32. -/
def teamBase (r : Nat) : Nat := if r < 0x1800 then 0x1000000 + r else 0x1001800 + r % 0x100

/-- The first word of the kind, before register arrays. -/
def windowBase (a : Nat) : Nat :=
  if 0x1000000 ≤ a ∧ a < 0x1C00000 then teamBase ((a - 0x1000000) % 0x4000) else
  match windows.find? (fun w => decide (w.lo ≤ a ∧ a < w.hi)) with
  | some w => w.first + (a - w.lo) % w.stride
  | none => a

/-- The register word at an address of the register space, with no selection. -/
def regWord (a : Nat) : RegWord :=
  let b := windowBase a
  match regArrays.find? (fun e => decide (e.1 ≤ b ∧ b < e.1 + 4 * e.2.1)) with
  | some e => let c := e.1 + (b - e.1) % (4 * e.2.2); ⟨c, a - c, 0⟩
  | none => ⟨b, a - b, 0⟩

/-- The team of a word in a team window. -/
def RegWord.team (w : RegWord) : Nat := (w.base + w.win - 0x1000000) / 0x4000

/-- The tile of a word in a tile window. -/
def RegWord.tile (w : RegWord) : Nat :=
  let r := (w.base + w.win - 0x1000000) % 0x4000
  if r < 0x1900 then 32 else if r < 0x1A00 then 33 else (r - 0x2000) / 0x100

/-- The fields of a word. -/
def RegWord.fields (w : RegWord) : List Fld :=
  (allFields.filter (fun f => f.addr == w.base)).map (fun f => (f.shift w.win).sel w.sel)

/-- What the SEL register of a word selects. -/
def State.selection (s : State) (w : RegWord) : Nat :=
  let b := w.base
  let t := w.team
  if b = 0x71008 ∨ b = 0x7100C then s.fget Reg.partSelPart
  else if 0x72004 ≤ b ∧ b ≤ 0x72014 then tollSel (s.fget Reg.tollSelMember) (s.fget Reg.tollSelResource)
  else if 0x40008 ≤ b ∧ b ≤ 0x40014 then s.fget Reg.clkRegionSelRegion
  else if b = 0x50020 then s.fget Reg.brdlRailSelRail
  else if b = 0x5040C then s.fget Reg.reinSelString
  else if b = 0x5080C then s.fget Reg.thrmSelIndex
  else if b = 0x50824 ∨ b = 0x50828 then s.fget Reg.thrmAgeSelIndex
  else if b = 0x1001020 ∨ b = 0x1001024 then s.fget (Reg.accLayerSelLayer.team t)
  else if b = 0x1001010 ∨ b = 0x1001014 then s.fget (Reg.accGroupSelGroup.team t)
  else if b = 0x1000438 ∨ b = 0x100043C then s.fget (Reg.outrLayerSelLayer.team t)
  else 0

/-- The register word at an address, as the SEL registers now stand. -/
def State.wordAt (s : State) (a : Nat) : RegWord := let w := regWord a; { w with sel := s.selection w }

/-! ### Values that follow other state when they are read -/

/-- The levels that the GPIO pins are sampled at: HUB_GPIO_OUT where it drives the pin, else the board's. An open-drain
output at 1 does not drive. -/
def State.sampleGpio (s : State) : State :=
  let r := s.draw
  let out := r.2.fget Reg.hubGpioOutLevel
  let cfg := fun k => s.pins.gpioCfg.getD k 0x08
  let bit := fun k => if cfg k % 8 = 1 ∧ !(out.testBit k && (cfg k).testBit 4) then out.testBit k else r.1.testBit k
  r.2.fset Reg.hubGpioInLevel (bitWord ((List.range 16).map bit))

/-- TEAM_ID, TEAM_INCARNATION and what a team's windows show. -/
def State.refreshTeam (s : State) (t : Nat) : State :=
  let s := (((s.showTeam t).showRoles t).showRepair t).showSlewing t
  let s := ((s.showCalStatus t).showLap t).showGroup t (s.fget (Reg.accGroupSelGroup.team t))
  let s := ((s.fset (Reg.teamIdTeam.team t) t).fset (Reg.teamIdString.team t) (teamString t)).fset (Reg.teamIdDie.team t)
    (teamString t / 2)
  let s := s.fset (Reg.teamIncarnation.team t) (s.incarnation (unitTeam t))
  (s.fset (Reg.calRotPeriod.team t) (s.safetyCfg 4 2 60)).fset (Reg.groomBound.team t) s.groomBound

/-- What a tile's window shows. -/
def State.refreshTile (s : State) (t k : Nat) : State :=
  (s.showTile t k).fset (Reg.tileIncarnation.tile t k) (s.incarnation (unitTile t k))

/-- KV_P_STATUS and the free frames of a partition's pools (R195, R224). -/
def State.refreshKv (s : State) (p : Nat) : State :=
  let n := s.waitingSeqs (fun w => w.part == p)
  let s := (s.fset (Reg.kvPStatusWaiters.kvPart p) (min 0xFFFF n)).fput (Reg.kvPStatusCaches.kvPart p) (decide (0 < s.cacheCount p))
  let strs := (List.range 32).filter (s.ownsString p)
  let s := s.fset (Reg.kvPFreeSram.kvPart p) ((strs.map (fun x => (s.freeFrames p 0 x).length)).sum)
  (s.fset (Reg.kvPFreeDram.kvPart p) (s.freeFrames p 1 0).length).fset (Reg.kvPFreeHost.kvPart p) (s.freeFrames p 2 0).length

/-- GATE_SLOTS, GATE_ACTIVE and GATE_PARKED of a partition (R258). -/
def State.refreshGate (s : State) (p : Nat) : State :=
  let own := (s.slots.filter (fun e => decide (s.slotBase p ≤ e.1 ∧ e.1 < s.slotBase p + s.slotCount p))).map (fun e => e.2)
  let s := (s.fset (Reg.gateSlotsBase.gate p) (s.slotBase p)).fset (Reg.gateSlotsCount.gate p) (s.slotCount p)
  let s := (s.fset (Reg.gateActiveRunning.gate p) (own.filter (fun x => x.st == .running)).length).fset
    (Reg.gateActiveArmed.gate p) (own.filter (fun x => x.st == .armed)).length
  (s.fset (Reg.gateParkedPaused.gate p) (own.filter (fun x => x.st == .paused)).length).fset
    (Reg.gateParkedWaiting.gate p) (own.filter (fun x => x.pageWait)).length

/-- LINK_LANE of the selected lane. -/
def State.refreshLink (s : State) (p : Nat) : State := s.showLane p

/-- SAFE_IFT and SAFE_DIGEST of what their SEL registers select (R461, R466). -/
def State.refreshSafe (s : State) : State :=
  let t := s.fget Reg.safeIftSelTeam
  let age := match (s.safety.teamPass.find? (fun e => e.1 == t)) with
    | some e => min 0xFFFFF ((s.now - e.2) / 400000000)
    | none => 0xFFFFF
  let s := (s.fput Reg.safeIftFailed (s.safety.iftFailed.contains t)).fset Reg.safeIftNextTile (Map.get 0 s.safety.iftNext t)
  let s := s.fset Reg.safeIftAge age
  let d := Map.get {} s.safety.digests (digestKey (s.fget Reg.safeDigestSelPart) (s.fget Reg.safeDigestSelModel))
  let s := (s.fput Reg.safeDigestSelValid d.valid).fset64 Reg.safeDigestWayLo Reg.safeDigestWayHi d.way
  s.fsetWords Reg.safeDigest 0 (wordsOf 16 (padTo 64 d.bytes))

/-- The sum of a counter over the strings, or one string's (R501). -/
def State.countShown (s : State) (x i : Nat) : Nat :=
  if x < 32 then Map.get 0 s.dbgState.snap (x * 32 + i)
  else ((List.range 32).map (fun y => Map.get 0 s.dbgState.snap (y * 32 + i))).sum

/-- The KV engine waits for the frames of its oldest sequence. -/
def State.kvWait (s : State) : Option (Nat × Nat × Nat × Nat) := s.kv.waiters.head?.map (fun w => (4, w.slot, nobody, w.since))

/-- A collective engine waits while packets wait at its port: for the tollgate's refill where one would find room and no credit,
else for link credits. -/
def State.collWait (s : State) (p : Nat) : Option (Nat × Nat × Nat × Nat) :=
  let x := s.port p
  if x.waiting.isEmpty then none
  else if s.linkUp p && x.waiting.any (fun k => x.room k && !s.hasCredit p k) then some (9, 0, nobody, x.waitSince)
  else some (14, 0, unitPort p, x.waitSince)

/-- A sequencer that has reported its part of the step waits for the remote packages that it has called, or for the team whose
arbitration holds the milepost. -/
def State.seqHeld (s : State) (x : Nat) : Option (Nat × Nat × Nat × Nat) :=
  let q := s.seq x
  if !q.reported then none else
  match s.torus.calls.find? (fun c => c.str == x && q.step == some c.step) with
  | some c => some (6, 0, nobody, max c.since q.reportedAt)
  | none => (List.range 24).findSome? (fun i => (s.team (24 * x + i)).arb.map (fun a => (11, 0, unitTeam (24 * x + i), a.sample.way)))

/-- The credits of a resource below 4 are used up for a member in this period: its own, and with all members' the spare. -/
def State.tollDry (s : State) (m r : Nat) : Bool :=
  let used := fun k => (let e := Map.get (0, 0) s.pci.moved (tollSel k r); e.1 + e.2)
  let has := fun k => s.fget (Reg.tollGrantCredits.sel (tollSel k r))
  decide (0 < used m ∧ has m ≤ used m ∧
    ((List.range 33).map has).sum + Map.get 0 s.pci.spare r / 64 ≤ ((List.range 33).map used).sum)

/-- A load context waits for the acknowledgements of a relay, or for a port on which its chunks wait; while it moves data, for the
refill where a resource that it crosses is used up. -/
def State.loadWait (s : State) (c : Nat) : Option (Nat × Nat × Nat × Nat) :=
  let x := s.load c
  if s.loadSt c = ldWaitAck then
    match s.route (s.ringNext (loadRing x.desc)) with
    | some p => if (s.port p).waiting.isEmpty then some (6, 0, nobody, x.since) else some (14, 0, unitPort p, max x.since (s.port p).waitSince)
    | none => some (6, 0, nobody, x.since)
  else if s.loadSt c = ldMove then
    ((loadPath (loadKind x.desc)).find? (s.tollDry (ctxMember c))).map (fun r => (9, 0, nobody, max x.since (Map.get 0 s.pci.movedAt r)))
  else none

/-- A unit's WAIT registers show a wait, or none. -/
def State.showWaitOf (s : State) (u : Nat) (w : Option (Nat × Nat × Nat × Nat)) : State :=
  match w with
  | some (r, d, on, since) => s.showWait u r d on since
  | none => s.showWait u 0 0 0 0

/-- WAIT of the KV engine, the collective engines, the load contexts and the sequencers (R499). -/
def State.refreshWaits (s : State) : State :=
  let s := s.showWaitOf 838 s.kvWait
  let s := s.each (List.range 6) (fun s p => s.showWaitOf (832 + p) (s.collWait p))
  let s := s.each (List.range 33) (fun s c => s.showWaitOf (839 + c) (s.loadWait c))
  s.each (List.range 32) (fun s x => s.showWaitOf (32 + x) ((s.seq x).wait <|> s.seqHeld x))

/-- A debug unit's registers: WAIT, and PC of a sequencer; the code position of a running core is its firmware's. -/
def State.refreshUnit (s : State) (u : Nat) : State :=
  let s := s.refreshWaits
  if 32 ≤ u ∧ u < 64 then s.fset64 (Reg.pcLo.unit u) (Reg.pcHi.unit u) (s.seq (u - 32)).pos else
  if u < 8 ∧ !s.coreHalted u then
    let r := s.draw
    r.2.fset64 (Reg.pcLo.unit u) (Reg.pcHi.unit u) r.1
  else s

/-- Word `i` of a list of bytes shown at a register array. -/
def State.showByteWord (s : State) (f : Fld) (b : List Nat) (i : Nat) : State := s.fset (f.nth i) (field b (4 * i) 4)

/-- The registers at a word are brought up to what they show. -/
def State.refresh (s : State) (w : RegWord) : State :=
  let b := w.base
  if 0x1001800 ≤ b ∧ b < 0x1001900 then s.refreshTile w.team w.tile
  else if 0x1000000 ≤ b ∧ b < 0x1001800 then s.refreshTeam w.team
  else if b = 0x100 then s.sampleGpio
  else if 0xE0000 ≤ b ∧ b < 0xF0000 then s.showVolz
  else if b = 0xD0000 then s.fset Reg.kvStatusWaiters (min 0xFFFF (s.waitingSeqs (fun _ => true)))
  else if 0xD1000 ≤ b ∧ b < 0xD1100 then s.refreshKv (w.win / 0x100)
  else if 0x10000000 ≤ b ∧ b < 0x10000020 then s.refreshGate (w.win / 0x1000)
  else if 0xA0000 ≤ b ∧ b < 0xA1000 then s.refreshLink (w.win / 0x1000)
  else if 0xA8000 ≤ b ∧ b < 0xA9000 then (s.showRev).showIncs
  else if 0x71000 ≤ b ∧ b < 0x72000 then s.showPart w.sel
  else if 0x40000 ≤ b ∧ b < 0x40100 then s.showRegion w.sel
  else if b = 0x40104 ∨ b = 0x40108 then s.fset64 Reg.wayNowLo Reg.wayNowHi s.now
  else if b = 0x5040C then s.showRein w.sel
  else if 0x80000 ≤ b ∧ b < 0x90000 then s.refreshSafe
  else if 0x20000 ≤ b ∧ b < 0x30000 then s.showNv
  else if 0x10000 ≤ b ∧ b < 0x11000 then s.showStore
  else if b = 0x31000 then s.showByteWord Reg.secReport s.sec.report (w.win / 4)
  else if b = 0x34000 then s.showByteWord Reg.secCert s.nv.cert (w.win / 4)
  else if 0x30000 ≤ b ∧ b < 0x31000 then s.showStore
  else if 0xC0000 ≤ b ∧ b < 0xC0100 then s.showRetired
  else if b = 0x90040 then s.fsetWords Reg.dbgChallenge 0 (wordsOf 8 s.dbgState.challenge)
  else if b = 0x92100 then
    let i := w.win / 4
    s.fset (Reg.cntValue.nth i) (s.countShown (s.fget Reg.cntSelString) (i / 2) / 2 ^ (32 * (i % 2)))
  else if 0x30000000 ≤ b then s.refreshUnit (w.win / 0x100)
  else s

/-! ### Reads (R4, R5, R7, R520, R522) -/

/-- A word made of its fields' values. -/
def packFields (v : Fld → Nat) (fs : List Fld) : Nat := (fs.map (fun f => v f % f.card * 2 ^ f.lsb)).sum

/-- A field as a read finds it. -/
def State.shown (s : State) (f : Fld) : Nat := if f.acc = .wo then 0 else s.fget f

/-- What each _LO register latches: its first word, and the first words of its companions (R522). -/
def latches : List (Nat × List Nat) :=
  [(0x1000040, [0x1000044]), (0x1001810, [0x1001814]), (0x1001840, 0x1001844 :: (List.range 8).map (fun i => 0x1001820 + 4 * i)),
   (0x1000418, [0x100041C, 0x1000410, 0x1000414]), (0x1000830, [0x1000834]), (0x1000C10, [0x1000C14, 0x1000C0C]),
   (0x1001418, [0x100141C, 0x100140C]), (0x4000C, [0x40010]), (0x40104, [0x40108]), (0x40124, [0x40128]),
   (0x50028, [0x5002C]), (0x50818, [0x5081C]), (0x10014, [0x10018]),
   (0x80054, 0x80058 :: (List.range 16).map (fun i => 0x80080 + 4 * i)), (0x30000018, [0x3000001C]), (0x91014, [0x91018]),
   (0x92008, [0x9200C])]

/-- The place of a word's window, apart from which entry of a register array it is. -/
def RegWord.addr (w : RegWord) : Nat := w.base + w.win

/-- The word is a companion of some _LO register. -/
def isCompanion (a : Nat) : Bool := latches.any (fun e => e.2.contains a)

/-- The live field of a latched word: OUTR_ARB.STATE. -/
def liveField (f : Fld) : Bool := f.addr % 0x4000 == 0x410 && f.lsb == 16

/-- The value of a word: its fields, or the latched copy of a companion with its live fields. -/
def State.wordValue (s : State) (w : RegWord) : Nat :=
  let fs := w.fields
  if isCompanion (windowBase w.addr) then
    let r := packFields (fun f => f.reset) fs
    let c := Map.get r s.latched w.addr
    packFields (fun f => if liveField f then s.shown f else c / 2 ^ f.lsb) fs
  else packFields s.shown fs

/-- The companions of a _LO register take their copies. -/
def State.latchWord (s : State) (w : RegWord) : State :=
  match latches.find? (fun e => e.1 == w.base) with
  | none => s
  | some e =>
    let d := w.addr - w.base
    s.each e.2 (fun s c =>
      let x := { regWord (c + d) with sel := w.sel }
      let r := packFields (fun f => f.reset) x.fields
      { s with latched := Map.set r s.latched (c + d) (packFields s.shown x.fields) })

/-- Read-clear fields of a word are cleared. -/
def State.clearRead (s : State) (w : RegWord) : State := s.each (w.fields.filter (fun f => f.acc == .rc)) State.clear

/-- A read of a register word: its value, and the state after (R7, R520, R522). -/
def State.readReg (s : State) (w : RegWord) : Nat × State :=
  let s := s.refresh w
  (s.wordValue w, (s.latchWord w).clearRead w)

/-! ### Writes (R5, R6, R8) -/

/-- Fields whose writes have rows of their own: a register write leaves them alone. -/
def ownRow : List Fld :=
  [Reg.teamCtrlCntFreeze, Reg.teamCtrlStop, Reg.calCtrlHold, Reg.linkCtrlDark, Reg.kvSel1Index, Reg.kvSel1Cache,
   Reg.kvPHostLo, Reg.kvPHostHi, Reg.kvPHostFrames, Reg.brdlCapCap, Reg.safeLogSel]

/-- A value as a field stores it: some fields hold what they are given to a range. -/
def storedValue (w : RegWord) (f : Fld) (v : Nat) : Nat :=
  let is := fun (g : Fld) => w.base == g.addr && f.lsb == g.lsb
  if is Reg.calSlewInterval then max 16 v
  else if is Reg.pciModInterval || is Reg.partVModInterval then min 1000 v
  else if is Reg.pciDramBaseBase || is Reg.partVDramBaseBase then min 383 v
  else if is Reg.reinCeil then min 64 v
  else if is Reg.adcCfgShift || is Reg.adcCfgAvgLog2 then min 8 v
  else v

/-- A field of a word is written, as its access type states (R5, R6, R8). -/
def State.storeField (s : State) (w : RegWord) (v : Nat) (f : Fld) : State :=
  let x := v / 2 ^ f.lsb % f.card
  match f.acc with
  | .ro | .rc | .wo => s
  | .rw => s.fset f (storedValue w f x)
  | .w1c => s.fset f (s.fget f - (s.fget f &&& x))
  | .w1s => s.fset f (s.fget f ||| x)
  | .rwl => if s.flag Reg.rstStatusBootLock then s else s.fset f (storedValue w f x)

/-- The field keeps what it holds: it has a row of its own, is TOR_REV_INC of an entry in use, or is ADC_CFG of an internal
channel, whose configuration is fixed (R422). -/
def State.keepsField (s : State) (w : RegWord) (f : Fld) : Bool :=
  ownRow.any (fun g => g.addr == w.base && g.lsb == f.lsb) ||
  (w.base == Reg.torRevInc.addr && (Map.get none s.torus.revs (s.fget Reg.torRevSelEntry)).isSome) ||
  (w.base == Reg.adcCfgShift.addr && decide (24 ≤ w.win / 0x10))

/-- A strobe with a command number that no row has is refused by its block. -/
def State.badStrobe (s : State) (w : RegWord) (v : Nat) : State :=
  let go := v.testBit 31
  if w.base = Reg.partCtrlGo.addr ∧ go ∧ (v % 8 = 0 ∨ 3 < v % 8) then s.refusePart (s.fget Reg.partSelPart)
  else if w.base = Reg.farrCtrlGo.addr ∧ go ∧ (bits v 30 28 = 0 ∨ 3 < bits v 30 28) then s.farrRefused w.team
  else if w.base = Reg.nvCtrlGo.addr ∧ go ∧ (v % 8 = 0 ∨ 4 < v % 8) then s.nvCommand (v % 8) (bits v 10 8)
  else if w.base = Reg.secCtrlGo.addr ∧ go ∧ v % 4 = 0 then
    (if s.sec.cmd.isSome then s.secResult secBusy else s.secResult secFormat)
  else s

/-- A write of a register word; a revocation entry shows as soon as it is selected (R334). -/
def State.writeReg (s : State) (w : RegWord) (v : Nat) : State :=
  let s := s.each (w.fields.filter (fun f => !s.keepsField w f)) (fun s f => s.storeField w v f)
  (if w.base = Reg.torRevSelEntry.addr then s.showRev else s).badStrobe w v

/-! ### The MSI-X table and PBA (R338, R339, R346, R347) -/

/-- A word of the MSI-X table. -/
def State.tableWord (s : State) (fn i : Nat) : Nat :=
  let x := s.vecGet fn (i / 4)
  if i % 4 = 0 then x.addr % 2 ^ 32 else if i % 4 = 1 then x.addr / 2 ^ 32 else if i % 4 = 2 then x.data
  else if x.mask then 1 else 0

/-- A word of the table is written; unmasking a vector with an event pending sends its message. -/
def State.setTableWord (s : State) (fn i v : Nat) : State :=
  let n := i / 4
  let x := s.vecGet fn n
  if i % 4 = 0 then s.vecSet fn n { x with addr := x.addr / 2 ^ 32 * 2 ^ 32 + v / 4 * 4 }
  else if i % 4 = 1 then s.vecSet fn n { x with addr := x.addr % 2 ^ 32 + v * 2 ^ 32 }
  else if i % 4 = 2 then s.vecSet fn n { x with data := v }
  else
    (s.vecSet fn n { x with mask := v.testBit 0 }).vecRelease fn n

/-- A word of the pending-bit array. -/
def State.pbaWord (s : State) (fn i : Nat) : Nat :=
  bitWord ((List.range 32).map (fun b => decide (32 * i + b < fnVectors fn) && (s.vecGet fn (32 * i + b)).pending))

/-! ### Where an access lands (R226, R337 to R339, R353, R428, R434) -/

/-- What an address of a function's BARs names. -/
inductive Landing where
  /-- a word of the register space, with the selection that the window itself makes -/
  | reg (a : Nat) (sel : Option Nat)
  /-- a word of the MSI-X table, or of the pending-bit array -/
  | table (i : Nat)
  | pba (i : Nat)
  /-- bytes of the descriptor of a global slot -/
  | desc (g off : Nat)
  /-- nothing: reads return 0, writes are discarded -/
  | nothing
  deriving DecidableEq, Repr

/-- The blocks of physical function 0's BAR0 that respond before READY and in paddock mode. -/
def openBlock (a : Nat) : Bool :=
  decide (a < 0x40000) || decide (0x50800 ≤ a ∧ a < 0x50C00) || decide (0x60000 ≤ a ∧ a < 0x71000) ||
  decide (0xE0000 ≤ a ∧ a < 0xF0000)

/-- BAR0 of physical function 0. -/
def State.land0 (s : State) (off : Nat) : Landing :=
  if !s.ready && !openBlock off && !(s.paddock && decide (0x78000 ≤ off ∧ off < 0x80000)) then .nothing
  else if 0x78000 ≤ off ∧ off < 0x78400 then .table ((off - 0x78000) / 4)
  else if 0x7C000 ≤ off ∧ off < 0x7C008 then .pba ((off - 0x7C000) / 4)
  else if off < 0x4000000 then .reg (off / 4 * 4) none else .nothing

/-- BAR0 of the virtual function of partition `p`. -/
def landVf (p off : Nat) : Landing :=
  let a := off / 4 * 4
  if a = 0 then .reg 0x71008 (some p)
  else if a < 0x1000 then .reg (0x20000000 + p * 0x10000 + a) none
  else if a < 0x1100 then .reg (0xD1000 + p * 0x100 + (a - 0x1000)) none
  else if 0x2000 ≤ a ∧ a < 0x2100 then .reg (0xB1000 + p * 0x100 + (a - 0x2000)) none
  else if 0x3000 ≤ a ∧ a < 0x3028 then .reg 0x72008 (some (tollSel p ((a - 0x3000) / 4)))
  else if 0x8000 ≤ a ∧ a < 0x83E0 then .table ((a - 0x8000) / 4)
  else if 0xC000 ≤ a ∧ a < 0xC008 then .pba ((a - 0xC000) / 4)
  else .nothing

/-- BAR2: descriptors and gate pages. -/
def State.land2 (s : State) (fn off : Nat) : Landing :=
  if off < 0x400000 then
    match s.barSlot fn (off / 256) with
    | some g => .desc g (off % 256)
    | none => .nothing
  else if fn = 0 ∧ off < 0x420000 then .reg (0x10000000 + (off - 0x400000) / 4 * 4) none
  else if off < 0x401000 then
    match s.vfPart fn with
    | some p => .reg (0x10000000 + p * 0x1000 + (off - 0x400000) / 4 * 4) none
    | none => .nothing
  else .nothing

/-- Before READY a virtual function's BAR0 returns 0 and discards writes, but in paddock mode for its MSI-X table and pending-bit array
(R428, R434). -/
def Landing.early (l : Landing) (paddock : Bool) : Landing :=
  match l with
  | .table i => if paddock then .table i else .nothing
  | .pba i => if paddock then .pba i else .nothing
  | .reg _ _ => .nothing
  | .desc _ _ => .nothing
  | .nothing => .nothing

/-- A control core as the sender of a register access: function number 64 and up stands for core 0 and up (log 132). -/
def coreOf (fn : Nat) : Option Nat := if 64 ≤ fn ∧ fn < 72 then some (fn - 64) else none

/-- Where a control core's access lands: BAR0's registers, whatever the stage, once its firmware runs and it is not halted; only CC4
writes LINK_CTRL and CWAY_CTRL (R333, R334, R379). -/
def State.landCore (s : State) (c off : Nat) : Landing :=
  let a := off / 4 * 4
  let port := decide (0xA0000 ≤ a ∧ a < 0xA6000) && (a % 0x1000 == 4 || a % 0x1000 == 0x2C)
  if s.stage ≤ stFwVerify ∨ s.coreHalted c ∨ (port ∧ c ≠ 4) ∨ 0x4000000 ≤ off then .nothing else .reg a none

/-- Where an access lands; none where it completes with Unsupported Request, as a function in D3hot has it. -/
def State.land (s : State) (fn bar off : Nat) : Option Landing :=
  match coreOf fn with
  | some c => some (s.landCore c off)
  | none =>
  if s.stage ≤ stNvLoad ∧ !s.paddock then none else
  if fn = 0 then
    if (s.fnCfg 0).d3 then none else
    if bar = 0 then some (s.land0 off) else if bar = 2 ∧ s.ready then some (s.land2 0 off) else none
  else
    match s.vfOpen fn with
    | none => none
    | some p => if bar = 0 then some (if s.ready then landVf p off else (landVf p off).early s.paddock) else if bar = 2 ∧ s.ready then some (s.land2 fn off) else none

/-! ### Unsupported requests and violations (R342, R359, R360) -/

/-- An access of a virtual function outside its reach: PART_V_VIOL, PART_VIOL, and a PART_VIOLATION record at most once a
second. -/
def State.violation (s : State) (fn p addr : Nat) : State :=
  let s := ((s.unsupported fn).bump (Reg.partVViol.vf p)).bump (Reg.partViol.sel p)
  let quiet := match (s.partGet p).violAt with | some w => decide (s.now < w + secTicks 1) | none => false
  if quiet then s else
  ((s.partSet p { s.partGet p with violAt := some s.now }).pciRecord 0 0x72 fn p addr).pkgEvent .pci

/-! ### Register commands -/

/-- The selection an own landing brings, or the SEL register's. -/
def State.landedWord (s : State) (a : Nat) (sel : Option Nat) : RegWord :=
  match sel with
  | some i => { regWord a with sel := i }
  | none => s.wordAt a

/-- One 32-bit write. -/
def State.write32 (s : State) (fn bar off v : Nat) : State :=
  match s.land fn bar off with
  | none => s.unsupported fn
  | some (.reg a sel) => s.writeReg (s.landedWord a sel) v
  | some (.table i) => s.setTableWord fn i v
  | some _ => s

/-- REGISTER_WRITE (R4 to R6, R8, R359): function, BAR, offset, size in bytes, value; a poisoned one is dropped. -/
def execRegisterWrite (fn bar off size value : Nat) (poison : Bool) (s : State) : Host.Outcome State Fault Refusal :=
  if poison then .next (s.poisonedWrite fn off) else
  if (size ≠ 4 ∧ size ≠ 8) ∨ off % size ≠ 0 then .next s else
  let s := s.write32 fn bar off (value % 2 ^ 32)
  .next (if size = 8 then s.write32 fn bar (off + 4) (value / 2 ^ 32 % 2 ^ 32) else s)

/-- The bytes of a descriptor as a read finds them: the slot's state in the state word (R229). -/
def State.descByte (s : State) (g i : Nat) : Nat :=
  if i = 0 then (s.slot g).st.code else if i < 4 then 0 else s.codedByte (descAddr g + i)

/-- One 32-bit read: the word and whether it carries the poisoned mark (R274), or none where it ends in Unsupported Request.
A descriptor is read through the code. -/
def State.read32 (s : State) (fn bar off : Nat) : Option (Nat × Bool) × State :=
  match s.land fn bar off with
  | none => (none, s.unsupported fn)
  | some (.reg a sel) => let r := s.readReg (s.landedWord a sel); (some (r.1, false), r.2)
  | some (.table i) => (some (s.tableWord fn i, false), s)
  | some (.pba i) => (some (s.pbaWord fn i, false), s)
  | some (.desc g o) =>
    let a := o / 4 * 4
    let r := s.readThrough unitPackage (descAddr g + a) 4
    (some (leValue ((List.range 4).map (fun i => s.descByte g (a + i))), r.2.1), r.2.2)
  | some .nothing => (some (0, false), s)

/-- `n` words from an aligned offset on, the lowest first: their bytes, and whether any is poisoned. -/
def State.readWords (fn bar off : Nat) : (n : Nat) → (s : State) → Option (List Nat × Bool) × State
  | 0, s => (some ([], false), s)
  | n + 1, s =>
    let r := s.read32 fn bar off
    match r.1 with
    | none => (none, r.2)
    | some w =>
      let q := State.readWords fn bar (off + 4) n r.2
      (q.1.map (fun b => (leBytes 4 w.1 ++ b.1, w.2 || b.2)), q.2)

/-- A read of `size` bytes (R228: of any size in BAR2): the words that it touches, the lowest first, of which it returns the
bytes it names. -/
def State.hostRead (s : State) (fn bar off size : Nat) : State :=
  if bar = 2 ∧ 0x4000000 ≤ off then s.resultRead fn ((off - 0x4000000) / 0x1000) (off % 0x1000) size else
  let r := State.readWords fn bar (off / 4 * 4) (max 1 (ceilDiv (off % 4 + size) 4)) s
  r.2.send (match r.1 with
    | none => .completion 1 []
    | some b => .completion (if b.2 then 2 else 0) (slice b.1 (off % 4) size))

/-- READ_CLEAR_COUNTER (R7): a read of a word with RC fields. -/
def execReadClearCounter (fn bar off size : Nat) (s : State) : Host.Outcome State Fault Refusal :=
  .next (s.hostRead fn bar off size)

/-- LATCHING_LO_READ (R522): a read of a _LO register. -/
def execLatchingLoRead (fn bar off size : Nat) (s : State) : Host.Outcome State Fault Refusal :=
  .next (s.hostRead fn bar off size)

/-! ### Configuration requests (R335, R354, R428) -/

/-- Vendor, device, subsystem vendor, subsystem, revision and class code of a function. -/
def identityBytes (fn : Nat) : List Nat :=
  leBytes 2 0x1F3B ++ leBytes 2 (if fn = 0 then 0x7160 else 0x7161) ++ leBytes 2 0x1F3B ++ leBytes 2 0x00B0 ++ [0xB0] ++
  leBytes 3 0x120000

/-- The function of a request that names one. -/
def cfgFn : ConfigReq → Nat
  | .field fn _ | .power fn _ | .ats fn _ | .msix fn _ _ | .sizes fn _ _ | .acs fn _ | .aer fn _ _ | .identity fn | .read fn _
  | .write fn _ _ => fn
  | .sriov _ | .bar4 _ _ => 0

/-- A function is there: physical function 0, or an enabled virtual function (R335). -/
def State.fnPresent (s : State) (fn : Nat) : Bool := fn == 0 || (s.pci.vfEnable && decide (fn ≤ s.pci.numVfs))

/-- The value of a configuration field. -/
def State.cfgValue (s : State) (fn : Nat) : CfgField → Nat
  | .power => if (s.fnCfg fn).d3 then 3 else 0
  | .ats => bitWord [(s.fnCfg fn).ats]
  | .msix => bitWord [(s.fnCfg fn).maskAll, (s.fnCfg fn).msix]
  | .sizes => (s.fnCfg fn).payload + 8 * (s.fnCfg fn).readReq
  | .acs => (s.fnCfg fn).acs
  | .aer => (s.fnCfg fn).aer + 8 * (s.fnCfg fn).aerMask
  | .sriov => s.pci.numVfs * 2 + bitWord [s.pci.vfEnable]
  | .bar4 => if fn = 0 then s.pci.bar4 else s.pci.vfBar4

/-- A function's messages are enabled or masked as a whole; what its vectors hold back leaves. -/
def State.cfgMsix (s : State) (fn : Nat) (on maskAll : Bool) : State :=
  (s.setFnCfg fn { s.fnCfg fn with msix := on, maskAll := maskAll }).each (List.range (fnVectors fn)) (fun s v => s.vecRelease fn v)

/-- ATS of a function is enabled, or disabled with its translations dropped. -/
def State.cfgAts (s : State) (fn : Nat) (on : Bool) : State :=
  let s := s.setFnCfg fn { s.fnCfg fn with ats := on }
  if on then s else { s with pci := { s.pci with atc := s.pci.atc.filter (fun e => e.1 != fn) } }

/-- CONFIG_REQUEST (R335, R428): values as the base specification has them, within the limits of R335 (log 131). -/
def execConfigRequest (r : ConfigReq) (s : State) : Host.Outcome State Fault Refusal :=
  if s.stage ≤ stNvLoad ∧ !s.paddock then .next (s.send (.completion 3 [])) else
  if !s.fnPresent (cfgFn r) then .next ((s.unsupported (cfgFn r)).send (.completion 1 [])) else
  .next (match r with
  | .identity fn => s.send (.completion 0 (identityBytes fn))
  | .field fn f => s.send (.completion 0 (leBytes 4 (s.cfgValue fn f)))
  | .power fn d3 => ((s.setFnCfg fn { s.fnCfg fn with d3 := d3 }).each (List.range (fnVectors fn)) (fun s v => s.vecRelease fn v)).send
      (.completion 0 [])
  | .ats fn on => (s.cfgAts fn on).send (.completion 0 [])
  | .msix fn on mask => (s.cfgMsix fn on mask).send (.completion 0 [])
  | .sizes fn payload readReq => (s.setFnCfg fn { s.fnCfg fn with payload := min 2 payload, readReq := min 5 readReq }).send (.completion 0 [])
  | .acs fn bits => (s.setFnCfg fn { s.fnCfg fn with acs := bits % 2 ^ 16 }).send (.completion 0 [])
  | .aer fn clear mask =>
    let c := s.fnCfg fn
    (s.setFnCfg fn { c with aer := c.aer - (c.aer &&& clear), aerMask := mask % 8 }).send (.completion 0 [])
  | .sriov n => { s with pci := { s.pci with vfEnable := true, numVfs := min 32 n } }.send (.completion 0 [])
  | .bar4 vf g =>
    let g := clampNat 8 (if vf then 64 else 512) g
    { s with pci := if vf then { s.pci with vfBar4 := g } else { s.pci with bar4 := g } }.send (.completion 0 [])
  | .read _ _ => let d := s.draw; d.2.send (.completion 0 (leBytes 4 d.1))
  | .write _ _ _ => s.send (.completion 0 []))

/-! ### BAR4 (R197, R340 to R342, R359) -/

/-- The tensor address of a BAR4 offset, where it is mapped. -/
def State.bar4Addr (s : State) (fn off : Nat) : Option Nat :=
  let gib := if fn = 0 then s.pci.bar4 else s.pci.vfBar4
  let first := if fn = 0 then s.fget Reg.pciDramBaseBase else
    match s.vfPart fn with | some p => s.fget (Reg.partVDramBaseBase.vf p) | none => 0
  if off < 0x8C000000 then some off
  else if off < 0x100000000 ∨ gib * 2 ^ 30 ≤ off then none
  else
    let a := first * 2 ^ 30 + (off - 0x100000000)
    if a < dramBytes then some (dramBase + a) else none

/-- The address of a range that a function reaches through BAR4. -/
def State.bar4Range (s : State) (fn off n : Nat) : Option Nat :=
  match s.bar4Addr fn off, s.bar4Addr fn (off + (n - 1)) with
  | some a, some b =>
    if b ≠ a + (n - 1) then none else
    if fn = 0 then (if mapped a n then some a else none) else
    match s.vfPart fn with
    | some p => if s.reaches p a n then some a else none
    | none => none
  | _, _ => none

/-- BAR4 answers: READY, and for a virtual function its partition. -/
def State.bar4Open (s : State) (fn : Nat) : Bool := s.ready && (if fn = 0 then !(s.fnCfg 0).d3 else (s.vfOpen fn).isSome)

/-- An access that BAR4 refuses. -/
def State.bar4Refuse (s : State) (fn off : Nat) : State :=
  match (if s.bar4Open fn && fn != 0 then s.vfPart fn else none) with
  | some p => s.violation fn p off
  | none => s.unsupported fn

/-- HOST_BAR4_READ (R341, R342, R359). -/
def execHostBar4Read (fn off n : Nat) (s : State) : Host.Outcome State Fault Refusal :=
  match (if s.bar4Open fn then s.bar4Range fn off n else none) with
  | none => .next ((s.bar4Refuse fn off).send (.completion 1 []))
  | some a =>
    let r := s.readThrough unitPackage a n
    .next (r.2.2.send (.completion (if r.2.1 then 2 else 0) r.1))

/-- HOST_BAR4_WRITE (R18, R341, R342, R359); `poison`: the TLP is poisoned, so it is dropped. -/
def execHostBar4Write (fn off : Nat) (bytes : List Nat) (poison : Bool) (s : State) : Host.Outcome State Fault Refusal :=
  match (if s.bar4Open fn then s.bar4Range fn off bytes.length else none) with
  | none => .next (s.bar4Refuse fn off)
  | some a =>
    if poison then .next (s.poisonedWrite fn off) else .next (s.hostWrite a (bytes.map (· % 256)))

end Sys2Proof.Machine
end

