-- ==== Sys2Proof/Machine/Debug.lean ====
section
/-!
DEFINITION. Debug, trace and counters (R485 to R504, R518): the Fiprel port, the unlock, debug accesses and run control, clock
stops, the wait-for graph, the trace unit, tensor dumps and the operation counters.
-/
namespace Sys2Proof.Machine

/-! ### The Fiprel port (R485) -/

/-- The port holds an instruction that drives no pin. -/
def State.tapIr (s : State) (ir : Nat) : State := { s with dbgState := { s.dbgState with ir := ir, driving := false } }

/-- TAP_RESET: the instruction is IDCODE. -/
def execTapReset (s : State) : Host.Outcome State Fault Refusal := .next (s.tapIr 0x01)

/-- BYPASS, and every value that names no instruction: one bit, captured as 0. -/
def State.bypass (s : State) : State := (s.tapIr 0xFF).send (.tdo 1 0)

def execBypass (s : State) : Host.Outcome State Fault Refusal := .next s.bypass

/-- `n` boundary cells are captured, from pins that the board drives, and `cells` shifted in. -/
def State.scanCells (s : State) (n cells : Nat) : State :=
  let r := s.draw
  { r.2 with dbgState := { r.2.dbgState with boundary := cells % 2 ^ n } }.send (.tdo n (r.1 % 2 ^ n))

/-- EXTEST, honoured only while PERST_N is low: the boundary cells drive the pins. -/
def execExtest (n cells : Nat) (s : State) : Host.Outcome State Fault Refusal :=
  if s.stage ≠ stPor then .next s.bypass else
  let s := s.scanCells n cells
  .next { s with dbgState := { s.dbgState with ir := 0x00, driving := true } }

/-- CLAMP, honoured only while PERST_N is low: the cells preloaded drive the pins, the data register is bypass. -/
def execClamp (s : State) : Host.Outcome State Fault Refusal :=
  if s.stage ≠ stPor then .next s.bypass else
  .next ({ s with dbgState := { s.dbgState with ir := 0x04, driving := true } }.send (.tdo 1 0))

/-- IDCODE. -/
def execIdcode (s : State) : Host.Outcome State Fault Refusal := .next ((s.tapIr 0x01).send (.tdo 32 0x17160A6B))

/-- SAMPLE/PRELOAD. -/
def execSamplePreload (n cells : Nat) (s : State) : Host.Outcome State Fault Refusal :=
  .next ((s.tapIr 0x02).scanCells n cells)

/-- CHALLENGE: the 256 bits of DBG_CHALLENGE (R486). -/
def execTapChallenge (s : State) : Host.Outcome State Fault Refusal :=
  .next ((s.tapIr 0x10).send (.tdo 256 (leValue s.dbgState.challenge)))

/-! ### Results and the unlock (R486 to R488, R503) -/

def dbDone : Nat := 0x01
def dbFormat : Nat := 0x02
def dbChallenge : Nat := 0x03
def dbSignature : Nat := 0x04
def dbNotAccepted : Nat := 0x05
def dbDma : Nat := 0x06
def dbScope : Nat := 0x07
def dbDumpRange : Nat := 0x08
def dbDumpBusy : Nat := 0x09
def dbRegion : Nat := 0x0A

def State.dbgResult (s : State) (code : Nat) : State := s.fset Reg.dbgResultCode code

/-- A DEBUG_REFUSED record, at most one a second. -/
def State.debugRefused (s : State) (ctx : List Nat) : State :=
  let quiet := match s.dbgState.refusedAt with | some w => decide (s.now < w + secTicks 1) | none => false
  if quiet then s else
  { s with dbgState := { s.dbgState with refusedAt := some s.now } }.record 0 0 0x82 (unitCore 7) ctx

/-- SCOPE bits: 0 RUN, 1 READ, 2 WRITE. -/
def State.scoped (s : State) (b : Nat) : Bool := s.flag Reg.dbgStatusUnlocked && (s.fget Reg.dbgStatusScope).testBit b

/-- UNLOCK_ACCEPT of the DEBUG section, or its default (R488, R502). -/
def State.unlockAccept (s : State) : Nat := if s.paddock then 1 else s.debugCfg 0 1 1

/-- The keys that an unlock verifies under. -/
def State.unlockKeys (s : State) : List (List Nat) := if s.nv.ownerKey.isEmpty then s.nv.debugKeys else [s.nv.ownerKey]

/-- The unlock record's own fields hold what R487 says. -/
def State.unlockFormat (s : State) (b : List Nat) : Bool :=
  field b 0 4 == 0x5544574C && field b 4 2 == 1 && decide (field b 6 2 < 8) && slice b 8 8 == padTo 8 s.nv.identity &&
  allZero (slice b 56 8) && allZero (slice b 3373 3)

/-- The verdict on an unlock record. -/
def State.unlockCheck (s : State) (b : List Nat) : Nat :=
  if !s.unlockFormat b then dbFormat
  else if slice b 16 32 ≠ padTo 32 s.dbgState.challenge ∨ field b 48 4 ≠ s.nv.startCount % 2 ^ 32 then dbChallenge
  else if !s.unlockKeys.any (fun k => Config.mldsaVerify k (Config.shake256 (slice b 0 64)) (slice b 64 3309) "LW7160-DEBUG")
    then dbSignature
  else if s.unlockAccept ≠ 1 then dbNotAccepted else dbDone

/-- The context of an unlock's record: SCOPE, DURATION. -/
def unlockContext (b : List Nat) : List Nat := slice b 6 2 ++ zeros 2 ++ slice b 52 4

/-- DBG_CHALLENGE is renewed. -/
def State.renewDebug (s : State) : State :=
  let r := s.drawRandom
  { r.2 with dbgState := { r.2.dbgState with challenge := r.1 } }

/-- The device is unlocked with the record's SCOPE, for its DURATION. -/
def State.unlocked (s : State) (b : List Nat) : State :=
  let d := field b 52 4
  let s := { s with dbgState := { s.dbgState with
    unlockEnd := if d = 0 then none else some (s.now + secTicks d), everUnlocked := true } }
  let s := ((s.fset Reg.dbgStatusScope (field b 6 2)).raise Reg.dbgStatusUnlocked).raise Reg.secStatusDebugUnlocked
  (s.record 0 0 0x80 (unitCore 7) (unlockContext b)).pkgEvent .debug

/-- An unlock attempt: accepted or refused, the challenge is renewed. -/
def State.unlockTry (s : State) (err : Bool) (bytes : List Nat) : State :=
  let b := padTo 3376 (bytes.map (· % 256))
  let code := if err then dbDma else s.unlockCheck b
  let s := if code = dbDone then s.unlocked b else s.debugRefused (if err then [] else unlockContext b)
  (s.dbgResult code).renewDebug

/-- UNLOCK through the Fiprel port. -/
def execTapUnlock (bytes : List Nat) (s : State) : Host.Outcome State Fault Refusal :=
  .next ((s.tapIr 0x11).unlockTry false bytes)

/-- DBG_UNLOCK: DBG_CTRL.UNLOCK pulls the record from the host address in DBG_UNLOCK; `err` where that read failed. -/
def execDbgUnlock (err : Bool) (bytes : List Nat) (s : State) : Host.Outcome State Fault Refusal :=
  .next (s.unlockTry (s.dmaError err) bytes)

/-! ### Halts (R490, R491) -/

/-- The cores that a run control of core `c` reaches: a lockstep pair acts as one. -/
def pairOf (c : Nat) : List Nat := if c < 4 then [c / 2 * 2, c / 2 * 2 + 1] else [c]

/-- DBG_STATUS.HALTED follows the cores. -/
def State.showHalted (s : State) : State :=
  s.fset Reg.dbgStatusHalted (((List.range 8).map (fun c => if s.coreHalted c then 2 ^ c else 0)).sum)

/-- A core halts with a cause, at a code position of its firmware. -/
def State.haltCore (s : State) (cause c : Nat) : State :=
  let r := s.draw
  let s := r.2.fset64 (Reg.pcLo.unit c) (Reg.pcHi.unit c) r.1
  let s := ((s.raise (Reg.runstatHalted.unit c)).fset (Reg.runstatCause.unit c) cause).showWait c 13 0 nobody s.now
  s.showHalted

/-- Words written to a core's local memory may be the firmware's again once it has run. -/
def State.coreRan (s : State) (c : Nat) : State :=
  { s with dbgState := { s.dbgState with coreMem := s.dbgState.coreMem.map (fun e =>
      if e.1 / 2 ^ 64 = (pairOf c).headD c then (e.1, (e.2 + 1) / 2 * 2) else e) } }

/-- What a core had to leave while it was halted (R22, R491): CC0 abandons the steps whose slots were all cancelled; CC5 goes on with
the retirements and calibrations that wait. -/
def State.coreWork (s : State) (c : Nat) : State :=
  if c = 0 then s.each (s.steps.map (·.id)) (fun s id => if (s.stepSlots id).isEmpty then s.abandonBoth id else s)
  else if c = 5 then s.each s.listedTeams (fun s t => ((s.nextRetire t).nextCal t).showTeam t)
  else s

/-- A halted core resumes. -/
def State.resumeCore (s : State) (c : Nat) : State :=
  if !s.coreHalted c then s else
  ((((s.clear (Reg.runstatHalted.unit c)).showWait c 0 0 0 0).coreRan c).showHalted).coreWork c

/-- HALT at a unit. -/
def State.halt (s : State) (u : Nat) : State :=
  if u < 8 then (if s.coreHalted u then s else s.each (pairOf u) (fun s c => s.haltCore 1 c))
  else if 32 ≤ u ∧ u < 64 then (if (s.seq (u - 32)).halted then s else s.haltSeq (u - 32) 1 0)
  else s

/-- RESUME at a unit. -/
def State.resume (s : State) (u : Nat) : State :=
  if u < 8 then s.each (pairOf u) State.resumeCore
  else if 32 ≤ u ∧ u < 64 then s.resumeSeq (u - 32)
  else s

/-- STEP at a halted unit: a core executes one instruction of its firmware, a sequencer its next one. -/
def State.stepUnit (s : State) (u : Nat) : State :=
  if u < 8 then
    if !s.coreHalted u then s else (s.each (pairOf u) (fun s c => s.haltCore 2 c)).coreRan u
  else if 32 ≤ u ∧ u < 64 then
    let q := s.seq (u - 32)
    if !q.halted then s else s.setSeqr (u - 32) { q with stepping := true, skipBp := true }
  else s

/-- The armed breakpoints of a core; OPCODE is a sequencer's type. -/
def State.coreArmed (s : State) (c : Nat) : List Nat :=
  (List.range 8).filter (fun k => s.flag ((Reg.bpCtrlEnable.unit c).nth k) && s.fget ((Reg.bpCtrlType.unit c).nth k) != 3)

/-- Whether a core's firmware meets an armed breakpoint is a free choice; a hit acts as a sequencer's does (R490). -/
def State.coreBreak (s : State) (c k : Nat) : State :=
  let r := s.draw
  if r.1 % 2 = 0 ∨ s.coreHalted c then r.2 else
  let q := r.2.draw
  let trace := s.flag ((Reg.bpCtrlAction.unit c).nth k)
  let s := if trace then q.2.traceEvent 3 (unitCore c) 0x40 (k :: leBytes 8 q.1) else q.2
  let s := if s.flag ((Reg.bpCtrlTrig.unit c).nth k) then s.traceTrigger 2 else s
  if trace then s else s.each (pairOf c) (fun s d => (s.haltCore 3 d).fset (Reg.runstatBp.unit d) k)

/-- Where TRC_SRC enables them, a core's firmware may write a CORE entry: event code and arguments are its own (R495). -/
def State.coreEvent (s : State) (c : Nat) : State :=
  if !s.trace.src.testBit 8 then s else
  let r := s.draw
  if r.1 % 2 = 0 then r.2 else
  let q := r.2.draw
  q.2.traceEvent 8 (unitCore c) 0x90 (leBytes 12 q.1)

/-- The firmware of the cores that run goes on: it meets breakpoints and writes trace entries (log 50). -/
def State.coresRun (s : State) : State :=
  if s.stage ≤ stFwVerify ∨ s.hubStopped then s else
  s.each (List.range 8) (fun s c => if s.coreHalted c then s else (s.each (s.coreArmed c) (fun s k => s.coreBreak c k)).coreEvent c)

/-- RUNCTL_HALT, RUNCTL_RESUME and RUNCTL_STEP, under SCOPE RUN. -/
def execRunctlHalt (u : Nat) (s : State) : Host.Outcome State Fault Refusal := .next (if s.scoped 0 then s.halt u else s)
def execRunctlResume (u : Nat) (s : State) : Host.Outcome State Fault Refusal := .next (if s.scoped 0 then s.resume u else s)
def execRunctlStep (u : Nat) (s : State) : Host.Outcome State Fault Refusal := .next (if s.scoped 0 then s.stepUnit u else s)

/-! ### Leaving the unlocked state (R488) -/

/-- The units that have run control and breakpoints. -/
def runUnits : List Nat := List.range 8 ++ (List.range 32).map (32 + ·)

/-- Every breakpoint of a unit is cleared. -/
def State.clearBreaks (s : State) (u : Nat) : State :=
  s.each (List.range 8) (fun s k =>
    let s := (s.clear ((Reg.bpAddrLo.unit u).nth (2 * k))).clear ((Reg.bpAddrHi.unit u).nth (2 * k))
    (((s.clear ((Reg.bpCtrlTrig.unit u).nth k)).clear ((Reg.bpCtrlAction.unit u).nth k)).clear
      ((Reg.bpCtrlType.unit u).nth k)).clear ((Reg.bpCtrlEnable.unit u).nth k))

/-- A region that debug stopped restarts, unless something else holds it. -/
def State.debugRestart (s : State) (r : Nat) : State :=
  if (s.region r).stopped && (s.region r).dbg && !s.heldStopped r then s.startRegion r 1 else s

/-- The device leaves its unlocked state. -/
def State.lock (s : State) : State :=
  let s := s.each runUnits (fun s u => (s.resume u).clearBreaks u)
  let s := s.each (List.range 32) State.debugRestart
  let s := { s with dbgState := { s.dbgState with unlockEnd := none } }
  ((s.clear Reg.dbgStatusScope).clear Reg.dbgStatusUnlocked).clear Reg.secStatusDebugUnlocked

/-- DBG_LOCK. -/
def execDbgLock (s : State) : Host.Outcome State Fault Refusal := .next (if s.flag Reg.dbgStatusUnlocked then s.lock else s)

/-- UNLOCK_DURATION_EXPIRE. -/
def execUnlockDurationExpire (s : State) : Host.Outcome State Fault Refusal :=
  .next (if s.flag Reg.dbgStatusUnlocked && s.dbgState.unlockEnd.isSome then s.lock else s)

/-! ### Clock stops (R492) -/

/-- DBG_CTRL names a region for CLOCK_STOP or CLOCK_RUN, which SCOPE RUN allows and which is no hub: the lockstep pairs sit in
the hub. -/
def State.clockCommand (s : State) (r : Nat) (f : State → State) : State :=
  let s := s.fset Reg.dbgCtrlRegion r
  if !s.scoped 0 then (s.dbgResult dbScope).debugRefused []
  else if 32 ≤ r % 64 then s.dbgResult dbRegion
  else (f s).dbgResult dbDone

/-- DBG_CLOCK_STOP. -/
def execDbgClockStop (r : Nat) (s : State) : Host.Outcome State Fault Refusal :=
  .next (s.clockCommand r (fun s =>
    if (s.region (r % 64)).stopped then s else
    let s := s.stopRegion (r % 64)
    s.setRegion (r % 64) { s.region (r % 64) with dbg := true }))

/-- DBG_CLOCK_RUN. -/
def execDbgClockRun (r : Nat) (s : State) : Host.Outcome State Fault Refusal :=
  .next (s.clockCommand r (fun s => s.debugRestart (r % 64)))

/-! ### Trace entries as bytes (R494) -/

def TraceEntry.bytes (e : TraceEntry) : List Nat :=
  leBytes 8 e.way ++ leBytes 4 e.source ++ [e.kind, e.flags, e.region, e.pad] ++ leBytes 4 e.cycle ++ padTo 12 e.data

def traceOf (b : List Nat) : TraceEntry :=
  { way := field b 0 8, source := field b 8 4, kind := field b 12 1, flags := field b 13 1, region := field b 14 1,
    pad := field b 15 1, cycle := field b 16 4, data := slice b 20 12 }

/-- The number that stands for a block of the trace buffer among the blocks of the tensor space, where the buffer has none. -/
def traceBlock (i : Nat) : Nat := 2 ^ 50 + i

/-- An entry of the buffer is a block of hub memory: its bytes as the code delivers them; one that was never written reads 0. -/
def State.traceBytes (s : State) (i : Nat) : List Nat :=
  let e := Map.get {} s.trace.buf i
  let b := e.bytes
  match blockVerdict e.syn with
  | .ceData r c => (List.range 32).map (fun k => if k = mendByte r c then flipBit (b.getD k 0) (mendBit r c) else b.getD k 0)
  | _ => b

def State.setTrace (s : State) (i : Nat) (e : TraceEntry) : State :=
  { s with trace := { s.trace with buf := Map.set {} s.trace.buf i e } }

/-- A block of the buffer is read through the code (R272, R273): counted and recorded; a CE is written back. -/
def State.traceBlockRead (s : State) (i : Nat) : State :=
  let e := Map.get {} s.trace.buf i
  let hard := s.hardBlocks.contains (traceBlock i)
  let ctx := memContext (32 * traceBlock i) 0 e.syn
  match blockVerdict e.syn with
  | .clean => s
  | .ue =>
    let s := (s.bump Reg.sramUe).recordAs true 1 4 0x42 (unitCore 7) ctx
    if hard then (s.bump Reg.memHard).recordAs true 1 4 0x41 (unitCore 7) ctx else s
  | _ =>
    let s := s.bump Reg.sramCe
    if hard then (s.bump Reg.memHard).record 0 4 0x41 (unitCore 7) ctx
    else (s.setTrace i (traceOf (s.traceBytes i))).recordSoft (unitCore 7) (32 * traceBlock i) 0 e.syn

/-- An entry of the buffer holds an uncorrectable block. -/
def State.traceUe (s : State) (i : Nat) : Bool := blockVerdict (Map.get {} s.trace.buf i).syn == .ue

/-! ### The wait-for graph (R499, R500) -/

/-- The unit identifier of a debug unit. -/
def debugUnit (u : Nat) : Nat :=
  if u < 8 then unitCore u else if u < 64 then unitSeq (u - 32) else if u < 832 then unitTeam (u - 64)
  else if u < 838 then unitColl (u - 832) else if u = 838 then unitKv else unitLoad (u - 839)

/-- The wait of a debug unit, where it waits. -/
def State.waitOf (s : State) (u : Nat) : Option Wait :=
  let r := s.fget (Reg.waitReason.unit u)
  if r = 0 then none else
  some { unit := debugUnit u, on := s.fget (Reg.waitOn.unit u), reason := r, detail := s.fget (Reg.waitDetail.unit u),
         since := s.fget64 (Reg.waitSinceLo.unit u) (Reg.waitSinceHi.unit u) }

/-- CC7's snapshot of every unit. -/
def State.waitSnapshot (s : State) : List Wait := (List.range 872).filterMap s.refreshWaits.waitOf

/-- The unit that a unit waits on. -/
def waitsOn (ws : List Wait) (u : Nat) : Option Nat := (ws.find? (fun w => w.unit == u)).map (fun w => w.on)

/-- Whether following the waits from `cur` comes to `u` within a number of moves. -/
def reachesUnit (ws : List Wait) (u : Nat) : Nat → Nat → Bool
  | 0, _ => false
  | n + 1, cur =>
    match waitsOn ws cur with
    | none => false
    | some v => v == u || reachesUnit ws u n v

/-- A wait lies in a cycle. -/
def inCycle (ws : List Wait) (w : Wait) : Bool := reachesUnit ws w.unit ws.length w.unit

/-- The partition of a unit. -/
def State.unitPartition (s : State) (u : Nat) : Option Nat :=
  let i := u % 2 ^ 28
  match u / 2 ^ 28 with
  | 2 | 7 => s.stringPart i
  | 3 => s.teamPart i
  | 11 => if i = 0 then none else some (i - 1)
  | _ => none

/-- A node of the graph. -/
def nodeBytes (ws : List Wait) (w : Wait) : List Nat :=
  leBytes 4 w.unit ++ leBytes 4 w.on ++ [w.reason, if inCycle ws w then 1 else 0, 0, 0] ++ leBytes 8 w.since ++ leBytes 4 w.detail

/-- CC7 starts to build a graph: the first snapshot. -/
def State.startGraph (s : State) : State :=
  if s.coreHalted 7 || s.dbgState.graph.isSome then s else
  let ws := s.waitSnapshot
  { s with dbgState := { s.dbgState with graph := some ws } }.raise Reg.dbgWfgStatusBusy

/-- DBG_WFG. -/
def execDbgWfg (s : State) : Host.Outcome State Fault Refusal := .next s.startGraph

/-- HANG_MS of the DEBUG section. -/
def State.hangMs (s : State) : Nat := s.debugCfg 10 2 100

/-- HANG_TIMEOUT: a step has run HANG_MS without reaching its milepost; once per step. -/
def execHangTimeout (id : Nat) (s : State) : Host.Outcome State Fault Refusal :=
  match s.step? id with
  | none => .next s
  | some y =>
    if !y.posted || y.atMilepost || s.hangMs == 0 || s.dbgState.hung.contains id || s.coreHalted 7 then .next s else
    .next ({ s with dbgState := { s.dbgState with hung := s.dbgState.hung ++ [id] } }.startGraph)

/-- A HANG record, and its trigger. -/
def State.recordHang (s : State) (loops : List Wait) : State :=
  let parts := (loops.filterMap (fun w => s.unitPartition w.unit)).eraseDups
  let first := match loops with | w :: _ => w.unit | [] => 0
  let ctx := leBytes 4 first ++ leBytes 4 loops.length ++ leBytes 4 ((parts.map (fun p => 2 ^ p)).sum)
  (s.record 0 0 0x81 (unitCore 7) ctx).traceTrigger 4

/-- The graph is written to DBG_WFG, where that is not 0. -/
def State.writeGraph (s : State) (ws : List Wait) (cycle : Nat) : State :=
  let a := s.fget Reg.dbgWfgLo * 64 + s.fget Reg.dbgWfgHi * 2 ^ 32
  let b := leBytes 8 s.now ++ leBytes 4 ws.length ++ leBytes 4 cycle ++ zeros 48 ++ (ws.map (nodeBytes ws)).flatten
  if a = 0 ∨ !mapped a b.length then s else s.writeThrough (unitCore 7) a b

/-- WFG_SECOND_SNAPSHOT: the waits of both snapshots with the same WAIT_SINCE are kept, and cycles marked. -/
def execWfgSecondSnapshot (s : State) : Host.Outcome State Fault Refusal :=
  match s.dbgState.graph with
  | none => .next s
  | some first =>
    if s.coreHalted 7 then .next s else
    let second := s.waitSnapshot
    let kept := (second.filter (fun w => first.any (fun v => v.unit == w.unit && v.since == w.since && v.reason == w.reason))).take 8192
    let loops := kept.filter (inCycle kept)
    let s := { s with dbgState := { s.dbgState with graph := none } }.clear Reg.dbgWfgStatusBusy
    let s := (s.fput Reg.dbgWfgStatusCycle (!loops.isEmpty)).fset Reg.dbgWfgStatusNodes kept.length
    let s := s.writeGraph kept loops.length
    .next (if loops.isEmpty then s else s.recordHang loops)

/-! ### Trace control (R493, R496, R518) -/

/-- TRC_ARM, refused during a copy. -/
def execTrcArm (s : State) : Host.Outcome State Fault Refusal := .next (if s.flag Reg.trcStatusCopying then s else s.armTrace)

/-- TRC_STOP freezes capture without a trigger. -/
def execTrcStop (s : State) : Host.Outcome State Fault Refusal :=
  let st := s.fget Reg.trcStatusState
  .next (if st = trcRing ∨ st = trcPost then s.fset Reg.trcStatusState trcStopped else s)

/-- TRC_TRIGGER raises the SOFTWARE trigger. -/
def execTrcTrigger (s : State) : Host.Outcome State Fault Refusal := .next (s.traceTrigger 5)

/-- TRC_COPY, accepted only while capture is FROZEN or STOPPED. -/
def execTrcCopy (s : State) : Host.Outcome State Fault Refusal :=
  let st := s.fget Reg.trcStatusState
  .next (if st = trcFrozen ∨ st = trcStopped then s.raise Reg.trcStatusCopying else s)

/-- The entries of the buffer, oldest first. -/
def State.traceList (s : State) : List Nat :=
  let n := min s.trace.written 524288
  let h := s.fget Reg.trcStatusHead
  (List.range n).map (fun i => (h + 524288 - n + i) % 524288)

/-- An entry of the buffer is copied to a block of the tensor space, which is poisoned where the entry is uncorrectable. -/
def State.copyTraceBlock (s : State) (a i : Nat) : State :=
  let t := (s.traceBlockRead i).writeThrough (unitCore 7) a (s.traceBytes i)
  if s.traceUe i then { t with syndromes := Map.set 0 t.syndromes (a / 32) poisonSyndrome } else t

/-- TRACE_COPY_COMPLETE: the entries stand in the DRAM tier at TRC_DST. -/
def execTraceCopyComplete (s : State) : Host.Outcome State Fault Refusal :=
  if !s.flag Reg.trcStatusCopying then .next s else
  let a := dramBase + s.fget Reg.trcDstLo * 64 + s.fget Reg.trcDstHi * 2 ^ 32
  let es := ((List.range s.traceList.length).zip s.traceList).filter (fun e => mapped (a + 32 * e.1) 32)
  let s := s.each es (fun s e => s.copyTraceBlock (a + 32 * e.1) e.2)
  .next (s.clear Reg.trcStatusCopying)

/-- TRACE_ENTRY_WRITE: the oldest entry that the string or hub unit of a source queues reaches the hub. -/
def execTraceEntryWrite (source : Nat) (s : State) : Host.Outcome State Fault Refusal :=
  match Map.get [] s.trace.queues (traceQueue source) with
  | [] => .next s
  | e :: rest => .next ({ s with trace := { s.trace with queues := Map.set [] s.trace.queues (traceQueue source) rest } }.writeTrace e)

/-- TRACE_TRIG_IN_EDGE: a rising edge on a pin that the PINS group makes TRACE_TRIG_IN. -/
def execTraceTrigInEdge (pin : Nat) (s : State) : Host.Outcome State Fault Refusal :=
  .next (if s.pins.gpioCfg.getD pin 0x08 % 8 = 3 then s.traceTrigger 3 else s)

/-! ### Tensor dumps (R497) -/

/-- The verdict on a dump request's line. -/
def State.dumpCheck (s : State) (d : Dump) : Nat :=
  if !allZero (slice d.line 56 8) ∨ d.len < 64 ∨ 0x4000000 < d.len ∨ d.len % 64 ≠ 0 then dbFormat
  else if s.partStrings d.part = 0 ∨ !s.reaches d.part d.src d.len ∨ !mapped (dramBase + d.dst) (64 + d.len) then dbDumpRange
  else dbDone

/-- DUMP_ARM: the line at DBG_DUMP is read once. -/
def execDumpArm (slot : Nat) (s : State) : Host.Outcome State Fault Refusal :=
  let s := s.fset Reg.dbgDumpCtrlSlot slot
  let i := slot % 16
  if (s.dump? i).isSome then .next (s.dbgResult dbDumpBusy) else
  let a := s.fget Reg.dbgDumpLo * 64 + s.fget Reg.dbgDumpHi * 2 ^ 32
  if memKind a ≠ .sram then .next (s.dbgResult dbFormat) else
  let r := s.readThrough (unitCore 7) a 64
  let d : Dump := { line := r.1, done := 0 }
  let code := if r.2.1 then dbFormat else s.dumpCheck d
  .next ((if code = dbDone then r.2.2.setDump i (some d) else r.2.2).dbgResult code)

/-- DUMP_DISARM. -/
def execDumpDisarm (slot : Nat) (s : State) : Host.Outcome State Fault Refusal :=
  .next ((s.fset Reg.dbgDumpCtrlSlot slot).setDump (slot % 16) none)

/-! ### Operation counters (R501) -/

/-- CNT_SNAP and CNT_CLEAR, for the next waymark microsecond. -/
def execCntSnap (s : State) : Host.Outcome State Fault Refusal := .next { s with dbgState := { s.dbgState with snapAsked := true } }
def execCntClear (s : State) : Host.Outcome State Fault Refusal := .next { s with dbgState := { s.dbgState with clearAsked := true } }

/-- COUNTER_SNAPSHOT_LATCH: at the boundary counters are latched where SNAP asked for it, and then cleared where CLEAR did. -/
def execCounterSnapshotLatch (s : State) : Host.Outcome State Fault Refusal :=
  let d := s.dbgState
  let s := if d.snapAsked then { s with dbgState := { d with snap := d.counts, snapAsked := false } }.fset64 Reg.cntSnapWayLo
    Reg.cntSnapWayHi s.now else s
  .next (if d.clearAsked then { s with dbgState := { s.dbgState with counts := [], clearAsked := false } } else s)

end Sys2Proof.Machine
end

