-- ==== Sys2Proof/Machine/Tick.lean ====
section
/-!
DEFINITION. The string sequencers run their programs (R184): the word at the code position is fetched from SRAM, and its OPCODE and
operand bits pick the instruction. With no command waiting, every sequencer that can issue executes one (log 25).
-/
namespace Sys2Proof.Machine

/-- The outcome's next state; an instruction never ends in a fault or a refusal. -/
def outState (s : State) : Host.Outcome State Fault Refusal → State
  | .next t => t
  | _ => s

/-- A VU instruction by its FUNC (R181). -/
def vuMeaning (x team func a b d count : Nat) (s : State) : Host.Outcome State Fault Refusal :=
  let half := func.testBit 7
  match func % 128 with
  | 0x00 => execVuCopy x team half a d count s
  | 0x01 => execVuAdd x team half a b d count s
  | 0x02 => execVuMul x team half a b d count s
  | 0x03 => execVuFma x team half a b d count s
  | 0x04 => execVuMax x team half a b d count s
  | 0x05 => execVuSum x team half a d count s
  | 0x06 => execVuExp x team half a d count s
  | 0x07 => execVuRsqrt x team half a d count s
  | 0x08 => execVuRecip x team half a d count s
  | 0x09 => execVuSilu x team half a d count s
  | 0x0A => execVuGelu x team half a d count s
  | 0x0B => execVuRmsnorm x team half a b d count s
  | 0x0C => execVuSoftmax x team half a d count s
  | 0x0D => execVuRope x team half a b d count s
  | 0x10 => execVuGather x team half a b d count s
  | 0x11 => execVuScatter x team half a b d count s
  | 0x18 => execVuScore x team half a b d count s
  | 0x19 => execVuValue x team half a b d count s
  | f => if f < 0x28 then execVuToMx x team half (f - 0x20) a d count s else execVuFromMx x team half (f - 0x28) a d count s

/-- An instruction of string `x`. -/
def SeqOp.meaning (x : Nat) (s : State) : SeqOp → Host.Outcome State Fault Refusal
  | .nop => execNop x s
  | .lda a off => execLda x a off s
  | .adda a imm => execAdda x a imm s
  | .loop count len => execLoop x count len s
  | .gopen team a => execGopen x team a s
  | .gclose team group => execGclose x team group s
  | .gwait team group => execGwait x team group s
  | .vec layer group a vectors => execVec x layer group a vectors s
  | .gate set topk inp disp vectors => execGate x set topk inp disp vectors s
  | .vu team func a b d count => vuMeaning x team func a b d count s
  | .loadm model => execLoadm x model s
  | .swap model => execSwapPlanes x model s
  | .swapat model a => execSwapat x model a s
  | .signal str flag => execSignal x str flag s
  | .waitf flag count => execWaitf x flag count s
  | .coll a => execColl x a s
  | .milepost tag => execMilepost x tag s
  | .seqEnd => execSeqEnd x s

/-- The sequencer of string `x` fetches the word at its code position and executes it; a bad word is BAD_INSTRUCTION_FETCH. -/
def State.runSeq (s : State) (x : Nat) : State :=
  match s.seqStep x with
  | none => s
  | some y =>
    if !s.canIssue x then s else
    let r := s.readProg x (s.seq x).pos
    match (if s.codeLen y.part x ≤ (s.seq x).pos || r.2.1 then none else decodeSeq r.1) with
    | some op => if op.legal then outState s (op.meaning x r.2.2) else outState s (execBadInstructionFetch x s)
    | none => outState s (execBadInstructionFetch x s)

/-- Every string sequencer executes its next instruction, in order of string. -/
def State.runPrograms (s : State) : State := s.each ((s.seqs.filter (fun e => e.2.step.isSome)).map (fun e => e.1)) State.runSeq

end Sys2Proof.Machine
end

