-- ==== Sys2Proof/Machine/Pcie.lean ====
section
/-!
DEFINITION. The device's own reads of host memory: which are outstanding, how one that times out ends (R359), and the translations
that they use (R358). What the package does with no command waiting stands here too.
-/
namespace Sys2Proof.Machine

/-- An engine that reads host memory: a load context at its descriptor or its data, a slot's input, the move of a page, an image, a
non-volatile write, a security command. -/
inductive HostRead where
  | descriptor (c : Nat)
  | load (c : Nat)
  | input (g : Nat)
  | page (p page : Nat)
  | image
  | nv
  | sec
  deriving DecidableEq, Repr

/-- The host reads outstanding: function, first address, bytes, engine. -/
def State.hostReads (s : State) : List (Nat × Nat × Nat × HostRead) :=
  (s.loads.filterMap (fun e =>
    if s.loadSt e.1 = ldFetch then some (s.ctxFn e.1, e.2.cur, 64, .descriptor e.1)
    else if s.loadSt e.1 = ldMove ∧ loadKind e.2.desc ≠ 2 then some (s.ctxFn e.1, loadSrc e.2.desc, loadLen e.2.desc, .load e.1)
    else none)) ++
  ((s.steps.map (fun y => (y.pulls.filter (fun g => (s.slot g).work.inputSrc == 1)).map (fun g =>
    (s.partVf y.part, (s.slot g).work.inputAddr, 4 * (s.slot g).inputTotal, HostRead.input g)))).flatten) ++
  (s.kv.moves.filterMap (fun m =>
    let x := s.page m.part m.page
    if x.tier = 2 then some (s.partVf m.part, s.hostFrame m.part x.frame, s.pageSize m.part x.cache x.log2, .page m.part m.page)
    else none)) ++
  (if s.fget Reg.volzStatusState = vzPull ∧ s.volz.kind ≠ some .slotA ∧ s.volz.kind ≠ some .slotB then
    [(0, s.volz.src, s.volz.len, .image)] else []) ++
  (match s.sec.nvCmd with | some c => if c.cmd = 1 then [(0, c.src, c.len, .nv)] else [] | none => []) ++
  (match s.sec.cmd with | some c => if c.cmd = 1 then [] else [(0, c.src, 5312, .sec)] | none => [])

/-- An engine's read ends as a DMA error. -/
def State.failRead (s : State) : HostRead → State
  | .descriptor c => outState s (execLoadDescArrive c true [] s)
  | .load c => outState s (execLoadMoveComplete c true [] s)
  | .input g => outState s (execInputPullComplete g true [] s)
  | .page p n => outState s (execPageMoveComplete p n true [] s)
  | .image => outState s (execVolzPullComplete true [] s)
  | .nv => outState s (execNvCommandComplete true [] s)
  | .sec => outState s (execSecCommandComplete true [] s)

/-- A completion timeout of function `fn` is counted, recorded and reported (R359). -/
def State.timedOut (s : State) (fn addr : Nat) : State :=
  ((((s.raise Reg.pciErrCplTimeout).bump Reg.pciTimeoutCount).pciRecord 1 0x73 fn (s.fnPart fn) addr).aerReport fn 1).pkgEvent .pci

/-- PCI_COMPLETION_TIMEOUT (R359): a read that the device made for function `fn` timed out, and ends as a DMA error to its engine. -/
def execPciCompletionTimeout (fn addr : Nat) (s : State) : Host.Outcome State Fault Refusal :=
  let s := s.timedOut fn addr
  .next (match s.hostReads.find? (fun r => r.1 == fn && decide (r.2.1 ≤ addr ∧ addr < r.2.1 + r.2.2.1)) with
    | some r => s.failRead r.2.2.2
    | none => s)

/-! ### Translations (R358) -/

/-- A range of a function's addresses meets another. -/
def overlaps (a n b m : Nat) : Bool := decide (a < b + m ∧ b < a + n)

/-- Outstanding reads of a function with ATS enabled have their translations, page by page. -/
def State.translateReads (s : State) : State :=
  s.each (s.hostReads.filter (fun r => (s.fnCfg r.1).ats)) (fun s r =>
    s.each (List.range (ceilDiv (r.2.1 % 4096 + r.2.2.1) 4096)) (fun s i => s.translated r.1 (r.2.1 / 4096 * 4096 + 4096 * i)))

/-- Invalidations complete once no request of the function that used the translation is outstanding. -/
def State.settleInvals (s : State) : State :=
  s.each (s.pci.invals.filter (fun v => !s.hostReads.any (fun r => r.1 == v.1 && overlaps r.2.1 r.2.2.1 v.2.1 v.2.2))) (fun s v =>
    { s with pci := { s.pci with invals := s.pci.invals.filter (· != v) } }.send (.invalidated v.1 v.2.1 v.2.2))

/-- ATS_INVALIDATION (R358): counted; the function's translations of the range leave the cache, and it completes once the requests
that used them have. -/
def execAtsInvalidation (fn addr len : Nat) (s : State) : Host.Outcome State Fault Refusal :=
  let s := s.bump Reg.pciAtsInval
  .next { s with pci := { s.pci with
    atc := s.pci.atc.filter (fun e => !(e.1 == fn && overlaps e.2.1 (2 ^ e.2.2) addr len)),
    invals := s.pci.invals ++ [(fn, addr, len)] } }.settleInvals

/-! ### With no command waiting -/

/-- The waymark counts one 400 MHz cycle, the device's reads of host memory have their translations, the cores' firmware goes on, and
each string sequencer executes its next instruction (logs 25, 27, 50, 131). -/
def State.idle (s : State) : State := s.tick.translateReads.settleInvals.coresRun.runPrograms

end Sys2Proof.Machine
end

