-- ==== Sys2Proof/Machine/TapAccess.lean ====
section
/-!
DEFINITION. Debug accesses through the Fiprel port (R489, R490): the spaces, what an access touches, and the strobes of the register
space, which act as physical function 0's writes do.
-/
namespace Sys2Proof.Machine

/-! ### Debug accesses (R489) -/

def acOk : Nat := 0
def acDenied : Nat := 2
def acError : Nat := 3

/-- Bytes with four of them replaced. -/
def patchWord (b : List Nat) (off v : Nat) : List Nat := slice b 0 off ++ leBytes 4 v ++ b.drop (off + 4)

/-- The clock region of an address of the tensor space. -/
def tensorRegion (a : Nat) : Nat :=
  if a < 0x70000000 then a / 0x3800000
  else if memKind a = .acc then teamString ((a - accRegion) / 0x40000) else 32

/-- The clock region that an access of a space touches. -/
def accessRegion (space a : Nat) : Nat :=
  if space = 0 then
    (if 0x1000000 ≤ a ∧ a < 0x1C00000 then teamString ((a - 0x1000000) / 0x4000)
     else if 0xA0000 ≤ a ∧ a < 0xA6000 then portString ((a - 0xA0000) / 0x1000) else 32)
  else if space = 1 then tensorRegion a
  else if space = 10 then a / 2 ^ 56 % 32
  else if space = 12 then
    let u := a / 0x100
    if 32 ≤ u ∧ u < 64 then u - 32 else if 64 ≤ u ∧ u < 832 then teamString (u - 64)
    else if 832 ≤ u ∧ u < 838 then portString (u - 832) else 32
  else 32

/-- A flag of a sequencer, whose addresses are not 4-byte aligned. -/
def isFlagAddr (space a : Nat) : Bool := space == 10 && a / 2 ^ 48 % 256 == 0xFE

/-- A field's value in a word that is written. -/
def fieldIn (f : Fld) (v : Nat) : Nat := v / 2 ^ f.lsb % f.card

/-- A strobe of a word is written 1. -/
def strobeIn (f : Fld) (v : Nat) : Bool := v.testBit f.lsb

/-- The command of a strobe takes effect. -/
def State.strobe (s : State) (on : Bool) (f : State → Host.Outcome State Fault Refusal) : State := if on then outState s (f s) else s

/-- The load context of a word of the load block. -/
def loadCtxOf (w : RegWord) : Nat := if w.win < 0xF00 then 0 else 1 + (w.win - 0xF00) / 0x100

/-- LOAD_CTRL: how far an aborted move had come is a free value. -/
def State.loadStrobes (s : State) (c v : Nat) : State :=
  let s := s.strobe (strobeIn Reg.loadCtrlGo v) (execLoadGo c (fieldIn Reg.loadCtrlIrqVec v))
  if !strobeIn Reg.loadCtrlAbort v then s else
  let r := s.draw
  let q := r.2.draw
  outState s (execLoadAbort c r.1 (leBytes (loadLen (s.load c).desc) q.1) q.2)

/-- SWEEP_CTRL, likewise. -/
def State.sweepStrobes (s : State) (c v : Nat) : State :=
  let s := s.strobe (strobeIn Reg.sweepCtrlGo v) (execSweepGo c (fieldIn Reg.sweepCtrlMode v))
  if !strobeIn Reg.sweepCtrlAbort v then s else
  let r := s.draw
  outState s (execSweepAbort c r.1 r.2)

/-- DBG_CTRL: what an unlock pulls from the host is a free value. -/
def State.debugStrobes (s : State) (v : Nat) : State :=
  let region := fieldIn Reg.dbgCtrlRegion v
  let s := if !strobeIn Reg.dbgCtrlUnlock v then s else
    let r := s.draw
    let q := r.2.draw
    outState s (execDbgUnlock (r.1 % 2 == 1) (leBytes 3376 q.1) q.2)
  let s := s.strobe (strobeIn Reg.dbgCtrlLock v) execDbgLock
  let s := s.strobe (strobeIn Reg.dbgCtrlClockStop v) (execDbgClockStop region)
  let s := s.strobe (strobeIn Reg.dbgCtrlClockRun v) (execDbgClockRun region)
  s.strobe (strobeIn Reg.dbgCtrlWfg v) execDbgWfg

/-- The words of a team's window that have strobes, or fields whose writes have rows of their own. -/
def State.teamStrobes (s : State) (t base v : Nat) : State :=
  if base = Reg.teamCtrlStop.addr then
    let s := s.strobe (s.flag (Reg.teamCtrlStop.team t) != strobeIn Reg.teamCtrlStop v) (execTeamStop t (strobeIn Reg.teamCtrlStop v))
    s.strobe true (execTeamCntFreeze t (strobeIn Reg.teamCtrlCntFreeze v))
  else if base = Reg.teamSwapGo.addr then s.strobe (strobeIn Reg.teamSwapGo v) (execTeamSwapGo t (fieldIn Reg.teamSwapPlane v))
  else if base = Reg.outrCtrlSample.addr then
    (s.strobe (strobeIn Reg.outrCtrlSelftest v) (execOutrSelftest t)).strobe (strobeIn Reg.outrCtrlSample v)
      (execOutrSample t (fieldIn Reg.outrCtrlRole v))
  else if base = Reg.outrRefCtrlGo.addr then s.strobe (strobeIn Reg.outrRefCtrlGo v) (execOutrRefGo t v)
  else if base = Reg.calCtrlRequest.addr then
    let s := s.strobe (strobeIn Reg.calCtrlRequest v) (execCalRequest t (fieldIn Reg.calCtrlTile v))
    (s.strobe (strobeIn Reg.calCtrlAbandon v) (execCalAbandon t)).strobe true (execCalHold t (strobeIn Reg.calCtrlHold v))
  else if base = Reg.farrCtrlGo.addr then
    let k := fieldIn Reg.farrCtrlTile v
    match fieldIn Reg.farrCtrlCmd v with
    | 1 => s.strobe (strobeIn Reg.farrCtrlGo v) (execFarrRemap t k (fieldIn Reg.farrCtrlColumn v))
    | 2 => s.strobe (strobeIn Reg.farrCtrlGo v) (execFarrRetire t k)
    | 3 => s.strobe (strobeIn Reg.farrCtrlGo v) (execFarrReadmit t k)
    | _ => s
  else if base = Reg.accCtrlAbandon.addr then s.strobe (strobeIn Reg.accCtrlAbandon v) (execAccAbandon t (fieldIn Reg.accCtrlGroup v))
  else s

/-- The words of the memory and link blocks, `p` the port of a port's window. -/
def State.linkStrobes (s : State) (p base v : Nat) : State :=
  if base = Reg.linkCtrlRetrain.addr then
    let s := s.strobe (strobeIn Reg.linkCtrlRetrain v) (execLinkRetrain p)
    s.strobe (s.flag (Reg.linkCtrlDark.port p) != strobeIn Reg.linkCtrlDark v) (execLinkDark p (strobeIn Reg.linkCtrlDark v))
  else if base = Reg.cwayCtrlOpen.addr then
    (s.strobe (strobeIn Reg.cwayCtrlOpen v) (execCwayOpen (p / 2))).strobe (strobeIn Reg.cwayCtrlClose v) (execCwayClose (p / 2))
  else if base = Reg.torReadmitGo.addr then s.strobe (strobeIn Reg.torReadmitGo v) (execTorReadmit (fieldIn Reg.torReadmitEntry v))
  else if base = Reg.torRevokeGo.addr then s.strobe (strobeIn Reg.torRevokeGo v) (execTorRevoke (fieldIn Reg.torRevokePos v))
  else if base = Reg.dramRetireGo.addr then
    s.strobe (strobeIn Reg.dramRetireGo v) (execDramRetire (fieldIn Reg.dramRetireKind v) (fieldIn Reg.dramRetireIndex v))
  else s

/-- The words of the boot, store, security and safety blocks. -/
def State.bootStrobes (s : State) (base v : Nat) : State :=
  let nv := fieldIn Reg.nvCtrlTarget v
  if base = Reg.rstCtrlRetry.addr then s.strobe (strobeIn Reg.rstCtrlRetry v) execRstRetry
  else if base = Reg.nvCtrlGo.addr then
    match fieldIn Reg.nvCtrlCmd v with
    | 1 => s.strobe (strobeIn Reg.nvCtrlGo v) (execNvWrite nv)
    | 2 => s.strobe (strobeIn Reg.nvCtrlGo v) (execNvErase nv)
    | 3 => s.strobe (strobeIn Reg.nvCtrlGo v) (execNvSetTrial nv)
    | 4 => s.strobe (strobeIn Reg.nvCtrlGo v) (execNvClearTrial nv)
    | _ => s
  else if base = Reg.secCtrlGo.addr then
    match fieldIn Reg.secCtrlCmd v with
    | 1 => s.strobe (strobeIn Reg.secCtrlGo v) execSecAttest
    | 2 => s.strobe (strobeIn Reg.secCtrlGo v) execSecEnrol
    | 3 => s.strobe (strobeIn Reg.secCtrlGo v) execSecTransfer
    | _ => s
  else if base = Reg.safeCtrlAck.addr then
    (s.strobe (strobeIn Reg.safeCtrlAck v) execSafeAck).strobe (strobeIn Reg.safeCtrlDigestNow v) execSafeDigestNow
  else if base = Reg.safeLogSel.addr then s.strobe true (execSafeLogSelWrite v)
  else if base = Reg.volzCtrlCmd.addr then
    match fieldIn Reg.volzCtrlCmd v with
    | 1 => s.strobe true execVolzFull
    | 2 => s.strobe true (execVolzPartial (fieldIn Reg.volzCtrlPart v))
    | 3 => s.strobe true execVolzAbort
    | _ => s
  else s

/-- The words of the trace and counter registers and of the dump control. -/
def State.traceStrobes (s : State) (base v : Nat) : State :=
  if base = Reg.trcCtrlArm.addr then
    let s := (s.strobe (strobeIn Reg.trcCtrlArm v) execTrcArm).strobe (strobeIn Reg.trcCtrlTrigger v) execTrcTrigger
    (s.strobe (strobeIn Reg.trcCtrlStop v) execTrcStop).strobe (strobeIn Reg.trcCtrlCopy v) execTrcCopy
  else if base = Reg.cntCtrlSnap.addr then (s.strobe (strobeIn Reg.cntCtrlSnap v) execCntSnap).strobe (strobeIn Reg.cntCtrlClear v) execCntClear
  else if base = Reg.dbgDumpCtrlArm.addr then
    let k := fieldIn Reg.dbgDumpCtrlSlot v
    (s.strobe (strobeIn Reg.dbgDumpCtrlDisarm v) (execDumpDisarm k)).strobe (strobeIn Reg.dbgDumpCtrlArm v) (execDumpArm k)
  else s

/-- The words of the partition, key-value, power and time blocks. -/
def State.blockStrobes (s : State) (w : RegWord) (v : Nat) : State :=
  let b := w.base
  let p := w.win / 0x100
  if b = Reg.partCtrlGo.addr then
    match fieldIn Reg.partCtrlCmd v with
    | 1 => s.strobe (strobeIn Reg.partCtrlGo v) execPartQuiesce
    | 2 => s.strobe (strobeIn Reg.partCtrlGo v) execPartScrub
    | 3 => s.strobe (strobeIn Reg.partCtrlGo v) execPartReturn
    | _ => s
  else if b = Reg.kvSel1Index.addr then s.strobe true (execKvSel1Write (fieldIn Reg.kvSel1Index v) (fieldIn Reg.kvSel1Cache v))
  else if b = Reg.kvPHostLo.addr then s.strobe true (execKvHostAreaWrite p 0 v)
  else if b = Reg.kvPHostHi.addr then s.strobe true (execKvHostAreaWrite p 1 v)
  else if b = Reg.kvPHostFrames.addr then s.strobe true (execKvHostAreaWrite p 2 (fieldIn Reg.kvPHostFrames v))
  else if b = Reg.brdlCapCap.addr then s.strobe true (execBrdlCapWrite (fieldIn Reg.brdlCapCap v))
  else if b = Reg.adcUrgentGo.addr then s.strobe (strobeIn Reg.adcUrgentGo v) (execAdcUrgentGo (fieldIn Reg.adcUrgentChannel v))
  else if b = Reg.wayCtrlSet.addr then s.strobe (strobeIn Reg.wayCtrlSet v) execWaySet
  else if b = Reg.loadCtrlGo.addr then s.loadStrobes (loadCtxOf w) v
  else if b = Reg.sweepCtrlGo.addr then s.sweepStrobes (w.win / 0x40) v
  else s

/-- The commands that physical function 0 would have made by writing a word: the strobes written 1, and the fields whose writes have
rows of their own (log 138). -/
def State.strobes (s : State) (w : RegWord) (v : Nat) : State :=
  let b := w.base
  if 0x1000000 ≤ b ∧ b < 0x1C00000 then s.teamStrobes w.team b v
  else if 0xA0000 ≤ b ∧ b < 0xB0000 ∨ b = Reg.dramRetireGo.addr then s.linkStrobes (w.win / 0x1000) b v
  else if b = Reg.dbgCtrlUnlock.addr then s.debugStrobes v
  else if 0x90000 ≤ b ∧ b < 0xA0000 then s.traceStrobes b v
  else ((s.bootStrobes b v).blockStrobes w v)

/-- SPACE 0: BAR0 as physical function 0 sees it. -/
def State.access0 (s : State) (write : Bool) (a v : Nat) : Nat × Nat × State :=
  match s.land 0 0 a with
  | none => (acError, 0, s)
  | some l =>
    if write then
      let t := s.write32 0 0 a v
      (acOk, v, match l with | .reg r sel => t.strobes (t.landedWord r sel) v | _ => t)
    else
    let r := s.read32 0 0 a
    (if (r.1.getD (0, false)).2 then acError else acOk, (r.1.getD (0, false)).1, r.2)

/-- Bytes of the slot area: descriptors with the slot's state, result windows with their headers (R227, R235). -/
def State.slotBytes (s : State) (a : Nat) : List Nat :=
  if a < 0x7C000000 then (List.range 4).map (fun i => s.descByte ((a - 0x7BC00000) / 0x100) (a % 0x100 + i))
  else s.windowBytes ((a - 0x7C000000) / 0x1000) (a % 0x1000) 4

/-- SPACE 1: the tensor address space. A UE returns the data with ERROR. -/
def State.access1 (s : State) (write : Bool) (a v : Nat) : Nat × Nat × State :=
  match memKind a with
  | .unmapped => (acError, 0, s)
  | k =>
    if write then (acOk, v, s.writeThrough (unitCore 7) a (leBytes 4 v)) else
    let r := s.readThrough (unitCore 7) a 4
    let b := if k = .slots then s.slotBytes a else r.1
    (if r.2.1 then acError else acOk, leValue b, r.2.2)

/-- The key of a word of a core's local memory; both cores of a lockstep pair are reached. -/
def coreKey (space a : Nat) : Nat := (pairOf (space - 2)).headD 0 * 2 ^ 64 + a

/-- SPACES 2 to 9: local memory and CSRs of a core. What its firmware keeps there is not the model's: a word written stays while the
core is halted, and once the core runs the firmware may have written it again (log 50). -/
def State.accessCore (s : State) (write : Bool) (space a v : Nat) : Nat × Nat × State :=
  let k := coreKey space a
  let n := Map.get 0 s.dbgState.coreMem k
  if write then
    (acOk, v, { s with dbgState := { s.dbgState with
      coreMem := Map.set 0 s.dbgState.coreMem k (2 * v + (if s.coreHalted (space - 2) then 1 else 2)) } })
  else if n % 2 = 1 then (acOk, n / 2, s)
  else
    let r := s.draw
    let q := r.2.draw
    (acOk, if n ≠ 0 ∧ r.1 % 2 = 0 then n / 2 - 1 else q.1 % 2 ^ 32, q.2)

/-- Half `h` of a 64-bit value replaced. -/
def patchHalf (x h v : Nat) : Nat := if h = 0 then x / 2 ^ 32 * 2 ^ 32 + v else x % 2 ^ 32 + v * 2 ^ 32

/-- SPACE 10: a sequencer's address registers, flags and program. -/
def State.accessSeq (s : State) (write : Bool) (a v : Nat) : Nat × Nat × State :=
  let x := a / 2 ^ 56
  let b := a % 2 ^ 56
  let o := b % 2 ^ 48
  let q := s.seq x
  if 32 ≤ x then (acError, 0, s)
  else if b / 2 ^ 48 = 0xFF then
    let n := o / 8
    let h := o / 4 % 2
    if 16 ≤ n then (acError, 0, s)
    else if write then (acOk, v, s.setSeqr x (q.setA n (patchHalf (q.a n) h v)))
    else (acOk, q.a n / 2 ^ (32 * h) % 2 ^ 32, s)
  else if b / 2 ^ 48 = 0xFE then
    if 256 ≤ o then (acError, 0, s)
    else if write then (acOk, v, s.setSeqr x { q with flags := Map.set 0 q.flags o (v % 256) })
    else (acOk, Map.get 0 q.flags o, s)
  else if 0x100000 ≤ b ∨ (s.goodBanks x).length ≤ b / 0x40000 then (acError, 0, s)
  else s.access1 write (s.progAddr x b) v

/-- SPACE 11: the trace buffer, under the block code as other hub memory is (R493, R521). -/
def State.accessTrace (s : State) (write : Bool) (a v : Nat) : Nat × Nat × State :=
  let i := a / 32
  let b := s.traceBytes i
  if 0x1000000 ≤ a then (acError, 0, s) else
  let ue := s.traceUe i
  let s := s.traceBlockRead i
  if write then
    (acOk, v, s.setTrace i { traceOf (patchWord b (a % 32) v) with syn := if ue then poisonSyndrome else 0 })
  else (if ue then acError else acOk, field b (a % 32) 4, s)

/-- A debug unit has a register at an offset of its block. -/
def hasUnitReg (u off : Nat) : Bool :=
  decide (0x10 ≤ off ∧ off < 0x20) || ((decide (u < 8) || decide (32 ≤ u ∧ u < 64)) &&
    (decide (off < 0x10) || decide (0x40 ≤ off ∧ off < 0xA0)))

/-- SPACE 12: the debug units. A write of RUNCTL is a command of its own. -/
def State.accessUnit (s : State) (write : Bool) (a v : Nat) : Nat × Nat × State :=
  let u := a / 0x100
  let w := s.wordAt (0x30000000 + a)
  if 872 ≤ u ∨ (8 ≤ u ∧ u < 32) then (acError, 0, s)
  else if !hasUnitReg u (a % 0x100) then (acOk, if write then v else 0, s)
  else if !write then
    let r := s.readReg w
    (acOk, r.1, r.2)
  else if a % 0x100 = 0 then
    let s := if v.testBit 0 then s.halt u else s
    let s := if v.testBit 2 then s.stepUnit u else s
    (acOk, v, if v.testBit 1 then s.resume u else s)
  else (acOk, v, s.writeReg w v)

/-- One access, with RESULT and DATA. -/
def State.accessSpace (s : State) (write : Bool) (space a v : Nat) : Nat × Nat × State :=
  if space = 0 then s.access0 write a v
  else if space = 1 then s.access1 write a v
  else if space < 10 then s.accessCore write space a v
  else if space = 10 then s.accessSeq write a v
  else if space = 11 then s.accessTrace write a v
  else if space = 12 then s.accessUnit write a v
  else (acError, 0, s)

/-- SCOPE allows an access: READ, WRITE, and RUN for what is written to the debug units. -/
def State.accessAllowed (s : State) (write : Bool) (space : Nat) : Bool :=
  s.scoped (if !write then 1 else if space = 12 then 0 else 2)

/-- An access that Update-DR starts, with RESULT and DATA. -/
def State.accessNow (s : State) (write : Bool) (space a v : Nat) : Nat × Nat × State :=
  if !s.accessAllowed write space then (acDenied, 0, s.debugRefused [])
  else if (a % 4 ≠ 0 ∧ !isFlagAddr space a) ∨ (s.region (accessRegion space a)).stopped then (acError, 0, s)
  else s.accessSpace write space a v

/-- ACCESS at Update-DR (R489): what the register captured is the outcome of the access before. -/
def execTapAccess (op space data addr : Nat) (s : State) : Host.Outcome State Fault Refusal :=
  let s := (s.tapIr 0x12).send (.tdo 104 s.dbgState.access)
  if op % 4 = 0 ∨ op % 4 = 3 then .next s else
  let space := space % 16
  let addr := addr % 2 ^ 64
  let r := s.accessNow (op % 4 == 2) space addr (data % 2 ^ 32)
  let w := op % 4 * 2 ^ 102 + r.1 * 2 ^ 100 + space * 2 ^ 96 + r.2.1 % 2 ^ 32 * 2 ^ 64 + addr
  .next { r.2.2 with dbgState := { r.2.2.dbgState with access := w } }

end Sys2Proof.Machine
end

