-- ==== Sys2Proof/Machine/Dispatch.lean ====
section
/-!
DEFINITION. One arm per command: a direct call of its meaning, or a refusal by name.
-/
namespace Sys2Proof.Machine

/-- The effect of a command on everything but the queue. -/
def exec (i : Instr) (s : State) : Host.Outcome State Fault Refusal :=
  match i with
  | .perstNAssert ns => Sys2Proof.Machine.execPerstNAssert ns s
  | .powerOnDetect => Sys2Proof.Machine.execPowerOnDetect s
  | .railPowerLoss k => Sys2Proof.Machine.execRailPowerLoss k s
  | .internalResetEnd => Sys2Proof.Machine.execInternalResetEnd s
  | .romStageEnd => Sys2Proof.Machine.execRomStageEnd s
  | .fwVerifyEnd => Sys2Proof.Machine.execFwVerifyEnd s
  | .nvLoadEnd => Sys2Proof.Machine.execNvLoadEnd s
  | .pinsSetEnd => Sys2Proof.Machine.execPinsSetEnd s
  | .railGood k => Sys2Proof.Machine.execRailGood k s
  | .railGoodTimeout k word => Sys2Proof.Machine.execRailGoodTimeout k word s
  | .railOnTempRecheck => Sys2Proof.Machine.execRailOnTempRecheck s
  | .dramUpEnd => Sys2Proof.Machine.execDramUpEnd s
  | .linksUpEnd => Sys2Proof.Machine.execLinksUpEnd s
  | .imageLoadSlot => Sys2Proof.Machine.execImageLoadSlot s
  | .imageLoadEnd => Sys2Proof.Machine.execImageLoadEnd s
  | .selfCalEnd fits => Sys2Proof.Machine.execSelfCalEnd fits s
  | .causewayOpenEnd => Sys2Proof.Machine.execCausewayOpenEnd s
  | .startDeadlineExpire => Sys2Proof.Machine.execStartDeadlineExpire s
  | .failCountNvRetry => Sys2Proof.Machine.execFailCountNvRetry s
  | .registerWrite fn bar off size value poison => Sys2Proof.Machine.execRegisterWrite fn bar off size value poison s
  | .readClearCounter fn bar off size => Sys2Proof.Machine.execReadClearCounter fn bar off size s
  | .latchingLoRead fn bar off size => Sys2Proof.Machine.execLatchingLoRead fn bar off size s
  | .configRequest r => Sys2Proof.Machine.execConfigRequest r s
  | .hostBar4Read fn off n => Sys2Proof.Machine.execHostBar4Read fn off n s
  | .hostBar4Write fn off bytes poison => Sys2Proof.Machine.execHostBar4Write fn off bytes poison s
  | .malformedTlp fn => Sys2Proof.Machine.execMalformedTlp fn s
  | .slotDescriptorWrite fn off bytes poison => Sys2Proof.Machine.execSlotDescriptorWrite fn off bytes poison s
  | .arm g => Sys2Proof.Machine.execArm g s
  | .continueSlot g => Sys2Proof.Machine.execContinueSlot g s
  | .pause g => Sys2Proof.Machine.execPause g s
  | .resume g => Sys2Proof.Machine.execResume g s
  | .cancel g => Sys2Proof.Machine.execCancel g s
  | .release g => Sys2Proof.Machine.execRelease g s
  | .resultPayloadRead fn k off n => Sys2Proof.Machine.execResultPayloadRead fn k off n s
  | .stepPlan p m a0 a1 a2 a2b attn => Sys2Proof.Machine.execStepPlan p m a0 a1 a2 a2b attn s
  | .pageWaitRetry g => Sys2Proof.Machine.execPageWaitRetry g s
  | .pageWaitExpire g => Sys2Proof.Machine.execPageWaitExpire g s
  | .pageMoveComplete p page err host => Sys2Proof.Machine.execPageMoveComplete p page err host s
  | .inputPullComplete g err host => Sys2Proof.Machine.execInputPullComplete g err host s
  | .ttlExpire g => Sys2Proof.Machine.execTtlExpire g s
  | .stepRecord id => Sys2Proof.Machine.execStepRecord id s
  | .nop x => Sys2Proof.Machine.execNop x s
  | .lda x a off => Sys2Proof.Machine.execLda x a off s
  | .adda x a imm => Sys2Proof.Machine.execAdda x a imm s
  | .loop x count len => Sys2Proof.Machine.execLoop x count len s
  | .gopen x team a => Sys2Proof.Machine.execGopen x team a s
  | .gclose x team group => Sys2Proof.Machine.execGclose x team group s
  | .gwait x team group => Sys2Proof.Machine.execGwait x team group s
  | .vec x layer group a vectors => Sys2Proof.Machine.execVec x layer group a vectors s
  | .gate x set topk inp disp vectors => Sys2Proof.Machine.execGate x set topk inp disp vectors s
  | .vuCopy x team half a d count => Sys2Proof.Machine.execVuCopy x team half a d count s
  | .vuAdd x team half a b d count => Sys2Proof.Machine.execVuAdd x team half a b d count s
  | .vuMul x team half a b d count => Sys2Proof.Machine.execVuMul x team half a b d count s
  | .vuFma x team half a b d count => Sys2Proof.Machine.execVuFma x team half a b d count s
  | .vuMax x team half a b d count => Sys2Proof.Machine.execVuMax x team half a b d count s
  | .vuSum x team half a d count => Sys2Proof.Machine.execVuSum x team half a d count s
  | .vuExp x team half a d count => Sys2Proof.Machine.execVuExp x team half a d count s
  | .vuRsqrt x team half a d count => Sys2Proof.Machine.execVuRsqrt x team half a d count s
  | .vuRecip x team half a d count => Sys2Proof.Machine.execVuRecip x team half a d count s
  | .vuSilu x team half a d count => Sys2Proof.Machine.execVuSilu x team half a d count s
  | .vuGelu x team half a d count => Sys2Proof.Machine.execVuGelu x team half a d count s
  | .vuRmsnorm x team half a b d count => Sys2Proof.Machine.execVuRmsnorm x team half a b d count s
  | .vuSoftmax x team half a d count => Sys2Proof.Machine.execVuSoftmax x team half a d count s
  | .vuRope x team half a b d count => Sys2Proof.Machine.execVuRope x team half a b d count s
  | .vuGather x team half a b d count => Sys2Proof.Machine.execVuGather x team half a b d count s
  | .vuScatter x team half a b d count => Sys2Proof.Machine.execVuScatter x team half a b d count s
  | .vuScore x team half a b d count => Sys2Proof.Machine.execVuScore x team half a b d count s
  | .vuValue x team half a b d count => Sys2Proof.Machine.execVuValue x team half a b d count s
  | .vuToMx x team half fmt a d count => Sys2Proof.Machine.execVuToMx x team half fmt a d count s
  | .vuFromMx x team half fmt a d count => Sys2Proof.Machine.execVuFromMx x team half fmt a d count s
  | .loadm x model => Sys2Proof.Machine.execLoadm x model s
  | .loadmComplete x model remote => Sys2Proof.Machine.execLoadmComplete x model remote s
  | .swapPlanes x model => Sys2Proof.Machine.execSwapPlanes x model s
  | .swapat x model a => Sys2Proof.Machine.execSwapat x model a s
  | .signal x str flag => Sys2Proof.Machine.execSignal x str flag s
  | .waitf x flag count => Sys2Proof.Machine.execWaitf x flag count s
  | .coll x a => Sys2Proof.Machine.execColl x a s
  | .milepost x tag => Sys2Proof.Machine.execMilepost x tag s
  | .seqEnd x => Sys2Proof.Machine.execSeqEnd x s
  | .badInstructionFetch x => Sys2Proof.Machine.execBadInstructionFetch x s
  | .expertCallTimeout id => Sys2Proof.Machine.execExpertCallTimeout id s
  | .edgeConvert t => Sys2Proof.Machine.execEdgeConvert t s
  | .splitStallEnd t => Sys2Proof.Machine.execSplitStallEnd t s
  | .beatBoundary wrong missing => Sys2Proof.Machine.execBeatBoundary wrong missing s
  | .tileRecordArrive t => Sys2Proof.Machine.execTileRecordArrive t s
  | .outriderDelivery t => Sys2Proof.Machine.execOutriderDelivery t s
  | .groupCloseComplete t g => Sys2Proof.Machine.execGroupCloseComplete t g s
  | .accAbandon t g => Sys2Proof.Machine.execAccAbandon t g s
  | .milepostReached id => Sys2Proof.Machine.execMilepostReached id s
  | .replayStart id => Sys2Proof.Machine.execReplayStart id s
  | .planeWrite t k plane off bytes => Sys2Proof.Machine.execPlaneWrite t k plane off bytes s
  | .drainEnd t k => Sys2Proof.Machine.execDrainEnd t k s
  | .teamSwapGo t plane => Sys2Proof.Machine.execTeamSwapGo t plane s
  | .teamStop t stop => Sys2Proof.Machine.execTeamStop t stop s
  | .teamCntFreeze t freeze => Sys2Proof.Machine.execTeamCntFreeze t freeze s
  | .sampleDue t r => Sys2Proof.Machine.execSampleDue t r s
  | .forcedCheck t r => Sys2Proof.Machine.execForcedCheck t r s
  | .checkLate t r => Sys2Proof.Machine.execCheckLate t r s
  | .sampleComplete t r lanes => Sys2Proof.Machine.execSampleComplete t r lanes s
  | .arbCodeCheckDone t => Sys2Proof.Machine.execArbCodeCheckDone t s
  | .arbReferenceDone t agrees => Sys2Proof.Machine.execArbReferenceDone t agrees s
  | .arbSpareLoadDone t => Sys2Proof.Machine.execArbSpareLoadDone t s
  | .arbSpareRunDone t wrong => Sys2Proof.Machine.execArbSpareRunDone t wrong s
  | .arbNoSpareTimeout t => Sys2Proof.Machine.execArbNoSpareTimeout t s
  | .outriderSelftestDone t pass => Sys2Proof.Machine.execOutriderSelftestDone t pass s
  | .outrSample t r => Sys2Proof.Machine.execOutrSample t r s
  | .outrSelftest t => Sys2Proof.Machine.execOutrSelftest t s
  | .outrRefGo t w => Sys2Proof.Machine.execOutrRefGo t w s
  | .referenceRunDone t => Sys2Proof.Machine.execReferenceRunDone t s
  | .calrefQualified => Sys2Proof.Machine.execCalrefQualified s
  | .calrefLost => Sys2Proof.Machine.execCalrefLost s
  | .rotationVisit t => Sys2Proof.Machine.execRotationVisit t s
  | .calLate t => Sys2Proof.Machine.execCalLate t s
  | .calRequest t k => Sys2Proof.Machine.execCalRequest t k s
  | .calAbandon t => Sys2Proof.Machine.execCalAbandon t s
  | .calHold t hold => Sys2Proof.Machine.execCalHold t hold s
  | .takeoverCopyDone t => Sys2Proof.Machine.execTakeoverCopyDone t s
  | .takeoverMove t => Sys2Proof.Machine.execTakeoverMove t s
  | .calGateDone t delay win => Sys2Proof.Machine.execCalGateDone t delay win s
  | .calFitDone t fits delay resid noisy stuck => Sys2Proof.Machine.execCalFitDone t fits delay resid noisy stuck s
  | .statsShadowEnd t => Sys2Proof.Machine.execStatsShadowEnd t s
  | .slewStep t k => Sys2Proof.Machine.execSlewStep t k s
  | .dailyTrimRecord t k => Sys2Proof.Machine.execDailyTrimRecord t k s
  | .pendingRetireComplete t => Sys2Proof.Machine.execPendingRetireComplete t s
  | .farrRemap t k col => Sys2Proof.Machine.execFarrRemap t k col s
  | .farrRetire t k => Sys2Proof.Machine.execFarrRetire t k s
  | .farrReadmit t k => Sys2Proof.Machine.execFarrReadmit t k s
  | .farrNvRetry t fail => Sys2Proof.Machine.execFarrNvRetry t fail s
  | .thermalSample n temp => Sys2Proof.Machine.execThermalSample n temp s
  | .tripRailsOff => Sys2Proof.Machine.execTripRailsOff s
  | .tripFinal => Sys2Proof.Machine.execTripFinal s
  | .bridleTick lanes sram dram => Sys2Proof.Machine.execBridleTick lanes sram dram s
  | .boostSwitch r => Sys2Proof.Machine.execBoostSwitch r s
  | .bridleMeasure => Sys2Proof.Machine.execBridleMeasure s
  | .brdlCapWrite cap => Sys2Proof.Machine.execBrdlCapWrite cap s
  | .pmbusAlert stops warns failed => Sys2Proof.Machine.execPmbusAlert stops warns failed s
  | .voltMonitorTrip k over_ mv => Sys2Proof.Machine.execVoltMonitorTrip k over_ mv s
  | .setpointStep failed => Sys2Proof.Machine.execSetpointStep failed s
  | .droopTrip r mv => Sys2Proof.Machine.execDroopTrip r mv s
  | .stretchEnd r => Sys2Proof.Machine.execStretchEnd r s
  | .clockMonitorFail pll => Sys2Proof.Machine.execClockMonitorFail pll s
  | .regionRestart r => Sys2Proof.Machine.execRegionRestart r s
  | .ageingMeasure counts => Sys2Proof.Machine.execAgeingMeasure counts s
  | .ageingReplan => Sys2Proof.Machine.execAgeingReplan s
  | .adcConversionDone c code urgent => Sys2Proof.Machine.execAdcConversionDone c code urgent s
  | .adcOpenTest c up down => Sys2Proof.Machine.execAdcOpenTest c up down s
  | .adcUrgentGo c => Sys2Proof.Machine.execAdcUrgentGo c s
  | .tollgateRefill asks => Sys2Proof.Machine.execTollgateRefill asks s
  | .msixIntervalEnd fn vec => Sys2Proof.Machine.execMsixIntervalEnd fn vec s
  | .vfFlr k => Sys2Proof.Machine.execVfFlr k s
  | .pfFlr => Sys2Proof.Machine.execPfFlr s
  | .hotReset => Sys2Proof.Machine.execHotReset s
  | .pcieLinkDown => Sys2Proof.Machine.execPcieLinkDown s
  | .vfEnableCleared n => Sys2Proof.Machine.execVfEnableCleared n s
  | .pciCompletionTimeout fn addr => Sys2Proof.Machine.execPciCompletionTimeout fn addr s
  | .atsInvalidation fn addr len => Sys2Proof.Machine.execAtsInvalidation fn addr len s
  | .partQuiesce => Sys2Proof.Machine.execPartQuiesce s
  | .partScrub => Sys2Proof.Machine.execPartScrub s
  | .partReturn => Sys2Proof.Machine.execPartReturn s
  | .quiesceComplete p moved bytes => Sys2Proof.Machine.execQuiesceComplete p moved bytes s
  | .scrubComplete => Sys2Proof.Machine.execScrubComplete s
  | .volzFull => Sys2Proof.Machine.execVolzFull s
  | .volzPartial part => Sys2Proof.Machine.execVolzPartial part s
  | .volzAbort => Sys2Proof.Machine.execVolzAbort s
  | .volzPullComplete err bytes => Sys2Proof.Machine.execVolzPullComplete err bytes s
  | .volzVerifyComplete => Sys2Proof.Machine.execVolzVerifyComplete s
  | .volzCommit => Sys2Proof.Machine.execVolzCommit s
  | .loadGo c irqVec => Sys2Proof.Machine.execLoadGo c irqVec s
  | .loadAbort c moved bytes => Sys2Proof.Machine.execLoadAbort c moved bytes s
  | .loadDescArrive c err bytes => Sys2Proof.Machine.execLoadDescArrive c err bytes s
  | .loadMoveComplete c err bytes => Sys2Proof.Machine.execLoadMoveComplete c err bytes s
  | .remoteTierWaitExpire x expert n => Sys2Proof.Machine.execRemoteTierWaitExpire x expert n s
  | .relayChunkReceive p src session off bytes late => Sys2Proof.Machine.execRelayChunkReceive p src session off bytes late s
  | .relayRxTimeout c origin session => Sys2Proof.Machine.execRelayRxTimeout c origin session s
  | .relayAckTimeout c => Sys2Proof.Machine.execRelayAckTimeout c s
  | .groomNearBound t k => Sys2Proof.Machine.execGroomNearBound t k s
  | .groomLapLate t => Sys2Proof.Machine.execGroomLapLate t s
  | .heldPlaneReloaded t k plane => Sys2Proof.Machine.execHeldPlaneReloaded t k plane s
  | .sweepGo c mode => Sys2Proof.Machine.execSweepGo c mode s
  | .sweepAbort c pages => Sys2Proof.Machine.execSweepAbort c pages s
  | .sweepComplete c => Sys2Proof.Machine.execSweepComplete c s
  | .dramRetire kind index => Sys2Proof.Machine.execDramRetire kind index s
  | .retireNvRetry => Sys2Proof.Machine.execRetireNvRetry s
  | .kvSel1Write index cache => Sys2Proof.Machine.execKvSel1Write index cache s
  | .kvHostAreaWrite p which value => Sys2Proof.Machine.execKvHostAreaWrite p which value s
  | .flitReceive p bytes corr uncorr => Sys2Proof.Machine.execFlitReceive p bytes corr uncorr s
  | .nakReceived p last => Sys2Proof.Machine.execNakReceived p last s
  | .laneFail p lane => Sys2Proof.Machine.execLaneFail p lane s
  | .laserLow p => Sys2Proof.Machine.execLaserLow p s
  | .trainingAttemptEnd p good lock hello => Sys2Proof.Machine.execTrainingAttemptEnd p good lock hello s
  | .downLightCheck p light => Sys2Proof.Machine.execDownLightCheck p light s
  | .discoveryDeadline lit => Sys2Proof.Machine.execDiscoveryDeadline lit s
  | .portAutoReadmit p => Sys2Proof.Machine.execPortAutoReadmit p s
  | .linkRetrain p => Sys2Proof.Machine.execLinkRetrain p s
  | .linkDark p dark => Sys2Proof.Machine.execLinkDark p dark s
  | .cwayOpen a => Sys2Proof.Machine.execCwayOpen a s
  | .cwayClose a => Sys2Proof.Machine.execCwayClose a s
  | .cwayConfirm a => Sys2Proof.Machine.execCwayConfirm a s
  | .cwayConfirmTimeout a => Sys2Proof.Machine.execCwayConfirmTimeout a s
  | .helloSend p => Sys2Proof.Machine.execHelloSend p s
  | .hello p ok h body => Sys2Proof.Machine.execHello p ok h body s
  | .ack p ok h acked => Sys2Proof.Machine.execAck p ok h acked s
  | .revoke p ok h pos unit inc => Sys2Proof.Machine.execRevoke p ok h pos unit inc s
  | .revoked p ok h pos unit inc => Sys2Proof.Machine.execRevoked p ok h pos unit inc s
  | .readmit p ok h pos unit inc new => Sys2Proof.Machine.execReadmit p ok h pos unit inc new s
  | .linkState p ok h pos port state inc => Sys2Proof.Machine.execLinkState p ok h pos port state inc s
  | .waySync p ok h t1 f1 frac => Sys2Proof.Machine.execWaySync p ok h t1 f1 frac s
  | .wayReply p ok h t1 t2 t3 f1 f2 f3 state frac => Sys2Proof.Machine.execWayReply p ok h t1 t2 t3 f1 f2 f3 state frac s
  | .waySyncSend p frac => Sys2Proof.Machine.execWaySyncSend p frac s
  | .collStep p ok h id step dir session bytes check => Sys2Proof.Machine.execCollStep p ok h id step dir session bytes check s
  | .collAck p ok h id step dir => Sys2Proof.Machine.execCollAck p ok h id step dir s
  | .collAbort p ok h id code port pos => Sys2Proof.Machine.execCollAbort p ok h id code port pos s
  | .collStepResend part id dir => Sys2Proof.Machine.execCollStepResend part id dir s
  | .collTimeout part id => Sys2Proof.Machine.execCollTimeout part id s
  | .relayStart p ok h seq hopsLeft session kind len dst => Sys2Proof.Machine.execRelayStart p ok h seq hopsLeft session kind len dst s
  | .relayEnd p ok h seq chunks => Sys2Proof.Machine.execRelayEnd p ok h seq chunks s
  | .relayAck p ok h seq chunks => Sys2Proof.Machine.execRelayAck p ok h seq chunks s
  | .expertCall p ok h id set position vectors sessionIn inBytes outBytes => Sys2Proof.Machine.execExpertCall p ok h id set position vectors sessionIn inBytes outBytes s
  | .expertDone p ok h id code session => Sys2Proof.Machine.execExpertDone p ok h id code session s
  | .dataPacketReceive p dst src cls vc session off bytes => Sys2Proof.Machine.execDataPacketReceive p dst src cls vc session off bytes s
  | .ctrlRetransmit unit seq => Sys2Proof.Machine.execCtrlRetransmit unit seq s
  | .routeReplan => Sys2Proof.Machine.execRouteReplan s
  | .torRevoke pos => Sys2Proof.Machine.execTorRevoke pos s
  | .torReadmit entry => Sys2Proof.Machine.execTorReadmit entry s
  | .waySet => Sys2Proof.Machine.execWaySet s
  | .ppsEdge falling => Sys2Proof.Machine.execPpsEdge falling s
  | .ptpSync domain m frac out => Sys2Proof.Machine.execPtpSync domain m frac out s
  | .timeSourceInvalid src => Sys2Proof.Machine.execTimeSourceInvalid src s
  | .rstRetry => Sys2Proof.Machine.execRstRetry s
  | .nvWrite target => Sys2Proof.Machine.execNvWrite target s
  | .nvErase target => Sys2Proof.Machine.execNvErase target s
  | .nvSetTrial target => Sys2Proof.Machine.execNvSetTrial target s
  | .nvClearTrial target => Sys2Proof.Machine.execNvClearTrial target s
  | .nvCommandComplete err bytes => Sys2Proof.Machine.execNvCommandComplete err bytes s
  | .secAttest => Sys2Proof.Machine.execSecAttest s
  | .secEnrol => Sys2Proof.Machine.execSecEnrol s
  | .secTransfer => Sys2Proof.Machine.execSecTransfer s
  | .secCommandComplete err bytes => Sys2Proof.Machine.execSecCommandComplete err bytes s
  | .lockstepMismatch pair => Sys2Proof.Machine.execLockstepMismatch pair s
  | .cc6WatchdogExpire => Sys2Proof.Machine.execCc6WatchdogExpire s
  | .safeAck => Sys2Proof.Machine.execSafeAck s
  | .safeDigestNow => Sys2Proof.Machine.execSafeDigestNow s
  | .safeLogSelWrite n => Sys2Proof.Machine.execSafeLogSelWrite n s
  | .tileIftDue t k => Sys2Proof.Machine.execTileIftDue t k s
  | .iftDeferExpire t tile => Sys2Proof.Machine.execIftDeferExpire t tile s
  | .tileIftComplete t k fail => Sys2Proof.Machine.execTileIftComplete t k fail s
  | .teamTestDue t => Sys2Proof.Machine.execTeamTestDue t s
  | .teamTestComplete t fail => Sys2Proof.Machine.execTeamTestComplete t fail s
  | .digestDue p m => Sys2Proof.Machine.execDigestDue p m s
  | .digestComplete p m => Sys2Proof.Machine.execDigestComplete p m s
  | .heartbeatSend => Sys2Proof.Machine.execHeartbeatSend s
  | .errorReportResend id => Sys2Proof.Machine.execErrorReportResend id s
  | .errorAck h id => Sys2Proof.Machine.execErrorAck h id s
  | .getAttest h nonce => Sys2Proof.Machine.execGetAttest h nonce s
  | .getLog h first count => Sys2Proof.Machine.execGetLog h first count s
  | .nvBegin h cmd target len => Sys2Proof.Machine.execNvBegin h cmd target len s
  | .nvChunk h off bytes => Sys2Proof.Machine.execNvChunk h off bytes s
  | .nvChunkGapTimeout => Sys2Proof.Machine.execNvChunkGapTimeout s
  | .mgmtRetry h => Sys2Proof.Machine.execMgmtRetry h s
  | .mgmtRevoke h pos inc => Sys2Proof.Machine.execMgmtRevoke h pos inc s
  | .tapReset => Sys2Proof.Machine.execTapReset s
  | .extest n cells => Sys2Proof.Machine.execExtest n cells s
  | .idcode => Sys2Proof.Machine.execIdcode s
  | .samplePreload n cells => Sys2Proof.Machine.execSamplePreload n cells s
  | .clamp => Sys2Proof.Machine.execClamp s
  | .tapChallenge => Sys2Proof.Machine.execTapChallenge s
  | .tapUnlock bytes => Sys2Proof.Machine.execTapUnlock bytes s
  | .tapAccess op space data addr => Sys2Proof.Machine.execTapAccess op space data addr s
  | .bypass => Sys2Proof.Machine.execBypass s
  | .dbgUnlock err bytes => Sys2Proof.Machine.execDbgUnlock err bytes s
  | .dbgLock => Sys2Proof.Machine.execDbgLock s
  | .unlockDurationExpire => Sys2Proof.Machine.execUnlockDurationExpire s
  | .dbgClockStop r => Sys2Proof.Machine.execDbgClockStop r s
  | .dbgClockRun r => Sys2Proof.Machine.execDbgClockRun r s
  | .dbgWfg => Sys2Proof.Machine.execDbgWfg s
  | .hangTimeout id => Sys2Proof.Machine.execHangTimeout id s
  | .wfgSecondSnapshot => Sys2Proof.Machine.execWfgSecondSnapshot s
  | .runctlHalt u => Sys2Proof.Machine.execRunctlHalt u s
  | .runctlResume u => Sys2Proof.Machine.execRunctlResume u s
  | .runctlStep u => Sys2Proof.Machine.execRunctlStep u s
  | .trcArm => Sys2Proof.Machine.execTrcArm s
  | .trcStop => Sys2Proof.Machine.execTrcStop s
  | .trcTrigger => Sys2Proof.Machine.execTrcTrigger s
  | .trcCopy => Sys2Proof.Machine.execTrcCopy s
  | .traceCopyComplete => Sys2Proof.Machine.execTraceCopyComplete s
  | .traceEntryWrite source => Sys2Proof.Machine.execTraceEntryWrite source s
  | .traceTrigInEdge pin => Sys2Proof.Machine.execTraceTrigInEdge pin s
  | .dumpArm slot => Sys2Proof.Machine.execDumpArm slot s
  | .dumpDisarm slot => Sys2Proof.Machine.execDumpDisarm slot s
  | .cntSnap => Sys2Proof.Machine.execCntSnap s
  | .cntClear => Sys2Proof.Machine.execCntClear s
  | .counterSnapshotLatch => Sys2Proof.Machine.execCounterSnapshotLatch s
  | .trainingTimeLimit p => Sys2Proof.Machine.execTrainingTimeLimit p s
  | .timeRootDisciplineUpdate => Sys2Proof.Machine.execTimeRootDisciplineUpdate s
  | .pcieLinkUp rate width flit => Sys2Proof.Machine.execPcieLinkUp rate width flit s
  | .managementPortDown => Sys2Proof.Machine.execManagementPortDown s
  | .managementPortUp => Sys2Proof.Machine.execManagementPortUp s

end Sys2Proof.Machine
end

