-- ==== Sys2Proof/Safety.lean ====
section
/-!
DEFINITION. What the statements call a sound state, and how they say that an outcome is a next state.
-/
namespace Sys2Proof.Machine

/-- The outcome is a next state of which a property holds. -/
def Completes (o : Host.Outcome State Fault Refusal) (P : State → Prop) : Prop := ∃ t, o = .next t ∧ P t

/-- Two states agree on everything outside the register file that a host sees of them: memory, the queue, what was sent. -/
def SameMemory (s t : State) : Prop := t.mem = s.mem ∧ t.syndromes = s.syndromes ∧ t.hardBlocks = s.hardBlocks

/-- Memory is in its canonical form. -/
def State.memoryOk (s : State) : Bool := Map.wf (0#8) s.mem

/-- Every register field but those of a list reads as before. -/
def FieldsBut (fs : List Fld) (s t : State) : Prop := ∀ g : Fld, g.key ∉ fs.map Fld.key → t.fget g = s.fget g

/-- Every block of some ranges is stored without an error, nothing of them is retired, and no running step may still see one of
their lines as it was before a host write (R18): a read delivers the bytes as they stand, and a write reaches memory as it is. -/
abbrev State.cleanAt (s : State) (rs : List (Nat × Nat)) : Prop :=
  ∀ r ∈ rs, s.badBlocks r.1 r.2 = [] ∧ s.anyRetired r.1 r.2 = false ∧ s.mixedLines r.1 r.2 = []

/-- String `x` issues an instruction that touches `c` now: it may issue, and no breakpoint halts it. -/
abbrev State.issues (s : State) (x : Nat) (c : Touch) : Prop := s.canIssue x = true ∧ s.haltingBp x (s.hits x c) = none

/-- String `x` as an instruction finds it at issue: breakpoints that do not halt have traced and triggered, it waits for
nothing, and the instruction is counted. -/
def State.issued (s : State) (x : Nat) (c : Touch) : State :=
  let s := (s.each (s.hits x c) (fun s k => s.breakHit x k)).seqWait x none
  (s.setSeqr x { s.seq x with skipBp := false }).countOp x 27 1

/-- What follows the effect `u` of an instruction that string `x` issued in `s`: unless the effect itself moved the string, the
code position goes on by `go`; a string that steps halts again. -/
def State.onward (s : State) (x : Nat) (go : Seq → Seq) (u : State) : State :=
  let v := if (u.seq x).step = (s.seq x).step ∧ !(u.seq x).ended ∧ (u.seq x).pos = (s.seq x).pos then u.setSeqr x (go (u.seq x)) else u
  if (s.seq x).stepping then v.haltSeq x 2 0 else v

/-- The element bytes of `n` FP32 or BF16 elements that stand from an address on, as FP32 words. -/
def State.elemsAt (s : State) (half : Bool) (a n : Nat) : List Nat := elems half n (s.codedBytes a (elemBytes half * n))

/-- A control message as the package has taken it from port `p` before it acts on it: the incarnation it shows is noted, and it
is acknowledged if it asks for that. -/
def State.greeted (s : State) (p : Nat) (h : CtrlHdr) : State := (s.seenReset h.srcPos h.srcUnit h.srcInc).ackTo p h

/-- A control message that arrives good on port `p` is one to act on: the link is up and the hub's clock runs, it is meant for
this package or for all, its sender is not revoked, its addressee is of the incarnation that it names, and it has not been acted
on before. -/
abbrev State.actsOn (s : State) (p : Nat) (h : CtrlHdr) : Prop :=
  s.linkUp p = true ∧ s.hubStopped = false ∧ (h.dstPos = 0xFFFF ∨ h.dstPos = s.position) ∧
    (s.seenReset h.srcPos h.srcUnit h.srcInc).isRevoked h.srcPos h.srcUnit h.srcInc = false ∧
    (s.seenReset h.srcPos h.srcUnit h.srcInc).addressed h = true ∧ (s.greeted p h).seenBefore h = false

/-- The state in which the package acts on it. -/
def State.heard (s : State) (p : Nat) (h : CtrlHdr) : State := (s.greeted p h).remember h

/-- The commands that are defined without a store to memory: none of their effects writes a byte of it. A register read is
one outside BAR2, where a read of a descriptor goes through the code and mends (R272). -/
def storesNothing : Instr → Bool
  | .readClearCounter _ bar _ _ | .latchingLoRead _ bar _ _ => bar != 2
  | .railPowerLoss _ | .internalResetEnd | .romStageEnd | .fwVerifyEnd | .nvLoadEnd | .pinsSetEnd | .railGood _
  | .railGoodTimeout _ _ | .railOnTempRecheck | .dramUpEnd | .linksUpEnd | .startDeadlineExpire | .failCountNvRetry
  | .registerWrite _ _ _ _ _ _ | .configRequest _ | .malformedTlp _ | .pause _ | .resume _ | .release _
  | .pageWaitExpire _ | .ttlExpire _ | .stepRecord _ | .nop _ | .adda _ _ _ | .loop _ _ _ | .gclose _ _ _ | .gwait _ _ _
  | .swapPlanes _ _ | .swapat _ _ _ | .signal _ _ _ | .waitf _ _ _ | .seqEnd _ | .splitStallEnd _ | .accAbandon _ _
  | .planeWrite _ _ _ _ _ | .drainEnd _ _ | .teamSwapGo _ _ | .teamStop _ _ | .teamCntFreeze _ _ | .sampleDue _ _
  | .forcedCheck _ _ | .checkLate _ _ | .arbSpareLoadDone _ | .arbNoSpareTimeout _ | .outrSample _ _ | .outrSelftest _
  | .outrRefGo _ _ | .calrefQualified | .rotationVisit _ | .calLate _ | .calRequest _ _ | .calHold _ _ | .statsShadowEnd _ | .farrReadmit _ _ | .farrNvRetry _ _ | .tripRailsOff | .tripFinal | .bridleTick _ _ _
  | .boostSwitch _ | .bridleMeasure | .brdlCapWrite _ | .pmbusAlert _ _ _ | .voltMonitorTrip _ _ _ | .setpointStep _
  | .droopTrip _ _ | .stretchEnd _ | .clockMonitorFail _ | .regionRestart _ | .ageingMeasure _ | .ageingReplan
  | .adcConversionDone _ _ _ | .adcOpenTest _ _ _ | .adcUrgentGo _ | .tollgateRefill _ | .msixIntervalEnd _ _ | .pcieLinkDown
  | .vfEnableCleared _ | .atsInvalidation _ _ _ | .partScrub | .volzFull | .volzPartial _ | .loadGo _ _
  | .loadDescArrive _ _ _ | .relayRxTimeout _ _ _ | .relayAckTimeout _ | .groomNearBound _ _ | .groomLapLate _
  | .heldPlaneReloaded _ _ _ | .dramRetire _ _ | .retireNvRetry | .kvSel1Write _ _ | .kvHostAreaWrite _ _ _
  | .flitReceive _ _ _ _ | .nakReceived _ _ | .laneFail _ _ | .downLightCheck _ _ | .portAutoReadmit _ | .linkRetrain _
  | .linkDark _ _ | .cwayOpen _ | .cwayClose _ | .cwayConfirm _ | .cwayConfirmTimeout _ | .helloSend _ | .hello _ _ _ _
  | .ack _ _ _ _ | .linkState _ _ _ _ _ _ _ | .waySync _ _ _ _ _ _ | .wayReply _ _ _ _ _ _ _ _ _ _ _ | .waySyncSend _ _
  | .collStepResend _ _ _ | .relayStart _ _ _ _ _ _ _ _ _ | .relayEnd _ _ _ _ _ | .relayAck _ _ _ _ _
  | .expertCall _ _ _ _ _ _ _ _ _ _ | .routeReplan | .waySet | .ppsEdge _ | .ptpSync _ _ _ _ | .timeSourceInvalid _ | .rstRetry
  | .nvWrite _ | .nvErase _ | .nvSetTrial _ | .nvClearTrial _ | .nvCommandComplete _ _ | .secAttest | .secEnrol | .secTransfer
  | .secCommandComplete _ _ | .lockstepMismatch _ | .cc6WatchdogExpire | .safeAck | .safeDigestNow | .safeLogSelWrite _
  | .digestDue _ _ | .heartbeatSend | .errorReportResend _
  | .errorAck _ _ | .getAttest _ _ | .getLog _ _ _ | .nvBegin _ _ _ _ | .nvChunk _ _ _ | .nvChunkGapTimeout | .mgmtRetry _
  | .tapReset | .extest _ _ | .idcode | .samplePreload _ _ | .clamp | .tapChallenge | .tapUnlock _ | .bypass | .dbgUnlock _ _
  | .dbgClockStop _ | .dbgClockRun _ | .dbgWfg | .hangTimeout _ | .runctlHalt _ | .runctlStep _ | .trcArm | .trcStop
  | .trcTrigger | .trcCopy | .traceEntryWrite _ | .traceTrigInEdge _ | .dumpDisarm _ | .cntSnap | .cntClear
  | .counterSnapshotLatch | .timeRootDisciplineUpdate | .pcieLinkUp _ _ _ | .managementPortDown | .managementPortUp => true
  | _ => false

/-- The state after a run of commands, if each answers a next state. -/
def State.runAll (s : State) : List Instr → Option State
  | [] => some s
  | c :: cs => match exec c s with
    | .next t => t.runAll cs
    | _ => none

end Sys2Proof.Machine
end

