-- ==== Sys2Proof/Certificates/Slice0/Obligations.lean ====
section
/-!
DEFINITION. The statements about this model, as propositions for the provers. Those that end in Complete or Completes say of each
command that it answers a next state, and what that state holds; together they name every constructor of `Instr`.
-/
open Sys2Proof Sys2Proof.Machine

/-- Reset and every stage of a start complete with the effect the spec gives (R39, R396, R406, R424, R426, R427, R429, R431,
R439, R441, R443, R507). A PERST_N pulse of 1 µs or more and power-on reset the device; each stage-ending event, in its
stage and outside paddock mode, takes its effect and moves RST_STATUS.STAGE on; a rail loss, the rail sequence, the
failed-start events and the retries complete likewise. -/
def Obligations.StartCommandsComplete : Prop :=
  (∀ (ns : Nat) (s : State), 1000 ≤ ns → Completes (exec (.perstNAssert ns) s) (fun t => t.stage = stPor ∧ t.fget
    Reg.rstStatusCause = 1 ∧ t.mem = [] ∧ t.pending = s.pending ∧ t.nv = s.nv.afterLoss s.retireWaits)) ∧
  (∀ (s : State), Completes (exec (.powerOnDetect) s) (fun t => t.stage = stPor ∧ t.fget Reg.rstStatusCause = 0 ∧ t.mem =
    [] ∧ t.pending = s.pending ∧ t.nv = s.nv.afterLoss s.retireWaits)) ∧
  (∀ (k : Nat) (s : State), Completes (exec (.railPowerLoss k) s) (fun t => t.rail k = (s.rail k).off ∧ t.sec.nvCmd = none
    ∧ t.safety.nvOpen = none)) ∧
  (∀ (s : State), s.stage = stPor → Completes (exec (.internalResetEnd) s) (fun t => t.stage = stRom ∧ t.now = 0 ∧
    t.dbgState.ir = 1)) ∧
  (∀ (s : State), s.stage = stRom → s.paddock = false → s.nv.fwA.isSome ∨ s.nv.fwB.isSome → Completes (exec (.romStageEnd)
    s) (fun t => t.stage = stFwVerify ∧ t.boot.fwSlot = some (if s.nv.fwTrialLost then s.nv.fwActive else s.nv.fwTrial.getD
    s.nv.fwActive))) ∧
  (∀ (s : State), s.stage = stFwVerify → s.paddock = false → Completes (exec (.fwVerifyEnd) s) (fun t => if s.checkFw
    ((s.nv.fwSlotBytes (s.boot.fwSlot.getD 0)).getD []) ((s.nv.fwSlotBytes (s.boot.fwSlot.getD 0)).getD []).length = 0 then
    t.stage = stNvLoad ∧ t.fget Reg.safeStatusCc6Ok = 1 else t.boot.fwRefused = s.boot.fwRefused ++ [s.boot.fwSlot.getD 0] ∧
    (t.paddock = true ∨ t.boot.fwSlot = some (1 - s.boot.fwSlot.getD 0)))) ∧
  (∀ (s : State), s.stage = stNvLoad → s.paddock = false → s.nvOk = true → s.nv.userNv = none → s.nv.failCount <
    s.failLimit → Completes (exec (.nvLoadEnd) s) (fun t => t.stage = stPinsSet ∧ t.nv = s.nv.countStart)) ∧
  (∀ (s : State), s.stage = stPinsSet → s.paddock = false → s.pins.configured = false → s.setPins.loadAdc.tooHot = false →
    Completes (exec (.pinsSetEnd) s) (fun t => t.pins.configured = true ∧ t.power.turning = some 15 ∧ (t.rail 15).on = true)) ∧
  (∀ (k : Nat) (s : State), s.power.turning = some k → Completes (exec (.railGood k) s) (fun t => (t.rail k).good = true ∧
    t.power.turning = railAfter k)) ∧
  (∀ (k word : Nat) (s : State), s.power.turning = some k → Completes (exec (.railGoodTimeout k word) s) (fun t =>
    t.power.turning = none)) ∧
  (∀ (s : State), s.power.heldOff = true → s.paddock = false → s.tooHot = false → Completes (exec (.railOnTempRecheck) s)
    (fun t => t.power.heldOff = false ∧ t.power.turning = some 15)) ∧
  (∀ (s : State), s.stage = stDramUp → s.paddock = false → Completes (exec (.dramUpEnd) s) (fun t => t.stage = stLinksUp ∧
    t.fget Reg.dramStatusStacksUp = 0xFF)) ∧
  (∀ (s : State), s.stage = stLinksUp → s.paddock = false → Completes (exec (.linksUpEnd) s) (fun t => t.stage =
    stImageLoad ∧ t.safety.portUp = true)) ∧
  (∀ (s : State), s.imageLoad = true → s.bootSrc ≠ 1 → s.volz.kind = none → s.boot.imgRefused = [] → s.boot.marked = true →
    exec (.imageLoadSlot) s = .next (s.loadSlot s.boot.imgSlot)) ∧
  (∀ (s : State), s.imageLoad = true → s.fget Reg.volzStatusState = vzApply → Completes (exec (.imageLoadEnd) s) (fun t =>
    t.stage = stSelfCal ∧ t.fget Reg.volzResultCode = vrDone ∧ t.volz.kind = none)) ∧
  (∀ (fits : List SelfFit) (s : State), s.stage = stSelfCal → s.paddock = false → Completes (exec (.selfCalEnd fits) s)
    (fun t => t.stage = stCauseway)) ∧
  (∀ (s : State), s.stage = stCauseway → s.paddock = false → s.discovered = true → Completes (exec (.causewayOpenEnd) s)
    (fun t => t.stage = stReady ∧ t.boot.readyAt = s.now ∧ t.fget Reg.rstStatusBootLock = 1)) ∧
  (∀ (s : State), s.stage ≠ stPor → s.stage < stReady → s.paddock = false → Completes (exec (.startDeadlineExpire) s) (fun
    t => t.paddock = true ∧ t.fget Reg.rstStatusReason = 1 ∧ t.fget Reg.rstFaultStage = s.stage)) ∧
  (∀ (n : Nat) (s : State), s.boot.failPending = some n → s.ready = false → exec (.failCountNvRetry) s = .next
    (s.writeFailCount n))

/-- Host accesses of registers, configuration space and BAR4 complete (R5, R7, R18, R336, R342, R347, R354, R358, R359, R428,
R522). A register write reaches the word it lands on; reads of counters and of _LO registers answer the word and the state
after; configuration requests are answered; BAR4 reads and writes reach the tensor space; link and error events set what the
spec names. -/
def Obligations.HostAccessesComplete : Prop :=
  (∀ (fn bar off value a : Nat) (sel : Option Nat) (s : State), off % 4 = 0 → s.land fn bar off = some (.reg a sel) → exec
    (.registerWrite fn bar off 4 value false) s = .next (s.writeReg (s.landedWord a sel) (value % 2 ^ 32))) ∧
  (∀ (fn bar off a : Nat) (sel : Option Nat) (s : State), off % 4 = 0 → s.land fn bar off = some (.reg a sel) → exec
    (.readClearCounter fn bar off 4) s = .next ((s.readReg (s.landedWord a sel)).2.send (.completion 0 (leBytes 4 (s.readReg
    (s.landedWord a sel)).1)))) ∧
  (∀ (fn bar off a : Nat) (sel : Option Nat) (s : State), off % 4 = 0 → s.land fn bar off = some (.reg a sel) → exec
    (.latchingLoRead fn bar off 4) s = .next ((s.readReg (s.landedWord a sel)).2.send (.completion 0 (leBytes 4 (s.readReg
    (s.landedWord a sel)).1)))) ∧
  (∀ (fn : Nat) (s : State), stNvLoad < s.stage → s.fnPresent fn = true → exec (.configRequest (.identity fn)) s = .next
    (s.send (.completion 0 (identityBytes fn)))) ∧
  (∀ (fn : Nat) (f : CfgField) (s : State), stNvLoad < s.stage → s.fnPresent fn = true → exec (.configRequest (.field fn
    f)) s = .next (s.send (.completion 0 (leBytes 4 (s.cfgValue fn f))))) ∧
  (∀ (fn : Nat) (d3 : Bool) (s : State), stNvLoad < s.stage → s.fnPresent fn = true → exec (.configRequest (.power fn d3))
    s = .next (((s.setFnCfg fn { s.fnCfg fn with d3 := d3 }).each (List.range (fnVectors fn)) (fun s v => s.vecRelease fn
    v)).send (.completion 0 []))) ∧
  (∀ (fn : Nat) (on : Bool) (s : State), stNvLoad < s.stage → s.fnPresent fn = true → exec (.configRequest (.ats fn on)) s
    = .next ((s.cfgAts fn on).send (.completion 0 []))) ∧
  (∀ (fn : Nat) (on mask : Bool) (s : State), stNvLoad < s.stage → s.fnPresent fn = true → exec (.configRequest (.msix fn
    on mask)) s = .next ((s.cfgMsix fn on mask).send (.completion 0 []))) ∧
  (∀ (fn payload readReq : Nat) (s : State), stNvLoad < s.stage → s.fnPresent fn = true → Completes (exec (.configRequest
    (.sizes fn payload readReq)) s) (fun t => (t.fnCfg fn).payload = min 2 payload ∧ (t.fnCfg fn).readReq = min 5 readReq)) ∧
  (∀ (fn bits : Nat) (s : State), stNvLoad < s.stage → s.fnPresent fn = true → Completes (exec (.configRequest (.acs fn
    bits)) s) (fun t => (t.fnCfg fn).acs = bits % 2 ^ 16)) ∧
  (∀ (fn clear mask : Nat) (s : State), stNvLoad < s.stage → s.fnPresent fn = true → Completes (exec (.configRequest (.aer
    fn clear mask)) s) (fun t => (t.fnCfg fn).aer = (s.fnCfg fn).aer - ((s.fnCfg fn).aer &&& clear) ∧ (t.fnCfg fn).aerMask =
    mask % 8)) ∧
  (∀ (n : Nat) (s : State), stNvLoad < s.stage → Completes (exec (.configRequest (.sriov n)) s) (fun t => t.pci.vfEnable =
    true ∧ t.pci.numVfs = min 32 n)) ∧
  (∀ (vf : Bool) (g : Nat) (s : State), stNvLoad < s.stage → Completes (exec (.configRequest (.bar4 vf g)) s) (fun t => if
    vf then t.pci.vfBar4 = clampNat 8 64 g else t.pci.bar4 = clampNat 8 512 g)) ∧
  (∀ (fn off : Nat) (s : State), stNvLoad < s.stage → s.fnPresent fn = true → Completes (exec (.configRequest (.read fn
    off)) s) (fun t => t.freeCount = s.freeCount + 1 ∧ t.out = s.out ++ [.completion 0 (leBytes 4 (Config.freeValue
    s.freeCount))])) ∧
  (∀ (fn off v : Nat) (s : State), stNvLoad < s.stage → s.fnPresent fn = true → exec (.configRequest (.write fn off v)) s =
    .next (s.send (.completion 0 []))) ∧
  (∀ (fn off n a : Nat) (s : State), s.bar4Open fn = true → s.bar4Range fn off n = some a → exec (.hostBar4Read fn off n) s
    = .next ((s.readThrough unitPackage a n).2.2.send (.completion (if (s.readThrough unitPackage a n).2.1 then 2 else 0)
    (s.readThrough unitPackage a n).1))) ∧
  (∀ (fn off a : Nat) (bytes : List Nat) (s : State), s.bar4Open fn = true → s.bar4Range fn off bytes.length = some a →
    exec (.hostBar4Write fn off bytes false) s = .next (s.hostWrite a (bytes.map (· % 256)))) ∧
  (∀ (fn : Nat) (s : State), (s.fnCfg fn).aerMask.testBit 2 = false → exec (.malformedTlp fn) s = .next ((s.setFnCfg fn
    { s.fnCfg fn with aer := setBit (s.fnCfg fn).aer 2 }).send (.aer fn 2))) ∧
  (∀ (fn : Nat) (s : State), (s.fnCfg fn).aerMask.testBit 2 = true → exec (.malformedTlp fn) s = .next (s.setFnCfg fn
    { s.fnCfg fn with aer := setBit (s.fnCfg fn).aer 2 })) ∧
  (∀ (rate width : Nat) (flit : Bool) (s : State), Completes (exec (.pcieLinkUp rate width flit) s) (fun t => t.fget
    Reg.pciStatusLinkUp = 1 ∧ t.fget Reg.pciStatusRate = rate % 16 ∧ t.fget Reg.pciStatusWidth = width % 64 ∧ t.fget
    Reg.pciStatusBelowSpec = if belowSpec rate width then 1 else 0)) ∧
  (∀ (s : State), Completes (exec (.pcieLinkDown) s) (fun t => t.fget Reg.pciStatusLinkUp = 0 ∧ t.fget Reg.pciErrLinkDown =
    1 ∧ t.mem = s.mem)) ∧
  (∀ (fn addr : Nat) (s : State), (s.timedOut fn addr).hostReads.find? (fun r => r.1 == fn && decide (r.2.1 ≤ addr ∧ addr <
    r.2.1 + r.2.2.1)) = none → Completes (exec (.pciCompletionTimeout fn addr) s) (fun t => t = s.timedOut fn addr ∧ t.fget
    Reg.pciErrCplTimeout = 1)) ∧
  (∀ (fn addr : Nat) (r : Nat × Nat × Nat × HostRead) (s : State), (s.timedOut fn addr).hostReads.find? (fun r => r.1 == fn
    && decide (r.2.1 ≤ addr ∧ addr < r.2.1 + r.2.2.1)) = some r → exec (.pciCompletionTimeout fn addr) s = .next
    ((s.timedOut fn addr).failRead r.2.2.2)) ∧
  (∀ (fn addr len : Nat) (s : State), s.hostReads = [] → s.pci.invals = [] → Completes (exec (.atsInvalidation fn addr len)
    s) (fun t => t.fget Reg.pciAtsInval = min (Reg.pciAtsInval.card - 1) (s.fget Reg.pciAtsInval + 1) ∧ t.pci.atc =
    s.pci.atc.filter (fun e => !(e.1 == fn && overlaps e.2.1 (2 ^ e.2.2) addr len)) ∧ t.pci.invals = [] ∧ t.out = s.out ++
    [.invalidated fn addr len])) ∧
  (∀ (n : Nat) (s : State), Completes (exec (.vfEnableCleared n) s) (fun t => t.pci.numVfs = n ∧ t.pci.vfEnable =
    (s.pci.vfEnable && n != 0))) ∧
  (∀ (fn vec : Nat) (s : State), (s.vecGet fn vec).running = true → (s.vecGet fn vec).pending = true → (s.vecGet fn
    vec).mask = false → s.msixOn fn = true → exec (.msixIntervalEnd fn vec) s = .next ((s.vecSet fn vec
    { s.vecGet fn vec with running := false }).vecSend fn vec))

/-- Slot descriptors, payload reads and the KV windows answer as the spec gives them (R196, R225, R228, R237). A write of a slot
descriptor stores its bytes or commands the slot; a payload read of a DONE slot counts and answers its bytes; a KV_SEL1
write loads the snapshot; the host area of a partition with no page in host memory takes its new value. -/
def Obligations.SlotAccessesComplete : Prop :=
  (∀ (fn off g : Nat) (bytes : List Nat) (s : State), s.bar2Open fn = true → bytes.length = 4 ∨ bytes.length = 8 → off %
    bytes.length = 0 → off < 0x400000 → s.barSlot fn (off / 256) = some g → exec (.slotDescriptorWrite fn off bytes false) s
    = .next (s.descWrite g (off % 256) (bytes.map (· % 256)))) ∧
  (∀ (fn k off n g : Nat) (s : State), s.bar2Open fn = true → s.barSlot fn k = some g → n ≠ 0 → 64 < off + n → (s.slot
    g).st = .done → Completes (exec (.resultPayloadRead fn k off n) s) (fun t => t.out = s.out ++ [.completion (if
    (s.readThrough unitPackage (windowAddr g + off) n).2.1 then 2 else 0) (s.windowBytes g off n)] ∧ (t.slot g).reads = min
    0xFFFFFFFF ((s.slot g).reads + 1))) ∧
  (∀ (index cache : Nat) (s : State), Completes (exec (.kvSel1Write index cache) s) (fun t => t.fget Reg.kvSel1Index =
    index % Reg.kvSel1Index.card ∧ t.fget Reg.kvSel1Cache = cache % Reg.kvSel1Cache.card ∧ t.kv = s.kv)) ∧
  (∀ (p which value : Nat) (s : State), (s.livePages p).any (fun e => e.2.tier == 2) = false → Completes (exec
    (.kvHostAreaWrite p which value) s) (fun t => t.fget (if which = 0 then Reg.kvPHostLo.kvPart p else if which = 1 then
    Reg.kvPHostHi.kvPart p else Reg.kvPHostFrames.kvPart p) = (if which = 0 then value / 4096 % Reg.kvPHostLo.card else if
    which = 1 then value % 2 ^ 32 else value % Reg.kvPHostFrames.card)))

/-- The six slot commands move a slot as the state machine of R233 gives it (R233, R250). In the states that R233 lists for
them, ARM takes a valid descriptor of a partition in service into ARMED, CONTINUE a DONE slot with its cache, PAUSE an ARMED
slot or one in no step, RESUME a PAUSED slot, CANCEL a slot in no step, and RELEASE a finished one. -/
def Obligations.SlotCommandsComplete : Prop :=
  (∀ (g p : Nat) (u : State) (s : State), s.slotPart g = some p → (s.slot g).st = .free → u = (s.readDesc g).2 →
    u.inService p = true → u.badDesc p false (s.readDesc g).1 = false → Completes (exec (.arm g) s) (fun t => (t.slot g).st
    = .armed ∧ (t.slot g).gen = ((u.slot g).gen + 1) % 65536 ∧ (t.slot g).work = (s.readDesc g).1 ∧ (t.slot g).armedAt =
    u.now)) ∧
  (∀ (g p : Nat) (u : State) (s : State), s.slotPart g = some p → (s.slot g).st = .done → (s.slot g).cacheHeld = true → u =
    (s.readDesc g).2 → u.badDesc p true (s.readDesc g).1 = false → (s.readDesc g).1.inputCount ≠ 0 ∨ (u.slot g).pendingTok ≠
    none → Completes (exec (.continueSlot g) s) (fun t => (t.slot g).st = .armed ∧ (t.slot g).work = (s.readDesc g).1 ∧
    (t.slot g).gen = (u.slot g).gen)) ∧
  (∀ (g p : Nat) (s : State), s.slotPart g = some p → (s.slot g).st = .armed ∨ ((s.slot g).st = .running ∧ (s.slot
    g).inStep = none) → Completes (exec (.pause g) s) (fun t => (t.slot g).st = .paused ∧ (t.slot g).stateAt = s.now)) ∧
  (∀ (g p : Nat) (s : State), s.slotPart g = some p → (s.slot g).st = .paused → Completes (exec (.resume g) s) (fun t =>
    (t.slot g).st = .armed ∧ (t.slot g).stateAt = s.now)) ∧
  (∀ (g p : Nat) (s : State), s.slotPart g = some p → (s.slot g).st = .armed ∨ (s.slot g).st = .running ∨ (s.slot g).st =
    .paused → (s.slot g).inStep = none → Completes (exec (.cancel g) s) (fun t => (t.slot g).st = .cancelled ∧ (t.slot
    g).code = cHostCancel)) ∧
  (∀ (g p : Nat) (s : State), s.slotPart g = some p → (s.slot g).st = .done ∨ (s.slot g).st = .cancelled ∨ (s.slot g).st =
    .faulted → Completes (exec (.release g) s) (fun t => (t.slot g).st = .free ∧ (t.slot g).cacheHeld = false))

/-- Planning, posting, page moves, page waits and mileposts complete with their effects (R162, R165, R220, R221, R232, R233,
R240, R241, R255). Each serving event, in the state that the spec gives it, takes its effect: page waits retry and expire,
moves and input pulls end, the time to live ends a parked slot, a plan makes a step, a record posts it, a reached milepost
commits it and a replay begins. -/
def Obligations.ServingEventsComplete : Prop :=
  (∀ (g p : Nat) (s : State), s.slotPart g = some p → s.waiting p (s.localSlot p g) = true → (s.secure p g (s.slot
    g).waitRows).1 = .ok → exec (.pageWaitRetry g) s = .next ((s.secure p g (s.slot g).waitRows).2)) ∧
  (∀ (g p : Nat) (s : State), s.slotPart g = some p → s.waiting p (s.localSlot p g) = true → Completes (exec
    (.pageWaitExpire g) s) (fun t => (t.slot g).st = .faulted ∧ (t.slot g).code = cExhausted)) ∧
  (∀ (p page : Nat) (host : List Nat) (m : Move) (s : State), s.kv.moves.find? (fun m => m.part == p && m.page == page) =
    some m → m.kind ≠ .copy → s.pci.lost = false → exec (.pageMoveComplete p page false host) s = .next
    (({ s with kv := { s.kv with moves := s.kv.moves.filter (fun z => !(z == m)) } } : State).endMove m host)) ∧
  (∀ (g : Nat) (host : List Nat) (y : Step) (e : StepSeq) (s : State), s.pulling g = some (y, e) → (s.slot g).inStep = some
    y.id → s.pci.lost = false → ((s.modStep y.id (fun z => { z with pulls := z.pulls.filter (· != g) })).chunkTokens g e
    host).2.1 = false → exec (.inputPullComplete g false host) s = .next (((s.modStep y.id (fun z =>
    { z with pulls := z.pulls.filter (· != g) })).chunkTokens g e host).2.2.writeThrough (unitCore 0) (y.a1 + 4 *
    e.firstRow) (tokenBytes ((s.modStep y.id (fun z => { z with pulls := z.pulls.filter (· != g) })).chunkTokens g e
    host).1))) ∧
  (∀ (g p : Nat) (s : State), s.slotPart g = some p → (s.slot g).ttlFrom ≠ none → s.ttlMs p g ≠ none → s.coreHalted 0 =
    false → (s.slot g).st = .paused → Completes (exec (.ttlExpire g) s) (fun t => (t.slot g).st = .cancelled ∧ (t.slot
    g).code = cTtl)) ∧
  (∀ (p m a0 a1 a2 a2b : Nat) (attn : List (List Nat)) (a b : PlanState) (s : State), s.ready = true → s.inService p = true
    → s.coreHalted 0 = false → a = (s.decodeSlots p m).foldl (fun a g => a.decode p (s.serveCfg p 32 2 1024) (s.serveCfg p
    38 2 1024) g) { s := s } → b = (a.s.promptSlots p m).foldl (fun a g => a.prompt p (s.serveCfg p 32 2 1024) (s.serveCfg p
    38 2 1024) (s.serveCfg p 34 2 64) (s.serveCfg p 36 2 512) g) { a with stop := false } → b.seqs ≠ [] → b.s.trimPlan p m
    b.seqs = b.seqs → exec (.stepPlan p m a0 a1 a2 a2b attn) s = .next (b.s.createStep p m a0 a1 a2 a2b attn b.seqs)) ∧
  (∀ (id : Nat) (y : Step) (s : State), s.step? id = some y → y.posted = false → y.pulls = [] → s.inService y.part = true →
    s.coreHalted 0 = false → y.twin = none → Completes (exec (.stepRecord id) s) (fun t => ∃ z, t.step? id = some z ∧
    z.posted = true ∧ z.startedAt = s.now)) ∧
  (∀ (id : Nat) (y : Step) (s : State), s.step? id = some y → s.reached y = true → s.coreHalted 0 = false → y.twin = none →
    (s.readRows y.a2 (s.rowStride y.part y.model) (s.rowBytes y.part y.model) (((s.liveSeqs y).map (fun e =>
    e.2.outRows)).flatten)).2.1 = false → exec (.milepostReached id) s = .next (s.commitAlone y)) ∧
  (∀ (id : Nat) (y : Step) (s : State), s.step? id = some y → y.asked ≠ [] ∨ y.verdictAsked = true ∨ y.collFailed = true →
    y.posted = true → s.stepHeld y = false → y.verdictAsked = true → s.verdictMoves y.part = false ∧ s.planeHeld y.part =
    false → y.collFailed = true → s.torus.replan = false → exec (.replayStart id) s = .next (s.startReplay y))

/-- The sequencer instructions that move data, groups and flags complete (R156, R157, R177, R184, R186, R188, R189, R261, R324).
An instruction that string x issues (no breakpoint halts it, nothing stalls it) has the effect of R184 on address registers,
code position, loops, groups, flags and models, and the code position goes on. -/
def Obligations.SequencerInstructionsComplete : Prop :=
  (∀ (x : Nat) (s : State), s.issues x (touchNone 0x00) → Completes (exec (.nop x) s) (fun t => (t.seq x).pos = (s.seq
    x).advance.pos ∧ (t.seq x).regs = (s.seq x).regs ∧ t.mem = s.mem)) ∧
  (∀ (x a off : Nat) (y : Step) (s : State), a < 16 → s.seqStep x = some y → s.issues x ⟨0x01, [(s.progAddr x (s.dataStart
    y.part x + off), 8)], []⟩ → (s.readProg x (s.dataStart y.part x + off)).2.1 = false → Completes (exec (.lda x a off) s)
    (fun t => (t.seq x).pos = (s.seq x).advance.pos ∧ (t.seq x).a a = (s.readProg x (s.dataStart y.part x + off)).1)) ∧
  (∀ (x a : Nat) (imm : Int) (s : State), a < 16 → s.issues x (touchNone 0x02) → Completes (exec (.adda x a imm) s) (fun t
    => (t.seq x).pos = (s.seq x).advance.pos ∧ (t.seq x).a a = ofSigned 64 ((s.seq x).a a + imm) ∧ t.mem = s.mem)) ∧
  (∀ (x count len : Nat) (s : State), s.issues x (touchNone 0x03) → Completes (exec (.loop x count len) s) (fun t => (t.seq
    x).pos = ((s.seq x).loop count len).pos ∧ (t.seq x).loops = ((s.seq x).loop count len).loops ∧ t.mem = s.mem)) ∧
  (∀ (x team a : Nat) (y : Step) (u : State) (r : List Nat × Bool × State) (s : State), s.seqStep x = some y → s.issues x
    ⟨0x10, [((s.seq x).a a, 64)], []⟩ → u = s.issued x ⟨0x10, [((s.seq x).a a, 64)], []⟩ → u.reaches y.part ((s.seq x).a a)
    64 = true → r = u.readThrough (unitString x) ((s.seq x).a a) 64 → r.2.1 = false → r.2.2.openErrors (24 * x + team % 24)
    (parseGroup r.1) = 0 → exec (.gopen x team a) s = .next (s.onward x Seq.advance ((r.2.2.initGroup y.part (24 * x + team
    % 24) y.id (parseGroup r.1)).showTeam (24 * x + team % 24)))) ∧
  (∀ (x team group : Nat) (s : State), s.issues x (touchNone 0x11) → (s.group (24 * x + team % 24) group).st = 1 →
    Completes (exec (.gclose x team group) s) (fun t => (t.seq x).pos = (s.seq x).advance.pos ∧ (t.group (24 * x + team %
    24) group).st = 2)) ∧
  (∀ (x team group : Nat) (s : State), s.issues x (touchNone 0x12) → (s.group (24 * x + team % 24) group).st = 0 →
    Completes (exec (.gwait x team group) s) (fun t => (t.seq x).pos = (s.seq x).advance.pos ∧ t.mem = s.mem)) ∧
  (∀ (x layer group a vectors : Nat) (y : Step) (l : Layer) (d n : Nat) (s : State), s.seqStep x = some y → l =
    harnessLayer (s.harness y.part) layer → d = (s.seq x).a a → n = mxSize l.inMx (l.rowSegs * 1024) → s.issues x ⟨0x20,
    [(d, n * vectors)], []⟩ → s.vecStall x layer d vectors = none → vectors ≠ 0 → s.again x y layer = none → s.reaches
    y.part d (n * vectors) = true → s.cleanAt [(d, n * vectors)] → n * vectors + retainedBytes (((s.seq x).otherInputs y.id
    layer ((s.seq x).occ y.id layer)).filter (fun r => r.step == y.id)) ≤ s.retainArea y.part → Completes (exec (.vec x
    layer group a vectors) s) (fun t => (t.seq x).pos = (s.seq x).advance.pos ∧ (t.seq x).occ y.id layer = (s.seq x).occ
    y.id layer + 1 ∧ ⟨y.id, layer, (s.seq x).occ y.id layer, placeInput (s.retainArea y.part) (n * vectors) ((s.seq
    x).otherInputs y.id layer ((s.seq x).occ y.id layer))⟩ ∈ (t.seq x).retained)) ∧
  (∀ (x model : Nat) (y : Step) (s : State), s.seqStep x = some y → s.issues x (touchNone 0x38) → s.roleStall false
    (modelStringPlaces (s.harness y.part) model x) = none → (harnessModel (s.harness y.part) model).home = 2 →
    (modelStringPlaces (s.harness y.part) model x).any s.placeLive = false → (s.seq x).loads model = false → Completes (exec
    (.loadm x model) s) (fun t => (t.seq x).pos = (s.seq x).advance.pos ∧ (t.seq x).loading = (s.seq x).loading ++ [(model,
    y.id)])) ∧
  (∀ (x model p : Nat) (remote : List (Nat × List Nat)) (s : State), s.stringPart x = some p → (s.seq x).loads model = true
    → remoteTier (harnessModel (s.harness p) model).stageUnit = false → ∀ e ∈ modelRecords (s.harness p) model x, s.cleanAt
    [(stageAddr (harnessModel (s.harness p) model).stageUnit e.1, recordBytes)] → Completes (exec (.loadmComplete x model
    remote) s) (fun t => (t.seq x).loading = (s.seq x).loading.filter (fun e => e.1 != model))) ∧
  (∀ (x model p : Nat) (e : Nat × Nat) (s : State), s.stringPart x = some p → (s.seq x).loading.find? (fun e => e.1 ==
    model) = some e → remoteTier (harnessModel (s.harness p) model).stageUnit = true → s.remoteUp (harnessModel (s.harness
    p) model).stageUnit = false → exec (.remoteTierWaitExpire x false model) s = .next ((s.setSeqr x
    { s.seq x with loading := (s.seq x).loading.filter (· != e) }).faultStep e.2 false ((placeTeams (modelStringPlaces
    (s.harness p) model x)).headD (24 * x)) 0x0A 0xFF 0xFF (remotePort (harnessModel (s.harness p) model).stageUnit))) ∧
  (∀ (x model team : Nat) (y : Step) (s : State), s.seqStep x = some y → s.issues x (touchNone 0x39) → s.swapStall x model
    = none → team ∈ placeTeams (modelStringPlaces (s.harness y.part) model x) → Completes (exec (.swapPlanes x model) s)
    (fun t => (t.seq x).pos = (s.seq x).advance.pos ∧ (t.team team).swaps = (s.team team).swaps ++ [⟨true, s.now, 0,
    (((modelStringPlaces (s.harness y.part) model x).filter (fun z => z.team == team)).map (fun z => (z.role,
    z.plane))).eraseDups⟩])) ∧
  (∀ (x model a team : Nat) (y : Step) (s : State), s.seqStep x = some y → s.issues x (touchNone 0x3A) → s.swapStall x
    model = none → s.now + 40 ≤ (s.seq x).a a → team ∈ placeTeams (modelStringPlaces (s.harness y.part) model x) → Completes
    (exec (.swapat x model a) s) (fun t => (t.seq x).pos = (s.seq x).advance.pos ∧ (t.team team).swaps = (s.team team).swaps
    ++ [⟨true, s.now, (s.seq x).a a, (((modelStringPlaces (s.harness y.part) model x).filter (fun z => z.team == team)).map
    (fun z => (z.role, z.plane))).eraseDups⟩])) ∧
  (∀ (x str flag : Nat) (s : State), s.issues x (touchNone 0x3B) → Completes (exec (.signal x str flag) s) (fun t => (t.seq
    x).pos = (s.seq x).advance.pos ∧ Map.get 0 (t.seq str).flags flag = min 255 (Map.get 0 (s.seq str).flags flag + 1))) ∧
  (∀ (x flag count : Nat) (s : State), s.issues x (touchNone 0x3C) → count ≤ Map.get 0 (s.seq x).flags flag → Completes
    (exec (.waitf x flag count) s) (fun t => (t.seq x).pos = (s.seq x).advance.pos ∧ Map.get 0 (t.seq x).flags flag =
    Map.get 0 (s.seq x).flags flag - count)) ∧
  (∀ (x a : Nat) (y : Step) (u : State) (r q : List Nat × Bool × State) (b : List Nat) (c : Coll) (s : State), s.seqStep x
    = some y → s.issues x (s.collTouch ((s.seq x).a a) y) → u = s.issued x (s.collTouch ((s.seq x).a a) y) → u.reaches
    y.part ((s.seq x).a a) 64 = true → r = u.readThrough (unitString x) ((s.seq x).a a) 64 → r.2.1 = false → r.2.2.reaches
    y.part (field r.1 40 8) 16 = true → r.2.2.collBad y.part r.1 = false → ((collRings r.1).isEmpty && collOp r.1 == 3 &&
    field r.1 12 2 != r.2.2.position) = false → r.2.2.reaches y.part (field r.1 24 8) (collCount r.1 * collElemBytes r.1) =
    true → r.2.2.reaches y.part (field r.1 32 8) ((r.2.2.collResult r.1).2 * collElemBytes r.1) = true → q = r.2.2.readFor
    (some y.id) (unitColl (r.2.2.collPort c)) (field r.1 24 8) (collCount r.1 * collElemBytes r.1) → q.2.1 = false → c.id =
    field r.1 4 4 ∧ c.part = y.part ∧ c.str = x ∧ c.step = y.id ∧ c.desc = r.1 ∧ c.phases = r.2.2.collPhases r.1 ∧ c.phase =
    0 ∧ c.k = 1 ∧ c.sent = false ∧ c.done = 0 ∧ c.sends = [] ∧ c.degraded = false ∧ c.issued = r.2.2.now → b = (if collOp
    r.1 = 2 then collPut r.1 1 (zeros (r.2.2.collTotal r.1)) (r.2.2.shareOff (collCount r.1) (collRings r.1)) (collLoad r.1
    q.1) else collLoad r.1 q.1) → c.buf = (if (collRings r.1).isEmpty && collElem r.1 == 1 && collOp r.1 < 2 then b.map
    bf16Round else b) → q.2.2.torus.collIn.any (fun e => e.part == c.part && e.id == c.id && !e.past && e.check != c.check)
    = false → exec (.coll x a) s = .next (s.onward x Seq.advance
    (({ q.2.2 with torus := { q.2.2.torus with colls := q.2.2.torus.colls ++ [c] } } : State).advanceColl y.part (field r.1
    4 4)))) ∧
  (∀ (x tag : Nat) (y : Step) (s : State), s.seqStep x = some y → s.issues x ⟨0x3E, [], []⟩ → (s.dumpsOf y.part
    tag).isEmpty = true ∨ s.dumpStall x y = none → Completes (exec (.milepost x tag) s) (fun t => (t.seq x).tag = tag ∧ ∃ z,
    t.step? y.id = some z ∧ z.waiting = y.waiting.filter (· != x))) ∧
  (∀ (x : Nat) (s : State), s.issues x (touchNone 0x3F) → (s.seq x).queue = [] → Completes (exec (.seqEnd x) s) (fun t =>
    (t.seq x).ended = true ∧ (t.seq x).reported = (s.seq x).reported)) ∧
  (∀ (x : Nat) (y : Step) (s : State), s.seqStep x = some y → s.canIssue x = true → s.codeLen y.part x ≤ (s.seq x).pos →
    exec (.badInstructionFetch x) s = .next (s.seqFault x 0x0C 0xFF 0xFF (s.seq x).pos))

/-- Elementwise vector operations write the result of R182 and nothing else in memory (R181, R182). An elementwise VU
instruction that issues on reachable, error-free operands reads COUNT elements at A(a) (and A(b)), writes the operation’s
result at A(d), and changes no other byte of memory; the functions whose rounding the spec leaves open are the free
functions of log 9. -/
def Obligations.VectorElementOperationsComplete : Prop :=
  (∀ (x team : Nat) (half : Bool) (a d count : Nat) (y : Step) (s : State), s.seqStep x = some y → s.issues x ⟨0x30,
    [(((s.seq x).a a), (elemBytes half * count))], [(((s.seq x).a d), (elemBytes half * count))]⟩ → s.queueStall (24 * x +
    team % 24) = none → s.firstBad y.part [(((s.seq x).a a), (elemBytes half * count)), (((s.seq x).a d), (elemBytes half *
    count))] = none → s.cleanAt [(((s.seq x).a a), (elemBytes half * count)), (((s.seq x).a d), (elemBytes half * count))] →
    Completes (exec (.vuCopy x team half a d count) s) (fun t => (t.seq x).pos = (s.seq x).advance.pos ∧ t.mem =
    (s.writeBytes (((s.seq x).a d), (elemBytes half * count)).1 (storeElems half ( (s.elemsAt half ((s.seq x).a a)
    count)))).mem)) ∧
  (∀ (x team : Nat) (half : Bool) (a b d count : Nat) (y : Step) (s : State), s.seqStep x = some y → s.issues x ⟨0x30,
    [(((s.seq x).a a), (elemBytes half * count)), (((s.seq x).a b), (elemBytes half * count))], [(((s.seq x).a d),
    (elemBytes half * count))]⟩ → s.queueStall (24 * x + team % 24) = none → s.firstBad y.part [(((s.seq x).a a), (elemBytes
    half * count)), (((s.seq x).a b), (elemBytes half * count)), (((s.seq x).a d), (elemBytes half * count))] = none →
    s.cleanAt [(((s.seq x).a a), (elemBytes half * count)), (((s.seq x).a b), (elemBytes half * count)), (((s.seq x).a d),
    (elemBytes half * count))] → Completes (exec (.vuAdd x team half a b d count) s) (fun t => (t.seq x).pos = (s.seq
    x).advance.pos ∧ t.mem = (s.writeBytes (((s.seq x).a d), (elemBytes half * count)).1 (storeElems half (zip2 fadd
    (s.elemsAt half ((s.seq x).a a) count) (s.elemsAt half ((s.seq x).a b) count)))).mem)) ∧
  (∀ (x team : Nat) (half : Bool) (a b d count : Nat) (y : Step) (s : State), s.seqStep x = some y → s.issues x ⟨0x30,
    [(((s.seq x).a a), (elemBytes half * count)), (((s.seq x).a b), (elemBytes half * count))], [(((s.seq x).a d),
    (elemBytes half * count))]⟩ → s.queueStall (24 * x + team % 24) = none → s.firstBad y.part [(((s.seq x).a a), (elemBytes
    half * count)), (((s.seq x).a b), (elemBytes half * count)), (((s.seq x).a d), (elemBytes half * count))] = none →
    s.cleanAt [(((s.seq x).a a), (elemBytes half * count)), (((s.seq x).a b), (elemBytes half * count)), (((s.seq x).a d),
    (elemBytes half * count))] → Completes (exec (.vuMul x team half a b d count) s) (fun t => (t.seq x).pos = (s.seq
    x).advance.pos ∧ t.mem = (s.writeBytes (((s.seq x).a d), (elemBytes half * count)).1 (storeElems half (zip2 fmul
    (s.elemsAt half ((s.seq x).a a) count) (s.elemsAt half ((s.seq x).a b) count)))).mem)) ∧
  (∀ (x team : Nat) (half : Bool) (a b d count : Nat) (y : Step) (s : State), s.seqStep x = some y → s.issues x ⟨0x30,
    [(((s.seq x).a a), (elemBytes half * count)), (((s.seq x).a b), (elemBytes half * count)), (((s.seq x).a d), (elemBytes
    half * count))], [(((s.seq x).a d), (elemBytes half * count))]⟩ → s.queueStall (24 * x + team % 24) = none → s.firstBad
    y.part [(((s.seq x).a a), (elemBytes half * count)), (((s.seq x).a b), (elemBytes half * count)), (((s.seq x).a d),
    (elemBytes half * count)), (((s.seq x).a d), (elemBytes half * count))] = none → s.cleanAt [(((s.seq x).a a), (elemBytes
    half * count)), (((s.seq x).a b), (elemBytes half * count)), (((s.seq x).a d), (elemBytes half * count)), (((s.seq x).a
    d), (elemBytes half * count))] → Completes (exec (.vuFma x team half a b d count) s) (fun t => (t.seq x).pos = (s.seq
    x).advance.pos ∧ t.mem = (s.writeBytes (((s.seq x).a d), (elemBytes half * count)).1 (storeElems half (((s.elemsAt half
    ((s.seq x).a a) count).zip ((s.elemsAt half ((s.seq x).a b) count).zip (s.elemsAt half ((s.seq x).a d) count))).map (fun
    e => ffma e.1 e.2.1 e.2.2)))).mem)) ∧
  (∀ (x team : Nat) (half : Bool) (a b d count : Nat) (y : Step) (s : State), s.seqStep x = some y → s.issues x ⟨0x30,
    [(((s.seq x).a a), (elemBytes half * count)), (((s.seq x).a b), (elemBytes half * count))], [(((s.seq x).a d),
    (elemBytes half * count))]⟩ → s.queueStall (24 * x + team % 24) = none → s.firstBad y.part [(((s.seq x).a a), (elemBytes
    half * count)), (((s.seq x).a b), (elemBytes half * count)), (((s.seq x).a d), (elemBytes half * count))] = none →
    s.cleanAt [(((s.seq x).a a), (elemBytes half * count)), (((s.seq x).a b), (elemBytes half * count)), (((s.seq x).a d),
    (elemBytes half * count))] → Completes (exec (.vuMax x team half a b d count) s) (fun t => (t.seq x).pos = (s.seq
    x).advance.pos ∧ t.mem = (s.writeBytes (((s.seq x).a d), (elemBytes half * count)).1 (storeElems half (zip2 fmax
    (s.elemsAt half ((s.seq x).a a) count) (s.elemsAt half ((s.seq x).a b) count)))).mem)) ∧
  (∀ (x team : Nat) (half : Bool) (a d count : Nat) (y : Step) (s : State), s.seqStep x = some y → s.issues x ⟨0x30,
    [(((s.seq x).a a), (elemBytes half * count))], [(((s.seq x).a d), (elemBytes half * count))]⟩ → s.queueStall (24 * x +
    team % 24) = none → s.firstBad y.part [(((s.seq x).a a), (elemBytes half * count)), (((s.seq x).a d), (elemBytes half *
    count))] = none → s.cleanAt [(((s.seq x).a a), (elemBytes half * count)), (((s.seq x).a d), (elemBytes half * count))] →
    Completes (exec (.vuExp x team half a d count) s) (fun t => (t.seq x).pos = (s.seq x).advance.pos ∧ t.mem =
    (s.writeBytes (((s.seq x).a d), (elemBytes half * count)).1 (storeElems half (List.map fexp (s.elemsAt half ((s.seq x).a
    a) count)))).mem)) ∧
  (∀ (x team : Nat) (half : Bool) (a d count : Nat) (y : Step) (s : State), s.seqStep x = some y → s.issues x ⟨0x30,
    [(((s.seq x).a a), (elemBytes half * count))], [(((s.seq x).a d), (elemBytes half * count))]⟩ → s.queueStall (24 * x +
    team % 24) = none → s.firstBad y.part [(((s.seq x).a a), (elemBytes half * count)), (((s.seq x).a d), (elemBytes half *
    count))] = none → s.cleanAt [(((s.seq x).a a), (elemBytes half * count)), (((s.seq x).a d), (elemBytes half * count))] →
    Completes (exec (.vuRsqrt x team half a d count) s) (fun t => (t.seq x).pos = (s.seq x).advance.pos ∧ t.mem =
    (s.writeBytes (((s.seq x).a d), (elemBytes half * count)).1 (storeElems half (List.map frsqrt (s.elemsAt half ((s.seq
    x).a a) count)))).mem)) ∧
  (∀ (x team : Nat) (half : Bool) (a d count : Nat) (y : Step) (s : State), s.seqStep x = some y → s.issues x ⟨0x30,
    [(((s.seq x).a a), (elemBytes half * count))], [(((s.seq x).a d), (elemBytes half * count))]⟩ → s.queueStall (24 * x +
    team % 24) = none → s.firstBad y.part [(((s.seq x).a a), (elemBytes half * count)), (((s.seq x).a d), (elemBytes half *
    count))] = none → s.cleanAt [(((s.seq x).a a), (elemBytes half * count)), (((s.seq x).a d), (elemBytes half * count))] →
    Completes (exec (.vuRecip x team half a d count) s) (fun t => (t.seq x).pos = (s.seq x).advance.pos ∧ t.mem =
    (s.writeBytes (((s.seq x).a d), (elemBytes half * count)).1 (storeElems half (List.map frecip (s.elemsAt half ((s.seq
    x).a a) count)))).mem)) ∧
  (∀ (x team : Nat) (half : Bool) (a d count : Nat) (y : Step) (s : State), s.seqStep x = some y → s.issues x ⟨0x30,
    [(((s.seq x).a a), (elemBytes half * count))], [(((s.seq x).a d), (elemBytes half * count))]⟩ → s.queueStall (24 * x +
    team % 24) = none → s.firstBad y.part [(((s.seq x).a a), (elemBytes half * count)), (((s.seq x).a d), (elemBytes half *
    count))] = none → s.cleanAt [(((s.seq x).a a), (elemBytes half * count)), (((s.seq x).a d), (elemBytes half * count))] →
    Completes (exec (.vuSilu x team half a d count) s) (fun t => (t.seq x).pos = (s.seq x).advance.pos ∧ t.mem =
    (s.writeBytes (((s.seq x).a d), (elemBytes half * count)).1 (storeElems half (List.map fsilu (s.elemsAt half ((s.seq
    x).a a) count)))).mem)) ∧
  (∀ (x team : Nat) (half : Bool) (a d count : Nat) (y : Step) (s : State), s.seqStep x = some y → s.issues x ⟨0x30,
    [(((s.seq x).a a), (elemBytes half * count))], [(((s.seq x).a d), (elemBytes half * count))]⟩ → s.queueStall (24 * x +
    team % 24) = none → s.firstBad y.part [(((s.seq x).a a), (elemBytes half * count)), (((s.seq x).a d), (elemBytes half *
    count))] = none → s.cleanAt [(((s.seq x).a a), (elemBytes half * count)), (((s.seq x).a d), (elemBytes half * count))] →
    Completes (exec (.vuGelu x team half a d count) s) (fun t => (t.seq x).pos = (s.seq x).advance.pos ∧ t.mem =
    (s.writeBytes (((s.seq x).a d), (elemBytes half * count)).1 (storeElems half (List.map fgelu (s.elemsAt half ((s.seq
    x).a a) count)))).mem)) ∧
  (∀ (x team : Nat) (half : Bool) (a b d count : Nat) (y : Step) (s : State), s.seqStep x = some y → s.issues x ⟨0x30,
    [(((s.seq x).a a), (elemBytes half * count)), (((s.seq x).a b), (elemBytes half * count))], [(((s.seq x).a d),
    (elemBytes half * count))]⟩ → s.queueStall (24 * x + team % 24) = none → s.firstBad y.part [(((s.seq x).a a), (elemBytes
    half * count)), (((s.seq x).a b), (elemBytes half * count)), (((s.seq x).a d), (elemBytes half * count))] = none →
    s.cleanAt [(((s.seq x).a a), (elemBytes half * count)), (((s.seq x).a b), (elemBytes half * count)), (((s.seq x).a d),
    (elemBytes half * count))] → Completes (exec (.vuRmsnorm x team half a b d count) s) (fun t => (t.seq x).pos = (s.seq
    x).advance.pos ∧ t.mem = (s.writeBytes (((s.seq x).a d), (elemBytes half * count)).1 (storeElems half (vuRmsNorm
    (s.elemsAt half ((s.seq x).a a) count) (s.elemsAt half ((s.seq x).a b) count)))).mem)) ∧
  (∀ (x team : Nat) (half : Bool) (a d count : Nat) (y : Step) (s : State), s.seqStep x = some y → s.issues x ⟨0x30,
    [(((s.seq x).a a), (elemBytes half * count))], [(((s.seq x).a d), (elemBytes half * count))]⟩ → s.queueStall (24 * x +
    team % 24) = none → s.firstBad y.part [(((s.seq x).a a), (elemBytes half * count)), (((s.seq x).a d), (elemBytes half *
    count))] = none → s.cleanAt [(((s.seq x).a a), (elemBytes half * count)), (((s.seq x).a d), (elemBytes half * count))] →
    Completes (exec (.vuSoftmax x team half a d count) s) (fun t => (t.seq x).pos = (s.seq x).advance.pos ∧ t.mem =
    (s.writeBytes (((s.seq x).a d), (elemBytes half * count)).1 (storeElems half (vuSoftmax (s.elemsAt half ((s.seq x).a a)
    count)))).mem))

/-- SUM, ROPE, GATHER, SCATTER and the MX conversions complete with their results (R161, R181, R182). A VU SUM, ROPE, TO_MX or
FROM_MX that issues on reachable, error-free operands writes its result at A(d) and nothing else in memory; GATHER and
SCATTER move the elements that their indices select. -/
def Obligations.VectorOtherOperationsComplete : Prop :=
  (∀ (x team : Nat) (half : Bool) (a d count : Nat) (y : Step) (s : State), s.seqStep x = some y → s.issues x ⟨0x30,
    [(((s.seq x).a a), (elemBytes half * count))], [(((s.seq x).a d), elemBytes half)]⟩ → s.queueStall (24 * x + team % 24)
    = none → s.firstBad y.part [(((s.seq x).a a), (elemBytes half * count)), (((s.seq x).a d), elemBytes half)] = none →
    s.cleanAt [(((s.seq x).a a), (elemBytes half * count)), (((s.seq x).a d), elemBytes half)] → Completes (exec (.vuSum x
    team half a d count) s) (fun t => (t.seq x).pos = (s.seq x).advance.pos ∧ t.mem = (s.writeBytes (((s.seq x).a d),
    elemBytes half).1 (storeElems half [vuSum (s.elemsAt half ((s.seq x).a a) count)])).mem)) ∧
  (∀ (x team : Nat) (half : Bool) (a b d count : Nat) (y : Step) (s : State), s.seqStep x = some y → s.issues x ⟨0x30,
    [(((s.seq x).a a), (elemBytes half * count)), (((s.seq x).a b), elemBytes half * (count / 2))], [(((s.seq x).a d),
    (elemBytes half * count))]⟩ → s.queueStall (24 * x + team % 24) = none → s.firstBad y.part [(((s.seq x).a a), (elemBytes
    half * count)), (((s.seq x).a b), elemBytes half * (count / 2)), (((s.seq x).a d), (elemBytes half * count))] = none →
    s.cleanAt [(((s.seq x).a a), (elemBytes half * count)), (((s.seq x).a b), elemBytes half * (count / 2)), (((s.seq x).a
    d), (elemBytes half * count))] → Completes (exec (.vuRope x team half a b d count) s) (fun t => (t.seq x).pos = (s.seq
    x).advance.pos ∧ t.mem = (s.writeBytes (((s.seq x).a d), (elemBytes half * count)).1 (storeElems half (vuRope (s.elemsAt
    half ((s.seq x).a a) count) (s.elemsAt half ((s.seq x).a b) (count / 2))))).mem)) ∧
  (∀ (x team : Nat) (half : Bool) (fmt a d count : Nat) (y : Step) (s : State), s.seqStep x = some y → s.issues x ⟨0x30,
    [(((s.seq x).a a), (elemBytes half * count))], [(((s.seq x).a d), mxSize (fmt % 6) count)]⟩ → s.queueStall (24 * x +
    team % 24) = none → s.firstBad y.part [(((s.seq x).a a), (elemBytes half * count)), (((s.seq x).a d), mxSize (fmt % 6)
    count)] = none → s.cleanAt [(((s.seq x).a a), (elemBytes half * count)), (((s.seq x).a d), mxSize (fmt % 6) count)] →
    Completes (exec (.vuToMx x team half fmt a d count) s) (fun t => (t.seq x).pos = (s.seq x).advance.pos ∧ t.mem =
    (s.writeBytes (((s.seq x).a d), mxSize (fmt % 6) count).1 ((mxTensor (fmt % 6) (fun _ => 0) ((s.elemsAt half ((s.seq
    x).a a) count).map f32ForMx)).1)).mem)) ∧
  (∀ (x team : Nat) (half : Bool) (fmt a d count : Nat) (y : Step) (s : State), s.seqStep x = some y → s.issues x ⟨0x30,
    [(((s.seq x).a a), mxSize (fmt % 6) count)], [(((s.seq x).a d), (elemBytes half * count))]⟩ → s.queueStall (24 * x +
    team % 24) = none → s.firstBad y.part [(((s.seq x).a a), mxSize (fmt % 6) count), (((s.seq x).a d), (elemBytes half *
    count))] = none → s.cleanAt [(((s.seq x).a a), mxSize (fmt % 6) count), (((s.seq x).a d), (elemBytes half * count))] →
    Completes (exec (.vuFromMx x team half fmt a d count) s) (fun t => (t.seq x).pos = (s.seq x).advance.pos ∧ t.mem =
    (s.writeBytes (((s.seq x).a d), (elemBytes half * count)).1 (storeElems half (fromMx (fmt % 6) count (s.codedBytes
    ((s.seq x).a a) (mxSize (fmt % 6) count))))).mem)) ∧
  (∀ (x team : Nat) (half : Bool) (a b d count : Nat) (y : Step) (js : List (Option Nat)) (s : State), s.seqStep x = some y
    → s.issues x ⟨0x30, (((s.seq x).a b), 4 * count) :: s.indexed half count ((s.seq x).a a) ((s.seq x).a b), [(((s.seq x).a
    d), (elemBytes half * count))]⟩ → s.queueStall (24 * x + team % 24) = none → s.firstBad y.part [(((s.seq x).a b), 4 *
    count), (((s.seq x).a d), (elemBytes half * count))] = none → s.cleanAt [(((s.seq x).a b), 4 * count), (((s.seq x).a d),
    (elemBytes half * count))] → js = indexAddrs ((s.seq x).a a) (elemBytes half) count (s.codedBytes ((s.seq x).a b) (4 *
    count)) → s.badIndex y.part (elemBytes half) js = none → s.cleanAt (js.map (fun o => (o.getD 0, elemBytes half))) →
    Completes (exec (.vuGather x team half a b d count) s) (fun t => (t.seq x).pos = (s.seq x).advance.pos ∧ t.mem =
    (s.writeBytes ((s.seq x).a d) (storeElems half (elems half count (js.map (fun o => s.codedBytes (o.getD 0) (elemBytes
    half))).flatten))).mem)) ∧
  (∀ (x team : Nat) (half : Bool) (a b d count : Nat) (y : Step) (js : List (Option Nat)) (s : State), s.seqStep x = some y
    → s.issues x ⟨0x30, [(((s.seq x).a a), (elemBytes half * count)), (((s.seq x).a b), 4 * count)], s.indexed half count
    ((s.seq x).a d) ((s.seq x).a b)⟩ → s.queueStall (24 * x + team % 24) = none → s.firstBad y.part [(((s.seq x).a a),
    (elemBytes half * count)), (((s.seq x).a b), 4 * count)] = none → s.cleanAt [(((s.seq x).a a), (elemBytes half *
    count)), (((s.seq x).a b), 4 * count)] → js = indexAddrs ((s.seq x).a d) (elemBytes half) count (s.codedBytes ((s.seq
    x).a b) (4 * count)) → s.badIndex y.part (elemBytes half) js = none → s.cleanAt (js.map (fun o => (o.getD 0, elemBytes
    half))) → Completes (exec (.vuScatter x team half a b d count) s) (fun t => (t.seq x).pos = (s.seq x).advance.pos ∧
    t.mem = (s.each (js.zip (s.elemsAt half ((s.seq x).a a) count)) (fun s e => s.writeBytes (e.1.getD 0) (storeElems half
    [e.2]))).mem))

/-- SCORE, VALUE and GATE complete when what they name is acceptable and readable (R180, R203, R204). A SCORE or VALUE whose
descriptor R207 accepts and whose operands and pages read without an uncorrectable error, with room for its score page, runs
as R203 and R204 give it; a GATE whose entries, dispatch area and inputs are in reach counts, writes its dispatch lists and
fires the chosen experts. -/
def Obligations.AttentionAndGateComplete : Prop :=
  (∀ (x team : Nat) (half : Bool) (a b d n : Nat) (y : Step) (u v : State) (r q : List Nat × Bool × State) (nk : List (List
    Nat) × Bool × State) (D : AttnDesc) (c : CacheShape) (ks : List Col) (at_ : Nat) (w : State) (s : State), s.seqStep x =
    some y → s.issues x (s.scoreTouch (24 * x + team % 24) y half ((s.seq x).a a) ((s.seq x).a b) ((s.seq x).a d) n) →
    s.queueStall (24 * x + team % 24) = none → u = s.issued x (s.scoreTouch (24 * x + team % 24) y half ((s.seq x).a a)
    ((s.seq x).a b) ((s.seq x).a d) n) → u.reaches y.part ((s.seq x).a b) 64 = true → r = u.readThrough (unitTeam (24 * x +
    team % 24)) ((s.seq x).a b) 64 → r.2.1 = false → D = parseAttn r.1 → c = r.2.2.cacheShape y.part D.cache → r.2.2.attnOk
    y.part (24 * x + team % 24) n D = true → r.2.2.allReach y.part ((((s.seq x).a a), attnRows c n * c.dim * elemBytes half)
    :: (((s.seq x).a d), attnRows c n * 2 * elemBytes half) :: D.ranges c n) = true → nk = r.2.2.readAll (unitTeam (24 * x +
    team % 24)) (if D.append then [(D.newK, mxSize c.fmt (n * c.heads * c.dim)), (D.newV, mxSize c.fmt (n * c.heads *
    c.dim))] else []) → nk.2.1 = false → nk.2.2.genNow y D.slot = true → v = (if D.append then nk.2.2.appendRows (24 * x +
    team % 24) y.part D.slot D c n (nk.1.getD 0 []) (nk.1.getD 1 []) else nk.2.2) → ks = v.columnsOf y.part D.slot D.cache →
    at_ = (if attnRows c n * scoreStride half ks.length ≤ D.sramBytes then D.sram else D.dram) → attnRows c n * scoreStride
    half ks.length ≤ max D.sramBytes D.dramBytes → w = ((v.each ((ks.map (·.page) ++ (if D.append then (List.range
    n).filterMap (fun r => (nk.2.2.entryAt y.part D.slot D.cache ((nk.2.2.seqTab y.part D.slot D.cache).nextPos + r)).map
    (·.page)) else [])).eraseDups) (fun s pg => s.pin y.part pg)).modStep y.id (fun z =>
    { z with scores := z.scores ++ [⟨((s.seq x).a b), seqKey y.part D.slot D.cache, (ks.map (·.page) ++ (if D.append then (List.range n).filterMap (fun r => (nk.2.2.entryAt y.part D.slot D.cache ((nk.2.2.seqTab y.part D.slot D.cache).nextPos + r)).map (·.page)) else [])).eraseDups, ks.map (fun k => (k.page, k.idx, k.pos, k.committed))⟩] }))
    → q = w.readThrough (unitTeam (24 * x + team % 24)) ((s.seq x).a a) (attnRows c n * c.dim * elemBytes half) → q.2.1 =
    false → (q.2.2.headVectors (24 * x + team % 24) y.part c D.layer 0 ks (List.range c.heads)).2.1 = none → exec (.vuScore
    x team half a b d n) s = .next (s.onward x Seq.advance (((q.2.2.headVectors (24 * x + team % 24) y.part c D.layer 0 ks
    (List.range c.heads)).2.2.scoreWrite (24 * x + team % 24) at_ ((s.seq x).a b) ((s.seq x).a d) n half (w.byPosition
    y.part c D.layer) D c (nk.2.2.seqTab y.part D.slot D.cache).nextPos ks (q.2.2.headVectors (24 * x + team % 24) y.part c
    D.layer 0 ks (List.range c.heads)).1 (elems half (attnRows c n * c.dim) q.1)).countOp x 20 1))) ∧
  (∀ (x team : Nat) (half : Bool) (a b d n : Nat) (y z : Step) (u : State) (r sp st : List Nat × Bool × State) (D :
    AttnDesc) (c : CacheShape) (sc : ScoreRec) (s : State), s.seqStep x = some y → s.issues x (s.valueTouch (24 * x + team %
    24) y half ((s.seq x).a a) ((s.seq x).a b) ((s.seq x).a d) n) → s.queueStall (24 * x + team % 24) = none → u = s.issued
    x (s.valueTouch (24 * x + team % 24) y half ((s.seq x).a a) ((s.seq x).a b) ((s.seq x).a d) n) → u.reaches y.part
    ((s.seq x).a b) 64 = true → r = u.readThrough (unitTeam (24 * x + team % 24)) ((s.seq x).a b) 64 → r.2.1 = false → D =
    parseAttn r.1 → c = r.2.2.cacheShape y.part D.cache → r.2.2.attnOk y.part (24 * x + team % 24) n D = true → r.2.2.step?
    y.id = some z → z.scores.reverse.find? (fun e => e.desc == ((s.seq x).a b)) = some sc → r.2.2.allReach y.part ((((s.seq
    x).a a), attnRows c n * 2 * elemBytes half) :: (((s.seq x).a d), attnRows c n * c.dim * elemBytes half) :: (D.scoreAt,
    attnRows c n * scoreStride half D.columns) :: D.ranges c n) = true → sp = r.2.2.readThrough (unitTeam (24 * x + team %
    24)) D.scoreAt (attnRows c n * scoreStride half D.columns) → sp.2.1 = false → st = (if r.2.2.byPosition y.part c D.layer
    then sp.2.2.readThrough (unitTeam (24 * x + team % 24)) ((s.seq x).a a) (attnRows c n * 2 * elemBytes half) else ([],
    false, sp.2.2)) → st.2.1 = false → (st.2.2.headVectors (24 * x + team % 24) y.part c D.layer 1 ((sc.cols.map (fun k =>
    ⟨k.1, k.2.1, k.2.2.1, k.2.2.2 && r.2.2.genNow y D.slot⟩)).take D.columns) (List.range c.heads)).2.1 = none → exec
    (.vuValue x team half a b d n) s = .next (s.onward x Seq.advance (r.2.2.valueRun x (24 * x + team % 24) y half ((s.seq
    x).a a) ((s.seq x).a b) ((s.seq x).a d) n D sc))) ∧
  (∀ (x set topk inp disp vectors : Nat) (y : Step) (u w : State) (r : List Nat × Bool × State) (k : Nat) (es : List (Nat ×
    Nat × Nat)) (cs : List (Nat × List (Nat × Nat))) (b : List Nat) (s : State), s.seqStep x = some y → k = s.gateK x
    ((s.seq x).a topk) → s.issues x (touchNone 0x28) → s.gateStall x set ((s.seq x).a topk) vectors y = none → u = (s.issued
    x (touchNone 0x28)).countOp x 25 1 → u.gateK x ((s.seq x).a topk) = k → u.reaches y.part ((s.seq x).a topk) (vectors * k
    * 8) = true → r = u.readThrough (unitString x) ((s.seq x).a topk) (vectors * k * 8) → r.2.1 = false → es = gateEntries k
    vectors r.1 → cs = chosen (s.harness y.part) set es → b = (cs.map (fun c => dispatchList c.2)).flatten → (r.2.2.countOp
    x 26 (es.filter (fun e => (expertIndex (s.harness y.part) set e.2.2).isNone)).length).reaches y.part ((s.seq x).a disp)
    b.length = true → w = (r.2.2.countOp x 26 (es.filter (fun e => (expertIndex (s.harness y.part) set
    e.2.2).isNone)).length).writeThrough (unitString x) ((s.seq x).a disp) b → ∀ c ∈ cs, (w.expertWork x y.part ((s.seq x).a
    inp) y (s.harness y.part) (harnessExpert (s.harness y.part) c.1) (c.2.map (fun v => v.1))).2.1 = false ∧ (w.expertWork x
    y.part ((s.seq x).a inp) y (s.harness y.part) (harnessExpert (s.harness y.part) c.1) (c.2.map (fun v => v.1))).2.2.1 =
    false → exec (.gate x set topk inp disp vectors) s = .next (s.onward x Seq.advance (w.fireAll x ((s.seq x).a inp) y
    (s.harness y.part) (up64 (((s.seq x).a disp) + b.length)) (cs.filter (fun c => (harnessExpert (s.harness y.part)
    c.1).home == 0) ++ cs.filter (fun c => (harnessExpert (s.harness y.part) c.1).home != 0)))))

/-- Conversion, beats, records, deliveries and groups of a team go on as the spec gives them (R64, R66, R74, R81, R91, R94,
R142, R157, R158). The front job of a team whose input is not stalled is converted on its common scale; a stall ends; a beat
boundary in READY counts a beat; the oldest tile record and the front delivery are taken; a closing group that nothing is
outstanding for becomes FREE; abandonment, STOP, CNT_FREEZE and TEAM_SWAP take effect. -/
def Obligations.TeamWorkCompletes : Prop :=
  (∀ (m p : Nat) (j : Job) (rest run : List Job) (l : Layer) (r : List SegPart × State) (e0 : Int) (s : State), (s.region
    (teamString m)).stopped = false → s.inputStalled m = false → (s.team m).jobs = j :: rest → s.jobPart m j = some p → l =
    harnessLayer (s.harness p) j.layer → run = spanJobs l.span (j :: rest) → nanJob l run = none → r = (s.setTeam m
    { s.team m with jobs := (j :: rest).drop run.length }).extractAll m l (localLayer (s.harness p) m j.layer) (s.harness p)
    run → e0 = (if spanMax r.1 = 0 then 0 else commonScale (spanMax r.1) (if inFmtOf l (r.2.causes j.step j.layer) = 1 then
    127 else 15)) → exec (.edgeConvert m) s = .next ((r.2.each (run.zip r.1) (fun s b => s.convertPart m b.1 l (localLayer
    (s.harness p) m j.layer) (if (r.2.causes j.step j.layer).testBit 0 then e0 + 1 else e0) b.2)).showTeam m)) ∧
  (∀ (m : Nat) (s : State), (s.region (teamString m)).stopped = false → Completes (exec (.splitStallEnd m) s) (fun t =>
    (t.team m).stall = 0 ∧ (t.team m).drawn = 0 ∧ (t.team m).jobs = (s.team m).jobs)) ∧
  (∀ (wrong : List (Nat × Nat × Nat × Int)) (missing : List (Nat × Nat × Nat)) (s : State), s.ready = true → Completes
    (exec (.beatBoundary wrong missing) s) (fun t => t.power.beat = s.power.beat + 1 ∧ t.now = s.now)) ∧
  (∀ (m : Nat) (r : TileRec) (rest : List TileRec) (s : State), (s.region (teamString m)).stopped = false → (s.team
    m).records = r :: rest → exec (.tileRecordArrive m) s = .next (((s.setTeam m
    { s.team m with records := rest }).takeRecord m r).showTeam m)) ∧
  (∀ (m acc : Nat) (d : Delivery) (y : Step) (u : State) (s : State), (s.region (teamString m)).stopped = false → (s.team
    m).deliveries.find? (·.begun) = some d → u = (s.setTeam m
    { s.team m with deliveries := (s.team m).deliveries.erase d }).outriderReads m d.tile d.plane (d.rows.map (·.1)) →
    u.step? d.step = some y → d.stray = false → u.accTile y.part m d.layer d.group d.vec d.colBlock = some acc → exec
    (.outriderDelivery m) s = .next (((u.each (if d.segScale then (d.rows.map (fun r => some (r.1 / 256))).eraseDups else
    [none]) (fun v g => v.each (List.range (if d.pair then 128 else 256)) (fun v c => if (v.step? d.step).isNone then v else
    v.deliverColumn m d acc g c ((u.setTile m d.tile ((u.tile m d.tile).mended d.plane)).deliveryTerms m d g c)))).showGroup
    m d.group).showTeam m)) ∧
  (∀ (m : Nat) (d : Delivery) (u : State) (s : State), (s.region (teamString m)).stopped = false → (s.team
    m).deliveries.find? (·.begun) = some d → u = (s.setTeam m
    { s.team m with deliveries := (s.team m).deliveries.erase d }).outriderReads m d.tile d.plane (d.rows.map (·.1)) → ∀ y,
    u.step? d.step = some y → d.stray = true ∨ u.accTile y.part m d.layer d.group d.vec d.colBlock = none → exec
    (.outriderDelivery m) s = .next (((u.strays d.step m (List.range (if d.pair then 128 else 256)).length).showGroup m
    d.group).showTeam m)) ∧
  (∀ (m g : Nat) (y : Step) (s : State), (s.region (teamString m)).stopped = false → (s.group m g).st = 2 → s.groupBusy m g
    = false → (s.team m).runs = [] → s.step? (s.group m g).step = some y → (s.group m g).desc.outMx = 7 → (s.group m
    g).desc.topkK = 0 → Completes (exec (.groupCloseComplete m g) s) (fun t => (t.group m g).st = 0 ∧ t.mem = s.mem)) ∧
  (∀ (m g : Nat) (s : State), (s.team m).stopped = true ∨ (s.team m).quiesced = true → Completes (exec (.accAbandon m g) s)
    (fun t => (t.group m (g % 16)).st = 0)) ∧
  (∀ (m : Nat) (stop : Bool) (s : State), Completes (exec (.teamStop m stop) s) (fun t => t.fget (Reg.teamCtrlStop.team m)
    = (if stop then 1 else 0) ∧ (t.team m).stopped = (stop && ((s.team m).stopped || !((s.teamTiles m).any (fun k => (s.tile
    m k).vector.isSome)))))) ∧
  (∀ (m : Nat) (freeze : Bool) (s : State), Completes (exec (.teamCntFreeze m freeze) s) (fun t => t.fget
    (Reg.teamCtrlCntFreeze.team m) = if freeze then 1 else 0)) ∧
  (∀ (m plane : Nat) (s : State), s.fget (Reg.teamSwapMask.team m) = 1 → Completes (exec (.teamSwapGo m plane) s) (fun t =>
    (t.team m).swaps = (s.team m).swaps ++ [⟨false, s.now, 0, [(0, plane % 2)]⟩]))

/-- Plane writes, drains and the outrider’s checks complete as the spec gives them (R72, R75, R97, R99, R100, R102, R103, R104,
R105, R106, R280). A write to an open plane stores its bytes; a drain ends once no read is outstanding; a reloaded plane is
no longer held; samples come due, are forced, late and complete; each step of an arbitration leads to the next or to its
verdict; the self-test and a reference run take their effects. -/
def Obligations.PlanesAndOutriderComplete : Prop :=
  (∀ (m k plane off : Nat) (bytes : List Nat) (s : State), (s.tile m k).live ≠ plane % 2 ∨ (s.tile m k).held = some (plane
    % 2) → (s.tile m k).drain = false → (s.team m).mirrors k = [] → exec (.planeWrite m k plane off bytes) s = .next
    ((s.storePlane m k ⟨plane % 2, off, bytes.map (· % 256), unitTeam m⟩).showTeam m)) ∧
  (∀ (m k : Nat) (s : State), (s.tile m k).drain = true → (s.openPlanes m k).any (fun p => s.readsHeld m k p) = false →
    Completes (exec (.drainEnd m k) s) (fun t => (t.tile m k).drain = false)) ∧
  (∀ (m k plane : Nat) (s : State), (s.tile m k).reloadDone plane = true → Completes (exec (.heldPlaneReloaded m k plane)
    s) (fun t => (t.tile m k).held ≠ some plane ∧ plane ∉ (t.tile m k).marked)) ∧
  (∀ (m r : Nat) (s : State), r < 32 → Map.get 0 (s.team m).due r = 0 → Completes (exec (.sampleDue m r) s) (fun t =>
    Map.get 0 (t.team m).due r = 1)) ∧
  (∀ (m r : Nat) (s : State), r < 32 → Map.get 0 (s.team m).due r = 0 → Completes (exec (.outrSample m r) s) (fun t =>
    Map.get 0 (t.team m).due r = 2 ∧ t.fget (Reg.outrCtrlRole.team m) = r)) ∧
  (∀ (m r : Nat) (s : State), (s.team m).samples.any (fun e => e.1 == r) = true → Completes (exec (.forcedCheck m r) s)
    (fun t => (t.team m).forced.contains r = true ∧ t.fget (Reg.outrStatusForcedCheck.team m) = 1)) ∧
  (∀ (m r : Nat) (s : State), (s.team m).samples.any (fun e => e.1 == r) = false → Map.get 0 (s.team m).due r ≠ 0 →
    Completes (exec (.forcedCheck m r) s) (fun t => Map.get 0 (t.team m).due r = 3)) ∧
  (∀ (m r : Nat) (s : State), Completes (exec (.checkLate m r) s) (fun t => t.fget (Reg.outrErrCheckLate.team m) = 1 ∧
    t.mem = s.mem)) ∧
  (∀ (m r : Nat) (lanes : List (Nat × Nat × Int)) (q : Sample) (s : State), (s.region (teamString m)).stopped = false →
    (s.team m).samples.find? (fun e => e.1 == r) = some (r, q) → q.whole = true → Completes (exec (.sampleComplete m r
    lanes) s) (fun t => (t.team m).forced.contains r = false ∧ (t.team m).samples.find? (fun e => e.1 == r) = none)) ∧
  (∀ (m : Nat) (a : Arb) (s : State), (s.region (teamString m)).stopped = false → (s.team m).arb = some a → a.st = 1 →
    (((s.tile m a.sample.tile).badOf a.sample.plane).filter (fun e => (((a.sample.recs.map (fun r => r.pulse.rows.map
    (·.1))).flatten).eraseDups).any (fun r => rowBlock r e.1))) = [] → Completes (exec (.arbCodeCheckDone m) s) (fun t =>
    (t.team m).arb = some { a with st := 2 })) ∧
  (∀ (m d : Nat) (a : Arb) (s : State), (s.region (teamString m)).stopped = false → (s.team m).arb = some a → a.st = 2 →
    (s.idleSpares m).head? = some d → Completes (exec (.arbReferenceDone m true) s) (fun t => (t.team m).arb = some
    { a with st := 3, spare := some d })) ∧
  (∀ (m d : Nat) (a : Arb) (s : State), (s.team m).arb = some a → a.st = 3 → a.spare = some d → (s.tile m d).drain = false
    → Completes (exec (.arbSpareLoadDone m) s) (fun t => (t.team m).arb = some { a with st := 4 } ∧ (t.tile m d).live =
    a.sample.plane)) ∧
  (∀ (m d : Nat) (wrong : List (Nat × Int)) (a : Arb) (r : List TileRec × State) (s : State), (s.region (teamString
    m)).stopped = false → (s.team m).arb = some a → a.st = 4 → a.spare = some d → r = s.runSpare m d ⟨wrong.map (fun e =>
    (m, d, e.1, e.2)), []⟩ a.sample.recs → (r.2.team m).sampleFails d (gradeAll (r.1.map TileRec.graded) a.sample.sums) =
    false → exec (.arbSpareRunDone m wrong) s = .next ((r.2.verdict m 3).showTeam m)) ∧
  (∀ (m : Nat) (a : Arb) (s : State), (s.team m).arb = some a → a.st = 6 → Completes (exec (.arbNoSpareTimeout m) s) (fun t
    => (t.team m).arb = some { a with st := 5, next := 7 })) ∧
  (∀ (m : Nat) (pass : Bool) (s : State), (s.region (teamString m)).stopped = false → (s.team m).arb = none → Completes
    (exec (.outriderSelftestDone m pass) s) (fun t => t.fget (Reg.outrStatusSelftestDone.team m) = 1 ∧ t.fget
    (Reg.outrStatusSelftestPass.team m) = (if pass then 1 else 0) ∧ (t.team m).selftest = false)) ∧
  (∀ (m : Nat) (s : State), (s.team m).stopped = true ∨ (s.team m).quiesced = true → Completes (exec (.outrSelftest m) s)
    (fun t => (t.team m).selftest = true)) ∧
  (∀ (m w : Nat) (s : State), (s.team m).ref = none → bits w 21 16 < 34 → bits w 6 4 ≤ 4 → s.refRange m (s.fget
    (Reg.outrRefInLo.team m) * 64 + 2 ^ 32 * s.fget (Reg.outrRefInHi.team m)) 1024 = true → s.refRange m (s.fget
    (Reg.outrRefOutLo.team m) * 64 + 2 ^ 32 * s.fget (Reg.outrRefOutHi.team m)) (if w.testBit 7 then 3200 else 1600) = true
    → Completes (exec (.outrRefGo m w) s) (fun t => (t.team m).ref = some ⟨w, s.fget (Reg.outrRefInLo.team m) * 64 + 2 ^ 32
    * s.fget (Reg.outrRefInHi.team m), s.fget (Reg.outrRefOutLo.team m) * 64 + 2 ^ 32 * s.fget (Reg.outrRefOutHi.team m)⟩)) ∧
  (∀ (m : Nat) (f : RefRun) (s : State), (s.region (teamString m)).stopped = false → (s.team m).ref = some f → s.cleanAt
    [(f.input, 1024)] → s.codedBytes f.input 1024 = zeros 1024 → Completes (exec (.referenceRunDone m) s) (fun t => (t.team
    m).ref = none ∧ t.fget (Reg.outrRefCtrlDone.team m) = 1))

/-- Calibration, take-over and repair commands of a team complete with their effects (R114, R117, R120, R121, R123, R126, R128,
R129, R131, R132, R133, R134). In the state of the team that the command needs, the rotation visits and queues tiles, a gate
calibration and a fit are taken, a copy ends, a role moves, a slew step goes on, and the farrier’s commands remap, retire,
take back and record. -/
def Obligations.CalibrationCommandsComplete : Prop :=
  (∀ (m : Nat) (s : State), m < 768 → Completes (exec (.calrefQualified) s) (fun t => t.clocks.calref = true ∧ t.fget
    (Reg.calStatusCalrefOk.team m) = 1)) ∧
  (∀ (m : Nat) (s : State), m < 768 → Completes (exec (.calrefLost) s) (fun t => t.clocks.calref = false ∧ t.fget
    (Reg.calErrCalrefLost.team m) = 1)) ∧
  (∀ (m k : Nat) (s : State), s.flag (Reg.calCtrlHold.team m) = false → s.calFree m = true → s.coreHalted 5 = false →
    (s.team m).calQueue = [] → k = (s.team m).nextTile (s.fget (Reg.calRotNext.team m)) → s.canCal m k = true → Completes
    (exec (.rotationVisit m) s) (fun t => (t.team m).cal.tile = k ∧ (t.team m).cal.step ≠ 0 ∧ t.fget (Reg.calRotNext.team m)
    = (s.team m).nextTile (k + 1) % Reg.calRotNext.card)) ∧
  (∀ (m : Nat) (s : State), Completes (exec (.calLate m) s) (fun t => t.fget (Reg.calErrLate.team m) = 1)) ∧
  (∀ (m k : Nat) (s : State), k < 34 → (s.team m).retired.contains k = false → s.calFree m = false → Completes (exec
    (.calRequest m k) s) (fun t => k ∈ (t.team m).calQueue ∧ t.fget (Reg.calCtrlTile.team m) = k ∧ (t.team m).cal = (s.team
    m).cal)) ∧
  (∀ (m : Nat) (s : State), (s.team m).cal.step = 2 → (s.team m).cal.abandoned = false → (s.team m).cal.role = none →
    Completes (exec (.calAbandon m) s) (fun t => (t.team m).cal = { step := 0, mode := (s.team m).cal.mode } ∧ t.fget
    (Reg.calRotNext.team m) = (s.team m).cal.tile % Reg.calRotNext.card)) ∧
  (∀ (m : Nat) (hold : Bool) (s : State), Completes (exec (.calHold m hold) s) (fun t => t.fget (Reg.calCtrlHold.team m) =
    if hold then 1 else 0)) ∧
  (∀ (m : Nat) (o : Takeover) (s : State), (s.team m).takeover = some o → o.done = false → (s.tile m o.dst).drain = false →
    Completes (exec (.takeoverCopyDone m) s) (fun t => (t.team m).takeover = some { o with done := true } ∧ (t.tile m
    o.src).groomed = lapBlocks)) ∧
  (∀ (m : Nat) (o : Takeover) (s : State), (s.team m).takeover = some o → o.done = true → s.atBoundary m o.src = true →
    exec (.takeoverMove m) s = .next (((((((s.moveRole m o).afterMove m o).nextMove m).nextRetire m).nextCal
    m).updateHealth).showTeam m)) ∧
  (∀ (m : Nat) (delay win : Int) (w : Int × State) (s : State), (s.team m).cal.step = 2 → (s.team m).cal.abandoned = false
    → (s.team m).cal.overwritten = true → w = s.setWin m (s.team m).cal.tile win → exec (.calGateDone m delay win) s = .next
    (((w.2.setCal m
    { (w.2.team m).cal with step := 3, trims := some (delay, w.1), tCal := w.2.tempNow m (s.team m).cal.tile }).retrim m
    (s.team m).cal.tile).showTeam m)) ∧
  (∀ (m resid : Nat) (fits : List (Nat × Int × Int)) (delay : Int) (noisy stuck : List Nat) (d : Int × Int) (c : Cal) (r :
    Nat) (s : State), c = (s.team m).cal → c.fitReady = true → c.role = some r → (s.team m).retired.contains c.tile = false
    → s.dueRemaps m c.tile ((s.team m).fitted c fits) noisy stuck = [] → c.trims = some d ∨ (c.trims = none ∧ s.medianTrims
    m c.tile delay = (d, s)) → (s.team m).takeover = none → (s.team m).calQueue = [] → Completes (exec (.calFitDone m fits
    delay resid noisy stuck) s) (fun t => (t.team m).cal.step = 4 ∧ (t.team m).cal.result = some (s.withTemp m c.tile
    (fittedSet (s.tile m c.tile).cal.active ((s.team m).fitted c fits) d.1 d.2) (if c.trims.isSome then c.tCal else
    s.tempNow m c.tile)) ∧ (t.tile m c.tile).cal.resid = min 255 resid ∧ ∃ o, (t.team m).takeover = some o ∧ o.dst = c.tile)) ∧
  (∀ (m : Nat) (s : State), (s.team m).cal.step = 3 → (s.team m).cal.mode = 1 → (s.team m).cal.abandoned = false → (s.team
    m).cal.role ≠ none → 128 ≤ (s.team m).cal.shadowed → exec (.statsShadowEnd m) s = .next ((s.setCal m
    { (s.team m).cal with ended := true }).showTeam m)) ∧
  (∀ (m : Nat) (s : State), (s.team m).cal.step = 3 → (s.team m).cal.mode = 1 → (s.team m).cal.abandoned = false → (s.team
    m).cal.role ≠ none → (s.team m).cal.shadowed < 128 → (s.team m).takeover = none → Completes (exec (.statsShadowEnd m) s)
    (fun t => t.fget (Reg.calErrNoData.team m) = 1 ∧ (t.team m).cal.abandoned = true ∧ (t.team m).cal.step = 4)) ∧
  (∀ (m k n : Nat) (s : State), (s.tile m k).cal.slew = some n → Completes (exec (.slewStep m k) s) (fun t => (t.tile m
    k).cal.slew = (if n + 1 = 16 then none else some (n + 1)) ∧ (t.tile m k).cal.active = (if n + 1 = 16 then (s.tile m
    k).cal.target else slewSet (n + 1) (s.tile m k).cal.previous (s.tile m k).cal.target))) ∧
  (∀ (m k : Nat) (s : State), s.coreHalted 5 = false → s.nvOk = true → ¬ (trimAt (s.tile m k).cal.active.delay (s.tco m k)
    (s.tile m k).cal.active.tCal 105 < -1000) → Completes (exec (.dailyTrimRecord m k) s) (fun t => t.nv.trims = Map.set (0,
    0) s.nv.trims (tileKey m k) (trimAt (s.tile m k).cal.active.delay (s.tco m k) (s.tile m k).cal.active.tCal 25, trimAt
    (s.tile m k).cal.active.win (s.tco m k) (s.tile m k).cal.active.tCal 25))) ∧
  (∀ (m k : Nat) (s : State), s.coreHalted 5 = false → (s.team m).pendingRetire = some k → s.idleSpares m ≠ [] → (s.team
    m).takeover = none → exec (.pendingRetireComplete m) s = .next ((((s.setTeam m
    { s.team m with pendingRetire := none }).retire m k frTrimLimit 512).recordFarrier m).showTeam m)) ∧
  (∀ (m k col : Nat) (s : State), k < 34 → col < 256 → (s.team m).retired.contains k = false → (s.team m).roleOf k = none ∨
    (s.team m).inPlace.contains k = true → s.coreHalted 5 = false → exec (.farrRemap m k col) s = .next (((s.farrFields m 1
    k col).remap m k col frCommand).showTeam m)) ∧
  (∀ (m k col r : Nat) (s : State), k < 34 → col < 256 → (s.team m).retired.contains k = false → (s.team m).roleOf k = some
    r → (s.team m).inPlace.contains k = false → s.calFree m = false → Completes (exec (.farrRemap m k col) s) (fun t => (k,
    col) ∈ (t.team m).asked ∧ k ∈ (t.team m).calQueue)) ∧
  (∀ (m k : Nat) (s : State), k < 34 → (s.team m).retired.contains k = false → exec (.farrRetire m k) s = .next
    (((s.farrFields m 2 k (s.fget (Reg.farrCtrlColumn.team m))).retire m k frCommand 512).showTeam m)) ∧
  (∀ (m k : Nat) (s : State), s.clocks.calref = true → (s.team m).retired.contains k = true → s.calFree m = false →
    Completes (exec (.farrReadmit m k) s) (fun t => k ∈ (t.team m).calQueue ∧ k ∈ (t.team m).retired)) ∧
  (∀ (m : Nat) (s : State), (s.team m).nvWaits = true → s.nvOk = true → Completes (exec (.farrNvRetry m false) s) (fun t =>
    t.nv.farrier = Map.set {} s.nv.farrier m (s.farrRec m) ∧ (t.team m).nvWaits = false)) ∧
  (∀ (m k : Nat) (s : State), (s.tile m k).groomed < lapBlocks → s.lapFrom m + secTicks s.groomBound * 9 / 10 ≤ s.now →
    Completes (exec (.groomNearBound m k) s) (fun t => k ∈ (t.team m).calQueue)) ∧
  (∀ (m : Nat) (s : State), Completes (exec (.groomLapLate m) s) (fun t => t.fget (Reg.groomErrLapLate.team m) = 1 ∧ t.mem
    = s.mem))

/-- In-field tests of tiles and teams fall due, are deferred and end with their verdicts (R462, R463, R464). A due test of a
tile or team is requested and the next tile noted; a request past its bound is forced; a test that ends is counted, and a
pass is noted with its time, while a failure retires the tile or takes the team out of service. -/
def Obligations.FieldTestsComplete : Prop :=
  (∀ (m k : Nat) (s : State), s.ready = true → k < 34 → (s.team m).retired.contains k = false → Completes (exec
    (.tileIftDue m k) s) (fun t => Map.get 0 t.safety.iftNext m = (s.team m).nextTile (k + 1))) ∧
  (∀ (m k : Nat) (s : State), s.tileTest m k = 1 → exec (.iftDeferExpire m (some k)) s = .next (((s.setTileTest m k
    2).tryTests m).showTeam m)) ∧
  (∀ (m : Nat) (s : State), s.teamTest m = 1 → exec (.iftDeferExpire m none) s = .next (((s.setTeamTest m 2).tryTests
    m).showTeam m)) ∧
  (∀ (m k : Nat) (s : State), s.tileTest m k = 3 → (s.team m).roleOf k = none → Completes (exec (.tileIftComplete m k 0) s)
    (fun t => Map.get 0 t.safety.tilePass (m * 64 + k) = s.now ∧ t.tileTest m k = 0 ∧ t.fget Reg.safeIftDone = min
    (Reg.safeIftDone.card - 1) (s.fget Reg.safeIftDone + 1))) ∧
  (∀ (m : Nat) (s : State), s.ready = true → (s.team m).outOfService = false → s.teamTest m = 0 → exec (.teamTestDue m) s =
    .next (((s.setTeamTest m 1).tryTests m).showTeam m)) ∧
  (∀ (m : Nat) (s : State), s.teamTest m = 3 → Completes (exec (.teamTestComplete m 0) s) (fun t => Map.get 0
    t.safety.teamPass m = s.now ∧ t.teamTest m = 0 ∧ t.fget Reg.safeIftDone = min (Reg.safeIftDone.card - 1) (s.fget
    Reg.safeIftDone + 1))) ∧
  (∀ (m fail : Nat) (s : State), s.teamTest m = 3 → Completes (exec (.teamTestComplete m (fail + 1)) s) (fun t =>
    t.teamTest m = 0 ∧ (t.team m).outOfService = true))

/-- Thermal, bridle, boost, rail and setpoint events complete with their effects (R367, R383, R385, R390, R395, R397, R398,
R401, R403, R408, R409). A sample of a working sensor is taken; an over-temperature trip goes on to rails off and THERMTRIP;
the bridle’s tick, measurement and cap, the boost switches, the monitors’ stops, the setpoint walk and the ageing plan take
their effects. -/
def Obligations.ThermalAndPowerComplete : Prop :=
  (∀ (n : Nat) (temp : Int) (s : State), n < 74 → (s.sensor n).failed = false → -640 ≤ temp ∧ temp ≤ 2400 → 64 ≤ n ∨
    (s.sensor (2 * (n / 2) + (1 - n % 2))).good = false ∨ (temp - (s.sensor (2 * (n / 2) + (1 - n % 2))).temp).natAbs ≤ 240
    → Completes (exec (.thermalSample n temp) s) (fun t => (t.sensor n).temp = temp ∧ (t.sensor n).atTrip = decide
    (s.tripPoint (sensorGroup n) ≤ temp))) ∧
  (∀ (n : Nat) (temp : Int) (s : State), n < 74 → (s.sensor n).failed = false → temp < -640 ∨ 2400 < temp → Completes (exec
    (.thermalSample n temp) s) (fun t => (t.sensor n).failed = true ∧ t.fget Reg.thrmErrSensorFail = 1)) ∧
  (∀ (k : Nat) (s : State), s.thermal.trip = 1 → k ≠ 16 → Completes (exec (.tripRailsOff) s) (fun t => t.thermal.trip = 2 ∧
    t.power.turning = none ∧ (t.rail k).on = false ∧ (t.rail 16) = (s.rail 16))) ∧
  (∀ (k : Nat) (s : State), s.thermal.trip = 2 → Completes (exec (.tripFinal) s) (fun t => t.thermal.trip = 3 ∧
    t.pins.thermtrip = true ∧ (t.rail k).on = false)) ∧
  (∀ (m : Nat) (counts : List (Nat × Nat)) (s : State), s.coreHalted 2 = false → m < 33 → m < counts.length → s.settled m =
    true → Map.get 0 s.thermal.measured m ≠ s.hourNow → Completes (exec (.ageingMeasure counts) s) (fun t => (Map.get []
    t.thermal.hourly m).dropLast = Map.get [] s.thermal.hourly m ∧ (Map.get [] t.thermal.hourly m).length = (Map.get []
    s.thermal.hourly m).length + 1 ∧ ((counts.getD m (0, 0)).2 ≠ 0 → (Map.get [] t.thermal.hourly m).getLast? = some
    (slowdown (Map.get (Config.ageRatio m) s.nv.ageRatios m) (counts.getD m (0, 0)).1 (counts.getD m (0, 0)).2)) ∧ t.fget
    (Reg.thrmAgeSlowdown.sel m) = ofSigned 16 ((Map.get [] t.thermal.hourly m).getLastD 0) % Reg.thrmAgeSlowdown.card)) ∧
  (∀ (m : Nat) (s : State), s.coreHalted 2 = false → m < 33 → Completes (exec (.ageingReplan) s) (fun t => Map.get 0
    t.thermal.plan m = (median (Map.get [] s.thermal.hourly m)).elim (Map.get 0 s.thermal.plan m) (max (Map.get 0
    s.thermal.plan m)) ∧ t.thermal.hourly = [])) ∧
  (∀ (lanes sram dram : Nat) (v w : Rat × Rat × Rat) (s : State), s.coreHalted 2 = false → v = s.rawPower ⟨s.power.beats,
    s.power.rows, s.power.units, lanes, sram, dram⟩ → w = s.nominalPower ⟨s.power.beats, s.power.rows, s.power.units, lanes,
    sram, dram⟩ → Completes (exec (.bridleTick lanes sram dram) s) (fun t => t.power.pEst = (if s.openGait then s.power.g *
    (v.1 + v.2.1 + v.2.2) + s.power.o else w.1 + w.2.1 + w.2.2) ∧ t.power.ticks = s.power.ticks ++ [v.1 + v.2.1 + v.2.2] ∧
    t.power.beats = 0)) ∧
  (∀ (r : Nat) (s : State), Map.get 0 s.power.boostNext r ≠ 0 → Completes (exec (.boostSwitch r) s) (fun t => (t.region
    r).boost = (Map.get 0 s.power.boostNext r == 1) ∧ Map.get 0 t.power.boostNext r = 0 ∧ t.mem = s.mem)) ∧
  (∀ (s : State), s.coreHalted 2 = false → Completes (exec (.bridleMeasure) s) (fun t => t.fget Reg.brdlStatusMeasValid =
    (if (List.range 19).all s.railMeasured && !s.adc.refBad then 1 else 0) ∧ t.power.ticks = [] ∧ t.power.energy =
    s.power.energy + s.measured * (s.fget Reg.brdlStatusMeasMs : Nat))) ∧
  (∀ (cap : Nat) (s : State), Completes (exec (.brdlCapWrite cap) s) (fun t => t.fget Reg.brdlCapCap = clampNat 600
    s.capMax (cap % 2048) % Reg.brdlCapCap.card ∧ t.mem = s.mem)) ∧
  (∀ (warns : Nat) (failed : Bool) (s : State), Completes (exec (.pmbusAlert [] warns failed) s) (fun t => t.fget
    Reg.brdlPmbusWarn = min (Reg.brdlPmbusWarn.card - 1) (s.fget Reg.brdlPmbusWarn + warns) ∧ (failed = true → t.fget
    Reg.brdlErrPmbus = 1))) ∧
  (∀ (k w : Nat) (u v : State) (s : State), v = (s.readStatus.bumpBy Reg.brdlPmbusWarn 0).raise Reg.brdlErrRailFault →
    stReady ≤ s.stage → u = v.railStops k → exec (.pmbusAlert [(k, w)] 0 false) s = .next ((u.danger 2 3 0x54 unitPackage
    (powerContext k w [u.railAddress k]) (u.regionScope (railRegions k)) (u.now - usTicks 10)).powerEvent)) ∧
  (∀ (k mv : Nat) (over_ : Bool) (u : State) (s : State), k ≤ 16 → k = 10 ∨ (s.rail k).on = true → s.crosses k over_ mv =
    true → u = s.railStops k → exec (.voltMonitorTrip k over_ mv) s = .next ((u.danger 2 3 0x53 unitPackage (powerContext k
    mv [u.railSet k / 1000, if over_ then 1 else 0]) (u.regionScope (railRegions k)) (u.now - usTicks 10)).powerEvent)) ∧
  (∀ (k : Nat) (failed : List Nat) (s : State), k < 17 → (s.rail k).on = true → (s.rail k).setpoint ≠ (s.rail k).target → k
    ∉ failed → Completes (exec (.setpointStep failed) s) (fun t => (t.rail k).setpoint = stepTowards (s.rail k).setpoint
    (s.rail k).target ∧ (t.rail k).target = (s.rail k).target))

/-- Conversions, open-wire tests and urgent conversions complete with their effects (R412, R413, R414). A conversion of the
sequence adds to its channel’s sum until the visit is complete, which gives its value; an urgent conversion answers the
oldest request; an open-wire test sets OPEN by the two limits; an urgent request is queued while fewer than two wait. -/
def Obligations.AdcCommandsComplete : Prop :=
  (∀ (c code : Nat) (s : State), c ∈ s.sequence → s.nextChan = some c → s.adc.urgentRuns = false → (s.chan c).count ≠ 0 →
    (s.chan c).count + 1 < 2 ^ (s.chan c).curAvg → Completes (exec (.adcConversionDone c code false) s) (fun t => (t.chan
    c).sum = (s.chan c).sum + code % 16384 ∧ (t.chan c).count = (s.chan c).count + 1 ∧ t.adc.sweep = s.adc.sweep + 1)) ∧
  (∀ (c code : Nat) (s : State), c ∈ s.sequence → s.nextChan = some c → s.adc.urgentRuns = false → (s.chan c).count ≠ 0 →
    (s.chan c).count + 1 = 2 ^ (s.chan c).curAvg → s.sequence.getLast? ≠ some c → Completes (exec (.adcConversionDone c code
    false) s) (fun t => (t.chan c).sum = 0 ∧ (t.chan c).count = 0 ∧ (t.chan c).fresh = true ∧ t.fget
    (Reg.adcResultValue.chan c) = ((s.chan c).sum + code % 16384) / 2 ^ (s.chan c).curShift % 2 ^ 22 %
    Reg.adcResultValue.card)) ∧
  (∀ (c code : Nat) (e : Nat × Bool) (rest : List (Nat × Bool)) (s : State), s.adc.urgent = e :: rest → s.adc.urgentRuns =
    true → e.2 = false → Completes (exec (.adcConversionDone c code true) s) (fun t => t.fget Reg.adcUrgentResultCode = code
    % 16384 % Reg.adcUrgentResultCode.card ∧ t.fget Reg.adcUrgentResultDone = if rest.any (fun e => !e.2) then 0 else 1)) ∧
  (∀ (c up down : Nat) (s : State), s.flag (Reg.adcCfgOpenTest.chan c) = true → Completes (exec (.adcOpenTest c up down) s)
    (fun t => t.fget (Reg.adcResultOpen.chan c) = if (115 / 100 : Rat) ≤ chanVolts c up ∧ chanVolts c down ≤ (5 / 100 : Rat)
    then 1 else 0)) ∧
  (∀ (c : Nat) (s : State), s.adc.urgent.length < 2 → Completes (exec (.adcUrgentGo c) s) (fun t => t.adc.urgent =
    s.adc.urgent ++ [(c % 64, false)] ∧ t.fget Reg.adcUrgentChannel = c % Reg.adcUrgentChannel.card ∧ t.fget
    Reg.adcUrgentResultDone = 0))

/-- Clock and waymark commands and events complete with their effects (R331, R366, R368, R370, R372, R373, R374, R375, R376,
R377). A droop stretches a running region and the stretch ends; a clock-monitor failure stops every region; a restart runs a
region that nothing holds; the waymark is set once while it may be, and PPS, PTP, torus and discipline updates steer it. -/
def Obligations.ClockAndTimeCommandsComplete : Prop :=
  (∀ (r mv : Nat) (s : State), (s.region r).stopped = false → (s.region r).stretched = false → s.droops r mv = true →
    Completes (exec (.droopTrip r mv) s) (fun t => (t.region r).stretched = true ∧ (t.region r).stopped = false ∧ t.fget
    (Reg.clkStretches.sel r) = min (Reg.clkStretches.card - 1) (s.fget (Reg.clkStretches.sel r) + 1))) ∧
  (∀ (r : Nat) (s : State), Completes (exec (.stretchEnd r) s) (fun t => (t.region r).stretched = false ∧ (t.region
    r).stopped = (s.region r).stopped ∧ t.mem = s.mem)) ∧
  (∀ (pll : Bool) (r : Nat) (s : State), s.clocks.monSeen.contains pll = false → r < 33 → Completes (exec
    (.clockMonitorFail pll) s) (fun t => (pll = true → t.fget Reg.clkStatusPllLock = 0) ∧ t.clocks.monFault = true ∧
    (t.region r).stopped = true ∧ t.fget Reg.clkStatusMonFault = 1 ∧ t.fget Reg.clkStatusBackupOsc = 1 ∧ t.fget
    Reg.wayStatusState = 3)) ∧
  (∀ (r : Nat) (s : State), s.heldStopped r = false → Completes (exec (.regionRestart r) s) (fun t => (t.region r).stopped
    = false)) ∧
  (∀ (s : State), s.stage < stReady → s.clocks.way.setUsed = false → Completes (exec (.waySet) s) (fun t => t.now =
    s.waySetValue % 2 ^ 64 ∧ t.clocks.way.setUsed = true ∧ t.mem = s.mem)) ∧
  (∀ (falling : Bool) (s : State), falling = (s.clockCfg 8 1 0 == 1) → Completes (exec (.ppsEdge falling) s) (fun t =>
    t.fget64 Reg.wayPpsLo Reg.wayPpsHi = s.now % 2 ^ 64 ∧ t.clocks.way.ppsOffset = ppsOffsetOf s.now + s.clocks.way.added)) ∧
  (∀ (domain seq t1 frac out : Nat) (corr : Int) (s : State), domain = s.clockCfg 5 1 0 → s.safety.portUp = true →
    s.coreHalted 6 = false → Completes (exec (.ptpSync domain (.sync seq false t1 corr) frac out) s) (fun t =>
    t.clocks.way.ptp.asked = some (s.clocks.way.ptp.next, s.macTime frac - ptpEighths t1 corr, s.macTime out) ∧ t.out =
    s.out ++ [.delayReq s.macAddr s.vlanTag domain s.clocks.way.ptp.next])) ∧
  (∀ (domain seq t4 frac out : Nat) (corr d t3 : Int) (s : State), domain = s.clockCfg 5 1 0 → s.safety.portUp = true →
    s.coreHalted 6 = false → s.clocks.way.ptp.asked = some (seq, d, t3) → Completes (exec (.ptpSync domain (.delayResp seq
    t4 corr) frac out) s) (fun t => t.clocks.way.ptpValid = true ∧ t.clocks.way.ptpOffset = (ptpEighths t4 (-corr) - t3 - d)
    / 2 + s.clocks.way.added ∧ t.clocks.way.ptp.asked = none)) ∧
  (∀ (src : Nat) (s : State), Completes (exec (.timeSourceInvalid src) s) (fun t => (src = 1 → t.clocks.way.ppsValid =
    false ∧ t.clocks.way.ppsEdges = 0) ∧ (src = 2 → t.clocks.way.ptpValid = false) ∧ t.now = s.now ∧ t.mem = s.mem)) ∧
  (∀ (s : State), s.reSource.isRoot = true → s.reSource.fget Reg.wayStatusSource = 3 → s.reSource.clocks.monFault = false →
    exec (.timeRootDisciplineUpdate) s = .next (s.reSource.wayFiltered 0 0)) ∧
  (∀ (p t1 t2 t3 f1 f2 f3 state frac : Nat) (h : CtrlHdr) (v d : Int) (s : State), s.actsOn p h → v = wayOfs (8 * t1 + f1)
    (8 * t2 + f2) (8 * t3 + f3) (8 * (s.heard p h).now + frac) → d = wayDelay (8 * t1 + f1) (8 * t2 + f2) (8 * t3 + f3) (8 *
    (s.heard p h).now + frac) → exec (.wayReply p true h t1 t2 t3 f1 f2 f3 state frac) s = .next (((((s.heard p h).fset
    (Reg.linkWayOfs.port p) (ofSigned 32 v)).fset (Reg.linkWayDelay.port p) (ofSigned 32 d)).heardWay p state).fromUpstream
    p v)) ∧
  (∀ (p t1 f1 frac : Nat) (h : CtrlHdr) (s : State), s.actsOn p h → exec (.waySync p true h t1 f1 frac) s = .next ((s.heard
    p h).sendPeer p 0x09 (leBytes 8 t1 ++ leBytes 8 (s.heard p h).now ++ leBytes 8 (s.heard p h).now ++ [f1, frac % 8, frac
    % 8, (s.heard p h).fget Reg.wayStatusState] ++ zeros 4))) ∧
  (∀ (p frac : Nat) (s : State), s.linkUp p = true → exec (.waySyncSend p frac) s = .next (s.sendPeer p 0x08 (leBytes 8
    s.now ++ [frac % 8] ++ zeros 7)))

/-- Partition commands, resets of functions and the tollgate complete with their effects (R349, R350, R351, R354, R355).
QUIESCE, SCRUB and RETURN of PART_CTRL, a reset of a virtual function, of the physical function or of the link, the end of a
quiesce and of a scrub, and a tollgate refill take their effects on the partition’s state. -/
def Obligations.PartitionCommandsComplete : Prop :=
  (∀ (p : Nat) (s : State), p = s.fget Reg.partSelPart → (s.partGet p).st = .inService → (s.partGet p).returnWaits = false
    → Completes (exec (.partQuiesce) s) (fun t => (t.partGet p).st = .quiescing ∧ (t.partGet p).cause = 2)) ∧
  (∀ (p : Nat) (s : State), p = s.fget Reg.partSelPart → (s.partGet p).st = .quiesced → s.paddock = false → Completes (exec
    (.partScrub) s) (fun t => (t.partGet p).st = .scrubbing ∧ p ∈ t.scrubs)) ∧
  (∀ (p : Nat) (s : State), p = s.fget Reg.partSelPart → s.ready = true → (s.fset Reg.partCtrlCmd 3).torHeld p = false →
    (s.partGet p).st = .quiesced → (s.fset Reg.partCtrlCmd 3).loadsPart p = false → exec (.partReturn) s = .next ((s.fset
    Reg.partCtrlCmd 3).returnPart p)) ∧
  (∀ (k p : Nat) (s : State), s.vfPart k = some p → (s.partGet p).st = .inService → (s.partGet p).returnWaits = false →
    Completes (exec (.vfFlr k) s) (fun t => (t.partGet p).st = .quiescing ∧ (t.partGet p).flr = true ∧ (t.partGet p).cause =
    3)) ∧
  (∀ (p : Nat) (s : State), p < 32 → (s.partGet p).st = .inService → (s.partGet p).returnWaits = false → Completes (exec
    (.pfFlr) s) (fun t => t.pci.vfEnable = false ∧ (t.partGet p).st = .quiescing ∧ (t.partGet p).cause = 4 ∧ (t.partGet
    p).flr = true)) ∧
  (∀ (p : Nat) (s : State), p < 32 → (s.partGet p).st = .inService → (s.partGet p).returnWaits = false → Completes (exec
    (.hotReset) s) (fun t => t.pci.vfEnable = false ∧ (t.partGet p).st = .quiescing ∧ (t.partGet p).cause = 5 ∧ (t.partGet
    p).flr = true)) ∧
  (∀ (p moved : Nat) (bytes : List Nat) (s : State), (s.partGet p).st = .quiescing → s.loadSt (p + 1) = ldIdle → Completes
    (exec (.quiesceComplete p moved bytes) s) (fun t => (t.partGet p).st = (if (s.partGet p).flr && !s.paddock then
    .scrubbing else .quiesced) ∧ t.mem = s.mem)) ∧
  (∀ (p : Nat) (rest : List Nat) (s : State), s.scrubs = p :: rest → s.sweepAt 3 = none → (s.partGet p).returnWaits = false
    → Completes (exec (.scrubComplete) s) (fun t => t.scrubs = rest ∧ (t.partGet p).st = .quiesced ∧ (t.partGet p).scrubbed
    = true ∧ (t.partGet p).flr = false)) ∧
  (∀ (asks : List (Nat × Nat × Nat × Nat)) (r m : Nat) (s : State), r < 10 → m < 33 → Completes (exec (.tollgateRefill
    asks) s) (fun t => t.fget (Reg.tollGrantCredits.sel (tollSel m r)) = s.tollCredits r m % Reg.tollGrantCredits.card))

/-- Loads of an image through VOLZ complete with their effects (R37, R41, R42, R44, R46, R47). Each VOLZ command, in the state
that admits it, takes its effect: FULL and PARTIAL start a pull, ABORT ends a load with its verdict, a complete pull goes on
to the check, a passed check to APPLY, and a commit takes the new configuration. -/
def Obligations.VolzCommandsComplete : Prop :=
  (∀ (s : State), s.imageLoad = true → s.bootSrc = 1 → s.volzIdle = true → s.fget Reg.volzLen ≤ 0x10000000 → exec
    (.volzFull) s = .next (s.tryMark.startPull .host)) ∧
  (∀ (part : Nat) (s : State), (s.fset Reg.volzCtrlPart (part % 32)).partialCheck (part % 32) = 0 → Completes (exec
    (.volzPartial part) s) (fun t => t.volz.kind = some (.part (part % 32)) ∧ t.fget Reg.volzStatusState = vzPull ∧ t.fget
    Reg.volzStatusLoadPart = part % 32)) ∧
  (∀ (s : State), s.volzIdle = false → exec (.volzAbort) s = .next (s.volzFail (vrAborted, noSection))) ∧
  (∀ (bytes : List Nat) (s : State), s.fget Reg.volzStatusState = vzPull → s.volz.kind ≠ some .host → s.pci.lost = false →
    bytes.length ≤ s.volz.len → Completes (exec (.volzPullComplete false bytes) s) (fun t => t.fget Reg.volzStatusState =
    vzVerify ∧ t.volz.incoming = padTo s.volz.len (bytes.map (· % 256)))) ∧
  (∀ (s : State), s.fget Reg.volzStatusState = vzVerify → exec (.volzVerifyComplete) s = .next (if s.volzVerdict.1 = vrDone
    then ({ s with volz := { s.volz with parsed := imageSections s.volz.incoming } } : State).fset Reg.volzStatusState
    vzApply else s.volzFail s.volzVerdict)) ∧
  (∀ (p : Nat) (u : State) (s : State), s.volz.kind = some (.part p) → s.fget Reg.volzStatusState = vzApply → u =
    (s.runSections (replaceSections s.volz.running s.volz.parsed)).relayout p → exec (.volzCommit) s = .next
    (((((u.dropLoading p).copyPrograms p).each (List.range 6) State.sendHello).volzDone).resumeReturn p))

/-- Load contexts and relays complete with their effects (R262, R264, R265, R268, R269, R317, R330). A GO of an idle context
fetches its first descriptor; an accepted descriptor moves, a complete move of host bytes ends the descriptor or waits for
the members of its relay; ABORT and the time limits end what they limit; relay messages open, fill, end and acknowledge a
relay, and DATA packets reach their session or go on. -/
def Obligations.LoadAndRelayCommandsComplete : Prop :=
  (∀ (c irqVec a : Nat) (s : State), s.loadSt c = ldIdle → a = s.fget (Reg.loadHeadLo.ctx c) * 64 + s.fget
    (Reg.loadHeadHi.ctx c) * 2 ^ 32 → Completes (exec (.loadGo c irqVec) s) (fun t => t.loadSt c = ldFetch ∧ (t.load c).cur
    = a ∧ t.fget (Reg.loadCtrlIrqVec.ctx c) = irqVec % Reg.loadCtrlIrqVec.card)) ∧
  (∀ (c moved : Nat) (bytes : List Nat) (s : State), s.loadSt c = ldFetch → exec (.loadAbort c moved bytes) s = .next
    (s.loadEnd c ldAborted)) ∧
  (∀ (c : Nat) (bytes d : List Nat) (u : State) (s : State), s.loadSt c = ldFetch → s.pci.lost = false → d = padTo 64
    (bytes.map (· % 256)) → u = s.setLoad c { s.load c with desc := d, acks := [] } → u.loadCheck c d = 0 → loadRelay d =
    false → exec (.loadDescArrive c false bytes) s = .next ((u.setLoad c
    { u.load c with plane := if loadKind d = 0 then none else some (planeTarget (loadDst d)), first := none }).setLoadSt c
    ldMove)) ∧
  (∀ (c : Nat) (bytes d : List Nat) (r : List Nat × Bool × State) (s : State), s.loadSt c = ldMove → s.firstOpen c = true →
    d = (s.load c).desc → s.pci.lost = false ∨ loadKind d = 2 → r = s.loadBytes c d (padTo (loadLen d) bytes) (loadLen d) →
    r.2.1 = false → loadRelay d = false → (loadKind d == 0 && (r.2.2.loadMove c d r.1).anyRetired (dramBase + loadDst d)
    (loadLen d)) = false → exec (.loadMoveComplete c false bytes) s = .next ((r.2.2.loadMove c d r.1).loadEnd c ldDone)) ∧
  (∀ (p seq hopsLeft session kind len dst c : Nat) (h : CtrlHdr) (r : RelayRx) (u v : State) (s : State), s.actsOn p h →
    (s.heard p h).quarantined = false → c = tagCtx h.part → c ≤ 32 → ((s.heard p h).load c).ends.find? (fun e => e.1 ==
    h.srcPos && e.2.1 == seq) = none → r = ⟨seq, h.srcPos, session, hopsLeft - 1, kind, dst, len, 0, none, false, (s.heard p
    h).relayRing p h.srcPos⟩ → u = (s.heard p h).openSession h session 1 → v = (u.setLoad c
    { u.load c with rx := (u.load c).rx.filter (fun q => !(q.origin == r.origin && q.session == r.session)) ++ [r], ends := (u.load c).ends.filter (fun e => !(e.1 == h.srcPos && e.2.1 == seq)) }).showRx
    c r rxReceiving → exec (.relayStart p true h seq hopsLeft session kind len dst) s = .next (if r.hops = 0 then v else
    v.relayOn r.ring h 0x18 (startBody seq r.hops session kind len dst))) ∧
  (∀ (p seq chunks c : Nat) (h : CtrlHdr) (r : RelayRx) (u : State) (s : State), s.actsOn p h → (s.heard p h).quarantined =
    false → c = tagCtx h.part → ((s.heard p h).load c).rx? h.srcPos (fun r => r.seq == seq) = some r → u = (if r.hops = 0
    then s.heard p h else (s.heard p h).relayOn r.ring h 0x19 (endBody seq chunks)) → exec (.relayEnd p true h seq chunks) s
    = .next ((u.setRx c { r with total := some chunks }).rxFinish c { r with total := some chunks })) ∧
  (∀ (p seq chunks c : Nat) (h : CtrlHdr) (x : LoadCtx) (u : State) (s : State), s.actsOn p h → (s.heard p h).quarantined =
    false → c = tagCtx h.part → x = (s.heard p h).load c → (s.heard p h).loadSt c = ldWaitAck → loadRelay x.desc = true →
    x.relaySeq = seq → x.acks.contains h.srcPos = false → u = (s.heard p h).setLoad c
    { x with acks := x.acks ++ [h.srcPos] } → u.loadSt c = ldWaitAck → exec (.relayAck p true h seq chunks) s = .next (if
    loadHops x.desc ≤ x.acks.length + 1 then u.loadEnd c ldDone else u)) ∧
  (∀ (p src session off : Nat) (bytes : List Nat) (late : Bool) (x : Session) (s : State), s.linkUp p = true → s.hubStopped
    = false → s.quarantined = false → s.session? src session = some x → s.isRevoked x.src x.unit x.inc = false → s.sessionOn
    p x = true → exec (.relayChunkReceive p src session off bytes late) s = .next (s.relayChunk p src session off (bytes.map
    (· % 256)) late)) ∧
  (∀ (c origin session : Nat) (r : RelayRx) (s : State), (s.load c).rx? origin (fun r => r.session == session) = some r →
    exec (.relayRxTimeout c origin session) s = .next ((s.showRx c r (if r.dropped then rxDropped else rxIncomplete)).dropRx
    c r)) ∧
  (∀ (c : Nat) (s : State), s.loadSt c = ldWaitAck → exec (.relayAckTimeout c) s = .next (s.loadEnd c ldRelayShort)) ∧
  (∀ (p dst src cls vc session off q : Nat) (bytes : List Nat) (s : State), s.linkUp p = true → s.hubStopped = false → dst
    ≠ 0xFFFF ∧ dst ≠ s.position → s.routeVia (some p) dst = some q → exec (.dataPacketReceive p dst src cls vc session off
    bytes) s = .next (s.passOn q p (dataPacket dst src cls vc session off (bytes.map (· % 256))))) ∧
  (∀ (p src cls vc session off : Nat) (bytes : List Nat) (x : Session) (s : State), s.linkUp p = true → s.hubStopped =
    false → s.quarantined = false → s.session? src session = some x → s.isRevoked x.src x.unit x.inc = false → s.sessionOn p
    x = true → x.kind ≠ 1 → exec (.dataPacketReceive p 0xFFFF src cls vc session off bytes) s = .next (((s.putPiece src
    session off bytes).ackHeld).serveAll.collectAll))

/-- Memory sweeps and DRAM_RETIRE complete with their results (R281, R282, R283, R284, R285). A GO of an idle engine on a range
of one memory begins the sweep; ABORT and completion run it over the bytes covered and end it with its outcome; DRAM_RETIRE
retires the unit or bank and answers its code; a retry records what waits for the store. -/
def Obligations.SweepAndRetireCommandsComplete : Prop :=
  (∀ (c mode a : Nat) (s : State), c < 4 → s.sweepAt c = none → c = 3 → s.scrubs = [] → mode % 4 ≠ 3 → s.fget
    (Reg.sweepStartLoAddrMid.sweep c) = 0 → a = s.fget (Reg.sweepStartLoAddrLo.sweep c) * 4096 + s.fget
    (Reg.sweepStartHi.sweep c) * 2 ^ 32 → oneMemory a (s.fget (Reg.sweepLen.sweep c) * 4096) = true → memKind (s.fget
    (Reg.sweepSumLoAddrLo.sweep c) * 4096 + s.fget (Reg.sweepSumLoAddrMid.sweep c) * 64 + s.fget (Reg.sweepSumHi.sweep c) *
    2 ^ 32) = .sram → Completes (exec (.sweepGo c mode) s) (fun t => (∃ x, t.sweepAt c = some x ∧ x.mode = mode % 4 ∧
    x.start = a ∧ x.began = s.now) ∧ t.fget (Reg.sweepStatusBusy.sweep c) = 1)) ∧
  (∀ (c pages : Nat) (x : Sweep) (s : State), s.sweepAt c = some x → exec (.sweepAbort c pages) s = .next (s.runSweep c
    (min x.len (4096 * pages)) swAborted x)) ∧
  (∀ (c : Nat) (x : Sweep) (s : State), s.sweepAt c = some x → exec (.sweepComplete c) s = .next (s.runSweep c x.len
    swComplete x)) ∧
  (∀ (kind index : Nat) (s : State), s.isRetired (kind % 2) (index % 2 ^ 23) = false → retireReserved (kind % 2) (index % 2
    ^ 23) = false → s.retireFull (kind % 2) = false → Completes (exec (.dramRetire kind index) s) (fun t => t.isRetired
    (kind % 2) (index % 2 ^ 23) = true ∧ t.fget Reg.dramRetireResultCode = retDone ∧ t.mem = s.mem)) ∧
  (∀ (s : State), s.nvOk = true → Completes (exec (.retireNvRetry) s) (fun t => t.retireWaits = [] ∧ t.fget
    Reg.dramStatusNvPending = 0))

/-- Links, lanes, training and causeways complete with their effects (R290, R292, R293, R295, R298, R304, R305, R308, R322). A
flit in sequence is taken and a NAK replays; a lane fails over to a spare; a low laser, spent time or dark setting takes the
port down or dark; training ends; a causeway opens, holds, confirms and fails; discovery ends; a re-admitted port floods its
new incarnation. -/
def Obligations.LinkCommandsComplete : Prop :=
  (∀ (p : Nat) (bytes b : List Nat) (corr : List (Nat × Nat)) (s : State), s.linkUp p = true → s.hubStopped = false → b =
    padTo 512 (bytes.map (· % 256)) → flitGood b = true → flitNak b = false → flitLm b = false → flitSeq b = (s.port
    p).rxSeq → Completes (exec (.flitReceive p bytes corr 0) s) (fun t => (t.port p).rxSeq = ((s.port p).rxSeq + 1) % 32768
    ∧ (t.port p).naking = false ∧ t.out.getLast? = some (.flit p (flitBytes 0 true (t.port p).lastGood false [])))) ∧
  (∀ (p uncorr : Nat) (bytes : List Nat) (corr : List (Nat × Nat)) (s : State), s.linkUp p = true → s.hubStopped = false →
    flitGood (padTo 512 (bytes.map (· % 256))) = false → Completes (exec (.flitReceive p bytes corr uncorr) s) (fun t =>
    t.fget (Reg.linkCrcErr.port p) = min (Reg.linkCrcErr.card - 1) (s.fget (Reg.linkCrcErr.port p) + 1) ∧ (t.port p).rxSeq =
    (s.port p).rxSeq ∧ t.out = s.out ++ [.flit p (flitBytes 0 true (s.port p).lastGood true [])])) ∧
  (∀ (p last : Nat) (s : State), s.linkUp p = true → s.hubStopped = false → (s.port p).naks = 0 → Completes (exec
    (.nakReceived p last) s) (fun t => (t.port p).lastNak = some last ∧ (t.port p).naks = 1)) ∧
  (∀ (p lane k : Nat) (s : State), s.linkUp p = true → (Map.get {} (s.port p).lanes lane).st = 1 → (s.port p).lowest 2 =
    some k → k ≠ lane → Completes (exec (.laneFail p lane) s) (fun t => (Map.get {} (t.port p).lanes lane).st = 3 ∧ (Map.get
    {} (t.port p).lanes k).st = 1 ∧ (Map.get {} (t.port p).lanes k).logical = (Map.get {} (s.port p).lanes lane).logical ∧
    (t.port p).subs = (s.port p).subs + 1)) ∧
  (∀ (p : Nat) (s : State), s.linkUp p = true → exec (.laserLow p) s = .next (((s.raise (Reg.linkErrLaserLow.port
    p)).torusRecord 1 0x69 ((s.raise (Reg.linkErrLaserLow.port p)).peerPos p) p 0xFF ((s.raise (Reg.linkErrLaserLow.port
    p)).incarnation (unitPort p)) 0).portDown p 3)) ∧
  (∀ (p width : Nat) (good g b : List Nat) (u v w : State) (s : State), s.linkSt p = lkTraining → g = (List.range
    34).filter (fun n => good.contains n) → 16 ≤ g.length → width = (if 32 ≤ g.length then 32 else 16) → u = s.newPeer p b →
    v = u.setPort p
    { u.port p with lanes := trainedLanes g width, subs := 0, initial := false, attempts := 0, firstFail := none, upSince := if u.portRevoked p then some u.now else none }
    → w = (v.setLink p (if width = 32 then lkUp else lkDegraded) width).showLane p → exec (.trainingAttemptEnd p good true
    (some b)) s = .next (((((if g.length < 34 then w.raise (Reg.linkErrLaneFailed.port p) else w).drainPort p).sendHello
    p).floodLinkState p).onHello p b)) ∧
  (∀ (p : Nat) (s : State), s.linkSt p = lkTraining → (s.port p).firstFail ≠ none → p < 6 → Completes (exec
    (.trainingTimeLimit p) s) (fun t => t.linkSt p = lkDown ∧ t.fget (Reg.linkStatusCause.port p) = 2)) ∧
  (∀ (p : Nat) (light : Bool) (s : State), s.linkSt p = lkDown → light = true → p < 6 → Completes (exec (.downLightCheck p
    light) s) (fun t => t.linkSt p = lkTraining ∧ (t.port p).initial = false)) ∧
  (∀ (lit : List Nat) (s : State), s.flag Reg.torStatusDiscDone = false → Completes (exec (.discoveryDeadline lit) s) (fun
    t => t.fget Reg.torStatusDiscDone = 1)) ∧
  (∀ (p : Nat) (u : State) (s : State), s.linkUp p = true → s.portRevoked p = true → (s.port p).upSince ≠ none →
    s.coreHalted 4 = false → u = s.readmitOwn (unitPort p) → u.incarnation (unitPort p) ≠ s.incarnation (unitPort p) → exec
    (.portAutoReadmit p) s = .next (u.floodNew 0x05 (leBytes 2 u.position ++ [0, 0] ++ leBytes 4 (unitPort p) ++ leBytes 4
    (s.incarnation (unitPort p)) ++ leBytes 4 (u.incarnation (unitPort p))))) ∧
  (∀ (p : Nat) (s : State), s.linkUp p = true → p < 6 → Completes (exec (.linkRetrain p) s) (fun t => t.linkSt p =
    lkTraining ∧ t.fget (Reg.linkRetrains.port p) = min (Reg.linkRetrains.card - 1) (s.fget (Reg.linkRetrains.port p) + 1))) ∧
  (∀ (p : Nat) (s : State), p < 6 → Completes (exec (.linkDark p true) s) (fun t => t.linkSt p = lkDark ∧ t.fget
    (Reg.linkCtrlDark.port p) = 1)) ∧
  (∀ (p : Nat) (s : State), exec (.linkDark p false) s = .next ((s.fput (Reg.linkCtrlDark.port p) false).undark p)) ∧
  (∀ (a : Nat) (s : State), s.ready = true → s.cway a = cwClosed → s.policy (2 * a) ≠ 0 ∨ s.policy (2 * a + 1) ≠ 0 → a < 3
    → Completes (exec (.cwayOpen a) s) (fun t => t.cway a = cwOpening)) ∧
  (∀ (a : Nat) (s : State), s.cway a = cwOpen → a < 3 → Completes (exec (.cwayClose a) s) (fun t => t.cway a = cwClosing ∧
    t.linkSt (2 * a) = lkDark ∧ t.linkSt (2 * a + 1) = lkDark)) ∧
  (∀ (a : Nat) (s : State), s.cway a = cwOpening ∨ s.cway a = cwClosing → a < 3 → Completes (exec (.cwayConfirm a) s) (fun
    t => t.cway a = if s.cway a = cwOpening then cwOpen else cwClosed)) ∧
  (∀ (a : Nat) (s : State), s.cway a = cwOpening → a < 3 → Completes (exec (.cwayConfirmTimeout a) s) (fun t => t.cway a =
    cwClosing)) ∧
  (∀ (p : Nat) (s : State), s.linkUp p = true → exec (.helloSend p) s = .next (s.sendPeer p helloType (s.helloBody p))) ∧
  (∀ (p : Nat) (h : CtrlHdr) (body : List Nat) (s : State), s.linkUp p = true ∨ (s.port p).skewDark = true → s.hubStopped =
    false → (s.greeted p h).seenBefore h = false → exec (.hello p true h body) s = .next ((s.heard p h).inOrder h [0x01, p]
    (fun u => u.onHello p body)))

/-- Control messages that this package acts on complete with their effects (R316, R319, R320, R321, R322, R325, R326, R327,
R328, R329). A message that arrives good, for this package, from a sender not revoked and not seen before is acted on: ACK,
the fencing messages, LINK_STATE, the collective and expert messages; retransmission, replanning and the fencing commands of
the registers complete likewise. -/
def Obligations.TorusMessagesComplete : Prop :=
  (∀ (p acked : Nat) (h : CtrlHdr) (s : State), s.actsOn p h → Completes (exec (.ack p true h acked) s) (fun t =>
    t.torus.unacked = (s.heard p h).torus.unacked.filter (fun u => !(u.seq == acked && (u.dst == h.srcPos || u.port == some
    p))))) ∧
  (∀ (p pos unit inc : Nat) (h : CtrlHdr) (r : Rev) (s : State), s.actsOn p h → r = ⟨pos, unit, inc⟩ → exec (.revoke p true
    h pos unit inc) s = .next ((s.heard p h).withRev r (fun u => (u.inOrder h [0x03, pos, unit] (fun v => v.learnRevoke
    r)).flood 0x03 h (some p) (revokeBody r)))) ∧
  (∀ (p pos unit inc : Nat) (h : CtrlHdr) (r : Rev) (s : State), s.actsOn p h → r = ⟨pos, unit, inc⟩ → pos = (s.heard p
    h).position → inc = (s.heard p h).incarnation unit → exec (.revoked p true h pos unit inc) s = .next ((s.heard p
    h).withRev r (fun u => if unit = unitPackage ∧ (u.learnRevoke r).peerPos p = h.srcPos then ((u.learnRevoke r).setPort p
    { (u.learnRevoke r).port p with reported := true }).setDisc p 4 else u.learnRevoke r))) ∧
  (∀ (p pos unit inc new : Nat) (h : CtrlHdr) (s : State), s.actsOn p h → exec (.readmit p true h pos unit inc new) s =
    .next (((s.heard p h).inOrder h [0x03, pos, unit] (fun u => u.readmitted ⟨pos, unit, inc⟩)).flood 0x05 h (some p)
    (readmitBody ⟨pos, unit, inc⟩ new))) ∧
  (∀ (p pos port state inc : Nat) (h : CtrlHdr) (s : State), s.actsOn p h → exec (.linkState p true h pos port state inc) s
    = .next (((s.heard p h).inOrder h [0x06, pos, port] (fun u =>
    { u with torus := { u.torus with links := Map.set 0 u.torus.links (pos * 8 + port) (state + 1), replan := true } })).flood
    0x06 h (some p) (leBytes 2 pos ++ [port, state] ++ leBytes 4 inc))) ∧
  (∀ (p id step dir session bytes check : Nat) (h : CtrlHdr) (s : State), s.actsOn p h → (s.heard p h).quarantined = false
    → (s.heard p h).overtaken h (abortSubject h.part id) = false → (s.heard p h).torus.collIn.find? (fun d => d.src ==
    h.srcPos && d.part == h.part && d.id == id && d.step == step && d.dir == dir && d.session == session) = none → (s.heard
    p h).coll? h.part id = none → ((s.heard p h).openSession h session 0).coll? h.part id = none → exec (.collStep p true h
    id step dir session bytes check) s = .next ((((s.heard p h).openSession h session 0).addCollIn ⟨h.srcPos, h.part, id,
    step, dir, session, bytes, check, false, false⟩).ackHeld)) ∧
  (∀ (p id step dir : Nat) (h : CtrlHdr) (c : Coll) (s : State), s.actsOn p h → (s.heard p h).quarantined = false →
    (s.heard p h).coll? h.part id = some c → exec (.collAck p true h id step dir) s = .next (((s.heard p h).setColl
    { c with sends := c.sends.filter (fun x => !(x.step == step && x.dir == dir && x.dst == h.srcPos)) }).advanceColl h.part
    id)) ∧
  (∀ (p id code port pos : Nat) (h : CtrlHdr) (c : Coll) (u : State) (s : State), s.actsOn p h → (s.heard p h).quarantined
    = false → (s.heard p h).newest h (abortSubject h.part id) = none → (s.heard p h).coll? h.part id = some c → code ≠
    ccLinkLost → code ≠ ccTimeout → code ≠ ccFenced → u =
    { s.heard p h with torus := { (s.heard p h).torus with latest := (s.heard p h).torus.latest ++ [([h.srcPos, h.srcUnit, h.srcInc] ++ abortSubject h.part id, h.seq)] } }
    → exec (.collAbort p true h id code port pos) s = .next (u.endColl c code port pos)) ∧
  (∀ (part id dir : Nat) (c : Coll) (s : State), s.coll? part id = some c → s.quarantined = false → exec (.collStepResend
    part id dir) s = .next (s.each (c.sends.filter (fun x => x.dir == dir && s.linkUp x.port)) (fun s x => s.sendCollStep c
    x))) ∧
  (∀ (part id : Nat) (c : Coll) (s : State), s.coll? part id = some c → exec (.collTimeout part id) s = .next (s.abortColl
    c ccTimeout 0xFF)) ∧
  (∀ (p id set position vectors sessionIn inBytes outBytes e : Nat) (h : CtrlHdr) (v : Served) (u w : State) (s : State),
    s.actsOn p h → (s.heard p h).quarantined = false → (s.heard p h).inService h.part = true → expertIndex ((s.heard p
    h).harness h.part) set position = some e → v = ⟨h.srcPos, h.part, id, e, vectors, sessionIn, inBytes, outBytes, h.seq,
    (s.heard p h).now, none⟩ → u = (s.heard p h).openSession h sessionIn 2 → w = u.each (u.torus.served.filter (u.supersedes
    h v)) State.dropCall → exec (.expertCall p true h id set position vectors sessionIn inBytes outBytes) s = .next
    (({ w with torus := { w.torus with served := w.torus.served ++ [v] } } : State).serveAll)) ∧
  (∀ (p id session : Nat) (h : CtrlHdr) (c : ExpCall) (u : State) (s : State), s.actsOn p h → (s.heard p h).quarantined =
    false → (s.heard p h).torus.calls.find? (fun c => c.id == id && c.dst == h.srcPos) = some c → u = (s.heard p
    h).openSession h session 3 → u.torus.calls = (s.heard p h).torus.calls → exec (.expertDone p true h id 0 session) s =
    .next
    (({ u with torus := { u.torus with calls := u.torus.calls.map (fun d => if d = c then { d with sessionOut := some session } else d) } }
    : State).collectAll)) ∧
  (∀ (id : Nat) (c : ExpCall) (y : Step) (k : Nat × State) (d : ExpCall) (u : State) (s : State), s.torus.calls.find? (fun
    c => c.id == id) = some c → c.sessionOut = none → c.again = false → s.step? c.step = some y → k = s.takeCall → d =
    { c with id := k.1, again := true } → u =
    { k.2 with torus := { k.2.torus with calls := k.2.torus.calls.map (fun z => if z = c then d else z) } } → u.quarantined
    = false → exec (.expertCallTimeout id) s = .next (u.callExpert d y.part (u.harness y.part))) ∧
  (∀ (unit seq p : Nat) (u : Unacked) (v : State) (s : State), s.torus.unacked.find? (fun u => u.unit == unit && u.seq ==
    seq) = some u → s.carries u.type = true → u.sends < 8 → u.port = some p → v =
    ({ s with torus := { s.torus with unacked := s.torus.unacked.map (fun w => if w = u then { w with sends := w.sends + 1 } else w) } }
    : State).bump Reg.torCtrlRetx → exec (.ctrlRetransmit unit seq) s = .next (v.sendOn p u.type (v.header u.unit u.seq
    0xFFFF u.part true) u.body)) ∧
  (∀ (q : Nat) (s : State), s.coreHalted 4 = false → q ∈ s.positions → q ≠ s.position → Completes (exec (.routeReplan) s)
    (fun t => t.torus.replan = false ∧ t.mem = s.mem ∧ Map.get 0 t.torus.detours q = if s.walks q (2 * s.positions.length)
    none s.position then 0 else (s.detour q).elim 0 (· + 1))) ∧
  (∀ (pos : Nat) (u : State) (s : State), u = (s.fset Reg.torRevokePos pos).showRev → exec (.torRevoke pos) s = .next
    (u.torRevoke pos (u.fget Reg.torRevInc))) ∧
  (∀ (entry : Nat) (r : Rev) (s : State), Map.get none s.torus.revs entry = some r → r.unit / 2 ^ 28 ≤ 1 → r.inc % 256 ≠
    255 → s.coreHalted 4 = false → exec (.torReadmit entry) s = .next (((s.fset Reg.torReadmitEntry entry).readmitted
    r).floodNew 0x05 (readmitBody r (r.inc + 1))))

/-- NV, SEC and paddock-retry commands complete with their effects (R435, R440, R446, R448). An NV command that the checks
accept waits as the block’s command and ends with the store changed and its code; a SEC command of an idle block waits
likewise and ends with its report or its enrolment; a retry in paddock mode lowers a count that stands at the limit. -/
def Obligations.StoreAndKeyCommandsComplete : Prop :=
  (∀ (s : State), s.paddock = true → s.failLimit ≤ s.boot.failPending.getD s.nv.failCount → s.nvOk = true → Completes (exec
    (.rstRetry) s) (fun t => t.nv.failCount = s.failLimit - 1 ∧ t.boot.failPending = none)) ∧
  (∀ (target : Nat) (u : State) (s : State), u = (s.fset Reg.nvCtrlCmd 1).fset Reg.nvCtrlTarget (target % 8) → u.nvCheck 1
    (target % 8) (u.fget Reg.nvLen) = 0 → Completes (exec (.nvWrite target) s) (fun t => t.sec.nvCmd = some ⟨1, target % 8,
    s.fget Reg.nvSrcLo * 64 + s.fget Reg.nvSrcHi * 2 ^ 32, s.fget Reg.nvLen⟩)) ∧
  (∀ (target : Nat) (u : State) (s : State), u = (s.fset Reg.nvCtrlCmd 2).fset Reg.nvCtrlTarget (target % 8) → u.nvCheck 2
    (target % 8) (u.fget Reg.nvLen) = 0 → Completes (exec (.nvErase target) s) (fun t => t.sec.nvCmd = some ⟨2, target % 8,
    s.fget Reg.nvSrcLo * 64 + s.fget Reg.nvSrcHi * 2 ^ 32, s.fget Reg.nvLen⟩)) ∧
  (∀ (target : Nat) (u : State) (s : State), u = (s.fset Reg.nvCtrlCmd 3).fset Reg.nvCtrlTarget (target % 8) → u.nvCheck 3
    (target % 8) (u.fget Reg.nvLen) = 0 → Completes (exec (.nvSetTrial target) s) (fun t => t.sec.nvCmd = some ⟨3, target %
    8, s.fget Reg.nvSrcLo * 64 + s.fget Reg.nvSrcHi * 2 ^ 32, s.fget Reg.nvLen⟩)) ∧
  (∀ (target : Nat) (u : State) (s : State), u = (s.fset Reg.nvCtrlCmd 4).fset Reg.nvCtrlTarget (target % 8) → u.nvCheck 4
    (target % 8) (u.fget Reg.nvLen) = 0 → Completes (exec (.nvClearTrial target) s) (fun t => t.sec.nvCmd = some ⟨4, target
    % 8, s.fget Reg.nvSrcLo * 64 + s.fget Reg.nvSrcHi * 2 ^ 32, s.fget Reg.nvLen⟩)) ∧
  (∀ (err : Bool) (bytes : List Nat) (c : NvCmd) (u : State) (s : State), s.sec.nvCmd = some c → c.cmd = 1 → err = false ∧
    s.pci.lost = false → u = { s with sec := { s.sec with nvCmd := none } } → exec (.nvCommandComplete err bytes) s = .next
    ((u.nvFinish c.cmd c.target (if c.cmd = 1 then padTo c.len (bytes.map (· % 256)) else [])).2.nvResult (u.nvFinish c.cmd
    c.target (if c.cmd = 1 then padTo c.len (bytes.map (· % 256)) else [])).1)) ∧
  (∀ (s : State), s.sec.cmd = none → Completes (exec (.secAttest) s) (fun t => t.sec.cmd = some ⟨1, s.fget Reg.secSrcLo *
    64 + s.fget Reg.secSrcHi * 2 ^ 32⟩ ∧ t.fget Reg.secStatusBusy = 1 ∧ t.fget Reg.secCtrlCmd = 1)) ∧
  (∀ (s : State), s.sec.cmd = none → Completes (exec (.secEnrol) s) (fun t => t.sec.cmd = some ⟨2, s.fget Reg.secSrcLo * 64
    + s.fget Reg.secSrcHi * 2 ^ 32⟩ ∧ t.fget Reg.secStatusBusy = 1 ∧ t.fget Reg.secCtrlCmd = 2)) ∧
  (∀ (s : State), s.sec.cmd = none → Completes (exec (.secTransfer) s) (fun t => t.sec.cmd = some ⟨3, s.fget Reg.secSrcLo *
    64 + s.fget Reg.secSrcHi * 2 ^ 32⟩ ∧ t.fget Reg.secStatusBusy = 1 ∧ t.fget Reg.secCtrlCmd = 3)) ∧
  (∀ (err : Bool) (bytes : List Nat) (c : SecCmd) (u : State) (s : State), s.sec.cmd = some c → u =
    ({ s with sec := { s.sec with cmd := none } } : State).clear Reg.secStatusBusy → exec (.secCommandComplete err bytes) s
    = .next (if c.cmd = 1 then ({ u with sec := { u.sec with report := u.attestReport (u.fgetBytes Reg.secNonce 8) } } :
    State).secResult secDone else u.enrol c.cmd (u.dmaError err) (padTo 5312 (bytes.map (· % 256)))))

/-- Lockstep, watchdog, digest, report and management commands complete with their effects (R458, R459, R460, R465, R466, R475,
R478, R479, R480, R484). A lockstep mismatch stops every region; the watchdog’s expiry asserts FAULT_N; digests start, fall
late and end with their value; reports are sent again and removed by their acknowledgement; management messages that the
package hears, and those it authorises, are answered with their effect. -/
def Obligations.SafetyCommandsComplete : Prop :=
  (∀ (pair r : Nat) (s : State), r < 33 → Completes (exec (.lockstepMismatch pair) s) (fun t => t.safety.lockstopped = true
    ∧ (t.region r).stopped = true ∧ t.fget (if pair = 0 then Reg.safeErrLockstep01 else Reg.safeErrLockstep23) = 1)) ∧
  (∀ (s : State), s.coreHalted 6 = false → Completes (exec (.cc6WatchdogExpire) s) (fun t => t.safety.cc6Down = true ∧
    t.fget Reg.safeStatusCc6Ok = 0 ∧ t.fget Reg.safeErrCc6Watchdog = 1 ∧ t.fget Reg.safeStatusFaultN = 1)) ∧
  (∀ (s : State), Completes (exec (.safeAck) s) (fun t => t.fget Reg.safeStatusFaultN = 0 ∧ t.safety = s.safety ∧ t.mem =
    s.mem)) ∧
  (∀ (p m : Nat) (s : State), p < 32 → m < 16 → s.partStrings p ≠ 0 → s.residentModel p m = true → Completes (exec
    (.safeDigestNow) s) (fun t => digestKey p m ∈ t.safety.digesting)) ∧
  (∀ (n : Nat) (u : State) (s : State), u = s.fset Reg.safeLogSel n → exec (.safeLogSelWrite n) s = .next (u.fsetWords
    Reg.safeLog 0 (wordsOf 8 (Map.get {} u.safety.log (u.fget Reg.safeLogSel % 8192)).bytes))) ∧
  (∀ (p m : Nat) (s : State), s.ready = true → s.partStrings p ≠ 0 → s.residentModel p m = true → Completes (exec
    (.digestDue p m) s) (fun t => digestKey p m ∈ t.safety.digesting)) ∧
  (∀ (p m : Nat) (r : List Nat × State) (s : State), s.safety.digesting.contains (digestKey p m) = true → r = s.digestAll
    (modelPlaces (s.harness p) m) → Completes (exec (.digestComplete p m) s) (fun t => Map.get {} t.safety.digests
    (digestKey p m) = { valid := true, bytes := padTo 64 (Config.shake256 r.1), way := r.2.now } ∧ digestKey p m ∉
    t.safety.digesting)) ∧
  (∀ (u : State) (s : State), stLinksUp < s.stage ∨ s.paddock = true → s.coreHalted 6 = false → u =
    (({ s with safety := { s.safety with cc6Down := false } } : State).raise Reg.safeStatusCc6Ok).sendWaiting → exec
    (.heartbeatSend) s = .next (u.mgmtSend 0x01 u.heartbeatBody)) ∧
  (∀ (id : Nat) (r : Report) (s : State), s.safety.reports.find? (fun r => r.id == id) = some r → r.sends ≠ 0 → r.sends <
    10 → s.safety.portUp = true → s.cc6Runs = true → exec (.errorReportResend id) s = .next (((s.setReports
    (s.safety.reports.map (fun x => if x.id = id then { x with sends := x.sends + 1 } else x))).mgmtSend 0x02 r.body).bump
    Reg.safeReports)) ∧
  (∀ (h : MgmtHdr) (id : Nat) (s : State), s.hears h 0x03 (leBytes 4 id) = true → s.safety.reports.any (fun r => r.id ==
    id) = true → Completes (exec (.errorAck h id) s) (fun t => t.safety.reports = s.safety.reports.filter (fun r => r.id !=
    id) ∧ ((s.safety.reports.filter (fun r => r.id != id)).isEmpty = true → t.fget Reg.safeStatusFaultN = 0))) ∧
  (∀ (h : MgmtHdr) (nonce : List Nat) (s : State), s.hears h 0x10 (padTo 32 (nonce.map (· % 256))) = true → s.afterNvLoad =
    true → exec (.getAttest h nonce) s = .next (s.mgmtTo h.src 0x11 h.seq (s.attestReport (padTo 32 (nonce.map (· % 256)))))) ∧
  (∀ (h : MgmtHdr) (first count : Nat) (ns : List Nat) (s : State), s.hears h 0x12 (leBytes 4 first ++ leBytes 4 count) =
    true → s.afterNvLoad = true → ns = s.logNumbers first count → exec (.getLog h first count) s = .next (s.mgmtTo h.src
    0x13 h.seq (leBytes 4 (ns.headD first) ++ leBytes 4 ns.length ++ (ns.map (fun n => (Map.get {} s.safety.log (n %
    8192)).bytes)).flatten))) ∧
  (∀ (h : MgmtHdr) (cmd target len : Nat) (r : Nat × Nat × State) (s : State), s.hears h 0x20 ([cmd % 256, target % 256, 0,
    0] ++ leBytes 4 len) = true → s.authorised h 0x20 ([cmd % 256, target % 256, 0, 0] ++ leBytes 4 len) = true → s.nvCheck
    (cmd % 256) (target % 256) (len % 2 ^ 32) = 0 → r = s.nvBegin (cmd % 256) (target % 256) (len % 2 ^ 32) → exec (.nvBegin
    h cmd target len) s = .next ((r.2.2.replyResult h r.1 r.2.1).renewMgmt)) ∧
  (∀ (h : MgmtHdr) (off cmd tg len : Nat) (bytes got : List Nat) (s : State), s.hears h 0x21 (leBytes 4 off ++ bytes.map (·
    % 256)) = true → s.safety.nvOpen = some (cmd, tg, len, got) → off = got.length → bytes ≠ [] → bytes.length ≤ 1024 →
    got.length + bytes.length < len → Completes (exec (.nvChunk h off bytes) s) (fun t => t.safety.nvOpen = some (cmd, tg,
    len, got ++ bytes.map (· % 256)) ∧ t.nv = s.nv)) ∧
  (∀ (s : State), Completes (exec (.nvChunkGapTimeout) s) (fun t => t.safety.nvOpen = none ∧ t.nv = s.nv)) ∧
  (∀ (h : MgmtHdr) (s : State), s.hears h 0x23 [] = true → s.authorised h 0x23 [] = true → exec (.mgmtRetry h) s = .next
    ((s.retry.2.replyResult h s.retry.1 0).renewMgmt)) ∧
  (∀ (h : MgmtHdr) (pos inc : Nat) (s : State), s.hears h 0x24 (leBytes 2 pos ++ [0, 0] ++ leBytes 4 inc) = true →
    s.authorised h 0x24 (leBytes 2 pos ++ [0, 0] ++ leBytes 4 inc) = true → exec (.mgmtRevoke h pos inc) s = .next
    (((s.torRevoke (pos % 4096) (inc % 2 ^ 32)).replyResult h nvDone 0).renewMgmt)) ∧
  (∀ (s : State), Completes (exec (.managementPortDown) s) (fun t => t.safety.portUp = false ∧ t.fields = s.fields ∧ t.mem
    = s.mem)) ∧
  (∀ (s : State), Completes (exec (.managementPortUp) s) (fun t => t.safety.portUp = true ∧ t.mem = s.mem))

/-- TAP and debug commands complete with their effects (R485, R486, R488, R489, R491, R492, R500). A TAP instruction selects
itself and shifts out what the spec names; ACCESS answers its request; an unlock attempt is judged and the challenge
renewed; a lock ends the debug session; in scope, clock commands and run control act on the region or unit; a wait-for graph
is built from two snapshots. -/
def Obligations.DebugCommandsComplete : Prop :=
  (∀ (s : State), Completes (exec (.tapReset) s) (fun t => t.dbgState.ir = 0x01 ∧ t.dbgState.driving = false ∧ t.mem =
    s.mem)) ∧
  (∀ (s : State), exec (.idcode) s = .next ((s.tapIr 0x01).send (.tdo 32 0x17160A6B))) ∧
  (∀ (n cells : Nat) (s : State), Completes (exec (.samplePreload n cells) s) (fun t => t.dbgState.ir = 0x02 ∧
    t.dbgState.boundary = cells % 2 ^ n ∧ t.freeCount = s.freeCount + 1)) ∧
  (∀ (n cells : Nat) (s : State), s.stage = stPor → Completes (exec (.extest n cells) s) (fun t => t.dbgState.ir = 0x00 ∧
    t.dbgState.driving = true ∧ t.dbgState.boundary = cells % 2 ^ n)) ∧
  (∀ (s : State), s.stage = stPor → Completes (exec (.clamp) s) (fun t => t.dbgState.ir = 0x04 ∧ t.dbgState.driving = true
    ∧ t.dbgState.boundary = s.dbgState.boundary ∧ t.out = s.out ++ [.tdo 1 0])) ∧
  (∀ (s : State), Completes (exec (.bypass) s) (fun t => t.dbgState.ir = 0xFF ∧ t.dbgState.driving = false ∧ t.out = s.out
    ++ [.tdo 1 0])) ∧
  (∀ (s : State), exec (.tapChallenge) s = .next ((s.tapIr 0x10).send (.tdo 256 (leValue s.dbgState.challenge)))) ∧
  (∀ (bytes : List Nat) (s : State), exec (.tapUnlock bytes) s = .next ((s.tapIr 0x11).unlockTry false bytes)) ∧
  (∀ (err : Bool) (bytes : List Nat) (s : State), exec (.dbgUnlock err bytes) s = .next (s.unlockTry err bytes)) ∧
  (∀ (op space data addr : Nat) (u : State) (r : Nat × Nat × State) (s : State), op % 4 = 1 ∨ op % 4 = 2 → u = (s.tapIr
    0x12).send (.tdo 104 s.dbgState.access) → r = u.accessNow (op % 4 == 2) (space % 16) (addr % 2 ^ 64) (data % 2 ^ 32) →
    Completes (exec (.tapAccess op space data addr) s) (fun t => t.dbgState.access = op % 4 * 2 ^ 102 + r.1 * 2 ^ 100 +
    space % 16 * 2 ^ 96 + r.2.1 % 2 ^ 32 * 2 ^ 64 + addr % 2 ^ 64 ∧ t.mem = r.2.2.mem ∧ t.out = r.2.2.out)) ∧
  (∀ (s : State), s.flag Reg.dbgStatusUnlocked = true → Completes (exec (.dbgLock) s) (fun t => t.fget Reg.dbgStatusScope =
    0 ∧ t.fget Reg.dbgStatusUnlocked = 0 ∧ t.fget Reg.secStatusDebugUnlocked = 0 ∧ t.dbgState.unlockEnd = none)) ∧
  (∀ (s : State), s.flag Reg.dbgStatusUnlocked = true → s.dbgState.unlockEnd ≠ none → Completes (exec
    (.unlockDurationExpire) s) (fun t => t.fget Reg.dbgStatusScope = 0 ∧ t.fget Reg.dbgStatusUnlocked = 0 ∧ t.fget
    Reg.secStatusDebugUnlocked = 0 ∧ t.dbgState.unlockEnd = none)) ∧
  (∀ (r : Nat) (s : State), s.scoped 0 = true → r % 64 < 32 → (s.region (r % 64)).stopped = false → Completes (exec
    (.dbgClockStop r) s) (fun t => (t.region (r % 64)).stopped = true ∧ (t.region (r % 64)).dbg = true ∧ t.fget
    Reg.dbgResultCode = dbDone)) ∧
  (∀ (r : Nat) (s : State), s.scoped 0 = true → r % 64 < 32 → (s.region (r % 64)).stopped = true → (s.region (r % 64)).dbg
    = true → s.heldStopped (r % 64) = false → Completes (exec (.dbgClockRun r) s) (fun t => (t.region (r % 64)).stopped =
    false ∧ t.fget Reg.dbgResultCode = dbDone)) ∧
  (∀ (s : State), s.coreHalted 7 = false → s.dbgState.graph = none → Completes (exec (.dbgWfg) s) (fun t =>
    t.dbgState.graph = some s.waitSnapshot ∧ t.fget Reg.dbgWfgStatusBusy = 1)) ∧
  (∀ (id : Nat) (y : Step) (s : State), s.step? id = some y → y.posted = true → y.atMilepost = false → s.hangMs ≠ 0 →
    s.dbgState.hung.contains id = false → s.coreHalted 7 = false → exec (.hangTimeout id) s = .next
    (({ s with dbgState := { s.dbgState with hung := s.dbgState.hung ++ [id] } } : State).startGraph)) ∧
  (∀ (first kept loops : List Wait) (u : State) (s : State), s.dbgState.graph = some first → s.coreHalted 7 = false → kept
    = (s.waitSnapshot.filter (fun w => first.any (fun v => v.unit == w.unit && v.since == w.since && v.reason ==
    w.reason))).take 8192 → loops = kept.filter (inCycle kept) → u =
    ((((({ s with dbgState := { s.dbgState with graph := none } } : State).clear Reg.dbgWfgStatusBusy).fput
    Reg.dbgWfgStatusCycle (!loops.isEmpty)).fset Reg.dbgWfgStatusNodes kept.length).writeGraph kept loops.length) → exec
    (.wfgSecondSnapshot) s = .next (if loops.isEmpty then u else u.recordHang loops)) ∧
  (∀ (u : Nat) (s : State), s.scoped 0 = true → 32 ≤ u ∧ u < 64 → (s.seq (u - 32)).halted = false → exec (.runctlHalt u) s
    = .next (s.haltSeq (u - 32) 1 0)) ∧
  (∀ (u : Nat) (s : State), s.scoped 0 = true → u < 8 → s.coreHalted u = false → exec (.runctlHalt u) s = .next (s.each
    (pairOf u) (fun s c => s.haltCore 1 c))) ∧
  (∀ (u : Nat) (s : State), s.scoped 0 = true → u < 64 → exec (.runctlResume u) s = .next (s.resume u)) ∧
  (∀ (u : Nat) (s : State), s.scoped 0 = true → 32 ≤ u ∧ u < 64 → (s.seq (u - 32)).halted = true → Completes (exec
    (.runctlStep u) s) (fun t => (t.seq (u - 32)).stepping = true ∧ (t.seq (u - 32)).skipBp = true ∧ t.mem = s.mem)) ∧
  (∀ (u : Nat) (s : State), s.scoped 0 = true → u < 8 → s.coreHalted u = true → exec (.runctlStep u) s = .next ((s.each
    (pairOf u) (fun s c => s.haltCore 2 c)).coreRan u))

/-- Trace, dump and counter commands complete with their effects (R493, R496, R497, R501, R518). Arming empties the ring and
takes the selection; a trigger starts the post count; entries reach the ring; a copy of a stopped trace writes every entry
and ends; a dump is armed and disarmed; snapshots and clears are latched. -/
def Obligations.TraceAndCounterCommandsComplete : Prop :=
  (∀ (s : State), s.flag Reg.trcStatusCopying = false → Completes (exec (.trcArm) s) (fun t => t.fget Reg.trcStatusState =
    trcRing ∧ t.fget Reg.trcStatusHead = 0 ∧ t.fget Reg.trcWritten = 0 ∧ t.fget Reg.trcLost = 0 ∧ t.trace.buf = [] ∧
    t.trace.trig = s.fget Reg.trcTrig ∧ t.trace.post = clampNat 1 524288 (s.fget Reg.trcPost))) ∧
  (∀ (s : State), s.fget Reg.trcStatusState = trcRing ∨ s.fget Reg.trcStatusState = trcPost → Completes (exec (.trcStop) s)
    (fun t => t.fget Reg.trcStatusState = trcStopped ∧ t.trace = s.trace)) ∧
  (∀ (s : State), s.hubStopped = false → s.trace.trig.testBit 5 = true → s.fget Reg.trcStatusState = trcRing → 1 <
    s.trace.post → Completes (exec (.trcTrigger) s) (fun t => t.fget Reg.trcStatusState = trcPost ∧ t.pins.trigOut =
    s.pins.trigOut + 1 ∧ t.fget64 Reg.trcTrigWayLo Reg.trcTrigWayHi = s.now % 2 ^ 64)) ∧
  (∀ (pin : Nat) (s : State), s.pins.gpioCfg.getD pin 0x08 % 8 = 3 → s.hubStopped = false → s.trace.trig.testBit 3 = true →
    s.fget Reg.trcStatusState = trcRing → 1 < s.trace.post → Completes (exec (.traceTrigInEdge pin) s) (fun t => t.fget
    Reg.trcStatusState = trcPost ∧ t.pins.trigOut = s.pins.trigOut + 1)) ∧
  (∀ (s : State), s.fget Reg.trcStatusState = trcFrozen ∨ s.fget Reg.trcStatusState = trcStopped → Completes (exec
    (.trcCopy) s) (fun t => t.fget Reg.trcStatusCopying = 1 ∧ t.trace = s.trace)) ∧
  (∀ (a : Nat) (s : State), s.flag Reg.trcStatusCopying = true → a = dramBase + s.fget Reg.trcDstLo * 64 + s.fget
    Reg.trcDstHi * 2 ^ 32 → Completes (exec (.traceCopyComplete) s) (fun t => t.fget Reg.trcStatusCopying = 0 ∧ t.mem =
    (s.each (((List.range s.traceList.length).zip s.traceList).filter (fun e => mapped (a + 32 * e.1) 32)) (fun s e =>
    s.copyTraceBlock (a + 32 * e.1) e.2)).mem)) ∧
  (∀ (source : Nat) (e : TraceEntry) (rest : List TraceEntry) (s : State), Map.get [] s.trace.queues (traceQueue source) =
    e :: rest → exec (.traceEntryWrite source) s = .next
    (({ s with trace := { s.trace with queues := Map.set [] s.trace.queues (traceQueue source) rest } } : State).writeTrace
    e)) ∧
  (∀ (slot a : Nat) (u : State) (r : List Nat × Bool × State) (s : State), u = s.fset Reg.dbgDumpCtrlSlot slot → u.dump?
    (slot % 16) = none → a = u.fget Reg.dbgDumpLo * 64 + u.fget Reg.dbgDumpHi * 2 ^ 32 → memKind a = .sram → r =
    u.readThrough (unitCore 7) a 64 → r.2.1 = false → u.dumpCheck { line := r.1, done := 0 } = dbDone → Completes (exec
    (.dumpArm slot) s) (fun t => t.dump? (slot % 16) = some { line := r.1, done := 0 } ∧ t.fget Reg.dbgResultCode = dbDone)) ∧
  (∀ (slot : Nat) (s : State), Completes (exec (.dumpDisarm slot) s) (fun t => t.dump? (slot % 16) = none ∧ t.mem = s.mem)) ∧
  (∀ (s : State), Completes (exec (.cntSnap) s) (fun t => t.dbgState.snapAsked = true ∧ t.dbgState.counts =
    s.dbgState.counts ∧ t.fields = s.fields)) ∧
  (∀ (s : State), Completes (exec (.cntClear) s) (fun t => t.dbgState.clearAsked = true ∧ t.dbgState.counts =
    s.dbgState.counts ∧ t.fields = s.fields)) ∧
  (∀ (s : State), Completes (exec (.counterSnapshotLatch) s) (fun t => t.dbgState.counts = (if s.dbgState.clearAsked then
    [] else s.dbgState.counts) ∧ t.dbgState.snap = (if s.dbgState.snapAsked then s.dbgState.counts else s.dbgState.snap) ∧
    t.dbgState.snapAsked = false ∧ t.dbgState.clearAsked = false))

/-- A step runs the command at the front of the queue (R4). For every command c and state s, a step of s with c at the front of
its queue is exec of c on s with the rest of the queue. The queue is the model’s own (log 26). -/
def Obligations.StepTakesFrontCommand : Prop :=
  ∀ (c : Instr) (rest : List Instr) (s : State), step { s with pending := c :: rest } = exec c { s with pending := rest }

/-- On an empty queue a step is one tick of the waymark and no more (R371). With nothing pending a step is the tick, followed by
the address translations and invalidations that are due, by what the control cores do of their own accord, and by the
programs of the strings that run a step. Where no string runs one, no breakpoint of a control core is enabled and firmware
trace events are off, memory, registers, slots and the store are unchanged, and with WAY_RATE 0 and no fraction held the
waymark is one higher. That an idle step is the tick is the model’s choice (log 27). -/
def Obligations.IdleStepCountsTime : Prop :=
  ∀ s : State, s.pending = [] → step s = .next s.tick.translateReads.settleInvals.coresRun.runPrograms ∧ ((∀ e ∈ s.seqs, e.2.step = none) →
    s.trace.src.testBit 8 = false → (∀ c : Nat, c < 8 → s.coreArmed c = []) →
    Completes (step s) (fun t => t.mem = s.mem ∧ t.fields = s.fields ∧ t.slots = s.slots ∧ t.nv = s.nv ∧ t.pending = [] ∧
      (s.fget Reg.wayRate = 0 → s.clocks.way.frac = 0 → t.now = s.now + 1)))

/-- Every command on every state answers a next state (R4, R184, R233). No command faults and none is refused by the model: on
every state, reachable or not, exec answers a next state. -/
def Obligations.EveryCommandAnswersNext : Prop :=
  ∀ (c : Instr) (s : State), ∃ t : State, exec c s = .next t

/-- No command changes the queue of waiting commands (R4). Whatever a command does, it leaves the queue of commands that wait as
it is; only a step takes one from its front. The queue is the model’s own (log 26). -/
def Obligations.CommandsLeaveTheQueue : Prop :=
  ∀ (c : Instr) (s t : State), exec c s = .next t → t.pending = s.pending

/-- Every step keeps memory in its canonical form (R17). From every state whose memory lists addresses in strictly rising order
and no byte that reads as an unlisted one, every step that answers a next state leaves memory in that form, so equal
memories are equal data. -/
def Obligations.MemoryStaysCanonical : Prop :=
  ∀ s t : State, s.memoryOk = true → step s = .next t → t.memoryOk = true

/-- The state after reset: nothing waits, memory is canonical, the waymark is 0 and FREE (R8, R425). At reset the queue is
empty, memory is in canonical form, the waymark is 0 in state FREE, boot lock is released, THERMTRIP is not driven and no
slot, step or partition is in use. -/
def Obligations.ResetStateIsCanonical : Prop :=
  State.reset.pending = [] ∧ State.reset.memoryOk = true ∧ State.reset.now = 0 ∧ State.reset.fget Reg.wayStatusState = 0 ∧
    State.reset.fget Reg.rstStatusBootLock = 0 ∧ State.reset.pins.thermtrip = false ∧ State.reset.slots = [] ∧ State.reset.steps = [] ∧ State.reset.parts = []

/-- The commands of a long list change no byte of memory (R4, R184, R233, R370, R435, R496). Commands that are not defined to
store (register and configuration accesses outside BAR2’s memory, slot commands but CANCEL and CONTINUE, flow instructions,
clock, power, link, store and debug commands; the list is State-independent: Instr by Instr) leave every byte of memory as
it reads, whatever else they do. -/
def Obligations.CommandsThatStoreNothing : Prop :=
  ∀ (c : Instr) (s t : State), storesNothing c = true → exec c s = .next t → ∀ a : Nat, t.readByte a = s.readByte a

/-- From READY on, no command moves the waymark counter (R371, R372). From every state in READY, every command that leaves the
device in READY leaves the waymark as it was: after READY the counter moves only by its own ticks, whose rate the discipline
steers. -/
def Obligations.WaymarkMovesOnlyByDiscipline : Prop :=
  ∀ (c : Instr) (s t : State), s.stage = stReady → exec c s = .next t → t.stage = stReady → t.now = s.now

/-- PERST_N low for 1 µs or more clears everything but the store, shorter pulses do nothing (R424, R425). A pulse of at least
1000 ns leaves stage POR with cause PERST, empty memory, no slot, step, sequence or partition, the waymark at 0 and FREE,
boot lock released and THERMTRIP released; a shorter pulse changes nothing. -/
def Obligations.PerstPulseResets : Prop :=
  ∀ (ns : Nat) (s : State), (ns < 1000 → exec (.perstNAssert ns) s = .next s) ∧
    (1000 ≤ ns → Completes (exec (.perstNAssert ns) s) (fun t => t.stage = stPor ∧ t.fget Reg.rstStatusCause = 1 ∧ t.mem = [] ∧ t.slots = [] ∧
      t.steps = [] ∧ t.seqs = [] ∧ t.parts = [] ∧ t.teams = [] ∧ t.now = 0 ∧ t.fget Reg.wayStatusState = 0 ∧ t.fget Reg.rstStatusBootLock = 0 ∧
      t.pins.thermtrip = false ∧ t.nv = s.nv.afterLoss s.retireWaits ∧ t.pending = s.pending))

/-- The block code mends every single data-bit error and flags every double one (R270, R272). The syndrome of one flipped data
bit at row i and column j is judged a correctable error at that bit; that of one flipped check bit a correctable error of
the check word; that of two different flipped data bits uncorrectable. -/
def Obligations.BlockCodeMendsOneDataBit : Prop :=
  (∀ i j : Nat, i < 16 → j < 16 → blockVerdict (2 ^ i + 2 ^ (16 + j)) = .ceData i j) ∧ (∀ b : Nat, b < 32 → blockVerdict (2 ^ b) = .ceCheck) ∧
    blockVerdict 0 = .clean ∧
    (∀ i j k l : Nat, i < 16 → j < 16 → k < 16 → l < 16 → (i, j) ≠ (k, l) →
      blockVerdict ((2 ^ i + 2 ^ (16 + j)) ^^^ (2 ^ k + 2 ^ (16 + l))) = .ue)

/-- QUIESCE, SCRUB, RETURN and FLR that meet another state of the partition (R48, R352). A QUIESCE of a partition not IN_SERVICE
that no partial load is changing has no effect but the command register (a running load it ends, R48); a SCRUB of one
IN_SERVICE or QUIESCING is refused and sets REFUSED; a QUIESCE or FLR while a RETURN waits cancels it and sets REFUSED; a
RETURN during a quiesce is refused. -/
def Obligations.MeetingPartitionCommands : Prop :=
  ∀ (s : State) (p : Nat), p = s.fget Reg.partSelPart →
    ((s.partGet p).st ≠ .inService → (s.partGet p).returnWaits = false → s.volz.kind ≠ some (.part p) → exec .partQuiesce s = .next (s.fset Reg.partCtrlCmd 1)) ∧
    ((s.partGet p).st = .inService ∨ (s.partGet p).st = .quiescing →
      exec .partScrub s = .next ((s.fset Reg.partCtrlCmd 2).raise (Reg.partStatusRefused.sel p))) ∧
    ((s.partGet p).returnWaits = true → Completes (exec .partQuiesce s) (fun t => (t.partGet p).returnWaits = false ∧ t.fget (Reg.partStatusRefused.sel p) = 1)) ∧
    (∀ k : Nat, s.vfPart k = some p → (s.partGet p).returnWaits = true →
      Completes (exec (.vfFlr k) s) (fun t => (t.partGet p).returnWaits = false ∧ t.fget (Reg.partStatusRefused.sel p) = 1)) ∧
    (p < 32 → (s.partGet p).returnWaits = true →
      Completes (exec .pfFlr s) (fun t => (t.partGet p).returnWaits = false ∧ t.fget (Reg.partStatusRefused.sel p) = 1)) ∧
    ((s.partGet p).st = .quiescing → exec .partReturn s = .next ((s.fset Reg.partCtrlCmd 3).raise (Reg.partStatusRefused.sel p))) ∧
    (s.volz.kind = some (.part p) → Completes (exec .partQuiesce s) (fun t => t.volz.kind = none ∧ t.volzIdle = true ∧ t.fget Reg.volzResultCode = vrAborted))

/-- A PARTIAL during a load is refused with BUSY, and ABORT ends a load (R47). While VOLZ_STATUS.STATE is not IDLE, a PARTIAL
answers BUSY, raises REFUSED and leaves the load, its state and its image as they are; ABORT then ends the load of a host or
partition image with ABORTED and IDLE, and with no load running ABORT changes nothing. -/
def Obligations.OneVolzLoadAtATime : Prop :=
  ∀ (s : State) (part : Nat),
    (s.volzIdle = false → Completes (exec (.volzPartial part) s) (fun t => t.fget Reg.volzResultCode = vrBusy ∧ t.fget Reg.volzEventRefused = 1 ∧
      t.volz = s.volz ∧ t.fget Reg.volzStatusState = s.fget Reg.volzStatusState ∧ t.mem = s.mem)) ∧
    (s.volzIdle = false → s.volz.kind ≠ some .slotA → s.volz.kind ≠ some .slotB → Completes (exec .volzAbort s) (fun t => t.fget Reg.volzResultCode = vrAborted ∧
      t.volzIdle = true ∧ t.volz.kind = none)) ∧
    (s.volzIdle = true → exec .volzAbort s = .next s)

/-- Clock stops and starts of the debug block need SCOPE RUN and never reach the hub (R487, R492). Without SCOPE bit 0 in an
unlocked block, CLOCK_STOP and CLOCK_RUN answer SCOPE and change no clock region; with it, region 32 and above answer REGION
and change none. -/
def Obligations.ClockCommandsNeedScope : Prop :=
  ∀ (r k : Nat) (s : State),
    (s.scoped 0 = false → Completes (exec (.dbgClockStop r) s) (fun t => t.region k = s.region k ∧ t.fget Reg.dbgResultCode = dbScope) ∧
      Completes (exec (.dbgClockRun r) s) (fun t => t.region k = s.region k ∧ t.fget Reg.dbgResultCode = dbScope)) ∧
    (s.scoped 0 = true → 32 ≤ r % 64 → Completes (exec (.dbgClockStop r) s) (fun t => t.region k = s.region k ∧ t.fget Reg.dbgResultCode = dbRegion) ∧
      Completes (exec (.dbgClockRun r) s) (fun t => t.region k = s.region k ∧ t.fget Reg.dbgResultCode = dbRegion))

/-- The debug challenge is 32 random bytes, renewed at reset and at every unlock attempt (R486). After an unlock attempt through
DBG_CTRL or the TAP, accepted or refused, and after either reset, the challenge is 32 bytes of a draw of the random source
that no earlier state of the block had made. -/
def Obligations.ChallengeRenewsAtEveryAttempt : Prop :=
  ∀ (s t : State) (c : Instr) (err : Bool) (bytes : List Nat) (ns : Nat), 1000 ≤ ns →
    c = .dbgUnlock err bytes ∨ c = .tapUnlock bytes ∨ c = .perstNAssert ns ∨ c = .powerOnDetect → exec c s = .next t →
    ∃ k : Nat, s.freeCount ≤ k ∧ k < t.freeCount ∧ t.dbgState.challenge = randomBytes k ∧ t.dbgState.challenge.length = 32

/-- A visit of 2^AVG_LOG2 conversions gives their sum shifted right by SHIFT (R412). With no urgent conversion asked for, from a
channel of the sequence that is next and whose visit has not begun, the 2^AVG_LOG2 conversions of the visit leave in its
result register the sum of the codes shifted right by SHIFT, as the configuration stood when the visit began, in 22 bits,
and the visit ended. -/
def Obligations.AdcVisitGivesShiftedSum : Prop :=
  ∀ (s : State) (c : Nat) (codes : List Nat), s.nextChan = some c → s.adc.urgentRuns = false → s.adc.urgent = [] → c ∈ s.sequence → s.sequence.getLast? ≠ some c → (s.chan c).count = 0 → (s.chan c).sum = 0 →
    codes.length = 2 ^ s.fget (Reg.adcCfgAvgLog2.chan c) →
    ∃ t : State, s.runAll (codes.map (fun x => .adcConversionDone c x false)) = some t ∧ (t.chan c).count = 0 ∧
      t.fget (Reg.adcResultValue.chan c) = ((codes.map (· % 16384)).sum / 2 ^ s.fget (Reg.adcCfgShift.chan c)) % 2 ^ 22

/-- Where the TILE registers of a team stand (R80). Of team m, working tile k has each TILE register at its window + 0x2000 + k
× 0x100 plus the register’s offset, spare tile 32 at + 0x1800 and spare tile 33 at + 0x1900; each block is 0x100 bytes, so
no two overlap. -/
def Obligations.TileRegisterPlaces : Prop :=
  ∀ f ∈ Reg.tileRegs, ∀ m k : Nat, ∃ o : Nat, o < 0x100 ∧
    (k < 32 → (f.tile m k).addr = 0x1000000 + m * 0x4000 + 0x2000 + k * 0x100 + o) ∧ (f.tile m 32).addr = 0x1000000 + m * 0x4000 + 0x1800 + o ∧
    (f.tile m 33).addr = 0x1000000 + m * 0x4000 + 0x1900 + o

/-- A write of the host-area registers while a page lies in the host pool only sets HOST_BUSY (R196). While any page of the
partition lies in the host pool, a write of KV_P_HOST_LO, HI or FRAMES stores nothing and sets KV_ERR.HOST_BUSY; every other
register field and all other state stay. -/
def Obligations.HostAreaStaysWhilePagesLie : Prop :=
  ∀ (p which value : Nat) (s : State), (s.livePages p).any (fun e => e.2.tier == 2) = true →
    Completes (exec (.kvHostAreaWrite p which value) s) (fun t => t.fget Reg.kvErrHostBusy = 1 ∧ t.fget (Reg.kvPHostLo.kvPart p) = s.fget (Reg.kvPHostLo.kvPart p) ∧
      t.fget (Reg.kvPHostHi.kvPart p) = s.fget (Reg.kvPHostHi.kvPart p) ∧ t.fget (Reg.kvPHostFrames.kvPart p) = s.fget (Reg.kvPHostFrames.kvPart p) ∧
      t.kv = s.kv ∧ t.mem = s.mem)

/-- A narrow or misaligned register write is discarded, and a narrow read acts as one of the whole word (R4). A register write
that is not 4 or 8 bytes, or not aligned to its size, changes nothing; a read of 1 or 2 bytes inside a word answers the
word’s own bytes and leaves the state that a read of the whole word leaves. -/
def Obligations.NarrowWritesAreDiscarded : Prop :=
  ∀ (fn bar off n value a : Nat) (sel : Option Nat) (s : State),
    ((n ≠ 4 ∧ n ≠ 8) ∨ off % n ≠ 0 → exec (.registerWrite fn bar off n value false) s = .next s) ∧
    (off % 4 + n ≤ 4 → (bar = 2 → off < 0x4000000) → s.land fn bar (off / 4 * 4) = some (.reg a sel) →
      exec (.readClearCounter fn bar off n) s = .next ((s.readReg (s.landedWord a sel)).2.send
        (.completion 0 (slice (leBytes 4 (s.readReg (s.landedWord a sel)).1) (off % 4) n))))

/-- What a host write does to a field of each access type (R5, R6, R8). A read-only field keeps its value; a W1C field loses
exactly the bits written 1 and a W1S field gains exactly those; an RWL field keeps its value while BOOT_LOCK is 1; an RW
field whose register holds no bound takes the written bits. No other field changes. -/
def Obligations.StoredFieldsFollowTheirAccess : Prop :=
  ∀ (s : State) (w : RegWord) (v : Nat) (f g : Fld), s.fget f < f.card →
    (f.acc = .ro → s.storeField w v f = s) ∧
    (f.acc = .w1c → ∀ b : Nat, ((s.storeField w v f).fget f).testBit b = ((s.fget f).testBit b && !(v / 2 ^ f.lsb % f.card).testBit b)) ∧
    (f.acc = .w1s → ∀ b : Nat, ((s.storeField w v f).fget f).testBit b = ((s.fget f).testBit b || (v / 2 ^ f.lsb % f.card).testBit b)) ∧
    (f.acc = .rwl → s.fget Reg.rstStatusBootLock = 1 → s.storeField w v f = s) ∧
    (f.acc = .rw → storedValue w f (v / 2 ^ f.lsb % f.card) = v / 2 ^ f.lsb % f.card → (s.storeField w v f).fget f = v / 2 ^ f.lsb % f.card) ∧
    (g.key ≠ f.key → (s.storeField w v f).fget g = s.fget g)

/-- A failed tile test retires the tile, a failed team test takes the team out of service, each with a DF record (R464). A tile
test that fails on a spare or taken-over tile retires the tile with reason COMMAND, and the IFT_TILE_FAIL record of severity
DF is handled as every dangerous fault; a failed team test loses the team as OUTRIDER_FAULT does, with its IFT_TEAM_FAIL
record. -/
def Obligations.FailedFieldTestEndsService : Prop :=
  ∀ (m k fail : Nat) (s u : State),
    (s.tileTest m k = 3 ∨ 80 ≤ s.tileTest m k → (s.team m).roleOf k = none → u = ((s.countTest m true).setTileTest m k 0).retire m k frCommand 512 →
      exec (.tileIftComplete m k (fail + 1)) s = .next ((u.danger 2 7 0x12 (unitTile m k) [k, fail + 1] (u.teamScope m)
        (testSince u.safety.tilePass (m * 64 + k) u.boot.readyAt)).showTeam m)) ∧
    (s.teamTest m = 3 → u = ((s.setTeamTest m 0).countTest m true).loseTeam m →
      exec (.teamTestComplete m (fail + 1)) s = .next ((u.danger 2 6 0x13 (unitTeam m) [fail + 1] (u.teamScope m)
        (testSince u.safety.teamPass m u.boot.readyAt)).showTeam m))

/-- From READY on a set of the waymark is ignored and SET_REFUSED is set (R372). In READY a WAY_CTRL.SET raises
WAY_ERR.SET_REFUSED and changes nothing else; before READY a second set of one acquisition is ignored, as the model reads
the rule (log 42). -/
def Obligations.WaymarkSetAfterReadyRefused : Prop :=
  ∀ s : State, (s.stage = stReady → exec .waySet s = .next (s.raise Reg.wayErrSetRefused)) ∧
    (s.stage < stReady → s.clocks.way.setUsed = true → exec .waySet s = .next s)

/-- At the fail limit the end of NV_LOAD enters paddock mode with REASON LIMIT (R433). When FAIL_COUNT stands at or above
FAIL_LIMIT at the end of NV_LOAD with a readable store, the device enters paddock mode at once, with REASON LIMIT and boot
lock set, and leaves the count. -/
def Obligations.FailLimitEntersPaddock : Prop :=
  ∀ s : State, s.stage = stNvLoad → s.paddock = false → s.nvOk = true → s.nv.userNv = none → s.failLimit ≤ s.nv.failCount →
    Completes (exec .nvLoadEnd s) (fun t => t.paddock = true ∧ t.fget Reg.rstStatusReason = 4 ∧ t.fget Reg.rstStatusBootLock = 1 ∧ t.nv.failCount = s.nv.failCount)

/-- A control message whose check fails only counts in TOR_CTRL_CRC (R316). On a port that is up, while the hub’s clock runs,
every control message that arrives with a bad check changes nothing but the count TOR_CTRL_CRC; on a port that is not up, or
with the hub’s clock stopped, it changes nothing. -/
def Obligations.BadCrcCountsOnly : Prop :=
  ∀ (p x y z w k l m n : Nat) (h : CtrlHdr) (s : State) (c : Instr),
    c ∈ [.ack p false h x, .revoke p false h x y z, .revoked p false h x y z, .readmit p false h x y z w, .linkState p false h x y z w, .waySync p false h x y z,
      .wayReply p false h x y z w k l m n, .collStep p false h x y z w k l, .collAck p false h x y z, .collAbort p false h x y z w, .relayStart p false h x y z w k l,
      .relayEnd p false h x y, .relayAck p false h x y, .expertCall p false h x y z w k l m, .expertDone p false h x y z] →
    exec c s = .next (if s.linkUp p && !s.hubStopped then s.bump Reg.torCtrlCrc else s)

/-- A message of a revoked incarnation is fenced and not acted on (R321). A good message for this package whose sender’s
incarnation is revoked is counted and recorded as fenced on its port, and has no effect of its own: shown for ACK,
LINK_STATE and COLL_ABORT. -/
def Obligations.RevokedSenderIsFenced : Prop :=
  ∀ (p x y z w : Nat) (h : CtrlHdr) (s u : State) (c : Instr), c ∈ [.ack p true h x, .linkState p true h x y z w, .collAbort p true h x y z w] →
    s.linkUp p = true → s.hubStopped = false → h.dstPos = 0xFFFF ∨ h.dstPos = s.position → u = s.seenReset h.srcPos h.srcUnit h.srcInc →
    u.isRevoked h.srcPos h.srcUnit h.srcInc = true → exec c s = .next (u.fence p h.srcPos h.srcUnit h.srcInc)

/-- Once the trace is frozen or stopped its ring does not change (R496). In FROZEN or STOPPED, an entry that reaches the hub, a
trigger and an edge of TRIG_IN leave the ring, its head and the written count as they are; in FROZEN the entry counts as
lost. -/
def Obligations.FrozenTraceKeepsItsRing : Prop :=
  ∀ (source pin : Nat) (s t : State) (c : Instr), s.fget Reg.trcStatusState = trcFrozen ∨ s.fget Reg.trcStatusState = trcStopped →
    c ∈ [.traceEntryWrite source, .trcTrigger, .traceTrigInEdge pin] → exec c s = .next t →
    t.trace.buf = s.trace.buf ∧ t.fget Reg.trcStatusHead = s.fget Reg.trcStatusHead ∧ t.fget Reg.trcWritten = s.fget Reg.trcWritten ∧
      t.fget Reg.trcStatusState = s.fget Reg.trcStatusState

/-- A masked or resting MSI-X vector only sets its pending state; an open one sends and clears it (R347). While the hub’s clock
runs, an event at a vector that is masked, inside its moderation interval or of a function whose MSI-X is not enabled sends
nothing and sets the pending state; at an open vector the message is sent, the pending state is clear and the interval runs
where the vector has one. -/
def Obligations.MaskedVectorsOnlyPend : Prop :=
  ∀ (s : State) (fn vec : Nat), (Map.get {} s.clocks.regions 32).stopped = false →
    ((s.vecGet fn vec).mask = true ∨ (s.vecGet fn vec).running = true ∨ s.msixOn fn = false → ((s.vecEvent fn vec).vecGet fn vec).pending = true ∧ (s.vecEvent fn vec).out = s.out) ∧
    ((s.vecGet fn vec).mask = false → (s.vecGet fn vec).running = false → s.msixOn fn = true → ((s.vecEvent fn vec).vecGet fn vec).pending = false ∧
      (s.vecEvent fn vec).out = s.out ++ [.msix fn vec] ∧ ((s.vecEvent fn vec).vecGet fn vec).running = (s.modInterval fn vec != 0))

/-- Every dangerous fault asserts FAULT_N and writes its record (R454, R458). The shared operation for a fault of severity DF or
FATAL drives FAULT_N, counts the fault, and the log’s next record number is one higher; lockstep, clock-monitor and
voltage-monitor faults go through it, so FAULT_N stands after each. -/
def Obligations.DangerAssertsFaultN : Prop :=
  ∀ (s t : State) (c : Instr) (pair k mv : Nat) (pll over_ : Bool),
    (c = .lockstepMismatch pair ∨ (c = .clockMonitorFail pll ∧ s.clocks.monSeen.contains pll = false) ∨ (c = .voltMonitorTrip k over_ mv ∧ k ≤ 16 ∧ (k = 10 ∨ (s.rail k).on = true) ∧ s.crosses k over_ mv = true)) →
    exec c s = .next t → t.fget Reg.safeStatusFaultN = 1 ∧ s.safety.dfCount < t.safety.dfCount

/-- A causeway goes round CLOSED, OPENING, OPEN and CLOSING only (R298). OPEN of a causeway moves it from CLOSED to OPENING
where a port of its axis has a policy other than UNUSED, and nowhere else; HOLD from OPEN to CLOSING; a confirmation from
OPENING to OPEN and from CLOSING to CLOSED; a missing confirmation from OPENING to CLOSING; in every other state each leaves
it. -/
def Obligations.CausewayStates : Prop :=
  ∀ (a : Nat) (s t : State) (c : Instr), a < 3 → s.ready = true → exec c s = .next t →
    (c = .cwayOpen a → t.cway a = if s.cway a = cwClosed ∧ (s.policy (2 * a) ≠ 0 ∨ s.policy (2 * a + 1) ≠ 0) then cwOpening else s.cway a) ∧
    (c = .cwayClose a → t.cway a = if s.cway a = cwOpen then cwClosing else s.cway a) ∧
    (c = .cwayConfirm a → t.cway a = if s.cway a = cwOpening then cwOpen else if s.cway a = cwClosing then cwClosed else s.cway a) ∧
    (c = .cwayConfirmTimeout a → t.cway a = if s.cway a = cwOpening then cwClosing else s.cway a)

/-- DRAM_RETIRE answers one of four codes and retires only with DONE (R284). A unit or bank already retired answers ALREADY, one
the device reserves RESERVED, a full list FULL, each with the lists unchanged; otherwise the unit or bank is added to the
list and the answer is DONE. -/
def Obligations.DramRetireAnswers : Prop :=
  ∀ (kind index k i : Nat) (s : State), k = kind % 2 → i = index % 2 ^ 23 →
    Completes (exec (.dramRetire kind index) s) (fun t => t.mem = s.mem ∧
      t.fget Reg.dramRetireResultCode = (if s.isRetired k i then retAlready else if retireReserved k i then retReserved else if s.retireFull k then retFull else retDone) ∧
      (t.nv.units ≠ s.nv.units ∨ t.nv.banks ≠ s.nv.banks → t.fget Reg.dramRetireResultCode = retDone ∧ t.isRetired k i = true))

/-- ARM, PAUSE, RESUME and RELEASE change no other slot, no memory and no store (R230, R233). Whatever state a slot command
finds, PAUSE, RESUME and RELEASE of slot g, and ARM where the descriptor is stored without an error, leave every other slot,
every byte of memory, the non-volatile store, the teams, the tiles and the clock regions as they are. -/
def Obligations.FrameOfSlotCommands : Prop :=
  ∀ (g k : Nat) (s t : State) (c : Instr), c ∈ [.arm g, .pause g, .resume g, .release g] → c ≠ .arm g ∨ s.cleanAt [(descAddr g, 256)] → exec c s = .next t → k ≠ g →
    t.slot k = s.slot k ∧ (∀ a : Nat, t.readByte a = s.readByte a) ∧ t.nv = s.nv ∧ t.teams = s.teams ∧ t.tiles = s.tiles ∧ t.clocks = s.clocks

/-- NOP, ADDA, LOOP, SIGNAL and WAITF change no memory, no slot and no other string’s registers (R184). Of string x, NOP, ADDA,
LOOP, SIGNAL and WAITF leave memory, the store, slots, caches, teams and clock regions as they are, and the address
registers, code position and loops of every other string; ADDA alone changes an address register of x, and only the one it
names. -/
def Obligations.FrameOfFlowInstructions : Prop :=
  ∀ (x a str flag count len k r : Nat) (imm : Int) (s t : State) (c : Instr), c ∈ [.nop x, .adda x a imm, .loop x count len, .signal x str flag, .waitf x flag count] →
    exec c s = .next t → (∀ b : Nat, t.readByte b = s.readByte b) ∧ t.nv = s.nv ∧ t.slots = s.slots ∧ t.kv = s.kv ∧ t.teams = s.teams ∧ t.clocks = s.clocks ∧
    (k ≠ x → (t.seq k).regs = (s.seq k).regs ∧ (t.seq k).pos = (s.seq k).pos ∧ (t.seq k).loops = (s.seq k).loops) ∧
    (c = .adda x a imm → r ≠ a → (t.seq x).a r = (s.seq x).a r) ∧ (c ≠ .adda x a imm → (t.seq x).regs = (s.seq x).regs)

/-- An elementwise vector operation changes only its destination bytes and its string (R181, R182). A VU COPY, ADD, MUL or MAX
that issues on reachable, error-free operands leaves every byte outside its destination as it reads, and the store, caches,
slots, teams, clock regions and every other string as they are. -/
def Obligations.FrameOfVectorOperations : Prop :=
  ∀ (x team a b d count k e : Nat) (half : Bool) (s t : State) (y : Step) (c : Instr) (reads : List (Nat × Nat)),
    (c = .vuCopy x team half a d count ∧ reads = [((s.seq x).a a, elemBytes half * count)]) ∨
      (c ∈ [.vuAdd x team half a b d count, .vuMul x team half a b d count, .vuMax x team half a b d count] ∧
        reads = [((s.seq x).a a, elemBytes half * count), ((s.seq x).a b, elemBytes half * count)]) →
    s.seqStep x = some y → s.issues x ⟨0x30, reads, [((s.seq x).a d, elemBytes half * count)]⟩ → s.queueStall (24 * x + team % 24) = none →
    s.firstBad y.part (reads ++ [((s.seq x).a d, elemBytes half * count)]) = none → s.cleanAt (reads ++ [((s.seq x).a d, elemBytes half * count)]) →
    exec c s = .next t → (e < (s.seq x).a d ∨ (s.seq x).a d + elemBytes half * count ≤ e → t.readByte e = s.readByte e) ∧ t.nv = s.nv ∧ t.kv = s.kv ∧
    t.slots = s.slots ∧ t.teams = s.teams ∧ t.clocks = s.clocks ∧ (k ≠ x → t.seq k = s.seq k)

/-- Register accesses of a host change no memory, slot, cache, string, team or clock region (R4, R7). A register write of any
function, and a read of a counter or of a _LO register (in a BAR other than BAR2, whose descriptor and gate pages are
memory), leave every byte of memory and all slots, caches, strings, teams, tiles and clock regions as they are; a read
leaves the non-volatile store as well. -/
def Obligations.FrameOfRegisterAccesses : Prop :=
  ∀ (fn bar off n value : Nat) (p : Bool) (s t : State) (c : Instr), (c = .registerWrite fn bar off n value p ∨ bar ≠ 2) → c ∈ [.registerWrite fn bar off n value p, .readClearCounter fn bar off n, .latchingLoRead fn bar off n] →
    exec c s = .next t → (∀ a : Nat, t.readByte a = s.readByte a) ∧ t.slots = s.slots ∧ t.kv = s.kv ∧ t.seqs = s.seqs ∧ t.teams = s.teams ∧ t.tiles = s.tiles ∧
    t.clocks = s.clocks ∧ (c ≠ .registerWrite fn bar off n value p → t.nv = s.nv)

/-- TAP pin instructions write no register, and a region event changes one region (R368, R370, R485). IDCODE, BYPASS, CLAMP,
EXTEST and SAMPLE leave every register, all memory and the store as they are; a droop trip, the end of a stretch and a
restart of region r leave every other region and all memory as they are. -/
def Obligations.FrameOfTapAndRegionEvents : Prop :=
  ∀ (n cells r k mv : Nat) (s t : State) (c : Instr), exec c s = .next t →
    (c ∈ [.idcode, .bypass, .clamp, .extest n cells, .samplePreload n cells, .tapReset, .tapChallenge] → t.fields = s.fields ∧ t.mem = s.mem ∧ t.nv = s.nv) ∧
    (c ∈ [.droopTrip r mv, .stretchEnd r, .regionRestart r] → k ≠ r → t.region k = s.region k ∧ t.mem = s.mem)
end

