-- ==== Sys2Proof/Laws/Maps.lean ====
section
/-!
SUPPORT. What sparse maps do: a read after a write, and the canonical form.
-/
set_option Elab.async false
namespace Sys2Proof.Machine

variable {α : Type}

theorem Map.get_insert_same (d : α) (m : SMap α) (a : Nat) (v : α) : Map.get d (Map.insert m a v) a = v := by
  induction m with
  | nil => simp [Map.insert, Map.get]
  | cons e m ih =>
    obtain ⟨k, w⟩ := e
    simp only [Map.insert]
    split
    · simp [Map.get]
    · split
      · simp [Map.get]
      · have h : k ≠ a := by omega
        simp [Map.get, h, ih]

theorem Map.get_insert_ne (d : α) (m : SMap α) {a b : Nat} (v : α) (h : a ≠ b) :
    Map.get d (Map.insert m a v) b = Map.get d m b := by
  induction m with
  | nil => simp [Map.insert, Map.get, h]
  | cons e m ih =>
    obtain ⟨k, w⟩ := e
    simp only [Map.insert]
    split
    · simp [Map.get, h]
    · split
      · next h1 h2 => subst h2; simp [Map.get, h]
      · simp only [Map.get, ih]

theorem Map.get_erase_same (d : α) (m : SMap α) (a : Nat) : Map.get d (Map.erase m a) a = d := by
  induction m with
  | nil => rfl
  | cons e m ih =>
    obtain ⟨k, w⟩ := e
    by_cases h : k = a
    · simpa [Map.erase, h] using ih
    · simpa [Map.erase, h, Map.get] using ih

theorem Map.get_erase_ne (d : α) (m : SMap α) {a b : Nat} (h : a ≠ b) : Map.get d (Map.erase m a) b = Map.get d m b := by
  induction m with
  | nil => rfl
  | cons e m ih =>
    obtain ⟨k, w⟩ := e
    simp only [Map.erase] at ih
    by_cases hk : k = a
    · have hb : k ≠ b := by omega
      simp [Map.erase, hk, Map.get, ih, h]
    · simp [Map.erase, hk, Map.get, ih]

/-- A read of the key just written answers the value written. -/
@[simp] theorem Map.get_set_same [DecidableEq α] (d : α) (m : SMap α) (a : Nat) (v : α) :
    Map.get d (Map.set d m a v) a = v := by
  unfold Map.set
  split
  · next h => rw [Map.get_erase_same, h]
  · rw [Map.get_insert_same]

/-- A read of another key answers what it answered before, whatever the defaults. -/
theorem Map.get_set_ne [DecidableEq α] (d d' : α) (m : SMap α) {a b : Nat} (v : α) (h : a ≠ b) :
    Map.get d' (Map.set d m a v) b = Map.get d' m b := by
  unfold Map.set
  split
  · exact Map.get_erase_ne d' m h
  · exact Map.get_insert_ne d' m v h

theorem Map.above_insert {k : Nat} {m : SMap α} {a : Nat} {v : α} (h : Map.above k m) (ha : k < a) :
    Map.above k (Map.insert m a v) := by
  induction m with
  | nil => simp [Map.insert, Map.above, ha]
  | cons e m ih =>
    obtain ⟨j, w⟩ := e
    simp only [Map.above, List.all_cons, Bool.and_eq_true, decide_eq_true_eq] at h ih
    simp only [Map.insert]
    split
    · simp [Map.above, ha, h.1]; simpa [Map.above] using h.2
    · split
      · simp [Map.above, ha]; simpa [Map.above] using h.2
      · have := ih h.2
        simp [Map.above, h.1]; simpa [Map.above] using this

theorem Map.above_mono {j k : Nat} {m : SMap α} (h : Map.above k m) (hj : j ≤ k) : Map.above j m := by
  simp only [Map.above, List.all_eq_true, decide_eq_true_eq] at *
  intro e he
  have := h e he
  omega

theorem Map.above_erase {k : Nat} {m : SMap α} (a : Nat) (h : Map.above k m) : Map.above k (Map.erase m a) := by
  simp only [Map.above, Map.erase, List.all_eq_true, decide_eq_true_eq, List.mem_filter] at *
  exact fun e he => h e he.1

theorem Map.sorted_insert {m : SMap α} {a : Nat} {v : α} (h : Map.sorted m) : Map.sorted (Map.insert m a v) := by
  induction m with
  | nil => simp [Map.insert, Map.sorted, Map.above]
  | cons e m ih =>
    obtain ⟨k, w⟩ := e
    simp only [Map.sorted, Bool.and_eq_true] at h
    simp only [Map.insert]
    split
    · next hk =>
      simp only [Map.sorted, Bool.and_eq_true]
      refine ⟨?_, h.1, h.2⟩
      have := Map.above_mono h.1 (Nat.le_of_lt hk)
      simp only [Map.above, List.all_cons, Bool.and_eq_true, decide_eq_true_eq]
      exact ⟨hk, by simpa [Map.above] using this⟩
    · split
      · next hk => subst hk; simpa [Map.sorted] using h
      · next h1 h2 =>
        simp only [Map.sorted, Bool.and_eq_true]
        exact ⟨Map.above_insert h.1 (by omega), ih h.2⟩

theorem Map.sorted_erase {m : SMap α} (a : Nat) (h : Map.sorted m) : Map.sorted (Map.erase m a) := by
  induction m with
  | nil => simp [Map.erase, Map.sorted]
  | cons e m ih =>
    obtain ⟨k, w⟩ := e
    simp only [Map.sorted, Bool.and_eq_true] at h
    by_cases hk : k = a
    · simpa [Map.erase, hk] using ih h.2
    · have h1 := Map.above_erase a h.1
      have h2 := ih h.2
      simp only [Map.erase] at h1 h2
      simp [Map.erase, hk, Map.sorted, h1, h2]

/-- A write keeps the canonical form. -/
theorem Map.wf_set [DecidableEq α] {d : α} {m : SMap α} (a : Nat) (v : α) (h : Map.wf d m) : Map.wf d (Map.set d m a v) := by
  simp only [Map.wf, Bool.and_eq_true] at *
  unfold Map.set
  split
  · refine ⟨Map.sorted_erase a h.1, ?_⟩
    simp only [Map.erase, List.all_eq_true, List.mem_filter] at *
    exact fun e he => h.2 e he.1
  · next hv =>
    refine ⟨Map.sorted_insert h.1, ?_⟩
    have hm := h.2
    clear h
    induction m with
    | nil => simp [Map.insert, hv]
    | cons e m ih =>
      obtain ⟨k, w⟩ := e
      simp only [List.all_cons, Bool.and_eq_true, decide_eq_true_eq] at hm
      simp only [Map.insert]
      split
      · simp [hv, hm.1]; simpa using hm.2
      · split
        · simp [hv]; simpa using hm.2
        · have := ih hm.2
          simp [hm.1]; simpa using this

end Sys2Proof.Machine
end

