-- ==== Sys2Proof/Laws/State.lean ====
section
/-!
SUPPORT. What each plain update of the state leaves alone, one lemma per field, and what a register read finds after a write.
-/
namespace Sys2Proof.Machine

set_option Elab.async false

variable (s : State)

@[simp] theorem State.fset_pending (f : Fld) (v : Nat) : (s.fset f v).pending = s.pending := rfl
@[simp] theorem State.fset_now (f : Fld) (v : Nat) : (s.fset f v).now = s.now := rfl
@[simp] theorem State.fset_latched (f : Fld) (v : Nat) : (s.fset f v).latched = s.latched := rfl
@[simp] theorem State.fset_mem (f : Fld) (v : Nat) : (s.fset f v).mem = s.mem := rfl
@[simp] theorem State.fset_stale (f : Fld) (v : Nat) : (s.fset f v).stale = s.stale := rfl
@[simp] theorem State.fset_syndromes (f : Fld) (v : Nat) : (s.fset f v).syndromes = s.syndromes := rfl
@[simp] theorem State.fset_hardBlocks (f : Fld) (v : Nat) : (s.fset f v).hardBlocks = s.hardBlocks := rfl
@[simp] theorem State.fset_softCe (f : Fld) (v : Nat) : (s.fset f v).softCe = s.softCe := rfl
@[simp] theorem State.fset_hardTable (f : Fld) (v : Nat) : (s.fset f v).hardTable = s.hardTable := rfl
@[simp] theorem State.fset_sweeps (f : Fld) (v : Nat) : (s.fset f v).sweeps = s.sweeps := rfl
@[simp] theorem State.fset_retireWaits (f : Fld) (v : Nat) : (s.fset f v).retireWaits = s.retireWaits := rfl
@[simp] theorem State.fset_out (f : Fld) (v : Nat) : (s.fset f v).out = s.out := rfl
@[simp] theorem State.fset_freeCount (f : Fld) (v : Nat) : (s.fset f v).freeCount = s.freeCount := rfl
@[simp] theorem State.fset_safety (f : Fld) (v : Nat) : (s.fset f v).safety = s.safety := rfl
@[simp] theorem State.fset_volz (f : Fld) (v : Nat) : (s.fset f v).volz = s.volz := rfl
@[simp] theorem State.fset_parts (f : Fld) (v : Nat) : (s.fset f v).parts = s.parts := rfl
@[simp] theorem State.fset_scrubs (f : Fld) (v : Nat) : (s.fset f v).scrubs = s.scrubs := rfl
@[simp] theorem State.fset_pci (f : Fld) (v : Nat) : (s.fset f v).pci = s.pci := rfl
@[simp] theorem State.fset_vectors (f : Fld) (v : Nat) : (s.fset f v).vectors = s.vectors := rfl
@[simp] theorem State.fset_slots (f : Fld) (v : Nat) : (s.fset f v).slots = s.slots := rfl
@[simp] theorem State.fset_steps (f : Fld) (v : Nat) : (s.fset f v).steps = s.steps := rfl
@[simp] theorem State.fset_nextStep (f : Fld) (v : Nat) : (s.fset f v).nextStep = s.nextStep := rfl
@[simp] theorem State.fset_kv (f : Fld) (v : Nat) : (s.fset f v).kv = s.kv := rfl
@[simp] theorem State.fset_nv (f : Fld) (v : Nat) : (s.fset f v).nv = s.nv := rfl
@[simp] theorem State.fset_boot (f : Fld) (v : Nat) : (s.fset f v).boot = s.boot := rfl
@[simp] theorem State.fset_sec (f : Fld) (v : Nat) : (s.fset f v).sec = s.sec := rfl
@[simp] theorem State.fset_pins (f : Fld) (v : Nat) : (s.fset f v).pins = s.pins := rfl
@[simp] theorem State.fset_power (f : Fld) (v : Nat) : (s.fset f v).power = s.power := rfl
@[simp] theorem State.fset_thermal (f : Fld) (v : Nat) : (s.fset f v).thermal = s.thermal := rfl
@[simp] theorem State.fset_adc (f : Fld) (v : Nat) : (s.fset f v).adc = s.adc := rfl
@[simp] theorem State.fset_clocks (f : Fld) (v : Nat) : (s.fset f v).clocks = s.clocks := rfl
@[simp] theorem State.fset_tiles (f : Fld) (v : Nat) : (s.fset f v).tiles = s.tiles := rfl
@[simp] theorem State.fset_teams (f : Fld) (v : Nat) : (s.fset f v).teams = s.teams := rfl
@[simp] theorem State.fset_seqs (f : Fld) (v : Nat) : (s.fset f v).seqs = s.seqs := rfl
@[simp] theorem State.fset_loads (f : Fld) (v : Nat) : (s.fset f v).loads = s.loads := rfl
@[simp] theorem State.fset_trace (f : Fld) (v : Nat) : (s.fset f v).trace = s.trace := rfl
@[simp] theorem State.fset_dbgState (f : Fld) (v : Nat) : (s.fset f v).dbgState = s.dbgState := rfl
@[simp] theorem State.fset_torus (f : Fld) (v : Nat) : (s.fset f v).torus = s.torus := rfl
@[simp] theorem State.fset_admissions (f : Fld) (v : Nat) : (s.fset f v).admissions = s.admissions := rfl
@[simp] theorem State.fset_fabric (f : Fld) (v : Nat) : (s.fset f v).fabric = s.fabric := rfl

@[simp] theorem State.raise_pending (f : Fld) : (s.raise f).pending = s.pending := rfl
@[simp] theorem State.raise_now (f : Fld) : (s.raise f).now = s.now := rfl
@[simp] theorem State.raise_latched (f : Fld) : (s.raise f).latched = s.latched := rfl
@[simp] theorem State.raise_mem (f : Fld) : (s.raise f).mem = s.mem := rfl
@[simp] theorem State.raise_stale (f : Fld) : (s.raise f).stale = s.stale := rfl
@[simp] theorem State.raise_syndromes (f : Fld) : (s.raise f).syndromes = s.syndromes := rfl
@[simp] theorem State.raise_hardBlocks (f : Fld) : (s.raise f).hardBlocks = s.hardBlocks := rfl
@[simp] theorem State.raise_softCe (f : Fld) : (s.raise f).softCe = s.softCe := rfl
@[simp] theorem State.raise_hardTable (f : Fld) : (s.raise f).hardTable = s.hardTable := rfl
@[simp] theorem State.raise_sweeps (f : Fld) : (s.raise f).sweeps = s.sweeps := rfl
@[simp] theorem State.raise_retireWaits (f : Fld) : (s.raise f).retireWaits = s.retireWaits := rfl
@[simp] theorem State.raise_out (f : Fld) : (s.raise f).out = s.out := rfl
@[simp] theorem State.raise_freeCount (f : Fld) : (s.raise f).freeCount = s.freeCount := rfl
@[simp] theorem State.raise_safety (f : Fld) : (s.raise f).safety = s.safety := rfl
@[simp] theorem State.raise_volz (f : Fld) : (s.raise f).volz = s.volz := rfl
@[simp] theorem State.raise_parts (f : Fld) : (s.raise f).parts = s.parts := rfl
@[simp] theorem State.raise_scrubs (f : Fld) : (s.raise f).scrubs = s.scrubs := rfl
@[simp] theorem State.raise_pci (f : Fld) : (s.raise f).pci = s.pci := rfl
@[simp] theorem State.raise_vectors (f : Fld) : (s.raise f).vectors = s.vectors := rfl
@[simp] theorem State.raise_slots (f : Fld) : (s.raise f).slots = s.slots := rfl
@[simp] theorem State.raise_steps (f : Fld) : (s.raise f).steps = s.steps := rfl
@[simp] theorem State.raise_nextStep (f : Fld) : (s.raise f).nextStep = s.nextStep := rfl
@[simp] theorem State.raise_kv (f : Fld) : (s.raise f).kv = s.kv := rfl
@[simp] theorem State.raise_nv (f : Fld) : (s.raise f).nv = s.nv := rfl
@[simp] theorem State.raise_boot (f : Fld) : (s.raise f).boot = s.boot := rfl
@[simp] theorem State.raise_sec (f : Fld) : (s.raise f).sec = s.sec := rfl
@[simp] theorem State.raise_pins (f : Fld) : (s.raise f).pins = s.pins := rfl
@[simp] theorem State.raise_power (f : Fld) : (s.raise f).power = s.power := rfl
@[simp] theorem State.raise_thermal (f : Fld) : (s.raise f).thermal = s.thermal := rfl
@[simp] theorem State.raise_adc (f : Fld) : (s.raise f).adc = s.adc := rfl
@[simp] theorem State.raise_clocks (f : Fld) : (s.raise f).clocks = s.clocks := rfl
@[simp] theorem State.raise_tiles (f : Fld) : (s.raise f).tiles = s.tiles := rfl
@[simp] theorem State.raise_teams (f : Fld) : (s.raise f).teams = s.teams := rfl
@[simp] theorem State.raise_seqs (f : Fld) : (s.raise f).seqs = s.seqs := rfl
@[simp] theorem State.raise_loads (f : Fld) : (s.raise f).loads = s.loads := rfl
@[simp] theorem State.raise_trace (f : Fld) : (s.raise f).trace = s.trace := rfl
@[simp] theorem State.raise_dbgState (f : Fld) : (s.raise f).dbgState = s.dbgState := rfl
@[simp] theorem State.raise_torus (f : Fld) : (s.raise f).torus = s.torus := rfl
@[simp] theorem State.raise_admissions (f : Fld) : (s.raise f).admissions = s.admissions := rfl
@[simp] theorem State.raise_fabric (f : Fld) : (s.raise f).fabric = s.fabric := rfl

@[simp] theorem State.clear_pending (f : Fld) : (s.clear f).pending = s.pending := rfl
@[simp] theorem State.clear_now (f : Fld) : (s.clear f).now = s.now := rfl
@[simp] theorem State.clear_latched (f : Fld) : (s.clear f).latched = s.latched := rfl
@[simp] theorem State.clear_mem (f : Fld) : (s.clear f).mem = s.mem := rfl
@[simp] theorem State.clear_stale (f : Fld) : (s.clear f).stale = s.stale := rfl
@[simp] theorem State.clear_syndromes (f : Fld) : (s.clear f).syndromes = s.syndromes := rfl
@[simp] theorem State.clear_hardBlocks (f : Fld) : (s.clear f).hardBlocks = s.hardBlocks := rfl
@[simp] theorem State.clear_softCe (f : Fld) : (s.clear f).softCe = s.softCe := rfl
@[simp] theorem State.clear_hardTable (f : Fld) : (s.clear f).hardTable = s.hardTable := rfl
@[simp] theorem State.clear_sweeps (f : Fld) : (s.clear f).sweeps = s.sweeps := rfl
@[simp] theorem State.clear_retireWaits (f : Fld) : (s.clear f).retireWaits = s.retireWaits := rfl
@[simp] theorem State.clear_out (f : Fld) : (s.clear f).out = s.out := rfl
@[simp] theorem State.clear_freeCount (f : Fld) : (s.clear f).freeCount = s.freeCount := rfl
@[simp] theorem State.clear_safety (f : Fld) : (s.clear f).safety = s.safety := rfl
@[simp] theorem State.clear_volz (f : Fld) : (s.clear f).volz = s.volz := rfl
@[simp] theorem State.clear_parts (f : Fld) : (s.clear f).parts = s.parts := rfl
@[simp] theorem State.clear_scrubs (f : Fld) : (s.clear f).scrubs = s.scrubs := rfl
@[simp] theorem State.clear_pci (f : Fld) : (s.clear f).pci = s.pci := rfl
@[simp] theorem State.clear_vectors (f : Fld) : (s.clear f).vectors = s.vectors := rfl
@[simp] theorem State.clear_slots (f : Fld) : (s.clear f).slots = s.slots := rfl
@[simp] theorem State.clear_steps (f : Fld) : (s.clear f).steps = s.steps := rfl
@[simp] theorem State.clear_nextStep (f : Fld) : (s.clear f).nextStep = s.nextStep := rfl
@[simp] theorem State.clear_kv (f : Fld) : (s.clear f).kv = s.kv := rfl
@[simp] theorem State.clear_nv (f : Fld) : (s.clear f).nv = s.nv := rfl
@[simp] theorem State.clear_boot (f : Fld) : (s.clear f).boot = s.boot := rfl
@[simp] theorem State.clear_sec (f : Fld) : (s.clear f).sec = s.sec := rfl
@[simp] theorem State.clear_pins (f : Fld) : (s.clear f).pins = s.pins := rfl
@[simp] theorem State.clear_power (f : Fld) : (s.clear f).power = s.power := rfl
@[simp] theorem State.clear_thermal (f : Fld) : (s.clear f).thermal = s.thermal := rfl
@[simp] theorem State.clear_adc (f : Fld) : (s.clear f).adc = s.adc := rfl
@[simp] theorem State.clear_clocks (f : Fld) : (s.clear f).clocks = s.clocks := rfl
@[simp] theorem State.clear_tiles (f : Fld) : (s.clear f).tiles = s.tiles := rfl
@[simp] theorem State.clear_teams (f : Fld) : (s.clear f).teams = s.teams := rfl
@[simp] theorem State.clear_seqs (f : Fld) : (s.clear f).seqs = s.seqs := rfl
@[simp] theorem State.clear_loads (f : Fld) : (s.clear f).loads = s.loads := rfl
@[simp] theorem State.clear_trace (f : Fld) : (s.clear f).trace = s.trace := rfl
@[simp] theorem State.clear_dbgState (f : Fld) : (s.clear f).dbgState = s.dbgState := rfl
@[simp] theorem State.clear_torus (f : Fld) : (s.clear f).torus = s.torus := rfl
@[simp] theorem State.clear_admissions (f : Fld) : (s.clear f).admissions = s.admissions := rfl
@[simp] theorem State.clear_fabric (f : Fld) : (s.clear f).fabric = s.fabric := rfl

@[simp] theorem State.fput_pending (f : Fld) (b : Bool) : (s.fput f b).pending = s.pending := rfl
@[simp] theorem State.fput_now (f : Fld) (b : Bool) : (s.fput f b).now = s.now := rfl
@[simp] theorem State.fput_latched (f : Fld) (b : Bool) : (s.fput f b).latched = s.latched := rfl
@[simp] theorem State.fput_mem (f : Fld) (b : Bool) : (s.fput f b).mem = s.mem := rfl
@[simp] theorem State.fput_stale (f : Fld) (b : Bool) : (s.fput f b).stale = s.stale := rfl
@[simp] theorem State.fput_syndromes (f : Fld) (b : Bool) : (s.fput f b).syndromes = s.syndromes := rfl
@[simp] theorem State.fput_hardBlocks (f : Fld) (b : Bool) : (s.fput f b).hardBlocks = s.hardBlocks := rfl
@[simp] theorem State.fput_softCe (f : Fld) (b : Bool) : (s.fput f b).softCe = s.softCe := rfl
@[simp] theorem State.fput_hardTable (f : Fld) (b : Bool) : (s.fput f b).hardTable = s.hardTable := rfl
@[simp] theorem State.fput_sweeps (f : Fld) (b : Bool) : (s.fput f b).sweeps = s.sweeps := rfl
@[simp] theorem State.fput_retireWaits (f : Fld) (b : Bool) : (s.fput f b).retireWaits = s.retireWaits := rfl
@[simp] theorem State.fput_out (f : Fld) (b : Bool) : (s.fput f b).out = s.out := rfl
@[simp] theorem State.fput_freeCount (f : Fld) (b : Bool) : (s.fput f b).freeCount = s.freeCount := rfl
@[simp] theorem State.fput_safety (f : Fld) (b : Bool) : (s.fput f b).safety = s.safety := rfl
@[simp] theorem State.fput_volz (f : Fld) (b : Bool) : (s.fput f b).volz = s.volz := rfl
@[simp] theorem State.fput_parts (f : Fld) (b : Bool) : (s.fput f b).parts = s.parts := rfl
@[simp] theorem State.fput_scrubs (f : Fld) (b : Bool) : (s.fput f b).scrubs = s.scrubs := rfl
@[simp] theorem State.fput_pci (f : Fld) (b : Bool) : (s.fput f b).pci = s.pci := rfl
@[simp] theorem State.fput_vectors (f : Fld) (b : Bool) : (s.fput f b).vectors = s.vectors := rfl
@[simp] theorem State.fput_slots (f : Fld) (b : Bool) : (s.fput f b).slots = s.slots := rfl
@[simp] theorem State.fput_steps (f : Fld) (b : Bool) : (s.fput f b).steps = s.steps := rfl
@[simp] theorem State.fput_nextStep (f : Fld) (b : Bool) : (s.fput f b).nextStep = s.nextStep := rfl
@[simp] theorem State.fput_kv (f : Fld) (b : Bool) : (s.fput f b).kv = s.kv := rfl
@[simp] theorem State.fput_nv (f : Fld) (b : Bool) : (s.fput f b).nv = s.nv := rfl
@[simp] theorem State.fput_boot (f : Fld) (b : Bool) : (s.fput f b).boot = s.boot := rfl
@[simp] theorem State.fput_sec (f : Fld) (b : Bool) : (s.fput f b).sec = s.sec := rfl
@[simp] theorem State.fput_pins (f : Fld) (b : Bool) : (s.fput f b).pins = s.pins := rfl
@[simp] theorem State.fput_power (f : Fld) (b : Bool) : (s.fput f b).power = s.power := rfl
@[simp] theorem State.fput_thermal (f : Fld) (b : Bool) : (s.fput f b).thermal = s.thermal := rfl
@[simp] theorem State.fput_adc (f : Fld) (b : Bool) : (s.fput f b).adc = s.adc := rfl
@[simp] theorem State.fput_clocks (f : Fld) (b : Bool) : (s.fput f b).clocks = s.clocks := rfl
@[simp] theorem State.fput_tiles (f : Fld) (b : Bool) : (s.fput f b).tiles = s.tiles := rfl
@[simp] theorem State.fput_teams (f : Fld) (b : Bool) : (s.fput f b).teams = s.teams := rfl
@[simp] theorem State.fput_seqs (f : Fld) (b : Bool) : (s.fput f b).seqs = s.seqs := rfl
@[simp] theorem State.fput_loads (f : Fld) (b : Bool) : (s.fput f b).loads = s.loads := rfl
@[simp] theorem State.fput_trace (f : Fld) (b : Bool) : (s.fput f b).trace = s.trace := rfl
@[simp] theorem State.fput_dbgState (f : Fld) (b : Bool) : (s.fput f b).dbgState = s.dbgState := rfl
@[simp] theorem State.fput_torus (f : Fld) (b : Bool) : (s.fput f b).torus = s.torus := rfl
@[simp] theorem State.fput_admissions (f : Fld) (b : Bool) : (s.fput f b).admissions = s.admissions := rfl
@[simp] theorem State.fput_fabric (f : Fld) (b : Bool) : (s.fput f b).fabric = s.fabric := rfl

@[simp] theorem State.bumpBy_pending (f : Fld) (n : Nat) : (s.bumpBy f n).pending = s.pending := rfl
@[simp] theorem State.bumpBy_now (f : Fld) (n : Nat) : (s.bumpBy f n).now = s.now := rfl
@[simp] theorem State.bumpBy_latched (f : Fld) (n : Nat) : (s.bumpBy f n).latched = s.latched := rfl
@[simp] theorem State.bumpBy_mem (f : Fld) (n : Nat) : (s.bumpBy f n).mem = s.mem := rfl
@[simp] theorem State.bumpBy_stale (f : Fld) (n : Nat) : (s.bumpBy f n).stale = s.stale := rfl
@[simp] theorem State.bumpBy_syndromes (f : Fld) (n : Nat) : (s.bumpBy f n).syndromes = s.syndromes := rfl
@[simp] theorem State.bumpBy_hardBlocks (f : Fld) (n : Nat) : (s.bumpBy f n).hardBlocks = s.hardBlocks := rfl
@[simp] theorem State.bumpBy_softCe (f : Fld) (n : Nat) : (s.bumpBy f n).softCe = s.softCe := rfl
@[simp] theorem State.bumpBy_hardTable (f : Fld) (n : Nat) : (s.bumpBy f n).hardTable = s.hardTable := rfl
@[simp] theorem State.bumpBy_sweeps (f : Fld) (n : Nat) : (s.bumpBy f n).sweeps = s.sweeps := rfl
@[simp] theorem State.bumpBy_retireWaits (f : Fld) (n : Nat) : (s.bumpBy f n).retireWaits = s.retireWaits := rfl
@[simp] theorem State.bumpBy_out (f : Fld) (n : Nat) : (s.bumpBy f n).out = s.out := rfl
@[simp] theorem State.bumpBy_freeCount (f : Fld) (n : Nat) : (s.bumpBy f n).freeCount = s.freeCount := rfl
@[simp] theorem State.bumpBy_safety (f : Fld) (n : Nat) : (s.bumpBy f n).safety = s.safety := rfl
@[simp] theorem State.bumpBy_volz (f : Fld) (n : Nat) : (s.bumpBy f n).volz = s.volz := rfl
@[simp] theorem State.bumpBy_parts (f : Fld) (n : Nat) : (s.bumpBy f n).parts = s.parts := rfl
@[simp] theorem State.bumpBy_scrubs (f : Fld) (n : Nat) : (s.bumpBy f n).scrubs = s.scrubs := rfl
@[simp] theorem State.bumpBy_pci (f : Fld) (n : Nat) : (s.bumpBy f n).pci = s.pci := rfl
@[simp] theorem State.bumpBy_vectors (f : Fld) (n : Nat) : (s.bumpBy f n).vectors = s.vectors := rfl
@[simp] theorem State.bumpBy_slots (f : Fld) (n : Nat) : (s.bumpBy f n).slots = s.slots := rfl
@[simp] theorem State.bumpBy_steps (f : Fld) (n : Nat) : (s.bumpBy f n).steps = s.steps := rfl
@[simp] theorem State.bumpBy_nextStep (f : Fld) (n : Nat) : (s.bumpBy f n).nextStep = s.nextStep := rfl
@[simp] theorem State.bumpBy_kv (f : Fld) (n : Nat) : (s.bumpBy f n).kv = s.kv := rfl
@[simp] theorem State.bumpBy_nv (f : Fld) (n : Nat) : (s.bumpBy f n).nv = s.nv := rfl
@[simp] theorem State.bumpBy_boot (f : Fld) (n : Nat) : (s.bumpBy f n).boot = s.boot := rfl
@[simp] theorem State.bumpBy_sec (f : Fld) (n : Nat) : (s.bumpBy f n).sec = s.sec := rfl
@[simp] theorem State.bumpBy_pins (f : Fld) (n : Nat) : (s.bumpBy f n).pins = s.pins := rfl
@[simp] theorem State.bumpBy_power (f : Fld) (n : Nat) : (s.bumpBy f n).power = s.power := rfl
@[simp] theorem State.bumpBy_thermal (f : Fld) (n : Nat) : (s.bumpBy f n).thermal = s.thermal := rfl
@[simp] theorem State.bumpBy_adc (f : Fld) (n : Nat) : (s.bumpBy f n).adc = s.adc := rfl
@[simp] theorem State.bumpBy_clocks (f : Fld) (n : Nat) : (s.bumpBy f n).clocks = s.clocks := rfl
@[simp] theorem State.bumpBy_tiles (f : Fld) (n : Nat) : (s.bumpBy f n).tiles = s.tiles := rfl
@[simp] theorem State.bumpBy_teams (f : Fld) (n : Nat) : (s.bumpBy f n).teams = s.teams := rfl
@[simp] theorem State.bumpBy_seqs (f : Fld) (n : Nat) : (s.bumpBy f n).seqs = s.seqs := rfl
@[simp] theorem State.bumpBy_loads (f : Fld) (n : Nat) : (s.bumpBy f n).loads = s.loads := rfl
@[simp] theorem State.bumpBy_trace (f : Fld) (n : Nat) : (s.bumpBy f n).trace = s.trace := rfl
@[simp] theorem State.bumpBy_dbgState (f : Fld) (n : Nat) : (s.bumpBy f n).dbgState = s.dbgState := rfl
@[simp] theorem State.bumpBy_torus (f : Fld) (n : Nat) : (s.bumpBy f n).torus = s.torus := rfl
@[simp] theorem State.bumpBy_admissions (f : Fld) (n : Nat) : (s.bumpBy f n).admissions = s.admissions := rfl
@[simp] theorem State.bumpBy_fabric (f : Fld) (n : Nat) : (s.bumpBy f n).fabric = s.fabric := rfl

@[simp] theorem State.bump_pending (f : Fld) : (s.bump f).pending = s.pending := rfl
@[simp] theorem State.bump_now (f : Fld) : (s.bump f).now = s.now := rfl
@[simp] theorem State.bump_latched (f : Fld) : (s.bump f).latched = s.latched := rfl
@[simp] theorem State.bump_mem (f : Fld) : (s.bump f).mem = s.mem := rfl
@[simp] theorem State.bump_stale (f : Fld) : (s.bump f).stale = s.stale := rfl
@[simp] theorem State.bump_syndromes (f : Fld) : (s.bump f).syndromes = s.syndromes := rfl
@[simp] theorem State.bump_hardBlocks (f : Fld) : (s.bump f).hardBlocks = s.hardBlocks := rfl
@[simp] theorem State.bump_softCe (f : Fld) : (s.bump f).softCe = s.softCe := rfl
@[simp] theorem State.bump_hardTable (f : Fld) : (s.bump f).hardTable = s.hardTable := rfl
@[simp] theorem State.bump_sweeps (f : Fld) : (s.bump f).sweeps = s.sweeps := rfl
@[simp] theorem State.bump_retireWaits (f : Fld) : (s.bump f).retireWaits = s.retireWaits := rfl
@[simp] theorem State.bump_out (f : Fld) : (s.bump f).out = s.out := rfl
@[simp] theorem State.bump_freeCount (f : Fld) : (s.bump f).freeCount = s.freeCount := rfl
@[simp] theorem State.bump_safety (f : Fld) : (s.bump f).safety = s.safety := rfl
@[simp] theorem State.bump_volz (f : Fld) : (s.bump f).volz = s.volz := rfl
@[simp] theorem State.bump_parts (f : Fld) : (s.bump f).parts = s.parts := rfl
@[simp] theorem State.bump_scrubs (f : Fld) : (s.bump f).scrubs = s.scrubs := rfl
@[simp] theorem State.bump_pci (f : Fld) : (s.bump f).pci = s.pci := rfl
@[simp] theorem State.bump_vectors (f : Fld) : (s.bump f).vectors = s.vectors := rfl
@[simp] theorem State.bump_slots (f : Fld) : (s.bump f).slots = s.slots := rfl
@[simp] theorem State.bump_steps (f : Fld) : (s.bump f).steps = s.steps := rfl
@[simp] theorem State.bump_nextStep (f : Fld) : (s.bump f).nextStep = s.nextStep := rfl
@[simp] theorem State.bump_kv (f : Fld) : (s.bump f).kv = s.kv := rfl
@[simp] theorem State.bump_nv (f : Fld) : (s.bump f).nv = s.nv := rfl
@[simp] theorem State.bump_boot (f : Fld) : (s.bump f).boot = s.boot := rfl
@[simp] theorem State.bump_sec (f : Fld) : (s.bump f).sec = s.sec := rfl
@[simp] theorem State.bump_pins (f : Fld) : (s.bump f).pins = s.pins := rfl
@[simp] theorem State.bump_power (f : Fld) : (s.bump f).power = s.power := rfl
@[simp] theorem State.bump_thermal (f : Fld) : (s.bump f).thermal = s.thermal := rfl
@[simp] theorem State.bump_adc (f : Fld) : (s.bump f).adc = s.adc := rfl
@[simp] theorem State.bump_clocks (f : Fld) : (s.bump f).clocks = s.clocks := rfl
@[simp] theorem State.bump_tiles (f : Fld) : (s.bump f).tiles = s.tiles := rfl
@[simp] theorem State.bump_teams (f : Fld) : (s.bump f).teams = s.teams := rfl
@[simp] theorem State.bump_seqs (f : Fld) : (s.bump f).seqs = s.seqs := rfl
@[simp] theorem State.bump_loads (f : Fld) : (s.bump f).loads = s.loads := rfl
@[simp] theorem State.bump_trace (f : Fld) : (s.bump f).trace = s.trace := rfl
@[simp] theorem State.bump_dbgState (f : Fld) : (s.bump f).dbgState = s.dbgState := rfl
@[simp] theorem State.bump_torus (f : Fld) : (s.bump f).torus = s.torus := rfl
@[simp] theorem State.bump_admissions (f : Fld) : (s.bump f).admissions = s.admissions := rfl
@[simp] theorem State.bump_fabric (f : Fld) : (s.bump f).fabric = s.fabric := rfl

@[simp] theorem State.fset64_pending (f g : Fld) (v : Nat) : (s.fset64 f g v).pending = s.pending := rfl
@[simp] theorem State.fset64_now (f g : Fld) (v : Nat) : (s.fset64 f g v).now = s.now := rfl
@[simp] theorem State.fset64_latched (f g : Fld) (v : Nat) : (s.fset64 f g v).latched = s.latched := rfl
@[simp] theorem State.fset64_mem (f g : Fld) (v : Nat) : (s.fset64 f g v).mem = s.mem := rfl
@[simp] theorem State.fset64_stale (f g : Fld) (v : Nat) : (s.fset64 f g v).stale = s.stale := rfl
@[simp] theorem State.fset64_syndromes (f g : Fld) (v : Nat) : (s.fset64 f g v).syndromes = s.syndromes := rfl
@[simp] theorem State.fset64_hardBlocks (f g : Fld) (v : Nat) : (s.fset64 f g v).hardBlocks = s.hardBlocks := rfl
@[simp] theorem State.fset64_softCe (f g : Fld) (v : Nat) : (s.fset64 f g v).softCe = s.softCe := rfl
@[simp] theorem State.fset64_hardTable (f g : Fld) (v : Nat) : (s.fset64 f g v).hardTable = s.hardTable := rfl
@[simp] theorem State.fset64_sweeps (f g : Fld) (v : Nat) : (s.fset64 f g v).sweeps = s.sweeps := rfl
@[simp] theorem State.fset64_retireWaits (f g : Fld) (v : Nat) : (s.fset64 f g v).retireWaits = s.retireWaits := rfl
@[simp] theorem State.fset64_out (f g : Fld) (v : Nat) : (s.fset64 f g v).out = s.out := rfl
@[simp] theorem State.fset64_freeCount (f g : Fld) (v : Nat) : (s.fset64 f g v).freeCount = s.freeCount := rfl
@[simp] theorem State.fset64_safety (f g : Fld) (v : Nat) : (s.fset64 f g v).safety = s.safety := rfl
@[simp] theorem State.fset64_volz (f g : Fld) (v : Nat) : (s.fset64 f g v).volz = s.volz := rfl
@[simp] theorem State.fset64_parts (f g : Fld) (v : Nat) : (s.fset64 f g v).parts = s.parts := rfl
@[simp] theorem State.fset64_scrubs (f g : Fld) (v : Nat) : (s.fset64 f g v).scrubs = s.scrubs := rfl
@[simp] theorem State.fset64_pci (f g : Fld) (v : Nat) : (s.fset64 f g v).pci = s.pci := rfl
@[simp] theorem State.fset64_vectors (f g : Fld) (v : Nat) : (s.fset64 f g v).vectors = s.vectors := rfl
@[simp] theorem State.fset64_slots (f g : Fld) (v : Nat) : (s.fset64 f g v).slots = s.slots := rfl
@[simp] theorem State.fset64_steps (f g : Fld) (v : Nat) : (s.fset64 f g v).steps = s.steps := rfl
@[simp] theorem State.fset64_nextStep (f g : Fld) (v : Nat) : (s.fset64 f g v).nextStep = s.nextStep := rfl
@[simp] theorem State.fset64_kv (f g : Fld) (v : Nat) : (s.fset64 f g v).kv = s.kv := rfl
@[simp] theorem State.fset64_nv (f g : Fld) (v : Nat) : (s.fset64 f g v).nv = s.nv := rfl
@[simp] theorem State.fset64_boot (f g : Fld) (v : Nat) : (s.fset64 f g v).boot = s.boot := rfl
@[simp] theorem State.fset64_sec (f g : Fld) (v : Nat) : (s.fset64 f g v).sec = s.sec := rfl
@[simp] theorem State.fset64_pins (f g : Fld) (v : Nat) : (s.fset64 f g v).pins = s.pins := rfl
@[simp] theorem State.fset64_power (f g : Fld) (v : Nat) : (s.fset64 f g v).power = s.power := rfl
@[simp] theorem State.fset64_thermal (f g : Fld) (v : Nat) : (s.fset64 f g v).thermal = s.thermal := rfl
@[simp] theorem State.fset64_adc (f g : Fld) (v : Nat) : (s.fset64 f g v).adc = s.adc := rfl
@[simp] theorem State.fset64_clocks (f g : Fld) (v : Nat) : (s.fset64 f g v).clocks = s.clocks := rfl
@[simp] theorem State.fset64_tiles (f g : Fld) (v : Nat) : (s.fset64 f g v).tiles = s.tiles := rfl
@[simp] theorem State.fset64_teams (f g : Fld) (v : Nat) : (s.fset64 f g v).teams = s.teams := rfl
@[simp] theorem State.fset64_seqs (f g : Fld) (v : Nat) : (s.fset64 f g v).seqs = s.seqs := rfl
@[simp] theorem State.fset64_loads (f g : Fld) (v : Nat) : (s.fset64 f g v).loads = s.loads := rfl
@[simp] theorem State.fset64_trace (f g : Fld) (v : Nat) : (s.fset64 f g v).trace = s.trace := rfl
@[simp] theorem State.fset64_dbgState (f g : Fld) (v : Nat) : (s.fset64 f g v).dbgState = s.dbgState := rfl
@[simp] theorem State.fset64_torus (f g : Fld) (v : Nat) : (s.fset64 f g v).torus = s.torus := rfl
@[simp] theorem State.fset64_admissions (f g : Fld) (v : Nat) : (s.fset64 f g v).admissions = s.admissions := rfl
@[simp] theorem State.fset64_fabric (f g : Fld) (v : Nat) : (s.fset64 f g v).fabric = s.fabric := rfl

@[simp] theorem State.bump64_pending (f g : Fld) (v : Nat) : (s.bump64 f g v).pending = s.pending := rfl
@[simp] theorem State.bump64_now (f g : Fld) (v : Nat) : (s.bump64 f g v).now = s.now := rfl
@[simp] theorem State.bump64_latched (f g : Fld) (v : Nat) : (s.bump64 f g v).latched = s.latched := rfl
@[simp] theorem State.bump64_mem (f g : Fld) (v : Nat) : (s.bump64 f g v).mem = s.mem := rfl
@[simp] theorem State.bump64_stale (f g : Fld) (v : Nat) : (s.bump64 f g v).stale = s.stale := rfl
@[simp] theorem State.bump64_syndromes (f g : Fld) (v : Nat) : (s.bump64 f g v).syndromes = s.syndromes := rfl
@[simp] theorem State.bump64_hardBlocks (f g : Fld) (v : Nat) : (s.bump64 f g v).hardBlocks = s.hardBlocks := rfl
@[simp] theorem State.bump64_softCe (f g : Fld) (v : Nat) : (s.bump64 f g v).softCe = s.softCe := rfl
@[simp] theorem State.bump64_hardTable (f g : Fld) (v : Nat) : (s.bump64 f g v).hardTable = s.hardTable := rfl
@[simp] theorem State.bump64_sweeps (f g : Fld) (v : Nat) : (s.bump64 f g v).sweeps = s.sweeps := rfl
@[simp] theorem State.bump64_retireWaits (f g : Fld) (v : Nat) : (s.bump64 f g v).retireWaits = s.retireWaits := rfl
@[simp] theorem State.bump64_out (f g : Fld) (v : Nat) : (s.bump64 f g v).out = s.out := rfl
@[simp] theorem State.bump64_freeCount (f g : Fld) (v : Nat) : (s.bump64 f g v).freeCount = s.freeCount := rfl
@[simp] theorem State.bump64_safety (f g : Fld) (v : Nat) : (s.bump64 f g v).safety = s.safety := rfl
@[simp] theorem State.bump64_volz (f g : Fld) (v : Nat) : (s.bump64 f g v).volz = s.volz := rfl
@[simp] theorem State.bump64_parts (f g : Fld) (v : Nat) : (s.bump64 f g v).parts = s.parts := rfl
@[simp] theorem State.bump64_scrubs (f g : Fld) (v : Nat) : (s.bump64 f g v).scrubs = s.scrubs := rfl
@[simp] theorem State.bump64_pci (f g : Fld) (v : Nat) : (s.bump64 f g v).pci = s.pci := rfl
@[simp] theorem State.bump64_vectors (f g : Fld) (v : Nat) : (s.bump64 f g v).vectors = s.vectors := rfl
@[simp] theorem State.bump64_slots (f g : Fld) (v : Nat) : (s.bump64 f g v).slots = s.slots := rfl
@[simp] theorem State.bump64_steps (f g : Fld) (v : Nat) : (s.bump64 f g v).steps = s.steps := rfl
@[simp] theorem State.bump64_nextStep (f g : Fld) (v : Nat) : (s.bump64 f g v).nextStep = s.nextStep := rfl
@[simp] theorem State.bump64_kv (f g : Fld) (v : Nat) : (s.bump64 f g v).kv = s.kv := rfl
@[simp] theorem State.bump64_nv (f g : Fld) (v : Nat) : (s.bump64 f g v).nv = s.nv := rfl
@[simp] theorem State.bump64_boot (f g : Fld) (v : Nat) : (s.bump64 f g v).boot = s.boot := rfl
@[simp] theorem State.bump64_sec (f g : Fld) (v : Nat) : (s.bump64 f g v).sec = s.sec := rfl
@[simp] theorem State.bump64_pins (f g : Fld) (v : Nat) : (s.bump64 f g v).pins = s.pins := rfl
@[simp] theorem State.bump64_power (f g : Fld) (v : Nat) : (s.bump64 f g v).power = s.power := rfl
@[simp] theorem State.bump64_thermal (f g : Fld) (v : Nat) : (s.bump64 f g v).thermal = s.thermal := rfl
@[simp] theorem State.bump64_adc (f g : Fld) (v : Nat) : (s.bump64 f g v).adc = s.adc := rfl
@[simp] theorem State.bump64_clocks (f g : Fld) (v : Nat) : (s.bump64 f g v).clocks = s.clocks := rfl
@[simp] theorem State.bump64_tiles (f g : Fld) (v : Nat) : (s.bump64 f g v).tiles = s.tiles := rfl
@[simp] theorem State.bump64_teams (f g : Fld) (v : Nat) : (s.bump64 f g v).teams = s.teams := rfl
@[simp] theorem State.bump64_seqs (f g : Fld) (v : Nat) : (s.bump64 f g v).seqs = s.seqs := rfl
@[simp] theorem State.bump64_loads (f g : Fld) (v : Nat) : (s.bump64 f g v).loads = s.loads := rfl
@[simp] theorem State.bump64_trace (f g : Fld) (v : Nat) : (s.bump64 f g v).trace = s.trace := rfl
@[simp] theorem State.bump64_dbgState (f g : Fld) (v : Nat) : (s.bump64 f g v).dbgState = s.dbgState := rfl
@[simp] theorem State.bump64_torus (f g : Fld) (v : Nat) : (s.bump64 f g v).torus = s.torus := rfl
@[simp] theorem State.bump64_admissions (f g : Fld) (v : Nat) : (s.bump64 f g v).admissions = s.admissions := rfl
@[simp] theorem State.bump64_fabric (f g : Fld) (v : Nat) : (s.bump64 f g v).fabric = s.fabric := rfl

@[simp] theorem State.writeByte_pending (a : Nat) (v : Byte) : (s.writeByte a v).pending = s.pending := rfl
@[simp] theorem State.writeByte_now (a : Nat) (v : Byte) : (s.writeByte a v).now = s.now := rfl
@[simp] theorem State.writeByte_fields (a : Nat) (v : Byte) : (s.writeByte a v).fields = s.fields := rfl
@[simp] theorem State.writeByte_latched (a : Nat) (v : Byte) : (s.writeByte a v).latched = s.latched := rfl
@[simp] theorem State.writeByte_stale (a : Nat) (v : Byte) : (s.writeByte a v).stale = s.stale := rfl
@[simp] theorem State.writeByte_syndromes (a : Nat) (v : Byte) : (s.writeByte a v).syndromes = s.syndromes := rfl
@[simp] theorem State.writeByte_hardBlocks (a : Nat) (v : Byte) : (s.writeByte a v).hardBlocks = s.hardBlocks := rfl
@[simp] theorem State.writeByte_softCe (a : Nat) (v : Byte) : (s.writeByte a v).softCe = s.softCe := rfl
@[simp] theorem State.writeByte_hardTable (a : Nat) (v : Byte) : (s.writeByte a v).hardTable = s.hardTable := rfl
@[simp] theorem State.writeByte_sweeps (a : Nat) (v : Byte) : (s.writeByte a v).sweeps = s.sweeps := rfl
@[simp] theorem State.writeByte_retireWaits (a : Nat) (v : Byte) : (s.writeByte a v).retireWaits = s.retireWaits := rfl
@[simp] theorem State.writeByte_out (a : Nat) (v : Byte) : (s.writeByte a v).out = s.out := rfl
@[simp] theorem State.writeByte_freeCount (a : Nat) (v : Byte) : (s.writeByte a v).freeCount = s.freeCount := rfl
@[simp] theorem State.writeByte_safety (a : Nat) (v : Byte) : (s.writeByte a v).safety = s.safety := rfl
@[simp] theorem State.writeByte_volz (a : Nat) (v : Byte) : (s.writeByte a v).volz = s.volz := rfl
@[simp] theorem State.writeByte_parts (a : Nat) (v : Byte) : (s.writeByte a v).parts = s.parts := rfl
@[simp] theorem State.writeByte_scrubs (a : Nat) (v : Byte) : (s.writeByte a v).scrubs = s.scrubs := rfl
@[simp] theorem State.writeByte_pci (a : Nat) (v : Byte) : (s.writeByte a v).pci = s.pci := rfl
@[simp] theorem State.writeByte_vectors (a : Nat) (v : Byte) : (s.writeByte a v).vectors = s.vectors := rfl
@[simp] theorem State.writeByte_slots (a : Nat) (v : Byte) : (s.writeByte a v).slots = s.slots := rfl
@[simp] theorem State.writeByte_steps (a : Nat) (v : Byte) : (s.writeByte a v).steps = s.steps := rfl
@[simp] theorem State.writeByte_nextStep (a : Nat) (v : Byte) : (s.writeByte a v).nextStep = s.nextStep := rfl
@[simp] theorem State.writeByte_kv (a : Nat) (v : Byte) : (s.writeByte a v).kv = s.kv := rfl
@[simp] theorem State.writeByte_nv (a : Nat) (v : Byte) : (s.writeByte a v).nv = s.nv := rfl
@[simp] theorem State.writeByte_boot (a : Nat) (v : Byte) : (s.writeByte a v).boot = s.boot := rfl
@[simp] theorem State.writeByte_sec (a : Nat) (v : Byte) : (s.writeByte a v).sec = s.sec := rfl
@[simp] theorem State.writeByte_pins (a : Nat) (v : Byte) : (s.writeByte a v).pins = s.pins := rfl
@[simp] theorem State.writeByte_power (a : Nat) (v : Byte) : (s.writeByte a v).power = s.power := rfl
@[simp] theorem State.writeByte_thermal (a : Nat) (v : Byte) : (s.writeByte a v).thermal = s.thermal := rfl
@[simp] theorem State.writeByte_adc (a : Nat) (v : Byte) : (s.writeByte a v).adc = s.adc := rfl
@[simp] theorem State.writeByte_clocks (a : Nat) (v : Byte) : (s.writeByte a v).clocks = s.clocks := rfl
@[simp] theorem State.writeByte_tiles (a : Nat) (v : Byte) : (s.writeByte a v).tiles = s.tiles := rfl
@[simp] theorem State.writeByte_teams (a : Nat) (v : Byte) : (s.writeByte a v).teams = s.teams := rfl
@[simp] theorem State.writeByte_seqs (a : Nat) (v : Byte) : (s.writeByte a v).seqs = s.seqs := rfl
@[simp] theorem State.writeByte_loads (a : Nat) (v : Byte) : (s.writeByte a v).loads = s.loads := rfl
@[simp] theorem State.writeByte_trace (a : Nat) (v : Byte) : (s.writeByte a v).trace = s.trace := rfl
@[simp] theorem State.writeByte_dbgState (a : Nat) (v : Byte) : (s.writeByte a v).dbgState = s.dbgState := rfl
@[simp] theorem State.writeByte_torus (a : Nat) (v : Byte) : (s.writeByte a v).torus = s.torus := rfl
@[simp] theorem State.writeByte_admissions (a : Nat) (v : Byte) : (s.writeByte a v).admissions = s.admissions := rfl
@[simp] theorem State.writeByte_fabric (a : Nat) (v : Byte) : (s.writeByte a v).fabric = s.fabric := rfl
@[simp] theorem State.writeByte_fget (a : Nat) (v : Byte) (h : Fld) : (s.writeByte a v).fget h = s.fget h := rfl

@[simp] theorem State.send_pending (o : Out) : (s.send o).pending = s.pending := rfl
@[simp] theorem State.send_now (o : Out) : (s.send o).now = s.now := rfl
@[simp] theorem State.send_fields (o : Out) : (s.send o).fields = s.fields := rfl
@[simp] theorem State.send_latched (o : Out) : (s.send o).latched = s.latched := rfl
@[simp] theorem State.send_mem (o : Out) : (s.send o).mem = s.mem := rfl
@[simp] theorem State.send_stale (o : Out) : (s.send o).stale = s.stale := rfl
@[simp] theorem State.send_syndromes (o : Out) : (s.send o).syndromes = s.syndromes := rfl
@[simp] theorem State.send_hardBlocks (o : Out) : (s.send o).hardBlocks = s.hardBlocks := rfl
@[simp] theorem State.send_softCe (o : Out) : (s.send o).softCe = s.softCe := rfl
@[simp] theorem State.send_hardTable (o : Out) : (s.send o).hardTable = s.hardTable := rfl
@[simp] theorem State.send_sweeps (o : Out) : (s.send o).sweeps = s.sweeps := rfl
@[simp] theorem State.send_retireWaits (o : Out) : (s.send o).retireWaits = s.retireWaits := rfl
@[simp] theorem State.send_freeCount (o : Out) : (s.send o).freeCount = s.freeCount := rfl
@[simp] theorem State.send_safety (o : Out) : (s.send o).safety = s.safety := rfl
@[simp] theorem State.send_volz (o : Out) : (s.send o).volz = s.volz := rfl
@[simp] theorem State.send_parts (o : Out) : (s.send o).parts = s.parts := rfl
@[simp] theorem State.send_scrubs (o : Out) : (s.send o).scrubs = s.scrubs := rfl
@[simp] theorem State.send_pci (o : Out) : (s.send o).pci = s.pci := rfl
@[simp] theorem State.send_vectors (o : Out) : (s.send o).vectors = s.vectors := rfl
@[simp] theorem State.send_slots (o : Out) : (s.send o).slots = s.slots := rfl
@[simp] theorem State.send_steps (o : Out) : (s.send o).steps = s.steps := rfl
@[simp] theorem State.send_nextStep (o : Out) : (s.send o).nextStep = s.nextStep := rfl
@[simp] theorem State.send_kv (o : Out) : (s.send o).kv = s.kv := rfl
@[simp] theorem State.send_nv (o : Out) : (s.send o).nv = s.nv := rfl
@[simp] theorem State.send_boot (o : Out) : (s.send o).boot = s.boot := rfl
@[simp] theorem State.send_sec (o : Out) : (s.send o).sec = s.sec := rfl
@[simp] theorem State.send_pins (o : Out) : (s.send o).pins = s.pins := rfl
@[simp] theorem State.send_power (o : Out) : (s.send o).power = s.power := rfl
@[simp] theorem State.send_thermal (o : Out) : (s.send o).thermal = s.thermal := rfl
@[simp] theorem State.send_adc (o : Out) : (s.send o).adc = s.adc := rfl
@[simp] theorem State.send_clocks (o : Out) : (s.send o).clocks = s.clocks := rfl
@[simp] theorem State.send_tiles (o : Out) : (s.send o).tiles = s.tiles := rfl
@[simp] theorem State.send_teams (o : Out) : (s.send o).teams = s.teams := rfl
@[simp] theorem State.send_seqs (o : Out) : (s.send o).seqs = s.seqs := rfl
@[simp] theorem State.send_loads (o : Out) : (s.send o).loads = s.loads := rfl
@[simp] theorem State.send_trace (o : Out) : (s.send o).trace = s.trace := rfl
@[simp] theorem State.send_dbgState (o : Out) : (s.send o).dbgState = s.dbgState := rfl
@[simp] theorem State.send_torus (o : Out) : (s.send o).torus = s.torus := rfl
@[simp] theorem State.send_admissions (o : Out) : (s.send o).admissions = s.admissions := rfl
@[simp] theorem State.send_fabric (o : Out) : (s.send o).fabric = s.fabric := rfl
@[simp] theorem State.send_fget (o : Out) (h : Fld) : (s.send o).fget h = s.fget h := rfl

@[simp] theorem State.partSet_pending (p : Nat) (x : Part) : (s.partSet p x).pending = s.pending := rfl
@[simp] theorem State.partSet_now (p : Nat) (x : Part) : (s.partSet p x).now = s.now := rfl
@[simp] theorem State.partSet_fields (p : Nat) (x : Part) : (s.partSet p x).fields = s.fields := rfl
@[simp] theorem State.partSet_latched (p : Nat) (x : Part) : (s.partSet p x).latched = s.latched := rfl
@[simp] theorem State.partSet_mem (p : Nat) (x : Part) : (s.partSet p x).mem = s.mem := rfl
@[simp] theorem State.partSet_stale (p : Nat) (x : Part) : (s.partSet p x).stale = s.stale := rfl
@[simp] theorem State.partSet_syndromes (p : Nat) (x : Part) : (s.partSet p x).syndromes = s.syndromes := rfl
@[simp] theorem State.partSet_hardBlocks (p : Nat) (x : Part) : (s.partSet p x).hardBlocks = s.hardBlocks := rfl
@[simp] theorem State.partSet_softCe (p : Nat) (x : Part) : (s.partSet p x).softCe = s.softCe := rfl
@[simp] theorem State.partSet_hardTable (p : Nat) (x : Part) : (s.partSet p x).hardTable = s.hardTable := rfl
@[simp] theorem State.partSet_sweeps (p : Nat) (x : Part) : (s.partSet p x).sweeps = s.sweeps := rfl
@[simp] theorem State.partSet_retireWaits (p : Nat) (x : Part) : (s.partSet p x).retireWaits = s.retireWaits := rfl
@[simp] theorem State.partSet_out (p : Nat) (x : Part) : (s.partSet p x).out = s.out := rfl
@[simp] theorem State.partSet_freeCount (p : Nat) (x : Part) : (s.partSet p x).freeCount = s.freeCount := rfl
@[simp] theorem State.partSet_safety (p : Nat) (x : Part) : (s.partSet p x).safety = s.safety := rfl
@[simp] theorem State.partSet_volz (p : Nat) (x : Part) : (s.partSet p x).volz = s.volz := rfl
@[simp] theorem State.partSet_scrubs (p : Nat) (x : Part) : (s.partSet p x).scrubs = s.scrubs := rfl
@[simp] theorem State.partSet_pci (p : Nat) (x : Part) : (s.partSet p x).pci = s.pci := rfl
@[simp] theorem State.partSet_vectors (p : Nat) (x : Part) : (s.partSet p x).vectors = s.vectors := rfl
@[simp] theorem State.partSet_slots (p : Nat) (x : Part) : (s.partSet p x).slots = s.slots := rfl
@[simp] theorem State.partSet_steps (p : Nat) (x : Part) : (s.partSet p x).steps = s.steps := rfl
@[simp] theorem State.partSet_nextStep (p : Nat) (x : Part) : (s.partSet p x).nextStep = s.nextStep := rfl
@[simp] theorem State.partSet_kv (p : Nat) (x : Part) : (s.partSet p x).kv = s.kv := rfl
@[simp] theorem State.partSet_nv (p : Nat) (x : Part) : (s.partSet p x).nv = s.nv := rfl
@[simp] theorem State.partSet_boot (p : Nat) (x : Part) : (s.partSet p x).boot = s.boot := rfl
@[simp] theorem State.partSet_sec (p : Nat) (x : Part) : (s.partSet p x).sec = s.sec := rfl
@[simp] theorem State.partSet_pins (p : Nat) (x : Part) : (s.partSet p x).pins = s.pins := rfl
@[simp] theorem State.partSet_power (p : Nat) (x : Part) : (s.partSet p x).power = s.power := rfl
@[simp] theorem State.partSet_thermal (p : Nat) (x : Part) : (s.partSet p x).thermal = s.thermal := rfl
@[simp] theorem State.partSet_adc (p : Nat) (x : Part) : (s.partSet p x).adc = s.adc := rfl
@[simp] theorem State.partSet_clocks (p : Nat) (x : Part) : (s.partSet p x).clocks = s.clocks := rfl
@[simp] theorem State.partSet_tiles (p : Nat) (x : Part) : (s.partSet p x).tiles = s.tiles := rfl
@[simp] theorem State.partSet_teams (p : Nat) (x : Part) : (s.partSet p x).teams = s.teams := rfl
@[simp] theorem State.partSet_seqs (p : Nat) (x : Part) : (s.partSet p x).seqs = s.seqs := rfl
@[simp] theorem State.partSet_loads (p : Nat) (x : Part) : (s.partSet p x).loads = s.loads := rfl
@[simp] theorem State.partSet_trace (p : Nat) (x : Part) : (s.partSet p x).trace = s.trace := rfl
@[simp] theorem State.partSet_dbgState (p : Nat) (x : Part) : (s.partSet p x).dbgState = s.dbgState := rfl
@[simp] theorem State.partSet_torus (p : Nat) (x : Part) : (s.partSet p x).torus = s.torus := rfl
@[simp] theorem State.partSet_admissions (p : Nat) (x : Part) : (s.partSet p x).admissions = s.admissions := rfl
@[simp] theorem State.partSet_fabric (p : Nat) (x : Part) : (s.partSet p x).fabric = s.fabric := rfl
@[simp] theorem State.partSet_fget (p : Nat) (x : Part) (h : Fld) : (s.partSet p x).fget h = s.fget h := rfl

@[simp] theorem State.vecSet_pending (fn vec : Nat) (v : Vector) : (s.vecSet fn vec v).pending = s.pending := rfl
@[simp] theorem State.vecSet_now (fn vec : Nat) (v : Vector) : (s.vecSet fn vec v).now = s.now := rfl
@[simp] theorem State.vecSet_fields (fn vec : Nat) (v : Vector) : (s.vecSet fn vec v).fields = s.fields := rfl
@[simp] theorem State.vecSet_latched (fn vec : Nat) (v : Vector) : (s.vecSet fn vec v).latched = s.latched := rfl
@[simp] theorem State.vecSet_mem (fn vec : Nat) (v : Vector) : (s.vecSet fn vec v).mem = s.mem := rfl
@[simp] theorem State.vecSet_stale (fn vec : Nat) (v : Vector) : (s.vecSet fn vec v).stale = s.stale := rfl
@[simp] theorem State.vecSet_syndromes (fn vec : Nat) (v : Vector) : (s.vecSet fn vec v).syndromes = s.syndromes := rfl
@[simp] theorem State.vecSet_hardBlocks (fn vec : Nat) (v : Vector) : (s.vecSet fn vec v).hardBlocks = s.hardBlocks := rfl
@[simp] theorem State.vecSet_softCe (fn vec : Nat) (v : Vector) : (s.vecSet fn vec v).softCe = s.softCe := rfl
@[simp] theorem State.vecSet_hardTable (fn vec : Nat) (v : Vector) : (s.vecSet fn vec v).hardTable = s.hardTable := rfl
@[simp] theorem State.vecSet_sweeps (fn vec : Nat) (v : Vector) : (s.vecSet fn vec v).sweeps = s.sweeps := rfl
@[simp] theorem State.vecSet_retireWaits (fn vec : Nat) (v : Vector) : (s.vecSet fn vec v).retireWaits = s.retireWaits := rfl
@[simp] theorem State.vecSet_out (fn vec : Nat) (v : Vector) : (s.vecSet fn vec v).out = s.out := rfl
@[simp] theorem State.vecSet_freeCount (fn vec : Nat) (v : Vector) : (s.vecSet fn vec v).freeCount = s.freeCount := rfl
@[simp] theorem State.vecSet_safety (fn vec : Nat) (v : Vector) : (s.vecSet fn vec v).safety = s.safety := rfl
@[simp] theorem State.vecSet_volz (fn vec : Nat) (v : Vector) : (s.vecSet fn vec v).volz = s.volz := rfl
@[simp] theorem State.vecSet_parts (fn vec : Nat) (v : Vector) : (s.vecSet fn vec v).parts = s.parts := rfl
@[simp] theorem State.vecSet_scrubs (fn vec : Nat) (v : Vector) : (s.vecSet fn vec v).scrubs = s.scrubs := rfl
@[simp] theorem State.vecSet_pci (fn vec : Nat) (v : Vector) : (s.vecSet fn vec v).pci = s.pci := rfl
@[simp] theorem State.vecSet_slots (fn vec : Nat) (v : Vector) : (s.vecSet fn vec v).slots = s.slots := rfl
@[simp] theorem State.vecSet_steps (fn vec : Nat) (v : Vector) : (s.vecSet fn vec v).steps = s.steps := rfl
@[simp] theorem State.vecSet_nextStep (fn vec : Nat) (v : Vector) : (s.vecSet fn vec v).nextStep = s.nextStep := rfl
@[simp] theorem State.vecSet_kv (fn vec : Nat) (v : Vector) : (s.vecSet fn vec v).kv = s.kv := rfl
@[simp] theorem State.vecSet_nv (fn vec : Nat) (v : Vector) : (s.vecSet fn vec v).nv = s.nv := rfl
@[simp] theorem State.vecSet_boot (fn vec : Nat) (v : Vector) : (s.vecSet fn vec v).boot = s.boot := rfl
@[simp] theorem State.vecSet_sec (fn vec : Nat) (v : Vector) : (s.vecSet fn vec v).sec = s.sec := rfl
@[simp] theorem State.vecSet_pins (fn vec : Nat) (v : Vector) : (s.vecSet fn vec v).pins = s.pins := rfl
@[simp] theorem State.vecSet_power (fn vec : Nat) (v : Vector) : (s.vecSet fn vec v).power = s.power := rfl
@[simp] theorem State.vecSet_thermal (fn vec : Nat) (v : Vector) : (s.vecSet fn vec v).thermal = s.thermal := rfl
@[simp] theorem State.vecSet_adc (fn vec : Nat) (v : Vector) : (s.vecSet fn vec v).adc = s.adc := rfl
@[simp] theorem State.vecSet_clocks (fn vec : Nat) (v : Vector) : (s.vecSet fn vec v).clocks = s.clocks := rfl
@[simp] theorem State.vecSet_tiles (fn vec : Nat) (v : Vector) : (s.vecSet fn vec v).tiles = s.tiles := rfl
@[simp] theorem State.vecSet_teams (fn vec : Nat) (v : Vector) : (s.vecSet fn vec v).teams = s.teams := rfl
@[simp] theorem State.vecSet_seqs (fn vec : Nat) (v : Vector) : (s.vecSet fn vec v).seqs = s.seqs := rfl
@[simp] theorem State.vecSet_loads (fn vec : Nat) (v : Vector) : (s.vecSet fn vec v).loads = s.loads := rfl
@[simp] theorem State.vecSet_trace (fn vec : Nat) (v : Vector) : (s.vecSet fn vec v).trace = s.trace := rfl
@[simp] theorem State.vecSet_dbgState (fn vec : Nat) (v : Vector) : (s.vecSet fn vec v).dbgState = s.dbgState := rfl
@[simp] theorem State.vecSet_torus (fn vec : Nat) (v : Vector) : (s.vecSet fn vec v).torus = s.torus := rfl
@[simp] theorem State.vecSet_admissions (fn vec : Nat) (v : Vector) : (s.vecSet fn vec v).admissions = s.admissions := rfl
@[simp] theorem State.vecSet_fabric (fn vec : Nat) (v : Vector) : (s.vecSet fn vec v).fabric = s.fabric := rfl
@[simp] theorem State.vecSet_fget (fn vec : Nat) (v : Vector) (h : Fld) : (s.vecSet fn vec v).fget h = s.fget h := rfl

@[simp] theorem State.admission_pending (u : Nat) : (s.admission u).pending = s.pending := rfl
@[simp] theorem State.admission_now (u : Nat) : (s.admission u).now = s.now := rfl
@[simp] theorem State.admission_fields (u : Nat) : (s.admission u).fields = s.fields := rfl
@[simp] theorem State.admission_latched (u : Nat) : (s.admission u).latched = s.latched := rfl
@[simp] theorem State.admission_mem (u : Nat) : (s.admission u).mem = s.mem := rfl
@[simp] theorem State.admission_stale (u : Nat) : (s.admission u).stale = s.stale := rfl
@[simp] theorem State.admission_syndromes (u : Nat) : (s.admission u).syndromes = s.syndromes := rfl
@[simp] theorem State.admission_hardBlocks (u : Nat) : (s.admission u).hardBlocks = s.hardBlocks := rfl
@[simp] theorem State.admission_softCe (u : Nat) : (s.admission u).softCe = s.softCe := rfl
@[simp] theorem State.admission_hardTable (u : Nat) : (s.admission u).hardTable = s.hardTable := rfl
@[simp] theorem State.admission_sweeps (u : Nat) : (s.admission u).sweeps = s.sweeps := rfl
@[simp] theorem State.admission_retireWaits (u : Nat) : (s.admission u).retireWaits = s.retireWaits := rfl
@[simp] theorem State.admission_out (u : Nat) : (s.admission u).out = s.out := rfl
@[simp] theorem State.admission_freeCount (u : Nat) : (s.admission u).freeCount = s.freeCount := rfl
@[simp] theorem State.admission_safety (u : Nat) : (s.admission u).safety = s.safety := rfl
@[simp] theorem State.admission_volz (u : Nat) : (s.admission u).volz = s.volz := rfl
@[simp] theorem State.admission_parts (u : Nat) : (s.admission u).parts = s.parts := rfl
@[simp] theorem State.admission_scrubs (u : Nat) : (s.admission u).scrubs = s.scrubs := rfl
@[simp] theorem State.admission_pci (u : Nat) : (s.admission u).pci = s.pci := rfl
@[simp] theorem State.admission_vectors (u : Nat) : (s.admission u).vectors = s.vectors := rfl
@[simp] theorem State.admission_slots (u : Nat) : (s.admission u).slots = s.slots := rfl
@[simp] theorem State.admission_steps (u : Nat) : (s.admission u).steps = s.steps := rfl
@[simp] theorem State.admission_nextStep (u : Nat) : (s.admission u).nextStep = s.nextStep := rfl
@[simp] theorem State.admission_kv (u : Nat) : (s.admission u).kv = s.kv := rfl
@[simp] theorem State.admission_nv (u : Nat) : (s.admission u).nv = s.nv := rfl
@[simp] theorem State.admission_boot (u : Nat) : (s.admission u).boot = s.boot := rfl
@[simp] theorem State.admission_sec (u : Nat) : (s.admission u).sec = s.sec := rfl
@[simp] theorem State.admission_pins (u : Nat) : (s.admission u).pins = s.pins := rfl
@[simp] theorem State.admission_power (u : Nat) : (s.admission u).power = s.power := rfl
@[simp] theorem State.admission_thermal (u : Nat) : (s.admission u).thermal = s.thermal := rfl
@[simp] theorem State.admission_adc (u : Nat) : (s.admission u).adc = s.adc := rfl
@[simp] theorem State.admission_clocks (u : Nat) : (s.admission u).clocks = s.clocks := rfl
@[simp] theorem State.admission_tiles (u : Nat) : (s.admission u).tiles = s.tiles := rfl
@[simp] theorem State.admission_teams (u : Nat) : (s.admission u).teams = s.teams := rfl
@[simp] theorem State.admission_seqs (u : Nat) : (s.admission u).seqs = s.seqs := rfl
@[simp] theorem State.admission_loads (u : Nat) : (s.admission u).loads = s.loads := rfl
@[simp] theorem State.admission_trace (u : Nat) : (s.admission u).trace = s.trace := rfl
@[simp] theorem State.admission_dbgState (u : Nat) : (s.admission u).dbgState = s.dbgState := rfl
@[simp] theorem State.admission_torus (u : Nat) : (s.admission u).torus = s.torus := rfl
@[simp] theorem State.admission_fabric (u : Nat) : (s.admission u).fabric = s.fabric := rfl
@[simp] theorem State.admission_fget (u : Nat) (h : Fld) : (s.admission u).fget h = s.fget h := rfl

@[simp] theorem State.setRegion_pending (r : Nat) (x : Region) : (s.setRegion r x).pending = s.pending := rfl
@[simp] theorem State.setRegion_now (r : Nat) (x : Region) : (s.setRegion r x).now = s.now := rfl
@[simp] theorem State.setRegion_fields (r : Nat) (x : Region) : (s.setRegion r x).fields = s.fields := rfl
@[simp] theorem State.setRegion_latched (r : Nat) (x : Region) : (s.setRegion r x).latched = s.latched := rfl
@[simp] theorem State.setRegion_mem (r : Nat) (x : Region) : (s.setRegion r x).mem = s.mem := rfl
@[simp] theorem State.setRegion_stale (r : Nat) (x : Region) : (s.setRegion r x).stale = s.stale := rfl
@[simp] theorem State.setRegion_syndromes (r : Nat) (x : Region) : (s.setRegion r x).syndromes = s.syndromes := rfl
@[simp] theorem State.setRegion_hardBlocks (r : Nat) (x : Region) : (s.setRegion r x).hardBlocks = s.hardBlocks := rfl
@[simp] theorem State.setRegion_softCe (r : Nat) (x : Region) : (s.setRegion r x).softCe = s.softCe := rfl
@[simp] theorem State.setRegion_hardTable (r : Nat) (x : Region) : (s.setRegion r x).hardTable = s.hardTable := rfl
@[simp] theorem State.setRegion_sweeps (r : Nat) (x : Region) : (s.setRegion r x).sweeps = s.sweeps := rfl
@[simp] theorem State.setRegion_retireWaits (r : Nat) (x : Region) : (s.setRegion r x).retireWaits = s.retireWaits := rfl
@[simp] theorem State.setRegion_out (r : Nat) (x : Region) : (s.setRegion r x).out = s.out := rfl
@[simp] theorem State.setRegion_freeCount (r : Nat) (x : Region) : (s.setRegion r x).freeCount = s.freeCount := rfl
@[simp] theorem State.setRegion_safety (r : Nat) (x : Region) : (s.setRegion r x).safety = s.safety := rfl
@[simp] theorem State.setRegion_volz (r : Nat) (x : Region) : (s.setRegion r x).volz = s.volz := rfl
@[simp] theorem State.setRegion_parts (r : Nat) (x : Region) : (s.setRegion r x).parts = s.parts := rfl
@[simp] theorem State.setRegion_scrubs (r : Nat) (x : Region) : (s.setRegion r x).scrubs = s.scrubs := rfl
@[simp] theorem State.setRegion_pci (r : Nat) (x : Region) : (s.setRegion r x).pci = s.pci := rfl
@[simp] theorem State.setRegion_vectors (r : Nat) (x : Region) : (s.setRegion r x).vectors = s.vectors := rfl
@[simp] theorem State.setRegion_slots (r : Nat) (x : Region) : (s.setRegion r x).slots = s.slots := rfl
@[simp] theorem State.setRegion_steps (r : Nat) (x : Region) : (s.setRegion r x).steps = s.steps := rfl
@[simp] theorem State.setRegion_nextStep (r : Nat) (x : Region) : (s.setRegion r x).nextStep = s.nextStep := rfl
@[simp] theorem State.setRegion_kv (r : Nat) (x : Region) : (s.setRegion r x).kv = s.kv := rfl
@[simp] theorem State.setRegion_nv (r : Nat) (x : Region) : (s.setRegion r x).nv = s.nv := rfl
@[simp] theorem State.setRegion_boot (r : Nat) (x : Region) : (s.setRegion r x).boot = s.boot := rfl
@[simp] theorem State.setRegion_sec (r : Nat) (x : Region) : (s.setRegion r x).sec = s.sec := rfl
@[simp] theorem State.setRegion_pins (r : Nat) (x : Region) : (s.setRegion r x).pins = s.pins := rfl
@[simp] theorem State.setRegion_power (r : Nat) (x : Region) : (s.setRegion r x).power = s.power := rfl
@[simp] theorem State.setRegion_thermal (r : Nat) (x : Region) : (s.setRegion r x).thermal = s.thermal := rfl
@[simp] theorem State.setRegion_adc (r : Nat) (x : Region) : (s.setRegion r x).adc = s.adc := rfl
@[simp] theorem State.setRegion_tiles (r : Nat) (x : Region) : (s.setRegion r x).tiles = s.tiles := rfl
@[simp] theorem State.setRegion_teams (r : Nat) (x : Region) : (s.setRegion r x).teams = s.teams := rfl
@[simp] theorem State.setRegion_seqs (r : Nat) (x : Region) : (s.setRegion r x).seqs = s.seqs := rfl
@[simp] theorem State.setRegion_loads (r : Nat) (x : Region) : (s.setRegion r x).loads = s.loads := rfl
@[simp] theorem State.setRegion_trace (r : Nat) (x : Region) : (s.setRegion r x).trace = s.trace := rfl
@[simp] theorem State.setRegion_dbgState (r : Nat) (x : Region) : (s.setRegion r x).dbgState = s.dbgState := rfl
@[simp] theorem State.setRegion_torus (r : Nat) (x : Region) : (s.setRegion r x).torus = s.torus := rfl
@[simp] theorem State.setRegion_admissions (r : Nat) (x : Region) : (s.setRegion r x).admissions = s.admissions := rfl
@[simp] theorem State.setRegion_fabric (r : Nat) (x : Region) : (s.setRegion r x).fabric = s.fabric := rfl
@[simp] theorem State.setRegion_fget (r : Nat) (x : Region) (h : Fld) : (s.setRegion r x).fget h = s.fget h := rfl

@[simp] theorem State.setTeam_pending (t : Nat) (x : Team) : (s.setTeam t x).pending = s.pending := rfl
@[simp] theorem State.setTeam_now (t : Nat) (x : Team) : (s.setTeam t x).now = s.now := rfl
@[simp] theorem State.setTeam_fields (t : Nat) (x : Team) : (s.setTeam t x).fields = s.fields := rfl
@[simp] theorem State.setTeam_latched (t : Nat) (x : Team) : (s.setTeam t x).latched = s.latched := rfl
@[simp] theorem State.setTeam_mem (t : Nat) (x : Team) : (s.setTeam t x).mem = s.mem := rfl
@[simp] theorem State.setTeam_stale (t : Nat) (x : Team) : (s.setTeam t x).stale = s.stale := rfl
@[simp] theorem State.setTeam_syndromes (t : Nat) (x : Team) : (s.setTeam t x).syndromes = s.syndromes := rfl
@[simp] theorem State.setTeam_hardBlocks (t : Nat) (x : Team) : (s.setTeam t x).hardBlocks = s.hardBlocks := rfl
@[simp] theorem State.setTeam_softCe (t : Nat) (x : Team) : (s.setTeam t x).softCe = s.softCe := rfl
@[simp] theorem State.setTeam_hardTable (t : Nat) (x : Team) : (s.setTeam t x).hardTable = s.hardTable := rfl
@[simp] theorem State.setTeam_sweeps (t : Nat) (x : Team) : (s.setTeam t x).sweeps = s.sweeps := rfl
@[simp] theorem State.setTeam_retireWaits (t : Nat) (x : Team) : (s.setTeam t x).retireWaits = s.retireWaits := rfl
@[simp] theorem State.setTeam_out (t : Nat) (x : Team) : (s.setTeam t x).out = s.out := rfl
@[simp] theorem State.setTeam_freeCount (t : Nat) (x : Team) : (s.setTeam t x).freeCount = s.freeCount := rfl
@[simp] theorem State.setTeam_safety (t : Nat) (x : Team) : (s.setTeam t x).safety = s.safety := rfl
@[simp] theorem State.setTeam_volz (t : Nat) (x : Team) : (s.setTeam t x).volz = s.volz := rfl
@[simp] theorem State.setTeam_parts (t : Nat) (x : Team) : (s.setTeam t x).parts = s.parts := rfl
@[simp] theorem State.setTeam_scrubs (t : Nat) (x : Team) : (s.setTeam t x).scrubs = s.scrubs := rfl
@[simp] theorem State.setTeam_pci (t : Nat) (x : Team) : (s.setTeam t x).pci = s.pci := rfl
@[simp] theorem State.setTeam_vectors (t : Nat) (x : Team) : (s.setTeam t x).vectors = s.vectors := rfl
@[simp] theorem State.setTeam_slots (t : Nat) (x : Team) : (s.setTeam t x).slots = s.slots := rfl
@[simp] theorem State.setTeam_steps (t : Nat) (x : Team) : (s.setTeam t x).steps = s.steps := rfl
@[simp] theorem State.setTeam_nextStep (t : Nat) (x : Team) : (s.setTeam t x).nextStep = s.nextStep := rfl
@[simp] theorem State.setTeam_kv (t : Nat) (x : Team) : (s.setTeam t x).kv = s.kv := rfl
@[simp] theorem State.setTeam_nv (t : Nat) (x : Team) : (s.setTeam t x).nv = s.nv := rfl
@[simp] theorem State.setTeam_boot (t : Nat) (x : Team) : (s.setTeam t x).boot = s.boot := rfl
@[simp] theorem State.setTeam_sec (t : Nat) (x : Team) : (s.setTeam t x).sec = s.sec := rfl
@[simp] theorem State.setTeam_pins (t : Nat) (x : Team) : (s.setTeam t x).pins = s.pins := rfl
@[simp] theorem State.setTeam_power (t : Nat) (x : Team) : (s.setTeam t x).power = s.power := rfl
@[simp] theorem State.setTeam_thermal (t : Nat) (x : Team) : (s.setTeam t x).thermal = s.thermal := rfl
@[simp] theorem State.setTeam_adc (t : Nat) (x : Team) : (s.setTeam t x).adc = s.adc := rfl
@[simp] theorem State.setTeam_clocks (t : Nat) (x : Team) : (s.setTeam t x).clocks = s.clocks := rfl
@[simp] theorem State.setTeam_tiles (t : Nat) (x : Team) : (s.setTeam t x).tiles = s.tiles := rfl
@[simp] theorem State.setTeam_seqs (t : Nat) (x : Team) : (s.setTeam t x).seqs = s.seqs := rfl
@[simp] theorem State.setTeam_loads (t : Nat) (x : Team) : (s.setTeam t x).loads = s.loads := rfl
@[simp] theorem State.setTeam_trace (t : Nat) (x : Team) : (s.setTeam t x).trace = s.trace := rfl
@[simp] theorem State.setTeam_dbgState (t : Nat) (x : Team) : (s.setTeam t x).dbgState = s.dbgState := rfl
@[simp] theorem State.setTeam_torus (t : Nat) (x : Team) : (s.setTeam t x).torus = s.torus := rfl
@[simp] theorem State.setTeam_admissions (t : Nat) (x : Team) : (s.setTeam t x).admissions = s.admissions := rfl
@[simp] theorem State.setTeam_fabric (t : Nat) (x : Team) : (s.setTeam t x).fabric = s.fabric := rfl
@[simp] theorem State.setTeam_fget (t : Nat) (x : Team) (h : Fld) : (s.setTeam t x).fget h = s.fget h := rfl

@[simp] theorem State.setTile_pending (t k : Nat) (x : Tile) : (s.setTile t k x).pending = s.pending := rfl
@[simp] theorem State.setTile_now (t k : Nat) (x : Tile) : (s.setTile t k x).now = s.now := rfl
@[simp] theorem State.setTile_fields (t k : Nat) (x : Tile) : (s.setTile t k x).fields = s.fields := rfl
@[simp] theorem State.setTile_latched (t k : Nat) (x : Tile) : (s.setTile t k x).latched = s.latched := rfl
@[simp] theorem State.setTile_mem (t k : Nat) (x : Tile) : (s.setTile t k x).mem = s.mem := rfl
@[simp] theorem State.setTile_stale (t k : Nat) (x : Tile) : (s.setTile t k x).stale = s.stale := rfl
@[simp] theorem State.setTile_syndromes (t k : Nat) (x : Tile) : (s.setTile t k x).syndromes = s.syndromes := rfl
@[simp] theorem State.setTile_hardBlocks (t k : Nat) (x : Tile) : (s.setTile t k x).hardBlocks = s.hardBlocks := rfl
@[simp] theorem State.setTile_softCe (t k : Nat) (x : Tile) : (s.setTile t k x).softCe = s.softCe := rfl
@[simp] theorem State.setTile_hardTable (t k : Nat) (x : Tile) : (s.setTile t k x).hardTable = s.hardTable := rfl
@[simp] theorem State.setTile_sweeps (t k : Nat) (x : Tile) : (s.setTile t k x).sweeps = s.sweeps := rfl
@[simp] theorem State.setTile_retireWaits (t k : Nat) (x : Tile) : (s.setTile t k x).retireWaits = s.retireWaits := rfl
@[simp] theorem State.setTile_out (t k : Nat) (x : Tile) : (s.setTile t k x).out = s.out := rfl
@[simp] theorem State.setTile_freeCount (t k : Nat) (x : Tile) : (s.setTile t k x).freeCount = s.freeCount := rfl
@[simp] theorem State.setTile_safety (t k : Nat) (x : Tile) : (s.setTile t k x).safety = s.safety := rfl
@[simp] theorem State.setTile_volz (t k : Nat) (x : Tile) : (s.setTile t k x).volz = s.volz := rfl
@[simp] theorem State.setTile_parts (t k : Nat) (x : Tile) : (s.setTile t k x).parts = s.parts := rfl
@[simp] theorem State.setTile_scrubs (t k : Nat) (x : Tile) : (s.setTile t k x).scrubs = s.scrubs := rfl
@[simp] theorem State.setTile_pci (t k : Nat) (x : Tile) : (s.setTile t k x).pci = s.pci := rfl
@[simp] theorem State.setTile_vectors (t k : Nat) (x : Tile) : (s.setTile t k x).vectors = s.vectors := rfl
@[simp] theorem State.setTile_slots (t k : Nat) (x : Tile) : (s.setTile t k x).slots = s.slots := rfl
@[simp] theorem State.setTile_steps (t k : Nat) (x : Tile) : (s.setTile t k x).steps = s.steps := rfl
@[simp] theorem State.setTile_nextStep (t k : Nat) (x : Tile) : (s.setTile t k x).nextStep = s.nextStep := rfl
@[simp] theorem State.setTile_kv (t k : Nat) (x : Tile) : (s.setTile t k x).kv = s.kv := rfl
@[simp] theorem State.setTile_nv (t k : Nat) (x : Tile) : (s.setTile t k x).nv = s.nv := rfl
@[simp] theorem State.setTile_boot (t k : Nat) (x : Tile) : (s.setTile t k x).boot = s.boot := rfl
@[simp] theorem State.setTile_sec (t k : Nat) (x : Tile) : (s.setTile t k x).sec = s.sec := rfl
@[simp] theorem State.setTile_pins (t k : Nat) (x : Tile) : (s.setTile t k x).pins = s.pins := rfl
@[simp] theorem State.setTile_power (t k : Nat) (x : Tile) : (s.setTile t k x).power = s.power := rfl
@[simp] theorem State.setTile_thermal (t k : Nat) (x : Tile) : (s.setTile t k x).thermal = s.thermal := rfl
@[simp] theorem State.setTile_adc (t k : Nat) (x : Tile) : (s.setTile t k x).adc = s.adc := rfl
@[simp] theorem State.setTile_clocks (t k : Nat) (x : Tile) : (s.setTile t k x).clocks = s.clocks := rfl
@[simp] theorem State.setTile_teams (t k : Nat) (x : Tile) : (s.setTile t k x).teams = s.teams := rfl
@[simp] theorem State.setTile_seqs (t k : Nat) (x : Tile) : (s.setTile t k x).seqs = s.seqs := rfl
@[simp] theorem State.setTile_loads (t k : Nat) (x : Tile) : (s.setTile t k x).loads = s.loads := rfl
@[simp] theorem State.setTile_trace (t k : Nat) (x : Tile) : (s.setTile t k x).trace = s.trace := rfl
@[simp] theorem State.setTile_dbgState (t k : Nat) (x : Tile) : (s.setTile t k x).dbgState = s.dbgState := rfl
@[simp] theorem State.setTile_torus (t k : Nat) (x : Tile) : (s.setTile t k x).torus = s.torus := rfl
@[simp] theorem State.setTile_admissions (t k : Nat) (x : Tile) : (s.setTile t k x).admissions = s.admissions := rfl
@[simp] theorem State.setTile_fabric (t k : Nat) (x : Tile) : (s.setTile t k x).fabric = s.fabric := rfl
@[simp] theorem State.setTile_fget (t k : Nat) (x : Tile) (h : Fld) : (s.setTile t k x).fget h = s.fget h := rfl

@[simp] theorem State.setSlot_pending (g : Nat) (x : Slot) : (s.setSlot g x).pending = s.pending := rfl
@[simp] theorem State.setSlot_now (g : Nat) (x : Slot) : (s.setSlot g x).now = s.now := rfl
@[simp] theorem State.setSlot_fields (g : Nat) (x : Slot) : (s.setSlot g x).fields = s.fields := rfl
@[simp] theorem State.setSlot_latched (g : Nat) (x : Slot) : (s.setSlot g x).latched = s.latched := rfl
@[simp] theorem State.setSlot_mem (g : Nat) (x : Slot) : (s.setSlot g x).mem = s.mem := rfl
@[simp] theorem State.setSlot_stale (g : Nat) (x : Slot) : (s.setSlot g x).stale = s.stale := rfl
@[simp] theorem State.setSlot_syndromes (g : Nat) (x : Slot) : (s.setSlot g x).syndromes = s.syndromes := rfl
@[simp] theorem State.setSlot_hardBlocks (g : Nat) (x : Slot) : (s.setSlot g x).hardBlocks = s.hardBlocks := rfl
@[simp] theorem State.setSlot_softCe (g : Nat) (x : Slot) : (s.setSlot g x).softCe = s.softCe := rfl
@[simp] theorem State.setSlot_hardTable (g : Nat) (x : Slot) : (s.setSlot g x).hardTable = s.hardTable := rfl
@[simp] theorem State.setSlot_sweeps (g : Nat) (x : Slot) : (s.setSlot g x).sweeps = s.sweeps := rfl
@[simp] theorem State.setSlot_retireWaits (g : Nat) (x : Slot) : (s.setSlot g x).retireWaits = s.retireWaits := rfl
@[simp] theorem State.setSlot_out (g : Nat) (x : Slot) : (s.setSlot g x).out = s.out := rfl
@[simp] theorem State.setSlot_freeCount (g : Nat) (x : Slot) : (s.setSlot g x).freeCount = s.freeCount := rfl
@[simp] theorem State.setSlot_safety (g : Nat) (x : Slot) : (s.setSlot g x).safety = s.safety := rfl
@[simp] theorem State.setSlot_volz (g : Nat) (x : Slot) : (s.setSlot g x).volz = s.volz := rfl
@[simp] theorem State.setSlot_parts (g : Nat) (x : Slot) : (s.setSlot g x).parts = s.parts := rfl
@[simp] theorem State.setSlot_scrubs (g : Nat) (x : Slot) : (s.setSlot g x).scrubs = s.scrubs := rfl
@[simp] theorem State.setSlot_pci (g : Nat) (x : Slot) : (s.setSlot g x).pci = s.pci := rfl
@[simp] theorem State.setSlot_vectors (g : Nat) (x : Slot) : (s.setSlot g x).vectors = s.vectors := rfl
@[simp] theorem State.setSlot_steps (g : Nat) (x : Slot) : (s.setSlot g x).steps = s.steps := rfl
@[simp] theorem State.setSlot_nextStep (g : Nat) (x : Slot) : (s.setSlot g x).nextStep = s.nextStep := rfl
@[simp] theorem State.setSlot_kv (g : Nat) (x : Slot) : (s.setSlot g x).kv = s.kv := rfl
@[simp] theorem State.setSlot_nv (g : Nat) (x : Slot) : (s.setSlot g x).nv = s.nv := rfl
@[simp] theorem State.setSlot_boot (g : Nat) (x : Slot) : (s.setSlot g x).boot = s.boot := rfl
@[simp] theorem State.setSlot_sec (g : Nat) (x : Slot) : (s.setSlot g x).sec = s.sec := rfl
@[simp] theorem State.setSlot_pins (g : Nat) (x : Slot) : (s.setSlot g x).pins = s.pins := rfl
@[simp] theorem State.setSlot_power (g : Nat) (x : Slot) : (s.setSlot g x).power = s.power := rfl
@[simp] theorem State.setSlot_thermal (g : Nat) (x : Slot) : (s.setSlot g x).thermal = s.thermal := rfl
@[simp] theorem State.setSlot_adc (g : Nat) (x : Slot) : (s.setSlot g x).adc = s.adc := rfl
@[simp] theorem State.setSlot_clocks (g : Nat) (x : Slot) : (s.setSlot g x).clocks = s.clocks := rfl
@[simp] theorem State.setSlot_tiles (g : Nat) (x : Slot) : (s.setSlot g x).tiles = s.tiles := rfl
@[simp] theorem State.setSlot_teams (g : Nat) (x : Slot) : (s.setSlot g x).teams = s.teams := rfl
@[simp] theorem State.setSlot_seqs (g : Nat) (x : Slot) : (s.setSlot g x).seqs = s.seqs := rfl
@[simp] theorem State.setSlot_loads (g : Nat) (x : Slot) : (s.setSlot g x).loads = s.loads := rfl
@[simp] theorem State.setSlot_trace (g : Nat) (x : Slot) : (s.setSlot g x).trace = s.trace := rfl
@[simp] theorem State.setSlot_dbgState (g : Nat) (x : Slot) : (s.setSlot g x).dbgState = s.dbgState := rfl
@[simp] theorem State.setSlot_torus (g : Nat) (x : Slot) : (s.setSlot g x).torus = s.torus := rfl
@[simp] theorem State.setSlot_admissions (g : Nat) (x : Slot) : (s.setSlot g x).admissions = s.admissions := rfl
@[simp] theorem State.setSlot_fabric (g : Nat) (x : Slot) : (s.setSlot g x).fabric = s.fabric := rfl
@[simp] theorem State.setSlot_fget (g : Nat) (x : Slot) (h : Fld) : (s.setSlot g x).fget h = s.fget h := rfl

@[simp] theorem State.setStep_pending (x : Step) : (s.setStep x).pending = s.pending := rfl
@[simp] theorem State.setStep_now (x : Step) : (s.setStep x).now = s.now := rfl
@[simp] theorem State.setStep_fields (x : Step) : (s.setStep x).fields = s.fields := rfl
@[simp] theorem State.setStep_latched (x : Step) : (s.setStep x).latched = s.latched := rfl
@[simp] theorem State.setStep_mem (x : Step) : (s.setStep x).mem = s.mem := rfl
@[simp] theorem State.setStep_stale (x : Step) : (s.setStep x).stale = s.stale := rfl
@[simp] theorem State.setStep_syndromes (x : Step) : (s.setStep x).syndromes = s.syndromes := rfl
@[simp] theorem State.setStep_hardBlocks (x : Step) : (s.setStep x).hardBlocks = s.hardBlocks := rfl
@[simp] theorem State.setStep_softCe (x : Step) : (s.setStep x).softCe = s.softCe := rfl
@[simp] theorem State.setStep_hardTable (x : Step) : (s.setStep x).hardTable = s.hardTable := rfl
@[simp] theorem State.setStep_sweeps (x : Step) : (s.setStep x).sweeps = s.sweeps := rfl
@[simp] theorem State.setStep_retireWaits (x : Step) : (s.setStep x).retireWaits = s.retireWaits := rfl
@[simp] theorem State.setStep_out (x : Step) : (s.setStep x).out = s.out := rfl
@[simp] theorem State.setStep_freeCount (x : Step) : (s.setStep x).freeCount = s.freeCount := rfl
@[simp] theorem State.setStep_safety (x : Step) : (s.setStep x).safety = s.safety := rfl
@[simp] theorem State.setStep_volz (x : Step) : (s.setStep x).volz = s.volz := rfl
@[simp] theorem State.setStep_parts (x : Step) : (s.setStep x).parts = s.parts := rfl
@[simp] theorem State.setStep_scrubs (x : Step) : (s.setStep x).scrubs = s.scrubs := rfl
@[simp] theorem State.setStep_pci (x : Step) : (s.setStep x).pci = s.pci := rfl
@[simp] theorem State.setStep_vectors (x : Step) : (s.setStep x).vectors = s.vectors := rfl
@[simp] theorem State.setStep_slots (x : Step) : (s.setStep x).slots = s.slots := rfl
@[simp] theorem State.setStep_nextStep (x : Step) : (s.setStep x).nextStep = s.nextStep := rfl
@[simp] theorem State.setStep_kv (x : Step) : (s.setStep x).kv = s.kv := rfl
@[simp] theorem State.setStep_nv (x : Step) : (s.setStep x).nv = s.nv := rfl
@[simp] theorem State.setStep_boot (x : Step) : (s.setStep x).boot = s.boot := rfl
@[simp] theorem State.setStep_sec (x : Step) : (s.setStep x).sec = s.sec := rfl
@[simp] theorem State.setStep_pins (x : Step) : (s.setStep x).pins = s.pins := rfl
@[simp] theorem State.setStep_power (x : Step) : (s.setStep x).power = s.power := rfl
@[simp] theorem State.setStep_thermal (x : Step) : (s.setStep x).thermal = s.thermal := rfl
@[simp] theorem State.setStep_adc (x : Step) : (s.setStep x).adc = s.adc := rfl
@[simp] theorem State.setStep_clocks (x : Step) : (s.setStep x).clocks = s.clocks := rfl
@[simp] theorem State.setStep_tiles (x : Step) : (s.setStep x).tiles = s.tiles := rfl
@[simp] theorem State.setStep_teams (x : Step) : (s.setStep x).teams = s.teams := rfl
@[simp] theorem State.setStep_seqs (x : Step) : (s.setStep x).seqs = s.seqs := rfl
@[simp] theorem State.setStep_loads (x : Step) : (s.setStep x).loads = s.loads := rfl
@[simp] theorem State.setStep_trace (x : Step) : (s.setStep x).trace = s.trace := rfl
@[simp] theorem State.setStep_dbgState (x : Step) : (s.setStep x).dbgState = s.dbgState := rfl
@[simp] theorem State.setStep_torus (x : Step) : (s.setStep x).torus = s.torus := rfl
@[simp] theorem State.setStep_admissions (x : Step) : (s.setStep x).admissions = s.admissions := rfl
@[simp] theorem State.setStep_fabric (x : Step) : (s.setStep x).fabric = s.fabric := rfl
@[simp] theorem State.setStep_fget (x : Step) (h : Fld) : (s.setStep x).fget h = s.fget h := rfl

@[simp] theorem State.modStep_pending (id : Nat) (f : Step → Step) : (s.modStep id f).pending = s.pending := rfl
@[simp] theorem State.modStep_now (id : Nat) (f : Step → Step) : (s.modStep id f).now = s.now := rfl
@[simp] theorem State.modStep_fields (id : Nat) (f : Step → Step) : (s.modStep id f).fields = s.fields := rfl
@[simp] theorem State.modStep_latched (id : Nat) (f : Step → Step) : (s.modStep id f).latched = s.latched := rfl
@[simp] theorem State.modStep_mem (id : Nat) (f : Step → Step) : (s.modStep id f).mem = s.mem := rfl
@[simp] theorem State.modStep_stale (id : Nat) (f : Step → Step) : (s.modStep id f).stale = s.stale := rfl
@[simp] theorem State.modStep_syndromes (id : Nat) (f : Step → Step) : (s.modStep id f).syndromes = s.syndromes := rfl
@[simp] theorem State.modStep_hardBlocks (id : Nat) (f : Step → Step) : (s.modStep id f).hardBlocks = s.hardBlocks := rfl
@[simp] theorem State.modStep_softCe (id : Nat) (f : Step → Step) : (s.modStep id f).softCe = s.softCe := rfl
@[simp] theorem State.modStep_hardTable (id : Nat) (f : Step → Step) : (s.modStep id f).hardTable = s.hardTable := rfl
@[simp] theorem State.modStep_sweeps (id : Nat) (f : Step → Step) : (s.modStep id f).sweeps = s.sweeps := rfl
@[simp] theorem State.modStep_retireWaits (id : Nat) (f : Step → Step) : (s.modStep id f).retireWaits = s.retireWaits := rfl
@[simp] theorem State.modStep_out (id : Nat) (f : Step → Step) : (s.modStep id f).out = s.out := rfl
@[simp] theorem State.modStep_freeCount (id : Nat) (f : Step → Step) : (s.modStep id f).freeCount = s.freeCount := rfl
@[simp] theorem State.modStep_safety (id : Nat) (f : Step → Step) : (s.modStep id f).safety = s.safety := rfl
@[simp] theorem State.modStep_volz (id : Nat) (f : Step → Step) : (s.modStep id f).volz = s.volz := rfl
@[simp] theorem State.modStep_parts (id : Nat) (f : Step → Step) : (s.modStep id f).parts = s.parts := rfl
@[simp] theorem State.modStep_scrubs (id : Nat) (f : Step → Step) : (s.modStep id f).scrubs = s.scrubs := rfl
@[simp] theorem State.modStep_pci (id : Nat) (f : Step → Step) : (s.modStep id f).pci = s.pci := rfl
@[simp] theorem State.modStep_vectors (id : Nat) (f : Step → Step) : (s.modStep id f).vectors = s.vectors := rfl
@[simp] theorem State.modStep_slots (id : Nat) (f : Step → Step) : (s.modStep id f).slots = s.slots := rfl
@[simp] theorem State.modStep_nextStep (id : Nat) (f : Step → Step) : (s.modStep id f).nextStep = s.nextStep := rfl
@[simp] theorem State.modStep_kv (id : Nat) (f : Step → Step) : (s.modStep id f).kv = s.kv := rfl
@[simp] theorem State.modStep_nv (id : Nat) (f : Step → Step) : (s.modStep id f).nv = s.nv := rfl
@[simp] theorem State.modStep_boot (id : Nat) (f : Step → Step) : (s.modStep id f).boot = s.boot := rfl
@[simp] theorem State.modStep_sec (id : Nat) (f : Step → Step) : (s.modStep id f).sec = s.sec := rfl
@[simp] theorem State.modStep_pins (id : Nat) (f : Step → Step) : (s.modStep id f).pins = s.pins := rfl
@[simp] theorem State.modStep_power (id : Nat) (f : Step → Step) : (s.modStep id f).power = s.power := rfl
@[simp] theorem State.modStep_thermal (id : Nat) (f : Step → Step) : (s.modStep id f).thermal = s.thermal := rfl
@[simp] theorem State.modStep_adc (id : Nat) (f : Step → Step) : (s.modStep id f).adc = s.adc := rfl
@[simp] theorem State.modStep_clocks (id : Nat) (f : Step → Step) : (s.modStep id f).clocks = s.clocks := rfl
@[simp] theorem State.modStep_tiles (id : Nat) (f : Step → Step) : (s.modStep id f).tiles = s.tiles := rfl
@[simp] theorem State.modStep_teams (id : Nat) (f : Step → Step) : (s.modStep id f).teams = s.teams := rfl
@[simp] theorem State.modStep_seqs (id : Nat) (f : Step → Step) : (s.modStep id f).seqs = s.seqs := rfl
@[simp] theorem State.modStep_loads (id : Nat) (f : Step → Step) : (s.modStep id f).loads = s.loads := rfl
@[simp] theorem State.modStep_trace (id : Nat) (f : Step → Step) : (s.modStep id f).trace = s.trace := rfl
@[simp] theorem State.modStep_dbgState (id : Nat) (f : Step → Step) : (s.modStep id f).dbgState = s.dbgState := rfl
@[simp] theorem State.modStep_torus (id : Nat) (f : Step → Step) : (s.modStep id f).torus = s.torus := rfl
@[simp] theorem State.modStep_admissions (id : Nat) (f : Step → Step) : (s.modStep id f).admissions = s.admissions := rfl
@[simp] theorem State.modStep_fabric (id : Nat) (f : Step → Step) : (s.modStep id f).fabric = s.fabric := rfl
@[simp] theorem State.modStep_fget (id : Nat) (f : Step → Step) (h : Fld) : (s.modStep id f).fget h = s.fget h := rfl

@[simp] theorem State.setSeqr_pending (x : Nat) (q : Seq) : (s.setSeqr x q).pending = s.pending := rfl
@[simp] theorem State.setSeqr_now (x : Nat) (q : Seq) : (s.setSeqr x q).now = s.now := rfl
@[simp] theorem State.setSeqr_fields (x : Nat) (q : Seq) : (s.setSeqr x q).fields = s.fields := rfl
@[simp] theorem State.setSeqr_latched (x : Nat) (q : Seq) : (s.setSeqr x q).latched = s.latched := rfl
@[simp] theorem State.setSeqr_mem (x : Nat) (q : Seq) : (s.setSeqr x q).mem = s.mem := rfl
@[simp] theorem State.setSeqr_stale (x : Nat) (q : Seq) : (s.setSeqr x q).stale = s.stale := rfl
@[simp] theorem State.setSeqr_syndromes (x : Nat) (q : Seq) : (s.setSeqr x q).syndromes = s.syndromes := rfl
@[simp] theorem State.setSeqr_hardBlocks (x : Nat) (q : Seq) : (s.setSeqr x q).hardBlocks = s.hardBlocks := rfl
@[simp] theorem State.setSeqr_softCe (x : Nat) (q : Seq) : (s.setSeqr x q).softCe = s.softCe := rfl
@[simp] theorem State.setSeqr_hardTable (x : Nat) (q : Seq) : (s.setSeqr x q).hardTable = s.hardTable := rfl
@[simp] theorem State.setSeqr_sweeps (x : Nat) (q : Seq) : (s.setSeqr x q).sweeps = s.sweeps := rfl
@[simp] theorem State.setSeqr_retireWaits (x : Nat) (q : Seq) : (s.setSeqr x q).retireWaits = s.retireWaits := rfl
@[simp] theorem State.setSeqr_out (x : Nat) (q : Seq) : (s.setSeqr x q).out = s.out := rfl
@[simp] theorem State.setSeqr_freeCount (x : Nat) (q : Seq) : (s.setSeqr x q).freeCount = s.freeCount := rfl
@[simp] theorem State.setSeqr_safety (x : Nat) (q : Seq) : (s.setSeqr x q).safety = s.safety := rfl
@[simp] theorem State.setSeqr_volz (x : Nat) (q : Seq) : (s.setSeqr x q).volz = s.volz := rfl
@[simp] theorem State.setSeqr_parts (x : Nat) (q : Seq) : (s.setSeqr x q).parts = s.parts := rfl
@[simp] theorem State.setSeqr_scrubs (x : Nat) (q : Seq) : (s.setSeqr x q).scrubs = s.scrubs := rfl
@[simp] theorem State.setSeqr_pci (x : Nat) (q : Seq) : (s.setSeqr x q).pci = s.pci := rfl
@[simp] theorem State.setSeqr_vectors (x : Nat) (q : Seq) : (s.setSeqr x q).vectors = s.vectors := rfl
@[simp] theorem State.setSeqr_slots (x : Nat) (q : Seq) : (s.setSeqr x q).slots = s.slots := rfl
@[simp] theorem State.setSeqr_steps (x : Nat) (q : Seq) : (s.setSeqr x q).steps = s.steps := rfl
@[simp] theorem State.setSeqr_nextStep (x : Nat) (q : Seq) : (s.setSeqr x q).nextStep = s.nextStep := rfl
@[simp] theorem State.setSeqr_kv (x : Nat) (q : Seq) : (s.setSeqr x q).kv = s.kv := rfl
@[simp] theorem State.setSeqr_nv (x : Nat) (q : Seq) : (s.setSeqr x q).nv = s.nv := rfl
@[simp] theorem State.setSeqr_boot (x : Nat) (q : Seq) : (s.setSeqr x q).boot = s.boot := rfl
@[simp] theorem State.setSeqr_sec (x : Nat) (q : Seq) : (s.setSeqr x q).sec = s.sec := rfl
@[simp] theorem State.setSeqr_pins (x : Nat) (q : Seq) : (s.setSeqr x q).pins = s.pins := rfl
@[simp] theorem State.setSeqr_power (x : Nat) (q : Seq) : (s.setSeqr x q).power = s.power := rfl
@[simp] theorem State.setSeqr_thermal (x : Nat) (q : Seq) : (s.setSeqr x q).thermal = s.thermal := rfl
@[simp] theorem State.setSeqr_adc (x : Nat) (q : Seq) : (s.setSeqr x q).adc = s.adc := rfl
@[simp] theorem State.setSeqr_clocks (x : Nat) (q : Seq) : (s.setSeqr x q).clocks = s.clocks := rfl
@[simp] theorem State.setSeqr_tiles (x : Nat) (q : Seq) : (s.setSeqr x q).tiles = s.tiles := rfl
@[simp] theorem State.setSeqr_teams (x : Nat) (q : Seq) : (s.setSeqr x q).teams = s.teams := rfl
@[simp] theorem State.setSeqr_loads (x : Nat) (q : Seq) : (s.setSeqr x q).loads = s.loads := rfl
@[simp] theorem State.setSeqr_trace (x : Nat) (q : Seq) : (s.setSeqr x q).trace = s.trace := rfl
@[simp] theorem State.setSeqr_dbgState (x : Nat) (q : Seq) : (s.setSeqr x q).dbgState = s.dbgState := rfl
@[simp] theorem State.setSeqr_torus (x : Nat) (q : Seq) : (s.setSeqr x q).torus = s.torus := rfl
@[simp] theorem State.setSeqr_admissions (x : Nat) (q : Seq) : (s.setSeqr x q).admissions = s.admissions := rfl
@[simp] theorem State.setSeqr_fabric (x : Nat) (q : Seq) : (s.setSeqr x q).fabric = s.fabric := rfl
@[simp] theorem State.setSeqr_fget (x : Nat) (q : Seq) (h : Fld) : (s.setSeqr x q).fget h = s.fget h := rfl

@[simp] theorem State.setPage_pending (p id : Nat) (x : Page) : (s.setPage p id x).pending = s.pending := rfl
@[simp] theorem State.setPage_now (p id : Nat) (x : Page) : (s.setPage p id x).now = s.now := rfl
@[simp] theorem State.setPage_fields (p id : Nat) (x : Page) : (s.setPage p id x).fields = s.fields := rfl
@[simp] theorem State.setPage_latched (p id : Nat) (x : Page) : (s.setPage p id x).latched = s.latched := rfl
@[simp] theorem State.setPage_mem (p id : Nat) (x : Page) : (s.setPage p id x).mem = s.mem := rfl
@[simp] theorem State.setPage_stale (p id : Nat) (x : Page) : (s.setPage p id x).stale = s.stale := rfl
@[simp] theorem State.setPage_syndromes (p id : Nat) (x : Page) : (s.setPage p id x).syndromes = s.syndromes := rfl
@[simp] theorem State.setPage_hardBlocks (p id : Nat) (x : Page) : (s.setPage p id x).hardBlocks = s.hardBlocks := rfl
@[simp] theorem State.setPage_softCe (p id : Nat) (x : Page) : (s.setPage p id x).softCe = s.softCe := rfl
@[simp] theorem State.setPage_hardTable (p id : Nat) (x : Page) : (s.setPage p id x).hardTable = s.hardTable := rfl
@[simp] theorem State.setPage_sweeps (p id : Nat) (x : Page) : (s.setPage p id x).sweeps = s.sweeps := rfl
@[simp] theorem State.setPage_retireWaits (p id : Nat) (x : Page) : (s.setPage p id x).retireWaits = s.retireWaits := rfl
@[simp] theorem State.setPage_out (p id : Nat) (x : Page) : (s.setPage p id x).out = s.out := rfl
@[simp] theorem State.setPage_freeCount (p id : Nat) (x : Page) : (s.setPage p id x).freeCount = s.freeCount := rfl
@[simp] theorem State.setPage_safety (p id : Nat) (x : Page) : (s.setPage p id x).safety = s.safety := rfl
@[simp] theorem State.setPage_volz (p id : Nat) (x : Page) : (s.setPage p id x).volz = s.volz := rfl
@[simp] theorem State.setPage_parts (p id : Nat) (x : Page) : (s.setPage p id x).parts = s.parts := rfl
@[simp] theorem State.setPage_scrubs (p id : Nat) (x : Page) : (s.setPage p id x).scrubs = s.scrubs := rfl
@[simp] theorem State.setPage_pci (p id : Nat) (x : Page) : (s.setPage p id x).pci = s.pci := rfl
@[simp] theorem State.setPage_vectors (p id : Nat) (x : Page) : (s.setPage p id x).vectors = s.vectors := rfl
@[simp] theorem State.setPage_slots (p id : Nat) (x : Page) : (s.setPage p id x).slots = s.slots := rfl
@[simp] theorem State.setPage_steps (p id : Nat) (x : Page) : (s.setPage p id x).steps = s.steps := rfl
@[simp] theorem State.setPage_nextStep (p id : Nat) (x : Page) : (s.setPage p id x).nextStep = s.nextStep := rfl
@[simp] theorem State.setPage_nv (p id : Nat) (x : Page) : (s.setPage p id x).nv = s.nv := rfl
@[simp] theorem State.setPage_boot (p id : Nat) (x : Page) : (s.setPage p id x).boot = s.boot := rfl
@[simp] theorem State.setPage_sec (p id : Nat) (x : Page) : (s.setPage p id x).sec = s.sec := rfl
@[simp] theorem State.setPage_pins (p id : Nat) (x : Page) : (s.setPage p id x).pins = s.pins := rfl
@[simp] theorem State.setPage_power (p id : Nat) (x : Page) : (s.setPage p id x).power = s.power := rfl
@[simp] theorem State.setPage_thermal (p id : Nat) (x : Page) : (s.setPage p id x).thermal = s.thermal := rfl
@[simp] theorem State.setPage_adc (p id : Nat) (x : Page) : (s.setPage p id x).adc = s.adc := rfl
@[simp] theorem State.setPage_clocks (p id : Nat) (x : Page) : (s.setPage p id x).clocks = s.clocks := rfl
@[simp] theorem State.setPage_tiles (p id : Nat) (x : Page) : (s.setPage p id x).tiles = s.tiles := rfl
@[simp] theorem State.setPage_teams (p id : Nat) (x : Page) : (s.setPage p id x).teams = s.teams := rfl
@[simp] theorem State.setPage_seqs (p id : Nat) (x : Page) : (s.setPage p id x).seqs = s.seqs := rfl
@[simp] theorem State.setPage_loads (p id : Nat) (x : Page) : (s.setPage p id x).loads = s.loads := rfl
@[simp] theorem State.setPage_trace (p id : Nat) (x : Page) : (s.setPage p id x).trace = s.trace := rfl
@[simp] theorem State.setPage_dbgState (p id : Nat) (x : Page) : (s.setPage p id x).dbgState = s.dbgState := rfl
@[simp] theorem State.setPage_torus (p id : Nat) (x : Page) : (s.setPage p id x).torus = s.torus := rfl
@[simp] theorem State.setPage_admissions (p id : Nat) (x : Page) : (s.setPage p id x).admissions = s.admissions := rfl
@[simp] theorem State.setPage_fabric (p id : Nat) (x : Page) : (s.setPage p id x).fabric = s.fabric := rfl
@[simp] theorem State.setPage_fget (p id : Nat) (x : Page) (h : Fld) : (s.setPage p id x).fget h = s.fget h := rfl

@[simp] theorem State.setSeq_pending (p n c : Nat) (x : SeqTab) : (s.setSeq p n c x).pending = s.pending := rfl
@[simp] theorem State.setSeq_now (p n c : Nat) (x : SeqTab) : (s.setSeq p n c x).now = s.now := rfl
@[simp] theorem State.setSeq_fields (p n c : Nat) (x : SeqTab) : (s.setSeq p n c x).fields = s.fields := rfl
@[simp] theorem State.setSeq_latched (p n c : Nat) (x : SeqTab) : (s.setSeq p n c x).latched = s.latched := rfl
@[simp] theorem State.setSeq_mem (p n c : Nat) (x : SeqTab) : (s.setSeq p n c x).mem = s.mem := rfl
@[simp] theorem State.setSeq_stale (p n c : Nat) (x : SeqTab) : (s.setSeq p n c x).stale = s.stale := rfl
@[simp] theorem State.setSeq_syndromes (p n c : Nat) (x : SeqTab) : (s.setSeq p n c x).syndromes = s.syndromes := rfl
@[simp] theorem State.setSeq_hardBlocks (p n c : Nat) (x : SeqTab) : (s.setSeq p n c x).hardBlocks = s.hardBlocks := rfl
@[simp] theorem State.setSeq_softCe (p n c : Nat) (x : SeqTab) : (s.setSeq p n c x).softCe = s.softCe := rfl
@[simp] theorem State.setSeq_hardTable (p n c : Nat) (x : SeqTab) : (s.setSeq p n c x).hardTable = s.hardTable := rfl
@[simp] theorem State.setSeq_sweeps (p n c : Nat) (x : SeqTab) : (s.setSeq p n c x).sweeps = s.sweeps := rfl
@[simp] theorem State.setSeq_retireWaits (p n c : Nat) (x : SeqTab) : (s.setSeq p n c x).retireWaits = s.retireWaits := rfl
@[simp] theorem State.setSeq_out (p n c : Nat) (x : SeqTab) : (s.setSeq p n c x).out = s.out := rfl
@[simp] theorem State.setSeq_freeCount (p n c : Nat) (x : SeqTab) : (s.setSeq p n c x).freeCount = s.freeCount := rfl
@[simp] theorem State.setSeq_safety (p n c : Nat) (x : SeqTab) : (s.setSeq p n c x).safety = s.safety := rfl
@[simp] theorem State.setSeq_volz (p n c : Nat) (x : SeqTab) : (s.setSeq p n c x).volz = s.volz := rfl
@[simp] theorem State.setSeq_parts (p n c : Nat) (x : SeqTab) : (s.setSeq p n c x).parts = s.parts := rfl
@[simp] theorem State.setSeq_scrubs (p n c : Nat) (x : SeqTab) : (s.setSeq p n c x).scrubs = s.scrubs := rfl
@[simp] theorem State.setSeq_pci (p n c : Nat) (x : SeqTab) : (s.setSeq p n c x).pci = s.pci := rfl
@[simp] theorem State.setSeq_vectors (p n c : Nat) (x : SeqTab) : (s.setSeq p n c x).vectors = s.vectors := rfl
@[simp] theorem State.setSeq_slots (p n c : Nat) (x : SeqTab) : (s.setSeq p n c x).slots = s.slots := rfl
@[simp] theorem State.setSeq_steps (p n c : Nat) (x : SeqTab) : (s.setSeq p n c x).steps = s.steps := rfl
@[simp] theorem State.setSeq_nextStep (p n c : Nat) (x : SeqTab) : (s.setSeq p n c x).nextStep = s.nextStep := rfl
@[simp] theorem State.setSeq_nv (p n c : Nat) (x : SeqTab) : (s.setSeq p n c x).nv = s.nv := rfl
@[simp] theorem State.setSeq_boot (p n c : Nat) (x : SeqTab) : (s.setSeq p n c x).boot = s.boot := rfl
@[simp] theorem State.setSeq_sec (p n c : Nat) (x : SeqTab) : (s.setSeq p n c x).sec = s.sec := rfl
@[simp] theorem State.setSeq_pins (p n c : Nat) (x : SeqTab) : (s.setSeq p n c x).pins = s.pins := rfl
@[simp] theorem State.setSeq_power (p n c : Nat) (x : SeqTab) : (s.setSeq p n c x).power = s.power := rfl
@[simp] theorem State.setSeq_thermal (p n c : Nat) (x : SeqTab) : (s.setSeq p n c x).thermal = s.thermal := rfl
@[simp] theorem State.setSeq_adc (p n c : Nat) (x : SeqTab) : (s.setSeq p n c x).adc = s.adc := rfl
@[simp] theorem State.setSeq_clocks (p n c : Nat) (x : SeqTab) : (s.setSeq p n c x).clocks = s.clocks := rfl
@[simp] theorem State.setSeq_tiles (p n c : Nat) (x : SeqTab) : (s.setSeq p n c x).tiles = s.tiles := rfl
@[simp] theorem State.setSeq_teams (p n c : Nat) (x : SeqTab) : (s.setSeq p n c x).teams = s.teams := rfl
@[simp] theorem State.setSeq_seqs (p n c : Nat) (x : SeqTab) : (s.setSeq p n c x).seqs = s.seqs := rfl
@[simp] theorem State.setSeq_loads (p n c : Nat) (x : SeqTab) : (s.setSeq p n c x).loads = s.loads := rfl
@[simp] theorem State.setSeq_trace (p n c : Nat) (x : SeqTab) : (s.setSeq p n c x).trace = s.trace := rfl
@[simp] theorem State.setSeq_dbgState (p n c : Nat) (x : SeqTab) : (s.setSeq p n c x).dbgState = s.dbgState := rfl
@[simp] theorem State.setSeq_torus (p n c : Nat) (x : SeqTab) : (s.setSeq p n c x).torus = s.torus := rfl
@[simp] theorem State.setSeq_admissions (p n c : Nat) (x : SeqTab) : (s.setSeq p n c x).admissions = s.admissions := rfl
@[simp] theorem State.setSeq_fabric (p n c : Nat) (x : SeqTab) : (s.setSeq p n c x).fabric = s.fabric := rfl
@[simp] theorem State.setSeq_fget (p n c : Nat) (x : SeqTab) (h : Fld) : (s.setSeq p n c x).fget h = s.fget h := rfl

@[simp] theorem State.setLoad_pending (c : Nat) (x : LoadCtx) : (s.setLoad c x).pending = s.pending := rfl
@[simp] theorem State.setLoad_now (c : Nat) (x : LoadCtx) : (s.setLoad c x).now = s.now := rfl
@[simp] theorem State.setLoad_fields (c : Nat) (x : LoadCtx) : (s.setLoad c x).fields = s.fields := rfl
@[simp] theorem State.setLoad_latched (c : Nat) (x : LoadCtx) : (s.setLoad c x).latched = s.latched := rfl
@[simp] theorem State.setLoad_mem (c : Nat) (x : LoadCtx) : (s.setLoad c x).mem = s.mem := rfl
@[simp] theorem State.setLoad_stale (c : Nat) (x : LoadCtx) : (s.setLoad c x).stale = s.stale := rfl
@[simp] theorem State.setLoad_syndromes (c : Nat) (x : LoadCtx) : (s.setLoad c x).syndromes = s.syndromes := rfl
@[simp] theorem State.setLoad_hardBlocks (c : Nat) (x : LoadCtx) : (s.setLoad c x).hardBlocks = s.hardBlocks := rfl
@[simp] theorem State.setLoad_softCe (c : Nat) (x : LoadCtx) : (s.setLoad c x).softCe = s.softCe := rfl
@[simp] theorem State.setLoad_hardTable (c : Nat) (x : LoadCtx) : (s.setLoad c x).hardTable = s.hardTable := rfl
@[simp] theorem State.setLoad_sweeps (c : Nat) (x : LoadCtx) : (s.setLoad c x).sweeps = s.sweeps := rfl
@[simp] theorem State.setLoad_retireWaits (c : Nat) (x : LoadCtx) : (s.setLoad c x).retireWaits = s.retireWaits := rfl
@[simp] theorem State.setLoad_out (c : Nat) (x : LoadCtx) : (s.setLoad c x).out = s.out := rfl
@[simp] theorem State.setLoad_freeCount (c : Nat) (x : LoadCtx) : (s.setLoad c x).freeCount = s.freeCount := rfl
@[simp] theorem State.setLoad_safety (c : Nat) (x : LoadCtx) : (s.setLoad c x).safety = s.safety := rfl
@[simp] theorem State.setLoad_volz (c : Nat) (x : LoadCtx) : (s.setLoad c x).volz = s.volz := rfl
@[simp] theorem State.setLoad_parts (c : Nat) (x : LoadCtx) : (s.setLoad c x).parts = s.parts := rfl
@[simp] theorem State.setLoad_scrubs (c : Nat) (x : LoadCtx) : (s.setLoad c x).scrubs = s.scrubs := rfl
@[simp] theorem State.setLoad_pci (c : Nat) (x : LoadCtx) : (s.setLoad c x).pci = s.pci := rfl
@[simp] theorem State.setLoad_vectors (c : Nat) (x : LoadCtx) : (s.setLoad c x).vectors = s.vectors := rfl
@[simp] theorem State.setLoad_slots (c : Nat) (x : LoadCtx) : (s.setLoad c x).slots = s.slots := rfl
@[simp] theorem State.setLoad_steps (c : Nat) (x : LoadCtx) : (s.setLoad c x).steps = s.steps := rfl
@[simp] theorem State.setLoad_nextStep (c : Nat) (x : LoadCtx) : (s.setLoad c x).nextStep = s.nextStep := rfl
@[simp] theorem State.setLoad_kv (c : Nat) (x : LoadCtx) : (s.setLoad c x).kv = s.kv := rfl
@[simp] theorem State.setLoad_nv (c : Nat) (x : LoadCtx) : (s.setLoad c x).nv = s.nv := rfl
@[simp] theorem State.setLoad_boot (c : Nat) (x : LoadCtx) : (s.setLoad c x).boot = s.boot := rfl
@[simp] theorem State.setLoad_sec (c : Nat) (x : LoadCtx) : (s.setLoad c x).sec = s.sec := rfl
@[simp] theorem State.setLoad_pins (c : Nat) (x : LoadCtx) : (s.setLoad c x).pins = s.pins := rfl
@[simp] theorem State.setLoad_power (c : Nat) (x : LoadCtx) : (s.setLoad c x).power = s.power := rfl
@[simp] theorem State.setLoad_thermal (c : Nat) (x : LoadCtx) : (s.setLoad c x).thermal = s.thermal := rfl
@[simp] theorem State.setLoad_adc (c : Nat) (x : LoadCtx) : (s.setLoad c x).adc = s.adc := rfl
@[simp] theorem State.setLoad_clocks (c : Nat) (x : LoadCtx) : (s.setLoad c x).clocks = s.clocks := rfl
@[simp] theorem State.setLoad_tiles (c : Nat) (x : LoadCtx) : (s.setLoad c x).tiles = s.tiles := rfl
@[simp] theorem State.setLoad_teams (c : Nat) (x : LoadCtx) : (s.setLoad c x).teams = s.teams := rfl
@[simp] theorem State.setLoad_seqs (c : Nat) (x : LoadCtx) : (s.setLoad c x).seqs = s.seqs := rfl
@[simp] theorem State.setLoad_trace (c : Nat) (x : LoadCtx) : (s.setLoad c x).trace = s.trace := rfl
@[simp] theorem State.setLoad_dbgState (c : Nat) (x : LoadCtx) : (s.setLoad c x).dbgState = s.dbgState := rfl
@[simp] theorem State.setLoad_torus (c : Nat) (x : LoadCtx) : (s.setLoad c x).torus = s.torus := rfl
@[simp] theorem State.setLoad_admissions (c : Nat) (x : LoadCtx) : (s.setLoad c x).admissions = s.admissions := rfl
@[simp] theorem State.setLoad_fabric (c : Nat) (x : LoadCtx) : (s.setLoad c x).fabric = s.fabric := rfl
@[simp] theorem State.setLoad_fget (c : Nat) (x : LoadCtx) (h : Fld) : (s.setLoad c x).fget h = s.fget h := rfl

@[simp] theorem State.setRail_pending (k : Nat) (x : Rail) : (s.setRail k x).pending = s.pending := rfl
@[simp] theorem State.setRail_now (k : Nat) (x : Rail) : (s.setRail k x).now = s.now := rfl
@[simp] theorem State.setRail_fields (k : Nat) (x : Rail) : (s.setRail k x).fields = s.fields := rfl
@[simp] theorem State.setRail_latched (k : Nat) (x : Rail) : (s.setRail k x).latched = s.latched := rfl
@[simp] theorem State.setRail_mem (k : Nat) (x : Rail) : (s.setRail k x).mem = s.mem := rfl
@[simp] theorem State.setRail_stale (k : Nat) (x : Rail) : (s.setRail k x).stale = s.stale := rfl
@[simp] theorem State.setRail_syndromes (k : Nat) (x : Rail) : (s.setRail k x).syndromes = s.syndromes := rfl
@[simp] theorem State.setRail_hardBlocks (k : Nat) (x : Rail) : (s.setRail k x).hardBlocks = s.hardBlocks := rfl
@[simp] theorem State.setRail_softCe (k : Nat) (x : Rail) : (s.setRail k x).softCe = s.softCe := rfl
@[simp] theorem State.setRail_hardTable (k : Nat) (x : Rail) : (s.setRail k x).hardTable = s.hardTable := rfl
@[simp] theorem State.setRail_sweeps (k : Nat) (x : Rail) : (s.setRail k x).sweeps = s.sweeps := rfl
@[simp] theorem State.setRail_retireWaits (k : Nat) (x : Rail) : (s.setRail k x).retireWaits = s.retireWaits := rfl
@[simp] theorem State.setRail_out (k : Nat) (x : Rail) : (s.setRail k x).out = s.out := rfl
@[simp] theorem State.setRail_freeCount (k : Nat) (x : Rail) : (s.setRail k x).freeCount = s.freeCount := rfl
@[simp] theorem State.setRail_safety (k : Nat) (x : Rail) : (s.setRail k x).safety = s.safety := rfl
@[simp] theorem State.setRail_volz (k : Nat) (x : Rail) : (s.setRail k x).volz = s.volz := rfl
@[simp] theorem State.setRail_parts (k : Nat) (x : Rail) : (s.setRail k x).parts = s.parts := rfl
@[simp] theorem State.setRail_scrubs (k : Nat) (x : Rail) : (s.setRail k x).scrubs = s.scrubs := rfl
@[simp] theorem State.setRail_pci (k : Nat) (x : Rail) : (s.setRail k x).pci = s.pci := rfl
@[simp] theorem State.setRail_vectors (k : Nat) (x : Rail) : (s.setRail k x).vectors = s.vectors := rfl
@[simp] theorem State.setRail_slots (k : Nat) (x : Rail) : (s.setRail k x).slots = s.slots := rfl
@[simp] theorem State.setRail_steps (k : Nat) (x : Rail) : (s.setRail k x).steps = s.steps := rfl
@[simp] theorem State.setRail_nextStep (k : Nat) (x : Rail) : (s.setRail k x).nextStep = s.nextStep := rfl
@[simp] theorem State.setRail_kv (k : Nat) (x : Rail) : (s.setRail k x).kv = s.kv := rfl
@[simp] theorem State.setRail_nv (k : Nat) (x : Rail) : (s.setRail k x).nv = s.nv := rfl
@[simp] theorem State.setRail_boot (k : Nat) (x : Rail) : (s.setRail k x).boot = s.boot := rfl
@[simp] theorem State.setRail_sec (k : Nat) (x : Rail) : (s.setRail k x).sec = s.sec := rfl
@[simp] theorem State.setRail_pins (k : Nat) (x : Rail) : (s.setRail k x).pins = s.pins := rfl
@[simp] theorem State.setRail_thermal (k : Nat) (x : Rail) : (s.setRail k x).thermal = s.thermal := rfl
@[simp] theorem State.setRail_adc (k : Nat) (x : Rail) : (s.setRail k x).adc = s.adc := rfl
@[simp] theorem State.setRail_clocks (k : Nat) (x : Rail) : (s.setRail k x).clocks = s.clocks := rfl
@[simp] theorem State.setRail_tiles (k : Nat) (x : Rail) : (s.setRail k x).tiles = s.tiles := rfl
@[simp] theorem State.setRail_teams (k : Nat) (x : Rail) : (s.setRail k x).teams = s.teams := rfl
@[simp] theorem State.setRail_seqs (k : Nat) (x : Rail) : (s.setRail k x).seqs = s.seqs := rfl
@[simp] theorem State.setRail_loads (k : Nat) (x : Rail) : (s.setRail k x).loads = s.loads := rfl
@[simp] theorem State.setRail_trace (k : Nat) (x : Rail) : (s.setRail k x).trace = s.trace := rfl
@[simp] theorem State.setRail_dbgState (k : Nat) (x : Rail) : (s.setRail k x).dbgState = s.dbgState := rfl
@[simp] theorem State.setRail_torus (k : Nat) (x : Rail) : (s.setRail k x).torus = s.torus := rfl
@[simp] theorem State.setRail_admissions (k : Nat) (x : Rail) : (s.setRail k x).admissions = s.admissions := rfl
@[simp] theorem State.setRail_fabric (k : Nat) (x : Rail) : (s.setRail k x).fabric = s.fabric := rfl
@[simp] theorem State.setRail_fget (k : Nat) (x : Rail) (h : Fld) : (s.setRail k x).fget h = s.fget h := rfl

@[simp] theorem State.setChan_pending (c : Nat) (x : Chan) : (s.setChan c x).pending = s.pending := rfl
@[simp] theorem State.setChan_now (c : Nat) (x : Chan) : (s.setChan c x).now = s.now := rfl
@[simp] theorem State.setChan_fields (c : Nat) (x : Chan) : (s.setChan c x).fields = s.fields := rfl
@[simp] theorem State.setChan_latched (c : Nat) (x : Chan) : (s.setChan c x).latched = s.latched := rfl
@[simp] theorem State.setChan_mem (c : Nat) (x : Chan) : (s.setChan c x).mem = s.mem := rfl
@[simp] theorem State.setChan_stale (c : Nat) (x : Chan) : (s.setChan c x).stale = s.stale := rfl
@[simp] theorem State.setChan_syndromes (c : Nat) (x : Chan) : (s.setChan c x).syndromes = s.syndromes := rfl
@[simp] theorem State.setChan_hardBlocks (c : Nat) (x : Chan) : (s.setChan c x).hardBlocks = s.hardBlocks := rfl
@[simp] theorem State.setChan_softCe (c : Nat) (x : Chan) : (s.setChan c x).softCe = s.softCe := rfl
@[simp] theorem State.setChan_hardTable (c : Nat) (x : Chan) : (s.setChan c x).hardTable = s.hardTable := rfl
@[simp] theorem State.setChan_sweeps (c : Nat) (x : Chan) : (s.setChan c x).sweeps = s.sweeps := rfl
@[simp] theorem State.setChan_retireWaits (c : Nat) (x : Chan) : (s.setChan c x).retireWaits = s.retireWaits := rfl
@[simp] theorem State.setChan_out (c : Nat) (x : Chan) : (s.setChan c x).out = s.out := rfl
@[simp] theorem State.setChan_freeCount (c : Nat) (x : Chan) : (s.setChan c x).freeCount = s.freeCount := rfl
@[simp] theorem State.setChan_safety (c : Nat) (x : Chan) : (s.setChan c x).safety = s.safety := rfl
@[simp] theorem State.setChan_volz (c : Nat) (x : Chan) : (s.setChan c x).volz = s.volz := rfl
@[simp] theorem State.setChan_parts (c : Nat) (x : Chan) : (s.setChan c x).parts = s.parts := rfl
@[simp] theorem State.setChan_scrubs (c : Nat) (x : Chan) : (s.setChan c x).scrubs = s.scrubs := rfl
@[simp] theorem State.setChan_pci (c : Nat) (x : Chan) : (s.setChan c x).pci = s.pci := rfl
@[simp] theorem State.setChan_vectors (c : Nat) (x : Chan) : (s.setChan c x).vectors = s.vectors := rfl
@[simp] theorem State.setChan_slots (c : Nat) (x : Chan) : (s.setChan c x).slots = s.slots := rfl
@[simp] theorem State.setChan_steps (c : Nat) (x : Chan) : (s.setChan c x).steps = s.steps := rfl
@[simp] theorem State.setChan_nextStep (c : Nat) (x : Chan) : (s.setChan c x).nextStep = s.nextStep := rfl
@[simp] theorem State.setChan_kv (c : Nat) (x : Chan) : (s.setChan c x).kv = s.kv := rfl
@[simp] theorem State.setChan_nv (c : Nat) (x : Chan) : (s.setChan c x).nv = s.nv := rfl
@[simp] theorem State.setChan_boot (c : Nat) (x : Chan) : (s.setChan c x).boot = s.boot := rfl
@[simp] theorem State.setChan_sec (c : Nat) (x : Chan) : (s.setChan c x).sec = s.sec := rfl
@[simp] theorem State.setChan_pins (c : Nat) (x : Chan) : (s.setChan c x).pins = s.pins := rfl
@[simp] theorem State.setChan_power (c : Nat) (x : Chan) : (s.setChan c x).power = s.power := rfl
@[simp] theorem State.setChan_thermal (c : Nat) (x : Chan) : (s.setChan c x).thermal = s.thermal := rfl
@[simp] theorem State.setChan_clocks (c : Nat) (x : Chan) : (s.setChan c x).clocks = s.clocks := rfl
@[simp] theorem State.setChan_tiles (c : Nat) (x : Chan) : (s.setChan c x).tiles = s.tiles := rfl
@[simp] theorem State.setChan_teams (c : Nat) (x : Chan) : (s.setChan c x).teams = s.teams := rfl
@[simp] theorem State.setChan_seqs (c : Nat) (x : Chan) : (s.setChan c x).seqs = s.seqs := rfl
@[simp] theorem State.setChan_loads (c : Nat) (x : Chan) : (s.setChan c x).loads = s.loads := rfl
@[simp] theorem State.setChan_trace (c : Nat) (x : Chan) : (s.setChan c x).trace = s.trace := rfl
@[simp] theorem State.setChan_dbgState (c : Nat) (x : Chan) : (s.setChan c x).dbgState = s.dbgState := rfl
@[simp] theorem State.setChan_torus (c : Nat) (x : Chan) : (s.setChan c x).torus = s.torus := rfl
@[simp] theorem State.setChan_admissions (c : Nat) (x : Chan) : (s.setChan c x).admissions = s.admissions := rfl
@[simp] theorem State.setChan_fabric (c : Nat) (x : Chan) : (s.setChan c x).fabric = s.fabric := rfl
@[simp] theorem State.setChan_fget (c : Nat) (x : Chan) (h : Fld) : (s.setChan c x).fget h = s.fget h := rfl

@[simp] theorem State.setSweep_pending (c : Nat) (x : Option Sweep) : (s.setSweep c x).pending = s.pending := rfl
@[simp] theorem State.setSweep_now (c : Nat) (x : Option Sweep) : (s.setSweep c x).now = s.now := rfl
@[simp] theorem State.setSweep_fields (c : Nat) (x : Option Sweep) : (s.setSweep c x).fields = s.fields := rfl
@[simp] theorem State.setSweep_latched (c : Nat) (x : Option Sweep) : (s.setSweep c x).latched = s.latched := rfl
@[simp] theorem State.setSweep_mem (c : Nat) (x : Option Sweep) : (s.setSweep c x).mem = s.mem := rfl
@[simp] theorem State.setSweep_stale (c : Nat) (x : Option Sweep) : (s.setSweep c x).stale = s.stale := rfl
@[simp] theorem State.setSweep_syndromes (c : Nat) (x : Option Sweep) : (s.setSweep c x).syndromes = s.syndromes := rfl
@[simp] theorem State.setSweep_hardBlocks (c : Nat) (x : Option Sweep) : (s.setSweep c x).hardBlocks = s.hardBlocks := rfl
@[simp] theorem State.setSweep_softCe (c : Nat) (x : Option Sweep) : (s.setSweep c x).softCe = s.softCe := rfl
@[simp] theorem State.setSweep_hardTable (c : Nat) (x : Option Sweep) : (s.setSweep c x).hardTable = s.hardTable := rfl
@[simp] theorem State.setSweep_retireWaits (c : Nat) (x : Option Sweep) : (s.setSweep c x).retireWaits = s.retireWaits := rfl
@[simp] theorem State.setSweep_out (c : Nat) (x : Option Sweep) : (s.setSweep c x).out = s.out := rfl
@[simp] theorem State.setSweep_freeCount (c : Nat) (x : Option Sweep) : (s.setSweep c x).freeCount = s.freeCount := rfl
@[simp] theorem State.setSweep_safety (c : Nat) (x : Option Sweep) : (s.setSweep c x).safety = s.safety := rfl
@[simp] theorem State.setSweep_volz (c : Nat) (x : Option Sweep) : (s.setSweep c x).volz = s.volz := rfl
@[simp] theorem State.setSweep_parts (c : Nat) (x : Option Sweep) : (s.setSweep c x).parts = s.parts := rfl
@[simp] theorem State.setSweep_scrubs (c : Nat) (x : Option Sweep) : (s.setSweep c x).scrubs = s.scrubs := rfl
@[simp] theorem State.setSweep_pci (c : Nat) (x : Option Sweep) : (s.setSweep c x).pci = s.pci := rfl
@[simp] theorem State.setSweep_vectors (c : Nat) (x : Option Sweep) : (s.setSweep c x).vectors = s.vectors := rfl
@[simp] theorem State.setSweep_slots (c : Nat) (x : Option Sweep) : (s.setSweep c x).slots = s.slots := rfl
@[simp] theorem State.setSweep_steps (c : Nat) (x : Option Sweep) : (s.setSweep c x).steps = s.steps := rfl
@[simp] theorem State.setSweep_nextStep (c : Nat) (x : Option Sweep) : (s.setSweep c x).nextStep = s.nextStep := rfl
@[simp] theorem State.setSweep_kv (c : Nat) (x : Option Sweep) : (s.setSweep c x).kv = s.kv := rfl
@[simp] theorem State.setSweep_nv (c : Nat) (x : Option Sweep) : (s.setSweep c x).nv = s.nv := rfl
@[simp] theorem State.setSweep_boot (c : Nat) (x : Option Sweep) : (s.setSweep c x).boot = s.boot := rfl
@[simp] theorem State.setSweep_sec (c : Nat) (x : Option Sweep) : (s.setSweep c x).sec = s.sec := rfl
@[simp] theorem State.setSweep_pins (c : Nat) (x : Option Sweep) : (s.setSweep c x).pins = s.pins := rfl
@[simp] theorem State.setSweep_power (c : Nat) (x : Option Sweep) : (s.setSweep c x).power = s.power := rfl
@[simp] theorem State.setSweep_thermal (c : Nat) (x : Option Sweep) : (s.setSweep c x).thermal = s.thermal := rfl
@[simp] theorem State.setSweep_adc (c : Nat) (x : Option Sweep) : (s.setSweep c x).adc = s.adc := rfl
@[simp] theorem State.setSweep_clocks (c : Nat) (x : Option Sweep) : (s.setSweep c x).clocks = s.clocks := rfl
@[simp] theorem State.setSweep_tiles (c : Nat) (x : Option Sweep) : (s.setSweep c x).tiles = s.tiles := rfl
@[simp] theorem State.setSweep_teams (c : Nat) (x : Option Sweep) : (s.setSweep c x).teams = s.teams := rfl
@[simp] theorem State.setSweep_seqs (c : Nat) (x : Option Sweep) : (s.setSweep c x).seqs = s.seqs := rfl
@[simp] theorem State.setSweep_loads (c : Nat) (x : Option Sweep) : (s.setSweep c x).loads = s.loads := rfl
@[simp] theorem State.setSweep_trace (c : Nat) (x : Option Sweep) : (s.setSweep c x).trace = s.trace := rfl
@[simp] theorem State.setSweep_dbgState (c : Nat) (x : Option Sweep) : (s.setSweep c x).dbgState = s.dbgState := rfl
@[simp] theorem State.setSweep_torus (c : Nat) (x : Option Sweep) : (s.setSweep c x).torus = s.torus := rfl
@[simp] theorem State.setSweep_admissions (c : Nat) (x : Option Sweep) : (s.setSweep c x).admissions = s.admissions := rfl
@[simp] theorem State.setSweep_fabric (c : Nat) (x : Option Sweep) : (s.setSweep c x).fabric = s.fabric := rfl
@[simp] theorem State.setSweep_fget (c : Nat) (x : Option Sweep) (h : Fld) : (s.setSweep c x).fget h = s.fget h := rfl

@[simp] theorem State.setPort_pending (p : Nat) (x : TorPort) : (s.setPort p x).pending = s.pending := rfl
@[simp] theorem State.setPort_now (p : Nat) (x : TorPort) : (s.setPort p x).now = s.now := rfl
@[simp] theorem State.setPort_fields (p : Nat) (x : TorPort) : (s.setPort p x).fields = s.fields := rfl
@[simp] theorem State.setPort_latched (p : Nat) (x : TorPort) : (s.setPort p x).latched = s.latched := rfl
@[simp] theorem State.setPort_mem (p : Nat) (x : TorPort) : (s.setPort p x).mem = s.mem := rfl
@[simp] theorem State.setPort_stale (p : Nat) (x : TorPort) : (s.setPort p x).stale = s.stale := rfl
@[simp] theorem State.setPort_syndromes (p : Nat) (x : TorPort) : (s.setPort p x).syndromes = s.syndromes := rfl
@[simp] theorem State.setPort_hardBlocks (p : Nat) (x : TorPort) : (s.setPort p x).hardBlocks = s.hardBlocks := rfl
@[simp] theorem State.setPort_softCe (p : Nat) (x : TorPort) : (s.setPort p x).softCe = s.softCe := rfl
@[simp] theorem State.setPort_hardTable (p : Nat) (x : TorPort) : (s.setPort p x).hardTable = s.hardTable := rfl
@[simp] theorem State.setPort_sweeps (p : Nat) (x : TorPort) : (s.setPort p x).sweeps = s.sweeps := rfl
@[simp] theorem State.setPort_retireWaits (p : Nat) (x : TorPort) : (s.setPort p x).retireWaits = s.retireWaits := rfl
@[simp] theorem State.setPort_out (p : Nat) (x : TorPort) : (s.setPort p x).out = s.out := rfl
@[simp] theorem State.setPort_freeCount (p : Nat) (x : TorPort) : (s.setPort p x).freeCount = s.freeCount := rfl
@[simp] theorem State.setPort_safety (p : Nat) (x : TorPort) : (s.setPort p x).safety = s.safety := rfl
@[simp] theorem State.setPort_volz (p : Nat) (x : TorPort) : (s.setPort p x).volz = s.volz := rfl
@[simp] theorem State.setPort_parts (p : Nat) (x : TorPort) : (s.setPort p x).parts = s.parts := rfl
@[simp] theorem State.setPort_scrubs (p : Nat) (x : TorPort) : (s.setPort p x).scrubs = s.scrubs := rfl
@[simp] theorem State.setPort_pci (p : Nat) (x : TorPort) : (s.setPort p x).pci = s.pci := rfl
@[simp] theorem State.setPort_vectors (p : Nat) (x : TorPort) : (s.setPort p x).vectors = s.vectors := rfl
@[simp] theorem State.setPort_slots (p : Nat) (x : TorPort) : (s.setPort p x).slots = s.slots := rfl
@[simp] theorem State.setPort_steps (p : Nat) (x : TorPort) : (s.setPort p x).steps = s.steps := rfl
@[simp] theorem State.setPort_nextStep (p : Nat) (x : TorPort) : (s.setPort p x).nextStep = s.nextStep := rfl
@[simp] theorem State.setPort_kv (p : Nat) (x : TorPort) : (s.setPort p x).kv = s.kv := rfl
@[simp] theorem State.setPort_nv (p : Nat) (x : TorPort) : (s.setPort p x).nv = s.nv := rfl
@[simp] theorem State.setPort_boot (p : Nat) (x : TorPort) : (s.setPort p x).boot = s.boot := rfl
@[simp] theorem State.setPort_sec (p : Nat) (x : TorPort) : (s.setPort p x).sec = s.sec := rfl
@[simp] theorem State.setPort_pins (p : Nat) (x : TorPort) : (s.setPort p x).pins = s.pins := rfl
@[simp] theorem State.setPort_power (p : Nat) (x : TorPort) : (s.setPort p x).power = s.power := rfl
@[simp] theorem State.setPort_thermal (p : Nat) (x : TorPort) : (s.setPort p x).thermal = s.thermal := rfl
@[simp] theorem State.setPort_adc (p : Nat) (x : TorPort) : (s.setPort p x).adc = s.adc := rfl
@[simp] theorem State.setPort_clocks (p : Nat) (x : TorPort) : (s.setPort p x).clocks = s.clocks := rfl
@[simp] theorem State.setPort_tiles (p : Nat) (x : TorPort) : (s.setPort p x).tiles = s.tiles := rfl
@[simp] theorem State.setPort_teams (p : Nat) (x : TorPort) : (s.setPort p x).teams = s.teams := rfl
@[simp] theorem State.setPort_seqs (p : Nat) (x : TorPort) : (s.setPort p x).seqs = s.seqs := rfl
@[simp] theorem State.setPort_loads (p : Nat) (x : TorPort) : (s.setPort p x).loads = s.loads := rfl
@[simp] theorem State.setPort_trace (p : Nat) (x : TorPort) : (s.setPort p x).trace = s.trace := rfl
@[simp] theorem State.setPort_dbgState (p : Nat) (x : TorPort) : (s.setPort p x).dbgState = s.dbgState := rfl
@[simp] theorem State.setPort_admissions (p : Nat) (x : TorPort) : (s.setPort p x).admissions = s.admissions := rfl
@[simp] theorem State.setPort_fabric (p : Nat) (x : TorPort) : (s.setPort p x).fabric = s.fabric := rfl
@[simp] theorem State.setPort_fget (p : Nat) (x : TorPort) (h : Fld) : (s.setPort p x).fget h = s.fget h := rfl

@[simp] theorem State.setSensor_pending (i : Nat) (x : Sensor) : (s.setSensor i x).pending = s.pending := rfl
@[simp] theorem State.setSensor_now (i : Nat) (x : Sensor) : (s.setSensor i x).now = s.now := rfl
@[simp] theorem State.setSensor_fields (i : Nat) (x : Sensor) : (s.setSensor i x).fields = s.fields := rfl
@[simp] theorem State.setSensor_latched (i : Nat) (x : Sensor) : (s.setSensor i x).latched = s.latched := rfl
@[simp] theorem State.setSensor_mem (i : Nat) (x : Sensor) : (s.setSensor i x).mem = s.mem := rfl
@[simp] theorem State.setSensor_stale (i : Nat) (x : Sensor) : (s.setSensor i x).stale = s.stale := rfl
@[simp] theorem State.setSensor_syndromes (i : Nat) (x : Sensor) : (s.setSensor i x).syndromes = s.syndromes := rfl
@[simp] theorem State.setSensor_hardBlocks (i : Nat) (x : Sensor) : (s.setSensor i x).hardBlocks = s.hardBlocks := rfl
@[simp] theorem State.setSensor_softCe (i : Nat) (x : Sensor) : (s.setSensor i x).softCe = s.softCe := rfl
@[simp] theorem State.setSensor_hardTable (i : Nat) (x : Sensor) : (s.setSensor i x).hardTable = s.hardTable := rfl
@[simp] theorem State.setSensor_sweeps (i : Nat) (x : Sensor) : (s.setSensor i x).sweeps = s.sweeps := rfl
@[simp] theorem State.setSensor_retireWaits (i : Nat) (x : Sensor) : (s.setSensor i x).retireWaits = s.retireWaits := rfl
@[simp] theorem State.setSensor_out (i : Nat) (x : Sensor) : (s.setSensor i x).out = s.out := rfl
@[simp] theorem State.setSensor_freeCount (i : Nat) (x : Sensor) : (s.setSensor i x).freeCount = s.freeCount := rfl
@[simp] theorem State.setSensor_safety (i : Nat) (x : Sensor) : (s.setSensor i x).safety = s.safety := rfl
@[simp] theorem State.setSensor_volz (i : Nat) (x : Sensor) : (s.setSensor i x).volz = s.volz := rfl
@[simp] theorem State.setSensor_parts (i : Nat) (x : Sensor) : (s.setSensor i x).parts = s.parts := rfl
@[simp] theorem State.setSensor_scrubs (i : Nat) (x : Sensor) : (s.setSensor i x).scrubs = s.scrubs := rfl
@[simp] theorem State.setSensor_pci (i : Nat) (x : Sensor) : (s.setSensor i x).pci = s.pci := rfl
@[simp] theorem State.setSensor_vectors (i : Nat) (x : Sensor) : (s.setSensor i x).vectors = s.vectors := rfl
@[simp] theorem State.setSensor_slots (i : Nat) (x : Sensor) : (s.setSensor i x).slots = s.slots := rfl
@[simp] theorem State.setSensor_steps (i : Nat) (x : Sensor) : (s.setSensor i x).steps = s.steps := rfl
@[simp] theorem State.setSensor_nextStep (i : Nat) (x : Sensor) : (s.setSensor i x).nextStep = s.nextStep := rfl
@[simp] theorem State.setSensor_kv (i : Nat) (x : Sensor) : (s.setSensor i x).kv = s.kv := rfl
@[simp] theorem State.setSensor_nv (i : Nat) (x : Sensor) : (s.setSensor i x).nv = s.nv := rfl
@[simp] theorem State.setSensor_boot (i : Nat) (x : Sensor) : (s.setSensor i x).boot = s.boot := rfl
@[simp] theorem State.setSensor_sec (i : Nat) (x : Sensor) : (s.setSensor i x).sec = s.sec := rfl
@[simp] theorem State.setSensor_pins (i : Nat) (x : Sensor) : (s.setSensor i x).pins = s.pins := rfl
@[simp] theorem State.setSensor_power (i : Nat) (x : Sensor) : (s.setSensor i x).power = s.power := rfl
@[simp] theorem State.setSensor_adc (i : Nat) (x : Sensor) : (s.setSensor i x).adc = s.adc := rfl
@[simp] theorem State.setSensor_clocks (i : Nat) (x : Sensor) : (s.setSensor i x).clocks = s.clocks := rfl
@[simp] theorem State.setSensor_tiles (i : Nat) (x : Sensor) : (s.setSensor i x).tiles = s.tiles := rfl
@[simp] theorem State.setSensor_teams (i : Nat) (x : Sensor) : (s.setSensor i x).teams = s.teams := rfl
@[simp] theorem State.setSensor_seqs (i : Nat) (x : Sensor) : (s.setSensor i x).seqs = s.seqs := rfl
@[simp] theorem State.setSensor_loads (i : Nat) (x : Sensor) : (s.setSensor i x).loads = s.loads := rfl
@[simp] theorem State.setSensor_trace (i : Nat) (x : Sensor) : (s.setSensor i x).trace = s.trace := rfl
@[simp] theorem State.setSensor_dbgState (i : Nat) (x : Sensor) : (s.setSensor i x).dbgState = s.dbgState := rfl
@[simp] theorem State.setSensor_torus (i : Nat) (x : Sensor) : (s.setSensor i x).torus = s.torus := rfl
@[simp] theorem State.setSensor_admissions (i : Nat) (x : Sensor) : (s.setSensor i x).admissions = s.admissions := rfl
@[simp] theorem State.setSensor_fabric (i : Nat) (x : Sensor) : (s.setSensor i x).fabric = s.fabric := rfl
@[simp] theorem State.setSensor_fget (i : Nat) (x : Sensor) (h : Fld) : (s.setSensor i x).fget h = s.fget h := rfl

@[simp] theorem State.setWay_pending (w : Way) : (s.setWay w).pending = s.pending := rfl
@[simp] theorem State.setWay_now (w : Way) : (s.setWay w).now = s.now := rfl
@[simp] theorem State.setWay_fields (w : Way) : (s.setWay w).fields = s.fields := rfl
@[simp] theorem State.setWay_latched (w : Way) : (s.setWay w).latched = s.latched := rfl
@[simp] theorem State.setWay_mem (w : Way) : (s.setWay w).mem = s.mem := rfl
@[simp] theorem State.setWay_stale (w : Way) : (s.setWay w).stale = s.stale := rfl
@[simp] theorem State.setWay_syndromes (w : Way) : (s.setWay w).syndromes = s.syndromes := rfl
@[simp] theorem State.setWay_hardBlocks (w : Way) : (s.setWay w).hardBlocks = s.hardBlocks := rfl
@[simp] theorem State.setWay_softCe (w : Way) : (s.setWay w).softCe = s.softCe := rfl
@[simp] theorem State.setWay_hardTable (w : Way) : (s.setWay w).hardTable = s.hardTable := rfl
@[simp] theorem State.setWay_sweeps (w : Way) : (s.setWay w).sweeps = s.sweeps := rfl
@[simp] theorem State.setWay_retireWaits (w : Way) : (s.setWay w).retireWaits = s.retireWaits := rfl
@[simp] theorem State.setWay_out (w : Way) : (s.setWay w).out = s.out := rfl
@[simp] theorem State.setWay_freeCount (w : Way) : (s.setWay w).freeCount = s.freeCount := rfl
@[simp] theorem State.setWay_safety (w : Way) : (s.setWay w).safety = s.safety := rfl
@[simp] theorem State.setWay_volz (w : Way) : (s.setWay w).volz = s.volz := rfl
@[simp] theorem State.setWay_parts (w : Way) : (s.setWay w).parts = s.parts := rfl
@[simp] theorem State.setWay_scrubs (w : Way) : (s.setWay w).scrubs = s.scrubs := rfl
@[simp] theorem State.setWay_pci (w : Way) : (s.setWay w).pci = s.pci := rfl
@[simp] theorem State.setWay_vectors (w : Way) : (s.setWay w).vectors = s.vectors := rfl
@[simp] theorem State.setWay_slots (w : Way) : (s.setWay w).slots = s.slots := rfl
@[simp] theorem State.setWay_steps (w : Way) : (s.setWay w).steps = s.steps := rfl
@[simp] theorem State.setWay_nextStep (w : Way) : (s.setWay w).nextStep = s.nextStep := rfl
@[simp] theorem State.setWay_kv (w : Way) : (s.setWay w).kv = s.kv := rfl
@[simp] theorem State.setWay_nv (w : Way) : (s.setWay w).nv = s.nv := rfl
@[simp] theorem State.setWay_boot (w : Way) : (s.setWay w).boot = s.boot := rfl
@[simp] theorem State.setWay_sec (w : Way) : (s.setWay w).sec = s.sec := rfl
@[simp] theorem State.setWay_pins (w : Way) : (s.setWay w).pins = s.pins := rfl
@[simp] theorem State.setWay_power (w : Way) : (s.setWay w).power = s.power := rfl
@[simp] theorem State.setWay_thermal (w : Way) : (s.setWay w).thermal = s.thermal := rfl
@[simp] theorem State.setWay_adc (w : Way) : (s.setWay w).adc = s.adc := rfl
@[simp] theorem State.setWay_tiles (w : Way) : (s.setWay w).tiles = s.tiles := rfl
@[simp] theorem State.setWay_teams (w : Way) : (s.setWay w).teams = s.teams := rfl
@[simp] theorem State.setWay_seqs (w : Way) : (s.setWay w).seqs = s.seqs := rfl
@[simp] theorem State.setWay_loads (w : Way) : (s.setWay w).loads = s.loads := rfl
@[simp] theorem State.setWay_trace (w : Way) : (s.setWay w).trace = s.trace := rfl
@[simp] theorem State.setWay_dbgState (w : Way) : (s.setWay w).dbgState = s.dbgState := rfl
@[simp] theorem State.setWay_torus (w : Way) : (s.setWay w).torus = s.torus := rfl
@[simp] theorem State.setWay_admissions (w : Way) : (s.setWay w).admissions = s.admissions := rfl
@[simp] theorem State.setWay_fabric (w : Way) : (s.setWay w).fabric = s.fabric := rfl
@[simp] theorem State.setWay_fget (w : Way) (h : Fld) : (s.setWay w).fget h = s.fget h := rfl

@[simp] theorem State.setColl_pending (c : Coll) : (s.setColl c).pending = s.pending := rfl
@[simp] theorem State.setColl_now (c : Coll) : (s.setColl c).now = s.now := rfl
@[simp] theorem State.setColl_fields (c : Coll) : (s.setColl c).fields = s.fields := rfl
@[simp] theorem State.setColl_latched (c : Coll) : (s.setColl c).latched = s.latched := rfl
@[simp] theorem State.setColl_mem (c : Coll) : (s.setColl c).mem = s.mem := rfl
@[simp] theorem State.setColl_stale (c : Coll) : (s.setColl c).stale = s.stale := rfl
@[simp] theorem State.setColl_syndromes (c : Coll) : (s.setColl c).syndromes = s.syndromes := rfl
@[simp] theorem State.setColl_hardBlocks (c : Coll) : (s.setColl c).hardBlocks = s.hardBlocks := rfl
@[simp] theorem State.setColl_softCe (c : Coll) : (s.setColl c).softCe = s.softCe := rfl
@[simp] theorem State.setColl_hardTable (c : Coll) : (s.setColl c).hardTable = s.hardTable := rfl
@[simp] theorem State.setColl_sweeps (c : Coll) : (s.setColl c).sweeps = s.sweeps := rfl
@[simp] theorem State.setColl_retireWaits (c : Coll) : (s.setColl c).retireWaits = s.retireWaits := rfl
@[simp] theorem State.setColl_out (c : Coll) : (s.setColl c).out = s.out := rfl
@[simp] theorem State.setColl_freeCount (c : Coll) : (s.setColl c).freeCount = s.freeCount := rfl
@[simp] theorem State.setColl_safety (c : Coll) : (s.setColl c).safety = s.safety := rfl
@[simp] theorem State.setColl_volz (c : Coll) : (s.setColl c).volz = s.volz := rfl
@[simp] theorem State.setColl_parts (c : Coll) : (s.setColl c).parts = s.parts := rfl
@[simp] theorem State.setColl_scrubs (c : Coll) : (s.setColl c).scrubs = s.scrubs := rfl
@[simp] theorem State.setColl_pci (c : Coll) : (s.setColl c).pci = s.pci := rfl
@[simp] theorem State.setColl_vectors (c : Coll) : (s.setColl c).vectors = s.vectors := rfl
@[simp] theorem State.setColl_slots (c : Coll) : (s.setColl c).slots = s.slots := rfl
@[simp] theorem State.setColl_steps (c : Coll) : (s.setColl c).steps = s.steps := rfl
@[simp] theorem State.setColl_nextStep (c : Coll) : (s.setColl c).nextStep = s.nextStep := rfl
@[simp] theorem State.setColl_kv (c : Coll) : (s.setColl c).kv = s.kv := rfl
@[simp] theorem State.setColl_nv (c : Coll) : (s.setColl c).nv = s.nv := rfl
@[simp] theorem State.setColl_boot (c : Coll) : (s.setColl c).boot = s.boot := rfl
@[simp] theorem State.setColl_sec (c : Coll) : (s.setColl c).sec = s.sec := rfl
@[simp] theorem State.setColl_pins (c : Coll) : (s.setColl c).pins = s.pins := rfl
@[simp] theorem State.setColl_power (c : Coll) : (s.setColl c).power = s.power := rfl
@[simp] theorem State.setColl_thermal (c : Coll) : (s.setColl c).thermal = s.thermal := rfl
@[simp] theorem State.setColl_adc (c : Coll) : (s.setColl c).adc = s.adc := rfl
@[simp] theorem State.setColl_clocks (c : Coll) : (s.setColl c).clocks = s.clocks := rfl
@[simp] theorem State.setColl_tiles (c : Coll) : (s.setColl c).tiles = s.tiles := rfl
@[simp] theorem State.setColl_teams (c : Coll) : (s.setColl c).teams = s.teams := rfl
@[simp] theorem State.setColl_seqs (c : Coll) : (s.setColl c).seqs = s.seqs := rfl
@[simp] theorem State.setColl_loads (c : Coll) : (s.setColl c).loads = s.loads := rfl
@[simp] theorem State.setColl_trace (c : Coll) : (s.setColl c).trace = s.trace := rfl
@[simp] theorem State.setColl_dbgState (c : Coll) : (s.setColl c).dbgState = s.dbgState := rfl
@[simp] theorem State.setColl_admissions (c : Coll) : (s.setColl c).admissions = s.admissions := rfl
@[simp] theorem State.setColl_fabric (c : Coll) : (s.setColl c).fabric = s.fabric := rfl
@[simp] theorem State.setColl_fget (c : Coll) (h : Fld) : (s.setColl c).fget h = s.fget h := rfl

@[simp] theorem State.tapIr_pending (i : Nat) : (s.tapIr i).pending = s.pending := rfl
@[simp] theorem State.tapIr_now (i : Nat) : (s.tapIr i).now = s.now := rfl
@[simp] theorem State.tapIr_fields (i : Nat) : (s.tapIr i).fields = s.fields := rfl
@[simp] theorem State.tapIr_latched (i : Nat) : (s.tapIr i).latched = s.latched := rfl
@[simp] theorem State.tapIr_mem (i : Nat) : (s.tapIr i).mem = s.mem := rfl
@[simp] theorem State.tapIr_stale (i : Nat) : (s.tapIr i).stale = s.stale := rfl
@[simp] theorem State.tapIr_syndromes (i : Nat) : (s.tapIr i).syndromes = s.syndromes := rfl
@[simp] theorem State.tapIr_hardBlocks (i : Nat) : (s.tapIr i).hardBlocks = s.hardBlocks := rfl
@[simp] theorem State.tapIr_softCe (i : Nat) : (s.tapIr i).softCe = s.softCe := rfl
@[simp] theorem State.tapIr_hardTable (i : Nat) : (s.tapIr i).hardTable = s.hardTable := rfl
@[simp] theorem State.tapIr_sweeps (i : Nat) : (s.tapIr i).sweeps = s.sweeps := rfl
@[simp] theorem State.tapIr_retireWaits (i : Nat) : (s.tapIr i).retireWaits = s.retireWaits := rfl
@[simp] theorem State.tapIr_out (i : Nat) : (s.tapIr i).out = s.out := rfl
@[simp] theorem State.tapIr_freeCount (i : Nat) : (s.tapIr i).freeCount = s.freeCount := rfl
@[simp] theorem State.tapIr_safety (i : Nat) : (s.tapIr i).safety = s.safety := rfl
@[simp] theorem State.tapIr_volz (i : Nat) : (s.tapIr i).volz = s.volz := rfl
@[simp] theorem State.tapIr_parts (i : Nat) : (s.tapIr i).parts = s.parts := rfl
@[simp] theorem State.tapIr_scrubs (i : Nat) : (s.tapIr i).scrubs = s.scrubs := rfl
@[simp] theorem State.tapIr_pci (i : Nat) : (s.tapIr i).pci = s.pci := rfl
@[simp] theorem State.tapIr_vectors (i : Nat) : (s.tapIr i).vectors = s.vectors := rfl
@[simp] theorem State.tapIr_slots (i : Nat) : (s.tapIr i).slots = s.slots := rfl
@[simp] theorem State.tapIr_steps (i : Nat) : (s.tapIr i).steps = s.steps := rfl
@[simp] theorem State.tapIr_nextStep (i : Nat) : (s.tapIr i).nextStep = s.nextStep := rfl
@[simp] theorem State.tapIr_kv (i : Nat) : (s.tapIr i).kv = s.kv := rfl
@[simp] theorem State.tapIr_nv (i : Nat) : (s.tapIr i).nv = s.nv := rfl
@[simp] theorem State.tapIr_boot (i : Nat) : (s.tapIr i).boot = s.boot := rfl
@[simp] theorem State.tapIr_sec (i : Nat) : (s.tapIr i).sec = s.sec := rfl
@[simp] theorem State.tapIr_pins (i : Nat) : (s.tapIr i).pins = s.pins := rfl
@[simp] theorem State.tapIr_power (i : Nat) : (s.tapIr i).power = s.power := rfl
@[simp] theorem State.tapIr_thermal (i : Nat) : (s.tapIr i).thermal = s.thermal := rfl
@[simp] theorem State.tapIr_adc (i : Nat) : (s.tapIr i).adc = s.adc := rfl
@[simp] theorem State.tapIr_clocks (i : Nat) : (s.tapIr i).clocks = s.clocks := rfl
@[simp] theorem State.tapIr_tiles (i : Nat) : (s.tapIr i).tiles = s.tiles := rfl
@[simp] theorem State.tapIr_teams (i : Nat) : (s.tapIr i).teams = s.teams := rfl
@[simp] theorem State.tapIr_seqs (i : Nat) : (s.tapIr i).seqs = s.seqs := rfl
@[simp] theorem State.tapIr_loads (i : Nat) : (s.tapIr i).loads = s.loads := rfl
@[simp] theorem State.tapIr_trace (i : Nat) : (s.tapIr i).trace = s.trace := rfl
@[simp] theorem State.tapIr_torus (i : Nat) : (s.tapIr i).torus = s.torus := rfl
@[simp] theorem State.tapIr_admissions (i : Nat) : (s.tapIr i).admissions = s.admissions := rfl
@[simp] theorem State.tapIr_fabric (i : Nat) : (s.tapIr i).fabric = s.fabric := rfl
@[simp] theorem State.tapIr_fget (i : Nat) (h : Fld) : (s.tapIr i).fget h = s.fget h := rfl

@[simp] theorem State.draw_pending : s.draw.2.pending = s.pending := rfl
@[simp] theorem State.drawRandom_pending : s.drawRandom.2.pending = s.pending := rfl
@[simp] theorem State.draw_now : s.draw.2.now = s.now := rfl
@[simp] theorem State.drawRandom_now : s.drawRandom.2.now = s.now := rfl
@[simp] theorem State.draw_fields : s.draw.2.fields = s.fields := rfl
@[simp] theorem State.drawRandom_fields : s.drawRandom.2.fields = s.fields := rfl
@[simp] theorem State.draw_latched : s.draw.2.latched = s.latched := rfl
@[simp] theorem State.drawRandom_latched : s.drawRandom.2.latched = s.latched := rfl
@[simp] theorem State.draw_mem : s.draw.2.mem = s.mem := rfl
@[simp] theorem State.drawRandom_mem : s.drawRandom.2.mem = s.mem := rfl
@[simp] theorem State.draw_stale : s.draw.2.stale = s.stale := rfl
@[simp] theorem State.drawRandom_stale : s.drawRandom.2.stale = s.stale := rfl
@[simp] theorem State.draw_syndromes : s.draw.2.syndromes = s.syndromes := rfl
@[simp] theorem State.drawRandom_syndromes : s.drawRandom.2.syndromes = s.syndromes := rfl
@[simp] theorem State.draw_hardBlocks : s.draw.2.hardBlocks = s.hardBlocks := rfl
@[simp] theorem State.drawRandom_hardBlocks : s.drawRandom.2.hardBlocks = s.hardBlocks := rfl
@[simp] theorem State.draw_softCe : s.draw.2.softCe = s.softCe := rfl
@[simp] theorem State.drawRandom_softCe : s.drawRandom.2.softCe = s.softCe := rfl
@[simp] theorem State.draw_hardTable : s.draw.2.hardTable = s.hardTable := rfl
@[simp] theorem State.drawRandom_hardTable : s.drawRandom.2.hardTable = s.hardTable := rfl
@[simp] theorem State.draw_sweeps : s.draw.2.sweeps = s.sweeps := rfl
@[simp] theorem State.drawRandom_sweeps : s.drawRandom.2.sweeps = s.sweeps := rfl
@[simp] theorem State.draw_retireWaits : s.draw.2.retireWaits = s.retireWaits := rfl
@[simp] theorem State.drawRandom_retireWaits : s.drawRandom.2.retireWaits = s.retireWaits := rfl
@[simp] theorem State.draw_out : s.draw.2.out = s.out := rfl
@[simp] theorem State.drawRandom_out : s.drawRandom.2.out = s.out := rfl
@[simp] theorem State.draw_safety : s.draw.2.safety = s.safety := rfl
@[simp] theorem State.drawRandom_safety : s.drawRandom.2.safety = s.safety := rfl
@[simp] theorem State.draw_volz : s.draw.2.volz = s.volz := rfl
@[simp] theorem State.drawRandom_volz : s.drawRandom.2.volz = s.volz := rfl
@[simp] theorem State.draw_parts : s.draw.2.parts = s.parts := rfl
@[simp] theorem State.drawRandom_parts : s.drawRandom.2.parts = s.parts := rfl
@[simp] theorem State.draw_scrubs : s.draw.2.scrubs = s.scrubs := rfl
@[simp] theorem State.drawRandom_scrubs : s.drawRandom.2.scrubs = s.scrubs := rfl
@[simp] theorem State.draw_pci : s.draw.2.pci = s.pci := rfl
@[simp] theorem State.drawRandom_pci : s.drawRandom.2.pci = s.pci := rfl
@[simp] theorem State.draw_vectors : s.draw.2.vectors = s.vectors := rfl
@[simp] theorem State.drawRandom_vectors : s.drawRandom.2.vectors = s.vectors := rfl
@[simp] theorem State.draw_slots : s.draw.2.slots = s.slots := rfl
@[simp] theorem State.drawRandom_slots : s.drawRandom.2.slots = s.slots := rfl
@[simp] theorem State.draw_steps : s.draw.2.steps = s.steps := rfl
@[simp] theorem State.drawRandom_steps : s.drawRandom.2.steps = s.steps := rfl
@[simp] theorem State.draw_nextStep : s.draw.2.nextStep = s.nextStep := rfl
@[simp] theorem State.drawRandom_nextStep : s.drawRandom.2.nextStep = s.nextStep := rfl
@[simp] theorem State.draw_kv : s.draw.2.kv = s.kv := rfl
@[simp] theorem State.drawRandom_kv : s.drawRandom.2.kv = s.kv := rfl
@[simp] theorem State.draw_nv : s.draw.2.nv = s.nv := rfl
@[simp] theorem State.drawRandom_nv : s.drawRandom.2.nv = s.nv := rfl
@[simp] theorem State.draw_boot : s.draw.2.boot = s.boot := rfl
@[simp] theorem State.drawRandom_boot : s.drawRandom.2.boot = s.boot := rfl
@[simp] theorem State.draw_sec : s.draw.2.sec = s.sec := rfl
@[simp] theorem State.drawRandom_sec : s.drawRandom.2.sec = s.sec := rfl
@[simp] theorem State.draw_pins : s.draw.2.pins = s.pins := rfl
@[simp] theorem State.drawRandom_pins : s.drawRandom.2.pins = s.pins := rfl
@[simp] theorem State.draw_power : s.draw.2.power = s.power := rfl
@[simp] theorem State.drawRandom_power : s.drawRandom.2.power = s.power := rfl
@[simp] theorem State.draw_thermal : s.draw.2.thermal = s.thermal := rfl
@[simp] theorem State.drawRandom_thermal : s.drawRandom.2.thermal = s.thermal := rfl
@[simp] theorem State.draw_adc : s.draw.2.adc = s.adc := rfl
@[simp] theorem State.drawRandom_adc : s.drawRandom.2.adc = s.adc := rfl
@[simp] theorem State.draw_clocks : s.draw.2.clocks = s.clocks := rfl
@[simp] theorem State.drawRandom_clocks : s.drawRandom.2.clocks = s.clocks := rfl
@[simp] theorem State.draw_tiles : s.draw.2.tiles = s.tiles := rfl
@[simp] theorem State.drawRandom_tiles : s.drawRandom.2.tiles = s.tiles := rfl
@[simp] theorem State.draw_teams : s.draw.2.teams = s.teams := rfl
@[simp] theorem State.drawRandom_teams : s.drawRandom.2.teams = s.teams := rfl
@[simp] theorem State.draw_seqs : s.draw.2.seqs = s.seqs := rfl
@[simp] theorem State.drawRandom_seqs : s.drawRandom.2.seqs = s.seqs := rfl
@[simp] theorem State.draw_loads : s.draw.2.loads = s.loads := rfl
@[simp] theorem State.drawRandom_loads : s.drawRandom.2.loads = s.loads := rfl
@[simp] theorem State.draw_trace : s.draw.2.trace = s.trace := rfl
@[simp] theorem State.drawRandom_trace : s.drawRandom.2.trace = s.trace := rfl
@[simp] theorem State.draw_dbgState : s.draw.2.dbgState = s.dbgState := rfl
@[simp] theorem State.drawRandom_dbgState : s.drawRandom.2.dbgState = s.dbgState := rfl
@[simp] theorem State.draw_torus : s.draw.2.torus = s.torus := rfl
@[simp] theorem State.drawRandom_torus : s.drawRandom.2.torus = s.torus := rfl
@[simp] theorem State.draw_admissions : s.draw.2.admissions = s.admissions := rfl
@[simp] theorem State.drawRandom_admissions : s.drawRandom.2.admissions = s.admissions := rfl
@[simp] theorem State.draw_fabric : s.draw.2.fabric = s.fabric := rfl
@[simp] theorem State.drawRandom_fabric : s.drawRandom.2.fabric = s.fabric := rfl
@[simp] theorem State.draw_fget (h : Fld) : s.draw.2.fget h = s.fget h := rfl
@[simp] theorem State.drawRandom_fget (h : Fld) : s.drawRandom.2.fget h = s.fget h := rfl

/-! ### Registers -/

/-- A field reads what was written, cut to its width. -/
@[simp] theorem State.fget_fset_same (f : Fld) (v : Nat) : (s.fset f v).fget f = v % f.card := by
  simp [State.fget, State.fset]

/-- A field at another place reads as before. -/
theorem State.fget_fset_ne {f g : Fld} (v : Nat) (h : f.key ≠ g.key) : (s.fset f v).fget g = s.fget g := by
  simp only [State.fget, State.fset]
  exact Map.get_set_ne _ _ _ _ h

theorem State.fget_raise_ne {f g : Fld} (h : f.key ≠ g.key) : (s.raise f).fget g = s.fget g := s.fget_fset_ne 1 h
theorem State.fget_clear_ne {f g : Fld} (h : f.key ≠ g.key) : (s.clear f).fget g = s.fget g := s.fget_fset_ne 0 h
theorem State.fget_fput_ne {f g : Fld} (b : Bool) (h : f.key ≠ g.key) : (s.fput f b).fget g = s.fget g :=
  s.fget_fset_ne _ h
theorem State.fget_bumpBy_ne {f g : Fld} (n : Nat) (h : f.key ≠ g.key) : (s.bumpBy f n).fget g = s.fget g :=
  s.fget_fset_ne _ h
theorem State.fget_bump_ne {f g : Fld} (h : f.key ≠ g.key) : (s.bump f).fget g = s.fget g := s.fget_bumpBy_ne 1 h

@[simp] theorem State.fget_clear_same (f : Fld) : (s.clear f).fget f = 0 := by simp [State.clear]

@[simp] theorem State.fget_raise_same (f : Fld) : (s.raise f).fget f = 1 % f.card := by simp [State.raise]

/-- A field of two places leaves the others alone. -/
theorem State.fget_fset64_ne {f g h : Fld} (v : Nat) (hf : f.key ≠ h.key) (hg : g.key ≠ h.key) :
    (s.fset64 f g v).fget h = s.fget h := by
  simp only [State.fset64]
  rw [State.fget_fset_ne _ _ hg, State.fget_fset_ne _ _ hf]

/-- Two fields read independently of the order in which they were written. -/
theorem State.fget_fset_fset {f g : Fld} (v w : Nat) (h : g.key ≠ f.key) :
    ((s.fset f v).fset g w).fget f = v % f.card := by
  rw [State.fget_fset_ne _ _ h, State.fget_fset_same]

/-- A counter that stops at its greatest value. -/
theorem State.fget_bumpBy_same (f : Fld) (n : Nat) : (s.bumpBy f n).fget f = min (f.card - 1) (s.fget f + n) % f.card := by
  simp [State.bumpBy]

/-! ### Keyed state reads back what was written -/

@[simp] theorem State.team_setTeam (t : Nat) (x : Team) : (s.setTeam t x).team t = x := by simp [State.team, State.setTeam]
theorem State.team_setTeam_ne {t u : Nat} (x : Team) (h : t ≠ u) : (s.setTeam t x).team u = s.team u := by
  simp [State.team, State.setTeam, Map.get_set_ne _ _ _ _ h]
@[simp] theorem State.seq_setSeqr (x : Nat) (q : Seq) : (s.setSeqr x q).seq x = q := by simp [State.seq, State.setSeqr]
theorem State.seq_setSeqr_ne {x y : Nat} (q : Seq) (h : x ≠ y) : (s.setSeqr x q).seq y = s.seq y := by
  simp [State.seq, State.setSeqr, Map.get_set_ne _ _ _ _ h]
@[simp] theorem State.slot_setSlot (g : Nat) (x : Slot) : (s.setSlot g x).slot g = x := by simp [State.slot, State.setSlot]
theorem State.slot_setSlot_ne {g k : Nat} (x : Slot) (h : g ≠ k) : (s.setSlot g x).slot k = s.slot k := by
  simp [State.slot, State.setSlot, Map.get_set_ne _ _ _ _ h]
@[simp] theorem State.partGet_partSet (p : Nat) (x : Part) : (s.partSet p x).partGet p = x := by
  simp [State.partGet, State.partSet]
theorem State.partGet_partSet_ne {p q : Nat} (x : Part) (h : p ≠ q) : (s.partSet p x).partGet q = s.partGet q := by
  simp [State.partGet, State.partSet, Map.get_set_ne _ _ _ _ h]
@[simp] theorem State.region_setRegion (r : Nat) (x : Region) : (s.setRegion r x).region r = x := by
  simp [State.region, State.setRegion]
theorem State.region_setRegion_ne {r q : Nat} (x : Region) (h : r ≠ q) : (s.setRegion r x).region q = s.region q := by
  simp [State.region, State.setRegion, Map.get_set_ne _ _ _ _ h]
@[simp] theorem State.vecGet_vecSet (fn vec : Nat) (v : Vector) : (s.vecSet fn vec v).vecGet fn vec = v := by
  simp [State.vecGet, State.vecSet]

/-! ### Lists of words, and folds -/

@[simp] theorem State.fsetWords_mem (f : Fld) (i : Nat) (ws : List Nat) : (s.fsetWords f i ws).mem = s.mem := by
  induction ws generalizing s i with
  | nil => rfl
  | cons w ws ih => simp [State.fsetWords, ih]

@[simp] theorem State.fsetWords_pending (f : Fld) (i : Nat) (ws : List Nat) :
    (s.fsetWords f i ws).pending = s.pending := by
  induction ws generalizing s i with
  | nil => rfl
  | cons w ws ih => simp [State.fsetWords, ih]

@[simp] theorem State.writeBytes_pending (a : Nat) (bs : List Nat) : (s.writeBytes a bs).pending = s.pending := by
  induction bs generalizing s a with
  | nil => rfl
  | cons b bs ih => simp [State.writeBytes, ih]

@[simp] theorem State.writeBytes_fields (a : Nat) (bs : List Nat) : (s.writeBytes a bs).fields = s.fields := by
  induction bs generalizing s a with
  | nil => rfl
  | cons b bs ih => simp [State.writeBytes, ih]

/-- What every application of `f` keeps, the fold keeps. -/
theorem State.each_keeps {α β : Type} (P : State → β) (f : State → α → State) (h : ∀ s x, P (f s x) = P s) (xs : List α) :
    P (s.each xs f) = P s := by
  unfold State.each
  induction xs generalizing s with
  | nil => rfl
  | cons x xs ih => simp only [List.foldl_cons, ih, h]

/-- A property that every application of `f` keeps holds after the fold. -/
theorem State.each_inv {α : Type} (P : State → Prop) (f : State → α → State) (h : ∀ s x, P s → P (f s x)) (xs : List α)
    (hs : P s) : P (s.each xs f) := by
  unfold State.each
  induction xs generalizing s with
  | nil => exact hs
  | cons x xs ih => exact ih _ (h _ _ hs)

end Sys2Proof.Machine
end

