-- ==== Sys2Proof/Laws/Memory.lean ====
section
/-!
SUPPORT. Memory: a read after a write, and that every memory operation keeps the canonical form.
-/
set_option Elab.async false
namespace Sys2Proof.Machine

variable (s : State)

/-- A byte reads what was written to it. -/
@[simp] theorem State.readByte_writeByte (a : Nat) (v : Byte) : (s.writeByte a v).readByte a = v := by
  simp [State.readByte, State.writeByte]

/-- Every other byte reads as before. -/
theorem State.readByte_writeByte_ne {a b : Nat} (v : Byte) (h : a ≠ b) : (s.writeByte a v).readByte b = s.readByte b := by
  simp [State.readByte, State.writeByte, Map.get_set_ne _ _ _ _ h]

/-- A list of bytes leaves every byte before it alone. -/
theorem State.readByte_writeBytes_before {a b : Nat} (bs : List Nat) (h : b < a) :
    (s.writeBytes a bs).readByte b = s.readByte b := by
  induction bs generalizing s a with
  | nil => rfl
  | cons x bs ih =>
    rw [State.writeBytes, ih _ (by omega), State.readByte_writeByte_ne]
    omega

/-- A list of bytes leaves every byte outside it alone. -/
theorem State.readByte_writeBytes_out {a b : Nat} (bs : List Nat) (h : b < a ∨ a + bs.length ≤ b) :
    (s.writeBytes a bs).readByte b = s.readByte b := by
  induction bs generalizing s a with
  | nil => rfl
  | cons x bs ih =>
    simp only [List.length_cons] at h
    rw [State.writeBytes, ih _ (by omega), State.readByte_writeByte_ne]
    omega

/-- Byte `i` of a list written reads back. -/
theorem State.readByte_writeBytes {a i : Nat} (bs : List Nat) (h : i < bs.length) :
    (s.writeBytes a bs).readByte (a + i) = BitVec.ofNat 8 (bs.getD i 0) := by
  induction bs generalizing s a i with
  | nil => simp at h
  | cons x bs ih =>
    rw [State.writeBytes]
    cases i with
    | zero => rw [State.readByte_writeBytes_before _ _ (by omega)]; simp
    | succ i =>
      have := ih (s := s.writeByte a (BitVec.ofNat 8 x)) (a := a + 1) (i := i) (by simpa using h)
      rw [show a + (i + 1) = a + 1 + i by omega, this]
      simp

/-! ### The canonical form -/

theorem State.memoryOk_of_mem {s t : State} (h : t.mem = s.mem) (hs : s.memoryOk) : t.memoryOk := by
  unfold State.memoryOk at *
  rw [h]
  exact hs

theorem State.memoryOk_writeByte (a : Nat) (v : Byte) (h : s.memoryOk) : (s.writeByte a v).memoryOk := by
  unfold State.memoryOk State.writeByte at *
  exact Map.wf_set a v h

theorem State.memoryOk_writeBytes (a : Nat) (bs : List Nat) (h : s.memoryOk) : (s.writeBytes a bs).memoryOk := by
  induction bs generalizing s a with
  | nil => exact h
  | cons b bs ih => exact ih _ _ (s.memoryOk_writeByte _ _ h)

theorem State.memoryOk_writeLive (a : Nat) (bs : List Nat) (h : s.memoryOk) : (s.writeLive a bs).memoryOk := by
  induction bs generalizing s a with
  | nil => exact h
  | cons b bs ih =>
    rw [State.writeLive]
    split
    · exact ih _ _ h
    · exact ih _ _ (s.memoryOk_writeByte _ _ h)

theorem State.memoryOk_writeWord (a v : Nat) (h : s.memoryOk) : (s.writeWord a v).memoryOk :=
  s.memoryOk_writeBytes _ _ h

/-- Memory after reset lists nothing. -/
theorem State.memoryOk_reset : State.reset.memoryOk := rfl

end Sys2Proof.Machine
end

