-- ==== Sys2Proof/Laws/Records.lean ====
section
/-!
SUPPORT. Records, events, the trace unit, health and paddock mode leave memory, its syndromes and the queue alone; reads and
writes through the block code leave the queue alone and keep memory's canonical form.
-/
set_option Elab.async false
namespace Sys2Proof.Machine

variable (s : State)

@[simp] theorem State.vecSend_mem (fn vec : Nat) : (s.vecSend fn vec).mem = s.mem := by
  unfold State.vecSend
  simp

@[simp] theorem State.vecSend_syndromes (fn vec : Nat) : (s.vecSend fn vec).syndromes = s.syndromes := by
  unfold State.vecSend
  simp

@[simp] theorem State.vecSend_hardBlocks (fn vec : Nat) : (s.vecSend fn vec).hardBlocks = s.hardBlocks := by
  unfold State.vecSend
  simp

@[simp] theorem State.vecSend_pending (fn vec : Nat) : (s.vecSend fn vec).pending = s.pending := by
  unfold State.vecSend
  simp

@[simp] theorem State.vecEvent_mem (fn vec : Nat) : (s.vecEvent fn vec).mem = s.mem := by
  unfold State.vecEvent
  simp [apply_ite (fun t : State => t.mem)]

@[simp] theorem State.vecEvent_syndromes (fn vec : Nat) : (s.vecEvent fn vec).syndromes = s.syndromes := by
  unfold State.vecEvent
  simp [apply_ite (fun t : State => t.syndromes)]

@[simp] theorem State.vecEvent_hardBlocks (fn vec : Nat) : (s.vecEvent fn vec).hardBlocks = s.hardBlocks := by
  unfold State.vecEvent
  simp [apply_ite (fun t : State => t.hardBlocks)]

@[simp] theorem State.vecEvent_pending (fn vec : Nat) : (s.vecEvent fn vec).pending = s.pending := by
  unfold State.vecEvent
  simp [apply_ite (fun t : State => t.pending)]

@[simp] theorem State.pkgEvent_mem (e : PkgEvent) : (s.pkgEvent e).mem = s.mem := by
  unfold State.pkgEvent
  simp

@[simp] theorem State.pkgEvent_syndromes (e : PkgEvent) : (s.pkgEvent e).syndromes = s.syndromes := by
  unfold State.pkgEvent
  simp

@[simp] theorem State.pkgEvent_hardBlocks (e : PkgEvent) : (s.pkgEvent e).hardBlocks = s.hardBlocks := by
  unfold State.pkgEvent
  simp

@[simp] theorem State.pkgEvent_pending (e : PkgEvent) : (s.pkgEvent e).pending = s.pending := by
  unfold State.pkgEvent
  simp

@[simp] theorem State.enqueueTrace_mem (e : TraceEntry) : (s.enqueueTrace e).mem = s.mem := by
  unfold State.enqueueTrace
  simp [apply_ite (fun t : State => t.mem)]

@[simp] theorem State.enqueueTrace_syndromes (e : TraceEntry) : (s.enqueueTrace e).syndromes = s.syndromes := by
  unfold State.enqueueTrace
  simp [apply_ite (fun t : State => t.syndromes)]

@[simp] theorem State.enqueueTrace_hardBlocks (e : TraceEntry) : (s.enqueueTrace e).hardBlocks = s.hardBlocks := by
  unfold State.enqueueTrace
  simp [apply_ite (fun t : State => t.hardBlocks)]

@[simp] theorem State.enqueueTrace_pending (e : TraceEntry) : (s.enqueueTrace e).pending = s.pending := by
  unfold State.enqueueTrace
  simp [apply_ite (fun t : State => t.pending)]

@[simp] theorem State.traceEvent_mem (b u k : Nat) (d : List Nat) : (s.traceEvent b u k d).mem = s.mem := by
  unfold State.traceEvent
  simp [apply_ite (fun t : State => t.mem)]

@[simp] theorem State.traceEvent_syndromes (b u k : Nat) (d : List Nat) : (s.traceEvent b u k d).syndromes = s.syndromes := by
  unfold State.traceEvent
  simp [apply_ite (fun t : State => t.syndromes)]

@[simp] theorem State.traceEvent_hardBlocks (b u k : Nat) (d : List Nat) : (s.traceEvent b u k d).hardBlocks = s.hardBlocks := by
  unfold State.traceEvent
  simp [apply_ite (fun t : State => t.hardBlocks)]

@[simp] theorem State.traceEvent_pending (b u k : Nat) (d : List Nat) : (s.traceEvent b u k d).pending = s.pending := by
  unfold State.traceEvent
  simp [apply_ite (fun t : State => t.pending)]

@[simp] theorem State.writeTrace_mem (e : TraceEntry) : (s.writeTrace e).mem = s.mem := by
  unfold State.writeTrace
  simp [apply_ite (fun t : State => t.mem)]
  intros; split_ifs <;> rfl

@[simp] theorem State.writeTrace_syndromes (e : TraceEntry) : (s.writeTrace e).syndromes = s.syndromes := by
  unfold State.writeTrace
  simp [apply_ite (fun t : State => t.syndromes)]
  intros; split_ifs <;> rfl

@[simp] theorem State.writeTrace_hardBlocks (e : TraceEntry) : (s.writeTrace e).hardBlocks = s.hardBlocks := by
  unfold State.writeTrace
  simp [apply_ite (fun t : State => t.hardBlocks)]
  intros; split_ifs <;> rfl

@[simp] theorem State.writeTrace_pending (e : TraceEntry) : (s.writeTrace e).pending = s.pending := by
  unfold State.writeTrace
  simp [apply_ite (fun t : State => t.pending)]
  intros; split_ifs <;> rfl

@[simp] theorem State.traceTrigger_mem (c : Nat) : (s.traceTrigger c).mem = s.mem := by
  unfold State.traceTrigger
  simp [apply_ite (fun t : State => t.mem)]

@[simp] theorem State.traceTrigger_syndromes (c : Nat) : (s.traceTrigger c).syndromes = s.syndromes := by
  unfold State.traceTrigger
  simp [apply_ite (fun t : State => t.syndromes)]

@[simp] theorem State.traceTrigger_hardBlocks (c : Nat) : (s.traceTrigger c).hardBlocks = s.hardBlocks := by
  unfold State.traceTrigger
  simp [apply_ite (fun t : State => t.hardBlocks)]

@[simp] theorem State.traceTrigger_pending (c : Nat) : (s.traceTrigger c).pending = s.pending := by
  unfold State.traceTrigger
  simp [apply_ite (fun t : State => t.pending)]

@[simp] theorem State.append_mem (r : LogRec) : (s.append r).mem = s.mem := by
  unfold State.append
  simp [apply_ite (fun t : State => t.mem)]

@[simp] theorem State.append_syndromes (r : LogRec) : (s.append r).syndromes = s.syndromes := by
  unfold State.append
  simp [apply_ite (fun t : State => t.syndromes)]

@[simp] theorem State.append_hardBlocks (r : LogRec) : (s.append r).hardBlocks = s.hardBlocks := by
  unfold State.append
  simp [apply_ite (fun t : State => t.hardBlocks)]

@[simp] theorem State.append_pending (r : LogRec) : (s.append r).pending = s.pending := by
  unfold State.append
  simp [apply_ite (fun t : State => t.pending)]

@[simp] theorem State.updateHealth_mem : (s.updateHealth ).mem = s.mem := by
  unfold State.updateHealth
  simp [apply_ite (fun t : State => t.mem)]

@[simp] theorem State.updateHealth_syndromes : (s.updateHealth ).syndromes = s.syndromes := by
  unfold State.updateHealth
  simp [apply_ite (fun t : State => t.syndromes)]

@[simp] theorem State.updateHealth_hardBlocks : (s.updateHealth ).hardBlocks = s.hardBlocks := by
  unfold State.updateHealth
  simp [apply_ite (fun t : State => t.hardBlocks)]

@[simp] theorem State.updateHealth_pending : (s.updateHealth ).pending = s.pending := by
  unfold State.updateHealth
  simp [apply_ite (fun t : State => t.pending)]

@[simp] theorem State.showFailCount_mem : (s.showFailCount ).mem = s.mem := by
  unfold State.showFailCount
  simp

@[simp] theorem State.showFailCount_syndromes : (s.showFailCount ).syndromes = s.syndromes := by
  unfold State.showFailCount
  simp

@[simp] theorem State.showFailCount_hardBlocks : (s.showFailCount ).hardBlocks = s.hardBlocks := by
  unfold State.showFailCount
  simp

@[simp] theorem State.showFailCount_pending : (s.showFailCount ).pending = s.pending := by
  unfold State.showFailCount
  simp

@[simp] theorem State.writeFailCount_mem (v : Nat) : (s.writeFailCount v).mem = s.mem := by
  unfold State.writeFailCount
  simp [apply_ite (fun t : State => t.mem)]

@[simp] theorem State.writeFailCount_syndromes (v : Nat) : (s.writeFailCount v).syndromes = s.syndromes := by
  unfold State.writeFailCount
  simp [apply_ite (fun t : State => t.syndromes)]

@[simp] theorem State.writeFailCount_hardBlocks (v : Nat) : (s.writeFailCount v).hardBlocks = s.hardBlocks := by
  unfold State.writeFailCount
  simp [apply_ite (fun t : State => t.hardBlocks)]

@[simp] theorem State.writeFailCount_pending (v : Nat) : (s.writeFailCount v).pending = s.pending := by
  unfold State.writeFailCount
  simp [apply_ite (fun t : State => t.pending)]

@[simp] theorem State.pmbusWrite_mem (k : Nat) (c : PmbusCmd) (v : Nat) : (s.pmbusWrite k c v).mem = s.mem := by
  unfold State.pmbusWrite
  simp [apply_ite (fun t : State => t.mem)]

@[simp] theorem State.pmbusWrite_syndromes (k : Nat) (c : PmbusCmd) (v : Nat) : (s.pmbusWrite k c v).syndromes = s.syndromes := by
  unfold State.pmbusWrite
  simp [apply_ite (fun t : State => t.syndromes)]

@[simp] theorem State.pmbusWrite_hardBlocks (k : Nat) (c : PmbusCmd) (v : Nat) : (s.pmbusWrite k c v).hardBlocks = s.hardBlocks := by
  unfold State.pmbusWrite
  simp [apply_ite (fun t : State => t.hardBlocks)]

@[simp] theorem State.pmbusWrite_pending (k : Nat) (c : PmbusCmd) (v : Nat) : (s.pmbusWrite k c v).pending = s.pending := by
  unfold State.pmbusWrite
  simp [apply_ite (fun t : State => t.pending)]

@[simp] theorem State.commandRail_mem (k uv : Nat) : (s.commandRail k uv).mem = s.mem := by
  unfold State.commandRail
  simp [apply_ite (fun t : State => t.mem)]

@[simp] theorem State.commandRail_syndromes (k uv : Nat) : (s.commandRail k uv).syndromes = s.syndromes := by
  unfold State.commandRail
  simp [apply_ite (fun t : State => t.syndromes)]

@[simp] theorem State.commandRail_hardBlocks (k uv : Nat) : (s.commandRail k uv).hardBlocks = s.hardBlocks := by
  unfold State.commandRail
  simp [apply_ite (fun t : State => t.hardBlocks)]

@[simp] theorem State.commandRail_pending (k uv : Nat) : (s.commandRail k uv).pending = s.pending := by
  unfold State.commandRail
  simp [apply_ite (fun t : State => t.pending)]

@[simp] theorem State.railsOffBut_mem (keep : List Nat) : (s.railsOffBut keep).mem = s.mem := by
  unfold State.railsOffBut
  simp [State.each_keeps _ (fun t : State => t.mem) (fun t k => t.commandRail k 0) (fun t k => t.commandRail_mem k 0)]

@[simp] theorem State.railsOffBut_syndromes (keep : List Nat) : (s.railsOffBut keep).syndromes = s.syndromes := by
  unfold State.railsOffBut
  simp [State.each_keeps _ (fun t : State => t.syndromes) (fun t k => t.commandRail k 0) (fun t k => t.commandRail_syndromes k 0)]

@[simp] theorem State.railsOffBut_hardBlocks (keep : List Nat) : (s.railsOffBut keep).hardBlocks = s.hardBlocks := by
  unfold State.railsOffBut
  simp [State.each_keeps _ (fun t : State => t.hardBlocks) (fun t k => t.commandRail k 0) (fun t k => t.commandRail_hardBlocks k 0)]

@[simp] theorem State.railsOffBut_pending (keep : List Nat) : (s.railsOffBut keep).pending = s.pending := by
  unfold State.railsOffBut
  simp [State.each_keeps _ (fun t : State => t.pending) (fun t k => t.commandRail k 0) (fun t k => t.commandRail_pending k 0)]

@[simp] theorem State.railsOff_mem : s.railsOff.mem = s.mem := s.railsOffBut_mem []

@[simp] theorem State.railsOff_syndromes : s.railsOff.syndromes = s.syndromes := s.railsOffBut_syndromes []

@[simp] theorem State.railsOff_hardBlocks : s.railsOff.hardBlocks = s.hardBlocks := s.railsOffBut_hardBlocks []

@[simp] theorem State.railsOff_pending : s.railsOff.pending = s.pending := s.railsOffBut_pending []

@[simp] theorem State.quiesceAllForPaddock_mem : (s.quiesceAllForPaddock ).mem = s.mem := by
  unfold State.quiesceAllForPaddock
  refine State.each_keeps s (fun t : State => t.mem) _ ?_ _
  intro t x
  simp [apply_ite (fun t : State => t.mem)]

@[simp] theorem State.quiesceAllForPaddock_syndromes : (s.quiesceAllForPaddock ).syndromes = s.syndromes := by
  unfold State.quiesceAllForPaddock
  refine State.each_keeps s (fun t : State => t.syndromes) _ ?_ _
  intro t x
  simp [apply_ite (fun t : State => t.syndromes)]

@[simp] theorem State.quiesceAllForPaddock_hardBlocks : (s.quiesceAllForPaddock ).hardBlocks = s.hardBlocks := by
  unfold State.quiesceAllForPaddock
  refine State.each_keeps s (fun t : State => t.hardBlocks) _ ?_ _
  intro t x
  simp [apply_ite (fun t : State => t.hardBlocks)]

@[simp] theorem State.quiesceAllForPaddock_pending : (s.quiesceAllForPaddock ).pending = s.pending := by
  unfold State.quiesceAllForPaddock
  refine State.each_keeps s (fun t : State => t.pending) _ ?_ _
  intro t x
  simp [apply_ite (fun t : State => t.pending)]

@[simp] theorem State.closeAxis_mem (a : Nat) : (s.closeAxis a).mem = s.mem := by
  unfold State.closeAxis
  refine State.each_keeps s (fun t : State => t.mem) _ ?_ _
  intro t x
  simp [apply_ite (fun t : State => t.mem)]

@[simp] theorem State.closeAxis_syndromes (a : Nat) : (s.closeAxis a).syndromes = s.syndromes := by
  unfold State.closeAxis
  refine State.each_keeps s (fun t : State => t.syndromes) _ ?_ _
  intro t x
  simp [apply_ite (fun t : State => t.syndromes)]

@[simp] theorem State.closeAxis_hardBlocks (a : Nat) : (s.closeAxis a).hardBlocks = s.hardBlocks := by
  unfold State.closeAxis
  refine State.each_keeps s (fun t : State => t.hardBlocks) _ ?_ _
  intro t x
  simp [apply_ite (fun t : State => t.hardBlocks)]

@[simp] theorem State.closeAxis_pending (a : Nat) : (s.closeAxis a).pending = s.pending := by
  unfold State.closeAxis
  refine State.each_keeps s (fun t : State => t.pending) _ ?_ _
  intro t x
  simp [apply_ite (fun t : State => t.pending)]

@[simp] theorem State.traceRegs_mem  : (s.traceRegs).mem = s.mem := by
  unfold State.traceRegs
  simp

@[simp] theorem State.traceRegs_syndromes  : (s.traceRegs).syndromes = s.syndromes := by
  unfold State.traceRegs
  simp

@[simp] theorem State.traceRegs_hardBlocks  : (s.traceRegs).hardBlocks = s.hardBlocks := by
  unfold State.traceRegs
  simp

@[simp] theorem State.traceRegs_pending  : (s.traceRegs).pending = s.pending := by
  unfold State.traceRegs
  simp

@[simp] theorem State.keepPort_mem (stage : Nat) : (s.keepPort stage).mem = s.mem := by
  unfold State.keepPort
  rfl

@[simp] theorem State.keepPort_syndromes (stage : Nat) : (s.keepPort stage).syndromes = s.syndromes := by
  unfold State.keepPort
  rfl

@[simp] theorem State.keepPort_hardBlocks (stage : Nat) : (s.keepPort stage).hardBlocks = s.hardBlocks := by
  unfold State.keepPort
  rfl

@[simp] theorem State.keepPort_pending (stage : Nat) : (s.keepPort stage).pending = s.pending := by
  unfold State.keepPort
  rfl

@[simp] theorem State.factoryPins_mem  : (s.factoryPins).mem = s.mem := by
  unfold State.factoryPins
  simp [apply_ite (fun t : State => t.mem)]

@[simp] theorem State.factoryPins_syndromes  : (s.factoryPins).syndromes = s.syndromes := by
  unfold State.factoryPins
  simp [apply_ite (fun t : State => t.syndromes)]

@[simp] theorem State.factoryPins_hardBlocks  : (s.factoryPins).hardBlocks = s.hardBlocks := by
  unfold State.factoryPins
  simp [apply_ite (fun t : State => t.hardBlocks)]

@[simp] theorem State.factoryPins_pending  : (s.factoryPins).pending = s.pending := by
  unfold State.factoryPins
  simp [apply_ite (fun t : State => t.pending)]

@[simp] theorem State.enterPaddock_mem (reason code : Nat) : (s.enterPaddock reason code).mem = s.mem := by
  unfold State.enterPaddock
  simp [apply_ite (fun t : State => t.mem), State.each_keeps _ (fun t : State => t.mem) State.closeAxis (fun t a => t.closeAxis_mem a)]

@[simp] theorem State.enterPaddock_syndromes (reason code : Nat) : (s.enterPaddock reason code).syndromes = s.syndromes := by
  unfold State.enterPaddock
  simp [apply_ite (fun t : State => t.syndromes), State.each_keeps _ (fun t : State => t.syndromes) State.closeAxis (fun t a => t.closeAxis_syndromes a)]

@[simp] theorem State.enterPaddock_hardBlocks (reason code : Nat) : (s.enterPaddock reason code).hardBlocks = s.hardBlocks := by
  unfold State.enterPaddock
  simp [apply_ite (fun t : State => t.hardBlocks), State.each_keeps _ (fun t : State => t.hardBlocks) State.closeAxis (fun t a => t.closeAxis_hardBlocks a)]

@[simp] theorem State.enterPaddock_pending (reason code : Nat) : (s.enterPaddock reason code).pending = s.pending := by
  unfold State.enterPaddock
  simp [apply_ite (fun t : State => t.pending), State.each_keeps _ (fun t : State => t.pending) State.closeAxis (fun t a => t.closeAxis_pending a)]

@[simp] theorem State.recordAs_mem (u : Bool) (sev cls code source : Nat) (ctx : List Nat) : (s.recordAs u sev cls code source ctx).mem = s.mem := by
  unfold State.recordAs
  simp [apply_ite (fun t : State => t.mem)]

@[simp] theorem State.recordAs_syndromes (u : Bool) (sev cls code source : Nat) (ctx : List Nat) : (s.recordAs u sev cls code source ctx).syndromes = s.syndromes := by
  unfold State.recordAs
  simp [apply_ite (fun t : State => t.syndromes)]

@[simp] theorem State.recordAs_hardBlocks (u : Bool) (sev cls code source : Nat) (ctx : List Nat) : (s.recordAs u sev cls code source ctx).hardBlocks = s.hardBlocks := by
  unfold State.recordAs
  simp [apply_ite (fun t : State => t.hardBlocks)]

@[simp] theorem State.recordAs_pending (u : Bool) (sev cls code source : Nat) (ctx : List Nat) : (s.recordAs u sev cls code source ctx).pending = s.pending := by
  unfold State.recordAs
  simp [apply_ite (fun t : State => t.pending)]

@[simp] theorem State.record_mem (sev cls code source : Nat) (ctx : List Nat) : (s.record sev cls code source ctx).mem = s.mem := by
  unfold State.record
  simp

@[simp] theorem State.record_syndromes (sev cls code source : Nat) (ctx : List Nat) : (s.record sev cls code source ctx).syndromes = s.syndromes := by
  unfold State.record
  simp

@[simp] theorem State.record_hardBlocks (sev cls code source : Nat) (ctx : List Nat) : (s.record sev cls code source ctx).hardBlocks = s.hardBlocks := by
  unfold State.record
  simp

@[simp] theorem State.record_pending (sev cls code source : Nat) (ctx : List Nat) : (s.record sev cls code source ctx).pending = s.pending := by
  unfold State.record
  simp

@[simp] theorem State.recordSoft_mem (u w m y : Nat) : (s.recordSoft u w m y).mem = s.mem := by
  unfold State.recordSoft
  simp [apply_ite (fun t : State => t.mem), State.softCount]

@[simp] theorem State.recordSoft_syndromes (u w m y : Nat) : (s.recordSoft u w m y).syndromes = s.syndromes := by
  unfold State.recordSoft
  simp [apply_ite (fun t : State => t.syndromes), State.softCount]

@[simp] theorem State.recordSoft_hardBlocks (u w m y : Nat) : (s.recordSoft u w m y).hardBlocks = s.hardBlocks := by
  unfold State.recordSoft
  simp [apply_ite (fun t : State => t.hardBlocks), State.softCount]

@[simp] theorem State.recordSoft_pending (u w m y : Nat) : (s.recordSoft u w m y).pending = s.pending := by
  unfold State.recordSoft
  simp [apply_ite (fun t : State => t.pending), State.softCount]

@[simp] theorem State.hardEvent_mem (k i : Nat) : (s.hardEvent k i).mem = s.mem := by
  unfold State.hardEvent
  simp

@[simp] theorem State.hardEvent_syndromes (k i : Nat) : (s.hardEvent k i).syndromes = s.syndromes := by
  unfold State.hardEvent
  simp

@[simp] theorem State.hardEvent_hardBlocks (k i : Nat) : (s.hardEvent k i).hardBlocks = s.hardBlocks := by
  unfold State.hardEvent
  simp

@[simp] theorem State.hardEvent_pending (k i : Nat) : (s.hardEvent k i).pending = s.pending := by
  unfold State.hardEvent
  simp

@[simp] theorem State.hardBlock_mem (a : Nat) : (s.hardBlock a).mem = s.mem := by
  unfold State.hardBlock
  dsimp only
  split <;> simp

@[simp] theorem State.hardBlock_syndromes (a : Nat) : (s.hardBlock a).syndromes = s.syndromes := by
  unfold State.hardBlock
  dsimp only
  split <;> simp

@[simp] theorem State.hardBlock_hardBlocks (a : Nat) : (s.hardBlock a).hardBlocks = s.hardBlocks := by
  unfold State.hardBlock
  dsimp only
  split <;> simp

@[simp] theorem State.hardBlock_pending (a : Nat) : (s.hardBlock a).pending = s.pending := by
  unfold State.hardBlock
  dsimp only
  split <;> simp

@[simp] theorem State.retiredAccess_mem (u a n : Nat) : (s.retiredAccess u a n).mem = s.mem := by
  unfold State.retiredAccess
  simp

@[simp] theorem State.retiredAccess_syndromes (u a n : Nat) : (s.retiredAccess u a n).syndromes = s.syndromes := by
  unfold State.retiredAccess
  simp

@[simp] theorem State.retiredAccess_hardBlocks (u a n : Nat) : (s.retiredAccess u a n).hardBlocks = s.hardBlocks := by
  unfold State.retiredAccess
  simp

@[simp] theorem State.retiredAccess_pending (u a n : Nat) : (s.retiredAccess u a n).pending = s.pending := by
  unfold State.retiredAccess
  simp

/-- What a step may see of stale lines costs free draws only. -/
@[simp] theorem State.sawLine_mem (y k : Nat) (o : Bool) : (s.sawLine y k o).mem = s.mem := rfl

theorem State.seeLines_mem (y a : Nat) (l : List StaleLine) (b : List Nat) : (s.seeLines y a l b).2.mem = s.mem := by
  induction l generalizing s b with
  | nil => rfl
  | cons x l ih =>
    simp only [State.seeLines]
    split
    · exact ih _ _
    · split
      · exact (ih _ _).trans (by simp)
      · exact ih _ _

@[simp] theorem State.settleLines_mem (a n : Nat) : (s.settleLines a n).mem = s.mem := rfl

@[simp] theorem State.settleLines_pending (a n : Nat) : (s.settleLines a n).pending = s.pending := rfl

/-! ### The block code keeps memory's canonical form -/

theorem State.memoryOk_readBlock (u : Nat) (r : Bool) (b : Nat) (h : s.memoryOk) : (s.readBlock u r b).memoryOk := by
  unfold State.readBlock
  dsimp only
  split
  · exact h
  · split
    · exact State.memoryOk_of_mem (by simp) h
    · exact State.memoryOk_of_mem (by simp) h
  · split
    · exact State.memoryOk_of_mem (by simp) h
    · split
      · exact State.memoryOk_of_mem (s := s) (by simp) h
      · refine State.memoryOk_of_mem (State.recordSoft_mem _ _ _ _ _) ?_
        split
        · exact State.memoryOk_writeByte _ _ _ (State.memoryOk_of_mem (State.bump_mem s (ceCounter (32 * b))) h)
        · exact State.memoryOk_of_mem (State.bump_mem s (ceCounter (32 * b))) h

theorem State.memoryOk_readFor (y : Option Nat) (u a n : Nat) (h : s.memoryOk) : (s.readFor y u a n).2.2.memoryOk := by
  have hb : ((if s.anyRetired a n then s.retiredAccess u a n else s).each (s.badBlocks a n)
      (fun t b => t.readBlock u true b)).memoryOk := by
    refine State.each_inv _ (fun t => t.memoryOk = true) _ (fun t b ht => t.memoryOk_readBlock _ _ _ ht) _ ?_
    split
    · exact State.memoryOk_of_mem (by simp) h
    · exact h
  unfold State.readFor
  dsimp only
  split
  · exact State.memoryOk_of_mem (State.seeLines_mem _ _ _ _ _) hb
  · exact hb

theorem State.memoryOk_readThrough (u a n : Nat) (h : s.memoryOk) : (s.readThrough u a n).2.2.memoryOk :=
  s.memoryOk_readFor _ _ _ _ h

theorem State.memoryOk_mergeBlock (u a n b : Nat) (h : s.memoryOk) : (s.mergeBlock u a n b).memoryOk := by
  unfold State.mergeBlock
  dsimp only
  split
  · exact h
  · split
    · exact State.memoryOk_of_mem rfl (s.memoryOk_readBlock u true b h)
    · exact State.memoryOk_writeBytes _ _ _ (State.memoryOk_of_mem rfl (s.memoryOk_readBlock u true b h))

theorem State.memoryOk_writeThrough (u a : Nat) (b : List Nat) (h : s.memoryOk) : (s.writeThrough u a b).memoryOk := by
  unfold State.writeThrough
  have h' : ((s.each (s.badBlocks a b.length) (fun t k => t.mergeBlock u a b.length k)).settleLines a b.length).memoryOk :=
    State.memoryOk_of_mem (State.settleLines_mem _ _ _)
      (State.each_inv _ (fun t => t.memoryOk = true) _ (fun t k ht => t.memoryOk_mergeBlock _ _ _ _ ht) _ h)
  dsimp only
  split
  · exact State.memoryOk_writeLive _ _ _ (State.memoryOk_of_mem (by simp) h')
  · exact State.memoryOk_writeBytes _ _ _ h'

/-- What a scrub clears leaves the canonical form. -/
theorem Map.wf_filter {m : SMap Byte} {d : Byte} (p : Nat → Bool) (h : Map.wf d m) : Map.wf d (m.filter (fun e => p e.1)) := by
  simp only [Map.wf, Bool.and_eq_true] at *
  refine ⟨?_, ?_⟩
  · have hs := h.1
    clear h
    induction m with
    | nil => rfl
    | cons e m ih =>
      obtain ⟨k, v⟩ := e
      simp only [Map.sorted, Bool.and_eq_true] at hs
      have := ih hs.2
      by_cases hp : p k
      · simp only [List.filter_cons, hp, Map.sorted, Bool.and_eq_true, if_true]
        refine ⟨?_, this⟩
        have ha := hs.1
        simp only [Map.above, List.all_eq_true, decide_eq_true_eq, List.mem_filter] at *
        exact fun e he => ha e he.1
      · simpa [List.filter_cons, hp] using this
  · have := h.2
    simp only [List.all_eq_true, List.mem_filter] at *
    exact fun e he => this e he.1

end Sys2Proof.Machine
end

