-- ==== Sys2Proof/WellFormed.lean ====
section
/-!
DEFINITION. The ranges of a command's operands, as the encodings, windows and messages that carry them have them. A command
outside them is none that the package can be given; `exec` answers it all the same, so that nothing rests on this file.
-/
namespace Sys2Proof

/-- Every operand of the command lies in its range. -/
def wellFormed (i : Instr) : Bool :=
  match i with
  | .perstNAssert _ => true
  | .powerOnDetect => true
  | .railPowerLoss k => decide (k < 17)
  | .internalResetEnd => true
  | .romStageEnd => true
  | .fwVerifyEnd => true
  | .nvLoadEnd => true
  | .pinsSetEnd => true
  | .railGood k => decide (k < 17)
  | .railGoodTimeout k _ => decide (k < 17)
  | .railOnTempRecheck => true
  | .dramUpEnd => true
  | .linksUpEnd => true
  | .imageLoadSlot => true
  | .imageLoadEnd => true
  | .selfCalEnd _ => true
  | .causewayOpenEnd => true
  | .startDeadlineExpire => true
  | .failCountNvRetry => true
  | .registerWrite fn bar _ size _ _ => (decide (fn < 33) || decide (64 ≤ fn ∧ fn < 72)) && (bar == 0 || bar == 2) && (size == 4 || size == 8)
  | .readClearCounter fn bar _ _ => (decide (fn < 33) || decide (64 ≤ fn ∧ fn < 72)) && (bar == 0 || bar == 2)
  | .latchingLoRead fn bar _ _ => (decide (fn < 33) || decide (64 ≤ fn ∧ fn < 72)) && (bar == 0 || bar == 2)
  | .configRequest _ => true
  | .hostBar4Read fn _ _ => decide (fn < 33)
  | .hostBar4Write fn _ bytes _ => decide (fn < 33) && bytes.all (fun b => decide (b < 256))
  | .malformedTlp fn => decide (fn < 33)
  | .slotDescriptorWrite fn _ bytes _ => decide (fn < 33) && bytes.all (fun b => decide (b < 256))
  | .arm g => decide (g < 16384)
  | .continueSlot g => decide (g < 16384)
  | .pause g => decide (g < 16384)
  | .resume g => decide (g < 16384)
  | .cancel g => decide (g < 16384)
  | .release g => decide (g < 16384)
  | .resultPayloadRead fn k _ _ => decide (fn < 33) && decide (k < 16384)
  | .stepPlan p m _ _ _ _ _ => decide (p < 32) && decide (m < 256)
  | .pageWaitRetry g => decide (g < 16384)
  | .pageWaitExpire g => decide (g < 16384)
  | .pageMoveComplete p _ _ host => decide (p < 32) && host.all (fun b => decide (b < 256))
  | .inputPullComplete g _ host => decide (g < 16384) && host.all (fun b => decide (b < 256))
  | .ttlExpire g => decide (g < 16384)
  | .stepRecord _ => true
  | .nop x => decide (x < 32)
  | .lda x a _ => decide (x < 32) && decide (a < 16)
  | .adda x a _ => decide (x < 32) && decide (a < 16)
  | .loop x _ _ => decide (x < 32)
  | .gopen x team a => decide (x < 32) && decide (team < 24) && decide (a < 16)
  | .gclose x team group => decide (x < 32) && decide (team < 24) && decide (group < 16)
  | .gwait x team group => decide (x < 32) && decide (team < 24) && decide (group < 16)
  | .vec x _ group a _ => decide (x < 32) && decide (group < 16) && decide (a < 16)
  | .gate x _ _ inp disp _ => decide (x < 32) && decide (inp < 16) && decide (disp < 16)
  | .vuCopy x team _ a d _ => decide (x < 32) && decide (team < 24) && decide (a < 16) && decide (d < 16)
  | .vuAdd x team _ a b d _ => decide (x < 32) && decide (team < 24) && decide (a < 16) && decide (b < 16) && decide (d < 16)
  | .vuMul x team _ a b d _ => decide (x < 32) && decide (team < 24) && decide (a < 16) && decide (b < 16) && decide (d < 16)
  | .vuFma x team _ a b d _ => decide (x < 32) && decide (team < 24) && decide (a < 16) && decide (b < 16) && decide (d < 16)
  | .vuMax x team _ a b d _ => decide (x < 32) && decide (team < 24) && decide (a < 16) && decide (b < 16) && decide (d < 16)
  | .vuSum x team _ a d _ => decide (x < 32) && decide (team < 24) && decide (a < 16) && decide (d < 16)
  | .vuExp x team _ a d _ => decide (x < 32) && decide (team < 24) && decide (a < 16) && decide (d < 16)
  | .vuRsqrt x team _ a d _ => decide (x < 32) && decide (team < 24) && decide (a < 16) && decide (d < 16)
  | .vuRecip x team _ a d _ => decide (x < 32) && decide (team < 24) && decide (a < 16) && decide (d < 16)
  | .vuSilu x team _ a d _ => decide (x < 32) && decide (team < 24) && decide (a < 16) && decide (d < 16)
  | .vuGelu x team _ a d _ => decide (x < 32) && decide (team < 24) && decide (a < 16) && decide (d < 16)
  | .vuRmsnorm x team _ a b d _ => decide (x < 32) && decide (team < 24) && decide (a < 16) && decide (b < 16) && decide (d < 16)
  | .vuSoftmax x team _ a d _ => decide (x < 32) && decide (team < 24) && decide (a < 16) && decide (d < 16)
  | .vuRope x team _ a b d _ => decide (x < 32) && decide (team < 24) && decide (a < 16) && decide (b < 16) && decide (d < 16)
  | .vuGather x team _ a b d _ => decide (x < 32) && decide (team < 24) && decide (a < 16) && decide (b < 16) && decide (d < 16)
  | .vuScatter x team _ a b d _ => decide (x < 32) && decide (team < 24) && decide (a < 16) && decide (b < 16) && decide (d < 16)
  | .vuScore x team _ a b d _ => decide (x < 32) && decide (team < 24) && decide (a < 16) && decide (b < 16) && decide (d < 16)
  | .vuValue x team _ a b d _ => decide (x < 32) && decide (team < 24) && decide (a < 16) && decide (b < 16) && decide (d < 16)
  | .vuToMx x team _ _ a d _ => decide (x < 32) && decide (team < 24) && decide (a < 16) && decide (d < 16)
  | .vuFromMx x team _ _ a d _ => decide (x < 32) && decide (team < 24) && decide (a < 16) && decide (d < 16)
  | .loadm x model => decide (x < 32) && decide (model < 256)
  | .loadmComplete x model _ => decide (x < 32) && decide (model < 256)
  | .swapPlanes x model => decide (x < 32) && decide (model < 256)
  | .swapat x model a => decide (x < 32) && decide (model < 256) && decide (a < 16)
  | .signal x str flag => decide (x < 32) && decide (str < 32) && decide (flag < 256)
  | .waitf x flag count => decide (x < 32) && decide (flag < 256) && decide (count < 256)
  | .coll x a => decide (x < 32) && decide (a < 16)
  | .milepost x _ => decide (x < 32)
  | .seqEnd x => decide (x < 32)
  | .badInstructionFetch x => decide (x < 32)
  | .expertCallTimeout _ => true
  | .edgeConvert t => decide (t < 768)
  | .splitStallEnd t => decide (t < 768)
  | .beatBoundary _ _ => true
  | .tileRecordArrive t => decide (t < 768)
  | .outriderDelivery t => decide (t < 768)
  | .groupCloseComplete t g => decide (t < 768) && decide (g < 16)
  | .accAbandon t g => decide (t < 768) && decide (g < 16)
  | .milepostReached _ => true
  | .replayStart _ => true
  | .planeWrite t k plane _ bytes => decide (t < 768) && decide (k < 34) && decide (plane < 2) && bytes.all (fun b => decide (b < 256))
  | .drainEnd t k => decide (t < 768) && decide (k < 34)
  | .teamSwapGo t plane => decide (t < 768) && decide (plane < 2)
  | .teamStop t _ => decide (t < 768)
  | .teamCntFreeze t _ => decide (t < 768)
  | .sampleDue t r => decide (t < 768) && decide (r < 32)
  | .forcedCheck t r => decide (t < 768) && decide (r < 32)
  | .checkLate t r => decide (t < 768) && decide (r < 32)
  | .sampleComplete t r _ => decide (t < 768) && decide (r < 32)
  | .arbCodeCheckDone t => decide (t < 768)
  | .arbReferenceDone t _ => decide (t < 768)
  | .arbSpareLoadDone t => decide (t < 768)
  | .arbSpareRunDone t _ => decide (t < 768)
  | .arbNoSpareTimeout t => decide (t < 768)
  | .outriderSelftestDone t _ => decide (t < 768)
  | .outrSample t r => decide (t < 768) && decide (r < 32)
  | .outrSelftest t => decide (t < 768)
  | .outrRefGo t _ => decide (t < 768)
  | .referenceRunDone t => decide (t < 768)
  | .calrefQualified => true
  | .calrefLost => true
  | .rotationVisit t => decide (t < 768)
  | .calLate t => decide (t < 768)
  | .calRequest t k => decide (t < 768) && decide (k < 34)
  | .calAbandon t => decide (t < 768)
  | .calHold t _ => decide (t < 768)
  | .takeoverCopyDone t => decide (t < 768)
  | .takeoverMove t => decide (t < 768)
  | .calGateDone t _ _ => decide (t < 768)
  | .calFitDone t _ _ _ _ _ => decide (t < 768)
  | .statsShadowEnd t => decide (t < 768)
  | .slewStep t k => decide (t < 768) && decide (k < 34)
  | .dailyTrimRecord t k => decide (t < 768) && decide (k < 34)
  | .pendingRetireComplete t => decide (t < 768)
  | .farrRemap t k col => decide (t < 768) && decide (k < 34) && decide (col < 256)
  | .farrRetire t k => decide (t < 768) && decide (k < 34)
  | .farrReadmit t k => decide (t < 768) && decide (k < 34)
  | .farrNvRetry t _ => decide (t < 768)
  | .thermalSample _ _ => true
  | .tripRailsOff => true
  | .tripFinal => true
  | .bridleTick _ _ _ => true
  | .boostSwitch r => decide (r < 33)
  | .bridleMeasure => true
  | .brdlCapWrite _ => true
  | .pmbusAlert _ _ _ => true
  | .voltMonitorTrip k _ _ => decide (k < 17)
  | .setpointStep _ => true
  | .droopTrip r _ => decide (r < 33)
  | .stretchEnd r => decide (r < 33)
  | .clockMonitorFail _ => true
  | .regionRestart r => decide (r < 33)
  | .ageingMeasure _ => true
  | .ageingReplan => true
  | .adcConversionDone c code _ => decide (c < 53) && decide (code < 16384)
  | .adcOpenTest c _ _ => decide (c < 24)
  | .adcUrgentGo c => decide (c < 53)
  | .tollgateRefill _ => true
  | .msixIntervalEnd fn vec => decide (fn < 33) && decide (vec < 64)
  | .vfFlr k => decide (1 ≤ k) && decide (k < 33)
  | .pfFlr => true
  | .hotReset => true
  | .pcieLinkDown => true
  | .vfEnableCleared _ => true
  | .pciCompletionTimeout fn _ => decide (fn < 33)
  | .atsInvalidation fn _ _ => decide (fn < 33)
  | .partQuiesce => true
  | .partScrub => true
  | .partReturn => true
  | .quiesceComplete p _ bytes => decide (p < 32) && bytes.all (fun b => decide (b < 256))
  | .scrubComplete => true
  | .volzFull => true
  | .volzPartial part => decide (part < 32)
  | .volzAbort => true
  | .volzPullComplete _ bytes => bytes.all (fun b => decide (b < 256))
  | .volzVerifyComplete => true
  | .volzCommit => true
  | .loadGo c _ => decide (c < 33)
  | .loadAbort c _ bytes => decide (c < 33) && bytes.all (fun b => decide (b < 256))
  | .loadDescArrive c _ bytes => decide (c < 33) && bytes.all (fun b => decide (b < 256))
  | .loadMoveComplete c _ bytes => decide (c < 33) && bytes.all (fun b => decide (b < 256))
  | .remoteTierWaitExpire x _ _ => decide (x < 32)
  | .relayChunkReceive p _ _ _ bytes _ => decide (p < 6) && bytes.all (fun b => decide (b < 256))
  | .relayRxTimeout c _ _ => decide (c < 33)
  | .relayAckTimeout c => decide (c < 33)
  | .groomNearBound t k => decide (t < 768) && decide (k < 34)
  | .groomLapLate t => decide (t < 768)
  | .heldPlaneReloaded t k plane => decide (t < 768) && decide (k < 34) && decide (plane < 2)
  | .sweepGo c mode => decide (c < 4) && decide (mode < 4)
  | .sweepAbort c _ => decide (c < 4)
  | .sweepComplete c => decide (c < 4)
  | .dramRetire _ _ => true
  | .retireNvRetry => true
  | .kvSel1Write _ _ => true
  | .kvHostAreaWrite p which _ => decide (p < 32) && decide (which < 3)
  | .flitReceive p bytes _ _ => decide (p < 6) && bytes.all (fun b => decide (b < 256))
  | .nakReceived p _ => decide (p < 6)
  | .laneFail p lane => decide (p < 6) && decide (lane < 34)
  | .laserLow p => decide (p < 6)
  | .trainingAttemptEnd p _ _ _ => decide (p < 6)
  | .downLightCheck p _ => decide (p < 6)
  | .discoveryDeadline _ => true
  | .portAutoReadmit p => decide (p < 6)
  | .linkRetrain p => decide (p < 6)
  | .linkDark p _ => decide (p < 6)
  | .cwayOpen a => decide (a < 3)
  | .cwayClose a => decide (a < 3)
  | .cwayConfirm a => decide (a < 3)
  | .cwayConfirmTimeout a => decide (a < 3)
  | .helloSend p => decide (p < 6)
  | .hello p _ _ body => decide (p < 6) && body.all (fun b => decide (b < 256))
  | .ack p _ _ _ => decide (p < 6)
  | .revoke p _ _ pos _ _ => decide (p < 6) && decide (pos < 65536)
  | .revoked p _ _ pos _ _ => decide (p < 6) && decide (pos < 65536)
  | .readmit p _ _ pos _ _ _ => decide (p < 6) && decide (pos < 65536)
  | .linkState p _ _ pos port _ _ => decide (p < 6) && decide (pos < 65536) && decide (port < 256)
  | .waySync p _ _ _ _ _ => decide (p < 6)
  | .wayReply p _ _ _ _ _ _ _ _ _ _ => decide (p < 6)
  | .waySyncSend p _ => decide (p < 6)
  | .collStep p _ _ _ _ dir _ _ _ => decide (p < 6) && decide (dir < 2)
  | .collAck p _ _ _ _ dir => decide (p < 6) && decide (dir < 2)
  | .collAbort p _ _ _ _ port pos => decide (p < 6) && decide (port < 256) && decide (pos < 65536)
  | .collStepResend part _ dir => decide (part < 32) && decide (dir < 2)
  | .collTimeout part _ => decide (part < 32)
  | .relayStart p _ _ _ _ _ _ _ _ => decide (p < 6)
  | .relayEnd p _ _ _ _ => decide (p < 6)
  | .relayAck p _ _ _ _ => decide (p < 6)
  | .expertCall p _ _ _ _ _ _ _ _ _ => decide (p < 6)
  | .expertDone p _ _ _ _ _ => decide (p < 6)
  | .dataPacketReceive p _ _ _ _ _ _ bytes => decide (p < 6) && bytes.all (fun b => decide (b < 256))
  | .ctrlRetransmit _ _ => true
  | .routeReplan => true
  | .torRevoke pos => decide (pos < 65536)
  | .torReadmit entry => decide (entry < 256)
  | .waySet => true
  | .ppsEdge _ => true
  | .ptpSync _ _ _ _ => true
  | .timeSourceInvalid _ => true
  | .rstRetry => true
  | .nvWrite target => decide (target < 5)
  | .nvErase target => decide (target < 5)
  | .nvSetTrial target => decide (target < 5)
  | .nvClearTrial target => decide (target < 5)
  | .nvCommandComplete _ bytes => bytes.all (fun b => decide (b < 256))
  | .secAttest => true
  | .secEnrol => true
  | .secTransfer => true
  | .secCommandComplete _ bytes => bytes.all (fun b => decide (b < 256))
  | .lockstepMismatch pair => decide (pair < 2)
  | .cc6WatchdogExpire => true
  | .safeAck => true
  | .safeDigestNow => true
  | .safeLogSelWrite _ => true
  | .tileIftDue t k => decide (t < 768) && decide (k < 34)
  | .iftDeferExpire t _ => decide (t < 768)
  | .tileIftComplete t k _ => decide (t < 768) && decide (k < 34)
  | .teamTestDue t => decide (t < 768)
  | .teamTestComplete t _ => decide (t < 768)
  | .digestDue p m => decide (p < 32) && decide (m < 256)
  | .digestComplete p m => decide (p < 32) && decide (m < 256)
  | .heartbeatSend => true
  | .errorReportResend _ => true
  | .errorAck _ _ => true
  | .getAttest _ nonce => nonce.all (fun b => decide (b < 256))
  | .getLog _ _ _ => true
  | .nvBegin _ _ target _ => decide (target < 5)
  | .nvChunk _ _ bytes => bytes.all (fun b => decide (b < 256))
  | .nvChunkGapTimeout => true
  | .mgmtRetry _ => true
  | .mgmtRevoke _ pos _ => decide (pos < 65536)
  | .tapReset => true
  | .extest _ _ => true
  | .idcode => true
  | .samplePreload _ _ => true
  | .clamp => true
  | .tapChallenge => true
  | .tapUnlock bytes => bytes.all (fun b => decide (b < 256))
  | .tapAccess op space data addr => decide (op < 4) && decide (space < 16) && decide (data < 2 ^ 32) && decide (addr < 2 ^ 64)
  | .bypass => true
  | .dbgUnlock _ bytes => bytes.all (fun b => decide (b < 256))
  | .dbgLock => true
  | .unlockDurationExpire => true
  | .dbgClockStop r => decide (r < 33)
  | .dbgClockRun r => decide (r < 33)
  | .dbgWfg => true
  | .hangTimeout _ => true
  | .wfgSecondSnapshot => true
  | .runctlHalt u => decide (u < 872)
  | .runctlResume u => decide (u < 872)
  | .runctlStep u => decide (u < 872)
  | .trcArm => true
  | .trcStop => true
  | .trcTrigger => true
  | .trcCopy => true
  | .traceCopyComplete => true
  | .traceEntryWrite _ => true
  | .traceTrigInEdge pin => decide (pin < 16)
  | .dumpArm slot => decide (slot < 16)
  | .dumpDisarm slot => decide (slot < 16)
  | .cntSnap => true
  | .cntClear => true
  | .counterSnapshotLatch => true
  | .trainingTimeLimit p => decide (p < 6)
  | .timeRootDisciplineUpdate => true
  | .pcieLinkUp _ _ _ => true
  | .managementPortDown => true
  | .managementPortUp => true

end Sys2Proof
end

