-- ==== Sys2Proof/Tests/Slice0.lean ====
section
/-!
SUPPORT. Tests of the model: operands that are refused as ill formed, values of the specification's own examples, small steps, and
for each statement with hypotheses a state and operands that meet them, case by case.
-/
set_option Elab.async false
set_option maxRecDepth 4000
namespace Sys2Proof.Tests
open Sys2Proof.Machine

/-- A configuration with one partition: string 0, virtual function 1, slots 0 to 3. -/
def onePart : Volz :=
  { running := [⟨2, 1, pkgScope, 0, [], zeros 32 ++ [1, 0, 0, 0, 1, 0, 0, 0, 4, 0] ++ zeros 18, false⟩,
                ⟨0x10, 1, 0, 0, [], zeros 4 ++ [1, 0], false⟩] }

/-- The device in READY with that partition in service. -/
def serving : State :=
  ({ volz := onePart, parts := [(0, { st := .inService })],
     pci := { vfEnable := true, numVfs := 32, fns := [(0, { msix := true }), (1, { msix := true })] } } : State).fset
    Reg.rstStatusStage stReady

/-- One slot in a state. -/
def slotIn (st : SlotSt) : State := { serving with slots := [(0, { st := st })] }

/-- String 0 runs a step that was posted. -/
def running : State :=
  { serving with
    seqs := [(0, { step := some 0, ended := false, regs := [0, 64, 128, 192, 0, 0, 0, 0, 0, 0, 0, 0, 0, 0, 0, 0] })],
    steps := [{ newStep 0 0 0 [] 0 0 0 0 [0] [] none with posted := true, waiting := [0] }], nextStep := 1 }

/-- A pulse of step 0 on role 0. -/
def somePulse : Pulse :=
  { role := 0, rows := [], fmt := 0, phase := 0, pair := false, segScale := false, seg := 0, floor := 0, layer := 0, group := 0, vec := 0,
    colBlock := 0, scale := 0, inSeg := 0, step := 0, loc := 0, stray := false }

/-- A sample of role 0 that is whole. -/
def someSample : Sample := ⟨0, 0, 0, 0, 0, 0, [], somePulse, true, []⟩

/-- Team 0 arbitrates, at a step of R104, with spare tile 32. -/
def arbitrating (st : Nat) : State := { serving with teams := [(0, { arb := some ⟨someSample, st, 0, 0, some 32, 0, 7⟩ })] }

/-- Team 0 is as given. -/
def teamAs (x : Team) : State := { serving with teams := [(0, x)] }

/-- A HARNESS body: one model of one layer, placed on role 0 of team 0, and one expert of that layer. -/
def harnessW : List Nat :=
  [0, 0, 0, 0, 1, 0, 1, 0, 0, 0, 0, 0, 1, 0, 0, 0, 64, 0, 0, 0, 80, 0, 0, 0, 112, 0, 0, 0, 120, 0, 0, 0, 136, 0, 0, 0] ++ zeros 28 ++
  [0, 0, 1, 0] ++ zeros 12 ++ zeros 12 ++ [1, 0, 1, 0, 0, 0, 0, 0, 1, 0, 0, 0] ++ zeros 8 ++ zeros 8 ++ [0, 0, 0, 0, 0, 0, 1, 0] ++ zeros 72

/-- A SERVE body: one cache of one layer. -/
def serveW : List Nat := zeros 30 ++ [1, 0] ++ zeros 256 ++ [0, 0, 1, 1] ++ zeros 28

/-- The running string with that harness and cache. -/
def attending : State :=
  { running with
    volz := { running := onePart.running.take 1 ++ [⟨0x10, 1, 0, 0, [], harnessW, false⟩, ⟨0x11, 1, 0, 0, [], serveW, false⟩] },
    steps := [{ newStep 0 0 0 [] 0 0 0 0 [0] [] none with posted := true, waiting := [0], scores := [⟨64, 0, [], []⟩] }] }

/-- A message of the package at position 5 to all, without an acknowledgement asked. -/
def hdr : CtrlHdr := ⟨5, 0, 0, 0xFFFF, 0, 0, 1, false, 0, 0⟩

/-- The device with port 0 up and its peer at position 5. -/
def linked : State := (serving.fset (Reg.linkStatusState.port 0) lkUp).fset (Reg.linkStatusDisc.port 0) 1

/-- A collective of string 0 with one send outstanding. -/
def aColl : Coll :=
  { id := 1, part := 0, str := 0, step := 0, desc := zeros 8 ++ [255, 255, 255] ++ zeros 53, phases := [], phase := 0, k := 1, sent := false,
    done := 0, buf := [], sends := [], degraded := false, issued := 0 }

/-- The linked device with that collective. -/
def collecting : State := { linked with torus := { linked.torus with colls := [aColl] } }

/-- An expert call that awaits its end. -/
def aCall : ExpCall := ⟨1, 0, 0, 0, 5, 1, [1], 0, 4, false, none, 0⟩

/-- The header of a good management message of a type and a body from a link-local address. -/
def mlHdr (type : Nat) (body : List Nat) : MgmtHdr :=
  let h : MgmtHdr := ⟨mgmtMagic, 0, 0, 1, body.length, 0, none, 0, [0xFE, 0x80] ++ zeros 14, serving.udpPort, 255⟩
  { h with crc := crc32c (mgmtBytes h type body) }

/-- The device unlocked for the debug port, with SCOPE bit 0. -/
def scopedDev : State := (serving.raise Reg.dbgStatusUnlocked).fset Reg.dbgStatusScope 1

/-- The hypotheses of StartCommandsComplete can be met, case by case. -/
theorem met_start_commands_complete :
    (∃ (ns : Nat), 1000 ≤ ns) ∧
    (∃ (s : State), s.stage = stPor) ∧
    (∃ (s : State), (s.stage = stRom) ∧ (s.paddock = false) ∧ (s.nv.fwA.isSome ∨ s.nv.fwB.isSome)) ∧
    (∃ (s : State), (s.stage = stFwVerify) ∧ (s.paddock = false)) ∧
    (∃ (s : State), (s.stage = stNvLoad) ∧ (s.paddock = false) ∧ (s.nvOk = true) ∧ (s.nv.userNv = none) ∧ (s.nv.failCount <
    s.failLimit)) ∧
    (∃ (s : State), (s.stage = stPinsSet) ∧ (s.paddock = false) ∧ (s.pins.configured = false) ∧ (s.setPins.loadAdc.tooHot =
    false)) ∧
    (∃ (k : Nat) (s : State), s.power.turning = some k) ∧
    (∃ (k : Nat) (s : State), s.power.turning = some k) ∧
    (∃ (s : State), (s.power.heldOff = true) ∧ (s.paddock = false) ∧ (s.tooHot = false)) ∧
    (∃ (s : State), (s.stage = stDramUp) ∧ (s.paddock = false)) ∧
    (∃ (s : State), (s.stage = stLinksUp) ∧ (s.paddock = false)) ∧
    (∃ (s : State), (s.imageLoad = true) ∧ (s.bootSrc ≠ 1) ∧ (s.volz.kind = none) ∧ (s.boot.imgRefused = []) ∧ (s.boot.marked
    = true)) ∧
    (∃ (s : State), (s.imageLoad = true) ∧ (s.fget Reg.volzStatusState = vzApply)) ∧
    (∃ (s : State), (s.stage = stSelfCal) ∧ (s.paddock = false)) ∧
    (∃ (s : State), (s.stage = stCauseway) ∧ (s.paddock = false) ∧ (s.discovered = true)) ∧
    (∃ (s : State), (s.stage ≠ stPor) ∧ (s.stage < stReady) ∧ (s.paddock = false)) ∧
    (∃ (n : Nat) (s : State), (s.boot.failPending = some n) ∧ (s.ready = false)) :=
  ⟨⟨1000, by decide +kernel⟩,
   ⟨({} : State).fset Reg.rstStatusStage 0, by decide +kernel⟩,
   ⟨({ nv := { fwA := some [] } } : State).fset Reg.rstStatusStage 1, by and_intros <;> decide +kernel⟩,
   ⟨({} : State).fset Reg.rstStatusStage 2, by and_intros <;> decide +kernel⟩,
   ⟨((({} : State).fset Reg.rstStatusStage 3).raise Reg.thrmHubNvOk), by and_intros <;> decide +kernel⟩,
   ⟨({} : State).fset Reg.rstStatusStage 4, by and_intros <;> decide +kernel⟩,
   ⟨15, { power := { turning := some 15 } }, by decide +kernel⟩,
   ⟨15, { power := { turning := some 15 } }, by decide +kernel⟩,
   ⟨{ power := { heldOff := true } }, by and_intros <;> decide +kernel⟩,
   ⟨({} : State).fset Reg.rstStatusStage 5, by and_intros <;> decide +kernel⟩,
   ⟨({} : State).fset Reg.rstStatusStage 6, by and_intros <;> decide +kernel⟩,
   ⟨(({ boot := { marked := true } } : State).fset Reg.rstStatusStage 7), by and_intros <;> decide +kernel⟩,
   ⟨(((({} : State).fset Reg.rstStatusStage 7)).fset Reg.volzStatusState vzApply), by and_intros <;> decide +kernel⟩,
   ⟨({} : State).fset Reg.rstStatusStage 8, by and_intros <;> decide +kernel⟩,
   ⟨((({} : State).fset Reg.rstStatusStage 9).raise Reg.torStatusDiscDone), by and_intros <;> decide +kernel⟩,
   ⟨({} : State).fset Reg.rstStatusStage 1, by and_intros <;> decide +kernel⟩,
   ⟨0, ({ boot := { failPending := some 0 } } : State), by and_intros <;> decide +kernel⟩⟩

/-- The hypotheses of HostAccessesComplete can be met, case by case. -/
theorem met_host_accesses_complete :
    (∃ (fn : Nat) (bar : Nat) (off : Nat) (a : Nat) (sel : Option Nat) (s : State), (off % 4 = 0) ∧ (s.land fn bar off = some
    (.reg a sel))) ∧
    (∃ (fn : Nat) (bar : Nat) (off : Nat) (a : Nat) (sel : Option Nat) (s : State), (off % 4 = 0) ∧ (s.land fn bar off = some
    (.reg a sel))) ∧
    (∃ (fn : Nat) (bar : Nat) (off : Nat) (a : Nat) (sel : Option Nat) (s : State), (off % 4 = 0) ∧ (s.land fn bar off = some
    (.reg a sel))) ∧
    (∃ (fn : Nat) (s : State), (stNvLoad < s.stage) ∧ (s.fnPresent fn = true)) ∧
    (∃ (fn : Nat) (s : State), (stNvLoad < s.stage) ∧ (s.fnPresent fn = true)) ∧
    (∃ (fn : Nat) (s : State), (stNvLoad < s.stage) ∧ (s.fnPresent fn = true)) ∧
    (∃ (fn : Nat) (s : State), (stNvLoad < s.stage) ∧ (s.fnPresent fn = true)) ∧
    (∃ (fn : Nat) (s : State), (stNvLoad < s.stage) ∧ (s.fnPresent fn = true)) ∧
    (∃ (fn : Nat) (s : State), (stNvLoad < s.stage) ∧ (s.fnPresent fn = true)) ∧
    (∃ (fn : Nat) (s : State), (stNvLoad < s.stage) ∧ (s.fnPresent fn = true)) ∧
    (∃ (fn : Nat) (s : State), (stNvLoad < s.stage) ∧ (s.fnPresent fn = true)) ∧
    (∃ (s : State), stNvLoad < s.stage) ∧
    (∃ (s : State), stNvLoad < s.stage) ∧
    (∃ (fn : Nat) (s : State), (stNvLoad < s.stage) ∧ (s.fnPresent fn = true)) ∧
    (∃ (fn : Nat) (s : State), (stNvLoad < s.stage) ∧ (s.fnPresent fn = true)) ∧
    (∃ (fn : Nat) (off : Nat) (n : Nat) (a : Nat) (s : State), (s.bar4Open fn = true) ∧ (s.bar4Range fn off n = some a)) ∧
    (∃ (fn : Nat) (off : Nat) (a : Nat) (bytes : List Nat) (s : State), (s.bar4Open fn = true) ∧ (s.bar4Range fn off
    bytes.length = some a)) ∧
    (∃ (fn : Nat) (s : State), (s.fnCfg fn).aerMask.testBit 2 = false) ∧
    (∃ (fn : Nat) (s : State), (s.fnCfg fn).aerMask.testBit 2 = true) ∧
    (∃ (fn : Nat) (addr : Nat) (s : State), (s.timedOut fn addr).hostReads.find? (fun r => r.1 == fn && decide (r.2.1 ≤ addr
    ∧ addr < r.2.1 + r.2.2.1)) = none) ∧
    (∃ (fn : Nat) (addr : Nat) (r : Nat × Nat × Nat × HostRead) (s : State), (s.timedOut fn addr).hostReads.find? (fun r =>
    r.1 == fn && decide (r.2.1 ≤ addr ∧ addr < r.2.1 + r.2.2.1)) = some r) ∧
    (∃ (s : State), (s.hostReads = []) ∧ (s.pci.invals = [])) ∧
    (∃ (fn : Nat) (vec : Nat) (s : State), ((s.vecGet fn vec).running = true) ∧ ((s.vecGet fn vec).pending = true) ∧
    ((s.vecGet fn vec).mask = false) ∧ (s.msixOn fn = true)) :=
  ⟨⟨0, 0, 0x20000, 0x20000, none, (({} : State).fset Reg.rstStatusStage 4), by and_intros <;> decide +kernel⟩,
   ⟨0, 0, 0x20000, 0x20000, none, (({} : State).fset Reg.rstStatusStage 4), by and_intros <;> decide +kernel⟩,
   ⟨0, 0, 0x10014, 0x10014, none, (({} : State).fset Reg.rstStatusStage 4), by and_intros <;> decide +kernel⟩,
   ⟨0, (({} : State).fset Reg.rstStatusStage 4), by and_intros <;> decide +kernel⟩,
   ⟨0, (({} : State).fset Reg.rstStatusStage 4), by and_intros <;> decide +kernel⟩,
   ⟨0, (({} : State).fset Reg.rstStatusStage 4), by and_intros <;> decide +kernel⟩,
   ⟨0, (({} : State).fset Reg.rstStatusStage 4), by and_intros <;> decide +kernel⟩,
   ⟨0, (({} : State).fset Reg.rstStatusStage 4), by and_intros <;> decide +kernel⟩,
   ⟨0, (({} : State).fset Reg.rstStatusStage 4), by and_intros <;> decide +kernel⟩,
   ⟨0, (({} : State).fset Reg.rstStatusStage 4), by and_intros <;> decide +kernel⟩,
   ⟨0, (({} : State).fset Reg.rstStatusStage 4), by and_intros <;> decide +kernel⟩,
   ⟨(({} : State).fset Reg.rstStatusStage 4), by decide +kernel⟩,
   ⟨(({} : State).fset Reg.rstStatusStage 4), by decide +kernel⟩,
   ⟨0, (({} : State).fset Reg.rstStatusStage 4), by and_intros <;> decide +kernel⟩,
   ⟨0, (({} : State).fset Reg.rstStatusStage 4), by and_intros <;> decide +kernel⟩,
   ⟨0, 0, 4, 0, (({} : State).fset Reg.rstStatusStage 10), by and_intros <;> decide +kernel⟩,
   ⟨0, 0, 0, [1], (({} : State).fset Reg.rstStatusStage 10), by and_intros <;> decide +kernel⟩,
   ⟨0, {}, by decide +kernel⟩,
   ⟨0, { pci := { fns := [(0, { aerMask := 4 })] } }, by decide +kernel⟩,
   ⟨0, 0, {}, by and_intros <;> decide +kernel⟩,
   ⟨0, 69, (0, 64, 64, .descriptor 0), ((serving.setLoad 0 { cur := 64 }).fset (Reg.loadStatusState.ctx 0) ldFetch), by and_intros <;> decide +kernel⟩,
   ⟨{ pci := { atc := [(0, 0, 12)] } }, by and_intros <;> decide +kernel⟩,
   ⟨0, 0, { vectors := [(0, { mask := false, pending := true, running := true })], pci := { fns := [(0, { msix := true })] } }, by and_intros <;> decide +kernel⟩⟩

/-- The hypotheses of SlotAccessesComplete can be met, case by case. -/
theorem met_slot_accesses_complete :
    (∃ (fn : Nat) (off : Nat) (g : Nat) (bytes : List Nat) (s : State), (s.bar2Open fn = true) ∧ (bytes.length = 4 ∨
    bytes.length = 8) ∧ (off % bytes.length = 0) ∧ (off < 0x400000) ∧ (s.barSlot fn (off / 256) = some g)) ∧
    (∃ (fn : Nat) (k : Nat) (off : Nat) (n : Nat) (g : Nat) (s : State), (s.bar2Open fn = true) ∧ (s.barSlot fn k = some g) ∧
    (n ≠ 0) ∧ (64 < off + n) ∧ ((s.slot g).st = .done)) ∧
    (∃ (p : Nat) (s : State), (s.livePages p).any (fun e => e.2.tier == 2) = false) :=
  ⟨⟨1, 0, 0, [5, 0, 0, 0], slotIn .done, by and_intros <;> decide +kernel⟩,
   ⟨1, 0, 64, 4, 0, slotIn .done, by and_intros <;> decide +kernel⟩,
   ⟨0, {}, by decide +kernel⟩⟩

/-- The hypotheses of SlotCommandsComplete can be met, case by case. -/
theorem met_slot_commands_complete :
    (∃ (g : Nat) (p : Nat) (u : State) (s : State), (s.slotPart g = some p) ∧ ((s.slot g).st = .free) ∧ (u = (s.readDesc
    g).2) ∧ (u.inService p = true) ∧ (u.badDesc p false (s.readDesc g).1 = false)) ∧
    (∃ (g : Nat) (p : Nat) (u : State) (s : State), (s.slotPart g = some p) ∧ ((s.slot g).st = .done) ∧ ((s.slot g).cacheHeld
    = true) ∧ (u = (s.readDesc g).2) ∧ (u.badDesc p true (s.readDesc g).1 = false) ∧ ((s.readDesc g).1.inputCount ≠ 0 ∨
    (u.slot g).pendingTok ≠ none)) ∧
    (∃ (g : Nat) (p : Nat) (s : State), (s.slotPart g = some p) ∧ ((s.slot g).st = .armed ∨ ((s.slot g).st = .running ∧
    (s.slot g).inStep = none))) ∧
    (∃ (g : Nat) (p : Nat) (s : State), (s.slotPart g = some p) ∧ ((s.slot g).st = .paused)) ∧
    (∃ (g : Nat) (p : Nat) (s : State), (s.slotPart g = some p) ∧ ((s.slot g).st = .armed ∨ (s.slot g).st = .running ∨
    (s.slot g).st = .paused) ∧ ((s.slot g).inStep = none)) ∧
    (∃ (g : Nat) (p : Nat) (s : State), (s.slotPart g = some p) ∧ ((s.slot g).st = .done ∨ (s.slot g).st = .cancelled ∨
    (s.slot g).st = .faulted)) :=
  ⟨⟨0, 0, _, { serving with mem := [(0x7BC00008, 1), (0x7BC00026, 1)] }, by decide +kernel, by decide +kernel, rfl, by decide +kernel, by decide +kernel⟩,
   ⟨0, 0, _, { serving with mem := [(0x7BC00008, 1), (0x7BC00026, 1)], slots := [(0, { st := .done, cacheHeld := true })] }, by decide +kernel, by decide +kernel, by decide +kernel, rfl, by decide +kernel, by decide +kernel⟩,
   ⟨0, 0, slotIn .armed, by and_intros <;> decide +kernel⟩,
   ⟨0, 0, slotIn .paused, by and_intros <;> decide +kernel⟩,
   ⟨0, 0, slotIn .armed, by and_intros <;> decide +kernel⟩,
   ⟨0, 0, slotIn .faulted, by and_intros <;> decide +kernel⟩⟩

/-- The hypotheses of ServingEventsComplete can be met, case by case. -/
theorem met_serving_events_complete :
    (∃ (g : Nat) (p : Nat) (s : State), (s.slotPart g = some p) ∧ (s.waiting p (s.localSlot p g) = true) ∧ ((s.secure p g
    (s.slot g).waitRows).1 = .ok)) ∧
    (∃ (g : Nat) (p : Nat) (s : State), (s.slotPart g = some p) ∧ (s.waiting p (s.localSlot p g) = true)) ∧
    (∃ (p : Nat) (page : Nat) (m : Move) (s : State), (s.kv.moves.find? (fun m => m.part == p && m.page == page) = some m) ∧
    (m.kind ≠ .copy) ∧ (s.pci.lost = false)) ∧
    (∃ (g : Nat) (host : List Nat) (y : Step) (e : StepSeq) (s : State), (s.pulling g = some (y, e)) ∧ ((s.slot g).inStep =
    some y.id) ∧ (s.pci.lost = false) ∧ (((s.modStep y.id (fun z =>
    { z with pulls := z.pulls.filter (· != g) })).chunkTokens g e host).2.1 = false)) ∧
    (∃ (g : Nat) (p : Nat) (s : State), (s.slotPart g = some p) ∧ ((s.slot g).ttlFrom ≠ none) ∧ (s.ttlMs p g ≠ none) ∧
    (s.coreHalted 0 = false) ∧ ((s.slot g).st = .paused)) ∧
    (∃ (p : Nat) (m : Nat) (a : PlanState) (b : PlanState) (s : State), (s.ready = true) ∧ (s.inService p = true) ∧
    (s.coreHalted 0 = false) ∧ (a = (s.decodeSlots p m).foldl (fun a g => a.decode p (s.serveCfg p 32 2 1024) (s.serveCfg p
    38 2 1024) g) { s := s }) ∧ (b = (a.s.promptSlots p m).foldl (fun a g => a.prompt p (s.serveCfg p 32 2 1024) (s.serveCfg
    p 38 2 1024) (s.serveCfg p 34 2 64) (s.serveCfg p 36 2 512) g) { a with stop := false }) ∧ (b.seqs ≠ []) ∧ (b.s.trimPlan
    p m b.seqs = b.seqs)) ∧
    (∃ (id : Nat) (y : Step) (s : State), (s.step? id = some y) ∧ (y.posted = false) ∧ (y.pulls = []) ∧ (s.inService y.part =
    true) ∧ (s.coreHalted 0 = false) ∧ (y.twin = none)) ∧
    (∃ (id : Nat) (y : Step) (s : State), (s.step? id = some y) ∧ (s.reached y = true) ∧ (s.coreHalted 0 = false) ∧ (y.twin =
    none) ∧ ((s.readRows y.a2 (s.rowStride y.part y.model) (s.rowBytes y.part y.model) (((s.liveSeqs y).map (fun e =>
    e.2.outRows)).flatten)).2.1 = false)) ∧
    (∃ (id : Nat) (y : Step) (s : State), (s.step? id = some y) ∧ (y.asked ≠ [] ∨ y.verdictAsked = true ∨ y.collFailed =
    true) ∧ (y.posted = true) ∧ (s.stepHeld y = false) ∧ (y.verdictAsked = true → s.verdictMoves y.part = false ∧
    s.planeHeld y.part = false) ∧ (y.collFailed = true → s.torus.replan = false)) :=
  ⟨⟨0, 0, { serving with kv := { waiters := [⟨0, 0, 0, 0, 1, [], 0⟩] } }, by and_intros <;> decide +kernel⟩,
   ⟨0, 0, { serving with kv := { waiters := [⟨0, 0, 0, 0, 1, [], 0⟩] } }, by and_intros <;> decide +kernel⟩,
   ⟨0, 0, ⟨0, 0, .fetch, 0, 0, 0, 0, 0, 0, 0, 0⟩, { serving with kv := { moves := [⟨0, 0, .fetch, 0, 0, 0, 0, 0, 0, 0, 0⟩] } }, by and_intros <;> decide +kernel⟩,
   ⟨0, [7], newStep 0 0 0 [⟨0, 0, 1, 0, 0, 2, 0⟩] 0 0 0 1 [0] [0] none, ⟨0, 0, 1, 0, 0, 2, 0⟩, { serving with slots := [(0, { st := .running, inStep := some 0, work := { inputSrc := 1 } })], steps := [newStep 0 0 0 [⟨0, 0, 1, 0, 0, 2, 0⟩] 0 0 0 1 [0] [0] none] }, by and_intros <;> decide +kernel⟩,
   ⟨0, 0, { serving with slots := [(0, { st := .paused, ttlFrom := some 0 })] }, by and_intros <;> decide +kernel⟩,
   ⟨0, 0, _, _, { serving with slots := [(0, { st := .armed, work := { inputCount := 4 }, inputLeft := 4 })], mem := [(0x7BC00008, 1)] }, by decide +kernel, by decide +kernel, by decide +kernel, rfl, rfl, by decide +kernel, by decide +kernel⟩,
   ⟨0, newStep 0 0 0 [] 0 0 0 0 [0] [] none, { serving with steps := [newStep 0 0 0 [] 0 0 0 0 [0] [] none] }, by and_intros <;> decide +kernel⟩,
   ⟨0, { newStep 0 0 0 [] 0 0 0 0 [0] [] none with posted := true, waiting := [] }, { serving with steps := [{ newStep 0 0 0 [] 0 0 0 0 [0] [] none with posted := true, waiting := [] }] }, by and_intros <;> decide +kernel⟩,
   ⟨0, { newStep 0 0 0 [] 0 0 0 0 [0] [] none with posted := true, asked := [0] }, { serving with steps := [{ newStep 0 0 0 [] 0 0 0 0 [0] [] none with posted := true, asked := [0] }] }, by and_intros <;> decide +kernel⟩⟩

/-- The hypotheses of SequencerInstructionsComplete can be met, case by case. -/
theorem met_sequencer_instructions_complete :
    (∃ (x : Nat) (s : State), s.issues x (touchNone 0x00)) ∧
    (∃ (x : Nat) (a : Nat) (off : Nat) (y : Step) (s : State), (a < 16) ∧ (s.seqStep x = some y) ∧ (s.issues x ⟨0x01,
    [(s.progAddr x (s.dataStart y.part x + off), 8)], []⟩) ∧ ((s.readProg x (s.dataStart y.part x + off)).2.1 = false)) ∧
    (∃ (x : Nat) (a : Nat) (s : State), (a < 16) ∧ (s.issues x (touchNone 0x02))) ∧
    (∃ (x : Nat) (s : State), s.issues x (touchNone 0x03)) ∧
    (∃ (x : Nat) (team : Nat) (a : Nat) (y : Step) (u : State) (r : List Nat × Bool × State) (s : State), (s.seqStep x = some
    y) ∧ (s.issues x ⟨0x10, [((s.seq x).a a, 64)], []⟩) ∧ (u = s.issued x ⟨0x10, [((s.seq x).a a, 64)], []⟩) ∧ (u.reaches
    y.part ((s.seq x).a a) 64 = true) ∧ (r = u.readThrough (unitString x) ((s.seq x).a a) 64) ∧ (r.2.1 = false) ∧
    (r.2.2.openErrors (24 * x + team % 24) (parseGroup r.1) = 0)) ∧
    (∃ (x : Nat) (team : Nat) (group : Nat) (s : State), (s.issues x (touchNone 0x11)) ∧ ((s.group (24 * x + team % 24)
    group).st = 1)) ∧
    (∃ (x : Nat) (team : Nat) (group : Nat) (s : State), (s.issues x (touchNone 0x12)) ∧ ((s.group (24 * x + team % 24)
    group).st = 0)) ∧
    (∃ (x : Nat) (layer : Nat) (a : Nat) (vectors : Nat) (y : Step) (l : Layer) (d : Nat) (n : Nat) (s : State), (s.seqStep x
    = some y) ∧ (l = harnessLayer (s.harness y.part) layer) ∧ (d = (s.seq x).a a) ∧ (n = mxSize l.inMx (l.rowSegs * 1024)) ∧
    (s.issues x ⟨0x20, [(d, n * vectors)], []⟩) ∧ (s.vecStall x layer d vectors = none) ∧ (vectors ≠ 0) ∧ (s.again x y layer
    = none) ∧ (s.reaches y.part d (n * vectors) = true) ∧ (s.cleanAt [(d, n * vectors)]) ∧ (n * vectors + retainedBytes
    (((s.seq x).otherInputs y.id layer ((s.seq x).occ y.id layer)).filter (fun r => r.step == y.id)) ≤ s.retainArea y.part)) ∧
    (∃ (x : Nat) (model : Nat) (y : Step) (s : State), (s.seqStep x = some y) ∧ (s.issues x (touchNone 0x38)) ∧ (s.roleStall
    false (modelStringPlaces (s.harness y.part) model x) = none) ∧ ((harnessModel (s.harness y.part) model).home = 2) ∧
    ((modelStringPlaces (s.harness y.part) model x).any s.placeLive = false) ∧ ((s.seq x).loads model = false)) ∧
    (∃ (x : Nat) (model : Nat) (p : Nat) (s : State), (s.stringPart x = some p) ∧ ((s.seq x).loads model = true) ∧
    (remoteTier (harnessModel (s.harness p) model).stageUnit = false) ∧ (∀ e ∈ modelRecords (s.harness p) model x, s.cleanAt
    [(stageAddr (harnessModel (s.harness p) model).stageUnit e.1, recordBytes)])) ∧
    (∃ (x : Nat) (model : Nat) (p : Nat) (e : Nat × Nat) (s : State), (s.stringPart x = some p) ∧ ((s.seq x).loading.find?
    (fun e => e.1 == model) = some e) ∧ (remoteTier (harnessModel (s.harness p) model).stageUnit = true) ∧ (s.remoteUp
    (harnessModel (s.harness p) model).stageUnit = false)) ∧
    (∃ (x : Nat) (model : Nat) (team : Nat) (y : Step) (s : State), (s.seqStep x = some y) ∧ (s.issues x (touchNone 0x39)) ∧
    (s.swapStall x model = none) ∧ (team ∈ placeTeams (modelStringPlaces (s.harness y.part) model x))) ∧
    (∃ (x : Nat) (model : Nat) (a : Nat) (team : Nat) (y : Step) (s : State), (s.seqStep x = some y) ∧ (s.issues x (touchNone
    0x3A)) ∧ (s.swapStall x model = none) ∧ (s.now + 40 ≤ (s.seq x).a a) ∧ (team ∈ placeTeams (modelStringPlaces (s.harness
    y.part) model x))) ∧
    (∃ (x : Nat) (s : State), s.issues x (touchNone 0x3B)) ∧
    (∃ (x : Nat) (flag : Nat) (count : Nat) (s : State), (s.issues x (touchNone 0x3C)) ∧ (count ≤ Map.get 0 (s.seq x).flags
    flag)) ∧
    (∃ (x : Nat) (a : Nat) (y : Step) (u : State) (r : List Nat × Bool × State) (q : List Nat × Bool × State) (b : List Nat)
    (c : Coll) (s : State), (s.seqStep x = some y) ∧ (s.issues x (s.collTouch ((s.seq x).a a) y)) ∧ (u = s.issued x
    (s.collTouch ((s.seq x).a a) y)) ∧ (u.reaches y.part ((s.seq x).a a) 64 = true) ∧ (r = u.readThrough (unitString x)
    ((s.seq x).a a) 64) ∧ (r.2.1 = false) ∧ (r.2.2.reaches y.part (field r.1 40 8) 16 = true) ∧ (r.2.2.collBad y.part r.1 =
    false) ∧ (((collRings r.1).isEmpty && collOp r.1 == 3 && field r.1 12 2 != r.2.2.position) = false) ∧ (r.2.2.reaches
    y.part (field r.1 24 8) (collCount r.1 * collElemBytes r.1) = true) ∧ (r.2.2.reaches y.part (field r.1 32 8)
    ((r.2.2.collResult r.1).2 * collElemBytes r.1) = true) ∧ (q = r.2.2.readFor (some y.id) (unitColl (r.2.2.collPort c))
    (field r.1 24 8) (collCount r.1 * collElemBytes r.1)) ∧ (q.2.1 = false) ∧ (c.id = field r.1 4 4 ∧ c.part = y.part ∧
    c.str = x ∧ c.step = y.id ∧ c.desc = r.1 ∧ c.phases = r.2.2.collPhases r.1 ∧ c.phase = 0 ∧ c.k = 1 ∧ c.sent = false ∧
    c.done = 0 ∧ c.sends = [] ∧ c.degraded = false ∧ c.issued = r.2.2.now) ∧ (b = (if collOp r.1 = 2 then collPut r.1 1
    (zeros (r.2.2.collTotal r.1)) (r.2.2.shareOff (collCount r.1) (collRings r.1)) (collLoad r.1 q.1) else collLoad r.1
    q.1)) ∧ (c.buf = (if (collRings r.1).isEmpty && collElem r.1 == 1 && collOp r.1 < 2 then b.map bf16Round else b)) ∧
    (q.2.2.torus.collIn.any (fun e => e.part == c.part && e.id == c.id && !e.past && e.check != c.check) = false)) ∧
    (∃ (x : Nat) (tag : Nat) (y : Step) (s : State), (s.seqStep x = some y) ∧ (s.issues x ⟨0x3E, [], []⟩) ∧ ((s.dumpsOf
    y.part tag).isEmpty = true ∨ s.dumpStall x y = none)) ∧
    (∃ (x : Nat) (s : State), (s.issues x (touchNone 0x3F)) ∧ ((s.seq x).queue = [])) ∧
    (∃ (x : Nat) (y : Step) (s : State), (s.seqStep x = some y) ∧ (s.canIssue x = true) ∧ (s.codeLen y.part x ≤ (s.seq
    x).pos)) :=
  ⟨⟨0, running, by and_intros <;> decide +kernel⟩,
   ⟨0, 15, 0, { newStep 0 0 0 [] 0 0 0 0 [0] [] none with posted := true, waiting := [0] }, running, by and_intros <;> decide +kernel⟩,
   ⟨0, 15, running, by and_intros <;> decide +kernel⟩,
   ⟨0, running, by and_intros <;> decide +kernel⟩,
   ⟨0, 0, 0, { newStep 0 0 0 [] 0 0 0 0 [0] [] none with posted := true, waiting := [0] }, _, _, running, by decide +kernel, by and_intros <;> decide +kernel, rfl, by decide +kernel, rfl, by decide +kernel, by decide +kernel⟩,
   ⟨0, 0, 0, { running with teams := [(0, { groups := [(0, { st := 1 })] })] }, by and_intros <;> decide +kernel⟩,
   ⟨0, 0, 0, running, by and_intros <;> decide +kernel⟩,
   ⟨0, 0, 0, 1, { newStep 0 0 0 [] 0 0 0 0 [0] [] none with posted := true, waiting := [0] }, harnessLayer (running.harness 0) 0, 0, mxSize (harnessLayer (running.harness 0) 0).inMx ((harnessLayer (running.harness 0) 0).rowSegs * 1024), running, by and_intros <;> decide +kernel⟩,
   ⟨0, 0, { newStep 0 0 0 [] 0 0 0 0 [0] [] none with posted := true, waiting := [0] }, { running with volz := { running := onePart.running.take 1 ++ [⟨0x10, 1, 0, 0, [], zeros 16 ++ [32, 0, 0, 0] ++ zeros 16 ++ [2], false⟩] } }, by and_intros <;> decide +kernel⟩,
   ⟨0, 0, 0, { running with seqs := [(0, { loading := [(0, 0)] })] }, by and_intros <;> decide +kernel⟩,
   ⟨0, 0, 0, (0, 0), { running with volz := { running := onePart.running.take 1 ++ [⟨0x10, 1, 0, 0, [], zeros 16 ++ [32, 0, 0, 0] ++ zeros 20 ++ [0, 0, 0, 128], false⟩] }, seqs := [(0, { loading := [(0, 0)] })] }, by and_intros <;> decide +kernel⟩,
   ⟨0, 0, 0, { newStep 0 0 0 [] 0 0 0 0 [0] [] none with posted := true, waiting := [0] }, { running with volz := attending.volz }, by and_intros <;> decide +kernel⟩,
   ⟨0, 0, 1, 0, { newStep 0 0 0 [] 0 0 0 0 [0] [] none with posted := true, waiting := [0] }, { running with volz := attending.volz }, by and_intros <;> decide +kernel⟩,
   ⟨0, running, by and_intros <;> decide +kernel⟩,
   ⟨0, 0, 0, running, by and_intros <;> decide +kernel⟩,
   ⟨0, 0, { newStep 0 0 0 [] 0 0 0 0 [0] [] none with posted := true, waiting := [0] }, _, _, _, _, { id := 0, part := 0, str := 0, step := 0, desc := zeros 8 ++ [255, 255, 255] ++ zeros 53, phases := [], phase := 0, k := 1, sent := false, done := 0, buf := [], sends := [], degraded := false, issued := 0 }, { running with mem := [(8, 255), (9, 255), (10, 255)] }, by decide +kernel, by and_intros <;> decide +kernel, rfl, by decide +kernel, rfl, by decide +kernel, by decide +kernel, by decide +kernel, by decide +kernel, by decide +kernel, by decide +kernel, rfl, by decide +kernel, by and_intros <;> decide +kernel, rfl, by decide +kernel, by decide +kernel⟩,
   ⟨0, 5, { newStep 0 0 0 [] 0 0 0 0 [0] [] none with posted := true, waiting := [0] }, running, by and_intros <;> decide +kernel⟩,
   ⟨0, running, by and_intros <;> decide +kernel⟩,
   ⟨0, { newStep 0 0 0 [] 0 0 0 0 [0] [] none with posted := true, waiting := [0] }, { running with seqs := [(0, { step := some 0, ended := false, pos := 1 })], volz := attending.volz }, by and_intros <;> decide +kernel⟩⟩

/-- The hypotheses of VectorElementOperationsComplete can be met, case by case. -/
theorem met_vector_element_operations_complete :
    (∃ (x : Nat) (team : Nat) (half : Bool) (a : Nat) (d : Nat) (count : Nat) (y : Step) (s : State), (s.seqStep x = some y)
    ∧ (s.issues x ⟨0x30, [(((s.seq x).a a), (elemBytes half * count))], [(((s.seq x).a d), (elemBytes half * count))]⟩) ∧
    (s.queueStall (24 * x + team % 24) = none) ∧ (s.firstBad y.part [(((s.seq x).a a), (elemBytes half * count)), (((s.seq
    x).a d), (elemBytes half * count))] = none) ∧ (s.cleanAt [(((s.seq x).a a), (elemBytes half * count)), (((s.seq x).a d),
    (elemBytes half * count))])) ∧
    (∃ (x : Nat) (team : Nat) (half : Bool) (a : Nat) (b : Nat) (d : Nat) (count : Nat) (y : Step) (s : State), (s.seqStep x
    = some y) ∧ (s.issues x ⟨0x30, [(((s.seq x).a a), (elemBytes half * count)), (((s.seq x).a b), (elemBytes half *
    count))], [(((s.seq x).a d), (elemBytes half * count))]⟩) ∧ (s.queueStall (24 * x + team % 24) = none) ∧ (s.firstBad
    y.part [(((s.seq x).a a), (elemBytes half * count)), (((s.seq x).a b), (elemBytes half * count)), (((s.seq x).a d),
    (elemBytes half * count))] = none) ∧ (s.cleanAt [(((s.seq x).a a), (elemBytes half * count)), (((s.seq x).a b),
    (elemBytes half * count)), (((s.seq x).a d), (elemBytes half * count))])) ∧
    (∃ (x : Nat) (team : Nat) (half : Bool) (a : Nat) (b : Nat) (d : Nat) (count : Nat) (y : Step) (s : State), (s.seqStep x
    = some y) ∧ (s.issues x ⟨0x30, [(((s.seq x).a a), (elemBytes half * count)), (((s.seq x).a b), (elemBytes half *
    count))], [(((s.seq x).a d), (elemBytes half * count))]⟩) ∧ (s.queueStall (24 * x + team % 24) = none) ∧ (s.firstBad
    y.part [(((s.seq x).a a), (elemBytes half * count)), (((s.seq x).a b), (elemBytes half * count)), (((s.seq x).a d),
    (elemBytes half * count))] = none) ∧ (s.cleanAt [(((s.seq x).a a), (elemBytes half * count)), (((s.seq x).a b),
    (elemBytes half * count)), (((s.seq x).a d), (elemBytes half * count))])) ∧
    (∃ (x : Nat) (team : Nat) (half : Bool) (a : Nat) (b : Nat) (d : Nat) (count : Nat) (y : Step) (s : State), (s.seqStep x
    = some y) ∧ (s.issues x ⟨0x30, [(((s.seq x).a a), (elemBytes half * count)), (((s.seq x).a b), (elemBytes half *
    count)), (((s.seq x).a d), (elemBytes half * count))], [(((s.seq x).a d), (elemBytes half * count))]⟩) ∧ (s.queueStall
    (24 * x + team % 24) = none) ∧ (s.firstBad y.part [(((s.seq x).a a), (elemBytes half * count)), (((s.seq x).a b),
    (elemBytes half * count)), (((s.seq x).a d), (elemBytes half * count)), (((s.seq x).a d), (elemBytes half * count))] =
    none) ∧ (s.cleanAt [(((s.seq x).a a), (elemBytes half * count)), (((s.seq x).a b), (elemBytes half * count)), (((s.seq
    x).a d), (elemBytes half * count)), (((s.seq x).a d), (elemBytes half * count))])) ∧
    (∃ (x : Nat) (team : Nat) (half : Bool) (a : Nat) (b : Nat) (d : Nat) (count : Nat) (y : Step) (s : State), (s.seqStep x
    = some y) ∧ (s.issues x ⟨0x30, [(((s.seq x).a a), (elemBytes half * count)), (((s.seq x).a b), (elemBytes half *
    count))], [(((s.seq x).a d), (elemBytes half * count))]⟩) ∧ (s.queueStall (24 * x + team % 24) = none) ∧ (s.firstBad
    y.part [(((s.seq x).a a), (elemBytes half * count)), (((s.seq x).a b), (elemBytes half * count)), (((s.seq x).a d),
    (elemBytes half * count))] = none) ∧ (s.cleanAt [(((s.seq x).a a), (elemBytes half * count)), (((s.seq x).a b),
    (elemBytes half * count)), (((s.seq x).a d), (elemBytes half * count))])) ∧
    (∃ (x : Nat) (team : Nat) (half : Bool) (a : Nat) (d : Nat) (count : Nat) (y : Step) (s : State), (s.seqStep x = some y)
    ∧ (s.issues x ⟨0x30, [(((s.seq x).a a), (elemBytes half * count))], [(((s.seq x).a d), (elemBytes half * count))]⟩) ∧
    (s.queueStall (24 * x + team % 24) = none) ∧ (s.firstBad y.part [(((s.seq x).a a), (elemBytes half * count)), (((s.seq
    x).a d), (elemBytes half * count))] = none) ∧ (s.cleanAt [(((s.seq x).a a), (elemBytes half * count)), (((s.seq x).a d),
    (elemBytes half * count))])) ∧
    (∃ (x : Nat) (team : Nat) (half : Bool) (a : Nat) (d : Nat) (count : Nat) (y : Step) (s : State), (s.seqStep x = some y)
    ∧ (s.issues x ⟨0x30, [(((s.seq x).a a), (elemBytes half * count))], [(((s.seq x).a d), (elemBytes half * count))]⟩) ∧
    (s.queueStall (24 * x + team % 24) = none) ∧ (s.firstBad y.part [(((s.seq x).a a), (elemBytes half * count)), (((s.seq
    x).a d), (elemBytes half * count))] = none) ∧ (s.cleanAt [(((s.seq x).a a), (elemBytes half * count)), (((s.seq x).a d),
    (elemBytes half * count))])) ∧
    (∃ (x : Nat) (team : Nat) (half : Bool) (a : Nat) (d : Nat) (count : Nat) (y : Step) (s : State), (s.seqStep x = some y)
    ∧ (s.issues x ⟨0x30, [(((s.seq x).a a), (elemBytes half * count))], [(((s.seq x).a d), (elemBytes half * count))]⟩) ∧
    (s.queueStall (24 * x + team % 24) = none) ∧ (s.firstBad y.part [(((s.seq x).a a), (elemBytes half * count)), (((s.seq
    x).a d), (elemBytes half * count))] = none) ∧ (s.cleanAt [(((s.seq x).a a), (elemBytes half * count)), (((s.seq x).a d),
    (elemBytes half * count))])) ∧
    (∃ (x : Nat) (team : Nat) (half : Bool) (a : Nat) (d : Nat) (count : Nat) (y : Step) (s : State), (s.seqStep x = some y)
    ∧ (s.issues x ⟨0x30, [(((s.seq x).a a), (elemBytes half * count))], [(((s.seq x).a d), (elemBytes half * count))]⟩) ∧
    (s.queueStall (24 * x + team % 24) = none) ∧ (s.firstBad y.part [(((s.seq x).a a), (elemBytes half * count)), (((s.seq
    x).a d), (elemBytes half * count))] = none) ∧ (s.cleanAt [(((s.seq x).a a), (elemBytes half * count)), (((s.seq x).a d),
    (elemBytes half * count))])) ∧
    (∃ (x : Nat) (team : Nat) (half : Bool) (a : Nat) (d : Nat) (count : Nat) (y : Step) (s : State), (s.seqStep x = some y)
    ∧ (s.issues x ⟨0x30, [(((s.seq x).a a), (elemBytes half * count))], [(((s.seq x).a d), (elemBytes half * count))]⟩) ∧
    (s.queueStall (24 * x + team % 24) = none) ∧ (s.firstBad y.part [(((s.seq x).a a), (elemBytes half * count)), (((s.seq
    x).a d), (elemBytes half * count))] = none) ∧ (s.cleanAt [(((s.seq x).a a), (elemBytes half * count)), (((s.seq x).a d),
    (elemBytes half * count))])) ∧
    (∃ (x : Nat) (team : Nat) (half : Bool) (a : Nat) (b : Nat) (d : Nat) (count : Nat) (y : Step) (s : State), (s.seqStep x
    = some y) ∧ (s.issues x ⟨0x30, [(((s.seq x).a a), (elemBytes half * count)), (((s.seq x).a b), (elemBytes half *
    count))], [(((s.seq x).a d), (elemBytes half * count))]⟩) ∧ (s.queueStall (24 * x + team % 24) = none) ∧ (s.firstBad
    y.part [(((s.seq x).a a), (elemBytes half * count)), (((s.seq x).a b), (elemBytes half * count)), (((s.seq x).a d),
    (elemBytes half * count))] = none) ∧ (s.cleanAt [(((s.seq x).a a), (elemBytes half * count)), (((s.seq x).a b),
    (elemBytes half * count)), (((s.seq x).a d), (elemBytes half * count))])) ∧
    (∃ (x : Nat) (team : Nat) (half : Bool) (a : Nat) (d : Nat) (count : Nat) (y : Step) (s : State), (s.seqStep x = some y)
    ∧ (s.issues x ⟨0x30, [(((s.seq x).a a), (elemBytes half * count))], [(((s.seq x).a d), (elemBytes half * count))]⟩) ∧
    (s.queueStall (24 * x + team % 24) = none) ∧ (s.firstBad y.part [(((s.seq x).a a), (elemBytes half * count)), (((s.seq
    x).a d), (elemBytes half * count))] = none) ∧ (s.cleanAt [(((s.seq x).a a), (elemBytes half * count)), (((s.seq x).a d),
    (elemBytes half * count))])) :=
  ⟨⟨0, 0, false, 0, 1, 1, { newStep 0 0 0 [] 0 0 0 0 [0] [] none with posted := true, waiting := [0] }, running, by and_intros <;> decide +kernel⟩,
   ⟨0, 0, false, 0, 1, 2, 1, { newStep 0 0 0 [] 0 0 0 0 [0] [] none with posted := true, waiting := [0] }, running, by and_intros <;> decide +kernel⟩,
   ⟨0, 0, false, 0, 1, 2, 1, { newStep 0 0 0 [] 0 0 0 0 [0] [] none with posted := true, waiting := [0] }, running, by and_intros <;> decide +kernel⟩,
   ⟨0, 0, false, 0, 1, 2, 1, { newStep 0 0 0 [] 0 0 0 0 [0] [] none with posted := true, waiting := [0] }, running, by and_intros <;> decide +kernel⟩,
   ⟨0, 0, false, 0, 1, 2, 1, { newStep 0 0 0 [] 0 0 0 0 [0] [] none with posted := true, waiting := [0] }, running, by and_intros <;> decide +kernel⟩,
   ⟨0, 0, false, 0, 1, 1, { newStep 0 0 0 [] 0 0 0 0 [0] [] none with posted := true, waiting := [0] }, running, by and_intros <;> decide +kernel⟩,
   ⟨0, 0, false, 0, 1, 1, { newStep 0 0 0 [] 0 0 0 0 [0] [] none with posted := true, waiting := [0] }, running, by and_intros <;> decide +kernel⟩,
   ⟨0, 0, false, 0, 1, 1, { newStep 0 0 0 [] 0 0 0 0 [0] [] none with posted := true, waiting := [0] }, running, by and_intros <;> decide +kernel⟩,
   ⟨0, 0, false, 0, 1, 1, { newStep 0 0 0 [] 0 0 0 0 [0] [] none with posted := true, waiting := [0] }, running, by and_intros <;> decide +kernel⟩,
   ⟨0, 0, false, 0, 1, 1, { newStep 0 0 0 [] 0 0 0 0 [0] [] none with posted := true, waiting := [0] }, running, by and_intros <;> decide +kernel⟩,
   ⟨0, 0, false, 0, 1, 2, 1, { newStep 0 0 0 [] 0 0 0 0 [0] [] none with posted := true, waiting := [0] }, running, by and_intros <;> decide +kernel⟩,
   ⟨0, 0, false, 0, 1, 1, { newStep 0 0 0 [] 0 0 0 0 [0] [] none with posted := true, waiting := [0] }, running, by and_intros <;> decide +kernel⟩⟩

/-- The hypotheses of VectorOtherOperationsComplete can be met, case by case. -/
theorem met_vector_other_operations_complete :
    (∃ (x : Nat) (team : Nat) (half : Bool) (a : Nat) (d : Nat) (count : Nat) (y : Step) (s : State), (s.seqStep x = some y)
    ∧ (s.issues x ⟨0x30, [(((s.seq x).a a), (elemBytes half * count))], [(((s.seq x).a d), elemBytes half)]⟩) ∧
    (s.queueStall (24 * x + team % 24) = none) ∧ (s.firstBad y.part [(((s.seq x).a a), (elemBytes half * count)), (((s.seq
    x).a d), elemBytes half)] = none) ∧ (s.cleanAt [(((s.seq x).a a), (elemBytes half * count)), (((s.seq x).a d), elemBytes
    half)])) ∧
    (∃ (x : Nat) (team : Nat) (half : Bool) (a : Nat) (b : Nat) (d : Nat) (count : Nat) (y : Step) (s : State), (s.seqStep x
    = some y) ∧ (s.issues x ⟨0x30, [(((s.seq x).a a), (elemBytes half * count)), (((s.seq x).a b), elemBytes half * (count /
    2))], [(((s.seq x).a d), (elemBytes half * count))]⟩) ∧ (s.queueStall (24 * x + team % 24) = none) ∧ (s.firstBad y.part
    [(((s.seq x).a a), (elemBytes half * count)), (((s.seq x).a b), elemBytes half * (count / 2)), (((s.seq x).a d),
    (elemBytes half * count))] = none) ∧ (s.cleanAt [(((s.seq x).a a), (elemBytes half * count)), (((s.seq x).a b),
    elemBytes half * (count / 2)), (((s.seq x).a d), (elemBytes half * count))])) ∧
    (∃ (x : Nat) (team : Nat) (half : Bool) (fmt : Nat) (a : Nat) (d : Nat) (count : Nat) (y : Step) (s : State), (s.seqStep
    x = some y) ∧ (s.issues x ⟨0x30, [(((s.seq x).a a), (elemBytes half * count))], [(((s.seq x).a d), mxSize (fmt % 6)
    count)]⟩) ∧ (s.queueStall (24 * x + team % 24) = none) ∧ (s.firstBad y.part [(((s.seq x).a a), (elemBytes half *
    count)), (((s.seq x).a d), mxSize (fmt % 6) count)] = none) ∧ (s.cleanAt [(((s.seq x).a a), (elemBytes half * count)),
    (((s.seq x).a d), mxSize (fmt % 6) count)])) ∧
    (∃ (x : Nat) (team : Nat) (half : Bool) (fmt : Nat) (a : Nat) (d : Nat) (count : Nat) (y : Step) (s : State), (s.seqStep
    x = some y) ∧ (s.issues x ⟨0x30, [(((s.seq x).a a), mxSize (fmt % 6) count)], [(((s.seq x).a d), (elemBytes half *
    count))]⟩) ∧ (s.queueStall (24 * x + team % 24) = none) ∧ (s.firstBad y.part [(((s.seq x).a a), mxSize (fmt % 6) count),
    (((s.seq x).a d), (elemBytes half * count))] = none) ∧ (s.cleanAt [(((s.seq x).a a), mxSize (fmt % 6) count), (((s.seq
    x).a d), (elemBytes half * count))])) ∧
    (∃ (x : Nat) (team : Nat) (half : Bool) (a : Nat) (b : Nat) (d : Nat) (count : Nat) (y : Step) (js : List (Option Nat))
    (s : State), (s.seqStep x = some y) ∧ (s.issues x ⟨0x30, (((s.seq x).a b), 4 * count) :: s.indexed half count ((s.seq
    x).a a) ((s.seq x).a b), [(((s.seq x).a d), (elemBytes half * count))]⟩) ∧ (s.queueStall (24 * x + team % 24) = none) ∧
    (s.firstBad y.part [(((s.seq x).a b), 4 * count), (((s.seq x).a d), (elemBytes half * count))] = none) ∧ (s.cleanAt
    [(((s.seq x).a b), 4 * count), (((s.seq x).a d), (elemBytes half * count))]) ∧ (js = indexAddrs ((s.seq x).a a)
    (elemBytes half) count (s.codedBytes ((s.seq x).a b) (4 * count))) ∧ (s.badIndex y.part (elemBytes half) js = none) ∧
    (s.cleanAt (js.map (fun o => (o.getD 0, elemBytes half))))) ∧
    (∃ (x : Nat) (team : Nat) (half : Bool) (a : Nat) (b : Nat) (d : Nat) (count : Nat) (y : Step) (js : List (Option Nat))
    (s : State), (s.seqStep x = some y) ∧ (s.issues x ⟨0x30, [(((s.seq x).a a), (elemBytes half * count)), (((s.seq x).a b),
    4 * count)], s.indexed half count ((s.seq x).a d) ((s.seq x).a b)⟩) ∧ (s.queueStall (24 * x + team % 24) = none) ∧
    (s.firstBad y.part [(((s.seq x).a a), (elemBytes half * count)), (((s.seq x).a b), 4 * count)] = none) ∧ (s.cleanAt
    [(((s.seq x).a a), (elemBytes half * count)), (((s.seq x).a b), 4 * count)]) ∧ (js = indexAddrs ((s.seq x).a d)
    (elemBytes half) count (s.codedBytes ((s.seq x).a b) (4 * count))) ∧ (s.badIndex y.part (elemBytes half) js = none) ∧
    (s.cleanAt (js.map (fun o => (o.getD 0, elemBytes half))))) :=
  ⟨⟨0, 0, false, 0, 1, 1, { newStep 0 0 0 [] 0 0 0 0 [0] [] none with posted := true, waiting := [0] }, running, by and_intros <;> decide +kernel⟩,
   ⟨0, 0, false, 0, 1, 2, 1, { newStep 0 0 0 [] 0 0 0 0 [0] [] none with posted := true, waiting := [0] }, running, by and_intros <;> decide +kernel⟩,
   ⟨0, 0, false, 0, 0, 1, 1, { newStep 0 0 0 [] 0 0 0 0 [0] [] none with posted := true, waiting := [0] }, running, by and_intros <;> decide +kernel⟩,
   ⟨0, 0, false, 0, 0, 1, 1, { newStep 0 0 0 [] 0 0 0 0 [0] [] none with posted := true, waiting := [0] }, running, by and_intros <;> decide +kernel⟩,
   ⟨0, 0, false, 0, 1, 2, 1, { newStep 0 0 0 [] 0 0 0 0 [0] [] none with posted := true, waiting := [0] }, [some 0], running, by and_intros <;> decide +kernel⟩,
   ⟨0, 0, false, 0, 1, 2, 1, { newStep 0 0 0 [] 0 0 0 0 [0] [] none with posted := true, waiting := [0] }, [some 128], running, by and_intros <;> decide +kernel⟩⟩

/-- The hypotheses of AttentionAndGateComplete can be met, case by case. -/
theorem met_attention_and_gate_complete :
    (∃ (x : Nat) (team : Nat) (half : Bool) (a : Nat) (b : Nat) (d : Nat) (n : Nat) (y : Step) (u : State) (v : State) (r :
    List Nat × Bool × State) (q : List Nat × Bool × State) (nk : List (List Nat) × Bool × State) (D : AttnDesc) (c :
    CacheShape) (ks : List Col) (at_ : Nat) (w : State) (s : State), (s.seqStep x = some y) ∧ (s.issues x (s.scoreTouch (24
    * x + team % 24) y half ((s.seq x).a a) ((s.seq x).a b) ((s.seq x).a d) n)) ∧ (s.queueStall (24 * x + team % 24) = none)
    ∧ (u = s.issued x (s.scoreTouch (24 * x + team % 24) y half ((s.seq x).a a) ((s.seq x).a b) ((s.seq x).a d) n)) ∧
    (u.reaches y.part ((s.seq x).a b) 64 = true) ∧ (r = u.readThrough (unitTeam (24 * x + team % 24)) ((s.seq x).a b) 64) ∧
    (r.2.1 = false) ∧ (D = parseAttn r.1) ∧ (c = r.2.2.cacheShape y.part D.cache) ∧ (r.2.2.attnOk y.part (24 * x + team %
    24) n D = true) ∧ (r.2.2.allReach y.part ((((s.seq x).a a), attnRows c n * c.dim * elemBytes half) :: (((s.seq x).a d),
    attnRows c n * 2 * elemBytes half) :: D.ranges c n) = true) ∧ (nk = r.2.2.readAll (unitTeam (24 * x + team % 24)) (if
    D.append then [(D.newK, mxSize c.fmt (n * c.heads * c.dim)), (D.newV, mxSize c.fmt (n * c.heads * c.dim))] else [])) ∧
    (nk.2.1 = false) ∧ (nk.2.2.genNow y D.slot = true) ∧ (v = (if D.append then nk.2.2.appendRows (24 * x + team % 24)
    y.part D.slot D c n (nk.1.getD 0 []) (nk.1.getD 1 []) else nk.2.2)) ∧ (ks = v.columnsOf y.part D.slot D.cache) ∧ (at_ =
    (if attnRows c n * scoreStride half ks.length ≤ D.sramBytes then D.sram else D.dram)) ∧ (attnRows c n * scoreStride half
    ks.length ≤ max D.sramBytes D.dramBytes) ∧ (w = ((v.each ((ks.map (·.page) ++ (if D.append then (List.range n).filterMap
    (fun r => (nk.2.2.entryAt y.part D.slot D.cache ((nk.2.2.seqTab y.part D.slot D.cache).nextPos + r)).map (·.page)) else
    [])).eraseDups) (fun s pg => s.pin y.part pg)).modStep y.id (fun z =>
    { z with scores := z.scores ++ [⟨((s.seq x).a b), seqKey y.part D.slot D.cache, (ks.map (·.page) ++ (if D.append then (List.range n).filterMap (fun r => (nk.2.2.entryAt y.part D.slot D.cache ((nk.2.2.seqTab y.part D.slot D.cache).nextPos + r)).map (·.page)) else [])).eraseDups, ks.map (fun k => (k.page, k.idx, k.pos, k.committed))⟩] })))
    ∧ (q = w.readThrough (unitTeam (24 * x + team % 24)) ((s.seq x).a a) (attnRows c n * c.dim * elemBytes half)) ∧ (q.2.1 =
    false) ∧ ((q.2.2.headVectors (24 * x + team % 24) y.part c D.layer 0 ks (List.range c.heads)).2.1 = none)) ∧
    (∃ (x : Nat) (team : Nat) (half : Bool) (a : Nat) (b : Nat) (d : Nat) (n : Nat) (y : Step) (z : Step) (u : State) (r :
    List Nat × Bool × State) (sp : List Nat × Bool × State) (st : List Nat × Bool × State) (D : AttnDesc) (c : CacheShape)
    (sc : ScoreRec) (s : State), (s.seqStep x = some y) ∧ (s.issues x (s.valueTouch (24 * x + team % 24) y half ((s.seq x).a
    a) ((s.seq x).a b) ((s.seq x).a d) n)) ∧ (s.queueStall (24 * x + team % 24) = none) ∧ (u = s.issued x (s.valueTouch (24
    * x + team % 24) y half ((s.seq x).a a) ((s.seq x).a b) ((s.seq x).a d) n)) ∧ (u.reaches y.part ((s.seq x).a b) 64 =
    true) ∧ (r = u.readThrough (unitTeam (24 * x + team % 24)) ((s.seq x).a b) 64) ∧ (r.2.1 = false) ∧ (D = parseAttn r.1) ∧
    (c = r.2.2.cacheShape y.part D.cache) ∧ (r.2.2.attnOk y.part (24 * x + team % 24) n D = true) ∧ (r.2.2.step? y.id = some
    z) ∧ (z.scores.reverse.find? (fun e => e.desc == ((s.seq x).a b)) = some sc) ∧ (r.2.2.allReach y.part ((((s.seq x).a a),
    attnRows c n * 2 * elemBytes half) :: (((s.seq x).a d), attnRows c n * c.dim * elemBytes half) :: (D.scoreAt, attnRows c
    n * scoreStride half D.columns) :: D.ranges c n) = true) ∧ (sp = r.2.2.readThrough (unitTeam (24 * x + team % 24))
    D.scoreAt (attnRows c n * scoreStride half D.columns)) ∧ (sp.2.1 = false) ∧ (st = (if r.2.2.byPosition y.part c D.layer
    then sp.2.2.readThrough (unitTeam (24 * x + team % 24)) ((s.seq x).a a) (attnRows c n * 2 * elemBytes half) else ([],
    false, sp.2.2))) ∧ (st.2.1 = false) ∧ ((st.2.2.headVectors (24 * x + team % 24) y.part c D.layer 1 ((sc.cols.map (fun k
    => ⟨k.1, k.2.1, k.2.2.1, k.2.2.2 && r.2.2.genNow y D.slot⟩)).take D.columns) (List.range c.heads)).2.1 = none)) ∧
    (∃ (x : Nat) (set : Nat) (topk : Nat) (inp : Nat) (disp : Nat) (vectors : Nat) (y : Step) (u : State) (w : State) (r :
    List Nat × Bool × State) (k : Nat) (es : List (Nat × Nat × Nat)) (cs : List (Nat × List (Nat × Nat))) (b : List Nat) (s
    : State), (s.seqStep x = some y) ∧ (k = s.gateK x ((s.seq x).a topk)) ∧ (s.issues x (touchNone 0x28)) ∧ (s.gateStall x
    set ((s.seq x).a topk) vectors y = none) ∧ (u = (s.issued x (touchNone 0x28)).countOp x 25 1) ∧ (u.gateK x ((s.seq x).a
    topk) = k) ∧ (u.reaches y.part ((s.seq x).a topk) (vectors * k * 8) = true) ∧ (r = u.readThrough (unitString x) ((s.seq
    x).a topk) (vectors * k * 8)) ∧ (r.2.1 = false) ∧ (es = gateEntries k vectors r.1) ∧ (cs = chosen (s.harness y.part) set
    es) ∧ (b = (cs.map (fun c => dispatchList c.2)).flatten) ∧ ((r.2.2.countOp x 26 (es.filter (fun e => (expertIndex
    (s.harness y.part) set e.2.2).isNone)).length).reaches y.part ((s.seq x).a disp) b.length = true) ∧ (w = (r.2.2.countOp
    x 26 (es.filter (fun e => (expertIndex (s.harness y.part) set e.2.2).isNone)).length).writeThrough (unitString x)
    ((s.seq x).a disp) b) ∧ (∀ c ∈ cs, (w.expertWork x y.part ((s.seq x).a inp) y (s.harness y.part) (harnessExpert
    (s.harness y.part) c.1) (c.2.map (fun v => v.1))).2.1 = false ∧ (w.expertWork x y.part ((s.seq x).a inp) y (s.harness
    y.part) (harnessExpert (s.harness y.part) c.1) (c.2.map (fun v => v.1))).2.2.1 = false)) :=
  ⟨⟨0, 0, false, 0, 1, 2, 1, { newStep 0 0 0 [] 0 0 0 0 [0] [] none with posted := true, waiting := [0], scores := [⟨64, 0, [], []⟩] }, _, _, _, _, _, _, _, _, _, _, attending, by decide +kernel, by and_intros <;> decide +kernel, by decide +kernel, rfl, by decide +kernel, rfl, by decide +kernel, rfl, rfl, by decide +kernel, by decide +kernel, rfl, by decide +kernel, by decide +kernel, rfl, rfl, rfl, by decide +kernel, rfl, rfl, by decide +kernel, by decide +kernel⟩,
   ⟨0, 0, false, 0, 1, 2, 1, { newStep 0 0 0 [] 0 0 0 0 [0] [] none with posted := true, waiting := [0], scores := [⟨64, 0, [], []⟩] }, { newStep 0 0 0 [] 0 0 0 0 [0] [] none with posted := true, waiting := [0], scores := [⟨64, 0, [], []⟩] }, _, _, _, _, _, _, ⟨64, 0, [], []⟩, attending, by decide +kernel, by and_intros <;> decide +kernel, by decide +kernel, rfl, by decide +kernel, rfl, by decide +kernel, rfl, rfl, by decide +kernel, by decide +kernel, by decide +kernel, by decide +kernel, rfl, by decide +kernel, rfl, by decide +kernel, by decide +kernel⟩,
   ⟨0, 0, 3, 4, 5, 1, { newStep 0 0 0 [] 0 0 0 0 [0] [] none with posted := true, waiting := [0], scores := [⟨64, 0, [], []⟩] }, _, _, _, _, _, _, _, attending, by decide +kernel, rfl, by and_intros <;> decide +kernel, by decide +kernel, rfl, by decide +kernel, by decide +kernel, rfl, by decide +kernel, rfl, rfl, rfl, by decide +kernel, rfl, by decide +kernel⟩⟩

/-- The hypotheses of TeamWorkCompletes can be met, case by case. -/
theorem met_team_work_completes :
    (∃ (m : Nat) (p : Nat) (j : Job) (rest : List Job) (run : List Job) (l : Layer) (r : List SegPart × State) (e0 : Int) (s
    : State), ((s.region (teamString m)).stopped = false) ∧ (s.inputStalled m = false) ∧ ((s.team m).jobs = j :: rest) ∧
    (s.jobPart m j = some p) ∧ (l = harnessLayer (s.harness p) j.layer) ∧ (run = spanJobs l.span (j :: rest)) ∧ (nanJob l
    run = none) ∧ (r = (s.setTeam m { s.team m with jobs := (j :: rest).drop run.length }).extractAll m l (localLayer
    (s.harness p) m j.layer) (s.harness p) run) ∧ (e0 = (if spanMax r.1 = 0 then 0 else commonScale (spanMax r.1) (if
    inFmtOf l (r.2.causes j.step j.layer) = 1 then 127 else 15)))) ∧
    (∃ (m : Nat) (s : State), (s.region (teamString m)).stopped = false) ∧
    (∃ (s : State), s.ready = true) ∧
    (∃ (m : Nat) (r : TileRec) (rest : List TileRec) (s : State), ((s.region (teamString m)).stopped = false) ∧ ((s.team
    m).records = r :: rest)) ∧
    (∃ (m : Nat) (acc : Nat) (d : Delivery) (y : Step) (u : State) (s : State), ((s.region (teamString m)).stopped = false) ∧
    ((s.team m).deliveries.find? (·.begun) = some d) ∧ (u = (s.setTeam m
    { s.team m with deliveries := (s.team m).deliveries.erase d }).outriderReads m d.tile d.plane (d.rows.map (·.1))) ∧
    (u.step? d.step = some y) ∧ (d.stray = false) ∧ (u.accTile y.part m d.layer d.group d.vec d.colBlock = some acc)) ∧
    (∃ (m : Nat) (d : Delivery) (u : State) (s : State), ((s.region (teamString m)).stopped = false) ∧ ((s.team
    m).deliveries.find? (·.begun) = some d) ∧ (u = (s.setTeam m
    { s.team m with deliveries := (s.team m).deliveries.erase d }).outriderReads m d.tile d.plane (d.rows.map (·.1))) ∧ (∀
    y, u.step? d.step = some y → d.stray = true ∨ u.accTile y.part m d.layer d.group d.vec d.colBlock = none)) ∧
    (∃ (m : Nat) (g : Nat) (y : Step) (s : State), ((s.region (teamString m)).stopped = false) ∧ ((s.group m g).st = 2) ∧
    (s.groupBusy m g = false) ∧ ((s.team m).runs = []) ∧ (s.step? (s.group m g).step = some y) ∧ ((s.group m g).desc.outMx =
    7) ∧ ((s.group m g).desc.topkK = 0)) ∧
    (∃ (m : Nat) (s : State), (s.team m).stopped = true ∨ (s.team m).quiesced = true) ∧
    (∃ (m : Nat) (s : State), s.fget (Reg.teamSwapMask.team m) = 1) :=
  ⟨⟨0, 0, ⟨0, 0, 0, 0, 0, 0, [], false, false, 0, false⟩, [], _, _, _, _, { running with teams := [(0, { jobs := [⟨0, 0, 0, 0, 0, 0, [], false, false, 0, false⟩] })] }, by decide +kernel, by decide +kernel, by decide +kernel, by decide +kernel, rfl, rfl, by decide +kernel, rfl, rfl⟩,
   ⟨0, {}, by decide +kernel⟩,
   ⟨serving, by decide +kernel⟩,
   ⟨0, { tile := 0, plane := 0, x := 0, codes := [], sat := [], zero := true, val := [], pulse := somePulse }, [], teamAs { records := [{ tile := 0, plane := 0, x := 0, codes := [], sat := [], zero := true, val := [], pulse := somePulse }] }, by and_intros <;> decide +kernel⟩,
   ⟨0, 0, ⟨0, 0, 0, 0, 0, 0, 0, 0, 0, 0, [], false, false, false, true⟩, { newStep 0 0 0 [] 0 0 0 0 [0] [] none with posted := true, waiting := [0] }, _, { attending with teams := [(0, { deliveries := [⟨0, 0, 0, 0, 0, 0, 0, 0, 0, 0, [], false, false, false, true⟩], groups := [(0, { st := 1, desc := { width := 1, vectors := 1 } })] })], steps := [{ newStep 0 0 0 [] 0 0 0 0 [0] [] none with posted := true, waiting := [0] }] }, by decide +kernel, by decide +kernel, rfl, by decide +kernel, by decide +kernel, by decide +kernel⟩,
   ⟨0, ⟨0, 0, 0, 0, 0, 0, 0, 0, 0, 0, [], false, false, true, true⟩, _, { running with teams := [(0, { deliveries := [⟨0, 0, 0, 0, 0, 0, 0, 0, 0, 0, [], false, false, true, true⟩] })] }, by decide +kernel, by decide +kernel, rfl, by decide +kernel⟩,
   ⟨0, 0, { newStep 0 0 0 [] 0 0 0 0 [0] [] none with posted := true, waiting := [0] }, { running with teams := [(0, { groups := [(0, { st := 2, desc := { outMx := 7 } })] })] }, by and_intros <;> decide +kernel⟩,
   ⟨0, {}, by decide +kernel⟩,
   ⟨0, ({} : State).fset (Reg.teamSwapMask.team 0) 1, by decide +kernel⟩⟩

/-- The hypotheses of PlanesAndOutriderComplete can be met, case by case. -/
theorem met_planes_and_outrider_complete :
    (∃ (m : Nat) (k : Nat) (plane : Nat) (s : State), ((s.tile m k).live ≠ plane % 2 ∨ (s.tile m k).held = some (plane % 2))
    ∧ ((s.tile m k).drain = false) ∧ ((s.team m).mirrors k = [])) ∧
    (∃ (m : Nat) (k : Nat) (s : State), ((s.tile m k).drain = true) ∧ ((s.openPlanes m k).any (fun p => s.readsHeld m k p) =
    false)) ∧
    (∃ (m : Nat) (k : Nat) (plane : Nat) (s : State), (s.tile m k).reloadDone plane = true) ∧
    (∃ (m : Nat) (r : Nat) (s : State), (r < 32) ∧ (Map.get 0 (s.team m).due r = 0)) ∧
    (∃ (m : Nat) (r : Nat) (s : State), (r < 32) ∧ (Map.get 0 (s.team m).due r = 0)) ∧
    (∃ (m : Nat) (r : Nat) (s : State), (s.team m).samples.any (fun e => e.1 == r) = true) ∧
    (∃ (m : Nat) (r : Nat) (s : State), ((s.team m).samples.any (fun e => e.1 == r) = false) ∧ (Map.get 0 (s.team m).due r ≠
    0)) ∧
    (∃ (m : Nat) (r : Nat) (q : Sample) (s : State), ((s.region (teamString m)).stopped = false) ∧ ((s.team m).samples.find?
    (fun e => e.1 == r) = some (r, q)) ∧ (q.whole = true)) ∧
    (∃ (m : Nat) (a : Arb) (s : State), ((s.region (teamString m)).stopped = false) ∧ ((s.team m).arb = some a) ∧ (a.st = 1)
    ∧ ((((s.tile m a.sample.tile).badOf a.sample.plane).filter (fun e => (((a.sample.recs.map (fun r => r.pulse.rows.map
    (·.1))).flatten).eraseDups).any (fun r => rowBlock r e.1))) = [])) ∧
    (∃ (m : Nat) (d : Nat) (a : Arb) (s : State), ((s.region (teamString m)).stopped = false) ∧ ((s.team m).arb = some a) ∧
    (a.st = 2) ∧ ((s.idleSpares m).head? = some d)) ∧
    (∃ (m : Nat) (d : Nat) (a : Arb) (s : State), ((s.team m).arb = some a) ∧ (a.st = 3) ∧ (a.spare = some d) ∧ ((s.tile m
    d).drain = false)) ∧
    (∃ (m : Nat) (d : Nat) (wrong : List (Nat × Int)) (a : Arb) (r : List TileRec × State) (s : State), ((s.region
    (teamString m)).stopped = false) ∧ ((s.team m).arb = some a) ∧ (a.st = 4) ∧ (a.spare = some d) ∧ (r = s.runSpare m d
    ⟨wrong.map (fun e => (m, d, e.1, e.2)), []⟩ a.sample.recs) ∧ ((r.2.team m).sampleFails d (gradeAll (r.1.map
    TileRec.graded) a.sample.sums) = false)) ∧
    (∃ (m : Nat) (a : Arb) (s : State), ((s.team m).arb = some a) ∧ (a.st = 6)) ∧
    (∃ (m : Nat) (s : State), ((s.region (teamString m)).stopped = false) ∧ ((s.team m).arb = none)) ∧
    (∃ (m : Nat) (s : State), (s.team m).stopped = true ∨ (s.team m).quiesced = true) ∧
    (∃ (m : Nat) (w : Nat) (s : State), ((s.team m).ref = none) ∧ (bits w 21 16 < 34) ∧ (bits w 6 4 ≤ 4) ∧ (s.refRange m
    (s.fget (Reg.outrRefInLo.team m) * 64 + 2 ^ 32 * s.fget (Reg.outrRefInHi.team m)) 1024 = true) ∧ (s.refRange m (s.fget
    (Reg.outrRefOutLo.team m) * 64 + 2 ^ 32 * s.fget (Reg.outrRefOutHi.team m)) (if w.testBit 7 then 3200 else 1600) = true)) ∧
    (∃ (m : Nat) (f : RefRun) (s : State), ((s.region (teamString m)).stopped = false) ∧ ((s.team m).ref = some f) ∧
    (s.cleanAt [(f.input, 1024)]) ∧ (s.codedBytes f.input 1024 = zeros 1024)) :=
  ⟨⟨0, 0, 1, serving, by and_intros <;> decide +kernel⟩,
   ⟨0, 0, { serving with tiles := [(0, { drain := true })] }, by and_intros <;> decide +kernel⟩,
   ⟨0, 0, 0, { serving with tiles := [(0, { reloaded := reloadBlocks.map (blockKey 0) })] }, by simp only [Tile.reloadDone, State.tile, Map.get, tileKey, List.all_eq_true]; intro b hb; simpa using ⟨b, hb, rfl⟩⟩,
   ⟨0, 31, {}, by and_intros <;> decide +kernel⟩,
   ⟨0, 31, {}, by and_intros <;> decide +kernel⟩,
   ⟨0, 0, teamAs { samples := [(0, someSample)] }, by decide +kernel⟩,
   ⟨0, 0, teamAs { due := [(0, 1)] }, by and_intros <;> decide +kernel⟩,
   ⟨0, 0, someSample, teamAs { samples := [(0, someSample)] }, by and_intros <;> decide +kernel⟩,
   ⟨0, ⟨someSample, 1, 0, 0, some 32, 0, 7⟩, arbitrating 1, by and_intros <;> decide +kernel⟩,
   ⟨0, 32, ⟨someSample, 2, 0, 0, none, 0, 7⟩, teamAs { arb := some ⟨someSample, 2, 0, 0, none, 0, 7⟩ }, by and_intros <;> decide +kernel⟩,
   ⟨0, 32, ⟨someSample, 3, 0, 0, some 32, 0, 7⟩, arbitrating 3, by and_intros <;> decide +kernel⟩,
   ⟨0, 32, [], ⟨someSample, 4, 0, 0, some 32, 0, 7⟩, _, arbitrating 4, by decide +kernel, by decide +kernel, by decide +kernel, by decide +kernel, rfl, by decide +kernel⟩,
   ⟨0, ⟨someSample, 6, 0, 0, some 32, 0, 7⟩, arbitrating 6, by and_intros <;> decide +kernel⟩,
   ⟨0, {}, by and_intros <;> decide +kernel⟩,
   ⟨0, {}, by decide +kernel⟩,
   ⟨0, 0, serving, by and_intros <;> decide +kernel⟩,
   ⟨0, ⟨0, 0, 1024⟩, teamAs { ref := some ⟨0, 0, 1024⟩ }, by and_intros <;> decide +kernel⟩⟩

/-- The hypotheses of CalibrationCommandsComplete can be met, case by case. -/
theorem met_calibration_commands_complete :
    (∃ (m : Nat), m < 768) ∧
    (∃ (m : Nat), m < 768) ∧
    (∃ (m : Nat) (k : Nat) (s : State), (s.flag (Reg.calCtrlHold.team m) = false) ∧ (s.calFree m = true) ∧ (s.coreHalted 5 =
    false) ∧ ((s.team m).calQueue = []) ∧ (k = (s.team m).nextTile (s.fget (Reg.calRotNext.team m))) ∧ (s.canCal m k = true)) ∧
    (∃ (m : Nat) (k : Nat) (s : State), (k < 34) ∧ ((s.team m).retired.contains k = false) ∧ (s.calFree m = false)) ∧
    (∃ (m : Nat) (s : State), ((s.team m).cal.step = 2) ∧ ((s.team m).cal.abandoned = false) ∧ ((s.team m).cal.role = none)) ∧
    (∃ (m : Nat) (o : Takeover) (s : State), ((s.team m).takeover = some o) ∧ (o.done = false) ∧ ((s.tile m o.dst).drain =
    false)) ∧
    (∃ (m : Nat) (o : Takeover) (s : State), ((s.team m).takeover = some o) ∧ (o.done = true) ∧ (s.atBoundary m o.src = true)) ∧
    (∃ (m : Nat) (win : Int) (w : Int × State) (s : State), ((s.team m).cal.step = 2) ∧ ((s.team m).cal.abandoned = false) ∧
    ((s.team m).cal.overwritten = true) ∧ (w = s.setWin m (s.team m).cal.tile win)) ∧
    (∃ (m : Nat) (fits : List (Nat × Int × Int)) (delay : Int) (noisy : List Nat) (stuck : List Nat) (d : Int × Int) (c :
    Cal) (r : Nat) (s : State), (c = (s.team m).cal) ∧ (c.fitReady = true) ∧ (c.role = some r) ∧ ((s.team
    m).retired.contains c.tile = false) ∧ (s.dueRemaps m c.tile ((s.team m).fitted c fits) noisy stuck = []) ∧ (c.trims =
    some d ∨ (c.trims = none ∧ s.medianTrims m c.tile delay = (d, s))) ∧ ((s.team m).takeover = none) ∧ ((s.team m).calQueue
    = [])) ∧
    (∃ (m : Nat) (s : State), ((s.team m).cal.step = 3) ∧ ((s.team m).cal.mode = 1) ∧ ((s.team m).cal.abandoned = false) ∧
    ((s.team m).cal.role ≠ none) ∧ (128 ≤ (s.team m).cal.shadowed)) ∧
    (∃ (m : Nat) (s : State), ((s.team m).cal.step = 3) ∧ ((s.team m).cal.mode = 1) ∧ ((s.team m).cal.abandoned = false) ∧
    ((s.team m).cal.role ≠ none) ∧ ((s.team m).cal.shadowed < 128) ∧ ((s.team m).takeover = none)) ∧
    (∃ (m : Nat) (k : Nat) (n : Nat) (s : State), (s.tile m k).cal.slew = some n) ∧
    (∃ (m : Nat) (k : Nat) (s : State), (s.coreHalted 5 = false) ∧ (s.nvOk = true) ∧ (¬ (trimAt (s.tile m k).cal.active.delay
    (s.tco m k) (s.tile m k).cal.active.tCal 105 < -1000))) ∧
    (∃ (m : Nat) (k : Nat) (s : State), (s.coreHalted 5 = false) ∧ ((s.team m).pendingRetire = some k) ∧ (s.idleSpares m ≠
    []) ∧ ((s.team m).takeover = none)) ∧
    (∃ (m : Nat) (k : Nat) (col : Nat) (s : State), (k < 34) ∧ (col < 256) ∧ ((s.team m).retired.contains k = false) ∧
    ((s.team m).roleOf k = none ∨ (s.team m).inPlace.contains k = true) ∧ (s.coreHalted 5 = false)) ∧
    (∃ (m : Nat) (k : Nat) (col : Nat) (r : Nat) (s : State), (k < 34) ∧ (col < 256) ∧ ((s.team m).retired.contains k =
    false) ∧ ((s.team m).roleOf k = some r) ∧ ((s.team m).inPlace.contains k = false) ∧ (s.calFree m = false)) ∧
    (∃ (m : Nat) (k : Nat) (s : State), (k < 34) ∧ ((s.team m).retired.contains k = false)) ∧
    (∃ (m : Nat) (k : Nat) (s : State), (s.clocks.calref = true) ∧ ((s.team m).retired.contains k = true) ∧ (s.calFree m =
    false)) ∧
    (∃ (m : Nat) (s : State), ((s.team m).nvWaits = true) ∧ (s.nvOk = true)) ∧
    (∃ (m : Nat) (k : Nat) (s : State), ((s.tile m k).groomed < lapBlocks) ∧ (s.lapFrom m + secTicks s.groomBound * 9 / 10 ≤
    s.now)) :=
  ⟨⟨5, by decide +kernel⟩,
   ⟨5, by decide +kernel⟩,
   ⟨0, _, teamAs {}, by decide +kernel, by decide +kernel, by decide +kernel, by decide +kernel, rfl, by decide +kernel⟩,
   ⟨0, 33, teamAs { cal := { step := 2, tile := 5 } }, by and_intros <;> decide +kernel⟩,
   ⟨0, teamAs { cal := { step := 2, tile := 5 } }, by and_intros <;> decide +kernel⟩,
   ⟨0, { role := 3, src := 3, dst := 32, planes := [], done := false, why := 3, reason := 0, column := 0 }, teamAs { takeover := some { role := 3, src := 3, dst := 32, planes := [], done := false, why := 3, reason := 0, column := 0 } }, by and_intros <;> decide +kernel⟩,
   ⟨0, { role := 3, src := 3, dst := 32, planes := [], done := true, why := 3, reason := 0, column := 0 }, teamAs { takeover := some { role := 3, src := 3, dst := 32, planes := [], done := true, why := 3, reason := 0, column := 0 } }, by and_intros <;> decide +kernel⟩,
   ⟨0, 4, _, teamAs { cal := { step := 2, tile := 5, overwritten := true } }, by decide +kernel, by decide +kernel, by decide +kernel, rfl⟩,
   ⟨0, [], 1, [], [], (1, 2), { step := 3, tile := 5, role := some 5, overwritten := true, trims := some (1, 2) }, 5, teamAs { cal := { step := 3, tile := 5, role := some 5, overwritten := true, trims := some (1, 2) } }, by and_intros <;> decide +kernel⟩,
   ⟨0, teamAs { cal := { step := 3, tile := 5, role := some 5, mode := 1, shadowed := 128 } }, by and_intros <;> decide +kernel⟩,
   ⟨0, teamAs { cal := { step := 3, tile := 5, role := some 5, mode := 1, shadowed := 127 } }, by and_intros <;> decide +kernel⟩,
   ⟨0, 0, 15, { serving with tiles := [(0, { cal := { slew := some 15 } })] }, by decide +kernel⟩,
   ⟨0, 0, ({} : State).raise Reg.thrmHubNvOk, by and_intros <;> decide +kernel⟩,
   ⟨0, 3, teamAs { pendingRetire := some 3 }, by and_intros <;> decide +kernel⟩,
   ⟨0, 33, 255, teamAs {}, by and_intros <;> decide +kernel⟩,
   ⟨0, 31, 255, 31, teamAs { cal := { step := 2, tile := 5 } }, by and_intros <;> decide +kernel⟩,
   ⟨0, 33, teamAs {}, by and_intros <;> decide +kernel⟩,
   ⟨0, 7, { serving with clocks := { serving.clocks with calref := true }, teams := [(0, { retired := [7], cal := { step := 2, tile := 5 } })] }, by and_intros <;> decide +kernel⟩,
   ⟨0, (teamAs { nvWaits := true }).raise Reg.thrmHubNvOk, by and_intros <;> decide +kernel⟩,
   ⟨0, 3, { serving with now := 10 ^ 15 }, by and_intros <;> decide +kernel⟩⟩

/-- The hypotheses of FieldTestsComplete can be met, case by case. -/
theorem met_field_tests_complete :
    (∃ (m : Nat) (k : Nat) (s : State), (s.ready = true) ∧ (k < 34) ∧ ((s.team m).retired.contains k = false)) ∧
    (∃ (m : Nat) (k : Nat) (s : State), s.tileTest m k = 1) ∧
    (∃ (m : Nat) (s : State), s.teamTest m = 1) ∧
    (∃ (m : Nat) (k : Nat) (s : State), (s.tileTest m k = 3) ∧ ((s.team m).roleOf k = none)) ∧
    (∃ (m : Nat) (s : State), (s.ready = true) ∧ ((s.team m).outOfService = false) ∧ (s.teamTest m = 0)) ∧
    (∃ (m : Nat) (s : State), s.teamTest m = 3) ∧
    (∃ (m : Nat) (s : State), s.teamTest m = 3) :=
  ⟨⟨0, 33, teamAs {}, by and_intros <;> decide +kernel⟩,
   ⟨0, 0, serving.setTileTest 0 0 1, by decide +kernel⟩,
   ⟨0, serving.setTeamTest 0 1, by decide +kernel⟩,
   ⟨0, 33, serving.setTileTest 0 33 3, by and_intros <;> decide +kernel⟩,
   ⟨0, serving, by and_intros <;> decide +kernel⟩,
   ⟨0, serving.setTeamTest 0 3, by decide +kernel⟩,
   ⟨0, serving.setTeamTest 0 3, by decide +kernel⟩⟩

/-- The hypotheses of ThermalAndPowerComplete can be met, case by case. -/
theorem met_thermal_and_power_complete :
    (∃ (n : Nat) (temp : Int) (s : State), (n < 74) ∧ ((s.sensor n).failed = false) ∧ (-640 ≤ temp ∧ temp ≤ 2400) ∧ (64 ≤ n ∨
    (s.sensor (2 * (n / 2) + (1 - n % 2))).good = false ∨ (temp - (s.sensor (2 * (n / 2) + (1 - n % 2))).temp).natAbs ≤ 240)) ∧
    (∃ (n : Nat) (temp : Int) (s : State), (n < 74) ∧ ((s.sensor n).failed = false) ∧ (temp < -640 ∨ 2400 < temp)) ∧
    (∃ (k : Nat) (s : State), (s.thermal.trip = 1) ∧ (k ≠ 16)) ∧
    (∃ (s : State), s.thermal.trip = 2) ∧
    (∃ (m : Nat) (counts : List (Nat × Nat)) (s : State), (s.coreHalted 2 = false) ∧ (m < 33) ∧ (m < counts.length) ∧
    (s.settled m = true) ∧ (Map.get 0 s.thermal.measured m ≠ s.hourNow)) ∧
    (∃ (m : Nat) (s : State), (s.coreHalted 2 = false) ∧ (m < 33)) ∧
    (∃ (lanes : Nat) (sram : Nat) (dram : Nat) (v : Rat × Rat × Rat) (w : Rat × Rat × Rat) (s : State), (s.coreHalted 2 =
    false) ∧ (v = s.rawPower ⟨s.power.beats, s.power.rows, s.power.units, lanes, sram, dram⟩) ∧ (w = s.nominalPower
    ⟨s.power.beats, s.power.rows, s.power.units, lanes, sram, dram⟩)) ∧
    (∃ (r : Nat) (s : State), Map.get 0 s.power.boostNext r ≠ 0) ∧
    (∃ (s : State), s.coreHalted 2 = false) ∧
    (∃ (k : Nat) (u : State) (v : State) (s : State), (v = (s.readStatus.bumpBy Reg.brdlPmbusWarn 0).raise
    Reg.brdlErrRailFault) ∧ (stReady ≤ s.stage) ∧ (u = v.railStops k)) ∧
    (∃ (k : Nat) (mv : Nat) (over_ : Bool) (u : State) (s : State), (k ≤ 16) ∧ (k = 10 ∨ (s.rail k).on = true) ∧ (s.crosses k
    over_ mv = true) ∧ (u = s.railStops k)) ∧
    (∃ (k : Nat) (failed : List Nat) (s : State), (k < 17) ∧ ((s.rail k).on = true) ∧ ((s.rail k).setpoint ≠ (s.rail
    k).target) ∧ (k ∉ failed)) :=
  ⟨⟨73, -640, {}, by and_intros <;> decide +kernel⟩,
   ⟨73, 2401, {}, by and_intros <;> decide +kernel⟩,
   ⟨0, { thermal := { trip := 1 }, power := { rails := [(0, { on := true }), (16, { on := true })] } }, by and_intros <;> decide +kernel⟩,
   ⟨{ thermal := { trip := 2 }, power := { rails := [(16, { on := true })] } }, by decide +kernel⟩,
   ⟨1, [(3, 4), (5, 6)], {}, by and_intros <;> decide +kernel⟩,
   ⟨2, { thermal := { hourly := [(2, [5, 6, 7])] } }, by and_intros <;> decide +kernel⟩,
   ⟨0, 0, 0, _, _, {}, by decide +kernel, rfl, rfl⟩,
   ⟨3, { power := { boostNext := [(3, 1)] } }, by decide +kernel⟩,
   ⟨{}, by decide +kernel⟩,
   ⟨1, _, _, ({} : State).fset Reg.rstStatusStage stReady, rfl, by decide +kernel, rfl⟩,
   ⟨16, 5, true, _, { power := { rails := [(16, { on := true })] } }, by decide +kernel, by decide +kernel, by decide +kernel, rfl⟩,
   ⟨16, [3], { power := { rails := [(16, { on := true, setpoint := 5000, target := 10 })] } }, by and_intros <;> decide +kernel⟩⟩

/-- The hypotheses of AdcCommandsComplete can be met, case by case. -/
theorem met_adc_commands_complete :
    (∃ (c : Nat) (s : State), (c ∈ s.sequence) ∧ (s.nextChan = some c) ∧ (s.adc.urgentRuns = false) ∧ ((s.chan c).count ≠ 0)
    ∧ ((s.chan c).count + 1 < 2 ^ (s.chan c).curAvg)) ∧
    (∃ (c : Nat) (s : State), (c ∈ s.sequence) ∧ (s.nextChan = some c) ∧ (s.adc.urgentRuns = false) ∧ ((s.chan c).count ≠ 0)
    ∧ ((s.chan c).count + 1 = 2 ^ (s.chan c).curAvg) ∧ (s.sequence.getLast? ≠ some c)) ∧
    (∃ (e : Nat × Bool) (rest : List (Nat × Bool)) (s : State), (s.adc.urgent = e :: rest) ∧ (s.adc.urgentRuns = true) ∧ (e.2
    = false)) ∧
    (∃ (c : Nat) (s : State), s.flag (Reg.adcCfgOpenTest.chan c) = true) ∧
    (∃ (s : State), s.adc.urgent.length < 2) :=
  ⟨⟨0, ({ adc := { chans := [(0, { count := 1, curAvg := 2, sum := 3 })] } } : State).raise (Reg.adcCfgEnable.chan 0), by and_intros <;> decide +kernel⟩,
   ⟨0, (({ adc := { chans := [(0, { count := 1, curAvg := 1, sum := 3 })] } } : State).raise (Reg.adcCfgEnable.chan 0)).raise (Reg.adcCfgEnable.chan 1), by and_intros <;> decide +kernel⟩,
   ⟨(7, false), [], { adc := { urgent := [(7, false)], urgentRuns := true } }, by and_intros <;> decide +kernel⟩,
   ⟨3, ({} : State).raise (Reg.adcCfgOpenTest.chan 3), by decide +kernel⟩,
   ⟨{}, by decide +kernel⟩⟩

/-- The hypotheses of ClockAndTimeCommandsComplete can be met, case by case. -/
theorem met_clock_and_time_commands_complete :
    (∃ (r : Nat) (mv : Nat) (s : State), ((s.region r).stopped = false) ∧ ((s.region r).stretched = false) ∧ (s.droops r mv =
    true)) ∧
    (∃ (pll : Bool) (r : Nat) (s : State), (s.clocks.monSeen.contains pll = false) ∧ (r < 33)) ∧
    (∃ (r : Nat) (s : State), s.heldStopped r = false) ∧
    (∃ (s : State), (s.stage < stReady) ∧ (s.clocks.way.setUsed = false)) ∧
    (∃ (falling : Bool) (s : State), falling = (s.clockCfg 8 1 0 == 1)) ∧
    (∃ (domain : Nat) (s : State), (domain = s.clockCfg 5 1 0) ∧ (s.safety.portUp = true) ∧ (s.coreHalted 6 = false)) ∧
    (∃ (domain : Nat) (seq : Nat) (d : Int) (t3 : Int) (s : State), (domain = s.clockCfg 5 1 0) ∧ (s.safety.portUp = true) ∧
    (s.coreHalted 6 = false) ∧ (s.clocks.way.ptp.asked = some (seq, d, t3))) ∧
    (∃ (s : State), (s.reSource.isRoot = true) ∧ (s.reSource.fget Reg.wayStatusSource = 3) ∧ (s.reSource.clocks.monFault =
    false)) ∧
    (∃ (p : Nat) (t1 : Nat) (t2 : Nat) (t3 : Nat) (f1 : Nat) (f2 : Nat) (f3 : Nat) (frac : Nat) (h : CtrlHdr) (v : Int) (d :
    Int) (s : State), (s.actsOn p h) ∧ (v = wayOfs (8 * t1 + f1) (8 * t2 + f2) (8 * t3 + f3) (8 * (s.heard p h).now + frac))
    ∧ (d = wayDelay (8 * t1 + f1) (8 * t2 + f2) (8 * t3 + f3) (8 * (s.heard p h).now + frac))) ∧
    (∃ (p : Nat) (h : CtrlHdr) (s : State), s.actsOn p h) ∧
    (∃ (p : Nat) (s : State), s.linkUp p = true) :=
  ⟨⟨32, 0, {}, by and_intros <;> decide +kernel⟩,
   ⟨true, 32, {}, by and_intros <;> decide +kernel⟩,
   ⟨32, ({} : State).stopAll, by decide +kernel⟩,
   ⟨{}, by and_intros <;> decide +kernel⟩,
   ⟨false, { now := 399960001 }, by decide +kernel⟩,
   ⟨0, { safety := { portUp := true } }, by and_intros <;> decide +kernel⟩,
   ⟨0, 1, 6, 7, { safety := { portUp := true }, clocks := { way := { ptp := { asked := some (1, 6, 7) } } } }, by and_intros <;> decide +kernel⟩,
   ⟨{ serving with volz := { running := [⟨1, 1, pkgScope, 0, [], [0, 3] ++ zeros 30, false⟩] } }, by and_intros <;> decide +kernel⟩,
   ⟨0, 0, 0, 0, 0, 0, 0, 0, hdr, _, _, linked, by decide +kernel, rfl, rfl⟩,
   ⟨0, hdr, linked, by and_intros <;> decide +kernel⟩,
   ⟨0, linked, by decide +kernel⟩⟩

/-- The hypotheses of PartitionCommandsComplete can be met, case by case. -/
theorem met_partition_commands_complete :
    (∃ (p : Nat) (s : State), (p = s.fget Reg.partSelPart) ∧ ((s.partGet p).st = .inService) ∧ ((s.partGet p).returnWaits =
    false)) ∧
    (∃ (p : Nat) (s : State), (p = s.fget Reg.partSelPart) ∧ ((s.partGet p).st = .quiesced) ∧ (s.paddock = false)) ∧
    (∃ (p : Nat) (s : State), (p = s.fget Reg.partSelPart) ∧ (s.ready = true) ∧ ((s.fset Reg.partCtrlCmd 3).torHeld p =
    false) ∧ ((s.partGet p).st = .quiesced) ∧ ((s.fset Reg.partCtrlCmd 3).loadsPart p = false)) ∧
    (∃ (k : Nat) (p : Nat) (s : State), (s.vfPart k = some p) ∧ ((s.partGet p).st = .inService) ∧ ((s.partGet p).returnWaits
    = false)) ∧
    (∃ (p : Nat) (s : State), (p < 32) ∧ ((s.partGet p).st = .inService) ∧ ((s.partGet p).returnWaits = false)) ∧
    (∃ (p : Nat) (s : State), (p < 32) ∧ ((s.partGet p).st = .inService) ∧ ((s.partGet p).returnWaits = false)) ∧
    (∃ (p : Nat) (s : State), ((s.partGet p).st = .quiescing) ∧ (s.loadSt (p + 1) = ldIdle)) ∧
    (∃ (p : Nat) (rest : List Nat) (s : State), (s.scrubs = p :: rest) ∧ (s.sweepAt 3 = none) ∧ ((s.partGet p).returnWaits =
    false)) ∧
    (∃ (r : Nat) (m : Nat), (r < 10) ∧ (m < 33)) :=
  ⟨⟨_, serving, rfl, by decide +kernel, by decide +kernel⟩,
   ⟨_, { serving with parts := [(0, { st := .quiesced })] }, rfl, by decide +kernel, by decide +kernel⟩,
   ⟨_, { serving with parts := [(0, { st := .quiesced })] }, rfl, by decide +kernel, by decide +kernel, by decide +kernel, by decide +kernel⟩,
   ⟨1, 0, serving, by and_intros <;> decide +kernel⟩,
   ⟨0, serving, by and_intros <;> decide +kernel⟩,
   ⟨0, serving, by and_intros <;> decide +kernel⟩,
   ⟨0, { serving with parts := [(0, { st := .quiescing })] }, by and_intros <;> decide +kernel⟩,
   ⟨0, [], { serving with parts := [(0, { st := .scrubbing })], scrubs := [0] }, by and_intros <;> decide +kernel⟩,
   ⟨9, 32, by and_intros <;> decide +kernel⟩⟩

/-- The hypotheses of VolzCommandsComplete can be met, case by case. -/
theorem met_volz_commands_complete :
    (∃ (s : State), (s.imageLoad = true) ∧ (s.bootSrc = 1) ∧ (s.volzIdle = true) ∧ (s.fget Reg.volzLen ≤ 0x10000000)) ∧
    (∃ (part : Nat) (s : State), (s.fset Reg.volzCtrlPart (part % 32)).partialCheck (part % 32) = 0) ∧
    (∃ (s : State), s.volzIdle = false) ∧
    (∃ (bytes : List Nat) (s : State), (s.fget Reg.volzStatusState = vzPull) ∧ (s.volz.kind ≠ some .host) ∧ (s.pci.lost =
    false) ∧ (bytes.length ≤ s.volz.len)) ∧
    (∃ (s : State), s.fget Reg.volzStatusState = vzVerify) ∧
    (∃ (p : Nat) (u : State) (s : State), (s.volz.kind = some (.part p)) ∧ (s.fget Reg.volzStatusState = vzApply) ∧ (u =
    (s.runSections (replaceSections s.volz.running s.volz.parsed)).relayout p)) :=
  ⟨⟨({ boot := { user := zeros 6 ++ [1] ++ zeros 9 ++ [1] ++ zeros 8 } } : State).fset Reg.rstStatusStage 7, by and_intros <;> decide +kernel⟩,
   ⟨0, { serving with parts := [(0, { st := .quiesced })] }, by decide +kernel⟩,
   ⟨({ volz := { kind := some .host } } : State).fset Reg.volzStatusState vzPull, by decide +kernel⟩,
   ⟨[1, 300], ({ volz := { kind := some (.part 0), len := 2 } } : State).fset Reg.volzStatusState vzPull, by and_intros <;> decide +kernel⟩,
   ⟨({} : State).fset Reg.volzStatusState vzVerify, by decide +kernel⟩,
   ⟨0, _, ({ volz := { kind := some (.part 0) } } : State).fset Reg.volzStatusState vzApply, by decide +kernel, by decide +kernel, rfl⟩⟩

/-- The hypotheses of LoadAndRelayCommandsComplete can be met, case by case. -/
theorem met_load_and_relay_commands_complete :
    (∃ (c : Nat) (a : Nat) (s : State), (s.loadSt c = ldIdle) ∧ (a = s.fget (Reg.loadHeadLo.ctx c) * 64 + s.fget
    (Reg.loadHeadHi.ctx c) * 2 ^ 32)) ∧
    (∃ (c : Nat) (s : State), s.loadSt c = ldFetch) ∧
    (∃ (c : Nat) (bytes : List Nat) (d : List Nat) (u : State) (s : State), (s.loadSt c = ldFetch) ∧ (s.pci.lost = false) ∧
    (d = padTo 64 (bytes.map (· % 256))) ∧ (u = s.setLoad c { s.load c with desc := d, acks := [] }) ∧ (u.loadCheck c d = 0)
    ∧ (loadRelay d = false)) ∧
    (∃ (c : Nat) (bytes : List Nat) (d : List Nat) (r : List Nat × Bool × State) (s : State), (s.loadSt c = ldMove) ∧
    (s.firstOpen c = true) ∧ (d = (s.load c).desc) ∧ (s.pci.lost = false ∨ loadKind d = 2) ∧ (r = s.loadBytes c d (padTo
    (loadLen d) bytes) (loadLen d)) ∧ (r.2.1 = false) ∧ (loadRelay d = false) ∧ ((loadKind d == 0 && (r.2.2.loadMove c d
    r.1).anyRetired (dramBase + loadDst d) (loadLen d)) = false)) ∧
    (∃ (p : Nat) (seq : Nat) (hopsLeft : Nat) (session : Nat) (kind : Nat) (len : Nat) (dst : Nat) (c : Nat) (h : CtrlHdr) (r
    : RelayRx) (u : State) (v : State) (s : State), (s.actsOn p h) ∧ ((s.heard p h).quarantined = false) ∧ (c = tagCtx
    h.part) ∧ (c ≤ 32) ∧ (((s.heard p h).load c).ends.find? (fun e => e.1 == h.srcPos && e.2.1 == seq) = none) ∧ (r = ⟨seq,
    h.srcPos, session, hopsLeft - 1, kind, dst, len, 0, none, false, (s.heard p h).relayRing p h.srcPos⟩) ∧ (u = (s.heard p
    h).openSession h session 1) ∧ (v = (u.setLoad c
    { u.load c with rx := (u.load c).rx.filter (fun q => !(q.origin == r.origin && q.session == r.session)) ++ [r], ends := (u.load c).ends.filter (fun e => !(e.1 == h.srcPos && e.2.1 == seq)) }).showRx
    c r rxReceiving)) ∧
    (∃ (p : Nat) (seq : Nat) (chunks : Nat) (c : Nat) (h : CtrlHdr) (r : RelayRx) (u : State) (s : State), (s.actsOn p h) ∧
    ((s.heard p h).quarantined = false) ∧ (c = tagCtx h.part) ∧ (((s.heard p h).load c).rx? h.srcPos (fun r => r.seq == seq)
    = some r) ∧ (u = (if r.hops = 0 then s.heard p h else (s.heard p h).relayOn r.ring h 0x19 (endBody seq chunks)))) ∧
    (∃ (p : Nat) (seq : Nat) (c : Nat) (h : CtrlHdr) (x : LoadCtx) (u : State) (s : State), (s.actsOn p h) ∧ ((s.heard p
    h).quarantined = false) ∧ (c = tagCtx h.part) ∧ (x = (s.heard p h).load c) ∧ ((s.heard p h).loadSt c = ldWaitAck) ∧
    (loadRelay x.desc = true) ∧ (x.relaySeq = seq) ∧ (x.acks.contains h.srcPos = false) ∧ (u = (s.heard p h).setLoad c
    { x with acks := x.acks ++ [h.srcPos] }) ∧ (u.loadSt c = ldWaitAck)) ∧
    (∃ (p : Nat) (src : Nat) (session : Nat) (x : Session) (s : State), (s.linkUp p = true) ∧ (s.hubStopped = false) ∧
    (s.quarantined = false) ∧ (s.session? src session = some x) ∧ (s.isRevoked x.src x.unit x.inc = false) ∧ (s.sessionOn p
    x = true)) ∧
    (∃ (c : Nat) (origin : Nat) (session : Nat) (r : RelayRx) (s : State), (s.load c).rx? origin (fun r => r.session ==
    session) = some r) ∧
    (∃ (c : Nat) (s : State), s.loadSt c = ldWaitAck) ∧
    (∃ (p : Nat) (dst : Nat) (q : Nat) (s : State), (s.linkUp p = true) ∧ (s.hubStopped = false) ∧ (dst ≠ 0xFFFF ∧ dst ≠
    s.position) ∧ (s.routeVia (some p) dst = some q)) ∧
    (∃ (p : Nat) (src : Nat) (session : Nat) (x : Session) (s : State), (s.linkUp p = true) ∧ (s.hubStopped = false) ∧
    (s.quarantined = false) ∧ (s.session? src session = some x) ∧ (s.isRevoked x.src x.unit x.inc = false) ∧ (s.sessionOn p
    x = true) ∧ (x.kind ≠ 1)) :=
  ⟨⟨32, _, serving, by decide +kernel, rfl⟩,
   ⟨0, serving.setLoadSt 0 ldFetch, by decide +kernel⟩,
   ⟨0, zeros 4 ++ [64] ++ zeros 59, _, _, serving.setLoadSt 0 ldFetch, by decide +kernel, by decide +kernel, rfl, rfl, by decide +kernel, by decide +kernel⟩,
   ⟨0, [7], _, _, (serving.setLoad 0 { desc := zeros 64 }).setLoadSt 0 ldMove, by decide +kernel, by decide +kernel, rfl, by decide +kernel, rfl, by decide +kernel, by decide +kernel, by decide +kernel⟩,
   ⟨0, 1, 1, 1, 0, 64, 0, _, hdr, _, _, _, linked, by decide +kernel, by decide +kernel, rfl, by decide +kernel, by decide +kernel, rfl, rfl, rfl⟩,
   ⟨0, 1, 1, _, hdr, ⟨1, 5, 1, 0, 0, 0, 64, 0, none, false, none⟩, _, linked.setLoad 1 { rx := [⟨1, 5, 1, 0, 0, 0, 64, 0, none, false, none⟩] }, by decide +kernel, by decide +kernel, rfl, by decide +kernel, rfl⟩,
   ⟨0, 0, _, hdr, _, _, (linked.setLoad 1 { desc := [0, 1] ++ zeros 62 }).setLoadSt 1 ldWaitAck, by decide +kernel, by decide +kernel, rfl, rfl, by decide +kernel, by decide +kernel, by decide +kernel, by decide +kernel, rfl, by decide +kernel⟩,
   ⟨0, 5, 1, ⟨5, 0, 0, 1, 1, [], 0⟩, { linked with torus := { linked.torus with sessions := [⟨5, 0, 0, 1, 1, [], 0⟩] } }, by and_intros <;> decide +kernel⟩,
   ⟨1, 5, 1, ⟨1, 5, 1, 0, 0, 0, 64, 0, none, false, none⟩, linked.setLoad 1 { rx := [⟨1, 5, 1, 0, 0, 0, 64, 0, none, false, none⟩] }, by decide +kernel⟩,
   ⟨0, serving.setLoadSt 0 ldWaitAck, by decide +kernel⟩,
   ⟨1, 1, 0, linked.fset (Reg.linkStatusState.port 1) lkUp, by and_intros <;> decide +kernel⟩,
   ⟨0, 5, 1, ⟨5, 0, 0, 1, 0, [], 0⟩, { linked with torus := { linked.torus with sessions := [⟨5, 0, 0, 1, 0, [], 0⟩] } }, by and_intros <;> decide +kernel⟩⟩

/-- The hypotheses of SweepAndRetireCommandsComplete can be met, case by case. -/
theorem met_sweep_and_retire_commands_complete :
    (∃ (c : Nat) (mode : Nat) (a : Nat) (s : State), (c < 4) ∧ (s.sweepAt c = none) ∧ (c = 3 → s.scrubs = []) ∧ (mode % 4 ≠
    3) ∧ (s.fget (Reg.sweepStartLoAddrMid.sweep c) = 0) ∧ (a = s.fget (Reg.sweepStartLoAddrLo.sweep c) * 4096 + s.fget
    (Reg.sweepStartHi.sweep c) * 2 ^ 32) ∧ (oneMemory a (s.fget (Reg.sweepLen.sweep c) * 4096) = true) ∧ (memKind (s.fget
    (Reg.sweepSumLoAddrLo.sweep c) * 4096 + s.fget (Reg.sweepSumLoAddrMid.sweep c) * 64 + s.fget (Reg.sweepSumHi.sweep c) *
    2 ^ 32) = .sram)) ∧
    (∃ (c : Nat) (x : Sweep) (s : State), s.sweepAt c = some x) ∧
    (∃ (c : Nat) (x : Sweep) (s : State), s.sweepAt c = some x) ∧
    (∃ (kind : Nat) (index : Nat) (s : State), (s.isRetired (kind % 2) (index % 2 ^ 23) = false) ∧ (retireReserved (kind % 2)
    (index % 2 ^ 23) = false) ∧ (s.retireFull (kind % 2) = false)) ∧
    (∃ (s : State), s.nvOk = true) :=
  ⟨⟨3, 5, _, {}, by decide +kernel, by decide +kernel, by decide +kernel, by decide +kernel, by decide +kernel, rfl, by decide +kernel, by decide +kernel⟩,
   ⟨0, { mode := 0, start := 0, len := 4096, sum := 0, began := 0 }, { sweeps := [(0, some { mode := 0, start := 0, len := 4096, sum := 0, began := 0 })] }, by decide +kernel⟩,
   ⟨0, { mode := 2, start := 0, len := 4096, sum := 0, began := 0 }, { sweeps := [(0, some { mode := 2, start := 0, len := 4096, sum := 0, began := 0 })] }, by decide +kernel⟩,
   ⟨1, 7919, {}, by and_intros <;> decide +kernel⟩,
   ⟨({ retireWaits := [(0, 1)] } : State).raise Reg.thrmHubNvOk, by decide +kernel⟩⟩

/-- The hypotheses of LinkCommandsComplete can be met, case by case. -/
theorem met_link_commands_complete :
    (∃ (p : Nat) (bytes : List Nat) (b : List Nat) (s : State), (s.linkUp p = true) ∧ (s.hubStopped = false) ∧ (b = padTo 512
    (bytes.map (· % 256))) ∧ (flitGood b = true) ∧ (flitNak b = false) ∧ (flitLm b = false) ∧ (flitSeq b = (s.port p).rxSeq)) ∧
    (∃ (p : Nat) (bytes : List Nat) (s : State), (s.linkUp p = true) ∧ (s.hubStopped = false) ∧ (flitGood (padTo 512
    (bytes.map (· % 256))) = false)) ∧
    (∃ (p : Nat) (s : State), (s.linkUp p = true) ∧ (s.hubStopped = false) ∧ ((s.port p).naks = 0)) ∧
    (∃ (p : Nat) (lane : Nat) (k : Nat) (s : State), (s.linkUp p = true) ∧ ((Map.get {} (s.port p).lanes lane).st = 1) ∧
    ((s.port p).lowest 2 = some k) ∧ (k ≠ lane)) ∧
    (∃ (p : Nat) (s : State), s.linkUp p = true) ∧
    (∃ (p : Nat) (width : Nat) (good : List Nat) (g : List Nat) (b : List Nat) (u : State) (v : State) (w : State) (s :
    State), (s.linkSt p = lkTraining) ∧ (g = (List.range 34).filter (fun n => good.contains n)) ∧ (16 ≤ g.length) ∧ (width =
    (if 32 ≤ g.length then 32 else 16)) ∧ (u = s.newPeer p b) ∧ (v = u.setPort p
    { u.port p with lanes := trainedLanes g width, subs := 0, initial := false, attempts := 0, firstFail := none, upSince := if u.portRevoked p then some u.now else none })
    ∧ (w = (v.setLink p (if width = 32 then lkUp else lkDegraded) width).showLane p)) ∧
    (∃ (p : Nat) (s : State), (s.linkSt p = lkTraining) ∧ ((s.port p).firstFail ≠ none) ∧ (p < 6)) ∧
    (∃ (p : Nat) (light : Bool) (s : State), (s.linkSt p = lkDown) ∧ (light = true) ∧ (p < 6)) ∧
    (∃ (s : State), s.flag Reg.torStatusDiscDone = false) ∧
    (∃ (p : Nat) (u : State) (s : State), (s.linkUp p = true) ∧ (s.portRevoked p = true) ∧ ((s.port p).upSince ≠ none) ∧
    (s.coreHalted 4 = false) ∧ (u = s.readmitOwn (unitPort p)) ∧ (u.incarnation (unitPort p) ≠ s.incarnation (unitPort p))) ∧
    (∃ (p : Nat) (s : State), (s.linkUp p = true) ∧ (p < 6)) ∧
    (∃ (p : Nat), p < 6) ∧
    (∃ (a : Nat) (s : State), (s.ready = true) ∧ (s.cway a = cwClosed) ∧ (s.policy (2 * a) ≠ 0 ∨ s.policy (2 * a + 1) ≠ 0) ∧
    (a < 3)) ∧
    (∃ (a : Nat) (s : State), (s.cway a = cwOpen) ∧ (a < 3)) ∧
    (∃ (a : Nat) (s : State), (s.cway a = cwOpening ∨ s.cway a = cwClosing) ∧ (a < 3)) ∧
    (∃ (a : Nat) (s : State), (s.cway a = cwOpening) ∧ (a < 3)) ∧
    (∃ (p : Nat) (s : State), s.linkUp p = true) ∧
    (∃ (p : Nat) (h : CtrlHdr) (s : State), (s.linkUp p = true ∨ (s.port p).skewDark = true) ∧ (s.hubStopped = false) ∧
    ((s.greeted p h).seenBefore h = false)) :=
  ⟨⟨0, flitBytes 0 false 5 false [1], _, linked, by decide +kernel, by decide +kernel, rfl, by decide +kernel, by decide +kernel, by decide +kernel, by decide +kernel⟩,
   ⟨0, [1], linked, by and_intros <;> decide +kernel⟩,
   ⟨0, linked, by and_intros <;> decide +kernel⟩,
   ⟨0, 0, 32, linked.setPort 0 { lanes := [(0, { st := 1, logical := 0 }), (32, { st := 2 })] }, by and_intros <;> decide +kernel⟩,
   ⟨0, linked, by decide +kernel⟩,
   ⟨0, _, List.range 34, _, zeros 40, _, _, _, serving.fset (Reg.linkStatusState.port 0) lkTraining, by decide +kernel, rfl, by decide +kernel, rfl, rfl, rfl, rfl⟩,
   ⟨5, (serving.fset (Reg.linkStatusState.port 5) lkTraining).setPort 5 { firstFail := some 0 }, by and_intros <;> decide +kernel⟩,
   ⟨5, true, serving.fset (Reg.linkStatusState.port 5) lkDown, by and_intros <;> decide +kernel⟩,
   ⟨serving, by decide +kernel⟩,
   ⟨0, _, (linked.setPort 0 { upSince := some 0 }).revokeOwn (unitPort 0), by decide +kernel, by decide +kernel, by decide +kernel, by decide +kernel, rfl, by decide +kernel⟩,
   ⟨0, linked, by and_intros <;> decide +kernel⟩,
   ⟨5, by decide +kernel⟩,
   ⟨2, { serving with volz := { running := onePart.running ++ [⟨4, 1, pkgScope, 0, [], zeros 128 ++ [1], false⟩] } }, by and_intros <;> decide +kernel⟩,
   ⟨2, serving.setCway 2 cwOpen, by and_intros <;> decide +kernel⟩,
   ⟨2, serving.setCway 2 cwClosing, by and_intros <;> decide +kernel⟩,
   ⟨2, serving.setCway 2 cwOpening, by and_intros <;> decide +kernel⟩,
   ⟨0, linked, by decide +kernel⟩,
   ⟨0, hdr, linked, by and_intros <;> decide +kernel⟩⟩

/-- The hypotheses of TorusMessagesComplete can be met, case by case. -/
theorem met_torus_messages_complete :
    (∃ (p : Nat) (h : CtrlHdr) (s : State), s.actsOn p h) ∧
    (∃ (p : Nat) (pos : Nat) (unit : Nat) (inc : Nat) (h : CtrlHdr) (r : Rev) (s : State), (s.actsOn p h) ∧ (r = ⟨pos, unit,
    inc⟩)) ∧
    (∃ (p : Nat) (pos : Nat) (unit : Nat) (inc : Nat) (h : CtrlHdr) (r : Rev) (s : State), (s.actsOn p h) ∧ (r = ⟨pos, unit,
    inc⟩) ∧ (pos = (s.heard p h).position) ∧ (inc = (s.heard p h).incarnation unit)) ∧
    (∃ (p : Nat) (h : CtrlHdr) (s : State), s.actsOn p h) ∧
    (∃ (p : Nat) (h : CtrlHdr) (s : State), s.actsOn p h) ∧
    (∃ (p : Nat) (id : Nat) (step : Nat) (dir : Nat) (session : Nat) (h : CtrlHdr) (s : State), (s.actsOn p h) ∧ ((s.heard p
    h).quarantined = false) ∧ ((s.heard p h).overtaken h (abortSubject h.part id) = false) ∧ ((s.heard p
    h).torus.collIn.find? (fun d => d.src == h.srcPos && d.part == h.part && d.id == id && d.step == step && d.dir == dir &&
    d.session == session) = none) ∧ ((s.heard p h).coll? h.part id = none) ∧ (((s.heard p h).openSession h session 0).coll?
    h.part id = none)) ∧
    (∃ (p : Nat) (id : Nat) (h : CtrlHdr) (c : Coll) (s : State), (s.actsOn p h) ∧ ((s.heard p h).quarantined = false) ∧
    ((s.heard p h).coll? h.part id = some c)) ∧
    (∃ (p : Nat) (id : Nat) (code : Nat) (h : CtrlHdr) (c : Coll) (u : State) (s : State), (s.actsOn p h) ∧ ((s.heard p
    h).quarantined = false) ∧ ((s.heard p h).newest h (abortSubject h.part id) = none) ∧ ((s.heard p h).coll? h.part id =
    some c) ∧ (code ≠ ccLinkLost) ∧ (code ≠ ccTimeout) ∧ (code ≠ ccFenced) ∧ (u =
    { s.heard p h with torus := { (s.heard p h).torus with latest := (s.heard p h).torus.latest ++ [([h.srcPos, h.srcUnit, h.srcInc] ++ abortSubject h.part id, h.seq)] } })) ∧
    (∃ (part : Nat) (id : Nat) (c : Coll) (s : State), (s.coll? part id = some c) ∧ (s.quarantined = false)) ∧
    (∃ (part : Nat) (id : Nat) (c : Coll) (s : State), s.coll? part id = some c) ∧
    (∃ (p : Nat) (id : Nat) (set : Nat) (position : Nat) (vectors : Nat) (sessionIn : Nat) (inBytes : Nat) (outBytes : Nat)
    (e : Nat) (h : CtrlHdr) (v : Served) (u : State) (w : State) (s : State), (s.actsOn p h) ∧ ((s.heard p h).quarantined =
    false) ∧ ((s.heard p h).inService h.part = true) ∧ (expertIndex ((s.heard p h).harness h.part) set position = some e) ∧
    (v = ⟨h.srcPos, h.part, id, e, vectors, sessionIn, inBytes, outBytes, h.seq, (s.heard p h).now, none⟩) ∧ (u = (s.heard p
    h).openSession h sessionIn 2) ∧ (w = u.each (u.torus.served.filter (u.supersedes h v)) State.dropCall)) ∧
    (∃ (p : Nat) (id : Nat) (session : Nat) (h : CtrlHdr) (c : ExpCall) (u : State) (s : State), (s.actsOn p h) ∧ ((s.heard p
    h).quarantined = false) ∧ ((s.heard p h).torus.calls.find? (fun c => c.id == id && c.dst == h.srcPos) = some c) ∧ (u =
    (s.heard p h).openSession h session 3) ∧ (u.torus.calls = (s.heard p h).torus.calls)) ∧
    (∃ (id : Nat) (c : ExpCall) (y : Step) (k : Nat × State) (d : ExpCall) (u : State) (s : State), (s.torus.calls.find? (fun
    c => c.id == id) = some c) ∧ (c.sessionOut = none) ∧ (c.again = false) ∧ (s.step? c.step = some y) ∧ (k = s.takeCall) ∧
    (d = { c with id := k.1, again := true }) ∧ (u =
    { k.2 with torus := { k.2.torus with calls := k.2.torus.calls.map (fun z => if z = c then d else z) } }) ∧
    (u.quarantined = false)) ∧
    (∃ (unit : Nat) (seq : Nat) (p : Nat) (u : Unacked) (v : State) (s : State), (s.torus.unacked.find? (fun u => u.unit ==
    unit && u.seq == seq) = some u) ∧ (s.carries u.type = true) ∧ (u.sends < 8) ∧ (u.port = some p) ∧ (v =
    ({ s with torus := { s.torus with unacked := s.torus.unacked.map (fun w => if w = u then { w with sends := w.sends + 1 } else w) } }
    : State).bump Reg.torCtrlRetx)) ∧
    (∃ (q : Nat) (s : State), (s.coreHalted 4 = false) ∧ (q ∈ s.positions) ∧ (q ≠ s.position)) ∧
    (∃ (pos : Nat) (u : State) (s : State), u = (s.fset Reg.torRevokePos pos).showRev) ∧
    (∃ (entry : Nat) (r : Rev) (s : State), (Map.get none s.torus.revs entry = some r) ∧ (r.unit / 2 ^ 28 ≤ 1) ∧ (r.inc % 256
    ≠ 255) ∧ (s.coreHalted 4 = false)) :=
  ⟨⟨0, hdr, linked, by and_intros <;> decide +kernel⟩,
   ⟨0, 7, 0, 0, hdr, _, linked, by decide +kernel, rfl⟩,
   ⟨0, 0, 0, 0, hdr, _, linked, by decide +kernel, rfl, by decide +kernel, by decide +kernel⟩,
   ⟨0, hdr, linked, by and_intros <;> decide +kernel⟩,
   ⟨0, hdr, linked, by and_intros <;> decide +kernel⟩,
   ⟨0, 1, 0, 0, 1, hdr, linked, by and_intros <;> decide +kernel⟩,
   ⟨0, 1, hdr, aColl, collecting, by and_intros <;> decide +kernel⟩,
   ⟨0, 1, 2, hdr, aColl, _, collecting, by decide +kernel, by decide +kernel, by decide +kernel, by decide +kernel, by decide +kernel, by decide +kernel, by decide +kernel, rfl⟩,
   ⟨0, 1, aColl, collecting, by and_intros <;> decide +kernel⟩,
   ⟨0, 1, aColl, collecting, by decide +kernel⟩,
   ⟨0, 1, 0, 0, 1, 1, 0, 0, 0, hdr, _, _, _, { linked with volz := attending.volz }, by decide +kernel, by decide +kernel, by decide +kernel, by decide +kernel, rfl, rfl, rfl⟩,
   ⟨0, 1, 2, hdr, aCall, _, { linked with torus := { linked.torus with calls := [aCall] } }, by decide +kernel, by decide +kernel, by decide +kernel, rfl, by decide +kernel⟩,
   ⟨1, aCall, { newStep 0 0 0 [] 0 0 0 0 [0] [] none with posted := true, waiting := [0] }, _, _, _, { running with torus := { running.torus with calls := [aCall] } }, by decide +kernel, by decide +kernel, by decide +kernel, by decide +kernel, rfl, rfl, rfl, by decide +kernel⟩,
   ⟨0, 1, 0, ⟨0, 1, some 0, 0, 0, 8, [], 1, 0⟩, _, { linked with torus := { linked.torus with unacked := [⟨0, 1, some 0, 0, 0, 8, [], 1, 0⟩] } }, by decide +kernel, by decide +kernel, by decide +kernel, by decide +kernel, rfl⟩,
   ⟨1, { serving with torus := { serving.torus with replan := true }, volz := { running := onePart.running ++ [⟨4, 1, pkgScope, 0, [], [2] ++ zeros 127, false⟩] } }, by and_intros <;> decide +kernel⟩,
   ⟨5, _, linked, rfl⟩,
   ⟨3, ⟨7, 0, 1⟩, { linked with torus := { linked.torus with revs := [(3, some ⟨7, 0, 1⟩)] } }, by and_intros <;> decide +kernel⟩⟩

/-- The hypotheses of StoreAndKeyCommandsComplete can be met, case by case. -/
theorem met_store_and_key_commands_complete :
    (∃ (s : State), (s.paddock = true) ∧ (s.failLimit ≤ s.boot.failPending.getD s.nv.failCount) ∧ (s.nvOk = true)) ∧
    (∃ (target : Nat) (u : State) (s : State), (u = (s.fset Reg.nvCtrlCmd 1).fset Reg.nvCtrlTarget (target % 8)) ∧ (u.nvCheck
    1 (target % 8) (u.fget Reg.nvLen) = 0)) ∧
    (∃ (target : Nat) (u : State) (s : State), (u = (s.fset Reg.nvCtrlCmd 2).fset Reg.nvCtrlTarget (target % 8)) ∧ (u.nvCheck
    2 (target % 8) (u.fget Reg.nvLen) = 0)) ∧
    (∃ (target : Nat) (u : State) (s : State), (u = (s.fset Reg.nvCtrlCmd 3).fset Reg.nvCtrlTarget (target % 8)) ∧ (u.nvCheck
    3 (target % 8) (u.fget Reg.nvLen) = 0)) ∧
    (∃ (target : Nat) (u : State) (s : State), (u = (s.fset Reg.nvCtrlCmd 4).fset Reg.nvCtrlTarget (target % 8)) ∧ (u.nvCheck
    4 (target % 8) (u.fget Reg.nvLen) = 0)) ∧
    (∃ (err : Bool) (c : NvCmd) (u : State) (s : State), (s.sec.nvCmd = some c) ∧ (c.cmd = 1 → err = false ∧ s.pci.lost =
    false) ∧ (u = { s with sec := { s.sec with nvCmd := none } })) ∧
    (∃ (s : State), s.sec.cmd = none) ∧
    (∃ (s : State), s.sec.cmd = none) ∧
    (∃ (s : State), s.sec.cmd = none) ∧
    (∃ (c : SecCmd) (u : State) (s : State), (s.sec.cmd = some c) ∧ (u = ({ s with sec := { s.sec with cmd := none } } :
    State).clear Reg.secStatusBusy)) :=
  ⟨⟨((({ nv := { failCount := 300 } } : State).raise Reg.rstStatusPaddock).raise Reg.thrmHubNvOk), by and_intros <;> decide +kernel⟩,
   ⟨1, _, ((({ nv := { fwB := some [0], fwA := some [0], volzA := some [0] } } : State).fset Reg.rstStatusStage stReady).raise Reg.thrmHubNvOk).fset Reg.nvLen 64, rfl, by decide +kernel⟩,
   ⟨1, _, (({ nv := { fwB := some [0], fwA := some [0], volzA := some [0] } } : State).fset Reg.rstStatusStage stReady).raise Reg.thrmHubNvOk, rfl, by decide +kernel⟩,
   ⟨1, _, (({ nv := { fwB := some [0], fwA := some [0], volzA := some [0] } } : State).fset Reg.rstStatusStage stReady).raise Reg.thrmHubNvOk, rfl, by decide +kernel⟩,
   ⟨1, _, (({ nv := { fwB := some [0], fwA := some [0], volzA := some [0] } } : State).fset Reg.rstStatusStage stReady).raise Reg.thrmHubNvOk, rfl, by decide +kernel⟩,
   ⟨false, ⟨3, 1, 0, 0⟩, _, { sec := { nvCmd := some ⟨3, 1, 0, 0⟩ } }, by decide +kernel, by and_intros <;> decide +kernel, rfl⟩,
   ⟨{}, by decide +kernel⟩,
   ⟨{}, by decide +kernel⟩,
   ⟨{}, by decide +kernel⟩,
   ⟨⟨1, 0⟩, _, { sec := { cmd := some ⟨1, 0⟩ } }, by decide +kernel, rfl⟩⟩

/-- The hypotheses of SafetyCommandsComplete can be met, case by case. -/
theorem met_safety_commands_complete :
    (∃ (r : Nat), r < 33) ∧
    (∃ (s : State), s.coreHalted 6 = false) ∧
    (∃ (p : Nat) (m : Nat) (s : State), (p < 32) ∧ (m < 16) ∧ (s.partStrings p ≠ 0) ∧ (s.residentModel p m = true)) ∧
    (∃ (n : Nat) (u : State) (s : State), u = s.fset Reg.safeLogSel n) ∧
    (∃ (p : Nat) (m : Nat) (s : State), (s.ready = true) ∧ (s.partStrings p ≠ 0) ∧ (s.residentModel p m = true)) ∧
    (∃ (p : Nat) (m : Nat) (r : List Nat × State) (s : State), (s.safety.digesting.contains (digestKey p m) = true) ∧ (r =
    s.digestAll (modelPlaces (s.harness p) m))) ∧
    (∃ (u : State) (s : State), (stLinksUp < s.stage ∨ s.paddock = true) ∧ (s.coreHalted 6 = false) ∧ (u =
    (({ s with safety := { s.safety with cc6Down := false } } : State).raise Reg.safeStatusCc6Ok).sendWaiting)) ∧
    (∃ (id : Nat) (r : Report) (s : State), (s.safety.reports.find? (fun r => r.id == id) = some r) ∧ (r.sends ≠ 0) ∧
    (r.sends < 10) ∧ (s.safety.portUp = true) ∧ (s.cc6Runs = true)) ∧
    (∃ (h : MgmtHdr) (id : Nat) (s : State), (s.hears h 0x03 (leBytes 4 id) = true) ∧ (s.safety.reports.any (fun r => r.id ==
    id) = true)) ∧
    (∃ (h : MgmtHdr) (nonce : List Nat) (s : State), (s.hears h 0x10 (padTo 32 (nonce.map (· % 256))) = true) ∧
    (s.afterNvLoad = true)) ∧
    (∃ (h : MgmtHdr) (first : Nat) (count : Nat) (ns : List Nat) (s : State), (s.hears h 0x12 (leBytes 4 first ++ leBytes 4
    count) = true) ∧ (s.afterNvLoad = true) ∧ (ns = s.logNumbers first count)) ∧
    (∃ (h : MgmtHdr) (cmd : Nat) (target : Nat) (len : Nat) (r : Nat × Nat × State) (s : State), (s.hears h 0x20 ([cmd % 256,
    target % 256, 0, 0] ++ leBytes 4 len) = true) ∧ (s.authorised h 0x20 ([cmd % 256, target % 256, 0, 0] ++ leBytes 4 len)
    = true) ∧ (s.nvCheck (cmd % 256) (target % 256) (len % 2 ^ 32) = 0) ∧ (r = s.nvBegin (cmd % 256) (target % 256) (len % 2
    ^ 32))) ∧
    (∃ (h : MgmtHdr) (off : Nat) (cmd : Nat) (tg : Nat) (len : Nat) (bytes : List Nat) (got : List Nat) (s : State), (s.hears
    h 0x21 (leBytes 4 off ++ bytes.map (· % 256)) = true) ∧ (s.safety.nvOpen = some (cmd, tg, len, got)) ∧ (off =
    got.length) ∧ (bytes ≠ []) ∧ (bytes.length ≤ 1024) ∧ (got.length + bytes.length < len)) ∧
    (∃ (h : MgmtHdr) (s : State), (s.hears h 0x23 [] = true) ∧ (s.authorised h 0x23 [] = true)) ∧
    (∃ (h : MgmtHdr) (pos : Nat) (inc : Nat) (s : State), (s.hears h 0x24 (leBytes 2 pos ++ [0, 0] ++ leBytes 4 inc) = true)
    ∧ (s.authorised h 0x24 (leBytes 2 pos ++ [0, 0] ++ leBytes 4 inc) = true)) :=
  ⟨⟨32, by decide +kernel⟩,
   ⟨{}, by decide +kernel⟩,
   ⟨0, 0, attending, by and_intros <;> decide +kernel⟩,
   ⟨3, _, {}, rfl⟩,
   ⟨0, 0, attending, by and_intros <;> decide +kernel⟩,
   ⟨0, 0, _, { safety := { digesting := [0] } }, by decide +kernel, rfl⟩,
   ⟨_, serving, by decide +kernel, by decide +kernel, rfl⟩,
   ⟨1, ⟨{}, 0, 0, 1, 0, 0, 9⟩, { safety := { portUp := true, reports := [⟨{}, 0, 0, 1, 0, 0, 9⟩] } }, by and_intros <;> decide +kernel⟩,
   ⟨mlHdr 0x03 (leBytes 4 1), 1, { safety := { portUp := true, reports := [⟨{}, 0, 0, 1, 0, 0, 9⟩] } }, by and_intros <;> decide +kernel⟩,
   ⟨mlHdr 0x10 (padTo 32 [1]), [1], { serving with safety := { portUp := true } }, by and_intros <;> decide +kernel⟩,
   ⟨mlHdr 0x12 (leBytes 4 0 ++ leBytes 4 4), 0, 4, _, { serving with safety := { portUp := true } }, by decide +kernel, by decide +kernel, rfl⟩,
   ⟨mlHdr 0x20 ([1, 1, 0, 0] ++ leBytes 4 64), 1, 1, 64, _, { ((({ nv := { fwB := some [0], fwA := some [0], volzA := some [0] } } : State).fset Reg.rstStatusStage stReady).raise Reg.thrmHubNvOk).fset Reg.nvLen 64 with safety := { portUp := true } }, by decide +kernel, by decide +kernel, by decide +kernel, rfl⟩,
   ⟨mlHdr 0x21 (leBytes 4 1 ++ [44]), 1, 1, 1, 64, [300], [7], { safety := { portUp := true, nvOpen := some (1, 1, 64, [7]) } }, by and_intros <;> decide +kernel⟩,
   ⟨mlHdr 0x23 [], { safety := { portUp := true } }, by and_intros <;> decide +kernel⟩,
   ⟨mlHdr 0x24 (leBytes 2 5 ++ [0, 0] ++ leBytes 4 1), 5, 1, { safety := { portUp := true } }, by and_intros <;> decide +kernel⟩⟩

/-- The hypotheses of DebugCommandsComplete can be met, case by case. -/
theorem met_debug_commands_complete :
    (∃ (s : State), s.stage = stPor) ∧
    (∃ (s : State), s.stage = stPor) ∧
    (∃ (op : Nat) (space : Nat) (data : Nat) (addr : Nat) (u : State) (r : Nat × Nat × State) (s : State), (op % 4 = 1 ∨ op %
    4 = 2) ∧ (u = (s.tapIr 0x12).send (.tdo 104 s.dbgState.access)) ∧ (r = u.accessNow (op % 4 == 2) (space % 16) (addr % 2
    ^ 64) (data % 2 ^ 32))) ∧
    (∃ (s : State), s.flag Reg.dbgStatusUnlocked = true) ∧
    (∃ (s : State), (s.flag Reg.dbgStatusUnlocked = true) ∧ (s.dbgState.unlockEnd ≠ none)) ∧
    (∃ (r : Nat) (s : State), (s.scoped 0 = true) ∧ (r % 64 < 32) ∧ ((s.region (r % 64)).stopped = false)) ∧
    (∃ (r : Nat) (s : State), (s.scoped 0 = true) ∧ (r % 64 < 32) ∧ ((s.region (r % 64)).stopped = true) ∧ ((s.region (r %
    64)).dbg = true) ∧ (s.heldStopped (r % 64) = false)) ∧
    (∃ (s : State), (s.coreHalted 7 = false) ∧ (s.dbgState.graph = none)) ∧
    (∃ (id : Nat) (y : Step) (s : State), (s.step? id = some y) ∧ (y.posted = true) ∧ (y.atMilepost = false) ∧ (s.hangMs ≠ 0)
    ∧ (s.dbgState.hung.contains id = false) ∧ (s.coreHalted 7 = false)) ∧
    (∃ (first : List Wait) (kept : List Wait) (loops : List Wait) (u : State) (s : State), (s.dbgState.graph = some first) ∧
    (s.coreHalted 7 = false) ∧ (kept = (s.waitSnapshot.filter (fun w => first.any (fun v => v.unit == w.unit && v.since ==
    w.since && v.reason == w.reason))).take 8192) ∧ (loops = kept.filter (inCycle kept)) ∧ (u =
    ((((({ s with dbgState := { s.dbgState with graph := none } } : State).clear Reg.dbgWfgStatusBusy).fput
    Reg.dbgWfgStatusCycle (!loops.isEmpty)).fset Reg.dbgWfgStatusNodes kept.length).writeGraph kept loops.length))) ∧
    (∃ (u : Nat) (s : State), (s.scoped 0 = true) ∧ (32 ≤ u ∧ u < 64) ∧ ((s.seq (u - 32)).halted = false)) ∧
    (∃ (u : Nat) (s : State), (s.scoped 0 = true) ∧ (u < 8) ∧ (s.coreHalted u = false)) ∧
    (∃ (u : Nat) (s : State), (s.scoped 0 = true) ∧ (u < 64)) ∧
    (∃ (u : Nat) (s : State), (s.scoped 0 = true) ∧ (32 ≤ u ∧ u < 64) ∧ ((s.seq (u - 32)).halted = true)) ∧
    (∃ (u : Nat) (s : State), (s.scoped 0 = true) ∧ (u < 8) ∧ (s.coreHalted u = true)) :=
  ⟨⟨({} : State).fset Reg.rstStatusStage 0, by decide +kernel⟩,
   ⟨({} : State).fset Reg.rstStatusStage 0, by decide +kernel⟩,
   ⟨1, 0, 5, 8, _, _, {}, by decide +kernel, rfl, rfl⟩,
   ⟨({} : State).raise Reg.dbgStatusUnlocked, by decide +kernel⟩,
   ⟨({ dbgState := { unlockEnd := some 5 } } : State).raise Reg.dbgStatusUnlocked, by and_intros <;> decide +kernel⟩,
   ⟨31, scopedDev, by and_intros <;> decide +kernel⟩,
   ⟨31, scopedDev.setRegion 31 { stopped := true, dbg := true }, by and_intros <;> decide +kernel⟩,
   ⟨serving, by and_intros <;> decide +kernel⟩,
   ⟨0, { newStep 0 0 0 [] 0 0 0 0 [0] [] none with posted := true, waiting := [0] }, running, by and_intros <;> decide +kernel⟩,
   ⟨[], _, _, _, { serving with dbgState := { graph := some [] } }, by decide +kernel, by decide +kernel, rfl, rfl, rfl⟩,
   ⟨63, scopedDev, by and_intros <;> decide +kernel⟩,
   ⟨7, scopedDev, by and_intros <;> decide +kernel⟩,
   ⟨63, scopedDev, by and_intros <;> decide +kernel⟩,
   ⟨63, { scopedDev with seqs := [(31, { halted := true })] }, by and_intros <;> decide +kernel⟩,
   ⟨5, scopedDev.raise (Reg.runstatHalted.unit 5), by and_intros <;> decide +kernel⟩⟩

/-- The hypotheses of TraceAndCounterCommandsComplete can be met, case by case. -/
theorem met_trace_and_counter_commands_complete :
    (∃ (s : State), s.flag Reg.trcStatusCopying = false) ∧
    (∃ (s : State), s.fget Reg.trcStatusState = trcRing ∨ s.fget Reg.trcStatusState = trcPost) ∧
    (∃ (s : State), (s.hubStopped = false) ∧ (s.trace.trig.testBit 5 = true) ∧ (s.fget Reg.trcStatusState = trcRing) ∧ (1 <
    s.trace.post)) ∧
    (∃ (pin : Nat) (s : State), (s.pins.gpioCfg.getD pin 0x08 % 8 = 3) ∧ (s.hubStopped = false) ∧ (s.trace.trig.testBit 3 =
    true) ∧ (s.fget Reg.trcStatusState = trcRing) ∧ (1 < s.trace.post)) ∧
    (∃ (s : State), s.fget Reg.trcStatusState = trcFrozen ∨ s.fget Reg.trcStatusState = trcStopped) ∧
    (∃ (a : Nat) (s : State), (s.flag Reg.trcStatusCopying = true) ∧ (a = dramBase + s.fget Reg.trcDstLo * 64 + s.fget
    Reg.trcDstHi * 2 ^ 32)) ∧
    (∃ (source : Nat) (e : TraceEntry) (rest : List TraceEntry) (s : State), Map.get [] s.trace.queues (traceQueue source) =
    e :: rest) ∧
    (∃ (slot : Nat) (a : Nat) (u : State) (r : List Nat × Bool × State) (s : State), (u = s.fset Reg.dbgDumpCtrlSlot slot) ∧
    (u.dump? (slot % 16) = none) ∧ (a = u.fget Reg.dbgDumpLo * 64 + u.fget Reg.dbgDumpHi * 2 ^ 32) ∧ (memKind a = .sram) ∧
    (r = u.readThrough (unitCore 7) a 64) ∧ (r.2.1 = false) ∧ (u.dumpCheck { line := r.1, done := 0 } = dbDone)) :=
  ⟨⟨({} : State).fset Reg.trcPost 0, by decide +kernel⟩,
   ⟨({} : State).fset Reg.trcStatusState trcPost, by decide +kernel⟩,
   ⟨({ trace := { trig := 32, post := 2 } } : State).fset Reg.trcStatusState trcRing, by and_intros <;> decide +kernel⟩,
   ⟨0, ({ pins := { gpioCfg := [3] }, trace := { trig := 8, post := 2 } } : State).fset Reg.trcStatusState trcRing, by and_intros <;> decide +kernel⟩,
   ⟨({} : State).fset Reg.trcStatusState trcStopped, by decide +kernel⟩,
   ⟨_, ({} : State).raise Reg.trcStatusCopying, by decide +kernel, rfl⟩,
   ⟨0, {}, [], { trace := { queues := [(0, [{}])] } }, by decide +kernel⟩,
   ⟨15, _, _, _, { serving with mem := [(36, 64)] }, rfl, by decide +kernel, rfl, by decide +kernel, rfl, by decide +kernel, by decide +kernel⟩⟩

/-- The hypotheses of IdleStepCountsTime can be met. -/
theorem met_idle_step_counts_time :
    ∃ s : State, s.pending = [] ∧ (∀ e ∈ s.seqs, e.2.step = none) ∧ s.trace.src.testBit 8 = false ∧ (∀ c : Nat, c < 8 →
    s.coreArmed c = []) ∧ s.fget Reg.wayRate = 0 ∧ s.clocks.way.frac = 0 :=
  ⟨{ trace := { src := 0 } }, by and_intros <;> decide +kernel⟩

/-- The hypotheses of CommandsLeaveTheQueue can be met. -/
theorem met_commands_leave_the_queue :
    ∃ (c : Instr) (s t : State), exec c s = .next t :=
  ⟨.tapReset, {}, _, rfl⟩

/-- The hypotheses of MemoryStaysCanonical can be met. -/
theorem met_memory_stays_canonical :
    ∃ s t : State, s.memoryOk = true ∧ step s = .next t :=
  ⟨{ serving with mem := [(3, 7)], pending := [.tapReset] }, _, by decide +kernel, rfl⟩

/-- The hypotheses of CommandsThatStoreNothing can be met. -/
theorem met_commands_that_store_nothing :
    ∃ (c : Instr) (s t : State), storesNothing c = true ∧ exec c s = .next t :=
  ⟨.nop 0, {}, _, rfl, rfl⟩

/-- The hypotheses of WaymarkMovesOnlyByDiscipline can be met. -/
theorem met_waymark_moves_only_by_discipline :
    ∃ (c : Instr) (s t : State), s.stage = stReady ∧ exec c s = .next t ∧ t.stage = stReady :=
  ⟨.stretchEnd 0, serving, _, by decide +kernel, rfl, by decide +kernel⟩

/-- The hypotheses of BlockCodeMendsOneDataBit can be met. -/
theorem met_block_code_mends_one_data_bit :
    ∃ i j k l : Nat, i < 16 ∧ j < 16 ∧ k < 16 ∧ l < 16 ∧ (i, j) ≠ (k, l) :=
  ⟨15, 15, 15, 14, by decide⟩

/-- The hypotheses of MeetingPartitionCommands can be met, case by case. -/
theorem met_meeting_partition_commands :
    (∃ (s : State) (p : Nat), p = s.fget Reg.partSelPart ∧ (s.partGet p).st ≠ .inService ∧ (s.partGet p).returnWaits = false
    ∧ s.volz.kind ≠ some (.part p)) ∧
    (∃ (s : State) (p k : Nat), p = s.fget Reg.partSelPart ∧ (s.partGet p).st = .scrubbing ∧ (s.partGet p).returnWaits = true
    ∧ s.vfPart k = some p) ∧
    (∃ (s : State) (p : Nat), p = s.fget Reg.partSelPart ∧ s.volz.kind = some (.part p)) ∧
    (∃ (s : State) (p : Nat), p = s.fget Reg.partSelPart ∧ (s.partGet p).st = .quiescing) :=
  ⟨⟨{}, 0, by and_intros <;> decide +kernel⟩,
   ⟨{ serving with parts := [(0, { st := .scrubbing, returnWaits := true })] }, 0, 1, by and_intros <;> decide +kernel⟩,
   ⟨{ volz := { kind := some (.part 0) } }, 0, by and_intros <;> decide +kernel⟩,
   ⟨{ serving with parts := [(0, { st := .quiescing })] }, 0, by and_intros <;> decide +kernel⟩⟩

/-- The hypotheses of OneVolzLoadAtATime can be met, case by case. -/
theorem met_one_volz_load_at_a_time :
    (∃ s : State, s.volzIdle = false ∧ s.volz.kind ≠ some .slotA ∧ s.volz.kind ≠ some .slotB) ∧
    (∃ s : State, s.volzIdle = true) :=
  ⟨⟨({ volz := { kind := some (.part 3) } } : State).fset Reg.volzStatusState vzPull, by and_intros <;> decide +kernel⟩,
   ⟨{}, by decide +kernel⟩⟩

/-- The hypotheses of ClockCommandsNeedScope can be met, case by case. -/
theorem met_clock_commands_need_scope :
    (∃ s : State, s.scoped 0 = false) ∧
    (∃ (r : Nat) (s : State), s.scoped 0 = true ∧ 32 ≤ r % 64) :=
  ⟨⟨{}, by decide +kernel⟩,
   ⟨32, scopedDev, by and_intros <;> decide +kernel⟩⟩

/-- The hypotheses of ChallengeRenewsAtEveryAttempt can be met. -/
theorem met_challenge_renews_at_every_attempt :
    ∃ (s t : State) (c : Instr) (err : Bool) (bytes : List Nat) (ns : Nat), 1000 ≤ ns ∧ (c = .dbgUnlock err bytes ∨ c =
    .tapUnlock bytes ∨ c = .perstNAssert ns ∨ c = .powerOnDetect) ∧ exec c s = .next t :=
  ⟨{}, _, .dbgUnlock true [], true, [], 1000, by decide, .inl rfl, rfl⟩

/-- The hypotheses of AdcVisitGivesShiftedSum can be met. -/
theorem met_adc_visit_gives_shifted_sum :
    ∃ (s : State) (c : Nat) (codes : List Nat), s.nextChan = some c ∧ s.adc.urgentRuns = false ∧ s.adc.urgent = [] ∧ c ∈
    s.sequence ∧ s.sequence.getLast? ≠ some c ∧ (s.chan c).count = 0 ∧ (s.chan c).sum = 0 ∧ codes.length = 2 ^ s.fget
    (Reg.adcCfgAvgLog2.chan c) :=
  ⟨(({} : State).raise (Reg.adcCfgEnable.chan 0)).raise (Reg.adcCfgEnable.chan 1), 0, List.replicate (2 ^ (({} : State).fget (Reg.adcCfgAvgLog2.chan 0))) 5, by and_intros <;> decide +kernel⟩

/-- The hypotheses of TileRegisterPlaces can be met. -/
theorem met_tile_register_places :
    ∃ (f : Fld) (k : Nat), f ∈ Reg.tileRegs ∧ k < 32 :=
  ⟨Reg.tileErrWinLimit, 31, by decide +kernel⟩

/-- The hypotheses of HostAreaStaysWhilePagesLie can be met. -/
theorem met_host_area_stays_while_pages_lie :
    ∃ (p : Nat) (s : State), (s.livePages p).any (fun e => e.2.tier == 2) = true :=
  ⟨0, { kv := { pages := [(0, { st := .live, tier := 2 })] } }, by decide +kernel⟩

/-- The hypotheses of NarrowWritesAreDiscarded can be met. -/
theorem met_narrow_writes_are_discarded :
    ∃ (fn bar off n a : Nat) (sel : Option Nat) (s : State), off % 4 + n ≤ 4 ∧ (bar = 2 → off < 0x4000000) ∧ s.land fn bar
    (off / 4 * 4) = some (.reg a sel) :=
  ⟨0, 0, 0x20002, 2, 0x20000, none, ({} : State).fset Reg.rstStatusStage 4, by and_intros <;> decide +kernel⟩

/-- The hypotheses of StoredFieldsFollowTheirAccess can be met, case by case. -/
theorem met_stored_fields_follow_their_access :
    (∃ (s : State) (f g : Fld), s.fget f < f.card ∧ f.acc = .w1c ∧ g.key ≠ f.key) ∧
    (∃ (s : State) (f : Fld), s.fget f < f.card ∧ f.acc = .rwl ∧ s.fget Reg.rstStatusBootLock = 1) :=
  ⟨⟨{}, Reg.kvErrHostBusy, Reg.wayRate, by and_intros <;> decide +kernel⟩,
   ⟨({} : State).raise Reg.rstStatusBootLock, ⟨0x44, 0, 0, .rwl, 0⟩, by and_intros <;> decide +kernel⟩⟩

/-- The hypotheses of FailedFieldTestEndsService can be met, case by case. -/
theorem met_failed_field_test_ends_service :
    (∃ (m k : Nat) (s u : State), (s.tileTest m k = 3 ∨ 80 ≤ s.tileTest m k) ∧ (s.team m).roleOf k = none ∧ u = ((s.countTest
    m true).setTileTest m k 0).retire m k frCommand 512) ∧
    (∃ (m : Nat) (s u : State), s.teamTest m = 3 ∧ u = ((s.setTeamTest m 0).countTest m true).loseTeam m) :=
  ⟨⟨0, 33, serving.setTileTest 0 33 3, _, by decide +kernel, by decide +kernel, rfl⟩,
   ⟨0, serving.setTeamTest 0 3, _, by decide +kernel, rfl⟩⟩

/-- The hypotheses of WaymarkSetAfterReadyRefused can be met, case by case. -/
theorem met_waymark_set_after_ready_refused :
    (∃ s : State, s.stage = stReady) ∧
    (∃ s : State, s.stage < stReady ∧ s.clocks.way.setUsed = true) :=
  ⟨⟨serving, by decide +kernel⟩,
   ⟨{ clocks := { way := { setUsed := true } } }, by and_intros <;> decide +kernel⟩⟩

/-- The hypotheses of FailLimitEntersPaddock can be met. -/
theorem met_fail_limit_enters_paddock :
    ∃ s : State, s.stage = stNvLoad ∧ s.paddock = false ∧ s.nvOk = true ∧ s.nv.userNv = none ∧ s.failLimit ≤ s.nv.failCount :=
  ⟨(({ nv := { failCount := 255 } } : State).fset Reg.rstStatusStage stNvLoad).raise Reg.thrmHubNvOk, by and_intros <;> decide +kernel⟩

/-- The hypotheses of BadCrcCountsOnly can be met. -/
theorem met_bad_crc_counts_only :
    ∃ (h : CtrlHdr) (c : Instr), c ∈ [Instr.ack 0 false h 0] :=
  ⟨hdr, .ack 0 false hdr 0, by decide⟩

/-- The hypotheses of RevokedSenderIsFenced can be met. -/
theorem met_revoked_sender_is_fenced :
    ∃ (p : Nat) (h : CtrlHdr) (s u : State), s.linkUp p = true ∧ s.hubStopped = false ∧ (h.dstPos = 0xFFFF ∨ h.dstPos =
    s.position) ∧ u = s.seenReset h.srcPos h.srcUnit h.srcInc ∧ u.isRevoked h.srcPos h.srcUnit h.srcInc = true :=
  ⟨0, hdr, { linked with torus := { linked.torus with revs := [(0, some ⟨5, 0, 0⟩)] } }, _, by decide +kernel, by decide +kernel, by decide +kernel, rfl, by decide +kernel⟩

/-- The hypotheses of FrozenTraceKeepsItsRing can be met. -/
theorem met_frozen_trace_keeps_its_ring :
    ∃ (s t : State) (c : Instr), (s.fget Reg.trcStatusState = trcFrozen ∨ s.fget Reg.trcStatusState = trcStopped) ∧ c ∈
    [Instr.traceEntryWrite 0, .trcTrigger, .traceTrigInEdge 0] ∧ exec c s = .next t :=
  ⟨({} : State).fset Reg.trcStatusState trcFrozen, _, .trcTrigger, by decide +kernel, by decide, rfl⟩

/-- The hypotheses of MaskedVectorsOnlyPend can be met, case by case. -/
theorem met_masked_vectors_only_pend :
    (∃ (s : State) (fn vec : Nat), (Map.get {} s.clocks.regions 32).stopped = false ∧ (s.vecGet fn vec).mask = true) ∧
    (∃ (s : State) (fn vec : Nat), (Map.get {} s.clocks.regions 32).stopped = false ∧ (s.vecGet fn vec).mask = false ∧
    (s.vecGet fn vec).running = false ∧ s.msixOn fn = true) :=
  ⟨⟨{}, 0, 0, by decide +kernel⟩,
   ⟨{ serving with vectors := [(0, { mask := false })] }, 0, 0, by decide +kernel⟩⟩

/-- The hypotheses of DangerAssertsFaultN can be met. -/
theorem met_danger_asserts_fault_n :
    ∃ (s t : State) (c : Instr) (pair : Nat), c = .lockstepMismatch pair ∧ exec c s = .next t :=
  ⟨{}, _, _, 1, rfl, rfl⟩

/-- The hypotheses of CausewayStates can be met. -/
theorem met_causeway_states :
    ∃ (a : Nat) (s t : State) (c : Instr), a < 3 ∧ s.ready = true ∧ exec c s = .next t ∧ c = .cwayOpen a :=
  ⟨2, serving, _, _, by decide, by decide +kernel, rfl, rfl⟩

/-- The hypotheses of DramRetireAnswers can be met. -/
theorem met_dram_retire_answers :
    ∃ (kind index k i : Nat), k = kind % 2 ∧ i = index % 2 ^ 23 :=
  ⟨1, 3, 1, 3, by decide⟩

/-- The hypotheses of FrameOfSlotCommands can be met, case by case. -/
theorem met_frame_of_slot_commands :
    (∃ (g k : Nat) (s t : State) (c : Instr), c ∈ [Instr.arm g, .pause g, .resume g, .release g] ∧ c = .arm g ∧ s.cleanAt
    [(descAddr g, 256)] ∧ exec c s = .next t ∧ k ≠ g) ∧
    (∃ (g k : Nat) (s t : State) (c : Instr), c ∈ [Instr.arm g, .pause g, .resume g, .release g] ∧ exec c s = .next t ∧ k ≠ g) :=
  ⟨⟨0, 1, slotIn .free, _, .arm 0, by decide, rfl, by and_intros <;> decide +kernel, rfl, by decide⟩,
   ⟨0, 1, slotIn .armed, _, .pause 0, by decide, rfl, by decide⟩⟩

/-- The hypotheses of FrameOfFlowInstructions can be met. -/
theorem met_frame_of_flow_instructions :
    ∃ (x k r a : Nat) (imm : Int) (s t : State) (c : Instr), c ∈ [Instr.adda x a imm] ∧ exec c s = .next t ∧ k ≠ x ∧ r ≠ a :=
  ⟨0, 1, 2, 3, -1, running, _, .adda 0 3 (-1), by decide, rfl, by decide, by decide⟩

/-- The hypotheses of FrameOfVectorOperations can be met. -/
theorem met_frame_of_vector_operations :
    ∃ (x team a d count k e : Nat) (half : Bool) (s t : State) (y : Step), s.seqStep x = some y ∧ s.issues x ⟨0x30, [((s.seq
    x).a a, elemBytes half * count)], [((s.seq x).a d, elemBytes half * count)]⟩ ∧ s.queueStall (24 * x + team % 24) = none
    ∧ s.firstBad y.part ([((s.seq x).a a, elemBytes half * count)] ++ [((s.seq x).a d, elemBytes half * count)]) = none ∧
    s.cleanAt ([((s.seq x).a a, elemBytes half * count)] ++ [((s.seq x).a d, elemBytes half * count)]) ∧ exec (.vuCopy x
    team half a d count) s = .next t ∧ e < (s.seq x).a d ∧ k ≠ x :=
  ⟨0, 0, 0, 1, 1, 1, 0, false, running, _, { newStep 0 0 0 [] 0 0 0 0 [0] [] none with posted := true, waiting := [0] }, by decide +kernel, by and_intros <;> decide +kernel, by decide +kernel, by decide +kernel, by decide +kernel, rfl, by decide +kernel, by decide⟩

/-- The hypotheses of FrameOfRegisterAccesses can be met. -/
theorem met_frame_of_register_accesses :
    ∃ (fn bar off n value : Nat) (s t : State) (c : Instr), c ∈ [Instr.registerWrite fn bar off n value false] ∧ exec c s =
    .next t :=
  ⟨0, 0, 0x20000, 4, 1, serving, _, .registerWrite 0 0 0x20000 4 1 false, by decide, rfl⟩

/-- The hypotheses of FrameOfTapAndRegionEvents can be met. -/
theorem met_frame_of_tap_and_region_events :
    ∃ (r k mv : Nat) (s t : State) (c : Instr), exec c s = .next t ∧ c ∈ [Instr.droopTrip r mv] ∧ k ≠ r :=
  ⟨32, 31, 0, {}, _, .droopTrip 32 0, rfl, by decide, by decide⟩

/-! ### Ill-formed commands: each check of `wellFormed` refuses a command that is otherwise well formed -/

theorem test_well_formed_1 :
    ([.railPowerLoss 0, .railGood 0, .railGoodTimeout 0 0, .registerWrite 0 0 0 4 0 false, .readClearCounter 0 0 0 0,
      .latchingLoRead 0 0 0 0, .hostBar4Read 0 0 0, .hostBar4Write 0 0 [] false, .malformedTlp 0, .slotDescriptorWrite 0 0
      [] false, .arm 0, .continueSlot 0, .pause 0, .resume 0, .cancel 0, .release 0, .resultPayloadRead 0 0 0 0, .stepPlan 0
      0 0 0 0 0 [], .pageWaitRetry 0, .pageWaitExpire 0, .pageMoveComplete 0 0 false [], .inputPullComplete 0 false [],
      .ttlExpire 0, .nop 0, .lda 0 0 0, .adda 0 0 0, .loop 0 0 0, .gopen 0 0 0, .gclose 0 0 0, .gwait 0 0 0, .vec 0 0 0 0 0,
      .gate 0 0 0 0 0 0, .vuCopy 0 0 false 0 0 0, .vuAdd 0 0 false 0 0 0 0, .vuMul 0 0 false 0 0 0 0, .vuFma 0 0 false 0 0 0
      0, .vuMax 0 0 false 0 0 0 0, .vuSum 0 0 false 0 0 0, .vuExp 0 0 false 0 0 0, .vuRsqrt 0 0 false 0 0 0, .vuRecip 0 0
      false 0 0 0, .vuSilu 0 0 false 0 0 0, .vuGelu 0 0 false 0 0 0, .vuRmsnorm 0 0 false 0 0 0 0, .vuSoftmax 0 0 false 0 0
      0, .vuRope 0 0 false 0 0 0 0, .vuGather 0 0 false 0 0 0 0, .vuScatter 0 0 false 0 0 0 0, .vuScore 0 0 false 0 0 0 0,
      .vuValue 0 0 false 0 0 0 0, .vuToMx 0 0 false 0 0 0 0, .vuFromMx 0 0 false 0 0 0 0, .loadm 0 0, .loadmComplete 0 0 [],
      .swapPlanes 0 0, .swapat 0 0 0, .signal 0 0 0, .waitf 0 0 0, .coll 0 0, .milepost 0 0] : List Instr).all (fun i => wellFormed i) = true := by decide +kernel

theorem test_well_formed_2 :
    ([.seqEnd 0, .badInstructionFetch 0, .edgeConvert 0, .splitStallEnd 0, .tileRecordArrive 0, .outriderDelivery 0,
      .groupCloseComplete 0 0, .accAbandon 0 0, .planeWrite 0 0 0 0 [], .drainEnd 0 0, .teamSwapGo 0 0, .teamStop 0 false,
      .teamCntFreeze 0 false, .sampleDue 0 0, .forcedCheck 0 0, .checkLate 0 0, .sampleComplete 0 0 [], .arbCodeCheckDone 0,
      .arbReferenceDone 0 false, .arbSpareLoadDone 0, .arbSpareRunDone 0 [], .arbNoSpareTimeout 0, .outriderSelftestDone 0
      false, .outrSample 0 0, .outrSelftest 0, .outrRefGo 0 0, .referenceRunDone 0, .rotationVisit 0, .calLate 0,
      .calRequest 0 0, .calAbandon 0, .calHold 0 false, .takeoverCopyDone 0, .takeoverMove 0, .calGateDone 0 0 0,
      .calFitDone 0 [] 0 0 [] [], .statsShadowEnd 0, .slewStep 0 0, .dailyTrimRecord 0 0, .pendingRetireComplete 0,
      .farrRemap 0 0 0, .farrRetire 0 0, .farrReadmit 0 0, .farrNvRetry 0 false, .boostSwitch 0, .voltMonitorTrip 0 false 0,
      .droopTrip 0 0, .stretchEnd 0, .regionRestart 0, .adcConversionDone 0 0 false, .adcOpenTest 0 0 0, .adcUrgentGo 0,
      .msixIntervalEnd 0 0, .vfFlr 1, .pciCompletionTimeout 0 0, .atsInvalidation 0 0 0, .quiesceComplete 0 0 [],
      .volzPartial 0, .volzPullComplete false [], .loadGo 0 0] : List Instr).all (fun i => wellFormed i) = true := by decide +kernel

theorem test_well_formed_3 :
    ([.loadAbort 0 0 [], .loadDescArrive 0 false [], .loadMoveComplete 0 false [], .remoteTierWaitExpire 0 false 0,
      .relayChunkReceive 0 0 0 0 [] false, .relayRxTimeout 0 0 0, .relayAckTimeout 0, .groomNearBound 0 0, .groomLapLate 0,
      .heldPlaneReloaded 0 0 0, .sweepGo 0 0, .sweepAbort 0 0, .sweepComplete 0, .kvHostAreaWrite 0 0 0, .flitReceive 0 []
      [] 0, .nakReceived 0 0, .laneFail 0 0, .laserLow 0, .trainingAttemptEnd 0 [] false none, .downLightCheck 0 false,
      .portAutoReadmit 0, .linkRetrain 0, .linkDark 0 false, .cwayOpen 0, .cwayClose 0, .cwayConfirm 0, .cwayConfirmTimeout
      0, .helloSend 0, .hello 0 false hdr [], .ack 0 false hdr 0, .revoke 0 false hdr 0 0 0, .revoked 0 false hdr 0 0 0,
      .readmit 0 false hdr 0 0 0 0, .linkState 0 false hdr 0 0 0 0, .waySync 0 false hdr 0 0 0, .wayReply 0 false hdr 0 0 0
      0 0 0 0 0, .waySyncSend 0 0, .collStep 0 false hdr 0 0 0 0 0 0, .collAck 0 false hdr 0 0 0, .collAbort 0 false hdr 0 0
      0 0, .collStepResend 0 0 0, .collTimeout 0 0, .relayStart 0 false hdr 0 0 0 0 0 0, .relayEnd 0 false hdr 0 0,
      .relayAck 0 false hdr 0 0, .expertCall 0 false hdr 0 0 0 0 0 0 0, .expertDone 0 false hdr 0 0 0, .dataPacketReceive 0
      0 0 0 0 0 0 [], .torRevoke 0, .torReadmit 0, .nvWrite 0, .nvErase 0, .nvSetTrial 0, .nvClearTrial 0,
      .nvCommandComplete false [], .secCommandComplete false [], .lockstepMismatch 0, .tileIftDue 0 0, .iftDeferExpire 0
      none, .tileIftComplete 0 0 0] : List Instr).all (fun i => wellFormed i) = true := by decide +kernel

theorem test_well_formed_4 :
    ([.teamTestDue 0, .teamTestComplete 0 0, .digestDue 0 0, .digestComplete 0 0, .getAttest (mlHdr 0 []) [], .nvBegin
      (mlHdr 0 []) 0 0 0, .nvChunk (mlHdr 0 []) 0 [], .mgmtRevoke (mlHdr 0 []) 0 0, .tapUnlock [], .tapAccess 0 0 0 0,
      .dbgUnlock false [], .dbgClockStop 0, .dbgClockRun 0, .runctlHalt 0, .runctlResume 0, .runctlStep 0, .traceTrigInEdge
      0, .dumpArm 0, .dumpDisarm 0, .trainingTimeLimit 0] : List Instr).all (fun i => wellFormed i) = true := by decide +kernel

theorem test_ill_formed_1 :
    ([.railPowerLoss 17, .railGood 17, .railGoodTimeout 17 0, .registerWrite 40 0 0 4 0 false, .registerWrite 0 1 0 4 0
      false, .registerWrite 0 0 0 2 0 false, .readClearCounter 40 0 0 0, .readClearCounter 0 1 0 0, .latchingLoRead 40 0 0
      0, .latchingLoRead 0 1 0 0, .hostBar4Read 33 0 0, .hostBar4Write 33 0 [] false, .hostBar4Write 0 0 [256] false,
      .malformedTlp 33, .slotDescriptorWrite 33 0 [] false, .slotDescriptorWrite 0 0 [256] false, .arm 16384, .continueSlot
      16384, .pause 16384, .resume 16384, .cancel 16384, .release 16384, .resultPayloadRead 33 0 0 0, .resultPayloadRead 0
      16384 0 0, .stepPlan 32 0 0 0 0 0 [], .stepPlan 0 256 0 0 0 0 [], .pageWaitRetry 16384, .pageWaitExpire 16384,
      .pageMoveComplete 32 0 false [], .pageMoveComplete 0 0 false [256], .inputPullComplete 16384 false [],
      .inputPullComplete 0 false [256], .ttlExpire 16384, .nop 32, .lda 32 0 0, .lda 0 16 0, .adda 32 0 0, .adda 0 16 0,
      .loop 32 0 0, .gopen 32 0 0, .gopen 0 24 0, .gopen 0 0 16, .gclose 32 0 0, .gclose 0 24 0, .gclose 0 0 16, .gwait 32 0
      0, .gwait 0 24 0, .gwait 0 0 16, .vec 32 0 0 0 0, .vec 0 0 16 0 0, .vec 0 0 0 16 0, .gate 32 0 0 0 0 0, .gate 0 0 0 16
      0 0, .gate 0 0 0 0 16 0, .vuCopy 32 0 false 0 0 0, .vuCopy 0 24 false 0 0 0, .vuCopy 0 0 false 16 0 0, .vuCopy 0 0
      false 0 16 0, .vuAdd 32 0 false 0 0 0 0, .vuAdd 0 24 false 0 0 0 0] : List Instr).all (fun i => !wellFormed i) = true := by decide +kernel

theorem test_ill_formed_2 :
    ([.vuAdd 0 0 false 16 0 0 0, .vuAdd 0 0 false 0 16 0 0, .vuAdd 0 0 false 0 0 16 0, .vuMul 32 0 false 0 0 0 0, .vuMul 0
      24 false 0 0 0 0, .vuMul 0 0 false 16 0 0 0, .vuMul 0 0 false 0 16 0 0, .vuMul 0 0 false 0 0 16 0, .vuFma 32 0 false 0
      0 0 0, .vuFma 0 24 false 0 0 0 0, .vuFma 0 0 false 16 0 0 0, .vuFma 0 0 false 0 16 0 0, .vuFma 0 0 false 0 0 16 0,
      .vuMax 32 0 false 0 0 0 0, .vuMax 0 24 false 0 0 0 0, .vuMax 0 0 false 16 0 0 0, .vuMax 0 0 false 0 16 0 0, .vuMax 0 0
      false 0 0 16 0, .vuSum 32 0 false 0 0 0, .vuSum 0 24 false 0 0 0, .vuSum 0 0 false 16 0 0, .vuSum 0 0 false 0 16 0,
      .vuExp 32 0 false 0 0 0, .vuExp 0 24 false 0 0 0, .vuExp 0 0 false 16 0 0, .vuExp 0 0 false 0 16 0, .vuRsqrt 32 0
      false 0 0 0, .vuRsqrt 0 24 false 0 0 0, .vuRsqrt 0 0 false 16 0 0, .vuRsqrt 0 0 false 0 16 0, .vuRecip 32 0 false 0 0
      0, .vuRecip 0 24 false 0 0 0, .vuRecip 0 0 false 16 0 0, .vuRecip 0 0 false 0 16 0, .vuSilu 32 0 false 0 0 0, .vuSilu
      0 24 false 0 0 0, .vuSilu 0 0 false 16 0 0, .vuSilu 0 0 false 0 16 0, .vuGelu 32 0 false 0 0 0, .vuGelu 0 24 false 0 0
      0, .vuGelu 0 0 false 16 0 0, .vuGelu 0 0 false 0 16 0, .vuRmsnorm 32 0 false 0 0 0 0, .vuRmsnorm 0 24 false 0 0 0 0,
      .vuRmsnorm 0 0 false 16 0 0 0, .vuRmsnorm 0 0 false 0 16 0 0, .vuRmsnorm 0 0 false 0 0 16 0, .vuSoftmax 32 0 false 0 0
      0, .vuSoftmax 0 24 false 0 0 0, .vuSoftmax 0 0 false 16 0 0, .vuSoftmax 0 0 false 0 16 0, .vuRope 32 0 false 0 0 0 0,
      .vuRope 0 24 false 0 0 0 0, .vuRope 0 0 false 16 0 0 0, .vuRope 0 0 false 0 16 0 0, .vuRope 0 0 false 0 0 16 0,
      .vuGather 32 0 false 0 0 0 0, .vuGather 0 24 false 0 0 0 0, .vuGather 0 0 false 16 0 0 0, .vuGather 0 0 false 0 16 0 0] : List Instr).all (fun i => !wellFormed i) = true := by decide +kernel

theorem test_ill_formed_3 :
    ([.vuGather 0 0 false 0 0 16 0, .vuScatter 32 0 false 0 0 0 0, .vuScatter 0 24 false 0 0 0 0, .vuScatter 0 0 false 16 0
      0 0, .vuScatter 0 0 false 0 16 0 0, .vuScatter 0 0 false 0 0 16 0, .vuScore 32 0 false 0 0 0 0, .vuScore 0 24 false 0
      0 0 0, .vuScore 0 0 false 16 0 0 0, .vuScore 0 0 false 0 16 0 0, .vuScore 0 0 false 0 0 16 0, .vuValue 32 0 false 0 0
      0 0, .vuValue 0 24 false 0 0 0 0, .vuValue 0 0 false 16 0 0 0, .vuValue 0 0 false 0 16 0 0, .vuValue 0 0 false 0 0 16
      0, .vuToMx 32 0 false 0 0 0 0, .vuToMx 0 24 false 0 0 0 0, .vuToMx 0 0 false 0 16 0 0, .vuToMx 0 0 false 0 0 16 0,
      .vuFromMx 32 0 false 0 0 0 0, .vuFromMx 0 24 false 0 0 0 0, .vuFromMx 0 0 false 0 16 0 0, .vuFromMx 0 0 false 0 0 16
      0, .loadm 32 0, .loadm 0 256, .loadmComplete 32 0 [], .loadmComplete 0 256 [], .swapPlanes 32 0, .swapPlanes 0 256,
      .swapat 32 0 0, .swapat 0 256 0, .swapat 0 0 16, .signal 32 0 0, .signal 0 32 0, .signal 0 0 256, .waitf 32 0 0,
      .waitf 0 256 0, .waitf 0 0 256, .coll 32 0, .coll 0 16, .milepost 32 0, .seqEnd 32, .badInstructionFetch 32,
      .edgeConvert 768, .splitStallEnd 768, .tileRecordArrive 768, .outriderDelivery 768, .groupCloseComplete 768 0,
      .groupCloseComplete 0 16, .accAbandon 768 0, .accAbandon 0 16, .planeWrite 768 0 0 0 [], .planeWrite 0 34 0 0 [],
      .planeWrite 0 0 2 0 [], .planeWrite 0 0 0 0 [256], .drainEnd 768 0, .drainEnd 0 34, .teamSwapGo 768 0, .teamSwapGo 0 2] : List Instr).all (fun i => !wellFormed i) = true := by decide +kernel

theorem test_ill_formed_4 :
    ([.teamStop 768 false, .teamCntFreeze 768 false, .sampleDue 768 0, .sampleDue 0 32, .forcedCheck 768 0, .forcedCheck 0
      32, .checkLate 768 0, .checkLate 0 32, .sampleComplete 768 0 [], .sampleComplete 0 32 [], .arbCodeCheckDone 768,
      .arbReferenceDone 768 false, .arbSpareLoadDone 768, .arbSpareRunDone 768 [], .arbNoSpareTimeout 768,
      .outriderSelftestDone 768 false, .outrSample 768 0, .outrSample 0 32, .outrSelftest 768, .outrRefGo 768 0,
      .referenceRunDone 768, .rotationVisit 768, .calLate 768, .calRequest 768 0, .calRequest 0 34, .calAbandon 768,
      .calHold 768 false, .takeoverCopyDone 768, .takeoverMove 768, .calGateDone 768 0 0, .calFitDone 768 [] 0 0 [] [],
      .statsShadowEnd 768, .slewStep 768 0, .slewStep 0 34, .dailyTrimRecord 768 0, .dailyTrimRecord 0 34,
      .pendingRetireComplete 768, .farrRemap 768 0 0, .farrRemap 0 34 0, .farrRemap 0 0 256, .farrRetire 768 0, .farrRetire
      0 34, .farrReadmit 768 0, .farrReadmit 0 34, .farrNvRetry 768 false, .boostSwitch 33, .voltMonitorTrip 17 false 0,
      .droopTrip 33 0, .stretchEnd 33, .regionRestart 33, .adcConversionDone 53 0 false, .adcConversionDone 0 16384 false,
      .adcOpenTest 24 0 0, .adcUrgentGo 53, .msixIntervalEnd 33 0, .msixIntervalEnd 0 64, .vfFlr 0, .vfFlr 33,
      .pciCompletionTimeout 33 0, .atsInvalidation 33 0 0] : List Instr).all (fun i => !wellFormed i) = true := by decide +kernel

theorem test_ill_formed_5 :
    ([.quiesceComplete 32 0 [], .quiesceComplete 0 0 [256], .volzPartial 32, .volzPullComplete false [256], .loadGo 33 0,
      .loadAbort 33 0 [], .loadAbort 0 0 [256], .loadDescArrive 33 false [], .loadDescArrive 0 false [256],
      .loadMoveComplete 33 false [], .loadMoveComplete 0 false [256], .remoteTierWaitExpire 32 false 0, .relayChunkReceive 6
      0 0 0 [] false, .relayChunkReceive 0 0 0 0 [256] false, .relayRxTimeout 33 0 0, .relayAckTimeout 33, .groomNearBound
      768 0, .groomNearBound 0 34, .groomLapLate 768, .heldPlaneReloaded 768 0 0, .heldPlaneReloaded 0 34 0,
      .heldPlaneReloaded 0 0 2, .sweepGo 4 0, .sweepGo 0 4, .sweepAbort 4 0, .sweepComplete 4, .kvHostAreaWrite 32 0 0,
      .kvHostAreaWrite 0 3 0, .flitReceive 6 [] [] 0, .flitReceive 0 [256] [] 0, .nakReceived 6 0, .laneFail 6 0, .laneFail
      0 34, .laserLow 6, .trainingAttemptEnd 6 [] false none, .downLightCheck 6 false, .portAutoReadmit 6, .linkRetrain 6,
      .linkDark 6 false, .cwayOpen 3, .cwayClose 3, .cwayConfirm 3, .cwayConfirmTimeout 3, .helloSend 6, .hello 6 false hdr
      [], .hello 0 false hdr [256], .ack 6 false hdr 0, .revoke 6 false hdr 0 0 0, .revoke 0 false hdr 65536 0 0, .revoked 6
      false hdr 0 0 0, .revoked 0 false hdr 65536 0 0, .readmit 6 false hdr 0 0 0 0, .readmit 0 false hdr 65536 0 0 0,
      .linkState 6 false hdr 0 0 0 0, .linkState 0 false hdr 65536 0 0 0, .linkState 0 false hdr 0 256 0 0, .waySync 6 false
      hdr 0 0 0, .wayReply 6 false hdr 0 0 0 0 0 0 0 0, .waySyncSend 6 0, .collStep 6 false hdr 0 0 0 0 0 0] : List Instr).all (fun i => !wellFormed i) = true := by decide +kernel

theorem test_ill_formed_6 :
    ([.collStep 0 false hdr 0 0 2 0 0 0, .collAck 6 false hdr 0 0 0, .collAck 0 false hdr 0 0 2, .collAbort 6 false hdr 0 0
      0 0, .collAbort 0 false hdr 0 0 256 0, .collAbort 0 false hdr 0 0 0 65536, .collStepResend 32 0 0, .collStepResend 0 0
      2, .collTimeout 32 0, .relayStart 6 false hdr 0 0 0 0 0 0, .relayEnd 6 false hdr 0 0, .relayAck 6 false hdr 0 0,
      .expertCall 6 false hdr 0 0 0 0 0 0 0, .expertDone 6 false hdr 0 0 0, .dataPacketReceive 6 0 0 0 0 0 0 [],
      .dataPacketReceive 0 0 0 0 0 0 0 [256], .torRevoke 65536, .torReadmit 256, .nvWrite 5, .nvErase 5, .nvSetTrial 5,
      .nvClearTrial 5, .nvCommandComplete false [256], .secCommandComplete false [256], .lockstepMismatch 2, .tileIftDue 768
      0, .tileIftDue 0 34, .iftDeferExpire 768 none, .tileIftComplete 768 0 0, .tileIftComplete 0 34 0, .teamTestDue 768,
      .teamTestComplete 768 0, .digestDue 32 0, .digestDue 0 256, .digestComplete 32 0, .digestComplete 0 256, .getAttest
      (mlHdr 0 []) [256], .nvBegin (mlHdr 0 []) 0 5 0, .nvChunk (mlHdr 0 []) 0 [256], .mgmtRevoke (mlHdr 0 []) 65536 0,
      .tapUnlock [256], .tapAccess 4 0 0 0, .tapAccess 0 16 0 0, .tapAccess 0 0 (2 ^ 32) 0, .tapAccess 0 0 0 (2 ^ 64),
      .dbgUnlock false [256], .dbgClockStop 33, .dbgClockRun 33, .runctlHalt 872, .runctlResume 872, .runctlStep 872,
      .traceTrigInEdge 16, .dumpArm 16, .dumpDisarm 16, .trainingTimeLimit 6] : List Instr).all (fun i => !wellFormed i) = true := by decide +kernel

/-! ### Values of the specification's examples -/

/-- 00_scope.md, the example of R1: team 437's window starts at 0x016D_4000. -/
theorem test_team_window : (Reg.teamCtrlCntFreeze.team 437).addr / 0x4000 * 0x4000 = 0x016D4000 := by decide +kernel

/-- 03_time_domain_arrays.md: 1,024 rows run in class 4, 41 in class 0, 287 in class 3; a floor of 4 lifts 300 rows to 4. -/
theorem test_row_class : (rowClass 1024 0, rowClass 41 0, rowClass 287 0, rowClass 300 4) = (4, 0, 3, 4) := by decide +kernel

/-- 03_time_domain_arrays.md, R55: the sign and magnitude of a weight, and 0x8 as zero. -/
theorem test_s4 : (s4 7, s4 15, s4 8, s4 11) = (7, -7, 0, -3) := by decide +kernel

/-- 03_time_domain_arrays.md, the example of a full-scale vector: 6,720 saturates at 4,095, 480 does not. -/
theorem test_code : (codeOf 6720, codeOf 480, codeOf (-4096)) = ((4095, true), (480, false), (-4095, true)) := by decide +kernel

/-- 05_calibration_and_repair.md, the example of R118: DELAY_EFF of tile 14 at 71.5 °C is −210. -/
theorem test_trim_now : trimNow (-152) (-98) (62 * 16) (143 / 2 * 16) = -210 := by decide +kernel

/-- 06_formats_and_accumulation.md, the example of MX output: 448 is 0x7E in E4M3, and the emax of E4M3 is 8. -/
theorem test_mx_largest : (mxElem 0 0x7E).rat = 448 ∧ mxLargest 0 = 448 ∧ mxEmax 0 = 8 := by decide +kernel

/-- 10_weights_and_memory_tiers.md, the example of block 1,037: one flipped bit, and a syndrome that reads as another. -/
theorem test_block_verdict : (blockVerdict 0x00200400, blockVerdict 0x02000008) = (.ceData 10 5, .ceData 3 9) := by decide +kernel

/-- 05_calibration_and_repair.md, the example of R111: stamps of 1,187.125 and 780.25 LSB give code 402, and 407 uncorrected. -/
theorem test_corrected_difference :
    (correctedDiff { gain := [(34, -782), (35, -522)], offset := [(34, 76), (35, 45)] } 17 9497 6242, correctedDiff {} 17 9497 6242) =
      (402, 407) := by decide +kernel

/-- 06_formats_and_accumulation.md, the example of MX output: 460 and 0.0009 in E4M3 count one saturation and one underflow. -/
theorem test_mx_block : mxBlock 0 0 [.fin false 460, .fin false (9 / 10000)] = (0x7F, [0x7E, 0], 1, 1) := by decide +kernel

/-- 10_weights_and_memory_tiers.md, the example of block 1,037: data bit 165, bit 5 of byte 20, gives the syndrome 0x00200400. -/
theorem test_check_word : checkWord ((zeros 32).set 20 32) = 0x00200400 := by decide +kernel

/-- R13: from row 0, column 0 to row 2, column 4 both ways round are equal in each dimension, so both indexes rise, columns first. -/
theorem test_turnpike_route : (turnpikeRoute 0 24, turnpikeRoute 0 14) = ([0, 2, 4, 6, 8, 9, 24], [0, 14]) := by decide +kernel

/-- R15: three DATA lines for one BULK line while both wait, and CTRL before either. -/
theorem test_turnpike_shares :
    ([0, 1, 2, 3].map (fun k => ({ run := k } : OutArb).cls false true true), ({} : OutArb).cls true true true) =
      ([some clsData, some clsData, some clsData, some clsBulk], some clsCtrl) := by decide +kernel

/-- 14_power_thermal_and_ageing.md, the example of R409: a plan value of 3.20 % gives 14.68 ns and 64.0 % of life. -/
theorem test_ageing : (windowTarget 320, lifeOf [(18, 320)]) = (1468, 640) := by decide +kernel

/-! ### Small steps -/

/-- What a next state holds. -/
def after (o : Host.Outcome State Fault Refusal) (p : State → Bool) : Bool :=
  match o with
  | .next t => p t
  | _ => false

/-- R424: 999 ns of PERST_N low is ignored, 1,000 ns resets. -/
theorem test_perst : after (exec (.perstNAssert 999) serving) (fun t => t.stage == stReady) = true ∧
    after (exec (.perstNAssert 1000) serving) (fun t => t.stage == stPor) = true := by decide +kernel

/-- R233: a command that the slot's state does not list changes no state of the slot. -/
theorem test_pause_free : after (exec (.pause 0) serving) (fun t => (t.slot 0).st == .free) = true := by decide +kernel

/-- R184: ADDA adds a signed immediate to one address register and wraps in 64 bits. -/
theorem test_adda : after (exec (.adda 0 1 (-65)) running) (fun t => (t.seq 0).a 1 == 2 ^ 64 - 1 && (t.seq 0).a 2 == 128) = true := by
  decide +kernel

/-- R298: a causeway one of whose ports has a policy other than UNUSED opens, and is open when the switch confirms; one of two UNUSED ports stays closed. -/
theorem test_causeway : after (exec (.cwayOpen 2) { serving with volz := { running := onePart.running ++ [⟨4, 1, pkgScope, 0, [], zeros 128 ++ [1], false⟩] } }) (fun t => t.cway 2 == cwOpening) = true ∧
    after (exec (.cwayConfirm 2) (serving.setCway 2 cwOpening)) (fun t => t.cway 2 == cwOpen) = true ∧
    after (exec (.cwayOpen 2) serving) (fun t => t.cway 2 == cwClosed) = true := by decide +kernel

/-- R368: at 40 mV below a set point of 700 mV a droop stretches its region alone; 1 mV higher it does not. -/
theorem test_droop :
    ([660, 661].map (fun mv => after (exec (.droopTrip 3 mv) { power := { rails := [(0, { setpoint := 700000 })] } }) (fun t =>
      (t.region 3).stretched && !(t.region 4).stretched))) = [true, false] := by decide +kernel

/-- R372: after READY a set is refused. -/
theorem test_way_set : after (exec .waySet serving) (fun t => t.now == serving.now && t.fget Reg.wayErrSetRefused == 1) = true := by
  decide +kernel

end Sys2Proof.Tests
end

section
/-!
SUPPORT. What each operation of the model leaves alone: the queue of waiting commands in every operation, memory in every one
that writes no byte of it. One lemma per definition, in the order of the definitions.
-/
set_option Elab.async false
namespace Sys2Proof.Machine

@[simp] theorem State.pending_ite (c : Prop) [Decidable c] (s t : State) :
    (if c then s else t).pending = if c then s.pending else t.pending := apply_ite State.pending c s t

@[simp] theorem State.mem_ite (c : Prop) [Decidable c] (s t : State) :
    (if c then s else t).mem = if c then s.mem else t.mem := apply_ite State.mem c s t

@[simp] theorem snd_ite {α β : Type} (c : Prop) [Decidable c] (p q : α × β) :
    (if c then p else q).2 = if c then p.2 else q.2 := apply_ite Prod.snd c p q

@[simp] theorem State.each_pending {α : Type} {f : State → α → State} (h : ∀ s x, (f s x).pending = s.pending)
    (s : State) (xs : List α) : (s.each xs f).pending = s.pending := s.each_keeps State.pending f h xs

@[simp] theorem State.each_mem {α : Type} {f : State → α → State} (h : ∀ s x, (f s x).mem = s.mem)
    (s : State) (xs : List α) : (s.each xs f).mem = s.mem := s.each_keeps State.mem f h xs

@[simp] theorem completes_next (t : State) (P : State → Prop) : Completes (.next t) P ↔ P t := by
  simp [Completes]

@[simp] theorem completes_ite (c : Prop) [Decidable c] (o p : Host.Outcome State Fault Refusal) (P : State → Prop) :
    Completes (if c then o else p) P ↔ if c then Completes o P else Completes p P := by
  split <;> rfl

/-- A fold whose step keeps the queue and memory keeps them. -/
theorem State.each_quiet {α : Type} {f : State → α → State}
    (h : ∀ s x, (f s x).pending = s.pending ∧ (f s x).mem = s.mem) (s : State) (xs : List α) :
    (s.each xs f).pending = s.pending ∧ (s.each xs f).mem = s.mem :=
  ⟨State.each_pending (fun s x => (h s x).1) s xs, State.each_mem (fun s x => (h s x).2) s xs⟩

/-- What every step of a fold keeps, the fold keeps. -/
theorem foldl_keeps {α β γ : Type} (P : β → γ) {f : β → α → β} (h : ∀ b x, P (f b x) = P b) (xs : List α) (b : β) :
    P (xs.foldl f b) = P b := by
  induction xs generalizing b with
  | nil => rfl
  | cons x xs ih => rw [List.foldl_cons, ih, h]

theorem Completes.mono {o : Host.Outcome State Fault Refusal} {P Q : State → Prop} (h : Completes o P) (hq : ∀ t, P t → Q t) :
    Completes o Q := by
  obtain ⟨t, ht, hp⟩ := h
  exact ⟨t, ht, hq t hp⟩

theorem Completes.left {o : Host.Outcome State Fault Refusal} {P Q : State → Prop} (h : Completes o (fun t => P t ∧ Q t)) :
    Completes o P := h.mono fun _ hp => hp.1

/-- What holds of the state that a command completes in holds of the state taken from its outcome. -/
theorem Completes.outState {o : Host.Outcome State Fault Refusal} {P : State → Prop} (h : Completes o P) (s : State) :
    P (outState s o) := by
  obtain ⟨t, rfl, hp⟩ := h
  exact hp

/-- `State.each_pending` with the state after the step as a variable: where the step holds a condition on numbers, the kernel
would evaluate it to compare the two spellings of that state. -/
theorem State.each_pending_of_step {α : Type} {f : State → α → State} (h : ∀ s x t, f s x = t → t.pending = s.pending)
    (s : State) (xs : List α) : (s.each xs f).pending = s.pending := State.each_pending (fun s x => h s x _ rfl) s xs

/-- `State.each_quiet` with the state after the step as a variable. -/
theorem State.each_quiet_of_step {α : Type} {f : State → α → State}
    (h : ∀ s x t, f s x = t → t.pending = s.pending ∧ t.mem = s.mem) (s : State) (xs : List α) :
    (s.each xs f).pending = s.pending ∧ (s.each xs f).mem = s.mem := State.each_quiet (fun s x => h s x _ rfl) s xs

/-! ### Ops -/

@[simp] theorem State.bumpTeam_keeps (s : State) (t : Nat) (f : Fld) (n : Nat) :
    (s.bumpTeam t f n).pending = s.pending ∧ (s.bumpTeam t f n).mem = s.mem := by
  simp [State.bumpTeam]

@[simp] theorem State.bumpTile_keeps (s : State) (t k : Nat) (f : Fld) (n : Nat) :
    (s.bumpTile t k f n).pending = s.pending ∧ (s.bumpTile t k f n).mem = s.mem := by
  simp [State.bumpTile]

@[simp] theorem State.writeWord_pending (s : State) (a v : Nat) :
    (s.writeWord a v).pending = s.pending := by
  simp [State.writeWord]

@[simp] theorem State.charge_keeps (s : State) (m : Nat) (bulk : Bool) (n : Nat) (rs : List Nat) :
    (s.charge m bulk n rs).pending = s.pending ∧ (s.charge m bulk n rs).mem = s.mem := by
  simp [State.charge]

@[simp] theorem State.setFnCfg_keeps (s : State) (fn : Nat) (c : FnCfg) :
    (s.setFnCfg fn c).pending = s.pending ∧ (s.setFnCfg fn c).mem = s.mem := by
  simp [State.setFnCfg]

@[simp] theorem State.vecRelease_keeps (s : State) (fn vec : Nat) :
    (s.vecRelease fn vec).pending = s.pending ∧ (s.vecRelease fn vec).mem = s.mem := by
  simp [State.vecRelease]

@[simp] theorem State.raiseVec_keeps (s : State) (fn vec : Nat) :
    (s.raiseVec fn vec).pending = s.pending ∧ (s.raiseVec fn vec).mem = s.mem := by
  simp [State.raiseVec]

@[simp] theorem State.partEvent_keeps (s : State) (p : Nat) :
    (s.partEvent p).pending = s.pending ∧ (s.partEvent p).mem = s.mem := by
  simp [State.partEvent]

@[simp] theorem State.countOp_keeps (s : State) (x i n : Nat) :
    (s.countOp x i n).pending = s.pending ∧ (s.countOp x i n).mem = s.mem := by
  simp [State.countOp]

@[simp] theorem State.countUnits_keeps (s : State) (x n : Nat) :
    (s.countUnits x n).pending = s.pending ∧ (s.countUnits x n).mem = s.mem := by
  simp [State.countUnits]

@[simp] theorem State.countBeat_keeps (s : State) (rows : Nat) :
    (s.countBeat rows).pending = s.pending ∧ (s.countBeat rows).mem = s.mem := by
  simp [State.countBeat]

@[simp] theorem State.calTrace_keeps (s : State) (t k action : Nat) :
    (s.calTrace t k action).pending = s.pending ∧ (s.calTrace t k action).mem = s.mem := by
  simp [State.calTrace]

/-! ### KvOps -/

@[simp] theorem State.reclaim_keeps (s : State) (p id : Nat) :
    (s.reclaim p id).pending = s.pending ∧ (s.reclaim p id).mem = s.mem := by
  simp [State.reclaim]

@[simp] theorem State.releasePage_keeps (s : State) (p id : Nat) :
    (s.releasePage p id).pending = s.pending ∧ (s.releasePage p id).mem = s.mem := by
  simp [State.releasePage]

@[simp] theorem State.pin_keeps (s : State) (p id : Nat) :
    (s.pin p id).pending = s.pending ∧ (s.pin p id).mem = s.mem := by
  simp [State.pin]

@[simp] theorem State.unpin_keeps (s : State) (p id : Nat) :
    (s.unpin p id).pending = s.pending ∧ (s.unpin p id).mem = s.mem := by
  simp [State.unpin]

@[simp] theorem State.releaseCache_keeps (s : State) (p slot c : Nat) :
    (s.releaseCache p slot c).pending = s.pending ∧ (s.releaseCache p slot c).mem = s.mem := by
  simp [State.releaseCache]

@[simp] theorem State.takeWaits_keeps (s : State) (p slot : Nat) :
    (s.takeWaits p slot).2.pending = s.pending ∧ (s.takeWaits p slot).2.mem = s.mem := by
  simp [State.takeWaits]

@[simp] theorem State.passFrames_keeps (s : State) (p : Nat) (ws : List Waiter) :
    (s.passFrames p ws).pending = s.pending ∧ (s.passFrames p ws).mem = s.mem := by
  simp [State.passFrames]

@[simp] theorem State.leaveWait_keeps (s : State) (p slot : Nat) :
    (s.leaveWait p slot).pending = s.pending ∧ (s.leaveWait p slot).mem = s.mem := by
  simp [State.leaveWait]

@[simp] theorem State.releaseSeq_keeps (s : State) (p slot : Nat) :
    (s.releaseSeq p slot).pending = s.pending ∧ (s.releaseSeq p slot).mem = s.mem := by
  simp [State.releaseSeq]

@[simp] theorem State.abandonTentative_keeps (s : State) (p slot : Nat) :
    (s.abandonTentative p slot).pending = s.pending ∧ (s.abandonTentative p slot).mem = s.mem := by
  unfold State.abandonTentative
  refine State.each_quiet (fun _ _ => State.each_quiet (fun _ _ => ?_) _ _) _ _
  exact ⟨rfl, rfl⟩

@[simp] theorem State.commitCache_keeps (s : State) (p slot c upto : Nat) :
    (s.commitCache p slot c upto).pending = s.pending ∧ (s.commitCache p slot c upto).mem = s.mem := by
  unfold State.commitCache
  refine State.each_quiet (fun _ _ => ?_) _ _
  exact ⟨rfl, rfl⟩

/-! ### GateOps -/

@[simp] theorem State.signalSlot_keeps (s : State) (p g : Nat) :
    (s.signalSlot p g).pending = s.pending ∧ (s.signalSlot p g).mem = s.mem := by
  simp [State.signalSlot]

@[simp] theorem State.enter_keeps (s : State) (p g : Nat) (st : SlotSt) (code : Nat) :
    (s.enter p g st code).pending = s.pending ∧ (s.enter p g st code).mem = s.mem := by
  simp [State.enter]

@[simp] theorem State.endSlot_keeps (s : State) (p g : Nat) (st : SlotSt) (code : Nat) :
    (s.endSlot p g st code).pending = s.pending ∧ (s.endSlot p g st code).mem = s.mem := by
  simp [State.endSlot]

@[simp] theorem State.faultSlot_keeps (s : State) (p g code : Nat) :
    (s.faultSlot p g code).pending = s.pending ∧ (s.faultSlot p g code).mem = s.mem := by
  simp [State.faultSlot]

@[simp] theorem State.releaseDone_keeps (s : State) (p g : Nat) :
    (s.releaseDone p g).pending = s.pending ∧ (s.releaseDone p g).mem = s.mem := by
  simp [State.releaseDone]

@[simp] theorem State.quiesceSlot_keeps (s : State) (p g : Nat) :
    (s.quiesceSlot p g).pending = s.pending ∧ (s.quiesceSlot p g).mem = s.mem := by
  unfold State.quiesceSlot
  split <;> simp

@[simp] theorem State.park_keeps (s : State) (g : Nat) :
    (s.park g).pending = s.pending ∧ (s.park g).mem = s.mem := by
  simp [State.park]

/-! ### Faults -/

@[simp] theorem State.readStatusOf_keeps (s : State) (k : Nat) :
    (s.readStatusOf k).pending = s.pending ∧ (s.readStatusOf k).mem = s.mem := by
  simp [State.readStatusOf]

@[simp] theorem State.mgmtTo_keeps (s : State) (dst : List Nat) (type req : Nat) (body : List Nat) :
    (s.mgmtTo dst type req body).pending = s.pending ∧ (s.mgmtTo dst type req body).mem = s.mem := by
  simp [State.mgmtTo]

@[simp] theorem State.mgmtSend_keeps (s : State) (type : Nat) (body : List Nat) :
    (s.mgmtSend type body).pending = s.pending ∧ (s.mgmtSend type body).mem = s.mem := by
  simp [State.mgmtSend]

@[simp] theorem State.setReports_keeps (s : State) (rs : List Report) :
    (s.setReports rs).pending = s.pending ∧ (s.setReports rs).mem = s.mem := by
  simp [State.setReports]

@[simp] theorem State.reportDropped_keeps (s : State) (id : Nat) :
    (s.reportDropped id).pending = s.pending ∧ (s.reportDropped id).mem = s.mem := by
  simp [State.reportDropped]

@[simp] theorem State.report_keeps (s : State) (r : LogRec) (scope start marked poisoned : Nat) :
    (s.report r scope start marked poisoned).pending = s.pending ∧ (s.report r scope start marked poisoned).mem = s.mem := by
  simp [State.report]

@[simp] theorem State.poisonPages_keeps (s : State) (scope start : Nat) :
    (s.poisonPages scope start).1.pending = s.pending ∧ (s.poisonPages scope start).1.mem = s.mem := by
  unfold State.poisonPages
  refine State.each_quiet (fun _ _ => ?_) _ _
  exact ⟨rfl, rfl⟩

@[simp] theorem State.markSlots_keeps (s : State) (scope start : Nat) :
    (s.markSlots scope start).1.pending = s.pending ∧ (s.markSlots scope start).1.mem = s.mem := by
  unfold State.markSlots
  refine State.each_quiet (fun s e => ?_) _ _
  split <;> simp

@[simp] theorem State.assertFaultN_keeps (s : State) :
    (s.assertFaultN).pending = s.pending ∧ (s.assertFaultN).mem = s.mem := by
  simp [State.assertFaultN]

@[simp] theorem State.keepFaults_keeps (s : State) :
    (s.keepFaults).pending = s.pending ∧ (s.keepFaults).mem = s.mem := by
  simp [State.keepFaults]

@[simp] theorem State.danger_keeps (s : State) (sev cls code source : Nat) (ctx : List Nat) (scope start : Nat) :
    (s.danger sev cls code source ctx scope start).pending = s.pending ∧ (s.danger sev cls code source ctx scope start).mem = s.mem := by
  simp [State.danger]

@[simp] theorem State.teamFault_keeps (s : State) (seq : Bool) (unit cause layer tile group milepost extra : Nat) :
    (s.teamFault seq unit cause layer tile group milepost extra).pending = s.pending ∧ (s.teamFault seq unit cause layer tile group milepost extra).mem = s.mem := by
  simp [State.teamFault]

@[simp] theorem State.stopRegion_keeps (s : State) (r : Nat) :
    (s.stopRegion r).pending = s.pending ∧ (s.stopRegion r).mem = s.mem := by
  simp [State.stopRegion]

@[simp] theorem State.stopAll_keeps (s : State) :
    (s.stopAll).pending = s.pending ∧ (s.stopAll).mem = s.mem := by
  simp [State.stopAll]

@[simp] theorem State.startRegion_keeps (s : State) (r cause : Nat) :
    (s.startRegion r cause).pending = s.pending ∧ (s.startRegion r cause).mem = s.mem := by
  simp [State.startRegion]

@[simp] theorem State.aerReport_keeps (s : State) (fn sev : Nat) :
    (s.aerReport fn sev).pending = s.pending ∧ (s.aerReport fn sev).mem = s.mem := by
  simp [State.aerReport]

@[simp] theorem State.pciRecord_keeps (s : State) (sev code fn part addr : Nat) :
    (s.pciRecord sev code fn part addr).pending = s.pending ∧ (s.pciRecord sev code fn part addr).mem = s.mem := by
  simp [State.pciRecord]

@[simp] theorem State.poisonedWrite_keeps (s : State) (fn off : Nat) :
    (s.poisonedWrite fn off).pending = s.pending ∧ (s.poisonedWrite fn off).mem = s.mem := by
  simp [State.poisonedWrite]

@[simp] theorem State.translated_keeps (s : State) (fn a : Nat) :
    (s.translated fn a).pending = s.pending ∧ (s.translated fn a).mem = s.mem := by
  simp [State.translated]

@[simp] theorem State.toHost_keeps (s : State) (fn a : Nat) (b : List Nat) :
    (s.toHost fn a b).pending = s.pending ∧ (s.toHost fn a b).mem = s.mem := by
  simp [State.toHost]

/-! ### Memory -/

@[simp] theorem State.softCount_keeps (s : State) (mem : Nat) :
    (s.softCount mem).pending = s.pending ∧ (s.softCount mem).mem = s.mem := by
  simp [State.softCount]

@[simp] theorem State.readBlock_pending (s : State) (source : Nat) (repair : Bool) (blk : Nat) :
    (s.readBlock source repair blk).pending = s.pending := by
  unfold State.readBlock
  dsimp only
  repeat' split
  all_goals simp

@[simp] theorem State.sawLine_keeps (s : State) (y k : Nat) (old : Bool) :
    (s.sawLine y k old).pending = s.pending ∧ (s.sawLine y k old).mem = s.mem := by
  simp [State.sawLine]

@[simp] theorem State.seeLines_keeps (s : State) (y a : Nat) (y3 : List StaleLine) (y4 : List Nat) :
    (s.seeLines y a y3 y4).2.pending = s.pending ∧ (s.seeLines y a y3 y4).2.mem = s.mem := by
  fun_induction State.seeLines with
  | case1 => simp
  | case2 s b x xs _ ih => exact ih
  | case3 s b x xs _ _ d ih => exact ih
  | case4 s b x xs _ _ ih => exact ih

@[simp] theorem State.readFor_pending (s : State) (step : Option Nat) (source a n : Nat) :
    (s.readFor step source a n).2.2.pending = s.pending := by
  unfold State.readFor
  dsimp only
  split <;> simp

@[simp] theorem State.readThrough_pending (s : State) (source a n : Nat) :
    (s.readThrough source a n).2.2.pending = s.pending := by
  simp [State.readThrough]

@[simp] theorem State.mergeBlock_pending (s : State) (source a n blk : Nat) :
    (s.mergeBlock source a n blk).pending = s.pending := by
  unfold State.mergeBlock
  repeat' split
  all_goals simp

@[simp] theorem State.writeLive_pending (s : State) (a : Nat) (y2 : List Nat) :
    (s.writeLive a y2).pending = s.pending := by
  fun_induction State.writeLive <;> simp_all

@[simp] theorem State.writeThrough_pending (s : State) (source a : Nat) (b : List Nat) :
    (s.writeThrough source a b).pending = s.pending := by
  simp [State.writeThrough]

@[simp] theorem State.hostWrite_pending (s : State) (a : Nat) (b : List Nat) :
    (s.hostWrite a b).pending = s.pending := by
  simp [State.hostWrite]

/-! ### Torus -/

@[simp] theorem State.showIncs_keeps (s : State) :
    (s.showIncs).pending = s.pending ∧ (s.showIncs).mem = s.mem := by
  unfold State.showIncs
  refine State.each_quiet (fun _ _ => ?_) _ _
  exact ⟨rfl, rfl⟩

@[simp] theorem State.unroutable_keeps (s : State) (dst : Nat) :
    (s.unroutable dst).pending = s.pending ∧ (s.unroutable dst).mem = s.mem := by
  simp [State.unroutable]

@[simp] theorem State.torusRecord_keeps (s : State) (sev code pos port lane inc value : Nat) :
    (s.torusRecord sev code pos port lane inc value).pending = s.pending ∧ (s.torusRecord sev code pos port lane inc value).mem = s.mem := by
  simp [State.torusRecord]

@[simp] theorem State.sendFlit_keeps (s : State) (p : Nat) (f : Flit) :
    (s.sendFlit p f).pending = s.pending ∧ (s.sendFlit p f).mem = s.mem := by
  simp [State.sendFlit]

@[simp] theorem State.answerFlit_keeps (s : State) (p : Nat) (nak : Bool) :
    (s.answerFlit p nak).pending = s.pending ∧ (s.answerFlit p nak).mem = s.mem := by
  simp [State.answerFlit]

@[simp] theorem State.giveIdle_keeps (s : State) (p : Nat) :
    (s.giveIdle p).pending = s.pending ∧ (s.giveIdle p).mem = s.mem := by
  simp [State.giveIdle]

@[simp] theorem State.takeCredit_keeps (s : State) (p : Nat) (k : Packet) :
    (s.takeCredit p k).2.pending = s.pending ∧ (s.takeCredit p k).2.mem = s.mem := by
  unfold State.takeCredit
  split <;> simp

@[simp] theorem State.transmit_keeps (s : State) (p : Nat) (k : Packet) :
    (s.transmit p k).pending = s.pending ∧ (s.transmit p k).mem = s.mem := by
  simp [State.transmit]

@[simp] theorem State.moveLine_keeps (s : State) (p : Nat) (k : Packet) (arb : OutArb) :
    (s.moveLine p k arb).pending = s.pending ∧ (s.moveLine p k arb).mem = s.mem := by
  simp [State.moveLine]

@[simp] theorem State.pump_keeps (s : State) (p y2 : Nat) :
    (s.pump p y2).pending = s.pending ∧ (s.pump p y2).mem = s.mem := by
  fun_induction State.pump <;> simp_all

@[simp] theorem State.drainPort_keeps (s : State) (p : Nat) :
    (s.drainPort p).pending = s.pending ∧ (s.drainPort p).mem = s.mem := by
  simp [State.drainPort]

@[simp] theorem State.enqueue_keeps (s : State) (p : Nat) (k : Packet) :
    (s.enqueue p k).pending = s.pending ∧ (s.enqueue p k).mem = s.mem := by
  simp [State.enqueue]

@[simp] theorem State.passOn_keeps (s : State) (q p : Nat) (k : Packet) :
    (s.passOn q p k).pending = s.pending ∧ (s.passOn q p k).mem = s.mem := by
  simp [State.passOn]

@[simp] theorem State.forward_keeps (s : State) (p : Nat) (k : Packet) :
    (s.forward p k).pending = s.pending ∧ (s.forward p k).mem = s.mem := by
  unfold State.forward
  split <;> simp

@[simp] theorem State.sendOn_keeps (s : State) (p type : Nat) (h : CtrlHdr) (body : List Nat) :
    (s.sendOn p type h body).pending = s.pending ∧ (s.sendOn p type h body).mem = s.mem := by
  simp [State.sendOn]

@[simp] theorem State.takeSeq_keeps (s : State) (u : Nat) :
    (s.takeSeq u).2.pending = s.pending ∧ (s.takeSeq u).2.mem = s.mem := by
  simp [State.takeSeq]

@[simp] theorem State.sendPeer_keeps (s : State) (p type : Nat) (body : List Nat) :
    (s.sendPeer p type body).pending = s.pending ∧ (s.sendPeer p type body).mem = s.mem := by
  simp [State.sendPeer]

@[simp] theorem State.addUnacked_keeps (s : State) (u : Unacked) :
    (s.addUnacked u).pending = s.pending ∧ (s.addUnacked u).mem = s.mem := by
  simp [State.addUnacked]

@[simp] theorem State.sendTo_keeps (s : State) (dst part type purpose : Nat) (ackReq : Bool) (body : List Nat) :
    (s.sendTo dst part type purpose ackReq body).pending = s.pending ∧ (s.sendTo dst part type purpose ackReq body).mem = s.mem := by
  unfold State.sendTo
  dsimp only
  repeat' split
  all_goals simp

@[simp] theorem State.flood_keeps (s : State) (type : Nat) (h : CtrlHdr) (but : Option Nat) (body : List Nat) :
    (s.flood type h but body).pending = s.pending ∧ (s.flood type h but body).mem = s.mem := by
  simp [State.flood]

@[simp] theorem State.floodNew_keeps (s : State) (type : Nat) (body : List Nat) :
    (s.floodNew type body).pending = s.pending ∧ (s.floodNew type body).mem = s.mem := by
  simp [State.floodNew]

@[simp] theorem State.sendHello_keeps (s : State) (p : Nat) :
    (s.sendHello p).pending = s.pending ∧ (s.sendHello p).mem = s.mem := by
  simp [State.sendHello]

@[simp] theorem State.floodLinkState_keeps (s : State) (p : Nat) :
    (s.floodLinkState p).pending = s.pending ∧ (s.floodLinkState p).mem = s.mem := by
  simp [State.floodLinkState]

@[simp] theorem State.withRev_pending {f : State → State} (h : ∀ s, (f s).pending = s.pending) (s : State) (r : Rev) :
    (s.withRev r f).pending = s.pending := by
  simp [State.withRev, h]

@[simp] theorem State.withRev_mem {f : State → State} (h : ∀ s, (f s).mem = s.mem) (s : State) (r : Rev) :
    (s.withRev r f).mem = s.mem := by
  simp [State.withRev, h]

@[simp] theorem State.showRev_keeps (s : State) :
    (s.showRev).pending = s.pending ∧ (s.showRev).mem = s.mem := by
  unfold State.showRev
  split <;> simp

@[simp] theorem State.enterRev_keeps (s : State) (r : Rev) :
    (s.enterRev r).pending = s.pending ∧ (s.enterRev r).mem = s.mem := by
  fun_cases State.enterRev <;> simp

@[simp] theorem State.dropRevs_keeps (s : State) (f : Rev → Bool) :
    (s.dropRevs f).pending = s.pending ∧ (s.dropRevs f).mem = s.mem := by
  simp [State.dropRevs]

@[simp] theorem State.revokeOwn_keeps (s : State) (u : Nat) :
    (s.revokeOwn u).pending = s.pending ∧ (s.revokeOwn u).mem = s.mem := by
  simp [State.revokeOwn]

@[simp] theorem State.tellRevs_keeps (s : State) (p : Nat) :
    (s.tellRevs p).pending = s.pending ∧ (s.tellRevs p).mem = s.mem := by
  unfold State.tellRevs
  split
  · simp
  · refine State.each_quiet (fun s e => ?_) _ _
    split
    · split <;> simp
    · simp

@[simp] theorem State.readmitOwn_keeps (s : State) (u : Nat) :
    (s.readmitOwn u).pending = s.pending ∧ (s.readmitOwn u).mem = s.mem := by
  simp [State.readmitOwn]

@[simp] theorem State.raiseFlag_keeps (s : State) (x flag by_ : Nat) :
    (s.raiseFlag x flag by_).pending = s.pending ∧ (s.raiseFlag x flag by_).mem = s.mem := by
  simp [State.raiseFlag]

@[simp] theorem State.endColl_pending (s : State) (c : Coll) (code port pos : Nat) :
    (s.endColl c code port pos).pending = s.pending := by
  simp [State.endColl]

@[simp] theorem State.abortColls_pending (s : State) (step : Nat) :
    (s.abortColls step).pending = s.pending := by
  simp [State.abortColls]

@[simp] theorem State.dropCalls_keeps (s : State) (step : Nat) :
    (s.dropCalls step).pending = s.pending ∧ (s.dropCalls step).mem = s.mem := by
  simp [State.dropCalls]

/-! ### Steps -/

@[simp] theorem State.showGroup_keeps (s : State) (t g : Nat) :
    (s.showGroup t g).pending = s.pending ∧ (s.showGroup t g).mem = s.mem := by
  simp [State.showGroup]

@[simp] theorem State.setGroup_keeps (s : State) (t g : Nat) (x : Group) :
    (s.setGroup t g x).pending = s.pending ∧ (s.setGroup t g x).mem = s.mem := by
  simp [State.setGroup]

@[simp] theorem State.abandonGroup_keeps (s : State) (t g : Nat) :
    (s.abandonGroup t g).pending = s.pending ∧ (s.abandonGroup t g).mem = s.mem := by
  simp [State.abandonGroup]

@[simp] theorem State.abandonGroups_keeps (s : State) (id t : Nat) :
    (s.abandonGroups id t).pending = s.pending ∧ (s.abandonGroups id t).mem = s.mem := by
  simp [State.abandonGroups]

@[simp] theorem State.showWait_keeps (s : State) (u reason detail on since : Nat) :
    (s.showWait u reason detail on since).pending = s.pending ∧ (s.showWait u reason detail on since).mem = s.mem := by
  simp [State.showWait]

@[simp] theorem State.seqWait_keeps (s : State) (x : Nat) (w : Option (Nat × Nat × Nat)) :
    (s.seqWait x w).pending = s.pending ∧ (s.seqWait x w).mem = s.mem := by
  unfold State.seqWait
  split <;> simp

@[simp] theorem State.stopWait_keeps (s : State) (x : Nat) :
    (s.stopWait x).pending = s.pending ∧ (s.stopWait x).mem = s.mem := by
  simp [State.stopWait]

/-! ### Arrays -/

@[simp] theorem State.stamps_keeps (s : State) (t k x phys : Nat) (sums : Nat × Nat) :
    (s.stamps t k x phys sums).2.pending = s.pending ∧ (s.stamps t k x phys sums).2.mem = s.mem := by
  simp [State.stamps]

@[simp] theorem State.difference_keeps (s : State) (f : BeatFaults) (t k x : Nat) (sums : Nat × Nat) (c : Nat) :
    (s.difference f t k x sums c).2.pending = s.pending ∧ (s.difference f t k x sums c).2.mem = s.mem := by
  unfold State.difference
  repeat' split
  all_goals simp

@[simp] theorem State.differences_keeps (s : State) (f : BeatFaults) (t k x plane : Nat) (p : Pulse) (y7 : List Nat) :
    (s.differences f t k x plane p y7).2.pending = s.pending ∧ (s.differences f t k x plane p y7).2.mem = s.mem := by
  induction y7 generalizing s with
  | nil => simp [State.differences]
  | cons c cs ih => simp [State.differences, ih]

@[simp] theorem State.evaluate_keeps (s : State) (f : BeatFaults) (t k : Nat) (p : Pulse) :
    (s.evaluate f t k p).2.pending = s.pending ∧ (s.evaluate f t k p).2.mem = s.mem := by
  simp [State.evaluate]

/-! ### Flags -/

@[simp] theorem State.showTile_keeps (s : State) (t k : Nat) :
    (s.showTile t k).pending = s.pending ∧ (s.showTile t k).mem = s.mem := by
  simp [State.showTile]

@[simp] theorem State.showRoles_keeps (s : State) (t : Nat) :
    (s.showRoles t).pending = s.pending ∧ (s.showRoles t).mem = s.mem := by
  unfold State.showRoles
  refine State.each_quiet (fun _ _ => ?_) _ _
  exact ⟨rfl, rfl⟩

@[simp] theorem State.showFarrier_keeps (s : State) (t : Nat) :
    (s.showFarrier t).pending = s.pending ∧ (s.showFarrier t).mem = s.mem := by
  simp [State.showFarrier]

@[simp] theorem State.showTracking_keeps (s : State) (t : Nat) :
    (s.showTracking t).pending = s.pending ∧ (s.showTracking t).mem = s.mem := by
  simp [State.showTracking]

@[simp] theorem State.showTeam_keeps (s : State) (t : Nat) :
    (s.showTeam t).pending = s.pending ∧ (s.showTeam t).mem = s.mem := by
  simp [State.showTeam]

@[simp] theorem State.settleStop_keeps (s : State) (t : Nat) :
    (s.settleStop t).pending = s.pending ∧ (s.settleStop t).mem = s.mem := by
  simp [State.settleStop]

/-! ### StepRuns -/

@[simp] theorem State.dropTeamWork_keeps (s : State) (id t : Nat) :
    (s.dropTeamWork id t).pending = s.pending ∧ (s.dropTeamWork id t).mem = s.mem := by
  simp [State.dropTeamWork]

@[simp] theorem State.swapPlaces_keeps (s : State) (ps : List Place) (back : Bool) :
    (s.swapPlaces ps back).pending = s.pending ∧ (s.swapPlaces ps back).mem = s.mem := by
  simp [State.swapPlaces]

@[simp] theorem State.claim_keeps (s : State) (ps : List Place) (v : Nat) :
    (s.claim ps v).pending = s.pending ∧ (s.claim ps v).mem = s.mem := by
  unfold State.claim
  refine State.each_quiet (fun _ _ => ?_) _ _
  exact ⟨rfl, rfl⟩

@[simp] theorem State.dropExpert_keeps (s : State) (x : Nat) (h : List Nat) (r : ExpertRun) :
    (s.dropExpert x h r).pending = s.pending ∧ (s.dropExpert x h r).mem = s.mem := by
  simp [State.dropExpert]

@[simp] theorem State.dropExperts_keeps (s : State) (id x : Nat) :
    (s.dropExperts id x).pending = s.pending ∧ (s.dropExperts id x).mem = s.mem := by
  unfold State.dropExperts
  split <;> simp

@[simp] theorem State.releasePins_keeps (s : State) (id : Nat) :
    (s.releasePins id).pending = s.pending ∧ (s.releasePins id).mem = s.mem := by
  unfold State.releasePins
  split <;> simp

@[simp] theorem State.storeInput_pending (s : State) (p x : Nat) (y3 : List (Nat × Nat)) (y4 : List Nat) :
    (s.storeInput p x y3 y4).pending = s.pending := by
  induction y3 generalizing s y4 with
  | nil => simp [State.storeInput]
  | cons c cs ih =>
    rw [State.storeInput, ih]
    exact foldl_keeps (fun a : State × List Nat => a.1.pending) (fun _ _ => State.writeThrough_pending ..) _ _

@[simp] theorem State.loadInput_pending (s : State) (p x : Nat) (cs : List (Nat × Nat)) :
    (s.loadInput p x cs).2.2.pending = s.pending := by
  unfold State.loadInput
  rw [foldl_keeps (fun a : List Nat × Bool × State => a.2.2.pending)]
  intro a k
  simp

@[simp] theorem State.rewindMeans_keeps (s : State) (k : Nat) (t : Step) (before after : SMap Nat) :
    (s.rewindMeans k t before after).pending = s.pending ∧ (s.rewindMeans k t before after).mem = s.mem := by
  simp [State.rewindMeans]

@[simp] theorem State.beginSeq_keeps (s : State) (x : Nat) (t : Step) :
    (s.beginSeq x t).pending = s.pending ∧ (s.beginSeq x t).mem = s.mem := by
  simp [State.beginSeq]

@[simp] theorem State.rebeginSeq_keeps (s : State) (x : Nat) (t : Step) :
    (s.rebeginSeq x t).pending = s.pending ∧ (s.rebeginSeq x t).mem = s.mem := by
  unfold State.rebeginSeq
  split <;> simp

@[simp] theorem State.startSeq_keeps (s : State) (x : Nat) :
    (s.startSeq x).pending = s.pending ∧ (s.startSeq x).mem = s.mem := by
  fun_cases State.startSeq <;> simp

@[simp] theorem State.startSeqs_keeps (s : State) (p : Nat) :
    (s.startSeqs p).pending = s.pending ∧ (s.startSeqs p).mem = s.mem := by
  simp [State.startSeqs]

@[simp] theorem State.showReplay_keeps (s : State) (p : Nat) :
    (s.showReplay p).pending = s.pending ∧ (s.showReplay p).mem = s.mem := by
  unfold State.showReplay
  refine State.each_quiet (fun _ _ => ?_) _ _
  exact ⟨rfl, rfl⟩

@[simp] theorem State.dropSeq_keeps (s : State) (id x : Nat) :
    (s.dropSeq id x).pending = s.pending ∧ (s.dropSeq id x).mem = s.mem := by
  simp [State.dropSeq]

@[simp] theorem State.abandonStep_pending (s : State) (id : Nat) :
    (s.abandonStep id).pending = s.pending := by
  unfold State.abandonStep
  split <;> simp

@[simp] theorem State.parkSeq_keeps (s : State) (id x : Nat) :
    (s.parkSeq id x).pending = s.pending ∧ (s.parkSeq id x).mem = s.mem := by
  simp [State.parkSeq]

@[simp] theorem State.parkStep_pending (s : State) (id : Nat) :
    (s.parkStep id).pending = s.pending := by
  unfold State.parkStep
  split <;> simp

@[simp] theorem State.abandonBoth_pending (s : State) (id : Nat) :
    (s.abandonBoth id).pending = s.pending := by
  unfold State.abandonBoth
  repeat' split
  all_goals simp

@[simp] theorem State.failStepWith_pending (s : State) (id code : Nat) :
    (s.failStepWith id code).pending = s.pending := by
  unfold State.failStepWith
  split <;> simp

@[simp] theorem State.failStep_pending (s : State) (id : Nat) :
    (s.failStep id).pending = s.pending := by
  simp [State.failStep]

@[simp] theorem State.dropCallWork_keeps (s : State) (id x : Nat) :
    (s.dropCallWork id x).pending = s.pending ∧ (s.dropCallWork id x).mem = s.mem := by
  simp [State.dropCallWork]

@[simp] theorem State.endCall_keeps (s : State) (v : Served) (code session : Nat) :
    (s.endCall v code session).pending = s.pending ∧ (s.endCall v code session).mem = s.mem := by
  unfold State.endCall
  dsimp only
  split <;> simp

@[simp] theorem State.faultStep_pending (s : State) (id : Nat) (seq : Bool) (unit cause layer group extra : Nat) :
    (s.faultStep id seq unit cause layer group extra).pending = s.pending := by
  fun_cases State.faultStep <;> simp

@[simp] theorem State.askReplay_keeps (s : State) (p : Nat) :
    (s.askReplay p).pending = s.pending ∧ (s.askReplay p).mem = s.mem := by
  simp [State.askReplay]

@[simp] theorem State.failPartSteps_pending (s : State) (p : Nat) :
    (s.failPartSteps p).pending = s.pending := by
  simp [State.failPartSteps]

/-! ### Accum -/

@[simp] theorem State.setStat_keeps (s : State) (t step loc : Nat) (x : LayerStat) :
    (s.setStat t step loc x).pending = s.pending ∧ (s.setStat t step loc x).mem = s.mem := by
  simp [State.setStat]

@[simp] theorem State.askLayer_keeps (s : State) (step layer : Nat) :
    (s.askLayer step layer).pending = s.pending ∧ (s.askLayer step layer).mem = s.mem := by
  simp [State.askLayer]

@[simp] theorem State.checkLimits_keeps (s : State) (t step loc : Nat) :
    (s.checkLimits t step loc).pending = s.pending ∧ (s.checkLimits t step loc).mem = s.mem := by
  fun_cases State.checkLimits <;> simp

@[simp] theorem State.chargeSat_keeps (s : State) (t step loc n : Nat) (wide : Bool) :
    (s.chargeSat t step loc n wide).pending = s.pending ∧ (s.chargeSat t step loc n wide).mem = s.mem := by
  simp [State.chargeSat]

@[simp] theorem State.chargeOut_keeps (s : State) (t step loc n : Nat) (blocks : List Nat) :
    (s.chargeOut t step loc n blocks).pending = s.pending ∧ (s.chargeOut t step loc n blocks).mem = s.mem := by
  simp [State.chargeOut]

@[simp] theorem State.chargeUfl_keeps (s : State) (t step loc n : Nat) :
    (s.chargeUfl t step loc n).pending = s.pending ∧ (s.chargeUfl t step loc n).mem = s.mem := by
  simp [State.chargeUfl]

@[simp] theorem State.strays_keeps (s : State) (step t n : Nat) :
    (s.strays step t n).pending = s.pending ∧ (s.strays step t n).mem = s.mem := by
  simp [State.strays]

@[simp] theorem State.groupSat_keeps (s : State) (t g : Nat) :
    (s.groupSat t g).pending = s.pending ∧ (s.groupSat t g).mem = s.mem := by
  simp [State.groupSat]

@[simp] theorem State.badScaleFault_pending (s : State) (t step layer g : Nat) :
    (s.badScaleFault t step layer g).pending = s.pending := by
  simp [State.badScaleFault]

@[simp] theorem State.wideAdd_pending (s : State) (t g tile i step : Nat) (v : Rat) (scol : Nat) (sseg : Option Nat) :
    (s.wideAdd t g tile i step v scol sseg).pending = s.pending := by
  simp [State.wideAdd]

@[simp] theorem State.promote_pending (s : State) (t : Nat) (r : Run) :
    (s.promote t r).pending = s.pending := by
  simp [State.promote]

@[simp] theorem State.putRun_keeps (s : State) (t : Nat) (r : Run) :
    (s.putRun t r).pending = s.pending ∧ (s.putRun t r).mem = s.mem := by
  simp [State.putRun]

@[simp] theorem State.dropRun_keeps (s : State) (t acc : Nat) :
    (s.dropRun t acc).pending = s.pending ∧ (s.dropRun t acc).mem = s.mem := by
  simp [State.dropRun]

@[simp] theorem State.startRun_pending (s : State) (t : Nat) (n : Run) (v : Int) :
    (s.startRun t n v).pending = s.pending := by
  simp [State.startRun]

@[simp] theorem State.narrowAdd_pending (s : State) (t : Nat) (n : Run) (v : Int) :
    (s.narrowAdd t n v).pending = s.pending := by
  unfold State.narrowAdd
  split <;> simp

@[simp] theorem State.promoteAll_pending (s : State) (t : Nat) (rs : List Run) :
    (s.promoteAll t rs).pending = s.pending := by
  simp [State.promoteAll]

@[simp] theorem State.flushRuns_pending (s : State) (t : Nat) :
    (s.flushRuns t).pending = s.pending := by
  simp [State.flushRuns]

@[simp] theorem State.addRecord_pending (s : State) (t k plane : Nat) (p : Pulse) (vs : List (Int × Bool)) :
    (s.addRecord t k plane p vs).pending = s.pending := by
  refine State.each_pending (fun s i => ?_) _ _
  split <;> simp

@[simp] theorem State.takeRecord_pending (s : State) (t : Nat) (r : TileRec) :
    (s.takeRecord t r).pending = s.pending := by
  unfold State.takeRecord
  dsimp only
  repeat' split
  all_goals simp

@[simp] theorem State.fillGroup_pending (s : State) (t : Nat) (d : GroupDesc) (word : Nat → Nat) :
    (s.fillGroup t d word).pending = s.pending := by
  unfold State.fillGroup
  refine State.each_pending_of_step (fun s j t ht => ?_) s _
  rw [← ht, State.writeThrough_pending]

@[simp] theorem State.countOpen_keeps (s : State) (t step : Nat) (d : GroupDesc) :
    (s.countOpen t step d).2.pending = s.pending ∧ (s.countOpen t step d).2.mem = s.mem := by
  simp [State.countOpen]

@[simp] theorem State.initGroup_pending (s : State) (p t step : Nat) (d : GroupDesc) :
    (s.initGroup p t step d).pending = s.pending := by
  simp [State.initGroup]

@[simp] theorem State.openGroup_pending (s : State) (p t step : Nat) (d : GroupDesc) :
    (s.openGroup p t step d).pending = s.pending := by
  simp [State.openGroup]

@[simp] theorem State.writeOut_pending (s : State) (p t g : Nat) (x : Group) :
    (s.writeOut p t g x).pending = s.pending := by
  simp [State.writeOut]

@[simp] theorem State.writeTopk_pending (s : State) (p t g : Nat) (x : Group) :
    (s.writeTopk p t g x).pending = s.pending := by
  simp [State.writeTopk]

@[simp] theorem State.closeGroup_pending (s : State) (t g : Nat) :
    (s.closeGroup t g).pending = s.pending := by
  unfold State.closeGroup
  dsimp only
  repeat' split
  all_goals simp

/-! ### Edge -/

@[simp] theorem State.countOverflow_keeps (s : State) (t : Nat) (j : Job) (loc excess : Nat) (l : Layer) :
    (s.countOverflow t j loc excess l).pending = s.pending ∧ (s.countOverflow t j loc excess l).mem = s.mem := by
  simp [State.countOverflow]

@[simp] theorem State.extract_keeps (s : State) (t : Nat) (j : Job) (l : Layer) (loc : Nat) (ps : List Place) (vs : List Rat) :
    (s.extract t j l loc ps vs).2.pending = s.pending ∧ (s.extract t j l loc ps vs).2.mem = s.mem := by
  simp [State.extract]

@[simp] theorem State.skipPhase_keeps (s : State) (t k : Nat) (p : Pulse) :
    (s.skipPhase t k p).pending = s.pending ∧ (s.skipPhase t k p).mem = s.mem := by
  simp [State.skipPhase]

@[simp] theorem State.launch_keeps (s : State) (t : Nat) (j : Job) (l : Layer) (causes : Nat) (e : Int) (part : SegPart) (qs : List (Nat × Bool)) (x : Place) :
    (s.launch t j l causes e part qs x).pending = s.pending ∧ (s.launch t j l causes e part qs x).mem = s.mem := by
  simp [State.launch]

@[simp] theorem State.deliver_keeps (s : State) (t : Nat) (j : Job) (l : Layer) (e : Int) (part : SegPart) (x : Place) :
    (s.deliver t j l e part x).pending = s.pending ∧ (s.deliver t j l e part x).mem = s.mem := by
  simp [State.deliver]

@[simp] theorem State.convertPart_keeps (s : State) (t : Nat) (j : Job) (l : Layer) (loc : Nat) (e : Int) (part : SegPart) :
    (s.convertPart t j l loc e part).pending = s.pending ∧ (s.convertPart t j l loc e part).mem = s.mem := by
  simp [State.convertPart]

@[simp] theorem State.extractAll_keeps (s : State) (t : Nat) (l : Layer) (loc : Nat) (h : List Nat) (y5 : List Job) :
    (s.extractAll t l loc h y5).2.pending = s.pending ∧ (s.extractAll t l loc h y5).2.mem = s.mem := by
  induction y5 generalizing s with
  | nil => simp [State.extractAll]
  | cons c cs ih => simp [State.extractAll, ih]

@[simp] theorem State.nanInput_pending (s : State) (t : Nat) (j : Job) (loc seg : Nat) :
    (s.nanInput t j loc seg).pending = s.pending := by
  simp [State.nanInput]

@[simp] theorem State.edgeConvert_pending (s : State) (t : Nat) :
    (s.edgeConvert t).pending = s.pending := by
  unfold State.edgeConvert
  dsimp only
  repeat' split
  all_goals simp

theorem execEdgeConvert_keeps (t : Nat) (s : State) :
    Completes (execEdgeConvert t s) (fun t => t.pending = s.pending) := by
  simp [execEdgeConvert]

theorem execSplitStallEnd_keeps (t : Nat) (s : State) :
    Completes (execSplitStallEnd t s) (fun t => t.pending = s.pending ∧ t.mem = s.mem) := by
  simp [execSplitStallEnd]

/-! ### Planes -/

@[simp] theorem State.noteCell_keeps (s : State) (t k blk i j : Nat) :
    (s.noteCell t k blk i j).pending = s.pending ∧ (s.noteCell t k blk i j).mem = s.mem := by
  fun_cases State.noteCell <;> simp

@[simp] theorem State.hardPlane_keeps (s : State) (t k blk syn : Nat) :
    (s.hardPlane t k blk syn).pending = s.pending ∧ (s.hardPlane t k blk syn).mem = s.mem := by
  unfold State.hardPlane
  split <;> simp

@[simp] theorem State.readForMerge_keeps (s : State) (t k plane writer : Nat) (e : Nat × Nat) :
    (s.readForMerge t k plane writer e).pending = s.pending ∧ (s.readForMerge t k plane writer e).mem = s.mem := by
  unfold State.readForMerge
  split <;> simp

@[simp] theorem State.mergePlaneBlock_keeps (s : State) (t k plane off n writer : Nat) (e : Nat × Nat) :
    (s.mergePlaneBlock t k plane off n writer e).pending = s.pending ∧ (s.mergePlaneBlock t k plane off n writer e).mem = s.mem := by
  unfold State.mergePlaneBlock
  repeat' split
  all_goals simp

@[simp] theorem State.storePlane_keeps (s : State) (t k : Nat) (w : PlaneWrite) :
    (s.storePlane t k w).pending = s.pending ∧ (s.storePlane t k w).mem = s.mem := by
  simp [State.storePlane]

@[simp] theorem State.planeWrite_keeps (s : State) (t k : Nat) (w : PlaneWrite) :
    (s.planeWrite t k w).pending = s.pending ∧ (s.planeWrite t k w).mem = s.mem := by
  simp [State.planeWrite]

@[simp] theorem State.planeWriteBoth_keeps (s : State) (t k : Nat) (w : PlaneWrite) :
    (s.planeWriteBoth t k w).pending = s.pending ∧ (s.planeWriteBoth t k w).mem = s.mem := by
  simp [State.planeWriteBoth]

@[simp] theorem State.roleWrite_keeps (s : State) (writer t r plane off : Nat) (b : List Nat) :
    (s.roleWrite writer t r plane off b).pending = s.pending ∧ (s.roleWrite writer t r plane off b).mem = s.mem := by
  simp [State.roleWrite]

@[simp] theorem State.flushQueue_keeps (s : State) (t k : Nat) :
    (s.flushQueue t k).pending = s.pending ∧ (s.flushQueue t k).mem = s.mem := by
  simp [State.flushQueue]

@[simp] theorem State.endDrain_keeps (s : State) (t k : Nat) :
    (s.endDrain t k).pending = s.pending ∧ (s.endDrain t k).mem = s.mem := by
  simp [State.endDrain]

@[simp] theorem State.loadIrq_keeps (s : State) (c : Nat) :
    (s.loadIrq c).pending = s.pending ∧ (s.loadIrq c).mem = s.mem := by
  simp [State.loadIrq]

@[simp] theorem State.startReload_pending (s : State) (p t r plane : Nat) :
    (s.startReload p t r plane).pending = s.pending := by
  unfold State.startReload
  split <;> simp

@[simp] theorem State.reloadMarked_pending (s : State) (t k plane : Nat) :
    (s.reloadMarked t k plane).pending = s.pending := by
  fun_cases State.reloadMarked <;> simp

theorem execPlaneWrite_keeps (t k plane off : Nat) (bytes : List Nat) (s : State) :
    Completes (execPlaneWrite t k plane off bytes s) (fun t => t.pending = s.pending ∧ t.mem = s.mem) := by
  simp [execPlaneWrite]

theorem execHeldPlaneReloaded_keeps (t k plane : Nat) (s : State) :
    Completes (execHeldPlaneReloaded t k plane s) (fun t => t.pending = s.pending ∧ t.mem = s.mem) := by
  simp [execHeldPlaneReloaded]

/-! ### Groom -/

@[simp] theorem State.mendBlock_keeps (s : State) (t k plane blk syn : Nat) :
    (s.mendBlock t k plane blk syn).pending = s.pending ∧ (s.mendBlock t k plane blk syn).mem = s.mem := by
  simp [State.mendBlock]

@[simp] theorem State.finding_pending (s : State) (t k plane cls : Nat) (e : Nat × Nat) :
    (s.finding t k plane cls e).pending = s.pending := by
  unfold State.finding
  dsimp only
  repeat' split
  all_goals simp

@[simp] theorem State.findAll_pending (s : State) (t k plane cls : Nat) (hit : Nat → Bool) :
    (s.findAll t k plane cls hit).pending = s.pending := by
  simp [State.findAll]

@[simp] theorem State.outriderReads_pending (s : State) (t k plane : Nat) (rows : List Nat) :
    (s.outriderReads t k plane rows).pending = s.pending := by
  simp [State.outriderReads]

@[simp] theorem State.showLap_keeps (s : State) (t : Nat) :
    (s.showLap t).pending = s.pending ∧ (s.showLap t).mem = s.mem := by
  simp [State.showLap]

@[simp] theorem State.endLap_keeps (s : State) (t : Nat) :
    (s.endLap t).pending = s.pending ∧ (s.endLap t).mem = s.mem := by
  unfold State.endLap
  extract_lets ks ms s1 s2 src s3
  split
  · simp
  · rw [State.each_pending (fun _ _ => by rfl), State.each_mem (fun _ _ => by rfl)]
    simp [s3, s2, s1]

@[simp] theorem State.groomTile_pending (s : State) (t k : Nat) :
    (s.groomTile t k).pending = s.pending := by
  simp [State.groomTile]

@[simp] theorem State.groomBeat_pending (s : State) (t : Nat) (idle : List Nat) :
    (s.groomBeat t idle).pending = s.pending := by
  simp [State.groomBeat]

theorem execGroomNearBound_keeps (t k : Nat) (s : State) :
    Completes (execGroomNearBound t k s) (fun t => t.pending = s.pending ∧ t.mem = s.mem) := by
  simp [execGroomNearBound]

theorem execGroomLapLate_keeps (t : Nat) (s : State) :
    Completes (execGroomLapLate t s) (fun t => t.pending = s.pending ∧ t.mem = s.mem) := by
  simp [execGroomLapLate]

/-! ### Takeover -/

@[simp] theorem State.showCalStatus_keeps (s : State) (t : Nat) :
    (s.showCalStatus t).pending = s.pending ∧ (s.showCalStatus t).mem = s.mem := by
  simp [State.showCalStatus]

@[simp] theorem State.setCal_keeps (s : State) (t : Nat) (c : Cal) :
    (s.setCal t c).pending = s.pending ∧ (s.setCal t c).mem = s.mem := by
  simp [State.setCal]

@[simp] theorem State.startTakeover_keeps (s : State) (t r dst why reason column : Nat) (planes : List Nat) :
    (s.startTakeover t r dst why reason column planes).pending = s.pending ∧ (s.startTakeover t r dst why reason column planes).mem = s.mem := by
  simp [State.startTakeover]

@[simp] theorem State.beginNext_keeps (s : State) (t : Nat) (y2 : List Takeover) :
    (s.beginNext t y2).pending = s.pending ∧ (s.beginNext t y2).mem = s.mem := by
  fun_induction State.beginNext <;> simp_all

@[simp] theorem State.nextMove_keeps (s : State) (t : Nat) :
    (s.nextMove t).pending = s.pending ∧ (s.nextMove t).mem = s.mem := by
  simp [State.nextMove]

@[simp] theorem State.copyPlane_keeps (s : State) (t src dst plane : Nat) :
    (s.copyPlane t src dst plane).pending = s.pending ∧ (s.copyPlane t src dst plane).mem = s.mem := by
  unfold State.copyPlane
  exact ⟨s.setTile_pending t dst _, s.setTile_mem t dst _⟩

@[simp] theorem State.carryOver_keeps (s : State) (t src dst : Nat) (planes : List Nat) :
    (s.carryOver t src dst planes).pending = s.pending ∧ (s.carryOver t src dst planes).mem = s.mem := by
  simp [State.carryOver]

@[simp] theorem State.finishCopy_pending (s : State) (t : Nat) :
    (s.finishCopy t).pending = s.pending := by
  unfold State.finishCopy
  split <;> simp

@[simp] theorem State.moveRole_keeps (s : State) (t : Nat) (o : Takeover) :
    (s.moveRole t o).pending = s.pending ∧ (s.moveRole t o).mem = s.mem := by
  simp [State.moveRole]

/-! ### Farrier -/

@[simp] theorem State.showRepair_keeps (s : State) (t : Nat) :
    (s.showRepair t).pending = s.pending ∧ (s.showRepair t).mem = s.mem := by
  simp (disch := (intros; split <;> simp)) [State.showRepair]

@[simp] theorem State.writeFarrier_keeps (s : State) (t : Nat) (fail : Bool) :
    (s.writeFarrier t fail).pending = s.pending ∧ (s.writeFarrier t fail).mem = s.mem := by
  simp [State.writeFarrier]

@[simp] theorem State.recordFarrier_keeps (s : State) (t : Nat) :
    (s.recordFarrier t).pending = s.pending ∧ (s.recordFarrier t).mem = s.mem := by
  simp [State.recordFarrier]

@[simp] theorem State.farrAction_keeps (s : State) (t action reason k col : Nat) :
    (s.farrAction t action reason k col).pending = s.pending ∧ (s.farrAction t action reason k col).mem = s.mem := by
  simp [State.farrAction]

@[simp] theorem State.loseTeam_pending (s : State) (t : Nat) :
    (s.loseTeam t).pending = s.pending := by
  unfold State.loseTeam
  dsimp only
  split <;> simp

@[simp] theorem State.teamLost_pending (s : State) (t reason k col : Nat) :
    (s.teamLost t reason k col).pending = s.pending := by
  simp [State.teamLost]

@[simp] theorem State.bypassColumn_pending (s : State) (t k reason col : Nat) :
    (s.bypassColumn t k reason col).pending = s.pending := by
  simp [State.bypassColumn]

@[simp] theorem State.dropReturns_keeps (s : State) (t k : Nat) :
    (s.dropReturns t k).pending = s.pending ∧ (s.dropReturns t k).mem = s.mem := by
  simp [State.dropReturns]

@[simp] theorem State.retireTile_keeps (s : State) (t k reason : Nat) :
    (s.retireTile t k reason).pending = s.pending ∧ (s.retireTile t k reason).mem = s.mem := by
  simp [State.retireTile]

@[simp] theorem State.retireNoSpare_pending (s : State) (t k reason col : Nat) :
    (s.retireNoSpare t k reason col).pending = s.pending := by
  simp [State.retireNoSpare]

@[simp] theorem State.takeoverRetires_keeps (s : State) (t k reason col : Nat) :
    (s.takeoverRetires t k reason col).pending = s.pending ∧ (s.takeoverRetires t k reason col).mem = s.mem := by
  simp [State.takeoverRetires]

@[simp] theorem State.retire_pending (s : State) (t k reason col : Nat) :
    (s.retire t k reason col).pending = s.pending := by
  fun_cases State.retire <;> simp

@[simp] theorem State.nextRetire_pending (s : State) (t : Nat) :
    (s.nextRetire t).pending = s.pending := by
  fun_cases State.nextRetire <;> simp

theorem State.copyCells_quiet (s : State) (t k a b : Nat) :
    (s.each [0, 1] (fun s p =>
      let y := (s.tile t k).mended p
      s.each (List.range 1024) (fun s r => s.setTile t k ((s.tile t k).setCell p r b (y.cell p r a))))).pending = s.pending ∧
    (s.each [0, 1] (fun s p =>
      let y := (s.tile t k).mended p
      s.each (List.range 1024) (fun s r => s.setTile t k ((s.tile t k).setCell p r b (y.cell p r a))))).mem = s.mem :=
  State.each_quiet (fun _ _ => State.each_quiet (fun s _ => ⟨s.setTile_pending _ _ _, s.setTile_mem _ _ _⟩) _ _) _ _

theorem State.clearColumnBlocks_quiet (s : State) (t k : Nat) :
    (s.each [0, 1] (fun s p => s.each (((s.tile t k).badOf p).filter (fun e => decide (4096 ≤ e.1 ∧ e.1 < 4224)))
      (fun s e => match blockVerdict e.2 with
        | .ue => s.setTile t k ((s.tile t k).setBad p e.1 poisonSyndrome)
        | _ => s.setTile t k ((s.tile t k).setBad p e.1 0)))).pending = s.pending ∧
    (s.each [0, 1] (fun s p => s.each (((s.tile t k).badOf p).filter (fun e => decide (4096 ≤ e.1 ∧ e.1 < 4224)))
      (fun s e => match blockVerdict e.2 with
        | .ue => s.setTile t k ((s.tile t k).setBad p e.1 poisonSyndrome)
        | _ => s.setTile t k ((s.tile t k).setBad p e.1 0)))).mem = s.mem := by
  refine State.each_quiet (fun _ _ => State.each_quiet (fun s e => ?_) _ _) _ _
  split <;> exact ⟨s.setTile_pending _ _ _, s.setTile_mem _ _ _⟩

@[simp] theorem State.copyColumn_keeps (s : State) (t k a b : Nat) :
    (s.copyColumn t k a b).pending = s.pending ∧ (s.copyColumn t k a b).mem = s.mem :=
  ⟨(State.clearColumnBlocks_quiet _ t k).1.trans (s.copyCells_quiet t k a b).1,
    (State.clearColumnBlocks_quiet _ t k).2.trans (s.copyCells_quiet t k a b).2⟩

@[simp] theorem State.remap_pending (s : State) (t k col reason : Nat) :
    (s.remap t k col reason).pending = s.pending := by
  unfold State.remap
  dsimp only
  split
  · simp
  · rw [(State.farrAction_keeps ..).1, (State.calTrace_keeps ..).1, (State.bumpTeam_keeps ..).1, State.setTeam_pending]
    exact (s.copyColumn_keeps t k _ _).1

@[simp] theorem State.farrRefused_keeps (s : State) (t : Nat) :
    (s.farrRefused t).pending = s.pending ∧ (s.farrRefused t).mem = s.mem := by
  simp [State.farrRefused]

@[simp] theorem State.farrFields_keeps (s : State) (t cmd k col : Nat) :
    (s.farrFields t cmd k col).pending = s.pending ∧ (s.farrFields t cmd k col).mem = s.mem := by
  simp [State.farrFields]

theorem execFarrRetire_keeps (t k : Nat) (s : State) :
    Completes (execFarrRetire t k s) (fun t => t.pending = s.pending) := by
  simp [execFarrRetire]

theorem execFarrNvRetry_keeps (t : Nat) (fail : Bool) (s : State) :
    Completes (execFarrNvRetry t fail s) (fun t => t.pending = s.pending ∧ t.mem = s.mem) := by
  simp [execFarrNvRetry]

theorem execPendingRetireComplete_keeps (t : Nat) (s : State) :
    Completes (execPendingRetireComplete t s) (fun t => t.pending = s.pending) := by
  unfold execPendingRetireComplete
  dsimp only
  repeat' split
  all_goals simp

theorem execDailyTrimRecord_keeps (t k : Nat) (s : State) :
    Completes (execDailyTrimRecord t k s) (fun t => t.pending = s.pending) := by
  simp [execDailyTrimRecord]

/-! ### Calibration -/

@[simp] theorem State.setTileCal_keeps (s : State) (t k : Nat) (c : TileCal) :
    (s.setTileCal t k c).pending = s.pending ∧ (s.setTileCal t k c).mem = s.mem := by
  simp [State.setTileCal]

@[simp] theorem State.windowFault_pending (s : State) (t k : Nat) :
    (s.windowFault t k).pending = s.pending := by
  simp [State.windowFault]

@[simp] theorem State.winLimited_pending (s : State) (t k : Nat) (was now : Int) :
    (s.winLimited t k was now).pending = s.pending := by
  simp [State.winLimited]

@[simp] theorem State.setWin_pending (s : State) (t k : Nat) (w : Int) :
    (s.setWin t k w).2.pending = s.pending := by
  unfold State.setWin
  split <;> simp

@[simp] theorem State.retrimTo_pending (s : State) (wait : Bool) (t k : Nat) :
    (s.retrimTo wait t k).pending = s.pending := by
  unfold State.retrimTo
  split <;> simp

@[simp] theorem State.retrim_pending (s : State) (t k : Nat) :
    (s.retrim t k).pending = s.pending := by
  simp [State.retrim]

@[simp] theorem State.applyTrims_keeps (s : State) (t k : Nat) :
    (s.applyTrims t k).pending = s.pending ∧ (s.applyTrims t k).mem = s.mem := by
  unfold State.applyTrims
  dsimp only
  split <;> simp

@[simp] theorem State.showCalSel_keeps (s : State) (t : Nat) :
    (s.showCalSel t).pending = s.pending ∧ (s.showCalSel t).mem = s.mem := by
  simp [State.showCalSel]

@[simp] theorem State.showSlewing_keeps (s : State) (t : Nat) :
    (s.showSlewing t).pending = s.pending ∧ (s.showSlewing t).mem = s.mem := by
  simp [State.showSlewing]

@[simp] theorem State.applyResult_pending (s : State) (t k : Nat) (v : CoefSet) (abrupt : Bool) :
    (s.applyResult t k v abrupt).pending = s.pending := by
  simp [State.applyResult]

theorem execSlewStep_keeps (t k : Nat) (s : State) :
    Completes (execSlewStep t k s) (fun t => t.pending = s.pending) := by
  unfold execSlewStep
  dsimp only
  split <;> simp

@[simp] theorem State.abandonCal_pending (s : State) (t : Nat) :
    (s.abandonCal t).pending = s.pending := by
  unfold State.abandonCal
  dsimp only
  repeat' split
  all_goals simp

@[simp] theorem State.writePatterns_keeps (s : State) (t : Nat) :
    (s.writePatterns t).pending = s.pending ∧ (s.writePatterns t).mem = s.mem := by
  simp [State.writePatterns]

theorem execDrainEnd_keeps (t k : Nat) (s : State) :
    Completes (execDrainEnd t k s) (fun t => t.pending = s.pending ∧ t.mem = s.mem) := by
  simp [execDrainEnd]

@[simp] theorem State.startCal_keeps (s : State) (t k : Nat) (readmit : Bool) :
    (s.startCal t k readmit).pending = s.pending ∧ (s.startCal t k readmit).mem = s.mem := by
  fun_cases State.startCal <;> simp

@[simp] theorem State.nextCal_keeps (s : State) (t : Nat) :
    (s.nextCal t).pending = s.pending ∧ (s.nextCal t).mem = s.mem := by
  fun_cases State.nextCal <;> simp

@[simp] theorem State.queueCal_keeps (s : State) (t k : Nat) :
    (s.queueCal t k).pending = s.pending ∧ (s.queueCal t k).mem = s.mem := by
  simp [State.queueCal]

theorem execRotationVisit_keeps (t : Nat) (s : State) :
    Completes (execRotationVisit t s) (fun t => t.pending = s.pending ∧ t.mem = s.mem) := by
  simp [execRotationVisit]

theorem execCalRequest_keeps (t k : Nat) (s : State) :
    Completes (execCalRequest t k s) (fun t => t.pending = s.pending ∧ t.mem = s.mem) := by
  simp [execCalRequest]

theorem execCalAbandon_keeps (t : Nat) (s : State) :
    Completes (execCalAbandon t s) (fun t => t.pending = s.pending) := by
  simp [execCalAbandon]

theorem execCalHold_keeps (t : Nat) (hold : Bool) (s : State) :
    Completes (execCalHold t hold s) (fun t => t.pending = s.pending ∧ t.mem = s.mem) := by
  simp [execCalHold]

theorem execCalLate_keeps (t : Nat) (s : State) :
    Completes (execCalLate t s) (fun t => t.pending = s.pending ∧ t.mem = s.mem) := by
  simp [execCalLate]

theorem execFarrReadmit_keeps (t k : Nat) (s : State) :
    Completes (execFarrReadmit t k s) (fun t => t.pending = s.pending ∧ t.mem = s.mem) := by
  simp [execFarrReadmit]

theorem execFarrRemap_keeps (t k col : Nat) (s : State) :
    Completes (execFarrRemap t k col s) (fun t => t.pending = s.pending) := by
  simp [execFarrRemap]

theorem execCalrefQualified_keeps (s : State) :
    Completes (execCalrefQualified s) (fun t => t.pending = s.pending ∧ t.mem = s.mem) := by
  unfold execCalrefQualified
  rw [completes_next]
  refine State.each_quiet (fun _ _ => ?_) _ _
  exact ⟨rfl, rfl⟩

theorem execCalrefLost_keeps (s : State) :
    Completes (execCalrefLost s) (fun t => t.pending = s.pending) := by
  simp [execCalrefLost]

theorem execCalGateDone_keeps (t : Nat) (delay win : Int) (s : State) :
    Completes (execCalGateDone t delay win s) (fun t => t.pending = s.pending) := by
  simp [execCalGateDone]

@[simp] theorem State.completeCal_pending (s : State) (t k mode : Nat) (v : CoefSet) (abrupt : Bool) :
    (s.completeCal t k mode v abrupt).pending = s.pending := by
  simp [State.completeCal]

@[simp] theorem State.becomeSpare_keeps (s : State) (t k : Nat) :
    (s.becomeSpare t k).pending = s.pending ∧ (s.becomeSpare t k).mem = s.mem := by
  simp [State.becomeSpare]

@[simp] theorem State.judgeTile_pending (s : State) (t : Nat) (c : Cal) (v : CoefSet) (due : Bool) :
    (s.judgeTile t c v due).pending = s.pending := by
  simp [State.judgeTile]

@[simp] theorem State.endIdleCal_pending (s : State) (t : Nat) (c : Cal) (v : CoefSet) (abrupt due : Bool) :
    (s.endIdleCal t c v abrupt due).pending = s.pending := by
  simp [State.endIdleCal]

@[simp] theorem State.remapDue_pending (s : State) (t k : Nat) (due : List (Nat × Nat)) :
    (s.remapDue t k due).pending = s.pending := by
  simp [State.remapDue]

@[simp] theorem State.medianTrims_pending (s : State) (t k : Nat) (delay : Int) :
    (s.medianTrims t k delay).2.pending = s.pending := by
  simp [State.medianTrims]

theorem execCalFitDone_keeps (t : Nat) (fits : List (Nat × Int × Int)) (delay : Int) (resid : Nat) (noisy stuck : List Nat) (s : State) :
    Completes (execCalFitDone t fits delay resid noisy stuck s) (fun t => t.pending = s.pending) := by
  unfold execCalFitDone
  dsimp only
  repeat' split
  all_goals simp

theorem execStatsShadowEnd_keeps (t : Nat) (s : State) :
    Completes (execStatsShadowEnd t s) (fun t => t.pending = s.pending ∧ t.mem = s.mem) := by
  unfold execStatsShadowEnd
  dsimp only
  split <;> simp

theorem execTakeoverCopyDone_keeps (t : Nat) (s : State) :
    Completes (execTakeoverCopyDone t s) (fun t => t.pending = s.pending) := by
  simp [execTakeoverCopyDone]

@[simp] theorem State.afterMove_pending (s : State) (t : Nat) (o : Takeover) :
    (s.afterMove t o).pending = s.pending := by
  fun_cases State.afterMove <;> simp

theorem execTakeoverMove_keeps (t : Nat) (s : State) :
    Completes (execTakeoverMove t s) (fun t => t.pending = s.pending) := by
  unfold execTakeoverMove
  split <;> simp

/-! ### Outrider -/

@[simp] theorem State.deliverColumn_pending (s : State) (t : Nat) (d : Delivery) (acc : Nat) (seg : Option Nat) (c : Nat) (terms : List (Int × Bool)) :
    (s.deliverColumn t d acc seg c terms).pending = s.pending := by
  simp [State.deliverColumn]

@[simp] theorem State.outriderDelivery_pending (s : State) (t : Nat) :
    (s.outriderDelivery t).pending = s.pending := by
  unfold State.outriderDelivery
  dsimp only
  repeat' split
  all_goals simp

theorem execOutriderDelivery_keeps (t : Nat) (s : State) :
    Completes (execOutriderDelivery t s) (fun t => t.pending = s.pending) := by
  simp [execOutriderDelivery]

@[simp] theorem State.makeDue_keeps (s : State) (t r why : Nat) :
    (s.makeDue t r why).pending = s.pending ∧ (s.makeDue t r why).mem = s.mem := by
  simp [State.makeDue]

theorem execSampleDue_keeps (t r : Nat) (s : State) :
    Completes (execSampleDue t r s) (fun t => t.pending = s.pending ∧ t.mem = s.mem) := by
  simp [execSampleDue]

theorem execOutrSample_keeps (t r : Nat) (s : State) :
    Completes (execOutrSample t r s) (fun t => t.pending = s.pending ∧ t.mem = s.mem) := by
  simp [execOutrSample]

@[simp] theorem State.forceCheck_keeps (s : State) (t r : Nat) :
    (s.forceCheck t r).pending = s.pending ∧ (s.forceCheck t r).mem = s.mem := by
  simp [State.forceCheck]

theorem execForcedCheck_keeps (t r : Nat) (s : State) :
    Completes (execForcedCheck t r s) (fun t => t.pending = s.pending ∧ t.mem = s.mem) := by
  simp [execForcedCheck]

theorem execCheckLate_keeps (t r : Nat) (s : State) :
    Completes (execCheckLate t r s) (fun t => t.pending = s.pending ∧ t.mem = s.mem) := by
  simp [execCheckLate]

@[simp] theorem State.repairInPlace_pending (s : State) (t k : Nat) (v : CoefSet) (fits : List (Nat × Rat × Rat)) :
    (s.repairInPlace t k v fits).pending = s.pending := by
  simp [State.repairInPlace]

@[simp] theorem State.keepCheck_keeps (s : State) (t : Nat) (q : Check) :
    (s.keepCheck t q).pending = s.pending ∧ (s.keepCheck t q).mem = s.mem := by
  simp [State.keepCheck]

@[simp] theorem State.track_pending (s : State) (t k : Nat) :
    (s.track t k).pending = s.pending := by
  simp [State.track]

@[simp] theorem State.startArb_keeps (s : State) (t : Nat) (q : Sample) (col phase : Nat) :
    (s.startArb t q col phase).pending = s.pending ∧ (s.startArb t q col phase).mem = s.mem := by
  simp [State.startArb]

@[simp] theorem State.reportVerdict_keeps (s : State) (t v : Nat) (a : Arb) :
    (s.reportVerdict t v a).pending = s.pending ∧ (s.reportVerdict t v a).mem = s.mem := by
  simp [State.reportVerdict]

@[simp] theorem State.askTeamReplay_keeps (s : State) (t : Nat) :
    (s.askTeamReplay t).pending = s.pending ∧ (s.askTeamReplay t).mem = s.mem := by
  unfold State.askTeamReplay
  split <;> simp

@[simp] theorem State.keepSpare_keeps (s : State) (t : Nat) (a : Arb) :
    (s.keepSpare t a).pending = s.pending ∧ (s.keepSpare t a).mem = s.mem := by
  unfold State.keepSpare
  split <;> simp

@[simp] theorem State.fixInPlace_keeps (s : State) (t : Nat) (a : Arb) :
    (s.fixInPlace t a).pending = s.pending ∧ (s.fixInPlace t a).mem = s.mem := by
  simp [State.fixInPlace]

@[simp] theorem State.verdict_pending (s : State) (t v : Nat) :
    (s.verdict t v).pending = s.pending := by
  unfold State.verdict
  dsimp only
  repeat' split
  all_goals simp

@[simp] theorem State.setArb_keeps (s : State) (t : Nat) (a : Arb) :
    (s.setArb t a).pending = s.pending ∧ (s.setArb t a).mem = s.mem := by
  simp [State.setArb]

theorem execArbCodeCheckDone_keeps (t : Nat) (s : State) :
    Completes (execArbCodeCheckDone t s) (fun t => t.pending = s.pending) := by
  unfold execArbCodeCheckDone
  repeat' split
  all_goals simp

@[simp] theorem State.seekSpare_pending (s : State) (t : Nat) (a : Arb) :
    (s.seekSpare t a).pending = s.pending := by
  unfold State.seekSpare
  split <;> simp

theorem execArbReferenceDone_keeps (t : Nat) (agrees : Bool) (s : State) :
    Completes (execArbReferenceDone t agrees s) (fun t => t.pending = s.pending) := by
  unfold execArbReferenceDone
  repeat' split
  all_goals simp

theorem execArbSpareLoadDone_keeps (t : Nat) (s : State) :
    Completes (execArbSpareLoadDone t s) (fun t => t.pending = s.pending ∧ t.mem = s.mem) := by
  unfold execArbSpareLoadDone
  cases (s.team t).arb with
  | none => simp
  | some a =>
    dsimp only
    generalize (if a.st = 6 then _ else a) = b
    cases b.spare with
    | none => simp
    | some d =>
      dsimp only
      obtain ⟨hp, hm⟩ := s.copyPlane_keeps t b.sample.tile d b.sample.plane
      generalize s.copyPlane t b.sample.tile d b.sample.plane = u at hp hm
      rw [completes_ite, completes_next, completes_next]
      split
      · exact ⟨rfl, rfl⟩
      · rw [(State.showTeam_keeps _ t).1, (State.setArb_keeps _ t _).1, State.setTile_pending,
          (State.showTeam_keeps _ t).2, (State.setArb_keeps _ t _).2, State.setTile_mem]
        exact ⟨hp, hm⟩

@[simp] theorem State.runSpare_keeps (s : State) (t d : Nat) (f : BeatFaults) (y4 : List TileRec) :
    (s.runSpare t d f y4).2.pending = s.pending ∧ (s.runSpare t d f y4).2.mem = s.mem := by
  induction y4 generalizing s with
  | nil => simp [State.runSpare]
  | cons c cs ih => simp [State.runSpare, ih]

theorem execArbSpareRunDone_keeps (t : Nat) (wrong : List (Nat × Int)) (s : State) :
    Completes (execArbSpareRunDone t wrong s) (fun t => t.pending = s.pending) := by
  unfold execArbSpareRunDone
  repeat' split
  all_goals simp

theorem execArbNoSpareTimeout_keeps (t : Nat) (s : State) :
    Completes (execArbNoSpareTimeout t s) (fun t => t.pending = s.pending ∧ t.mem = s.mem) := by
  unfold execArbNoSpareTimeout
  split <;> simp

theorem execOutriderSelftestDone_keeps (t : Nat) (pass : Bool) (s : State) :
    Completes (execOutriderSelftestDone t pass s) (fun t => t.pending = s.pending) := by
  unfold execOutriderSelftestDone
  split
  · simp
  · extract_lets s1 src s2
    split <;> simp [s2, s1]

theorem execOutrSelftest_keeps (t : Nat) (s : State) :
    Completes (execOutrSelftest t s) (fun t => t.pending = s.pending ∧ t.mem = s.mem) := by
  simp [execOutrSelftest]

theorem execSampleComplete_keeps (t r : Nat) (lanes : List (Nat × Nat × Int)) (s : State) :
    Completes (execSampleComplete t r lanes s) (fun t => t.pending = s.pending) := by
  unfold execSampleComplete
  repeat' split
  all_goals simp

theorem execOutrRefGo_keeps (t w : Nat) (s : State) :
    Completes (execOutrRefGo t w s) (fun t => t.pending = s.pending ∧ t.mem = s.mem) := by
  simp [execOutrRefGo]

theorem execReferenceRunDone_keeps (t : Nat) (s : State) :
    Completes (execReferenceRunDone t s) (fun t => t.pending = s.pending) := by
  unfold execReferenceRunDone
  repeat' split
  all_goals simp

/-! ### FieldTests -/

@[simp] theorem State.setTileTest_keeps (s : State) (t k v : Nat) :
    (s.setTileTest t k v).pending = s.pending ∧ (s.setTileTest t k v).mem = s.mem := by
  simp [State.setTileTest]

@[simp] theorem State.setTeamTest_keeps (s : State) (t v : Nat) :
    (s.setTeamTest t v).pending = s.pending ∧ (s.setTeamTest t v).mem = s.mem := by
  simp [State.setTeamTest]

@[simp] theorem State.countTest_keeps (s : State) (t : Nat) (failed : Bool) :
    (s.countTest t failed).pending = s.pending ∧ (s.countTest t failed).mem = s.mem := by
  simp [State.countTest]

@[simp] theorem State.beginRoleTest_pending (s : State) (t k r : Nat) (forced : Bool) :
    (s.beginRoleTest t k r forced).pending = s.pending := by
  unfold State.beginRoleTest
  repeat' split
  all_goals simp

@[simp] theorem State.beginTileTest_pending (s : State) (t k : Nat) :
    (s.beginTileTest t k).pending = s.pending := by
  fun_cases State.beginTileTest <;> simp

@[simp] theorem State.runRoleTest_keeps (s : State) (t k : Nat) :
    (s.runRoleTest t k).pending = s.pending ∧ (s.runRoleTest t k).mem = s.mem := by
  simp [State.runRoleTest]

@[simp] theorem State.returnTested_keeps (s : State) (t k : Nat) :
    (s.returnTested t k).pending = s.pending ∧ (s.returnTested t k).mem = s.mem := by
  simp [State.returnTested]

@[simp] theorem State.beginTeamTest_keeps (s : State) (t : Nat) :
    (s.beginTeamTest t).pending = s.pending ∧ (s.beginTeamTest t).mem = s.mem := by
  simp [State.beginTeamTest]

@[simp] theorem State.tryTests_pending (s : State) (t : Nat) :
    (s.tryTests t).pending = s.pending := by
  simp [State.tryTests]

theorem execTileIftDue_keeps (t k : Nat) (s : State) :
    Completes (execTileIftDue t k s) (fun t => t.pending = s.pending) := by
  simp [execTileIftDue]

theorem execTeamTestDue_keeps (t : Nat) (s : State) :
    Completes (execTeamTestDue t s) (fun t => t.pending = s.pending) := by
  simp [execTeamTestDue]

theorem execIftDeferExpire_keeps (t : Nat) (tile : Option Nat) (s : State) :
    Completes (execIftDeferExpire t tile s) (fun t => t.pending = s.pending) := by
  unfold execIftDeferExpire
  split <;> simp

theorem execTileIftComplete_keeps (t k fail : Nat) (s : State) :
    Completes (execTileIftComplete t k fail s) (fun t => t.pending = s.pending) := by
  simp [execTileIftComplete]

theorem execTeamTestComplete_keeps (t fail : Nat) (s : State) :
    Completes (execTeamTestComplete t fail s) (fun t => t.pending = s.pending) := by
  simp [execTeamTestComplete]

/-! ### Beat -/

@[simp] theorem State.showBeat_keeps (s : State) (t k : Nat) (r : TileRec) :
    (s.showBeat t k r).pending = s.pending ∧ (s.showBeat t k r).mem = s.mem := by
  simp [State.showBeat]

@[simp] theorem State.showSat_keeps (s : State) (t k : Nat) (r : TileRec) :
    (s.showSat t k r).pending = s.pending ∧ (s.showSat t k r).mem = s.mem := by
  unfold State.showSat
  extract_lets n s1 s2
  split
  · simp
  · rw [State.fset64_pending, State.fset64_mem, State.each_pending (fun s _ => s.fset_pending _ _),
      State.each_mem (fun s _ => s.fset_mem _ _)]
    simp [s1]

@[simp] theorem State.edgeMissing_pending (s : State) (t k : Nat) (r : TileRec) (n : Nat) :
    (s.edgeMissing t k r n).pending = s.pending := by
  simp [State.edgeMissing]

@[simp] theorem State.latch_pending (s : State) (f : BeatFaults) (t k : Nat) (p : Pulse) :
    (s.latch f t k p).2.pending = s.pending := by
  simp [State.latch]

@[simp] theorem State.latchAll_pending (s : State) (f : BeatFaults) (t : Nat) (y3 : List Nat) :
    (s.latchAll f t y3).2.pending = s.pending := by
  induction y3 generalizing s with
  | nil => simp [State.latchAll]
  | cons k ks ih =>
    unfold State.latchAll
    split <;> simp [ih]

@[simp] theorem State.keepSample_keeps (s : State) (t : Nat) (r : TileRec) :
    (s.keepSample t r).pending = s.pending ∧ (s.keepSample t r).mem = s.mem := by
  unfold State.keepSample
  split <;> simp

@[simp] theorem State.outlierWork_keeps (s : State) (t : Nat) (a8 : Bool) (rs : List TileRec) :
    (s.outlierWork t a8 rs).2.pending = s.pending ∧ (s.outlierWork t a8 rs).2.mem = s.mem := by
  simp [State.outlierWork]

@[simp] theorem State.repair_pending (s : State) (t left : Nat) (r : TileRec) :
    (s.repair t left r).2.2.pending = s.pending := by
  simp [State.repair]

@[simp] theorem State.repairAll_pending (s : State) (t left : Nat) (y3 : List TileRec) :
    (s.repairAll t left y3).2.2.pending = s.pending := by
  induction y3 generalizing s left with
  | nil => simp [State.repairAll]
  | cons c cs ih => simp [State.repairAll, ih]

@[simp] theorem State.lateWork_keeps (s : State) (t used : Nat) :
    (s.lateWork t used).pending = s.pending ∧ (s.lateWork t used).mem = s.mem := by
  simp [State.lateWork]

@[simp] theorem State.shadow_keeps (s : State) (t : Nat) (rs : List TileRec) :
    (s.shadow t rs).pending = s.pending ∧ (s.shadow t rs).mem = s.mem := by
  simp [State.shadow]

@[simp] theorem State.endBeat_pending (s : State) (f : BeatFaults) (t : Nat) :
    (s.endBeat f t).pending = s.pending := by
  simp [State.endBeat]

@[simp] theorem State.queueFirst_keeps (s : State) (t r : Nat) :
    (s.queueFirst t r).pending = s.pending ∧ (s.queueFirst t r).mem = s.mem := by
  unfold State.queueFirst
  refine State.each_quiet (fun s c => ?_) _ _
  split
  · simp
  · simp

@[simp] theorem State.swapTile_pending (s : State) (t k plane : Nat) :
    (s.swapTile t k plane).pending = s.pending := by
  simp [State.swapTile]

@[simp] theorem State.swaps_pending (s : State) (t : Nat) :
    (s.swaps t).2.pending = s.pending := by
  unfold State.swaps
  dsimp only
  rw [State.setTeam_pending, State.each_pending (fun s i => by simp), State.pending_ite, State.raise_pending, ite_self,
    State.each_pending (fun s r => by simp)]

@[simp] theorem State.noteBeat_keeps (s : State) (t : Nat) (p : Pulse) :
    (s.noteBeat t p).pending = s.pending ∧ (s.noteBeat t p).mem = s.mem := by
  simp [State.noteBeat]

@[simp] theorem State.beginVector_keeps (s : State) (t k : Nat) (p : Pulse) :
    (s.beginVector t k p).pending = s.pending ∧ (s.beginVector t k p).mem = s.mem := by
  simp [State.beginVector]

@[simp] theorem State.startTile_keeps (s : State) (t k : Nat) :
    (s.startTile t k).pending = s.pending ∧ (s.startTile t k).mem = s.mem := by
  unfold State.startTile
  split <;> simp

@[simp] theorem State.startBeat_pending (s : State) (t : Nat) :
    (s.startBeat t).pending = s.pending := by
  simp [State.startBeat]

@[simp] theorem State.teamWait_keeps (s : State) (t : Nat) :
    (s.teamWait t).pending = s.pending ∧ (s.teamWait t).mem = s.mem := by
  simp [State.teamWait]

@[simp] theorem State.teamBeat_pending (s : State) (f : BeatFaults) (t : Nat) :
    (s.teamBeat f t).pending = s.pending := by
  simp [State.teamBeat]

@[simp] theorem State.beatBoundary_pending (s : State) (f : BeatFaults) :
    (s.beatBoundary f).pending = s.pending := by
  simp [State.beatBoundary]

theorem execTileRecordArrive_keeps (t : Nat) (s : State) :
    Completes (execTileRecordArrive t s) (fun t => t.pending = s.pending) := by
  fun_cases execTileRecordArrive <;> simp

theorem execGroupCloseComplete_keeps (t g : Nat) (s : State) :
    Completes (execGroupCloseComplete t g s) (fun t => t.pending = s.pending) := by
  simp [execGroupCloseComplete]

theorem execAccAbandon_keeps (t g : Nat) (s : State) :
    Completes (execAccAbandon t g s) (fun t => t.pending = s.pending ∧ t.mem = s.mem) := by
  simp [execAccAbandon]

theorem execTeamStop_keeps (t : Nat) (stop : Bool) (s : State) :
    Completes (execTeamStop t stop s) (fun t => t.pending = s.pending ∧ t.mem = s.mem) := by
  simp [execTeamStop]

theorem execTeamCntFreeze_keeps (t : Nat) (freeze : Bool) (s : State) :
    Completes (execTeamCntFreeze t freeze s) (fun t => t.pending = s.pending ∧ t.mem = s.mem) := by
  simp [execTeamCntFreeze]

theorem execTeamSwapGo_keeps (t plane : Nat) (s : State) :
    Completes (execTeamSwapGo t plane s) (fun t => t.pending = s.pending ∧ t.mem = s.mem) := by
  simp [execTeamSwapGo]

/-! ### Sequencer -/

@[simp] theorem State.haltSeq_keeps (s : State) (x cause bp : Nat) :
    (s.haltSeq x cause bp).pending = s.pending ∧ (s.haltSeq x cause bp).mem = s.mem := by
  simp [State.haltSeq]

@[simp] theorem State.resumeSeq_keeps (s : State) (x : Nat) :
    (s.resumeSeq x).pending = s.pending ∧ (s.resumeSeq x).mem = s.mem := by
  simp [State.resumeSeq]

@[simp] theorem State.breakHit_keeps (s : State) (x k : Nat) :
    (s.breakHit x k).pending = s.pending ∧ (s.breakHit x k).mem = s.mem := by
  simp [State.breakHit]

@[simp] theorem State.issue_pending {f : State → State} (hf : ∀ s, (f s).pending = s.pending) (s : State) (x : Nat)
    (c : Touch) (stall : Option (Nat × Nat × Nat)) (go : Seq → Seq) : (s.issue x c stall go f).pending = s.pending := by
  unfold State.issue
  dsimp only
  split
  · rfl
  · split
    · simp
    · split <;> simp [hf]

@[simp] theorem State.issue_mem {f : State → State} (hf : ∀ s, (f s).mem = s.mem) (s : State) (x : Nat)
    (c : Touch) (stall : Option (Nat × Nat × Nat)) (go : Seq → Seq) : (s.issue x c stall go f).mem = s.mem := by
  unfold State.issue
  dsimp only
  split
  · rfl
  · split
    · simp
    · split <;> simp [hf]

@[simp] theorem State.readProg_pending (s : State) (x b : Nat) :
    (s.readProg x b).2.2.pending = s.pending := by
  simp [State.readProg]

@[simp] theorem State.seqFault_pending (s : State) (x cause layer group extra : Nat) :
    (s.seqFault x cause layer group extra).pending = s.pending := by
  unfold State.seqFault
  split <;> simp

@[simp] theorem State.teamSeqFault_pending (s : State) (x t cause layer group extra : Nat) :
    (s.teamSeqFault x t cause layer group extra).pending = s.pending := by
  unfold State.teamSeqFault
  split <;> simp

@[simp] theorem State.seqFail_pending (s : State) (x : Nat) :
    (s.seqFail x).pending = s.pending := by
  unfold State.seqFail
  split <;> simp

@[simp] theorem State.retain_pending (s : State) (x p step layer : Nat) (b : List Nat) :
    (s.retain x p step layer b).pending = s.pending := by
  simp [State.retain]

@[simp] theorem State.queueVectors_keeps (s : State) (x step layer group occ : Nat) (h : List Nat) (vs : List (Nat × Nat × List Nat)) :
    (s.queueVectors x step layer group occ h vs).pending = s.pending ∧ (s.queueVectors x step layer group occ h vs).mem = s.mem := by
  simp [State.queueVectors]

@[simp] theorem State.retainOverflow_pending (s : State) (id : Nat) :
    (s.retainOverflow id).pending = s.pending := by
  unfold State.retainOverflow
  split <;> simp

@[simp] theorem State.vecInput_keeps (s : State) (x layer group a n vectors occ : Nat) (y : Step) (b : List Nat) :
    (s.vecInput x layer group a n vectors occ y b).pending = s.pending ∧ (s.vecInput x layer group a n vectors occ y b).mem = s.mem := by
  simp [State.vecInput]

@[simp] theorem State.vec_pending (s : State) (x layer group a vectors : Nat) (y : Step) :
    (s.vec x layer group a vectors y).pending = s.pending := by
  unfold State.vec
  extract_lets s1 l n q occ t r
  split
  · simp [s1]
  · split
    · simp [s1]
    · split
      · simp [s1]
      · split
        · simp [r, s1]
        · split <;> simp [r, s1]

@[simp] theorem State.loadModel_pending (s : State) (x m : Nat) (y : Step) :
    (s.loadModel x m y).pending = s.pending := by
  simp [State.loadModel]

@[simp] theorem State.loadRecord_pending (s : State) (x unit : Nat) (remote : List (Nat × List Nat)) (e : Nat × Place) :
    (s.loadRecord x unit remote e).pending = s.pending := by
  unfold State.loadRecord
  repeat' split
  all_goals simp

@[simp] theorem State.swapModel_keeps (s : State) (x m notBefore : Nat) (y : Step) :
    (s.swapModel x m notBefore y).pending = s.pending ∧ (s.swapModel x m notBefore y).mem = s.mem := by
  simp [State.swapModel]

theorem execNop_keeps (x : Nat) (s : State) :
    Completes (execNop x s) (fun t => t.pending = s.pending ∧ t.mem = s.mem) := by
  simp [execNop]

theorem execLda_keeps (x a off : Nat) (s : State) :
    Completes (execLda x a off s) (fun t => t.pending = s.pending) := by
  unfold execLda
  split <;> simp

theorem execAdda_keeps (x a : Nat) (imm : Int) (s : State) :
    Completes (execAdda x a imm s) (fun t => t.pending = s.pending ∧ t.mem = s.mem) := by
  unfold execAdda
  rw [completes_next]
  refine ⟨State.issue_pending (fun _ => ?_) .., State.issue_mem (fun _ => ?_) ..⟩ <;> rfl

theorem execLoop_keeps (x count len : Nat) (s : State) :
    Completes (execLoop x count len s) (fun t => t.pending = s.pending ∧ t.mem = s.mem) := by
  simp [execLoop]

theorem execGopen_keeps (x team a : Nat) (s : State) :
    Completes (execGopen x team a s) (fun t => t.pending = s.pending) := by
  unfold execGopen
  split <;> simp

theorem execGclose_keeps (x team group : Nat) (s : State) :
    Completes (execGclose x team group s) (fun t => t.pending = s.pending ∧ t.mem = s.mem) := by
  simp [execGclose]

theorem execGwait_keeps (x team group : Nat) (s : State) :
    Completes (execGwait x team group s) (fun t => t.pending = s.pending ∧ t.mem = s.mem) := by
  simp [execGwait]

theorem execVec_keeps (x layer group a vectors : Nat) (s : State) :
    Completes (execVec x layer group a vectors s) (fun t => t.pending = s.pending) := by
  unfold execVec
  split <;> simp

theorem execLoadm_keeps (x model : Nat) (s : State) :
    Completes (execLoadm x model s) (fun t => t.pending = s.pending) := by
  unfold execLoadm
  split <;> simp

theorem execLoadmComplete_keeps (x model : Nat) (remote : List (Nat × List Nat)) (s : State) :
    Completes (execLoadmComplete x model remote s) (fun t => t.pending = s.pending) := by
  unfold execLoadmComplete
  split <;> simp

theorem execSwapPlanes_keeps (x model : Nat) (s : State) :
    Completes (execSwapPlanes x model s) (fun t => t.pending = s.pending ∧ t.mem = s.mem) := by
  unfold execSwapPlanes
  split <;> simp

theorem execSwapat_keeps (x model a : Nat) (s : State) :
    Completes (execSwapat x model a s) (fun t => t.pending = s.pending ∧ t.mem = s.mem) := by
  unfold execSwapat
  split <;> simp

theorem execSignal_keeps (x str flag : Nat) (s : State) :
    Completes (execSignal x str flag s) (fun t => t.pending = s.pending ∧ t.mem = s.mem) := by
  unfold execSignal
  rw [completes_next]
  refine ⟨State.issue_pending (fun _ => ?_) .., State.issue_mem (fun _ => ?_) ..⟩ <;> rfl

theorem execWaitf_keeps (x flag count : Nat) (s : State) :
    Completes (execWaitf x flag count s) (fun t => t.pending = s.pending ∧ t.mem = s.mem) := by
  unfold execWaitf
  dsimp only
  rw [completes_next]
  refine ⟨State.issue_pending (fun _ => ?_) .., State.issue_mem (fun _ => ?_) ..⟩ <;> simp

theorem execSeqEnd_keeps (x : Nat) (s : State) :
    Completes (execSeqEnd x s) (fun t => t.pending = s.pending ∧ t.mem = s.mem) := by
  simp [execSeqEnd]

theorem execBadInstructionFetch_keeps (x : Nat) (s : State) :
    Completes (execBadInstructionFetch x s) (fun t => t.pending = s.pending) := by
  unfold execBadInstructionFetch
  split
  · simp
  · extract_lets pos r
    split
    · simp
    · split
      · simp
      · split
        · simp [r]
        · split <;> simp [r]

/-! ### VectorUnit -/

@[simp] theorem State.readAll_pending (s : State) (u : Nat) (y2 : List (Nat × Nat)) :
    (s.readAll u y2).2.2.pending = s.pending := by
  induction y2 generalizing s with
  | nil => simp [State.readAll]
  | cons c cs ih => simp [State.readAll, ih]

@[simp] theorem State.vuRun_pending {after : State → State} (h : ∀ s, (after s).pending = s.pending) (s : State) (x t : Nat)
    (y : Step) (reads : List (Nat × Nat)) (dst : Nat × Nat) (f : List (List Nat) → List Nat) :
    (s.vuRun x t y reads dst f after).pending = s.pending := by
  unfold State.vuRun
  split
  · simp
  · extract_lets r
    split <;> simp [h, r]

@[simp] theorem State.vuIssue_pending {after : State → State} (h : ∀ s, (after s).pending = s.pending) (s : State)
    (x team : Nat) (y : Step) (reads : List (Nat × Nat)) (dst : Nat × Nat) (f : List (List Nat) → List Nat) :
    (s.vuIssue x team y reads dst f after).pending = s.pending := by
  simp [State.vuIssue, h]

@[simp] theorem State.vu1_pending (s : State) (x team : Nat) (half : Bool) (a d count cnt : Nat) (f : List Nat → List Nat) :
    (s.vu1 x team half a d count cnt f).pending = s.pending := by
  unfold State.vu1
  split <;> simp

@[simp] theorem State.vu2_pending (s : State) (x team : Nat) (half : Bool) (a b d count cnt : Nat) (f : List Nat → List Nat → List Nat) :
    (s.vu2 x team half a b d count cnt f).pending = s.pending := by
  unfold State.vu2
  split <;> simp

theorem execVuCopy_keeps (x team : Nat) (half : Bool) (a d count : Nat) (s : State) :
    Completes (execVuCopy x team half a d count s) (fun t => t.pending = s.pending) := by
  simp [execVuCopy]

theorem execVuAdd_keeps (x team : Nat) (half : Bool) (a b d count : Nat) (s : State) :
    Completes (execVuAdd x team half a b d count s) (fun t => t.pending = s.pending) := by
  simp [execVuAdd]

theorem execVuMul_keeps (x team : Nat) (half : Bool) (a b d count : Nat) (s : State) :
    Completes (execVuMul x team half a b d count s) (fun t => t.pending = s.pending) := by
  simp [execVuMul]

theorem execVuFma_keeps (x team : Nat) (half : Bool) (a b d count : Nat) (s : State) :
    Completes (execVuFma x team half a b d count s) (fun t => t.pending = s.pending) := by
  unfold execVuFma
  split <;> simp

theorem execVuMax_keeps (x team : Nat) (half : Bool) (a b d count : Nat) (s : State) :
    Completes (execVuMax x team half a b d count s) (fun t => t.pending = s.pending) := by
  simp [execVuMax]

theorem execVuSum_keeps (x team : Nat) (half : Bool) (a d count : Nat) (s : State) :
    Completes (execVuSum x team half a d count s) (fun t => t.pending = s.pending) := by
  unfold execVuSum
  split <;> simp

theorem execVuExp_keeps (x team : Nat) (half : Bool) (a d count : Nat) (s : State) :
    Completes (execVuExp x team half a d count s) (fun t => t.pending = s.pending) := by
  simp [execVuExp]

theorem execVuRsqrt_keeps (x team : Nat) (half : Bool) (a d count : Nat) (s : State) :
    Completes (execVuRsqrt x team half a d count s) (fun t => t.pending = s.pending) := by
  simp [execVuRsqrt]

theorem execVuRecip_keeps (x team : Nat) (half : Bool) (a d count : Nat) (s : State) :
    Completes (execVuRecip x team half a d count s) (fun t => t.pending = s.pending) := by
  simp [execVuRecip]

theorem execVuSilu_keeps (x team : Nat) (half : Bool) (a d count : Nat) (s : State) :
    Completes (execVuSilu x team half a d count s) (fun t => t.pending = s.pending) := by
  simp [execVuSilu]

theorem execVuGelu_keeps (x team : Nat) (half : Bool) (a d count : Nat) (s : State) :
    Completes (execVuGelu x team half a d count s) (fun t => t.pending = s.pending) := by
  simp [execVuGelu]

theorem execVuRmsnorm_keeps (x team : Nat) (half : Bool) (a b d count : Nat) (s : State) :
    Completes (execVuRmsnorm x team half a b d count s) (fun t => t.pending = s.pending) := by
  simp [execVuRmsnorm]

theorem execVuSoftmax_keeps (x team : Nat) (half : Bool) (a d count : Nat) (s : State) :
    Completes (execVuSoftmax x team half a d count s) (fun t => t.pending = s.pending) := by
  simp [execVuSoftmax]

theorem execVuRope_keeps (x team : Nat) (half : Bool) (a b d count : Nat) (s : State) :
    Completes (execVuRope x team half a b d count s) (fun t => t.pending = s.pending) := by
  unfold execVuRope
  split <;> simp

@[simp] theorem State.gather_pending (s : State) (x t : Nat) (y : Step) (half : Bool) (a b d count : Nat) :
    (s.gather x t y half a b d count).pending = s.pending := by
  unfold State.gather
  extract_lets ew r as q
  split
  · simp
  · split
    · simp [r]
    · split
      · simp [r]
      · split <;> simp [q, r]

@[simp] theorem State.scatter_pending (s : State) (x t : Nat) (y : Step) (half : Bool) (a b d count : Nat) :
    (s.scatter x t y half a b d count).pending = s.pending := by
  unfold State.scatter
  extract_lets ew r ds ws
  split
  · simp
  · split
    · simp [r]
    · split <;> simp [r]

theorem execVuGather_keeps (x team : Nat) (half : Bool) (a b d count : Nat) (s : State) :
    Completes (execVuGather x team half a b d count s) (fun t => t.pending = s.pending) := by
  unfold execVuGather
  split <;> simp

theorem execVuScatter_keeps (x team : Nat) (half : Bool) (a b d count : Nat) (s : State) :
    Completes (execVuScatter x team half a b d count s) (fun t => t.pending = s.pending) := by
  unfold execVuScatter
  split <;> simp

theorem execVuToMx_keeps (x team : Nat) (half : Bool) (fmt a d count : Nat) (s : State) :
    Completes (execVuToMx x team half fmt a d count s) (fun t => t.pending = s.pending) := by
  unfold execVuToMx
  split
  · simp
  · rw [completes_next]
    refine State.issue_pending (fun s => ?_) ..
    dsimp only
    split
    · simp
    · split <;> simp

theorem execVuFromMx_keeps (x team : Nat) (half : Bool) (fmt a d count : Nat) (s : State) :
    Completes (execVuFromMx x team half fmt a d count s) (fun t => t.pending = s.pending) := by
  unfold execVuFromMx
  split <;> simp

/-! ### Attention -/

@[simp] theorem State.writePage_pending (s : State) (u p : Nat) (x : Page) (off : Nat) (b : List Nat) :
    (s.writePage u p x off b).pending = s.pending := by
  simp [State.writePage]

@[simp] theorem State.readPage_pending (s : State) (u p : Nat) (x : Page) (off n : Nat) :
    (s.readPage u p x off n).2.2.pending = s.pending := by
  simp [State.readPage]

@[simp] theorem State.appendRow_pending (s : State) (t p slot : Nat) (d : AttnDesc) (c : CacheShape) (ks vs : List Nat) (n pos r : Nat) :
    (s.appendRow t p slot d c ks vs n pos r).pending = s.pending := by
  unfold State.appendRow
  split <;> simp

@[simp] theorem State.appendRows_pending (s : State) (t p slot : Nat) (d : AttnDesc) (c : CacheShape) (n : Nat) (ks vs : List Nat) :
    (s.appendRows t p slot d c n ks vs).pending = s.pending := by
  simp [State.appendRows]

@[simp] theorem State.poisonRead_pending (s : State) (x p id : Nat) :
    (s.poisonRead x p id).pending = s.pending := by
  simp [State.poisonRead]

@[simp] theorem State.colVectors_pending (s : State) (t p : Nat) (c : CacheShape) (layer head kind : Nat) (y7 : List Col) :
    (s.colVectors t p c layer head kind y7).2.2.pending = s.pending := by
  induction y7 generalizing s with
  | nil => simp [State.colVectors]
  | cons k ks ih =>
    unfold State.colVectors
    extract_lets x sp a b r
    split
    · simp
    · split <;> simp [r, ih, b, a]

@[simp] theorem State.headVectors_pending (s : State) (t p : Nat) (c : CacheShape) (layer kind : Nat) (ks : List Col) (y7 : List Nat) :
    (s.headVectors t p c layer kind ks y7).2.2.pending = s.pending := by
  induction y7 generalizing s with
  | nil => simp [State.headVectors]
  | cons h hs ih =>
    unfold State.headVectors
    extract_lets a b
    split <;> simp [b, ih, a]

@[simp] theorem State.kvRefuse_pending (s : State) (x t desc : Nat) :
    (s.kvRefuse x t desc).pending = s.pending := by
  simp [State.kvRefuse]

@[simp] theorem State.dropScore_keeps (s : State) (id desc : Nat) :
    (s.dropScore id desc).pending = s.pending ∧ (s.dropScore id desc).mem = s.mem := by
  unfold State.dropScore
  split <;> simp

@[simp] theorem State.scoreWrite_pending (s : State) (t at_ da dd n : Nat) (half byPos : Bool) (d : AttnDesc) (c : CacheShape) (next : Nat) (ks : List Col) (keys : List (List (List Nat))) (qs : List Nat) :
    (s.scoreWrite t at_ da dd n half byPos d c next ks keys qs).pending = s.pending := by
  simp [State.scoreWrite]

@[simp] theorem State.scoreRun_pending (s : State) (x t : Nat) (y : Step) (half : Bool) (aa da dd n : Nat) (d : AttnDesc) :
    (s.scoreRun x t y half aa da dd n d).pending = s.pending := by
  unfold State.scoreRun
  extract_lets p c kvb nk s1 next mine app s2 ks bytes pages s3 cols s4 q2 kv
  have h2 : s2.pending = s.pending := by simp [s2, s1, nk]
  split
  · simp [nk]
  · split
    · simp [h2]
    · split
      · simp [q2, s4, s3, h2]
      · split <;> simp [kv, q2, s4, s3, h2]

@[simp] theorem State.score_pending (s : State) (x t : Nat) (y : Step) (half : Bool) (aa da dd n : Nat) :
    (s.score x t y half aa da dd n).pending = s.pending := by
  simp [State.score]

theorem execVuScore_keeps (x team : Nat) (half : Bool) (a b d count : Nat) (s : State) :
    Completes (execVuScore x team half a b d count s) (fun t => t.pending = s.pending) := by
  unfold execVuScore
  split <;> simp

@[simp] theorem State.addImportance_pending (s : State) (x t p decay : Nat) (k : Col) (ps : List Nat) :
    (s.addImportance x t p decay k ps).pending = s.pending := by
  simp [State.addImportance]

@[simp] theorem State.valueRun_pending (s : State) (x t : Nat) (y : Step) (half : Bool) (aa da dd n : Nat) (d : AttnDesc) (sc : ScoreRec) :
    (s.valueRun x t y half aa da dd n d sc).pending = s.pending := by
  unfold State.valueRun
  extract_lets p c rows ks stride sp byPos st kv stats page s1 outs s2 s3
  have hst : st.2.2.pending = s.pending := by
    simp only [st, sp]
    split <;> simp
  split
  · simp [hst]
  · split
    · simp [kv, hst]
    · simp [s3, s2, s1, kv, hst]

@[simp] theorem State.value_pending (s : State) (x t : Nat) (y : Step) (half : Bool) (aa da dd n : Nat) :
    (s.value x t y half aa da dd n).pending = s.pending := by
  unfold State.value
  dsimp only
  split
  · simp
  · split
    · simp
    · split
      · simp
      · split <;> simp

theorem execVuValue_keeps (x team : Nat) (half : Bool) (a b d count : Nat) (s : State) :
    Completes (execVuValue x team half a b d count s) (fun t => t.pending = s.pending) := by
  unfold execVuValue
  split <;> simp

/-! ### Discipline -/

@[simp] theorem State.acquire_keeps (s : State) :
    (s.acquire).pending = s.pending ∧ (s.acquire).mem = s.mem := by
  simp [State.acquire]

@[simp] theorem State.reSource_keeps (s : State) :
    (s.reSource).pending = s.pending ∧ (s.reSource).mem = s.mem := by
  simp [State.reSource]

/-! ### Collectives -/

@[simp] theorem State.remember_keeps (s : State) (h : CtrlHdr) :
    (s.remember h).pending = s.pending ∧ (s.remember h).mem = s.mem := by
  simp [State.remember]

@[simp] theorem State.inOrder_pending {f : State → State} (hf : ∀ s, (f s).pending = s.pending) (s : State) (h : CtrlHdr)
    (subject : List Nat) : (s.inOrder h subject f).pending = s.pending := by
  fun_cases State.inOrder <;> simp [hf]

@[simp] theorem State.inOrder_mem {f : State → State} (hf : ∀ s, (f s).mem = s.mem) (s : State) (h : CtrlHdr)
    (subject : List Nat) : (s.inOrder h subject f).mem = s.mem := by
  fun_cases State.inOrder <;> simp [hf]

@[simp] theorem State.seenReset_keeps (s : State) (pos unit inc : Nat) :
    (s.seenReset pos unit inc).pending = s.pending ∧ (s.seenReset pos unit inc).mem = s.mem := by
  simp [State.seenReset]

@[simp] theorem State.fence_keeps (s : State) (p pos unit inc : Nat) :
    (s.fence p pos unit inc).pending = s.pending ∧ (s.fence p pos unit inc).mem = s.mem := by
  unfold State.fence
  dsimp only
  split <;> simp

@[simp] theorem State.ackTo_keeps (s : State) (p : Nat) (h : CtrlHdr) :
    (s.ackTo p h).pending = s.pending ∧ (s.ackTo p h).mem = s.mem := by
  simp [State.ackTo]

@[simp] theorem State.ctrlIn_pending {f : State → State} (hf : ∀ s, (f s).pending = s.pending) (s : State) (p : Nat)
    (ok : Bool) (type : Nat) (h : CtrlHdr) (body : List Nat) : (s.ctrlIn p ok type h body f).pending = s.pending := by
  simp [State.ctrlIn, hf]

@[simp] theorem State.ctrlIn_mem {f : State → State} (hf : ∀ s, (f s).mem = s.mem) (s : State) (p : Nat)
    (ok : Bool) (type : Nat) (h : CtrlHdr) (body : List Nat) : (s.ctrlIn p ok type h body f).mem = s.mem := by
  simp [State.ctrlIn, hf]

@[simp] theorem State.unlessQuarantined_pending {f : State → State} (h : ∀ s, (f s).pending = s.pending) (s : State) :
    (s.unlessQuarantined f).pending = s.pending := by
  simp [State.unlessQuarantined, h]

@[simp] theorem State.unlessQuarantined_mem {f : State → State} (h : ∀ s, (f s).mem = s.mem) (s : State) :
    (s.unlessQuarantined f).mem = s.mem := by
  simp [State.unlessQuarantined, h]

@[simp] theorem State.openSession_keeps (s : State) (h : CtrlHdr) (num kind : Nat) :
    (s.openSession h num kind).pending = s.pending ∧ (s.openSession h num kind).mem = s.mem := by
  unfold State.openSession
  split <;> simp

@[simp] theorem State.closeSession_keeps (s : State) (src num : Nat) :
    (s.closeSession src num).pending = s.pending ∧ (s.closeSession src num).mem = s.mem := by
  simp [State.closeSession]

@[simp] theorem State.sendData_keeps (s : State) (m p dst cls session opened : Nat) (b : List Nat) :
    (s.sendData m p dst cls session opened b).pending = s.pending ∧ (s.sendData m p dst cls session opened b).mem = s.mem := by
  simp [State.sendData]

@[simp] theorem State.takeSession_keeps (s : State) :
    (s.takeSession).2.pending = s.pending ∧ (s.takeSession).2.mem = s.mem := by
  simp [State.takeSession]

@[simp] theorem State.addCollIn_keeps (s : State) (d : CollIn) :
    (s.addCollIn d).pending = s.pending ∧ (s.addCollIn d).mem = s.mem := by
  simp [State.addCollIn]

@[simp] theorem State.sendCollStep_keeps (s : State) (c : Coll) (x : CollSend) :
    (s.sendCollStep c x).pending = s.pending ∧ (s.sendCollStep c x).mem = s.mem := by
  simp [State.sendCollStep]

@[simp] theorem State.collFailStep_pending (s : State) (id : Nat) :
    (s.collFailStep id).pending = s.pending := by
  unfold State.collFailStep
  split <;> simp

@[simp] theorem State.abortColl_pending (s : State) (c : Coll) (code port : Nat) :
    (s.abortColl c code port).pending = s.pending := by
  simp [State.abortColl]

@[simp] theorem State.sendMoves_keeps (s : State) (c : Coll) (p : CollPhase) (y3 : List CollMove) :
    (s.sendMoves c p y3).2.2.pending = s.pending ∧ (s.sendMoves c p y3).2.2.mem = s.mem := by
  induction y3 generalizing s with
  | nil => simp [State.sendMoves]
  | cons m ms ih =>
    unfold State.sendMoves
    split <;> simp [ih]

@[simp] theorem State.finishColl_pending (s : State) (c : Coll) :
    (s.finishColl c).pending = s.pending := by
  simp [State.finishColl]

@[simp] theorem State.runColl_pending (s : State) (p id y3 : Nat) :
    (s.runColl p id y3).pending = s.pending := by
  induction y3 generalizing s with
  | zero => simp [State.runColl]
  | succ n ih =>
    unfold State.runColl
    dsimp only
    split
    · simp
    · split
      · simp
      · simp (disch := (intros; split <;> simp)) [ih]

@[simp] theorem State.advanceColl_pending (s : State) (p id : Nat) :
    (s.advanceColl p id).pending = s.pending := by
  unfold State.advanceColl
  split <;> simp

@[simp] theorem State.startColl_pending (s : State) (x a : Nat) (y : Step) :
    (s.startColl x a y).pending = s.pending := by
  simp [State.startColl]

theorem execColl_keeps (x a : Nat) (s : State) :
    Completes (execColl x a s) (fun t => t.pending = s.pending) := by
  unfold execColl
  split <;> simp

@[simp] theorem State.ackHeld_pending (s : State) :
    (s.ackHeld).pending = s.pending := by
  simp [State.ackHeld]

theorem execCollStep_keeps (p : Nat) (ok : Bool) (h : CtrlHdr) (id step dir session bytes check : Nat) (s : State) :
    Completes (execCollStep p ok h id step dir session bytes check s) (fun t => t.pending = s.pending) := by
  unfold execCollStep
  rw [completes_next]
  refine State.ctrlIn_pending (fun s => State.unlessQuarantined_pending (fun s => ?_) s) ..
  dsimp only
  split
  · simp
  · split
    · simp
    · split <;> simp

theorem execCollAck_keeps (p : Nat) (ok : Bool) (h : CtrlHdr) (id step dir : Nat) (s : State) :
    Completes (execCollAck p ok h id step dir s) (fun t => t.pending = s.pending) := by
  unfold execCollAck
  rw [completes_next]
  refine State.ctrlIn_pending (fun s => State.unlessQuarantined_pending (fun s => ?_) s) ..
  split <;> simp

theorem execCollAbort_keeps (p : Nat) (ok : Bool) (h : CtrlHdr) (id code port pos : Nat) (s : State) :
    Completes (execCollAbort p ok h id code port pos s) (fun t => t.pending = s.pending) := by
  unfold execCollAbort
  rw [completes_next]
  refine State.ctrlIn_pending (fun s => State.unlessQuarantined_pending (fun s =>
    State.inOrder_pending (fun s => ?_) ..) s) ..
  split
  · simp
  · simp

theorem execCollStepResend_keeps (part id dir : Nat) (s : State) :
    Completes (execCollStepResend part id dir s) (fun t => t.pending = s.pending ∧ t.mem = s.mem) := by
  unfold execCollStepResend
  split <;> simp

theorem execCollTimeout_keeps (part id : Nat) (s : State) :
    Completes (execCollTimeout part id s) (fun t => t.pending = s.pending) := by
  unfold execCollTimeout
  split <;> simp

@[simp] theorem State.rerouteColls_pending (s : State) (p : Nat) :
    (s.rerouteColls p).pending = s.pending := by
  unfold State.rerouteColls
  refine State.each_pending (fun s c0 => ?_) _ _
  dsimp only
  split
  · simp
  · have h : ∀ (xs : List CollSend) (a : List CollSend × State), (xs.foldl (fun (a : List CollSend × State) x =>
        if x.port = p then
          (a.1 ++ [{ x with port := otherPort p, other := true, session := a.2.takeSession.1 }], a.2.takeSession.2)
        else (a.1 ++ [x], a.2)) a).2.pending = a.2.pending := by
      intro xs a
      refine foldl_keeps (fun a => a.2.pending) (fun b x => ?_) xs a
      split <;> simp
    split
    · simp
    · simp [h]

@[simp] theorem State.fenceColls_pending (s : State) (pos : Nat) :
    (s.fenceColls pos).pending = s.pending := by
  simp [State.fenceColls]

/-! ### Experts -/

@[simp] theorem State.listedInput_pending (s : State) (x p a : Nat) (l : Layer) (vs : List Nat) :
    (s.listedInput x p a l vs).2.2.2.pending = s.pending := by
  unfold State.listedInput
  rw [foldl_keeps (fun a : List (Nat × Nat × List Nat) × Bool × Bool × State => a.2.2.2.pending)]
  intro a k
  simp

@[simp] theorem State.listedAgain_pending (s : State) (x p a : Nat) (l : Layer) (vs : List Nat) (r : Retained) :
    (s.listedAgain x p a l vs r).2.2.2.pending = s.pending := by
  simp [State.listedAgain]

@[simp] theorem State.expertWork_pending (s : State) (x p a : Nat) (y : Step) (h : List Nat) (e : Expert) (vs : List Nat) :
    (s.expertWork x p a y h e vs).2.2.2.pending = s.pending := by
  unfold State.expertWork
  rw [foldl_keeps (fun a : List ExpertWork × Bool × Bool × State => a.2.2.2.pending)]
  intro a k
  dsimp only
  split <;> split <;> simp

@[simp] theorem State.queueWork_keeps (s : State) (step : Nat) (h : List Nat) (w : ExpertWork) :
    (s.queueWork step h w).pending = s.pending ∧ (s.queueWork step h w).mem = s.mem := by
  simp [State.queueWork]

@[simp] theorem State.callExpert_keeps (s : State) (c : ExpCall) (p : Nat) (h : List Nat) :
    (s.callExpert c p h).pending = s.pending ∧ (s.callExpert c p h).mem = s.mem := by
  unfold State.callExpert
  dsimp only
  split <;> simp

@[simp] theorem State.takeCall_keeps (s : State) :
    (s.takeCall).2.pending = s.pending ∧ (s.takeCall).2.mem = s.mem := by
  simp [State.takeCall]

@[simp] theorem State.fire_pending (s : State) (x a out : Nat) (y : Step) (h : List Nat) (c : Nat × List (Nat × Nat)) :
    (s.fire x a out y h c).2.pending = s.pending := by
  unfold State.fire
  dsimp only
  split
  · rfl
  · split
    · simp
    · split
      · simp
      · split
        · simp
        · split
          · simp
          · simp
          · split <;> simp

@[simp] theorem State.fireAll_pending (s : State) (x a : Nat) (y : Step) (h : List Nat) (out : Nat) (y6 : List (Nat × List (Nat × Nat))) :
    (s.fireAll x a y h out y6).pending = s.pending := by
  induction y6 generalizing s out with
  | nil => simp [State.fireAll]
  | cons c cs ih => simp [State.fireAll, ih]

@[simp] theorem State.gate_pending (s : State) (x set topk inp disp vectors : Nat) (y : Step) :
    (s.gate x set topk inp disp vectors y).pending = s.pending := by
  simp [State.gate]

theorem execGate_keeps (x set topk inp disp vectors : Nat) (s : State) :
    Completes (execGate x set topk inp disp vectors s) (fun t => t.pending = s.pending) := by
  unfold execGate
  split <;> simp

@[simp] theorem State.loadExpert_pending (s : State) (x unit : Nat) (e : Nat × Place) :
    (s.loadExpert x unit e).pending = s.pending := by
  simp [State.loadExpert]

@[simp] theorem State.expertGoes_pending (s : State) (x p : Nat) (r : ExpertRun) :
    (s.expertGoes x p r).2.pending = s.pending := by
  unfold State.expertGoes
  split <;> simp

@[simp] theorem State.expertsGo_pending (s : State) (x : Nat) :
    (s.expertsGo x).pending = s.pending := by
  unfold State.expertsGo
  split <;> simp

theorem execRemoteTierWaitExpire_keeps (x : Nat) (expert : Bool) (n : Nat) (s : State) :
    Completes (execRemoteTierWaitExpire x expert n s) (fun t => t.pending = s.pending) := by
  unfold execRemoteTierWaitExpire
  dsimp only
  split
  · simp
  · split
    · split
      · simp
      · split <;> simp
    · split
      · simp
      · split <;> simp

@[simp] theorem State.sendDone_keeps (s : State) (dst part id code session : Nat) :
    (s.sendDone dst part id code session).pending = s.pending ∧ (s.sendDone dst part id code session).mem = s.mem := by
  simp [State.sendDone]

@[simp] theorem State.putServed_keeps (s : State) (v w : Served) :
    (s.putServed v w).pending = s.pending ∧ (s.putServed v w).mem = s.mem := by
  simp [State.putServed]

@[simp] theorem State.answerCall_keeps (s : State) (v : Served) :
    (s.answerCall v).pending = s.pending ∧ (s.answerCall v).mem = s.mem := by
  unfold State.answerCall
  extract_lets r q s1
  have hr : r.2.pending = s.pending := foldl_keeps (fun a : List Nat × State => a.2.pending) (by intro b x; rfl) _ _
  have hm : r.2.mem = s.mem := foldl_keeps (fun a : List Nat × State => a.2.mem) (by intro b x; rfl) _ _
  simp only [s1]
  split <;> simp [q, hr, hm]

@[simp] theorem State.serve_keeps (s : State) (v : Served) :
    (s.serve v).pending = s.pending ∧ (s.serve v).mem = s.mem := by
  unfold State.serve
  repeat' split
  all_goals simp

@[simp] theorem State.serveAll_keeps (s : State) :
    (s.serveAll).pending = s.pending ∧ (s.serveAll).mem = s.mem := by
  simp [State.serveAll]

theorem execBeatBoundary_keeps (wrong : List (Nat × Nat × Nat × Int)) (missing : List (Nat × Nat × Nat)) (s : State) :
    Completes (execBeatBoundary wrong missing s) (fun t => t.pending = s.pending) := by
  simp [execBeatBoundary]

@[simp] theorem State.dropCall_keeps (s : State) (v : Served) :
    (s.dropCall v).pending = s.pending ∧ (s.dropCall v).mem = s.mem := by
  unfold State.dropCall
  dsimp only
  split <;> simp

theorem execExpertCall_keeps (p : Nat) (ok : Bool) (h : CtrlHdr) (id set position vectors sessionIn inBytes outBytes : Nat) (s : State) :
    Completes (execExpertCall p ok h id set position vectors sessionIn inBytes outBytes s) (fun t => t.pending = s.pending ∧ t.mem = s.mem) := by
  unfold execExpertCall
  rw [completes_next]
  refine ⟨State.ctrlIn_pending (fun s => State.unlessQuarantined_pending (fun s => ?_) s) ..,
    State.ctrlIn_mem (fun s => State.unlessQuarantined_mem (fun s => ?_) s) ..⟩
  all_goals
    split
    · simp
    · split <;> simp

@[simp] theorem State.collect_pending (s : State) (c : ExpCall) :
    (s.collect c).pending = s.pending := by
  unfold State.collect
  repeat' split
  all_goals simp

@[simp] theorem State.collectAll_pending (s : State) :
    (s.collectAll).pending = s.pending := by
  simp [State.collectAll]

@[simp] theorem State.failCall_pending (s : State) (c : ExpCall) (code : Nat) :
    (s.failCall c code).pending = s.pending := by
  simp [State.failCall]

theorem execExpertDone_keeps (p : Nat) (ok : Bool) (h : CtrlHdr) (id code session : Nat) (s : State) :
    Completes (execExpertDone p ok h id code session s) (fun t => t.pending = s.pending) := by
  unfold execExpertDone
  rw [completes_next]
  refine State.ctrlIn_pending (fun s => State.unlessQuarantined_pending (fun s => ?_) s) ..
  split
  · simp
  · split <;> simp

@[simp] theorem State.callLost_pending (s : State) (id : Nat) :
    (s.callLost id).pending = s.pending := by
  unfold State.callLost
  repeat' split
  all_goals simp

theorem execExpertCallTimeout_keeps (id : Nat) (s : State) :
    Completes (execExpertCallTimeout id s) (fun t => t.pending = s.pending) := by
  simp [execExpertCallTimeout]

@[simp] theorem State.putPiece_keeps (s : State) (src num off : Nat) (b : List Nat) :
    (s.putPiece src num off b).pending = s.pending ∧ (s.putPiece src num off b).mem = s.mem := by
  simp [State.putPiece]

/-! ### Links -/

@[simp] theorem State.showLane_keeps (s : State) (p : Nat) :
    (s.showLane p).pending = s.pending ∧ (s.showLane p).mem = s.mem := by
  simp [State.showLane]

@[simp] theorem State.laneSyms_keeps (s : State) (p lane n : Nat) :
    (s.laneSyms p lane n).pending = s.pending ∧ (s.laneSyms p lane n).mem = s.mem := by
  simp [State.laneSyms]

@[simp] theorem State.setLink_keeps (s : State) (p st width : Nat) :
    (s.setLink p st width).pending = s.pending ∧ (s.setLink p st width).mem = s.mem := by
  simp [State.setLink]

@[simp] theorem State.lanesOff_keeps (s : State) (p : Nat) :
    (s.lanesOff p).pending = s.pending ∧ (s.lanesOff p).mem = s.mem := by
  simp [State.lanesOff]

@[simp] theorem State.train_keeps (s : State) (p : Nat) (initial : Bool) :
    (s.train p initial).pending = s.pending ∧ (s.train p initial).mem = s.mem := by
  simp [State.train]

@[simp] theorem State.retrain_keeps (s : State) (p : Nat) :
    (s.retrain p).pending = s.pending ∧ (s.retrain p).mem = s.mem := by
  simp [State.retrain]

@[simp] theorem State.darken_keeps (s : State) (p : Nat) :
    (s.darken p).pending = s.pending ∧ (s.darken p).mem = s.mem := by
  simp [State.darken]

@[simp] theorem State.undark_keeps (s : State) (p : Nat) :
    (s.undark p).pending = s.pending ∧ (s.undark p).mem = s.mem := by
  simp [State.undark]

@[simp] theorem State.setCway_keeps (s : State) (a st : Nat) :
    (s.setCway a st).pending = s.pending ∧ (s.setCway a st).mem = s.mem := by
  simp [State.setCway]

@[simp] theorem State.setCwayHeld_keeps (s : State) (a : Nat) (b : Bool) :
    (s.setCwayHeld a b).pending = s.pending ∧ (s.setCwayHeld a b).mem = s.mem := by
  simp [State.setCwayHeld]

@[simp] theorem State.setCwayFault_keeps (s : State) (a : Nat) (b : Bool) :
    (s.setCwayFault a b).pending = s.pending ∧ (s.setCwayFault a b).mem = s.mem := by
  simp [State.setCwayFault]

@[simp] theorem State.openCway_keeps (s : State) (a : Nat) :
    (s.openCway a).pending = s.pending ∧ (s.openCway a).mem = s.mem := by
  simp [State.openCway]

@[simp] theorem State.holdCway_keeps (s : State) (a : Nat) :
    (s.holdCway a).pending = s.pending ∧ (s.holdCway a).mem = s.mem := by
  simp [State.holdCway]

theorem execCwayOpen_keeps (a : Nat) (s : State) :
    Completes (execCwayOpen a s) (fun t => t.pending = s.pending ∧ t.mem = s.mem) := by
  simp [execCwayOpen]

theorem execCwayClose_keeps (a : Nat) (s : State) :
    Completes (execCwayClose a s) (fun t => t.pending = s.pending ∧ t.mem = s.mem) := by
  simp [execCwayClose]

theorem execCwayConfirm_keeps (a : Nat) (s : State) :
    Completes (execCwayConfirm a s) (fun t => t.pending = s.pending ∧ t.mem = s.mem) := by
  simp [execCwayConfirm]

theorem execCwayConfirmTimeout_keeps (a : Nat) (s : State) :
    Completes (execCwayConfirmTimeout a s) (fun t => t.pending = s.pending ∧ t.mem = s.mem) := by
  simp [execCwayConfirmTimeout]

@[simp] theorem State.requeue_keeps (s : State) (ks : List Packet) :
    (s.requeue ks).pending = s.pending ∧ (s.requeue ks).mem = s.mem := by
  unfold State.requeue
  refine State.each_quiet (fun s k => ?_) _ _
  split
  · simp
  · split
    · simp
    · split <;> simp

@[simp] theorem State.portDown_pending (s : State) (p cause : Nat) :
    (s.portDown p cause).pending = s.pending := by
  simp [State.portDown]

theorem execLaserLow_keeps (p : Nat) (s : State) :
    Completes (execLaserLow p s) (fun t => t.pending = s.pending) := by
  simp [execLaserLow]

theorem execDownLightCheck_keeps (p : Nat) (light : Bool) (s : State) :
    Completes (execDownLightCheck p light s) (fun t => t.pending = s.pending ∧ t.mem = s.mem) := by
  simp [execDownLightCheck]

theorem execLinkRetrain_keeps (p : Nat) (s : State) :
    Completes (execLinkRetrain p s) (fun t => t.pending = s.pending ∧ t.mem = s.mem) := by
  simp [execLinkRetrain]

theorem execLinkDark_keeps (p : Nat) (dark : Bool) (s : State) :
    Completes (execLinkDark p dark s) (fun t => t.pending = s.pending ∧ t.mem = s.mem) := by
  simp [execLinkDark]

@[simp] theorem State.onNak_keeps (s : State) (p last : Nat) :
    (s.onNak p last).pending = s.pending ∧ (s.onNak p last).mem = s.mem := by
  simp [State.onNak]

@[simp] theorem State.acceptFlit_keeps (s : State) (p seq : Nat) :
    (s.acceptFlit p seq).pending = s.pending ∧ (s.acceptFlit p seq).mem = s.mem := by
  simp [State.acceptFlit]

theorem execFlitReceive_keeps (p : Nat) (bytes : List Nat) (corr : List (Nat × Nat)) (uncorr : Nat) (s : State) :
    Completes (execFlitReceive p bytes corr uncorr s) (fun t => t.pending = s.pending ∧ t.mem = s.mem) := by
  unfold execFlitReceive
  dsimp only
  split
  · exact ⟨s, rfl, rfl, rfl⟩
  · split
    · rw [completes_next, (State.answerFlit_keeps ..).1, (State.answerFlit_keeps ..).2, State.setPort_pending, State.setPort_mem]
      split <;> simp
    · rw [completes_next]
      split <;> split <;> simp

theorem execNakReceived_keeps (p last : Nat) (s : State) :
    Completes (execNakReceived p last s) (fun t => t.pending = s.pending ∧ t.mem = s.mem) := by
  simp [execNakReceived]

theorem execLaneFail_keeps (p lane : Nat) (s : State) :
    Completes (execLaneFail p lane s) (fun t => t.pending = s.pending ∧ t.mem = s.mem) := by
  unfold execLaneFail
  dsimp only
  split
  · simp
  · split
    · simp
    · split <;> simp

@[simp] theorem State.lack_keeps (s : State) (p : Nat) :
    (s.lack p).pending = s.pending ∧ (s.lack p).mem = s.mem := by
  simp [State.lack]

@[simp] theorem State.setDisc_keeps (s : State) (p v : Nat) :
    (s.setDisc p v).pending = s.pending ∧ (s.setDisc p v).mem = s.mem := by
  simp [State.setDisc]

@[simp] theorem State.clearNeeds_keeps (s : State) :
    (s.clearNeeds).pending = s.pending ∧ (s.clearNeeds).mem = s.mem := by
  unfold State.clearNeeds
  extract_lets s1
  have h : s1.pending = s.pending ∧ s1.mem = s.mem := by
    refine State.each_quiet (fun _ _ => ?_) _ _
    exact ⟨rfl, rfl⟩
  rw [← h.1, ← h.2]
  refine State.each_quiet (fun _ _ => ?_) _ _
  simp

@[simp] theorem State.compareDigests_keeps (s : State) (p : Nat) (b : List Nat) :
    (s.compareDigests p b).pending = s.pending ∧ (s.compareDigests p b).mem = s.mem := by
  simp [State.compareDigests]

@[simp] theorem State.onHello_keeps (s : State) (p : Nat) (b : List Nat) :
    (s.onHello p b).pending = s.pending ∧ (s.onHello p b).mem = s.mem := by
  unfold State.onHello
  extract_lets pos inc x fresh s1 s2 s3 s4 s5 src s6 s7 s8 src
  have h : s6.pending = s.pending ∧ s6.mem = s.mem := by simp [s6, s5, s4, s3, s2, s1]
  split
  · simp [h]
  · split
    · simp [h]
    · split
      · simp [h]
      · simp [s8, s7, h]

theorem execHelloSend_keeps (p : Nat) (s : State) :
    Completes (execHelloSend p s) (fun t => t.pending = s.pending ∧ t.mem = s.mem) := by
  simp [execHelloSend]

theorem execHello_keeps (p : Nat) (ok : Bool) (h : CtrlHdr) (body : List Nat) (s : State) :
    Completes (execHello p ok h body s) (fun t => t.pending = s.pending ∧ t.mem = s.mem) := by
  simp [execHello]

@[simp] theorem State.newPeer_keeps (s : State) (p : Nat) (b : List Nat) :
    (s.newPeer p b).pending = s.pending ∧ (s.newPeer p b).mem = s.mem := by
  simp [State.newPeer]

@[simp] theorem State.attemptFails_pending (s : State) (p : Nat) :
    (s.attemptFails p).pending = s.pending := by
  simp [State.attemptFails]

theorem execTrainingAttemptEnd_keeps (p : Nat) (good : List Nat) (lock : Bool) (hello : Option (List Nat)) (s : State) :
    Completes (execTrainingAttemptEnd p good lock hello s) (fun t => t.pending = s.pending) := by
  unfold execTrainingAttemptEnd
  repeat' split
  all_goals simp

theorem execTrainingTimeLimit_keeps (p : Nat) (s : State) :
    Completes (execTrainingTimeLimit p s) (fun t => t.pending = s.pending) := by
  simp [execTrainingTimeLimit]

theorem execDiscoveryDeadline_keeps (lit : List Nat) (s : State) :
    Completes (execDiscoveryDeadline lit s) (fun t => t.pending = s.pending) := by
  simp [execDiscoveryDeadline]

theorem execPortAutoReadmit_keeps (p : Nat) (s : State) :
    Completes (execPortAutoReadmit p s) (fun t => t.pending = s.pending ∧ t.mem = s.mem) := by
  simp [execPortAutoReadmit]

theorem execAck_keeps (p : Nat) (ok : Bool) (h : CtrlHdr) (acked : Nat) (s : State) :
    Completes (execAck p ok h acked s) (fun t => t.pending = s.pending ∧ t.mem = s.mem) := by
  simp [execAck]

@[simp] theorem State.unreachable_pending (s : State) (u : Unacked) :
    (s.unreachable u).pending = s.pending := by
  fun_cases State.unreachable <;> simp

theorem execCtrlRetransmit_keeps (unit seq : Nat) (s : State) :
    Completes (execCtrlRetransmit unit seq s) (fun t => t.pending = s.pending) := by
  unfold execCtrlRetransmit
  split
  · simp
  · dsimp only
    split
    · simp
    · split
      · rw [completes_next]
        split
        · simp
        · split <;> simp
      · simp

@[simp] theorem State.learnRevoke_pending (s : State) (r : Rev) :
    (s.learnRevoke r).pending = s.pending := by
  simp [State.learnRevoke]

theorem execRevoke_keeps (p : Nat) (ok : Bool) (h : CtrlHdr) (pos unit inc : Nat) (s : State) :
    Completes (execRevoke p ok h pos unit inc s) (fun t => t.pending = s.pending) := by
  unfold execRevoke
  rw [completes_next]
  refine State.ctrlIn_pending (fun s => State.withRev_pending (fun s => ?_) ..) ..
  simp

theorem execRevoked_keeps (p : Nat) (ok : Bool) (h : CtrlHdr) (pos unit inc : Nat) (s : State) :
    Completes (execRevoked p ok h pos unit inc s) (fun t => t.pending = s.pending) := by
  simp [execRevoked]

@[simp] theorem State.torRevoke_pending (s : State) (pos inc : Nat) :
    (s.torRevoke pos inc).pending = s.pending := by
  simp [State.torRevoke]

theorem execTorRevoke_keeps (pos : Nat) (s : State) :
    Completes (execTorRevoke pos s) (fun t => t.pending = s.pending) := by
  simp [execTorRevoke]

theorem execLinkState_keeps (p : Nat) (ok : Bool) (h : CtrlHdr) (pos port state inc : Nat) (s : State) :
    Completes (execLinkState p ok h pos port state inc s) (fun t => t.pending = s.pending ∧ t.mem = s.mem) := by
  simp [execLinkState]

theorem execRouteReplan_keeps (s : State) :
    Completes (execRouteReplan s) (fun t => t.pending = s.pending ∧ t.mem = s.mem) := by
  simp [execRouteReplan]

theorem execWaySyncSend_keeps (p frac : Nat) (s : State) :
    Completes (execWaySyncSend p frac s) (fun t => t.pending = s.pending ∧ t.mem = s.mem) := by
  simp [execWaySyncSend]

theorem execWaySync_keeps (p : Nat) (ok : Bool) (h : CtrlHdr) (t1 f1 frac : Nat) (s : State) :
    Completes (execWaySync p ok h t1 f1 frac s) (fun t => t.pending = s.pending ∧ t.mem = s.mem) := by
  simp [execWaySync]

/-! ### Power -/

@[simp] theorem State.powerEvent_keeps (s : State) :
    (s.powerEvent).pending = s.pending ∧ (s.powerEvent).mem = s.mem := by
  simp [State.powerEvent]

@[simp] theorem State.powerRecord_keeps (s : State) (hubUe : Bool) (sev code source subject value : Nat) (rest : List Nat) :
    (s.powerRecord hubUe sev code source subject value rest).pending = s.pending ∧ (s.powerRecord hubUe sev code source subject value rest).mem = s.mem := by
  simp [State.powerRecord]

@[simp] theorem State.loadAdc_keeps (s : State) :
    (s.loadAdc).pending = s.pending ∧ (s.loadAdc).mem = s.mem := by
  unfold State.loadAdc
  rw [State.raise_pending, State.raise_mem]
  refine State.each_quiet (fun _ _ => ?_) _ _
  exact ⟨rfl, rfl⟩

@[simp] theorem State.showRail_keeps (s : State) (k : Nat) :
    (s.showRail k).pending = s.pending ∧ (s.showRail k).mem = s.mem := by
  simp [State.showRail]

@[simp] theorem State.setMeasValid_keeps (s : State) (v : Bool) :
    (s.setMeasValid v).pending = s.pending ∧ (s.setMeasValid v).mem = s.mem := by
  simp [State.setMeasValid]

@[simp] theorem State.visitDone_keeps (s : State) (c : Nat) (x : Chan) (sum : Nat) :
    (s.visitDone c x sum).pending = s.pending ∧ (s.visitDone c x sum).mem = s.mem := by
  simp [State.visitDone]

@[simp] theorem State.sweepEnd_keeps (s : State) :
    (s.sweepEnd).pending = s.pending ∧ (s.sweepEnd).mem = s.mem := by
  simp [State.sweepEnd]

@[simp] theorem State.holdUrgent_keeps (s : State) (us : List (Nat × Bool)) :
    (s.holdUrgent us).pending = s.pending ∧ (s.holdUrgent us).mem = s.mem := by
  simp [State.holdUrgent]

@[simp] theorem State.urgentPair_keeps (s : State) :
    (s.urgentPair).pending = s.pending ∧ (s.urgentPair).mem = s.mem := by
  simp [State.urgentPair]

@[simp] theorem State.urgentDone_keeps (s : State) (code : Nat) :
    (s.urgentDone code).pending = s.pending ∧ (s.urgentDone code).mem = s.mem := by
  unfold State.urgentDone
  split <;> simp

theorem execAdcConversionDone_keeps (c code : Nat) (urgent : Bool) (s : State) :
    Completes (execAdcConversionDone c code urgent s) (fun t => t.pending = s.pending ∧ t.mem = s.mem) := by
  simp [execAdcConversionDone]

theorem execAdcOpenTest_keeps (c up down : Nat) (s : State) :
    Completes (execAdcOpenTest c up down s) (fun t => t.pending = s.pending ∧ t.mem = s.mem) := by
  simp [execAdcOpenTest]

theorem execAdcUrgentGo_keeps (c : Nat) (s : State) :
    Completes (execAdcUrgentGo c s) (fun t => t.pending = s.pending ∧ t.mem = s.mem) := by
  unfold execAdcUrgentGo
  dsimp only
  split <;> simp

@[simp] theorem State.setBoost_keeps (s : State) (r : Nat) (on : Bool) :
    (s.setBoost r on).pending = s.pending ∧ (s.setBoost r on).mem = s.mem := by
  simp [State.setBoost]

@[simp] theorem State.grantBoost_keeps (s : State) (ok : Bool) :
    (s.grantBoost ok).pending = s.pending ∧ (s.grantBoost ok).mem = s.mem := by
  simp [State.grantBoost]

theorem execBoostSwitch_keeps (r : Nat) (s : State) :
    Completes (execBoostSwitch r s) (fun t => t.pending = s.pending ∧ t.mem = s.mem) := by
  unfold execBoostSwitch
  split <;> simp

@[simp] theorem State.floorTick_keeps (s : State) (low : Bool) :
    (s.floorTick low).pending = s.pending ∧ (s.floorTick low).mem = s.mem := by
  simp [State.floorTick]

@[simp] theorem State.setPackageRein_keeps (s : State) (r : Nat) :
    (s.setPackageRein r).pending = s.pending ∧ (s.setPackageRein r).mem = s.mem := by
  simp [State.setPackageRein]

@[simp] theorem State.clearActivity_keeps (s : State) :
    (s.clearActivity).pending = s.pending ∧ (s.clearActivity).mem = s.mem := by
  simp [State.clearActivity]

theorem execBridleTick_keeps (lanes sram dram : Nat) (s : State) :
    Completes (execBridleTick lanes sram dram s) (fun t => t.pending = s.pending ∧ t.mem = s.mem) := by
  simp [execBridleTick]

@[simp] theorem State.showFit_keeps (s : State) :
    (s.showFit).pending = s.pending ∧ (s.showFit).mem = s.mem := by
  simp [State.showFit]

@[simp] theorem State.resetFit_keeps (s : State) :
    (s.resetFit).pending = s.pending ∧ (s.resetFit).mem = s.mem := by
  simp [State.resetFit]

@[simp] theorem State.refit_keeps (s : State) (meas : Rat) :
    (s.refit meas).pending = s.pending ∧ (s.refit meas).mem = s.mem := by
  simp [State.refit]

@[simp] theorem State.backstop_keeps (s : State) (meas : Rat) :
    (s.backstop meas).pending = s.pending ∧ (s.backstop meas).mem = s.mem := by
  simp [State.backstop]

@[simp] theorem State.showMeas_keeps (s : State) (meas : Rat) (ms : Nat) :
    (s.showMeas meas ms).pending = s.pending ∧ (s.showMeas meas ms).mem = s.mem := by
  simp [State.showMeas]

@[simp] theorem State.useMeas_keeps (s : State) (meas : Rat) :
    (s.useMeas meas).pending = s.pending ∧ (s.useMeas meas).mem = s.mem := by
  simp [State.useMeas]

@[simp] theorem State.endInterval_keeps (s : State) :
    (s.endInterval).pending = s.pending ∧ (s.endInterval).mem = s.mem := by
  simp [State.endInterval]

theorem execBridleMeasure_keeps (s : State) :
    Completes (execBridleMeasure s) (fun t => t.pending = s.pending ∧ t.mem = s.mem) := by
  simp [execBridleMeasure]

theorem execBrdlCapWrite_keeps (cap : Nat) (s : State) :
    Completes (execBrdlCapWrite cap s) (fun t => t.pending = s.pending ∧ t.mem = s.mem) := by
  simp [execBrdlCapWrite]

@[simp] theorem State.retarget_keeps (s : State) :
    (s.retarget).pending = s.pending ∧ (s.retarget).mem = s.mem := by
  unfold State.retarget
  refine State.each_quiet (fun _ _ => ?_) _ _
  exact ⟨rfl, rfl⟩

@[simp] theorem State.turnOn_keeps (s : State) (k : Nat) :
    (s.turnOn k).pending = s.pending ∧ (s.turnOn k).mem = s.mem := by
  simp [State.turnOn]

@[simp] theorem State.startRails_keeps (s : State) :
    (s.startRails).pending = s.pending ∧ (s.startRails).mem = s.mem := by
  simp [State.startRails]

theorem execRailGood_keeps (k : Nat) (s : State) :
    Completes (execRailGood k s) (fun t => t.pending = s.pending ∧ t.mem = s.mem) := by
  unfold execRailGood
  repeat' split
  all_goals simp

theorem execRailGoodTimeout_keeps (k word : Nat) (s : State) :
    Completes (execRailGoodTimeout k word s) (fun t => t.pending = s.pending ∧ t.mem = s.mem) := by
  simp [execRailGoodTimeout]

theorem execRailOnTempRecheck_keeps (s : State) :
    Completes (execRailOnTempRecheck s) (fun t => t.pending = s.pending ∧ t.mem = s.mem) := by
  simp [execRailOnTempRecheck]

@[simp] theorem State.railStops_keeps (s : State) (k : Nat) :
    (s.railStops k).pending = s.pending ∧ (s.railStops k).mem = s.mem := by
  simp [State.railStops]

theorem execVoltMonitorTrip_keeps (k : Nat) (over_ : Bool) (mv : Nat) (s : State) :
    Completes (execVoltMonitorTrip k over_ mv s) (fun t => t.pending = s.pending ∧ t.mem = s.mem) := by
  simp [execVoltMonitorTrip]

@[simp] theorem State.readStatus_keeps (s : State) :
    (s.readStatus).pending = s.pending ∧ (s.readStatus).mem = s.mem := by
  simp [State.readStatus]

theorem execPmbusAlert_keeps (stops : List (Nat × Nat)) (warns : Nat) (failed : Bool) (s : State) :
    Completes (execPmbusAlert stops warns failed s) (fun t => t.pending = s.pending ∧ t.mem = s.mem) := by
  simp [execPmbusAlert]

theorem execSetpointStep_keeps (failed : List Nat) (s : State) :
    Completes (execSetpointStep failed s) (fun t => t.pending = s.pending ∧ t.mem = s.mem) := by
  simp [execSetpointStep]

/-! ### Thermal -/

@[simp] theorem State.showSensor_keeps (s : State) (i : Nat) :
    (s.showSensor i).pending = s.pending ∧ (s.showSensor i).mem = s.mem := by
  simp [State.showSensor]

@[simp] theorem State.showTemps_keeps (s : State) :
    (s.showTemps).pending = s.pending ∧ (s.showTemps).mem = s.mem := by
  simp [State.showTemps]

@[simp] theorem State.noteThrottle_keeps (s : State) (g subject : Nat) (t : Option Int) (rein : Nat) :
    (s.noteThrottle g subject t rein).pending = s.pending ∧ (s.noteThrottle g subject t rein).mem = s.mem := by
  unfold State.noteThrottle
  extract_lets above first s1 s2 last src s3
  have h : s1.pending = s.pending ∧ s1.mem = s.mem := by simp [s1]
  split
  · simp [h]
  · split <;> simp [s3, s2, h]

@[simp] theorem State.showRein_keeps (s : State) (x : Nat) :
    (s.showRein x).pending = s.pending ∧ (s.showRein x).mem = s.mem := by
  simp [State.showRein]

@[simp] theorem State.countThrottle_keeps (s : State) :
    (s.countThrottle).pending = s.pending ∧ (s.countThrottle).mem = s.mem := by
  simp [State.countThrottle]

@[simp] theorem State.throttle_keeps (s : State) (i : Nat) :
    (s.throttle i).pending = s.pending ∧ (s.throttle i).mem = s.mem := by
  simp [State.throttle]

@[simp] theorem State.trip_keeps (s : State) (i : Nat) (t : Int) (hard : Bool) :
    (s.trip i t hard).pending = s.pending ∧ (s.trip i t hard).mem = s.mem := by
  simp [State.trip]

theorem execTripRailsOff_keeps (s : State) :
    Completes (execTripRailsOff s) (fun t => t.pending = s.pending ∧ t.mem = s.mem) := by
  simp [execTripRailsOff]

theorem execTripFinal_keeps (s : State) :
    Completes (execTripFinal s) (fun t => t.pending = s.pending ∧ t.mem = s.mem) := by
  simp [execTripFinal]

@[simp] theorem State.loseString_pending (s : State) (x : Nat) :
    (s.loseString x).pending = s.pending := by
  simp [State.loseString]

@[simp] theorem State.failSensor_pending (s : State) (i : Nat) :
    (s.failSensor i).pending = s.pending := by
  simp [State.failSensor]

@[simp] theorem State.compareSensors_pending (s : State) (x : Nat) :
    (s.compareSensors x).pending = s.pending := by
  simp [State.compareSensors]

@[simp] theorem State.setFast_keeps (s : State) (i : Nat) :
    (s.setFast i).pending = s.pending ∧ (s.setFast i).mem = s.mem := by
  simp [State.setFast]

@[simp] theorem State.checkTrip_keeps (s : State) (i : Nat) (was : Bool) :
    (s.checkTrip i was).pending = s.pending ∧ (s.checkTrip i was).mem = s.mem := by
  simp [State.checkTrip]

@[simp] theorem State.retrimString_pending (s : State) (x : Nat) :
    (s.retrimString x).pending = s.pending := by
  simp [State.retrimString]

@[simp] theorem State.keepTemp_keeps (s : State) (m : Nat) :
    (s.keepTemp m).pending = s.pending ∧ (s.keepTemp m).mem = s.mem := by
  unfold State.keepTemp
  split <;> simp

@[simp] theorem State.settleTemps_pending (s : State) (i : Nat) :
    (s.settleTemps i).pending = s.pending := by
  simp [State.settleTemps]

@[simp] theorem State.takeSample_pending (s : State) (i : Nat) (was : Bool) :
    (s.takeSample i was).pending = s.pending := by
  simp [State.takeSample]

theorem execThermalSample_keeps (i : Nat) (temp : Int) (s : State) :
    Completes (execThermalSample i temp s) (fun t => t.pending = s.pending) := by
  simp [execThermalSample]

@[simp] theorem State.showAge_keeps (s : State) (m : Nat) (v : Int) :
    (s.showAge m v).pending = s.pending ∧ (s.showAge m v).mem = s.mem := by
  simp [State.showAge]

@[simp] theorem State.measuredSlowdown_keeps (s : State) (m : Nat) (c : Nat × Nat) :
    (s.measuredSlowdown m c).2.pending = s.pending ∧ (s.measuredSlowdown m c).2.mem = s.mem := by
  simp [State.measuredSlowdown]

@[simp] theorem State.measureAge_keeps (s : State) (m : Nat) (c : Nat × Nat) :
    (s.measureAge m c).pending = s.pending ∧ (s.measureAge m c).mem = s.mem := by
  simp [State.measureAge]

theorem execAgeingMeasure_keeps (counts : List (Nat × Nat)) (s : State) :
    Completes (execAgeingMeasure counts s) (fun t => t.pending = s.pending ∧ t.mem = s.mem) := by
  simp [execAgeingMeasure]

@[simp] theorem State.setLife_keeps (s : State) :
    (s.setLife).pending = s.pending ∧ (s.setLife).mem = s.mem := by
  simp [State.setLife]

theorem execAgeingReplan_keeps (s : State) :
    Completes (execAgeingReplan s) (fun t => t.pending = s.pending ∧ t.mem = s.mem) := by
  simp [execAgeingReplan]

/-! ### Clocks -/

@[simp] theorem State.showRegion_keeps (s : State) (r : Nat) :
    (s.showRegion r).pending = s.pending ∧ (s.showRegion r).mem = s.mem := by
  simp [State.showRegion]

theorem execDroopTrip_keeps (r mv : Nat) (s : State) :
    Completes (execDroopTrip r mv s) (fun t => t.pending = s.pending ∧ t.mem = s.mem) := by
  simp [execDroopTrip]

theorem execStretchEnd_keeps (r : Nat) (s : State) :
    Completes (execStretchEnd r s) (fun t => t.pending = s.pending ∧ t.mem = s.mem) := by
  simp [execStretchEnd]

theorem execRegionRestart_keeps (r : Nat) (s : State) :
    Completes (execRegionRestart r s) (fun t => t.pending = s.pending ∧ t.mem = s.mem) := by
  simp [execRegionRestart]

theorem execClockMonitorFail_keeps (pll : Bool) (s : State) :
    Completes (execClockMonitorFail pll s) (fun t => t.pending = s.pending ∧ t.mem = s.mem) := by
  simp [execClockMonitorFail]

@[simp] theorem State.setFar_keeps (s : State) (o : Int) :
    (s.setFar o).pending = s.pending ∧ (s.setFar o).mem = s.mem := by
  simp [State.setFar]

@[simp] theorem State.wayFiltered_keeps (s : State) (o rate : Int) :
    (s.wayFiltered o rate).pending = s.pending ∧ (s.wayFiltered o rate).mem = s.mem := by
  unfold State.wayFiltered
  split <;> simp

@[simp] theorem State.setNow_keeps (s : State) (v : Nat) :
    (s.setNow v).pending = s.pending ∧ (s.setNow v).mem = s.mem := by
  simp [State.setNow]

@[simp] theorem State.wayTrack_keeps (s : State) (o : Int) :
    (s.wayTrack o).pending = s.pending ∧ (s.wayTrack o).mem = s.mem := by
  simp [State.wayTrack]

@[simp] theorem State.wayUpdate_keeps (s : State) (o : Int) :
    (s.wayUpdate o).pending = s.pending ∧ (s.wayUpdate o).mem = s.mem := by
  simp [State.wayUpdate]

@[simp] theorem State.heardWay_keeps (s : State) (p state : Nat) :
    (s.heardWay p state).pending = s.pending ∧ (s.heardWay p state).mem = s.mem := by
  simp [State.heardWay]

@[simp] theorem State.fromUpstream_keeps (s : State) (p : Nat) (o : Int) :
    (s.fromUpstream p o).pending = s.pending ∧ (s.fromUpstream p o).mem = s.mem := by
  simp [State.fromUpstream]

theorem execWayReply_keeps (p : Nat) (ok : Bool) (h : CtrlHdr) (t1 t2 t3 f1 f2 f3 state frac : Nat) (s : State) :
    Completes (execWayReply p ok h t1 t2 t3 f1 f2 f3 state frac s) (fun t => t.pending = s.pending ∧ t.mem = s.mem) := by
  simp [execWayReply]

theorem execWaySet_keeps (s : State) :
    Completes (execWaySet s) (fun t => t.pending = s.pending ∧ t.mem = s.mem) := by
  simp [execWaySet]

@[simp] theorem State.ppsUpdate_keeps (s : State) (o : Int) :
    (s.ppsUpdate o).pending = s.pending ∧ (s.ppsUpdate o).mem = s.mem := by
  simp [State.ppsUpdate]

theorem execPpsEdge_keeps (falling : Bool) (s : State) :
    Completes (execPpsEdge falling s) (fun t => t.pending = s.pending ∧ t.mem = s.mem) := by
  simp [execPpsEdge]

@[simp] theorem State.ptpDelayReq_keeps (s : State) (d : Int) (frac : Nat) :
    (s.ptpDelayReq d frac).pending = s.pending ∧ (s.ptpDelayReq d frac).mem = s.mem := by
  simp [State.ptpDelayReq]

@[simp] theorem State.ptpDone_keeps (s : State) (d t3 t4 : Int) :
    (s.ptpDone d t3 t4).pending = s.pending ∧ (s.ptpDone d t3 t4).mem = s.mem := by
  simp [State.ptpDone]

theorem execPtpSync_keeps (domain : Nat) (m : PtpMsg) (frac out : Nat) (s : State) :
    Completes (execPtpSync domain m frac out s) (fun t => t.pending = s.pending ∧ t.mem = s.mem) := by
  unfold execPtpSync
  split
  · simp
  · rw [completes_next]
    split
    · simp
    · simp
    · split <;> simp
    · split <;> simp

theorem execTimeSourceInvalid_keeps (src : Nat) (s : State) :
    Completes (execTimeSourceInvalid src s) (fun t => t.pending = s.pending ∧ t.mem = s.mem) := by
  unfold execTimeSourceInvalid
  dsimp only
  split <;> simp

theorem execTimeRootDisciplineUpdate_keeps (s : State) :
    Completes (execTimeRootDisciplineUpdate s) (fun t => t.pending = s.pending ∧ t.mem = s.mem) := by
  simp [execTimeRootDisciplineUpdate]

/-! ### Reserve -/

@[simp] theorem State.kvTrace_keeps (s : State) (p action slot page : Nat) :
    (s.kvTrace p action slot page).pending = s.pending ∧ (s.kvTrace p action slot page).mem = s.mem := by
  simp [State.kvTrace]

@[simp] theorem State.evictScore_pending (s : State) (p : Nat) (e : Entry) :
    (s.evictScore p e).2.pending = s.pending := by
  simp [State.evictScore]

@[simp] theorem State.evictPick_pending (s : State) (p slot c : Nat) :
    (s.evictPick p slot c).2.pending = s.pending := by
  unfold State.evictPick
  rw [foldl_keeps (fun a : Option (Rat × Entry) × State => a.2.pending)]
  intro a e
  simp

@[simp] theorem State.evictOne_pending (s : State) (p slot c : Nat) :
    (s.evictOne p slot c).2.pending = s.pending := by
  unfold State.evictOne
  dsimp only
  split <;> simp

@[simp] theorem State.evictUntil_pending (s : State) (p slot c : Nat) (done : State → Bool) (y5 : Nat) :
    (s.evictUntil p slot c done y5).pending = s.pending := by
  induction y5 generalizing s with
  | zero => simp [State.evictUntil]
  | succ n ih => simp [State.evictUntil, ih]

@[simp] theorem State.pageState_keeps (s : State) (p id : Nat) (st : PageSt) :
    (s.pageState p id st).pending = s.pending ∧ (s.pageState p id st).mem = s.mem := by
  simp [State.pageState]

@[simp] theorem State.startMove_keeps (s : State) (p id : Nat) (kind : MoveKind) (h : Pool) (seq : Nat) :
    (s.startMove p id kind h seq).pending = s.pending ∧ (s.startMove p id kind h seq).mem = s.mem := by
  unfold State.startMove
  split <;> simp

@[simp] theorem State.startCopy_keeps (s : State) (p slot c : Nat) (e : Entry) :
    (s.startCopy p slot c e).pending = s.pending ∧ (s.startCopy p slot c e).mem = s.mem := by
  unfold State.startCopy
  dsimp only
  split <;> simp

@[simp] theorem State.addPage_keeps (s : State) (p slot c first : Nat) :
    (s.addPage p slot c first).pending = s.pending ∧ (s.addPage p slot c first).mem = s.mem := by
  unfold State.addPage
  dsimp only
  split <;> simp

@[simp] theorem State.takeNeed_keeps (s : State) (p slot : Nat) (n : CacheNeed) :
    (s.takeNeed p slot n).pending = s.pending ∧ (s.takeNeed p slot n).mem = s.mem := by
  simp [State.takeNeed]

@[simp] theorem State.spill_keeps (s : State) (p : Nat) (h : Pool) (n : Nat) :
    (s.spill p h n).pending = s.pending ∧ (s.spill p h n).mem = s.mem := by
  unfold State.spill
  refine State.each_quiet (fun s e => ?_) _ _
  split <;> simp

@[simp] theorem State.enterWait_keeps (s : State) (p g rows : Nat) (ns : List CacheNeed) (hs : List Pool) :
    (s.enterWait p g rows ns hs).pending = s.pending ∧ (s.enterWait p g rows ns hs).mem = s.mem := by
  simp [State.enterWait]

@[simp] theorem State.fitTables_pending (s : State) (p slot upto : Nat) :
    (s.fitTables p slot upto).pending = s.pending := by
  simp [State.fitTables]

@[simp] theorem State.takeAll_pending {take : State → State} (h : ∀ s, (take s).pending = s.pending) (s : State)
    (p g : Nat) : (s.takeAll p g take).pending = s.pending := by
  simp [State.takeAll, h]

@[simp] theorem State.takeAll_mem {take : State → State} (h : ∀ s, (take s).mem = s.mem) (s : State)
    (p g : Nat) : (s.takeAll p g take).mem = s.mem := by
  simp [State.takeAll, h]

@[simp] theorem State.secureNeed_pending {take : State → Reserved × State} (h : ∀ s, (take s).2.pending = s.pending)
    (s : State) (p g rows : Nat) (ns : State → List CacheNeed) :
    (s.secureNeed p g rows ns take).2.pending = s.pending := by
  simp [State.secureNeed, h]

@[simp] theorem State.takeNeeds_keeps (s : State) (p g : Nat) (ns : List CacheNeed) :
    (s.takeNeeds p g ns).2.pending = s.pending ∧ (s.takeNeeds p g ns).2.mem = s.mem := by
  simp [State.takeNeeds]

@[simp] theorem State.reserve_pending (s : State) (p g rows : Nat) :
    (s.reserve p g rows).2.pending = s.pending := by
  simp [State.reserve]

@[simp] theorem State.giveFrame_keeps (s : State) (p tier str frame : Nat) :
    (s.giveFrame p tier str frame).pending = s.pending ∧ (s.giveFrame p tier str frame).mem = s.mem := by
  simp [State.giveFrame]

@[simp] theorem State.moveBytes_pending (s : State) (p n : Nat) (x : Page) (host : List Nat) :
    (s.moveBytes p n x host).2.2.pending = s.pending := by
  simp [State.moveBytes]

@[simp] theorem State.placeBytes_pending (s : State) (p : Nat) (x : Page) (b : List Nat) :
    (s.placeBytes p x b).pending = s.pending := by
  simp [State.placeBytes]

@[simp] theorem State.poisonMoved_keeps (s : State) (m : Move) :
    (s.poisonMoved m).pending = s.pending ∧ (s.poisonMoved m).mem = s.mem := by
  simp [State.poisonMoved]

@[simp] theorem State.countMove_keeps (s : State) (m : Move) (slot : Nat) :
    (s.countMove m slot).pending = s.pending ∧ (s.countMove m slot).mem = s.mem := by
  unfold State.countMove
  split <;> simp

@[simp] theorem State.endMove_pending (s : State) (m : Move) (host : List Nat) :
    (s.endMove m host).pending = s.pending := by
  simp [State.endMove]

@[simp] theorem State.copyParts_pending (s : State) (p : Nat) (x y : Page) (view : Nat) (b : List Nat) :
    (s.copyParts p x y view b).pending = s.pending := by
  simp [State.copyParts]

@[simp] theorem State.endCopy_pending (s : State) (m : Move) :
    (s.endCopy m).pending = s.pending := by
  simp [State.endCopy]

theorem execPageMoveComplete_keeps (p page : Nat) (err : Bool) (host : List Nat) (s : State) :
    Completes (execPageMoveComplete p page err host s) (fun t => t.pending = s.pending) := by
  unfold execPageMoveComplete
  split
  · simp
  · extract_lets src s1 s2 src s3 src s4
    split
    · simp [s4, s3, s2, s1]
    · split <;> simp [s1]

@[simp] theorem State.forkCopy_pending (s : State) (p slot c : Nat) (e : Entry) :
    (s.forkCopy p slot c e).pending = s.pending := by
  unfold State.forkCopy
  dsimp only
  split <;> simp

@[simp] theorem State.forkShare_keeps (s : State) (p slot c : Nat) (e : Entry) :
    (s.forkShare p slot c e).pending = s.pending ∧ (s.forkShare p slot c e).mem = s.mem := by
  simp [State.forkShare]

@[simp] theorem State.forkTake_pending (s : State) (p g : Nat) :
    (s.forkTake p g).2.pending = s.pending := by
  unfold State.forkTake
  extract_lets d k s1
  have h : s1.pending = s.pending := by
    refine State.takeAll_pending (fun s => State.each_pending (fun s c => ?_) _ _) _ _ _
    simp
  split <;> simp [h]

@[simp] theorem State.fork_pending (s : State) (p g rows : Nat) :
    (s.fork p g rows).2.pending = s.pending := by
  simp [State.fork]

@[simp] theorem State.secure_pending (s : State) (p g rows : Nat) :
    (s.secure p g rows).2.pending = s.pending := by
  unfold State.secure
  extract_lets x r
  split
  · split <;> simp [r]
  · simp

@[simp] theorem State.failReserve_keeps (s : State) (p g code : Nat) :
    (s.failReserve p g code).pending = s.pending ∧ (s.failReserve p g code).mem = s.mem := by
  simp [State.failReserve]

theorem execPageWaitRetry_keeps (g : Nat) (s : State) :
    Completes (execPageWaitRetry g s) (fun t => t.pending = s.pending) := by
  unfold execPageWaitRetry
  split
  · simp
  · split
    · simp
    · rw [completes_next]
      split <;> simp

theorem execPageWaitExpire_keeps (g : Nat) (s : State) :
    Completes (execPageWaitExpire g s) (fun t => t.pending = s.pending ∧ t.mem = s.mem) := by
  unfold execPageWaitExpire
  split <;> simp

theorem execKvSel1Write_keeps (index cache : Nat) (s : State) :
    Completes (execKvSel1Write index cache s) (fun t => t.pending = s.pending ∧ t.mem = s.mem) := by
  simp [execKvSel1Write]

theorem execKvHostAreaWrite_keeps (p which value : Nat) (s : State) :
    Completes (execKvHostAreaWrite p which value s) (fun t => t.pending = s.pending ∧ t.mem = s.mem) := by
  unfold execKvHostAreaWrite
  repeat' split
  all_goals simp

/-! ### Slots -/

@[simp] theorem State.parkSlot_keeps (s : State) (p g : Nat) :
    (s.parkSlot p g).pending = s.pending ∧ (s.parkSlot p g).mem = s.mem := by
  unfold State.parkSlot
  dsimp only
  split
  · exact s.park_keeps g
  · rw [← (s.park_keeps g).1, ← (s.park_keeps g).2]
    refine State.each_quiet_of_step (fun u id t ht => ?_) _ _
    rw [← ht]
    split <;> simp

@[simp] theorem State.finishRun_pending (s : State) (p g code : Nat) (yielded : Bool) (count : Nat) (bytes : List Nat) :
    (s.finishRun p g code yielded count bytes).pending = s.pending := by
  simp [State.finishRun]

@[simp] theorem State.readDesc_pending (s : State) (g : Nat) :
    (s.readDesc g).2.pending = s.pending := by
  simp [State.readDesc]

@[simp] theorem State.ignoreCmd_keeps (s : State) (p : Nat) :
    (s.ignoreCmd p).pending = s.pending ∧ (s.ignoreCmd p).mem = s.mem := by
  simp [State.ignoreCmd]

@[simp] theorem State.arm_keeps (s : State) (p g : Nat) (d : Desc) :
    (s.arm p g d).pending = s.pending ∧ (s.arm p g d).mem = s.mem := by
  simp [State.arm]

@[simp] theorem State.cmdArm_pending (s : State) (p g : Nat) :
    (s.cmdArm p g).pending = s.pending := by
  simp [State.cmdArm]

@[simp] theorem State.continueRun_pending (s : State) (p g : Nat) (d : Desc) :
    (s.continueRun p g d).pending = s.pending := by
  simp [State.continueRun]

@[simp] theorem State.cmdContinue_pending (s : State) (p g : Nat) :
    (s.cmdContinue p g).pending = s.pending := by
  simp [State.cmdContinue]

@[simp] theorem State.pauseNow_keeps (s : State) (p g : Nat) :
    (s.pauseNow p g).pending = s.pending ∧ (s.pauseNow p g).mem = s.mem := by
  simp [State.pauseNow]

@[simp] theorem State.cmdPause_keeps (s : State) (p g : Nat) :
    (s.cmdPause p g).pending = s.pending ∧ (s.cmdPause p g).mem = s.mem := by
  simp [State.cmdPause]

@[simp] theorem State.cmdResume_keeps (s : State) (p g : Nat) :
    (s.cmdResume p g).pending = s.pending ∧ (s.cmdResume p g).mem = s.mem := by
  simp [State.cmdResume]

@[simp] theorem State.cmdCancel_pending (s : State) (p g : Nat) :
    (s.cmdCancel p g).pending = s.pending := by
  unfold State.cmdCancel
  extract_lets x s1
  split
  · simp
  · split
    · split <;> simp [s1]
    · simp [s1]

@[simp] theorem State.cmdRelease_keeps (s : State) (p g : Nat) :
    (s.cmdRelease p g).pending = s.pending ∧ (s.cmdRelease p g).mem = s.mem := by
  simp [State.cmdRelease]

@[simp] theorem State.slotCmd_pending (s : State) (p g cmd : Nat) :
    (s.slotCmd p g cmd).pending = s.pending := by
  unfold State.slotCmd
  split <;> simp

@[simp] theorem State.onSlot_pending {f : Nat → State} {s : State} (h : ∀ p, (f p).pending = s.pending) (g : Nat) :
    (s.onSlot g f).pending = s.pending := by
  fun_cases State.onSlot <;> simp [h]

@[simp] theorem State.onSlot_mem {f : Nat → State} {s : State} (h : ∀ p, (f p).mem = s.mem) (g : Nat) :
    (s.onSlot g f).mem = s.mem := by
  fun_cases State.onSlot <;> simp [h]

theorem execArm_keeps (g : Nat) (s : State) :
    Completes (execArm g s) (fun t => t.pending = s.pending) := by
  simp [execArm]

theorem execContinueSlot_keeps (g : Nat) (s : State) :
    Completes (execContinueSlot g s) (fun t => t.pending = s.pending) := by
  simp [execContinueSlot]

theorem execPause_keeps (g : Nat) (s : State) :
    Completes (execPause g s) (fun t => t.pending = s.pending ∧ t.mem = s.mem) := by
  simp [execPause]

theorem execResume_keeps (g : Nat) (s : State) :
    Completes (execResume g s) (fun t => t.pending = s.pending ∧ t.mem = s.mem) := by
  simp [execResume]

theorem execCancel_keeps (g : Nat) (s : State) :
    Completes (execCancel g s) (fun t => t.pending = s.pending) := by
  simp [execCancel]

theorem execRelease_keeps (g : Nat) (s : State) :
    Completes (execRelease g s) (fun t => t.pending = s.pending ∧ t.mem = s.mem) := by
  simp [execRelease]

@[simp] theorem State.unsupported_keeps (s : State) (fn : Nat) :
    (s.unsupported fn).pending = s.pending ∧ (s.unsupported fn).mem = s.mem := by
  simp [State.unsupported]

@[simp] theorem State.descWrite_pending (s : State) (g off : Nat) (b : List Nat) :
    (s.descWrite g off b).pending = s.pending := by
  simp [State.descWrite]

theorem execSlotDescriptorWrite_keeps (fn off : Nat) (bytes : List Nat) (poison : Bool) (s : State) :
    Completes (execSlotDescriptorWrite fn off bytes poison s) (fun t => t.pending = s.pending) := by
  unfold execSlotDescriptorWrite
  repeat' split
  all_goals simp

@[simp] theorem State.resultRead_pending (s : State) (fn k off n : Nat) :
    (s.resultRead fn k off n).pending = s.pending := by
  unfold State.resultRead
  repeat' split
  all_goals simp

theorem execResultPayloadRead_keeps (fn k off n : Nat) (s : State) :
    Completes (execResultPayloadRead fn k off n s) (fun t => t.pending = s.pending) := by
  simp [execResultPayloadRead]

theorem execTtlExpire_keeps (g : Nat) (s : State) :
    Completes (execTtlExpire g s) (fun t => t.pending = s.pending ∧ t.mem = s.mem) := by
  simp [execTtlExpire]

/-! ### Plan -/

@[simp] theorem State.writeBatch_pending (s : State) (p a0 a1 : Nat) (attn : List (List Nat)) (es : List (Nat × StepSeq)) :
    (s.writeBatch p a0 a1 attn es).pending = s.pending := by
  simp [State.writeBatch]

@[simp] theorem State.joinStep_keeps (s : State) (p id g : Nat) :
    (s.joinStep p id g).pending = s.pending ∧ (s.joinStep p id g).mem = s.mem := by
  simp [State.joinStep]

@[simp] theorem State.createStep_pending (s : State) (p m a0 a1 a2 a2b : Nat) (attn : List (List Nat)) (es : List (Nat × StepSeq)) :
    (s.createStep p m a0 a1 a2 a2b attn es).pending = s.pending := by
  unfold State.createStep
  dsimp only
  split <;> simp

@[simp] theorem PlanState.join_pending (a : PlanState) (p g rows propose kind : Nat) :
    (a.join p g rows propose kind).s.pending = a.s.pending := by
  unfold PlanState.join
  dsimp only
  split <;> simp

@[simp] theorem PlanState.decode_pending (a : PlanState) (p tokens seqs g : Nat) :
    (a.decode p tokens seqs g).s.pending = a.s.pending := by
  unfold PlanState.decode
  split <;> simp

@[simp] theorem PlanState.prompt_pending (a : PlanState) (p tokens seqs lo hi g : Nat) :
    (a.prompt p tokens seqs lo hi g).s.pending = a.s.pending := by
  unfold PlanState.prompt
  dsimp only
  split <;> simp

/-- Sequences whose smallest part is too large for a step are faulted. -/
theorem State.faultOversize_pending (s : State) (p m lo : Nat) (gone : List (Nat × StepSeq)) :
    (s.each gone (fun s e => if s.overRetained p m [smallest lo (s.slot e.1) e.2] then s.faultSlot p e.1 cOversize
      else s)).pending = s.pending := by
  refine State.each_pending_of_step (fun s e t ht => ?_) s gone
  rw [← ht, State.pending_ite, (s.faultSlot_keeps p e.1 cOversize).1, ite_self]

theorem execStepPlan_keeps (p m a0 a1 a2 a2b : Nat) (attn : List (List Nat)) (s : State) :
    Completes (execStepPlan p m a0 a1 a2 a2b attn s) (fun t => t.pending = s.pending) := by
  unfold execStepPlan
  split
  · exact (completes_next _ _).2 rfl
  · extract_lets tokens lo hi seqs a b keep gone s1
    have ha : a.s.pending = s.pending :=
      foldl_keeps (fun a : PlanState => a.s.pending) (fun a g => a.decode_pending p tokens seqs g) _ _
    have hb : b.s.pending = a.s.pending :=
      foldl_keeps (fun a : PlanState => a.s.pending) (fun a g => a.prompt_pending p tokens seqs lo hi g) _ _
    have h1 : s1.pending = b.s.pending := by
      unfold s1
      rw [State.pending_ite, State.bump_pending, ite_self]
    rw [completes_next, State.pending_ite, State.createStep_pending, ite_self, State.faultOversize_pending, h1, hb, ha]

@[simp] theorem State.chunkTokens_pending (s : State) (g : Nat) (e : StepSeq) (host : List Nat) :
    (s.chunkTokens g e host).2.2.pending = s.pending := by
  unfold State.chunkTokens
  split <;> simp

theorem execInputPullComplete_keeps (g : Nat) (err : Bool) (host : List Nat) (s : State) :
    Completes (execInputPullComplete g err host s) (fun t => t.pending = s.pending) := by
  unfold execInputPullComplete
  split <;> simp

@[simp] theorem State.postStep_keeps (s : State) (y : Step) :
    (s.postStep y).pending = s.pending ∧ (s.postStep y).mem = s.mem := by
  simp [State.postStep]

theorem execStepRecord_keeps (id : Nat) (s : State) :
    Completes (execStepRecord id s) (fun t => t.pending = s.pending ∧ t.mem = s.mem) := by
  unfold execStepRecord
  split
  · simp
  · split
    · simp
    · extract_lets s1
      split
      · simp [s1]
      · split
        · simp [s1]
        · rw [completes_next]
          split <;> simp [s1]

/-! ### Milepost -/

@[simp] theorem State.setDump_keeps (s : State) (i : Nat) (d : Option Dump) :
    (s.setDump i d).pending = s.pending ∧ (s.setDump i d).mem = s.mem := by
  simp [State.setDump]

@[simp] theorem State.copyDump_pending (s : State) (x tag attempt i : Nat) :
    (s.copyDump x tag attempt i).pending = s.pending := by
  unfold State.copyDump
  split <;> simp

theorem execMilepost_keeps (x tag : Nat) (s : State) :
    Completes (execMilepost x tag s) (fun t => t.pending = s.pending) := by
  unfold execMilepost
  split <;> simp

@[simp] theorem State.readRows_pending (s : State) (a2 stride n : Nat) (y4 : List Nat) :
    (s.readRows a2 stride n y4).2.2.pending = s.pending := by
  induction y4 generalizing s with
  | nil => simp [State.readRows]
  | cons c cs ih => simp [State.readRows, ih]

@[simp] theorem State.paceSlot_keeps (s : State) (p g l n : Nat) :
    (s.paceSlot p g l n).pending = s.pending ∧ (s.paceSlot p g l n).mem = s.mem := by
  simp [State.paceSlot]

@[simp] theorem State.commitCaches_keeps (s : State) (p m slot upto : Nat) :
    (s.commitCaches p m slot upto).pending = s.pending ∧ (s.commitCaches p m slot upto).mem = s.mem := by
  simp [State.commitCaches]

@[simp] theorem State.settleSlot_pending (s : State) (y : Step) (g : Nat) (o : Yield) (vec : List Nat) :
    (s.settleSlot y g o vec).pending = s.pending := by
  unfold State.settleSlot
  split <;> simp

@[simp] theorem State.commitSeq_pending (s : State) (y : Step) (g : Nat) (e : StepSeq) (o : Yield) (vec : List Nat) :
    (s.commitSeq y g e o vec).pending = s.pending := by
  simp [State.commitSeq]

@[simp] theorem State.limitReplayed_keeps (s : State) (y : Step) :
    (s.limitReplayed y).2.pending = s.pending ∧ (s.limitReplayed y).2.mem = s.mem := by
  simp [State.limitReplayed]

@[simp] theorem State.endStep_keeps (s : State) (y : Step) :
    (s.endStep y).pending = s.pending ∧ (s.endStep y).mem = s.mem := by
  unfold State.endStep
  extract_lets n s1 tag s2 s3 s4
  have h3 : s3.pending = s2.pending ∧ s3.mem = s2.mem := by
    refine State.each_quiet (fun s x => ?_) _ _
    exact ⟨(s.setTeam _ _).fset_pending _ _, (s.setTeam _ _).fset_mem _ _⟩
  have h4 : s4.pending = s3.pending ∧ s4.mem = s3.mem := by
    refine State.each_quiet (fun s x => ?_) _ _
    exact ⟨s.setSeqr_pending _ _, s.setSeqr_mem _ _⟩
  simp [h4, h3, s2, s1]

@[simp] theorem State.commitStep_pending (s : State) (y : Step) (rows : List (Nat × List Nat)) (sel : Nat → StepSeq → Nat → Nat) :
    (s.commitStep y rows sel).pending = s.pending := by
  simp [State.commitStep]

@[simp] theorem State.commitAlone_pending (s : State) (y : Step) :
    (s.commitAlone y).pending = s.pending := by
  simp [State.commitAlone]

@[simp] theorem State.mismatch_keeps (s : State) (y : Step) (e : StepSeq) :
    (s.mismatch y e).pending = s.pending ∧ (s.mismatch y e).mem = s.mem := by
  simp [State.mismatch]

@[simp] theorem State.commitTwins_pending (s : State) (y z : Step) :
    (s.commitTwins y z).pending = s.pending := by
  unfold State.commitTwins
  extract_lets n qa qb s1 live cmp bad s2 again s3 ties s4 s5
  have h : s1.pending = s.pending := by simp [s1, qb, qa]
  split
  · simp [h]
  · split
    · simp [s2, h]
    · split <;> simp [s5, s4, s3, h]

theorem execMilepostReached_keeps (id : Nat) (s : State) :
    Completes (execMilepostReached id s) (fun t => t.pending = s.pending) := by
  unfold execMilepostReached
  split
  · simp
  · split
    · simp
    · split
      · simp
      · extract_lets s1
        split
        · simp [s1]
        · simp [s1]

@[simp] theorem State.restartString_pending (s : State) (id x : Nat) (again : Bool) :
    (s.restartString id x again).pending = s.pending := by
  simp [State.restartString]

@[simp] theorem State.startReplay_pending (s : State) (y : Step) :
    (s.startReplay y).pending = s.pending := by
  simp [State.startReplay]

theorem execReplayStart_keeps (id : Nat) (s : State) :
    Completes (execReplayStart id s) (fun t => t.pending = s.pending) := by
  unfold execReplayStart
  split <;> simp

/-! ### Loads -/

@[simp] theorem State.setLoadSt_keeps (s : State) (c v : Nat) :
    (s.setLoadSt c v).pending = s.pending ∧ (s.setLoadSt c v).mem = s.mem := by
  simp [State.setLoadSt]

@[simp] theorem State.writeSkip_pending (s : State) (source a : Nat) (b : List Nat) :
    (s.writeSkip source a b).pending = s.pending := by
  unfold State.writeSkip
  refine State.each_pending_of_step (fun s u t ht => ?_) s _
  rw [← ht]
  dsimp only
  rw [State.pending_ite, State.writeThrough_pending, ite_self]

@[simp] theorem State.loadPut_pending (s : State) (c kind dst off : Nat) (b : List Nat) :
    (s.loadPut c kind dst off b).pending = s.pending := by
  simp [State.loadPut]

@[simp] theorem State.loadCount_keeps (s : State) (c n : Nat) :
    (s.loadCount c n).pending = s.pending ∧ (s.loadCount c n).mem = s.mem := by
  simp [State.loadCount]

@[simp] theorem State.showCur_keeps (s : State) (c : Nat) :
    (s.showCur c).pending = s.pending ∧ (s.showCur c).mem = s.mem := by
  simp [State.showCur]

@[simp] theorem State.loadEnd_keeps (s : State) (c code : Nat) :
    (s.loadEnd c code).pending = s.pending ∧ (s.loadEnd c code).mem = s.mem := by
  simp [State.loadEnd]

@[simp] theorem State.relayStart_keeps (s : State) (c : Nat) (d : List Nat) :
    (s.relayStart c d).pending = s.pending ∧ (s.relayStart c d).mem = s.mem := by
  simp [State.relayStart]

@[simp] theorem State.relayChunks_keeps (s : State) (c : Nat) (d b : List Nat) :
    (s.relayChunks c d b).pending = s.pending ∧ (s.relayChunks c d b).mem = s.mem := by
  unfold State.relayChunks
  dsimp only
  split <;> simp

theorem execLoadGo_keeps (c irqVec : Nat) (s : State) :
    Completes (execLoadGo c irqVec s) (fun t => t.pending = s.pending ∧ t.mem = s.mem) := by
  simp [execLoadGo]

theorem execLoadDescArrive_keeps (c : Nat) (err : Bool) (bytes : List Nat) (s : State) :
    Completes (execLoadDescArrive c err bytes s) (fun t => t.pending = s.pending ∧ t.mem = s.mem) := by
  simp [execLoadDescArrive]

@[simp] theorem State.loadBytes_pending (s : State) (c : Nat) (d host : List Nat) (n : Nat) :
    (s.loadBytes c d host n).2.2.pending = s.pending := by
  simp [State.loadBytes]

@[simp] theorem State.loadMove_pending (s : State) (c : Nat) (d b : List Nat) :
    (s.loadMove c d b).pending = s.pending := by
  simp [State.loadMove]

theorem execLoadMoveComplete_keeps (c : Nat) (err : Bool) (bytes : List Nat) (s : State) :
    Completes (execLoadMoveComplete c err bytes s) (fun t => t.pending = s.pending) := by
  simp [execLoadMoveComplete]

@[simp] theorem State.abortLoad_pending (s : State) (c : Nat) (host : List Nat) (n : Nat) :
    (s.abortLoad c host n).pending = s.pending := by
  simp [State.abortLoad]

theorem execLoadAbort_keeps (c moved : Nat) (bytes : List Nat) (s : State) :
    Completes (execLoadAbort c moved bytes s) (fun t => t.pending = s.pending) := by
  simp [execLoadAbort]

theorem execRelayAckTimeout_keeps (c : Nat) (s : State) :
    Completes (execRelayAckTimeout c s) (fun t => t.pending = s.pending ∧ t.mem = s.mem) := by
  simp [execRelayAckTimeout]

@[simp] theorem State.setRx_keeps (s : State) (c : Nat) (r : RelayRx) :
    (s.setRx c r).pending = s.pending ∧ (s.setRx c r).mem = s.mem := by
  simp [State.setRx]

@[simp] theorem State.dropRx_keeps (s : State) (c : Nat) (r : RelayRx) :
    (s.dropRx c r).pending = s.pending ∧ (s.dropRx c r).mem = s.mem := by
  simp [State.dropRx]

@[simp] theorem State.showRx_keeps (s : State) (c : Nat) (r : RelayRx) (outcome : Nat) :
    (s.showRx c r outcome).pending = s.pending ∧ (s.showRx c r outcome).mem = s.mem := by
  simp [State.showRx]

@[simp] theorem State.relayOn_keeps (s : State) (ring : Option Nat) (h : CtrlHdr) (type : Nat) (body : List Nat) :
    (s.relayOn ring h type body).pending = s.pending ∧ (s.relayOn ring h type body).mem = s.mem := by
  fun_cases State.relayOn <;> simp

theorem execRelayStart_keeps (p : Nat) (ok : Bool) (h : CtrlHdr) (seq hopsLeft session kind len dst : Nat) (s : State) :
    Completes (execRelayStart p ok h seq hopsLeft session kind len dst s) (fun t => t.pending = s.pending ∧ t.mem = s.mem) := by
  unfold execRelayStart
  rw [completes_next]
  refine ⟨State.ctrlIn_pending (fun s => State.unlessQuarantined_pending (fun s => ?_) s) ..,
    State.ctrlIn_mem (fun s => State.unlessQuarantined_mem (fun s => ?_) s) ..⟩
  all_goals
    dsimp only
    split
    · rfl
    · split
      · simp
      · split <;> simp

@[simp] theorem State.rxFinish_keeps (s : State) (c : Nat) (r : RelayRx) :
    (s.rxFinish c r).pending = s.pending ∧ (s.rxFinish c r).mem = s.mem := by
  simp [State.rxFinish]

@[simp] theorem State.passChunk_keeps (s : State) (ring : Option Nat) (c p src session off : Nat) (b : List Nat) (late : Bool) :
    (s.passChunk ring c p src session off b late).pending = s.pending ∧ (s.passChunk ring c p src session off b late).mem = s.mem := by
  unfold State.passChunk
  split
  · simp
  · extract_lets next
    split <;> simp

@[simp] theorem State.relayChunk_pending (s : State) (p src session off : Nat) (b : List Nat) (late : Bool) :
    (s.relayChunk p src session off b late).pending = s.pending := by
  unfold State.relayChunk
  split <;> simp

@[simp] theorem State.dropData_keeps (s : State) (p : Nat) :
    (s.dropData p).pending = s.pending ∧ (s.dropData p).mem = s.mem := by
  simp [State.dropData]

theorem execRelayChunkReceive_keeps (p src session off : Nat) (bytes : List Nat) (late : Bool) (s : State) :
    Completes (execRelayChunkReceive p src session off bytes late s) (fun t => t.pending = s.pending) := by
  fun_cases execRelayChunkReceive <;> simp

theorem execRelayEnd_keeps (p : Nat) (ok : Bool) (h : CtrlHdr) (seq chunks : Nat) (s : State) :
    Completes (execRelayEnd p ok h seq chunks s) (fun t => t.pending = s.pending ∧ t.mem = s.mem) := by
  unfold execRelayEnd
  rw [completes_next]
  refine ⟨State.ctrlIn_pending (fun s => State.unlessQuarantined_pending (fun s => ?_) s) ..,
    State.ctrlIn_mem (fun s => State.unlessQuarantined_mem (fun s => ?_) s) ..⟩
  all_goals
    dsimp only
    split <;> simp

theorem execRelayAck_keeps (p : Nat) (ok : Bool) (h : CtrlHdr) (seq chunks : Nat) (s : State) :
    Completes (execRelayAck p ok h seq chunks s) (fun t => t.pending = s.pending ∧ t.mem = s.mem) := by
  simp [execRelayAck]

theorem execRelayRxTimeout_keeps (c origin session : Nat) (s : State) :
    Completes (execRelayRxTimeout c origin session s) (fun t => t.pending = s.pending ∧ t.mem = s.mem) := by
  unfold execRelayRxTimeout
  split <;> simp

theorem execDataPacketReceive_keeps (p dst src cls vc session off : Nat) (bytes : List Nat) (s : State) :
    Completes (execDataPacketReceive p dst src cls vc session off bytes s) (fun t => t.pending = s.pending) := by
  unfold execDataPacketReceive
  repeat' split
  all_goals simp

/-! ### Sweeps -/

@[simp] theorem State.zeroRange_pending (s : State) (a n : Nat) :
    (s.zeroRange a n).pending = s.pending := by
  simp [State.zeroRange]

@[simp] theorem State.endSweep_pending (s : State) (c outcome : Nat) (summary : List Nat) (sum : Nat) :
    (s.endSweep c outcome summary sum).pending = s.pending := by
  simp [State.endSweep]

@[simp] theorem State.runSweep_pending (s : State) (c n outcome : Nat) (x : Sweep) :
    (s.runSweep c n outcome x).pending = s.pending := by
  simp [State.runSweep]

theorem execSweepGo_keeps (c mode : Nat) (s : State) :
    Completes (execSweepGo c mode s) (fun t => t.pending = s.pending) := by
  simp [execSweepGo]

theorem execSweepComplete_keeps (c : Nat) (s : State) :
    Completes (execSweepComplete c s) (fun t => t.pending = s.pending) := by
  unfold execSweepComplete
  split <;> simp

theorem execSweepAbort_keeps (c pages : Nat) (s : State) :
    Completes (execSweepAbort c pages s) (fun t => t.pending = s.pending) := by
  unfold execSweepAbort
  split <;> simp

@[simp] theorem State.showRetired_keeps (s : State) :
    (s.showRetired).pending = s.pending ∧ (s.showRetired).mem = s.mem := by
  simp [State.showRetired]

@[simp] theorem State.retireNow_keeps (s : State) (kind index : Nat) :
    (s.retireNow kind index).pending = s.pending ∧ (s.retireNow kind index).mem = s.mem := by
  simp [State.retireNow]

theorem execDramRetire_keeps (kind index : Nat) (s : State) :
    Completes (execDramRetire kind index s) (fun t => t.pending = s.pending ∧ t.mem = s.mem) := by
  simp [execDramRetire]

theorem execRetireNvRetry_keeps (s : State) :
    Completes (execRetireNvRetry s) (fun t => t.pending = s.pending ∧ t.mem = s.mem) := by
  simp [execRetireNvRetry]

/-! ### Partition -/

@[simp] theorem State.showPart_keeps (s : State) (p : Nat) :
    (s.showPart p).pending = s.pending ∧ (s.showPart p).mem = s.mem := by
  simp [State.showPart]

@[simp] theorem State.enterPart_keeps (s : State) (p : Nat) (x : Part) :
    (s.enterPart p x).pending = s.pending ∧ (s.enterPart p x).mem = s.mem := by
  simp [State.enterPart]

@[simp] theorem State.refusePart_keeps (s : State) (p : Nat) :
    (s.refusePart p).pending = s.pending ∧ (s.refusePart p).mem = s.mem := by
  simp [State.refusePart]

@[simp] theorem State.volzRefuse_keeps (s : State) (v : Verdict) :
    (s.volzRefuse v).pending = s.pending ∧ (s.volzRefuse v).mem = s.mem := by
  simp [State.volzRefuse]

@[simp] theorem State.stopSeqs_pending (s : State) (p : Nat) :
    (s.stopSeqs p).pending = s.pending := by
  unfold State.stopSeqs
  extract_lets s1
  have h : s1.pending = s.pending := by
    refine State.each_pending (fun _ _ => ?_) _ _
    rfl
  simp [h]

@[simp] theorem State.quiesceTeams_keeps (s : State) (p : Nat) (on : Bool) :
    (s.quiesceTeams p on).pending = s.pending ∧ (s.quiesceTeams p on).mem = s.mem := by
  simp [State.quiesceTeams]

@[simp] theorem State.maskVectors_keeps (s : State) (fn : Nat) :
    (s.maskVectors fn).pending = s.pending ∧ (s.maskVectors fn).mem = s.mem := by
  simp [State.maskVectors]

@[simp] theorem State.disarmDumps_keeps (s : State) (p : Nat) :
    (s.disarmDumps p).pending = s.pending ∧ (s.disarmDumps p).mem = s.mem := by
  unfold State.disarmDumps
  refine State.each_quiet (fun s i => ?_) _ _
  split
  · split <;> simp
  · simp

@[simp] theorem State.dropServed_keeps (s : State) (p : Nat) :
    (s.dropServed p).pending = s.pending ∧ (s.dropServed p).mem = s.mem := by
  simp [State.dropServed]

@[simp] theorem State.beginQuiesce_pending (s : State) (p cause : Nat) (flr : Bool) :
    (s.beginQuiesce p cause flr).pending = s.pending := by
  simp [State.beginQuiesce]

@[simp] theorem State.beginScrub_keeps (s : State) (p : Nat) :
    (s.beginScrub p).pending = s.pending ∧ (s.beginScrub p).mem = s.mem := by
  simp [State.beginScrub]

@[simp] theorem State.cancelReturn_keeps (s : State) (p : Nat) :
    (s.cancelReturn p).pending = s.pending ∧ (s.cancelReturn p).mem = s.mem := by
  simp [State.cancelReturn]

@[simp] theorem State.abortPartial_keeps (s : State) (p : Nat) :
    (s.abortPartial p).pending = s.pending ∧ (s.abortPartial p).mem = s.mem := by
  simp [State.abortPartial]

@[simp] theorem State.askQuiesce_pending (s : State) (p cause : Nat) (flr : Bool) :
    (s.askQuiesce p cause flr).pending = s.pending := by
  unfold State.askQuiesce
  dsimp only
  split <;> simp

theorem execPartQuiesce_keeps (s : State) :
    Completes (execPartQuiesce s) (fun t => t.pending = s.pending) := by
  simp [execPartQuiesce]

theorem execQuiesceComplete_keeps (p moved : Nat) (bytes : List Nat) (s : State) :
    Completes (execQuiesceComplete p moved bytes s) (fun t => t.pending = s.pending) := by
  simp [execQuiesceComplete]

@[simp] theorem State.copyPiece_pending (s : State) (src dst n : Nat) :
    (s.copyPiece src dst n).pending = s.pending := by
  simp [State.copyPiece]

@[simp] theorem State.copyArea_pending (s : State) (x off src n : Nat) :
    (s.copyArea x off src n).pending = s.pending := by
  simp [State.copyArea]

@[simp] theorem State.copyProgram_pending (s : State) (h : List Nat) (body x : Nat) :
    (s.copyProgram h body x).pending = s.pending := by
  simp [State.copyProgram]

@[simp] theorem State.copyPrograms_pending (s : State) (p : Nat) :
    (s.copyPrograms p).pending = s.pending := by
  simp [State.copyPrograms]

@[simp] theorem State.unsetMeans_keeps (s : State) (p : Nat) :
    (s.unsetMeans p).pending = s.pending ∧ (s.unsetMeans p).mem = s.mem := by
  unfold State.unsetMeans
  refine State.each_quiet (fun s t => ?_) _ _
  exact ⟨s.setTeam_pending _ _, s.setTeam_mem _ _⟩

@[simp] theorem State.returnPart_pending (s : State) (p : Nat) :
    (s.returnPart p).pending = s.pending := by
  simp [State.returnPart]

@[simp] theorem State.askReturn_pending (s : State) (p : Nat) :
    (s.askReturn p).pending = s.pending := by
  simp [State.askReturn]

@[simp] theorem State.resumeReturn_pending (s : State) (p : Nat) :
    (s.resumeReturn p).pending = s.pending := by
  simp [State.resumeReturn]

theorem execPartReturn_keeps (s : State) :
    Completes (execPartReturn s) (fun t => t.pending = s.pending) := by
  simp [execPartReturn]

theorem execPartScrub_keeps (s : State) :
    Completes (execPartScrub s) (fun t => t.pending = s.pending ∧ t.mem = s.mem) := by
  unfold execPartScrub
  dsimp only
  split <;> simp

@[simp] theorem State.scrubTiles_keeps (s : State) (p : Nat) :
    (s.scrubTiles p).pending = s.pending ∧ (s.scrubTiles p).mem = s.mem := by
  simp [State.scrubTiles]

@[simp] theorem State.scrubMemory_pending (s : State) (p : Nat) :
    (s.scrubMemory p).pending = s.pending := by
  simp [State.scrubMemory]

@[simp] theorem State.clearRegs_keeps (s : State) (a n : Nat) :
    (s.clearRegs a n).pending = s.pending ∧ (s.clearRegs a n).mem = s.mem := by
  simp [State.clearRegs]

@[simp] theorem State.scrubRegs_keeps (s : State) (p : Nat) :
    (s.scrubRegs p).pending = s.pending ∧ (s.scrubRegs p).mem = s.mem := by
  simp [State.scrubRegs]

@[simp] theorem State.endScrub_pending (s : State) (p : Nat) :
    (s.endScrub p).pending = s.pending := by
  simp [State.endScrub]

theorem execScrubComplete_keeps (s : State) :
    Completes (execScrubComplete s) (fun t => t.pending = s.pending) := by
  unfold execScrubComplete
  split <;> simp

@[simp] theorem State.resetFn_keeps (s : State) (fn : Nat) :
    (s.resetFn fn).pending = s.pending ∧ (s.resetFn fn).mem = s.mem := by
  simp [State.resetFn]

theorem execVfFlr_keeps (k : Nat) (s : State) :
    Completes (execVfFlr k s) (fun t => t.pending = s.pending) := by
  unfold execVfFlr
  dsimp only
  split <;> simp

@[simp] theorem State.flrAll_pending (s : State) (cause : Nat) :
    (s.flrAll cause).pending = s.pending := by
  simp [State.flrAll]

theorem execPfFlr_keeps (s : State) :
    Completes (execPfFlr s) (fun t => t.pending = s.pending) := by
  simp [execPfFlr]

theorem execHotReset_keeps (s : State) :
    Completes (execHotReset s) (fun t => t.pending = s.pending) := by
  simp [execHotReset]

theorem execVfEnableCleared_keeps (n : Nat) (s : State) :
    Completes (execVfEnableCleared n s) (fun t => t.pending = s.pending ∧ t.mem = s.mem) := by
  simp [execVfEnableCleared]

theorem execPcieLinkUp_keeps (rate width : Nat) (flit : Bool) (s : State) :
    Completes (execPcieLinkUp rate width flit s) (fun t => t.pending = s.pending ∧ t.mem = s.mem) := by
  simp [execPcieLinkUp]

theorem execPcieLinkDown_keeps (s : State) :
    Completes (execPcieLinkDown s) (fun t => t.pending = s.pending ∧ t.mem = s.mem) := by
  simp [execPcieLinkDown]

theorem execMalformedTlp_keeps (fn : Nat) (s : State) :
    Completes (execMalformedTlp fn s) (fun t => t.pending = s.pending ∧ t.mem = s.mem) := by
  simp [execMalformedTlp]

theorem execMsixIntervalEnd_keeps (fn vec : Nat) (s : State) :
    Completes (execMsixIntervalEnd fn vec s) (fun t => t.pending = s.pending ∧ t.mem = s.mem) := by
  simp [execMsixIntervalEnd]

@[simp] theorem State.tollPeriod_keeps (s : State) (asks : List TollAsk) (r : Nat) :
    (s.tollPeriod asks r).pending = s.pending ∧ (s.tollPeriod asks r).mem = s.mem := by
  simp [State.tollPeriod]

@[simp] theorem State.portPeriod_keeps (s : State) (p : Nat) :
    (s.portPeriod p).pending = s.pending ∧ (s.portPeriod p).mem = s.mem := by
  unfold State.portPeriod
  refine State.each_quiet (fun s m => ?_) _ _
  exact ⟨s.bump_pending _, s.bump_mem _⟩

@[simp] theorem State.tollDivide_keeps (s : State) (r : Nat) :
    (s.tollDivide r).pending = s.pending ∧ (s.tollDivide r).mem = s.mem := by
  unfold State.tollDivide
  dsimp only
  refine State.each_quiet (fun s m => ?_) _ _
  exact ⟨s.fset_pending _ _, s.fset_mem _ _⟩

theorem execTollgateRefill_keeps (asks : List (Nat × Nat × Nat × Nat)) (s : State) :
    Completes (execTollgateRefill asks s) (fun t => t.pending = s.pending ∧ t.mem = s.mem) := by
  simp [execTollgateRefill]

@[simp] theorem State.packageReadmitted_pending (s : State) :
    (s.packageReadmitted).pending = s.pending := by
  simp [State.packageReadmitted]

@[simp] theorem State.readmitted_pending (s : State) (r : Rev) :
    (s.readmitted r).pending = s.pending := by
  simp [State.readmitted]

theorem execTorReadmit_keeps (entry : Nat) (s : State) :
    Completes (execTorReadmit entry s) (fun t => t.pending = s.pending) := by
  unfold execTorReadmit
  dsimp only
  split <;> simp

theorem execReadmit_keeps (p : Nat) (ok : Bool) (h : CtrlHdr) (pos unit inc new : Nat) (s : State) :
    Completes (execReadmit p ok h pos unit inc new s) (fun t => t.pending = s.pending) := by
  simp [execReadmit]

/-! ### Volz -/

@[simp] theorem State.showVolz_keeps (s : State) :
    (s.showVolz).pending = s.pending ∧ (s.showVolz).mem = s.mem := by
  unfold State.showVolz
  dsimp only
  split <;> simp

@[simp] theorem State.runSections_pending (s : State) (cfg : List Sect) :
    (s.runSections cfg).pending = s.pending := by
  simp [State.runSections]

@[simp] theorem State.takeImage_pending (s : State) (b : List Nat) :
    (s.takeImage b).pending = s.pending := by
  simp [State.takeImage]

@[simp] theorem State.showNv_keeps (s : State) :
    (s.showNv).pending = s.pending ∧ (s.showNv).mem = s.mem := by
  simp [State.showNv]

@[simp] theorem State.tryMark_keeps (s : State) :
    (s.tryMark).pending = s.pending ∧ (s.tryMark).mem = s.mem := by
  simp [State.tryMark]

@[simp] theorem State.loadSlot_pending (s : State) (i : Nat) :
    (s.loadSlot i).pending = s.pending := by
  simp [State.loadSlot]

theorem execImageLoadSlot_keeps (s : State) :
    Completes (execImageLoadSlot s) (fun t => t.pending = s.pending) := by
  simp [execImageLoadSlot]

@[simp] theorem State.slotRefused_pending (s : State) (v : Verdict) :
    (s.slotRefused v).pending = s.pending := by
  simp [State.slotRefused]

@[simp] theorem State.startPull_keeps (s : State) (k : LoadKind) :
    (s.startPull k).pending = s.pending ∧ (s.startPull k).mem = s.mem := by
  simp [State.startPull]

theorem execVolzFull_keeps (s : State) :
    Completes (execVolzFull s) (fun t => t.pending = s.pending ∧ t.mem = s.mem) := by
  simp [execVolzFull]

theorem execVolzPartial_keeps (part : Nat) (s : State) :
    Completes (execVolzPartial part s) (fun t => t.pending = s.pending ∧ t.mem = s.mem) := by
  simp [execVolzPartial]

@[simp] theorem State.freePart_pending (s : State) (k : Option LoadKind) :
    (s.freePart k).pending = s.pending := by
  unfold State.freePart
  split <;> simp

@[simp] theorem State.volzFail_pending (s : State) (v : Verdict) :
    (s.volzFail v).pending = s.pending := by
  unfold State.volzFail
  split <;> simp

theorem execVolzAbort_keeps (s : State) :
    Completes (execVolzAbort s) (fun t => t.pending = s.pending) := by
  simp [execVolzAbort]

theorem execVolzPullComplete_keeps (err : Bool) (bytes : List Nat) (s : State) :
    Completes (execVolzPullComplete err bytes s) (fun t => t.pending = s.pending) := by
  simp [execVolzPullComplete]

theorem execVolzVerifyComplete_keeps (s : State) :
    Completes (execVolzVerifyComplete s) (fun t => t.pending = s.pending) := by
  simp [execVolzVerifyComplete]

@[simp] theorem State.relayout_keeps (s : State) (p : Nat) :
    (s.relayout p).pending = s.pending ∧ (s.relayout p).mem = s.mem := by
  simp [State.relayout]

@[simp] theorem State.volzDone_keeps (s : State) :
    (s.volzDone).pending = s.pending ∧ (s.volzDone).mem = s.mem := by
  simp [State.volzDone]

@[simp] theorem State.dropLoading_keeps (s : State) (p : Nat) :
    (s.dropLoading p).pending = s.pending ∧ (s.dropLoading p).mem = s.mem := by
  unfold State.dropLoading
  refine State.each_quiet (fun s x => ?_) _ _
  exact ⟨s.setSeqr_pending _ _, s.setSeqr_mem _ _⟩

theorem execVolzCommit_keeps (s : State) :
    Completes (execVolzCommit s) (fun t => t.pending = s.pending) := by
  unfold execVolzCommit
  split <;> simp

/-! ### Boot -/

theorem State.cleared_pending (s : State) (tap : Bool) : (s.cleared tap).pending = s.pending := rfl

@[simp] theorem State.resets_pending (s : State) (cause : Nat) :
    (s.resets cause).pending = s.pending := by
  unfold State.resets
  extract_lets t1 t2 t3
  have h : t3.pending = s.pending := by simp [t3, t2, t1, State.cleared_pending]
  simp [h]

theorem execPerstNAssert_keeps (ns : Nat) (s : State) :
    Completes (execPerstNAssert ns s) (fun t => t.pending = s.pending) := by
  simp [execPerstNAssert]

theorem execPowerOnDetect_keeps (s : State) :
    Completes (execPowerOnDetect s) (fun t => t.pending = s.pending) := by
  simp [execPowerOnDetect]

@[simp] theorem State.dropNvCmd_keeps (s : State) :
    (s.dropNvCmd).pending = s.pending ∧ (s.dropNvCmd).mem = s.mem := by
  simp [State.dropNvCmd]

theorem execRailPowerLoss_keeps (k : Nat) (s : State) :
    Completes (execRailPowerLoss k s) (fun t => t.pending = s.pending ∧ t.mem = s.mem) := by
  simp [execRailPowerLoss]

theorem execInternalResetEnd_keeps (s : State) :
    Completes (execInternalResetEnd s) (fun t => t.pending = s.pending ∧ t.mem = s.mem) := by
  simp [execInternalResetEnd]

@[simp] theorem State.showStore_keeps (s : State) :
    (s.showStore).pending = s.pending ∧ (s.showStore).mem = s.mem := by
  simp [State.showStore]

@[simp] theorem State.romPaddock_keeps (s : State) :
    (s.romPaddock).pending = s.pending ∧ (s.romPaddock).mem = s.mem := by
  simp [State.romPaddock]

theorem execRomStageEnd_keeps (s : State) :
    Completes (execRomStageEnd s) (fun t => t.pending = s.pending ∧ t.mem = s.mem) := by
  simp [execRomStageEnd]

theorem execFwVerifyEnd_keeps (s : State) :
    Completes (execFwVerifyEnd s) (fun t => t.pending = s.pending ∧ t.mem = s.mem) := by
  simp [execFwVerifyEnd]

@[simp] theorem State.applyFarrier_keeps (s : State) :
    (s.applyFarrier).pending = s.pending ∧ (s.applyFarrier).mem = s.mem := by
  simp [State.applyFarrier]

@[simp] theorem State.applyPlan_keeps (s : State) :
    (s.applyPlan).pending = s.pending ∧ (s.applyPlan).mem = s.mem := by
  simp [State.applyPlan]

@[simp] theorem State.loadUser_keeps (s : State) :
    (s.loadUser).1.pending = s.pending ∧ (s.loadUser).1.mem = s.mem := by
  fun_cases State.loadUser <;> simp

theorem execNvLoadEnd_keeps (s : State) :
    Completes (execNvLoadEnd s) (fun t => t.pending = s.pending ∧ t.mem = s.mem) := by
  unfold execNvLoadEnd
  split
  · simp
  · extract_lets s1 u s2 s3
    have h : s3.pending = s.pending ∧ s3.mem = s.mem := by simp [s3, s2, u, s1]
    split
    · simp [h]
    · split <;> simp [h]

@[simp] theorem State.setPins_keeps (s : State) :
    (s.setPins).pending = s.pending ∧ (s.setPins).mem = s.mem := by
  simp [State.setPins]

theorem execPinsSetEnd_keeps (s : State) :
    Completes (execPinsSetEnd s) (fun t => t.pending = s.pending ∧ t.mem = s.mem) := by
  simp [execPinsSetEnd]

theorem execDramUpEnd_keeps (s : State) :
    Completes (execDramUpEnd s) (fun t => t.pending = s.pending ∧ t.mem = s.mem) := by
  simp [execDramUpEnd]

@[simp] theorem State.sendWaiting_keeps (s : State) :
    (s.sendWaiting).pending = s.pending ∧ (s.sendWaiting).mem = s.mem := by
  simp [State.sendWaiting]

@[simp] theorem State.mgmtUp_keeps (s : State) :
    (s.mgmtUp).pending = s.pending ∧ (s.mgmtUp).mem = s.mem := by
  simp [State.mgmtUp]

theorem execLinksUpEnd_keeps (s : State) :
    Completes (execLinksUpEnd s) (fun t => t.pending = s.pending ∧ t.mem = s.mem) := by
  simp [execLinksUpEnd]

@[simp] theorem State.takeHeader_keeps (s : State) :
    (s.takeHeader).pending = s.pending ∧ (s.takeHeader).mem = s.mem := by
  simp [State.takeHeader]

@[simp] theorem State.imageRegs_keeps (s : State) :
    (s.imageRegs).pending = s.pending ∧ (s.imageRegs).mem = s.mem := by
  simp [State.imageRegs]

@[simp] theorem State.imageMods_keeps (s : State) :
    (s.imageMods).pending = s.pending ∧ (s.imageMods).mem = s.mem := by
  unfold State.imageMods
  extract_lets m s1
  have h1 : s1.pending = s.pending ∧ s1.mem = s.mem := by
    refine State.each_quiet (fun s i => ?_) _ _
    exact ⟨s.fset_pending _ _, s.fset_mem _ _⟩
  rw [← h1.1, ← h1.2]
  refine State.each_quiet (fun s p => ?_) _ _
  split
  · exact ⟨rfl, rfl⟩
  · refine State.each_quiet (fun s i => ?_) _ _
    exact ⟨s.fset_pending _ _, s.fset_mem _ _⟩

@[simp] theorem State.imageWeights_keeps (s : State) :
    (s.imageWeights).pending = s.pending ∧ (s.imageWeights).mem = s.mem := by
  unfold State.imageWeights
  refine State.each_quiet (fun s m => State.each_quiet (fun s r => ?_) _ _) _ _
  exact ⟨(s.fset _ _).fset_pending _ _, (s.fset _ _).fset_mem _ _⟩

@[simp] theorem State.definePartitions_pending (s : State) :
    (s.definePartitions).pending = s.pending := by
  simp [State.definePartitions]

theorem execImageLoadEnd_keeps (s : State) :
    Completes (execImageLoadEnd s) (fun t => t.pending = s.pending) := by
  simp [execImageLoadEnd]

@[simp] theorem State.selfCal_pending (s : State) (f : SelfFit) :
    (s.selfCal f).pending = s.pending := by
  simp [State.selfCal]

@[simp] theorem State.openCauseways_keeps (s : State) :
    (s.openCauseways).pending = s.pending ∧ (s.openCauseways).mem = s.mem := by
  simp [State.openCauseways]

theorem execSelfCalEnd_keeps (fits : List SelfFit) (s : State) :
    Completes (execSelfCalEnd fits s) (fun t => t.pending = s.pending) := by
  simp [execSelfCalEnd]

@[simp] theorem State.readyWrites_keeps (s : State) :
    (s.readyWrites).pending = s.pending ∧ (s.readyWrites).mem = s.mem := by
  simp [State.readyWrites]

@[simp] theorem State.armTrace_keeps (s : State) :
    (s.armTrace).pending = s.pending ∧ (s.armTrace).mem = s.mem := by
  simp [State.armTrace]

@[simp] theorem State.autoStart_pending (s : State) :
    (s.autoStart).pending = s.pending := by
  simp [State.autoStart]

theorem execCausewayOpenEnd_keeps (s : State) :
    Completes (execCausewayOpenEnd s) (fun t => t.pending = s.pending) := by
  simp [execCausewayOpenEnd]

theorem execStartDeadlineExpire_keeps (s : State) :
    Completes (execStartDeadlineExpire s) (fun t => t.pending = s.pending ∧ t.mem = s.mem) := by
  simp [execStartDeadlineExpire]

theorem execFailCountNvRetry_keeps (s : State) :
    Completes (execFailCountNvRetry s) (fun t => t.pending = s.pending ∧ t.mem = s.mem) := by
  unfold execFailCountNvRetry
  split <;> simp

@[simp] theorem State.retry_keeps (s : State) :
    (s.retry).2.pending = s.pending ∧ (s.retry).2.mem = s.mem := by
  simp [State.retry]

theorem execRstRetry_keeps (s : State) :
    Completes (execRstRetry s) (fun t => t.pending = s.pending ∧ t.mem = s.mem) := by
  simp [execRstRetry]

@[simp] theorem State.nvOpenSlot_keeps (s : State) (cmd t : Nat) :
    (s.nvOpenSlot cmd t).pending = s.pending ∧ (s.nvOpenSlot cmd t).mem = s.mem := by
  simp [State.nvOpenSlot]

@[simp] theorem State.nvResult_keeps (s : State) (code : Nat) :
    (s.nvResult code).pending = s.pending ∧ (s.nvResult code).mem = s.mem := by
  simp [State.nvResult]

@[simp] theorem State.nvCommand_keeps (s : State) (cmd t : Nat) :
    (s.nvCommand cmd t).pending = s.pending ∧ (s.nvCommand cmd t).mem = s.mem := by
  simp [State.nvCommand]

theorem execNvWrite_keeps (target : Nat) (s : State) :
    Completes (execNvWrite target s) (fun t => t.pending = s.pending ∧ t.mem = s.mem) := by
  simp [execNvWrite]

theorem execNvErase_keeps (target : Nat) (s : State) :
    Completes (execNvErase target s) (fun t => t.pending = s.pending ∧ t.mem = s.mem) := by
  simp [execNvErase]

theorem execNvSetTrial_keeps (target : Nat) (s : State) :
    Completes (execNvSetTrial target s) (fun t => t.pending = s.pending ∧ t.mem = s.mem) := by
  simp [execNvSetTrial]

theorem execNvClearTrial_keeps (target : Nat) (s : State) :
    Completes (execNvClearTrial target s) (fun t => t.pending = s.pending ∧ t.mem = s.mem) := by
  simp [execNvClearTrial]

@[simp] theorem State.nvFinish_keeps (s : State) (cmd t : Nat) (b : List Nat) :
    (s.nvFinish cmd t b).2.pending = s.pending ∧ (s.nvFinish cmd t b).2.mem = s.mem := by
  simp [State.nvFinish]

theorem execNvCommandComplete_keeps (err : Bool) (bytes : List Nat) (s : State) :
    Completes (execNvCommandComplete err bytes s) (fun t => t.pending = s.pending ∧ t.mem = s.mem) := by
  unfold execNvCommandComplete
  split <;> simp

@[simp] theorem State.secResult_keeps (s : State) (code : Nat) :
    (s.secResult code).pending = s.pending ∧ (s.secResult code).mem = s.mem := by
  simp [State.secResult]

@[simp] theorem State.renewSec_keeps (s : State) :
    (s.renewSec).pending = s.pending ∧ (s.renewSec).mem = s.mem := by
  simp [State.renewSec]

@[simp] theorem State.secCommand_keeps (s : State) (cmd : Nat) :
    (s.secCommand cmd).pending = s.pending ∧ (s.secCommand cmd).mem = s.mem := by
  unfold State.secCommand
  dsimp only
  split <;> simp

theorem execSecAttest_keeps (s : State) :
    Completes (execSecAttest s) (fun t => t.pending = s.pending ∧ t.mem = s.mem) := by
  simp [execSecAttest]

theorem execSecEnrol_keeps (s : State) :
    Completes (execSecEnrol s) (fun t => t.pending = s.pending ∧ t.mem = s.mem) := by
  simp [execSecEnrol]

theorem execSecTransfer_keeps (s : State) :
    Completes (execSecTransfer s) (fun t => t.pending = s.pending ∧ t.mem = s.mem) := by
  simp [execSecTransfer]

@[simp] theorem State.enrol_keeps (s : State) (cmd : Nat) (err : Bool) (b : List Nat) :
    (s.enrol cmd err b).pending = s.pending ∧ (s.enrol cmd err b).mem = s.mem := by
  simp [State.enrol]

theorem execSecCommandComplete_keeps (err : Bool) (bytes : List Nat) (s : State) :
    Completes (execSecCommandComplete err bytes s) (fun t => t.pending = s.pending ∧ t.mem = s.mem) := by
  unfold execSecCommandComplete
  split <;> simp

/-! ### SafeBlock -/

theorem execLockstepMismatch_keeps (pair : Nat) (s : State) :
    Completes (execLockstepMismatch pair s) (fun t => t.pending = s.pending ∧ t.mem = s.mem) := by
  simp [execLockstepMismatch]

theorem execCc6WatchdogExpire_keeps (s : State) :
    Completes (execCc6WatchdogExpire s) (fun t => t.pending = s.pending ∧ t.mem = s.mem) := by
  simp [execCc6WatchdogExpire]

theorem execSafeAck_keeps (s : State) :
    Completes (execSafeAck s) (fun t => t.pending = s.pending ∧ t.mem = s.mem) := by
  simp [execSafeAck]

theorem execSafeLogSelWrite_keeps (n : Nat) (s : State) :
    Completes (execSafeLogSelWrite n s) (fun t => t.pending = s.pending ∧ t.mem = s.mem) := by
  simp [execSafeLogSelWrite]

@[simp] theorem State.startDigest_keeps (s : State) (p m : Nat) :
    (s.startDigest p m).pending = s.pending ∧ (s.startDigest p m).mem = s.mem := by
  simp [State.startDigest]

theorem execSafeDigestNow_keeps (s : State) :
    Completes (execSafeDigestNow s) (fun t => t.pending = s.pending ∧ t.mem = s.mem) := by
  simp [execSafeDigestNow]

theorem execDigestDue_keeps (p m : Nat) (s : State) :
    Completes (execDigestDue p m s) (fun t => t.pending = s.pending ∧ t.mem = s.mem) := by
  simp [execDigestDue]

@[simp] theorem State.digestRead_pending (s : State) (x : Place) :
    (s.digestRead x).2.pending = s.pending := by
  simp [State.digestRead]

@[simp] theorem State.digestAll_pending (s : State) (y1 : List Place) :
    (s.digestAll y1).2.pending = s.pending := by
  induction y1 generalizing s with
  | nil => simp [State.digestAll]
  | cons c cs ih => simp [State.digestAll, ih]

theorem execDigestComplete_keeps (p m : Nat) (s : State) :
    Completes (execDigestComplete p m s) (fun t => t.pending = s.pending) := by
  simp [execDigestComplete]

theorem execHeartbeatSend_keeps (s : State) :
    Completes (execHeartbeatSend s) (fun t => t.pending = s.pending ∧ t.mem = s.mem) := by
  simp [execHeartbeatSend]

theorem execErrorReportResend_keeps (id : Nat) (s : State) :
    Completes (execErrorReportResend id s) (fun t => t.pending = s.pending ∧ t.mem = s.mem) := by
  unfold execErrorReportResend
  split <;> simp

theorem execManagementPortDown_keeps (s : State) :
    Completes (execManagementPortDown s) (fun t => t.pending = s.pending ∧ t.mem = s.mem) := by
  simp [execManagementPortDown]

theorem execManagementPortUp_keeps (s : State) :
    Completes (execManagementPortUp s) (fun t => t.pending = s.pending ∧ t.mem = s.mem) := by
  simp [execManagementPortUp]

@[simp] theorem State.renewMgmt_keeps (s : State) :
    (s.renewMgmt).pending = s.pending ∧ (s.renewMgmt).mem = s.mem := by
  simp [State.renewMgmt]

@[simp] theorem State.replyResult_keeps (s : State) (h : MgmtHdr) (code accepted : Nat) :
    (s.replyResult h code accepted).pending = s.pending ∧ (s.replyResult h code accepted).mem = s.mem := by
  simp [State.replyResult]

@[simp] theorem State.mgmtCommand_pending {f : State → Nat × Nat × State} (h : ∀ s, (f s).2.2.pending = s.pending)
    (s : State) (m : MgmtHdr) (type : Nat) (body : List Nat) : (s.mgmtCommand m type body f).pending = s.pending := by
  simp [State.mgmtCommand, h]

@[simp] theorem State.mgmtCommand_mem {f : State → Nat × Nat × State} (h : ∀ s, (f s).2.2.mem = s.mem)
    (s : State) (m : MgmtHdr) (type : Nat) (body : List Nat) : (s.mgmtCommand m type body f).mem = s.mem := by
  simp [State.mgmtCommand, h]

theorem execErrorAck_keeps (h : MgmtHdr) (id : Nat) (s : State) :
    Completes (execErrorAck h id s) (fun t => t.pending = s.pending ∧ t.mem = s.mem) := by
  simp [execErrorAck]

theorem execGetAttest_keeps (h : MgmtHdr) (nonce : List Nat) (s : State) :
    Completes (execGetAttest h nonce s) (fun t => t.pending = s.pending ∧ t.mem = s.mem) := by
  simp [execGetAttest]

theorem execGetLog_keeps (h : MgmtHdr) (first count : Nat) (s : State) :
    Completes (execGetLog h first count s) (fun t => t.pending = s.pending ∧ t.mem = s.mem) := by
  simp [execGetLog]

@[simp] theorem State.nvEnd_keeps (s : State) (cmd t : Nat) (b : List Nat) :
    (s.nvEnd cmd t b).2.2.pending = s.pending ∧ (s.nvEnd cmd t b).2.2.mem = s.mem := by
  simp [State.nvEnd]

@[simp] theorem State.nvBegin_keeps (cmd target len : Nat) (s : State) :
    (State.nvBegin cmd target len s).2.2.pending = s.pending ∧ (State.nvBegin cmd target len s).2.2.mem = s.mem := by
  simp [State.nvBegin]

theorem execNvBegin_keeps (h : MgmtHdr) (cmd target len : Nat) (s : State) :
    Completes (execNvBegin h cmd target len s) (fun t => t.pending = s.pending ∧ t.mem = s.mem) := by
  simp [execNvBegin]

theorem execNvChunk_keeps (h : MgmtHdr) (off : Nat) (bytes : List Nat) (s : State) :
    Completes (execNvChunk h off bytes s) (fun t => t.pending = s.pending ∧ t.mem = s.mem) := by
  unfold execNvChunk
  repeat' split
  all_goals simp

theorem execNvChunkGapTimeout_keeps (s : State) :
    Completes (execNvChunkGapTimeout s) (fun t => t.pending = s.pending ∧ t.mem = s.mem) := by
  simp [execNvChunkGapTimeout]

theorem execMgmtRetry_keeps (h : MgmtHdr) (s : State) :
    Completes (execMgmtRetry h s) (fun t => t.pending = s.pending ∧ t.mem = s.mem) := by
  simp [execMgmtRetry]

theorem execMgmtRevoke_keeps (h : MgmtHdr) (pos inc : Nat) (s : State) :
    Completes (execMgmtRevoke h pos inc s) (fun t => t.pending = s.pending) := by
  simp [execMgmtRevoke]

/-! ### Host -/

@[simp] theorem State.sampleGpio_keeps (s : State) :
    (s.sampleGpio).pending = s.pending ∧ (s.sampleGpio).mem = s.mem := by
  simp [State.sampleGpio]

@[simp] theorem State.refreshTeam_keeps (s : State) (t : Nat) :
    (s.refreshTeam t).pending = s.pending ∧ (s.refreshTeam t).mem = s.mem := by
  simp [State.refreshTeam]

@[simp] theorem State.refreshTile_keeps (s : State) (t k : Nat) :
    (s.refreshTile t k).pending = s.pending ∧ (s.refreshTile t k).mem = s.mem := by
  simp [State.refreshTile]

@[simp] theorem State.refreshKv_keeps (s : State) (p : Nat) :
    (s.refreshKv p).pending = s.pending ∧ (s.refreshKv p).mem = s.mem := by
  simp [State.refreshKv]

@[simp] theorem State.refreshGate_keeps (s : State) (p : Nat) :
    (s.refreshGate p).pending = s.pending ∧ (s.refreshGate p).mem = s.mem := by
  simp [State.refreshGate]

@[simp] theorem State.refreshLink_keeps (s : State) (p : Nat) :
    (s.refreshLink p).pending = s.pending ∧ (s.refreshLink p).mem = s.mem := by
  simp [State.refreshLink]

@[simp] theorem State.refreshSafe_keeps (s : State) :
    (s.refreshSafe).pending = s.pending ∧ (s.refreshSafe).mem = s.mem := by
  simp [State.refreshSafe]

@[simp] theorem State.showWaitOf_keeps (s : State) (u : Nat) (w : Option (Nat × Nat × Nat × Nat)) :
    (s.showWaitOf u w).pending = s.pending ∧ (s.showWaitOf u w).mem = s.mem := by
  unfold State.showWaitOf
  split <;> simp

@[simp] theorem State.refreshWaits_keeps (s : State) :
    (s.refreshWaits).pending = s.pending ∧ (s.refreshWaits).mem = s.mem := by
  simp [State.refreshWaits]

@[simp] theorem State.refreshUnit_keeps (s : State) (u : Nat) :
    (s.refreshUnit u).pending = s.pending ∧ (s.refreshUnit u).mem = s.mem := by
  simp [State.refreshUnit]

@[simp] theorem State.showByteWord_keeps (s : State) (f : Fld) (b : List Nat) (i : Nat) :
    (s.showByteWord f b i).pending = s.pending ∧ (s.showByteWord f b i).mem = s.mem := by
  simp [State.showByteWord]

@[simp] theorem State.refresh_keeps (s : State) (w : RegWord) :
    (s.refresh w).pending = s.pending ∧ (s.refresh w).mem = s.mem := by
  simp [State.refresh]

@[simp] theorem State.latchWord_keeps (s : State) (w : RegWord) :
    (s.latchWord w).pending = s.pending ∧ (s.latchWord w).mem = s.mem := by
  unfold State.latchWord
  split <;> simp

@[simp] theorem State.clearRead_keeps (s : State) (w : RegWord) :
    (s.clearRead w).pending = s.pending ∧ (s.clearRead w).mem = s.mem := by
  unfold State.clearRead
  exact State.each_quiet (fun s f => ⟨s.clear_pending f, s.clear_mem f⟩) _ _

@[simp] theorem State.readReg_keeps (s : State) (w : RegWord) :
    (s.readReg w).2.pending = s.pending ∧ (s.readReg w).2.mem = s.mem := by
  simp [State.readReg]

@[simp] theorem State.storeField_keeps (s : State) (w : RegWord) (v : Nat) (f : Fld) :
    (s.storeField w v f).pending = s.pending ∧ (s.storeField w v f).mem = s.mem := by
  unfold State.storeField
  split <;> simp

@[simp] theorem State.badStrobe_keeps (s : State) (w : RegWord) (v : Nat) :
    (s.badStrobe w v).pending = s.pending ∧ (s.badStrobe w v).mem = s.mem := by
  simp [State.badStrobe]

@[simp] theorem State.writeReg_keeps (s : State) (w : RegWord) (v : Nat) :
    (s.writeReg w v).pending = s.pending ∧ (s.writeReg w v).mem = s.mem := by
  simp [State.writeReg]

@[simp] theorem State.setTableWord_keeps (s : State) (fn i v : Nat) :
    (s.setTableWord fn i v).pending = s.pending ∧ (s.setTableWord fn i v).mem = s.mem := by
  unfold State.setTableWord
  dsimp only
  split
  · exact ⟨s.vecSet_pending _ _ _, s.vecSet_mem _ _ _⟩
  · split
    · exact ⟨s.vecSet_pending _ _ _, s.vecSet_mem _ _ _⟩
    · split
      · exact ⟨s.vecSet_pending _ _ _, s.vecSet_mem _ _ _⟩
      · simp

@[simp] theorem State.violation_keeps (s : State) (fn p addr : Nat) :
    (s.violation fn p addr).pending = s.pending ∧ (s.violation fn p addr).mem = s.mem := by
  unfold State.violation
  extract_lets s1 quiet
  split <;> simp [s1]

@[simp] theorem State.write32_keeps (s : State) (fn bar off v : Nat) :
    (s.write32 fn bar off v).pending = s.pending ∧ (s.write32 fn bar off v).mem = s.mem := by
  unfold State.write32
  split <;> simp

theorem execRegisterWrite_keeps (fn bar off size value : Nat) (poison : Bool) (s : State) :
    Completes (execRegisterWrite fn bar off size value poison s) (fun t => t.pending = s.pending ∧ t.mem = s.mem) := by
  simp [execRegisterWrite]

@[simp] theorem State.read32_pending (s : State) (fn bar off : Nat) :
    (s.read32 fn bar off).2.pending = s.pending := by
  unfold State.read32
  split <;> simp

@[simp] theorem State.readWords_pending (fn bar off n : Nat) (s : State) :
    (State.readWords fn bar off n s).2.pending = s.pending := by
  induction n generalizing s off with
  | zero => simp [State.readWords]
  | succ n ih =>
    unfold State.readWords
    dsimp only
    split <;> simp [ih]

@[simp] theorem State.hostRead_pending (s : State) (fn bar off size : Nat) :
    (s.hostRead fn bar off size).pending = s.pending := by
  simp [State.hostRead]

theorem execReadClearCounter_keeps (fn bar off size : Nat) (s : State) :
    Completes (execReadClearCounter fn bar off size s) (fun t => t.pending = s.pending) := by
  simp [execReadClearCounter]

theorem execLatchingLoRead_keeps (fn bar off size : Nat) (s : State) :
    Completes (execLatchingLoRead fn bar off size s) (fun t => t.pending = s.pending) := by
  simp [execLatchingLoRead]

@[simp] theorem State.cfgMsix_keeps (s : State) (fn : Nat) (on maskAll : Bool) :
    (s.cfgMsix fn on maskAll).pending = s.pending ∧ (s.cfgMsix fn on maskAll).mem = s.mem := by
  simp [State.cfgMsix]

@[simp] theorem State.cfgAts_keeps (s : State) (fn : Nat) (on : Bool) :
    (s.cfgAts fn on).pending = s.pending ∧ (s.cfgAts fn on).mem = s.mem := by
  simp [State.cfgAts]

theorem execConfigRequest_keeps (r : ConfigReq) (s : State) :
    Completes (execConfigRequest r s) (fun t => t.pending = s.pending ∧ t.mem = s.mem) := by
  unfold execConfigRequest
  repeat' split
  all_goals simp

@[simp] theorem State.bar4Refuse_keeps (s : State) (fn off : Nat) :
    (s.bar4Refuse fn off).pending = s.pending ∧ (s.bar4Refuse fn off).mem = s.mem := by
  unfold State.bar4Refuse
  split <;> simp

theorem execHostBar4Read_keeps (fn off n : Nat) (s : State) :
    Completes (execHostBar4Read fn off n s) (fun t => t.pending = s.pending) := by
  unfold execHostBar4Read
  split <;> simp

theorem execHostBar4Write_keeps (fn off : Nat) (bytes : List Nat) (poison : Bool) (s : State) :
    Completes (execHostBar4Write fn off bytes poison s) (fun t => t.pending = s.pending) := by
  unfold execHostBar4Write
  split <;> simp

/-! ### Debug -/

theorem execTapReset_keeps (s : State) :
    Completes (execTapReset s) (fun t => t.pending = s.pending ∧ t.mem = s.mem) := by
  simp [execTapReset]

@[simp] theorem State.bypass_keeps (s : State) :
    (s.bypass).pending = s.pending ∧ (s.bypass).mem = s.mem := by
  simp [State.bypass]

theorem execBypass_keeps (s : State) :
    Completes (execBypass s) (fun t => t.pending = s.pending ∧ t.mem = s.mem) := by
  simp [execBypass]

@[simp] theorem State.scanCells_keeps (s : State) (n cells : Nat) :
    (s.scanCells n cells).pending = s.pending ∧ (s.scanCells n cells).mem = s.mem := by
  simp [State.scanCells]

theorem execExtest_keeps (n cells : Nat) (s : State) :
    Completes (execExtest n cells s) (fun t => t.pending = s.pending ∧ t.mem = s.mem) := by
  simp [execExtest]

theorem execClamp_keeps (s : State) :
    Completes (execClamp s) (fun t => t.pending = s.pending ∧ t.mem = s.mem) := by
  simp [execClamp]

theorem execIdcode_keeps (s : State) :
    Completes (execIdcode s) (fun t => t.pending = s.pending ∧ t.mem = s.mem) := by
  simp [execIdcode]

theorem execSamplePreload_keeps (n cells : Nat) (s : State) :
    Completes (execSamplePreload n cells s) (fun t => t.pending = s.pending ∧ t.mem = s.mem) := by
  simp [execSamplePreload]

theorem execTapChallenge_keeps (s : State) :
    Completes (execTapChallenge s) (fun t => t.pending = s.pending ∧ t.mem = s.mem) := by
  simp [execTapChallenge]

@[simp] theorem State.dbgResult_keeps (s : State) (code : Nat) :
    (s.dbgResult code).pending = s.pending ∧ (s.dbgResult code).mem = s.mem := by
  simp [State.dbgResult]

@[simp] theorem State.debugRefused_keeps (s : State) (ctx : List Nat) :
    (s.debugRefused ctx).pending = s.pending ∧ (s.debugRefused ctx).mem = s.mem := by
  simp [State.debugRefused]

@[simp] theorem State.renewDebug_keeps (s : State) :
    (s.renewDebug).pending = s.pending ∧ (s.renewDebug).mem = s.mem := by
  simp [State.renewDebug]

@[simp] theorem State.unlocked_keeps (s : State) (b : List Nat) :
    (s.unlocked b).pending = s.pending ∧ (s.unlocked b).mem = s.mem := by
  simp [State.unlocked]

@[simp] theorem State.unlockTry_keeps (s : State) (err : Bool) (bytes : List Nat) :
    (s.unlockTry err bytes).pending = s.pending ∧ (s.unlockTry err bytes).mem = s.mem := by
  simp [State.unlockTry]

theorem execTapUnlock_keeps (bytes : List Nat) (s : State) :
    Completes (execTapUnlock bytes s) (fun t => t.pending = s.pending ∧ t.mem = s.mem) := by
  simp [execTapUnlock]

theorem execDbgUnlock_keeps (err : Bool) (bytes : List Nat) (s : State) :
    Completes (execDbgUnlock err bytes s) (fun t => t.pending = s.pending ∧ t.mem = s.mem) := by
  simp [execDbgUnlock]

@[simp] theorem State.showHalted_keeps (s : State) :
    (s.showHalted).pending = s.pending ∧ (s.showHalted).mem = s.mem := by
  simp [State.showHalted]

@[simp] theorem State.haltCore_keeps (s : State) (cause c : Nat) :
    (s.haltCore cause c).pending = s.pending ∧ (s.haltCore cause c).mem = s.mem := by
  simp [State.haltCore]

@[simp] theorem State.coreRan_keeps (s : State) (c : Nat) :
    (s.coreRan c).pending = s.pending ∧ (s.coreRan c).mem = s.mem := by
  simp [State.coreRan]

@[simp] theorem State.coreWork_pending (s : State) (c : Nat) :
    (s.coreWork c).pending = s.pending := by
  simp [State.coreWork]

@[simp] theorem State.resumeCore_pending (s : State) (c : Nat) :
    (s.resumeCore c).pending = s.pending := by
  simp [State.resumeCore]

@[simp] theorem State.halt_keeps (s : State) (u : Nat) :
    (s.halt u).pending = s.pending ∧ (s.halt u).mem = s.mem := by
  simp [State.halt]

@[simp] theorem State.resume_pending (s : State) (u : Nat) :
    (s.resume u).pending = s.pending := by
  simp [State.resume]

@[simp] theorem State.stepUnit_keeps (s : State) (u : Nat) :
    (s.stepUnit u).pending = s.pending ∧ (s.stepUnit u).mem = s.mem := by
  simp [State.stepUnit]

theorem execRunctlHalt_keeps (u : Nat) (s : State) :
    Completes (execRunctlHalt u s) (fun t => t.pending = s.pending ∧ t.mem = s.mem) := by
  simp [execRunctlHalt]

theorem execRunctlResume_keeps (u : Nat) (s : State) :
    Completes (execRunctlResume u s) (fun t => t.pending = s.pending) := by
  simp [execRunctlResume]

theorem execRunctlStep_keeps (u : Nat) (s : State) :
    Completes (execRunctlStep u s) (fun t => t.pending = s.pending ∧ t.mem = s.mem) := by
  simp [execRunctlStep]

@[simp] theorem State.clearBreaks_keeps (s : State) (u : Nat) :
    (s.clearBreaks u).pending = s.pending ∧ (s.clearBreaks u).mem = s.mem := by
  unfold State.clearBreaks
  refine State.each_quiet_of_step (fun s k t ht => ?_) s _
  rw [← ht]
  exact ⟨rfl, rfl⟩

@[simp] theorem State.debugRestart_keeps (s : State) (r : Nat) :
    (s.debugRestart r).pending = s.pending ∧ (s.debugRestart r).mem = s.mem := by
  simp [State.debugRestart]

@[simp] theorem State.lock_pending (s : State) :
    (s.lock).pending = s.pending := by
  simp [State.lock]

theorem execDbgLock_keeps (s : State) :
    Completes (execDbgLock s) (fun t => t.pending = s.pending) := by
  simp [execDbgLock]

theorem execUnlockDurationExpire_keeps (s : State) :
    Completes (execUnlockDurationExpire s) (fun t => t.pending = s.pending) := by
  simp [execUnlockDurationExpire]

@[simp] theorem State.clockCommand_pending {f : State → State} (h : ∀ s, (f s).pending = s.pending) (s : State) (r : Nat) :
    (s.clockCommand r f).pending = s.pending := by
  simp [State.clockCommand, h]

@[simp] theorem State.clockCommand_mem {f : State → State} (h : ∀ s, (f s).mem = s.mem) (s : State) (r : Nat) :
    (s.clockCommand r f).mem = s.mem := by
  simp [State.clockCommand, h]

theorem execDbgClockStop_keeps (r : Nat) (s : State) :
    Completes (execDbgClockStop r s) (fun t => t.pending = s.pending ∧ t.mem = s.mem) := by
  simp [execDbgClockStop]

theorem execDbgClockRun_keeps (r : Nat) (s : State) :
    Completes (execDbgClockRun r s) (fun t => t.pending = s.pending ∧ t.mem = s.mem) := by
  simp [execDbgClockRun]

@[simp] theorem State.setTrace_keeps (s : State) (i : Nat) (e : TraceEntry) :
    (s.setTrace i e).pending = s.pending ∧ (s.setTrace i e).mem = s.mem := by
  simp [State.setTrace]

@[simp] theorem State.traceBlockRead_keeps (s : State) (i : Nat) :
    (s.traceBlockRead i).pending = s.pending ∧ (s.traceBlockRead i).mem = s.mem := by
  unfold State.traceBlockRead
  dsimp only
  split <;> simp

@[simp] theorem State.startGraph_keeps (s : State) :
    (s.startGraph).pending = s.pending ∧ (s.startGraph).mem = s.mem := by
  simp [State.startGraph]

theorem execDbgWfg_keeps (s : State) :
    Completes (execDbgWfg s) (fun t => t.pending = s.pending ∧ t.mem = s.mem) := by
  simp [execDbgWfg]

theorem execHangTimeout_keeps (id : Nat) (s : State) :
    Completes (execHangTimeout id s) (fun t => t.pending = s.pending ∧ t.mem = s.mem) := by
  unfold execHangTimeout
  split <;> simp

@[simp] theorem State.recordHang_keeps (s : State) (loops : List Wait) :
    (s.recordHang loops).pending = s.pending ∧ (s.recordHang loops).mem = s.mem := by
  simp [State.recordHang]

@[simp] theorem State.writeGraph_pending (s : State) (ws : List Wait) (cycle : Nat) :
    (s.writeGraph ws cycle).pending = s.pending := by
  simp [State.writeGraph]

theorem execWfgSecondSnapshot_keeps (s : State) :
    Completes (execWfgSecondSnapshot s) (fun t => t.pending = s.pending) := by
  unfold execWfgSecondSnapshot
  split <;> simp

theorem execTrcArm_keeps (s : State) :
    Completes (execTrcArm s) (fun t => t.pending = s.pending ∧ t.mem = s.mem) := by
  simp [execTrcArm]

theorem execTrcStop_keeps (s : State) :
    Completes (execTrcStop s) (fun t => t.pending = s.pending ∧ t.mem = s.mem) := by
  simp [execTrcStop]

theorem execTrcTrigger_keeps (s : State) :
    Completes (execTrcTrigger s) (fun t => t.pending = s.pending ∧ t.mem = s.mem) := by
  simp [execTrcTrigger]

theorem execTrcCopy_keeps (s : State) :
    Completes (execTrcCopy s) (fun t => t.pending = s.pending ∧ t.mem = s.mem) := by
  simp [execTrcCopy]

@[simp] theorem State.copyTraceBlock_pending (s : State) (a i : Nat) :
    (s.copyTraceBlock a i).pending = s.pending := by
  simp [State.copyTraceBlock]

theorem execTraceCopyComplete_keeps (s : State) :
    Completes (execTraceCopyComplete s) (fun t => t.pending = s.pending) := by
  simp [execTraceCopyComplete]

theorem execTraceEntryWrite_keeps (source : Nat) (s : State) :
    Completes (execTraceEntryWrite source s) (fun t => t.pending = s.pending ∧ t.mem = s.mem) := by
  unfold execTraceEntryWrite
  split <;> simp

theorem execTraceTrigInEdge_keeps (pin : Nat) (s : State) :
    Completes (execTraceTrigInEdge pin s) (fun t => t.pending = s.pending ∧ t.mem = s.mem) := by
  simp [execTraceTrigInEdge]

theorem execDumpArm_keeps (slot : Nat) (s : State) :
    Completes (execDumpArm slot s) (fun t => t.pending = s.pending) := by
  simp [execDumpArm]

theorem execDumpDisarm_keeps (slot : Nat) (s : State) :
    Completes (execDumpDisarm slot s) (fun t => t.pending = s.pending ∧ t.mem = s.mem) := by
  simp [execDumpDisarm]

theorem execCntSnap_keeps (s : State) :
    Completes (execCntSnap s) (fun t => t.pending = s.pending ∧ t.mem = s.mem) := by
  simp [execCntSnap]

theorem execCntClear_keeps (s : State) :
    Completes (execCntClear s) (fun t => t.pending = s.pending ∧ t.mem = s.mem) := by
  simp [execCntClear]

theorem execCounterSnapshotLatch_keeps (s : State) :
    Completes (execCounterSnapshotLatch s) (fun t => t.pending = s.pending ∧ t.mem = s.mem) := by
  simp [execCounterSnapshotLatch]

/-! ### Pcie -/

@[simp] theorem State.failRead_pending (s : State) (y1 : HostRead) :
    (s.failRead y1).pending = s.pending := by
  cases y1 with
  | descriptor c => exact (execLoadDescArrive_keeps ..).left.outState s
  | load c => exact (execLoadMoveComplete_keeps ..).outState s
  | input g => exact (execInputPullComplete_keeps ..).outState s
  | page p n => exact (execPageMoveComplete_keeps ..).outState s
  | image => exact (execVolzPullComplete_keeps ..).outState s
  | nv => exact (execNvCommandComplete_keeps ..).left.outState s
  | sec => exact (execSecCommandComplete_keeps ..).left.outState s

@[simp] theorem State.timedOut_keeps (s : State) (fn addr : Nat) :
    (s.timedOut fn addr).pending = s.pending ∧ (s.timedOut fn addr).mem = s.mem := by
  simp [State.timedOut]

theorem execPciCompletionTimeout_keeps (fn addr : Nat) (s : State) :
    Completes (execPciCompletionTimeout fn addr s) (fun t => t.pending = s.pending) := by
  unfold execPciCompletionTimeout
  dsimp only
  split <;> simp

@[simp] theorem State.settleInvals_keeps (s : State) :
    (s.settleInvals).pending = s.pending ∧ (s.settleInvals).mem = s.mem := by
  unfold State.settleInvals
  refine State.each_quiet (fun s v => ?_) _ _
  exact ⟨rfl, rfl⟩

theorem execAtsInvalidation_keeps (fn addr len : Nat) (s : State) :
    Completes (execAtsInvalidation fn addr len s) (fun t => t.pending = s.pending ∧ t.mem = s.mem) := by
  simp [execAtsInvalidation]

/-! ### TapAccess -/

theorem State.strobe_pending {f : State → Host.Outcome State Fault Refusal}
    (h : ∀ s, Completes (f s) (fun t => t.pending = s.pending)) (s : State) (on : Bool) :
    (s.strobe on f).pending = s.pending := by
  unfold State.strobe
  split
  · exact (h s).outState s
  · rfl

theorem State.strobe_quiet {f : State → Host.Outcome State Fault Refusal}
    (h : ∀ s, Completes (f s) (fun t => t.pending = s.pending ∧ t.mem = s.mem)) (s : State) (on : Bool) :
    (s.strobe on f).pending = s.pending :=
  State.strobe_pending (fun s => (h s).left) s on

@[simp] theorem State.loadStrobes_pending (s : State) (c v : Nat) :
    (s.loadStrobes c v).pending = s.pending := by
  unfold State.loadStrobes
  extract_lets s1 r q
  have h1 : s1.pending = s.pending := State.strobe_quiet (execLoadGo_keeps _ _) _ _
  split
  · exact h1
  · rw [(execLoadAbort_keeps ..).outState]
    simp [q, r, h1]

@[simp] theorem State.sweepStrobes_pending (s : State) (c v : Nat) :
    (s.sweepStrobes c v).pending = s.pending := by
  unfold State.sweepStrobes
  extract_lets s1 r
  have h1 : s1.pending = s.pending := State.strobe_pending (execSweepGo_keeps _ _) _ _
  split
  · exact h1
  · rw [(execSweepAbort_keeps ..).outState]
    simp [r, h1]

@[simp] theorem State.debugStrobes_pending (s : State) (v : Nat) :
    (s.debugStrobes v).pending = s.pending := by
  unfold State.debugStrobes
  simp [State.strobe_pending execDbgLock_keeps, State.strobe_quiet (execDbgClockStop_keeps _),
    State.strobe_quiet (execDbgClockRun_keeps _), State.strobe_quiet execDbgWfg_keeps,
    (execDbgUnlock_keeps _ _ _).left.outState]

@[simp] theorem State.teamStrobes_pending (s : State) (t base v : Nat) :
    (s.teamStrobes t base v).pending = s.pending := by
  unfold State.teamStrobes
  dsimp only
  repeat' split
  all_goals simp [State.strobe_quiet (execTeamStop_keeps _ _), State.strobe_quiet (execTeamCntFreeze_keeps _ _),
      State.strobe_quiet (execTeamSwapGo_keeps _ _), State.strobe_quiet (execOutrSelftest_keeps _),
      State.strobe_quiet (execOutrSample_keeps _ _), State.strobe_quiet (execOutrRefGo_keeps _ _),
      State.strobe_quiet (execCalRequest_keeps _ _), State.strobe_pending (execCalAbandon_keeps _),
      State.strobe_quiet (execCalHold_keeps _ _), State.strobe_pending (execFarrRemap_keeps _ _ _),
      State.strobe_pending (execFarrRetire_keeps _ _), State.strobe_quiet (execFarrReadmit_keeps _ _),
      State.strobe_quiet (execAccAbandon_keeps _ _)]

@[simp] theorem State.linkStrobes_pending (s : State) (p base v : Nat) :
    (s.linkStrobes p base v).pending = s.pending := by
  unfold State.linkStrobes
  simp [State.strobe_quiet (execLinkRetrain_keeps _), State.strobe_quiet (execLinkDark_keeps _ _),
    State.strobe_quiet (execCwayOpen_keeps _), State.strobe_quiet (execCwayClose_keeps _),
    State.strobe_pending (execTorReadmit_keeps _), State.strobe_pending (execTorRevoke_keeps _),
    State.strobe_quiet (execDramRetire_keeps _ _)]

@[simp] theorem State.bootStrobes_pending (s : State) (base v : Nat) :
    (s.bootStrobes base v).pending = s.pending := by
  unfold State.bootStrobes
  dsimp only
  repeat' split
  all_goals simp [State.strobe_quiet execRstRetry_keeps, State.strobe_quiet (execNvWrite_keeps _),
      State.strobe_quiet (execNvErase_keeps _), State.strobe_quiet (execNvSetTrial_keeps _),
      State.strobe_quiet (execNvClearTrial_keeps _), State.strobe_quiet execSecAttest_keeps,
      State.strobe_quiet execSecEnrol_keeps, State.strobe_quiet execSecTransfer_keeps,
      State.strobe_quiet execSafeAck_keeps, State.strobe_quiet execSafeDigestNow_keeps,
      State.strobe_quiet (execSafeLogSelWrite_keeps _), State.strobe_quiet execVolzFull_keeps,
      State.strobe_quiet (execVolzPartial_keeps _), State.strobe_pending execVolzAbort_keeps]

@[simp] theorem State.traceStrobes_pending (s : State) (base v : Nat) :
    (s.traceStrobes base v).pending = s.pending := by
  unfold State.traceStrobes
  simp [State.strobe_quiet execTrcArm_keeps, State.strobe_quiet execTrcTrigger_keeps,
    State.strobe_quiet execTrcStop_keeps, State.strobe_quiet execTrcCopy_keeps,
    State.strobe_quiet execCntSnap_keeps, State.strobe_quiet execCntClear_keeps,
    State.strobe_quiet (execDumpDisarm_keeps _), State.strobe_pending (execDumpArm_keeps _)]

@[simp] theorem State.blockStrobes_pending (s : State) (w : RegWord) (v : Nat) :
    (s.blockStrobes w v).pending = s.pending := by
  unfold State.blockStrobes
  dsimp only
  split
  · split <;> simp [State.strobe_pending execPartQuiesce_keeps, State.strobe_quiet execPartScrub_keeps,
      State.strobe_pending execPartReturn_keeps]
  · simp [State.strobe_quiet (execKvSel1Write_keeps _ _), State.strobe_quiet (execKvHostAreaWrite_keeps _ _ _),
      State.strobe_quiet (execBrdlCapWrite_keeps _), State.strobe_quiet (execAdcUrgentGo_keeps _),
      State.strobe_quiet execWaySet_keeps]

@[simp] theorem State.strobes_pending (s : State) (w : RegWord) (v : Nat) :
    (s.strobes w v).pending = s.pending := by
  simp [State.strobes]

@[simp] theorem State.access0_pending (s : State) (write : Bool) (a v : Nat) :
    (s.access0 write a v).2.2.pending = s.pending := by
  unfold State.access0
  repeat' split
  all_goals simp

@[simp] theorem State.access1_pending (s : State) (write : Bool) (a v : Nat) :
    (s.access1 write a v).2.2.pending = s.pending := by
  unfold State.access1
  split <;> simp

@[simp] theorem State.accessCore_keeps (s : State) (write : Bool) (space a v : Nat) :
    (s.accessCore write space a v).2.2.pending = s.pending ∧ (s.accessCore write space a v).2.2.mem = s.mem := by
  simp [State.accessCore]

@[simp] theorem State.accessSeq_pending (s : State) (write : Bool) (a v : Nat) :
    (s.accessSeq write a v).2.2.pending = s.pending := by
  simp [State.accessSeq]

@[simp] theorem State.accessTrace_keeps (s : State) (write : Bool) (a v : Nat) :
    (s.accessTrace write a v).2.2.pending = s.pending ∧ (s.accessTrace write a v).2.2.mem = s.mem := by
  simp [State.accessTrace]

@[simp] theorem State.accessUnit_pending (s : State) (write : Bool) (a v : Nat) :
    (s.accessUnit write a v).2.2.pending = s.pending := by
  simp [State.accessUnit]

@[simp] theorem State.accessSpace_pending (s : State) (write : Bool) (space a v : Nat) :
    (s.accessSpace write space a v).2.2.pending = s.pending := by
  simp [State.accessSpace]

@[simp] theorem State.accessNow_pending (s : State) (write : Bool) (space a v : Nat) :
    (s.accessNow write space a v).2.2.pending = s.pending := by
  simp [State.accessNow]

theorem execTapAccess_keeps (op space data addr : Nat) (s : State) :
    Completes (execTapAccess op space data addr s) (fun t => t.pending = s.pending) := by
  simp [execTapAccess]

end Sys2Proof.Machine
end

section
/-!
SUPPORT. What the operations under a register access leave alone: slots, caches, strings, teams, tiles, clock regions, and the
non-volatile store where they write no record.
-/
set_option Elab.async false
namespace Sys2Proof.Machine

@[simp] theorem State.slots_ite (c : Prop) [Decidable c] (s t : State) :
    (if c then s else t).slots = if c then s.slots else t.slots := apply_ite State.slots c s t

@[simp] theorem State.each_slots {α : Type} {f : State → α → State} (h : ∀ s x, (f s x).slots = s.slots)
    (s : State) (xs : List α) : (s.each xs f).slots = s.slots := s.each_keeps State.slots f h xs

@[simp] theorem State.kv_ite (c : Prop) [Decidable c] (s t : State) :
    (if c then s else t).kv = if c then s.kv else t.kv := apply_ite State.kv c s t

@[simp] theorem State.each_kv {α : Type} {f : State → α → State} (h : ∀ s x, (f s x).kv = s.kv)
    (s : State) (xs : List α) : (s.each xs f).kv = s.kv := s.each_keeps State.kv f h xs

@[simp] theorem State.seqs_ite (c : Prop) [Decidable c] (s t : State) :
    (if c then s else t).seqs = if c then s.seqs else t.seqs := apply_ite State.seqs c s t

@[simp] theorem State.each_seqs {α : Type} {f : State → α → State} (h : ∀ s x, (f s x).seqs = s.seqs)
    (s : State) (xs : List α) : (s.each xs f).seqs = s.seqs := s.each_keeps State.seqs f h xs

@[simp] theorem State.teams_ite (c : Prop) [Decidable c] (s t : State) :
    (if c then s else t).teams = if c then s.teams else t.teams := apply_ite State.teams c s t

@[simp] theorem State.each_teams {α : Type} {f : State → α → State} (h : ∀ s x, (f s x).teams = s.teams)
    (s : State) (xs : List α) : (s.each xs f).teams = s.teams := s.each_keeps State.teams f h xs

@[simp] theorem State.tiles_ite (c : Prop) [Decidable c] (s t : State) :
    (if c then s else t).tiles = if c then s.tiles else t.tiles := apply_ite State.tiles c s t

@[simp] theorem State.each_tiles {α : Type} {f : State → α → State} (h : ∀ s x, (f s x).tiles = s.tiles)
    (s : State) (xs : List α) : (s.each xs f).tiles = s.tiles := s.each_keeps State.tiles f h xs

@[simp] theorem State.clocks_ite (c : Prop) [Decidable c] (s t : State) :
    (if c then s else t).clocks = if c then s.clocks else t.clocks := apply_ite State.clocks c s t

@[simp] theorem State.each_clocks {α : Type} {f : State → α → State} (h : ∀ s x, (f s x).clocks = s.clocks)
    (s : State) (xs : List α) : (s.each xs f).clocks = s.clocks := s.each_keeps State.clocks f h xs

@[simp] theorem State.nv_ite (c : Prop) [Decidable c] (s t : State) :
    (if c then s else t).nv = if c then s.nv else t.nv := apply_ite State.nv c s t

@[simp] theorem State.each_nv {α : Type} {f : State → α → State} (h : ∀ s x, (f s x).nv = s.nv)
    (s : State) (xs : List α) : (s.each xs f).nv = s.nv := s.each_keeps State.nv f h xs

/-- A fold whose step keeps the units and the non-volatile store keeps them. -/
theorem State.each_units {α : Type} {f : State → α → State}
    (h : ∀ s x, (f s x).slots = s.slots ∧ (f s x).kv = s.kv ∧ (f s x).seqs = s.seqs ∧ (f s x).teams = s.teams ∧
      (f s x).tiles = s.tiles ∧ (f s x).clocks = s.clocks ∧ (f s x).nv = s.nv)
    (s : State) (xs : List α) :
    (s.each xs f).slots = s.slots ∧ (s.each xs f).kv = s.kv ∧ (s.each xs f).seqs = s.seqs ∧ (s.each xs f).teams = s.teams ∧
      (s.each xs f).tiles = s.tiles ∧ (s.each xs f).clocks = s.clocks ∧ (s.each xs f).nv = s.nv := by
  unfold State.each
  induction xs generalizing s with
  | nil => exact ⟨rfl, rfl, rfl, rfl, rfl, rfl, rfl⟩
  | cons x xs ih => simp [ih, h]

/-! ### Ops -/

@[simp] theorem State.fsetWords_units (s : State) (f : Fld) (y2 : Nat) (y3 : List Nat) :
    (s.fsetWords f y2 y3).slots = s.slots ∧ (s.fsetWords f y2 y3).kv = s.kv ∧ (s.fsetWords f y2 y3).seqs = s.seqs ∧
      (s.fsetWords f y2 y3).teams = s.teams ∧ (s.fsetWords f y2 y3).tiles = s.tiles ∧
      (s.fsetWords f y2 y3).clocks = s.clocks ∧ (s.fsetWords f y2 y3).nv = s.nv := by
  fun_induction State.fsetWords <;> simp_all

@[simp] theorem State.traceRegs_units (s : State) :
    (s.traceRegs).slots = s.slots ∧ (s.traceRegs).kv = s.kv ∧ (s.traceRegs).seqs = s.seqs ∧
      (s.traceRegs).teams = s.teams ∧ (s.traceRegs).tiles = s.tiles ∧ (s.traceRegs).clocks = s.clocks ∧
      (s.traceRegs).nv = s.nv := by
  simp [State.traceRegs]

@[simp] theorem State.setFnCfg_units (s : State) (fn : Nat) (c : FnCfg) :
    (s.setFnCfg fn c).slots = s.slots ∧ (s.setFnCfg fn c).kv = s.kv ∧ (s.setFnCfg fn c).seqs = s.seqs ∧
      (s.setFnCfg fn c).teams = s.teams ∧ (s.setFnCfg fn c).tiles = s.tiles ∧ (s.setFnCfg fn c).clocks = s.clocks ∧
      (s.setFnCfg fn c).nv = s.nv := by
  simp [State.setFnCfg]

@[simp] theorem State.vecSend_units (s : State) (fn vec : Nat) :
    (s.vecSend fn vec).slots = s.slots ∧ (s.vecSend fn vec).kv = s.kv ∧ (s.vecSend fn vec).seqs = s.seqs ∧
      (s.vecSend fn vec).teams = s.teams ∧ (s.vecSend fn vec).tiles = s.tiles ∧
      (s.vecSend fn vec).clocks = s.clocks ∧ (s.vecSend fn vec).nv = s.nv := by
  simp [State.vecSend]

@[simp] theorem State.vecEvent_units (s : State) (fn vec : Nat) :
    (s.vecEvent fn vec).slots = s.slots ∧ (s.vecEvent fn vec).kv = s.kv ∧ (s.vecEvent fn vec).seqs = s.seqs ∧
      (s.vecEvent fn vec).teams = s.teams ∧ (s.vecEvent fn vec).tiles = s.tiles ∧
      (s.vecEvent fn vec).clocks = s.clocks ∧ (s.vecEvent fn vec).nv = s.nv := by
  simp [State.vecEvent]

@[simp] theorem State.vecRelease_units (s : State) (fn vec : Nat) :
    (s.vecRelease fn vec).slots = s.slots ∧ (s.vecRelease fn vec).kv = s.kv ∧ (s.vecRelease fn vec).seqs = s.seqs ∧
      (s.vecRelease fn vec).teams = s.teams ∧ (s.vecRelease fn vec).tiles = s.tiles ∧
      (s.vecRelease fn vec).clocks = s.clocks ∧ (s.vecRelease fn vec).nv = s.nv := by
  simp [State.vecRelease]

@[simp] theorem State.pkgEvent_units (s : State) (e : PkgEvent) :
    (s.pkgEvent e).slots = s.slots ∧ (s.pkgEvent e).kv = s.kv ∧ (s.pkgEvent e).seqs = s.seqs ∧
      (s.pkgEvent e).teams = s.teams ∧ (s.pkgEvent e).tiles = s.tiles ∧ (s.pkgEvent e).clocks = s.clocks ∧
      (s.pkgEvent e).nv = s.nv := by
  simp [State.pkgEvent]

@[simp] theorem State.enqueueTrace_units (s : State) (e : TraceEntry) :
    (s.enqueueTrace e).slots = s.slots ∧ (s.enqueueTrace e).kv = s.kv ∧ (s.enqueueTrace e).seqs = s.seqs ∧
      (s.enqueueTrace e).teams = s.teams ∧ (s.enqueueTrace e).tiles = s.tiles ∧
      (s.enqueueTrace e).clocks = s.clocks ∧ (s.enqueueTrace e).nv = s.nv := by
  simp [State.enqueueTrace]

@[simp] theorem State.traceEvent_units (s : State) (bit source kind : Nat) (data : List Nat) :
    (s.traceEvent bit source kind data).slots = s.slots ∧ (s.traceEvent bit source kind data).kv = s.kv ∧
      (s.traceEvent bit source kind data).seqs = s.seqs ∧ (s.traceEvent bit source kind data).teams = s.teams ∧
      (s.traceEvent bit source kind data).tiles = s.tiles ∧ (s.traceEvent bit source kind data).clocks = s.clocks ∧
      (s.traceEvent bit source kind data).nv = s.nv := by
  simp [State.traceEvent]

@[simp] theorem State.writeTrace_units (s : State) (e : TraceEntry) :
    (s.writeTrace e).slots = s.slots ∧ (s.writeTrace e).kv = s.kv ∧ (s.writeTrace e).seqs = s.seqs ∧
      (s.writeTrace e).teams = s.teams ∧ (s.writeTrace e).tiles = s.tiles ∧ (s.writeTrace e).clocks = s.clocks ∧
      (s.writeTrace e).nv = s.nv := by
  unfold State.writeTrace
  dsimp only
  split
  · simp
  · split
    · simp
    · split
      · split <;> simp
      · simp

@[simp] theorem State.traceTrigger_units (s : State) (cond : Nat) :
    (s.traceTrigger cond).slots = s.slots ∧ (s.traceTrigger cond).kv = s.kv ∧ (s.traceTrigger cond).seqs = s.seqs ∧
      (s.traceTrigger cond).teams = s.teams ∧ (s.traceTrigger cond).tiles = s.tiles ∧
      (s.traceTrigger cond).clocks = s.clocks ∧ (s.traceTrigger cond).nv = s.nv := by
  simp [State.traceTrigger]

/-! ### Faults -/

@[simp] theorem State.append_units (s : State) (r : LogRec) :
    (s.append r).slots = s.slots ∧ (s.append r).kv = s.kv ∧ (s.append r).seqs = s.seqs ∧
      (s.append r).teams = s.teams ∧ (s.append r).tiles = s.tiles ∧ (s.append r).clocks = s.clocks ∧
      (s.append r).nv = s.nv := by
  simp [State.append]

@[simp] theorem State.updateHealth_units (s : State) :
    (s.updateHealth).slots = s.slots ∧ (s.updateHealth).kv = s.kv ∧ (s.updateHealth).seqs = s.seqs ∧
      (s.updateHealth).teams = s.teams ∧ (s.updateHealth).tiles = s.tiles ∧ (s.updateHealth).clocks = s.clocks ∧
      (s.updateHealth).nv = s.nv := by
  simp [State.updateHealth]

@[simp] theorem State.showFailCount_units (s : State) :
    (s.showFailCount).slots = s.slots ∧ (s.showFailCount).kv = s.kv ∧ (s.showFailCount).seqs = s.seqs ∧
      (s.showFailCount).teams = s.teams ∧ (s.showFailCount).tiles = s.tiles ∧ (s.showFailCount).clocks = s.clocks ∧
      (s.showFailCount).nv = s.nv := by
  simp [State.showFailCount]

@[simp] theorem State.writeFailCount_units (s : State) (v : Nat) :
    (s.writeFailCount v).slots = s.slots ∧ (s.writeFailCount v).kv = s.kv ∧ (s.writeFailCount v).seqs = s.seqs ∧
      (s.writeFailCount v).teams = s.teams ∧ (s.writeFailCount v).tiles = s.tiles ∧
      (s.writeFailCount v).clocks = s.clocks := by
  simp [State.writeFailCount]

@[simp] theorem State.closeAxis_units (s : State) (a : Nat) :
    (s.closeAxis a).slots = s.slots ∧ (s.closeAxis a).kv = s.kv ∧ (s.closeAxis a).seqs = s.seqs ∧
      (s.closeAxis a).teams = s.teams ∧ (s.closeAxis a).tiles = s.tiles ∧ (s.closeAxis a).clocks = s.clocks ∧
      (s.closeAxis a).nv = s.nv := by
  simp [State.closeAxis]

@[simp] theorem State.pmbusWrite_units (s : State) (k : Nat) (c : PmbusCmd) (v : Nat) :
    (s.pmbusWrite k c v).slots = s.slots ∧ (s.pmbusWrite k c v).kv = s.kv ∧ (s.pmbusWrite k c v).seqs = s.seqs ∧
      (s.pmbusWrite k c v).teams = s.teams ∧ (s.pmbusWrite k c v).tiles = s.tiles ∧
      (s.pmbusWrite k c v).clocks = s.clocks ∧ (s.pmbusWrite k c v).nv = s.nv := by
  simp [State.pmbusWrite]

@[simp] theorem State.commandRail_units (s : State) (k uv : Nat) :
    (s.commandRail k uv).slots = s.slots ∧ (s.commandRail k uv).kv = s.kv ∧ (s.commandRail k uv).seqs = s.seqs ∧
      (s.commandRail k uv).teams = s.teams ∧ (s.commandRail k uv).tiles = s.tiles ∧
      (s.commandRail k uv).clocks = s.clocks ∧ (s.commandRail k uv).nv = s.nv := by
  simp [State.commandRail]

@[simp] theorem State.railsOffBut_units (s : State) (keep : List Nat) :
    (s.railsOffBut keep).slots = s.slots ∧ (s.railsOffBut keep).kv = s.kv ∧ (s.railsOffBut keep).seqs = s.seqs ∧
      (s.railsOffBut keep).teams = s.teams ∧ (s.railsOffBut keep).tiles = s.tiles ∧
      (s.railsOffBut keep).clocks = s.clocks ∧ (s.railsOffBut keep).nv = s.nv := by
  simp [State.railsOffBut]

@[simp] theorem State.railsOff_units (s : State) :
    (s.railsOff).slots = s.slots ∧ (s.railsOff).kv = s.kv ∧ (s.railsOff).seqs = s.seqs ∧
      (s.railsOff).teams = s.teams ∧ (s.railsOff).tiles = s.tiles ∧ (s.railsOff).clocks = s.clocks ∧
      (s.railsOff).nv = s.nv := by
  simp [State.railsOff]

@[simp] theorem State.quiesceAllForPaddock_units (s : State) :
    (s.quiesceAllForPaddock).slots = s.slots ∧ (s.quiesceAllForPaddock).kv = s.kv ∧
      (s.quiesceAllForPaddock).seqs = s.seqs ∧ (s.quiesceAllForPaddock).teams = s.teams ∧
      (s.quiesceAllForPaddock).tiles = s.tiles ∧ (s.quiesceAllForPaddock).clocks = s.clocks ∧
      (s.quiesceAllForPaddock).nv = s.nv := by
  simp [State.quiesceAllForPaddock]

@[simp] theorem State.keepPort_units (s : State) (stage : Nat) :
    (s.keepPort stage).slots = s.slots ∧ (s.keepPort stage).kv = s.kv ∧ (s.keepPort stage).seqs = s.seqs ∧
      (s.keepPort stage).teams = s.teams ∧ (s.keepPort stage).tiles = s.tiles ∧
      (s.keepPort stage).clocks = s.clocks ∧ (s.keepPort stage).nv = s.nv := by
  simp [State.keepPort]

@[simp] theorem State.factoryPins_units (s : State) :
    (s.factoryPins).slots = s.slots ∧ (s.factoryPins).kv = s.kv ∧ (s.factoryPins).seqs = s.seqs ∧
      (s.factoryPins).teams = s.teams ∧ (s.factoryPins).tiles = s.tiles ∧ (s.factoryPins).clocks = s.clocks ∧
      (s.factoryPins).nv = s.nv := by
  simp [State.factoryPins]

@[simp] theorem State.enterPaddock_units (s : State) (reason code : Nat) :
    (s.enterPaddock reason code).slots = s.slots ∧ (s.enterPaddock reason code).kv = s.kv ∧
      (s.enterPaddock reason code).seqs = s.seqs ∧ (s.enterPaddock reason code).teams = s.teams ∧
      (s.enterPaddock reason code).tiles = s.tiles ∧ (s.enterPaddock reason code).clocks = s.clocks := by
  simp [State.enterPaddock]

@[simp] theorem State.recordAs_units (s : State) (hubUe : Bool) (sev cls code source : Nat) (ctx : List Nat) :
    (s.recordAs hubUe sev cls code source ctx).slots = s.slots ∧
      (s.recordAs hubUe sev cls code source ctx).kv = s.kv ∧
      (s.recordAs hubUe sev cls code source ctx).seqs = s.seqs ∧
      (s.recordAs hubUe sev cls code source ctx).teams = s.teams ∧
      (s.recordAs hubUe sev cls code source ctx).tiles = s.tiles ∧
      (s.recordAs hubUe sev cls code source ctx).clocks = s.clocks := by
  simp [State.recordAs]

@[simp] theorem State.record_units (s : State) (sev cls code source : Nat) (ctx : List Nat) :
    (s.record sev cls code source ctx).slots = s.slots ∧ (s.record sev cls code source ctx).kv = s.kv ∧
      (s.record sev cls code source ctx).seqs = s.seqs ∧ (s.record sev cls code source ctx).teams = s.teams ∧
      (s.record sev cls code source ctx).tiles = s.tiles ∧ (s.record sev cls code source ctx).clocks = s.clocks := by
  simp [State.record]

@[simp] theorem State.aerReport_units (s : State) (fn sev : Nat) :
    (s.aerReport fn sev).slots = s.slots ∧ (s.aerReport fn sev).kv = s.kv ∧ (s.aerReport fn sev).seqs = s.seqs ∧
      (s.aerReport fn sev).teams = s.teams ∧ (s.aerReport fn sev).tiles = s.tiles ∧
      (s.aerReport fn sev).clocks = s.clocks ∧ (s.aerReport fn sev).nv = s.nv := by
  simp [State.aerReport]

@[simp] theorem State.pciRecord_units (s : State) (sev code fn part addr : Nat) :
    (s.pciRecord sev code fn part addr).slots = s.slots ∧ (s.pciRecord sev code fn part addr).kv = s.kv ∧
      (s.pciRecord sev code fn part addr).seqs = s.seqs ∧ (s.pciRecord sev code fn part addr).teams = s.teams ∧
      (s.pciRecord sev code fn part addr).tiles = s.tiles ∧ (s.pciRecord sev code fn part addr).clocks = s.clocks := by
  simp [State.pciRecord]

@[simp] theorem State.poisonedWrite_units (s : State) (fn off : Nat) :
    (s.poisonedWrite fn off).slots = s.slots ∧ (s.poisonedWrite fn off).kv = s.kv ∧
      (s.poisonedWrite fn off).seqs = s.seqs ∧ (s.poisonedWrite fn off).teams = s.teams ∧
      (s.poisonedWrite fn off).tiles = s.tiles ∧ (s.poisonedWrite fn off).clocks = s.clocks := by
  simp [State.poisonedWrite]

/-! ### Torus -/

@[simp] theorem State.showIncs_units (s : State) :
    (s.showIncs).slots = s.slots ∧ (s.showIncs).kv = s.kv ∧ (s.showIncs).seqs = s.seqs ∧
      (s.showIncs).teams = s.teams ∧ (s.showIncs).tiles = s.tiles ∧ (s.showIncs).clocks = s.clocks ∧
      (s.showIncs).nv = s.nv := by
  unfold State.showIncs
  refine State.each_units (fun _ _ => ?_) _ _
  exact ⟨rfl, rfl, rfl, rfl, rfl, rfl, rfl⟩

@[simp] theorem State.giveIdle_units (s : State) (p : Nat) :
    (s.giveIdle p).slots = s.slots ∧ (s.giveIdle p).kv = s.kv ∧ (s.giveIdle p).seqs = s.seqs ∧
      (s.giveIdle p).teams = s.teams ∧ (s.giveIdle p).tiles = s.tiles ∧ (s.giveIdle p).clocks = s.clocks ∧
      (s.giveIdle p).nv = s.nv := by
  simp [State.giveIdle]

@[simp] theorem State.showRev_units (s : State) :
    (s.showRev).slots = s.slots ∧ (s.showRev).kv = s.kv ∧ (s.showRev).seqs = s.seqs ∧ (s.showRev).teams = s.teams ∧
      (s.showRev).tiles = s.tiles ∧ (s.showRev).clocks = s.clocks ∧ (s.showRev).nv = s.nv := by
  unfold State.showRev
  split <;> simp

/-! ### Steps -/

@[simp] theorem State.showGroup_units (s : State) (t g : Nat) :
    (s.showGroup t g).slots = s.slots ∧ (s.showGroup t g).kv = s.kv ∧ (s.showGroup t g).seqs = s.seqs ∧
      (s.showGroup t g).teams = s.teams ∧ (s.showGroup t g).tiles = s.tiles ∧ (s.showGroup t g).clocks = s.clocks ∧
      (s.showGroup t g).nv = s.nv := by
  simp [State.showGroup]

@[simp] theorem State.showWait_units (s : State) (u reason detail on since : Nat) :
    (s.showWait u reason detail on since).slots = s.slots ∧ (s.showWait u reason detail on since).kv = s.kv ∧
      (s.showWait u reason detail on since).seqs = s.seqs ∧ (s.showWait u reason detail on since).teams = s.teams ∧
      (s.showWait u reason detail on since).tiles = s.tiles ∧
      (s.showWait u reason detail on since).clocks = s.clocks ∧ (s.showWait u reason detail on since).nv = s.nv := by
  simp [State.showWait]

/-! ### Flags -/

@[simp] theorem State.showTile_units (s : State) (t k : Nat) :
    (s.showTile t k).slots = s.slots ∧ (s.showTile t k).kv = s.kv ∧ (s.showTile t k).seqs = s.seqs ∧
      (s.showTile t k).teams = s.teams ∧ (s.showTile t k).tiles = s.tiles ∧ (s.showTile t k).clocks = s.clocks ∧
      (s.showTile t k).nv = s.nv := by
  simp [State.showTile]

@[simp] theorem State.showRoles_units (s : State) (t : Nat) :
    (s.showRoles t).slots = s.slots ∧ (s.showRoles t).kv = s.kv ∧ (s.showRoles t).seqs = s.seqs ∧
      (s.showRoles t).teams = s.teams ∧ (s.showRoles t).tiles = s.tiles ∧ (s.showRoles t).clocks = s.clocks ∧
      (s.showRoles t).nv = s.nv := by
  unfold State.showRoles
  refine State.each_units (fun _ _ => ?_) _ _
  exact ⟨rfl, rfl, rfl, rfl, rfl, rfl, rfl⟩

@[simp] theorem State.showFarrier_units (s : State) (t : Nat) :
    (s.showFarrier t).slots = s.slots ∧ (s.showFarrier t).kv = s.kv ∧ (s.showFarrier t).seqs = s.seqs ∧
      (s.showFarrier t).teams = s.teams ∧ (s.showFarrier t).tiles = s.tiles ∧ (s.showFarrier t).clocks = s.clocks ∧
      (s.showFarrier t).nv = s.nv := by
  simp [State.showFarrier]

@[simp] theorem State.showTracking_units (s : State) (t : Nat) :
    (s.showTracking t).slots = s.slots ∧ (s.showTracking t).kv = s.kv ∧ (s.showTracking t).seqs = s.seqs ∧
      (s.showTracking t).teams = s.teams ∧ (s.showTracking t).tiles = s.tiles ∧
      (s.showTracking t).clocks = s.clocks ∧ (s.showTracking t).nv = s.nv := by
  simp [State.showTracking]

@[simp] theorem State.showTeam_units (s : State) (t : Nat) :
    (s.showTeam t).slots = s.slots ∧ (s.showTeam t).kv = s.kv ∧ (s.showTeam t).seqs = s.seqs ∧
      (s.showTeam t).teams = s.teams ∧ (s.showTeam t).tiles = s.tiles ∧ (s.showTeam t).clocks = s.clocks ∧
      (s.showTeam t).nv = s.nv := by
  simp [State.showTeam]

/-! ### Groom -/

@[simp] theorem State.showLap_units (s : State) (t : Nat) :
    (s.showLap t).slots = s.slots ∧ (s.showLap t).kv = s.kv ∧ (s.showLap t).seqs = s.seqs ∧
      (s.showLap t).teams = s.teams ∧ (s.showLap t).tiles = s.tiles ∧ (s.showLap t).clocks = s.clocks ∧
      (s.showLap t).nv = s.nv := by
  simp [State.showLap]

/-! ### Takeover -/

@[simp] theorem State.showCalStatus_units (s : State) (t : Nat) :
    (s.showCalStatus t).slots = s.slots ∧ (s.showCalStatus t).kv = s.kv ∧ (s.showCalStatus t).seqs = s.seqs ∧
      (s.showCalStatus t).teams = s.teams ∧ (s.showCalStatus t).tiles = s.tiles ∧
      (s.showCalStatus t).clocks = s.clocks ∧ (s.showCalStatus t).nv = s.nv := by
  simp [State.showCalStatus]

/-! ### Farrier -/

@[simp] theorem State.showRepair_units (s : State) (t : Nat) :
    (s.showRepair t).slots = s.slots ∧ (s.showRepair t).kv = s.kv ∧ (s.showRepair t).seqs = s.seqs ∧
      (s.showRepair t).teams = s.teams ∧ (s.showRepair t).tiles = s.tiles ∧ (s.showRepair t).clocks = s.clocks ∧
      (s.showRepair t).nv = s.nv := by
  simp (disch := (intros; split <;> simp)) [State.showRepair]

@[simp] theorem State.farrRefused_units (s : State) (t : Nat) :
    (s.farrRefused t).slots = s.slots ∧ (s.farrRefused t).kv = s.kv ∧ (s.farrRefused t).seqs = s.seqs ∧
      (s.farrRefused t).teams = s.teams ∧ (s.farrRefused t).tiles = s.tiles ∧ (s.farrRefused t).clocks = s.clocks ∧
      (s.farrRefused t).nv = s.nv := by
  simp [State.farrRefused]

/-! ### Calibration -/

@[simp] theorem State.showCalSel_units (s : State) (t : Nat) :
    (s.showCalSel t).slots = s.slots ∧ (s.showCalSel t).kv = s.kv ∧ (s.showCalSel t).seqs = s.seqs ∧
      (s.showCalSel t).teams = s.teams ∧ (s.showCalSel t).tiles = s.tiles ∧ (s.showCalSel t).clocks = s.clocks ∧
      (s.showCalSel t).nv = s.nv := by
  simp [State.showCalSel]

@[simp] theorem State.showSlewing_units (s : State) (t : Nat) :
    (s.showSlewing t).slots = s.slots ∧ (s.showSlewing t).kv = s.kv ∧ (s.showSlewing t).seqs = s.seqs ∧
      (s.showSlewing t).teams = s.teams ∧ (s.showSlewing t).tiles = s.tiles ∧ (s.showSlewing t).clocks = s.clocks ∧
      (s.showSlewing t).nv = s.nv := by
  simp [State.showSlewing]

/-! ### Links -/

@[simp] theorem State.showLane_units (s : State) (p : Nat) :
    (s.showLane p).slots = s.slots ∧ (s.showLane p).kv = s.kv ∧ (s.showLane p).seqs = s.seqs ∧
      (s.showLane p).teams = s.teams ∧ (s.showLane p).tiles = s.tiles ∧ (s.showLane p).clocks = s.clocks ∧
      (s.showLane p).nv = s.nv := by
  simp [State.showLane]

/-! ### Thermal -/

@[simp] theorem State.showRein_units (s : State) (x : Nat) :
    (s.showRein x).slots = s.slots ∧ (s.showRein x).kv = s.kv ∧ (s.showRein x).seqs = s.seqs ∧
      (s.showRein x).teams = s.teams ∧ (s.showRein x).tiles = s.tiles ∧ (s.showRein x).clocks = s.clocks ∧
      (s.showRein x).nv = s.nv := by
  simp [State.showRein]

/-! ### Clocks -/

@[simp] theorem State.showRegion_units (s : State) (r : Nat) :
    (s.showRegion r).slots = s.slots ∧ (s.showRegion r).kv = s.kv ∧ (s.showRegion r).seqs = s.seqs ∧
      (s.showRegion r).teams = s.teams ∧ (s.showRegion r).tiles = s.tiles ∧ (s.showRegion r).clocks = s.clocks ∧
      (s.showRegion r).nv = s.nv := by
  simp [State.showRegion]

/-! ### Slots -/

@[simp] theorem State.unsupported_units (s : State) (fn : Nat) :
    (s.unsupported fn).slots = s.slots ∧ (s.unsupported fn).kv = s.kv ∧ (s.unsupported fn).seqs = s.seqs ∧
      (s.unsupported fn).teams = s.teams ∧ (s.unsupported fn).tiles = s.tiles ∧
      (s.unsupported fn).clocks = s.clocks ∧ (s.unsupported fn).nv = s.nv := by
  simp [State.unsupported]

/-! ### Sweeps -/

@[simp] theorem State.showRetired_units (s : State) :
    (s.showRetired).slots = s.slots ∧ (s.showRetired).kv = s.kv ∧ (s.showRetired).seqs = s.seqs ∧
      (s.showRetired).teams = s.teams ∧ (s.showRetired).tiles = s.tiles ∧ (s.showRetired).clocks = s.clocks ∧
      (s.showRetired).nv = s.nv := by
  simp [State.showRetired]

/-! ### Partition -/

@[simp] theorem State.showPart_units (s : State) (p : Nat) :
    (s.showPart p).slots = s.slots ∧ (s.showPart p).kv = s.kv ∧ (s.showPart p).seqs = s.seqs ∧
      (s.showPart p).teams = s.teams ∧ (s.showPart p).tiles = s.tiles ∧ (s.showPart p).clocks = s.clocks ∧
      (s.showPart p).nv = s.nv := by
  simp [State.showPart]

@[simp] theorem State.refusePart_units (s : State) (p : Nat) :
    (s.refusePart p).slots = s.slots ∧ (s.refusePart p).kv = s.kv ∧ (s.refusePart p).seqs = s.seqs ∧
      (s.refusePart p).teams = s.teams ∧ (s.refusePart p).tiles = s.tiles ∧ (s.refusePart p).clocks = s.clocks ∧
      (s.refusePart p).nv = s.nv := by
  simp [State.refusePart]

/-! ### Volz -/

@[simp] theorem State.showVolz_units (s : State) :
    (s.showVolz).slots = s.slots ∧ (s.showVolz).kv = s.kv ∧ (s.showVolz).seqs = s.seqs ∧
      (s.showVolz).teams = s.teams ∧ (s.showVolz).tiles = s.tiles ∧ (s.showVolz).clocks = s.clocks ∧
      (s.showVolz).nv = s.nv := by
  unfold State.showVolz
  dsimp only
  split <;> simp

@[simp] theorem State.showNv_units (s : State) :
    (s.showNv).slots = s.slots ∧ (s.showNv).kv = s.kv ∧ (s.showNv).seqs = s.seqs ∧ (s.showNv).teams = s.teams ∧
      (s.showNv).tiles = s.tiles ∧ (s.showNv).clocks = s.clocks ∧ (s.showNv).nv = s.nv := by
  simp [State.showNv]

/-! ### Boot -/

@[simp] theorem State.showStore_units (s : State) :
    (s.showStore).slots = s.slots ∧ (s.showStore).kv = s.kv ∧ (s.showStore).seqs = s.seqs ∧
      (s.showStore).teams = s.teams ∧ (s.showStore).tiles = s.tiles ∧ (s.showStore).clocks = s.clocks ∧
      (s.showStore).nv = s.nv := by
  simp [State.showStore]

@[simp] theorem State.nvOpenSlot_units (s : State) (cmd t : Nat) :
    (s.nvOpenSlot cmd t).slots = s.slots ∧ (s.nvOpenSlot cmd t).kv = s.kv ∧ (s.nvOpenSlot cmd t).seqs = s.seqs ∧
      (s.nvOpenSlot cmd t).teams = s.teams ∧ (s.nvOpenSlot cmd t).tiles = s.tiles ∧
      (s.nvOpenSlot cmd t).clocks = s.clocks := by
  simp [State.nvOpenSlot]

@[simp] theorem State.nvResult_units (s : State) (code : Nat) :
    (s.nvResult code).slots = s.slots ∧ (s.nvResult code).kv = s.kv ∧ (s.nvResult code).seqs = s.seqs ∧
      (s.nvResult code).teams = s.teams ∧ (s.nvResult code).tiles = s.tiles ∧ (s.nvResult code).clocks = s.clocks ∧
      (s.nvResult code).nv = s.nv := by
  simp [State.nvResult]

@[simp] theorem State.nvCommand_units (s : State) (cmd t : Nat) :
    (s.nvCommand cmd t).slots = s.slots ∧ (s.nvCommand cmd t).kv = s.kv ∧ (s.nvCommand cmd t).seqs = s.seqs ∧
      (s.nvCommand cmd t).teams = s.teams ∧ (s.nvCommand cmd t).tiles = s.tiles ∧
      (s.nvCommand cmd t).clocks = s.clocks := by
  simp [State.nvCommand]

@[simp] theorem State.secResult_units (s : State) (code : Nat) :
    (s.secResult code).slots = s.slots ∧ (s.secResult code).kv = s.kv ∧ (s.secResult code).seqs = s.seqs ∧
      (s.secResult code).teams = s.teams ∧ (s.secResult code).tiles = s.tiles ∧
      (s.secResult code).clocks = s.clocks ∧ (s.secResult code).nv = s.nv := by
  simp [State.secResult]

/-! ### Host -/

@[simp] theorem State.sampleGpio_units (s : State) :
    (s.sampleGpio).slots = s.slots ∧ (s.sampleGpio).kv = s.kv ∧ (s.sampleGpio).seqs = s.seqs ∧
      (s.sampleGpio).teams = s.teams ∧ (s.sampleGpio).tiles = s.tiles ∧ (s.sampleGpio).clocks = s.clocks ∧
      (s.sampleGpio).nv = s.nv := by
  simp [State.sampleGpio]

@[simp] theorem State.refreshTeam_units (s : State) (t : Nat) :
    (s.refreshTeam t).slots = s.slots ∧ (s.refreshTeam t).kv = s.kv ∧ (s.refreshTeam t).seqs = s.seqs ∧
      (s.refreshTeam t).teams = s.teams ∧ (s.refreshTeam t).tiles = s.tiles ∧ (s.refreshTeam t).clocks = s.clocks ∧
      (s.refreshTeam t).nv = s.nv := by
  simp [State.refreshTeam]

@[simp] theorem State.refreshTile_units (s : State) (t k : Nat) :
    (s.refreshTile t k).slots = s.slots ∧ (s.refreshTile t k).kv = s.kv ∧ (s.refreshTile t k).seqs = s.seqs ∧
      (s.refreshTile t k).teams = s.teams ∧ (s.refreshTile t k).tiles = s.tiles ∧
      (s.refreshTile t k).clocks = s.clocks ∧ (s.refreshTile t k).nv = s.nv := by
  simp [State.refreshTile]

@[simp] theorem State.refreshKv_units (s : State) (p : Nat) :
    (s.refreshKv p).slots = s.slots ∧ (s.refreshKv p).kv = s.kv ∧ (s.refreshKv p).seqs = s.seqs ∧
      (s.refreshKv p).teams = s.teams ∧ (s.refreshKv p).tiles = s.tiles ∧ (s.refreshKv p).clocks = s.clocks ∧
      (s.refreshKv p).nv = s.nv := by
  simp [State.refreshKv]

@[simp] theorem State.refreshGate_units (s : State) (p : Nat) :
    (s.refreshGate p).slots = s.slots ∧ (s.refreshGate p).kv = s.kv ∧ (s.refreshGate p).seqs = s.seqs ∧
      (s.refreshGate p).teams = s.teams ∧ (s.refreshGate p).tiles = s.tiles ∧ (s.refreshGate p).clocks = s.clocks ∧
      (s.refreshGate p).nv = s.nv := by
  simp [State.refreshGate]

@[simp] theorem State.refreshLink_units (s : State) (p : Nat) :
    (s.refreshLink p).slots = s.slots ∧ (s.refreshLink p).kv = s.kv ∧ (s.refreshLink p).seqs = s.seqs ∧
      (s.refreshLink p).teams = s.teams ∧ (s.refreshLink p).tiles = s.tiles ∧ (s.refreshLink p).clocks = s.clocks ∧
      (s.refreshLink p).nv = s.nv := by
  simp [State.refreshLink]

@[simp] theorem State.refreshSafe_units (s : State) :
    (s.refreshSafe).slots = s.slots ∧ (s.refreshSafe).kv = s.kv ∧ (s.refreshSafe).seqs = s.seqs ∧
      (s.refreshSafe).teams = s.teams ∧ (s.refreshSafe).tiles = s.tiles ∧ (s.refreshSafe).clocks = s.clocks ∧
      (s.refreshSafe).nv = s.nv := by
  simp [State.refreshSafe]

@[simp] theorem State.showWaitOf_units (s : State) (u : Nat) (w : Option (Nat × Nat × Nat × Nat)) :
    (s.showWaitOf u w).slots = s.slots ∧ (s.showWaitOf u w).kv = s.kv ∧ (s.showWaitOf u w).seqs = s.seqs ∧
      (s.showWaitOf u w).teams = s.teams ∧ (s.showWaitOf u w).tiles = s.tiles ∧
      (s.showWaitOf u w).clocks = s.clocks ∧ (s.showWaitOf u w).nv = s.nv := by
  unfold State.showWaitOf
  split <;> simp

@[simp] theorem State.refreshWaits_units (s : State) :
    (s.refreshWaits).slots = s.slots ∧ (s.refreshWaits).kv = s.kv ∧ (s.refreshWaits).seqs = s.seqs ∧
      (s.refreshWaits).teams = s.teams ∧ (s.refreshWaits).tiles = s.tiles ∧ (s.refreshWaits).clocks = s.clocks ∧
      (s.refreshWaits).nv = s.nv := by
  simp [State.refreshWaits]

@[simp] theorem State.refreshUnit_units (s : State) (u : Nat) :
    (s.refreshUnit u).slots = s.slots ∧ (s.refreshUnit u).kv = s.kv ∧ (s.refreshUnit u).seqs = s.seqs ∧
      (s.refreshUnit u).teams = s.teams ∧ (s.refreshUnit u).tiles = s.tiles ∧ (s.refreshUnit u).clocks = s.clocks ∧
      (s.refreshUnit u).nv = s.nv := by
  simp [State.refreshUnit]

@[simp] theorem State.showByteWord_units (s : State) (f : Fld) (b : List Nat) (i : Nat) :
    (s.showByteWord f b i).slots = s.slots ∧ (s.showByteWord f b i).kv = s.kv ∧
      (s.showByteWord f b i).seqs = s.seqs ∧ (s.showByteWord f b i).teams = s.teams ∧
      (s.showByteWord f b i).tiles = s.tiles ∧ (s.showByteWord f b i).clocks = s.clocks ∧
      (s.showByteWord f b i).nv = s.nv := by
  simp [State.showByteWord]

@[simp] theorem State.refresh_units (s : State) (w : RegWord) :
    (s.refresh w).slots = s.slots ∧ (s.refresh w).kv = s.kv ∧ (s.refresh w).seqs = s.seqs ∧
      (s.refresh w).teams = s.teams ∧ (s.refresh w).tiles = s.tiles ∧ (s.refresh w).clocks = s.clocks ∧
      (s.refresh w).nv = s.nv := by
  simp [State.refresh]

@[simp] theorem State.latchWord_units (s : State) (w : RegWord) :
    (s.latchWord w).slots = s.slots ∧ (s.latchWord w).kv = s.kv ∧ (s.latchWord w).seqs = s.seqs ∧
      (s.latchWord w).teams = s.teams ∧ (s.latchWord w).tiles = s.tiles ∧ (s.latchWord w).clocks = s.clocks ∧
      (s.latchWord w).nv = s.nv := by
  unfold State.latchWord
  split <;> simp

@[simp] theorem State.clearRead_units (s : State) (w : RegWord) :
    (s.clearRead w).slots = s.slots ∧ (s.clearRead w).kv = s.kv ∧ (s.clearRead w).seqs = s.seqs ∧
      (s.clearRead w).teams = s.teams ∧ (s.clearRead w).tiles = s.tiles ∧ (s.clearRead w).clocks = s.clocks ∧
      (s.clearRead w).nv = s.nv := by
  unfold State.clearRead
  exact State.each_units (fun s f => ⟨s.clear_slots f, s.clear_kv f, s.clear_seqs f, s.clear_teams f, s.clear_tiles f, s.clear_clocks f, s.clear_nv f⟩) _ _

@[simp] theorem State.readReg_units (s : State) (w : RegWord) :
    (s.readReg w).2.slots = s.slots ∧ (s.readReg w).2.kv = s.kv ∧ (s.readReg w).2.seqs = s.seqs ∧
      (s.readReg w).2.teams = s.teams ∧ (s.readReg w).2.tiles = s.tiles ∧ (s.readReg w).2.clocks = s.clocks ∧
      (s.readReg w).2.nv = s.nv := by
  simp [State.readReg]

@[simp] theorem State.storeField_units (s : State) (w : RegWord) (v : Nat) (f : Fld) :
    (s.storeField w v f).slots = s.slots ∧ (s.storeField w v f).kv = s.kv ∧ (s.storeField w v f).seqs = s.seqs ∧
      (s.storeField w v f).teams = s.teams ∧ (s.storeField w v f).tiles = s.tiles ∧
      (s.storeField w v f).clocks = s.clocks ∧ (s.storeField w v f).nv = s.nv := by
  unfold State.storeField
  split <;> simp

@[simp] theorem State.badStrobe_units (s : State) (w : RegWord) (v : Nat) :
    (s.badStrobe w v).slots = s.slots ∧ (s.badStrobe w v).kv = s.kv ∧ (s.badStrobe w v).seqs = s.seqs ∧
      (s.badStrobe w v).teams = s.teams ∧ (s.badStrobe w v).tiles = s.tiles ∧ (s.badStrobe w v).clocks = s.clocks := by
  simp [State.badStrobe]

@[simp] theorem State.writeReg_units (s : State) (w : RegWord) (v : Nat) :
    (s.writeReg w v).slots = s.slots ∧ (s.writeReg w v).kv = s.kv ∧ (s.writeReg w v).seqs = s.seqs ∧
      (s.writeReg w v).teams = s.teams ∧ (s.writeReg w v).tiles = s.tiles ∧ (s.writeReg w v).clocks = s.clocks := by
  simp [State.writeReg]

@[simp] theorem State.setTableWord_units (s : State) (fn i v : Nat) :
    (s.setTableWord fn i v).slots = s.slots ∧ (s.setTableWord fn i v).kv = s.kv ∧
      (s.setTableWord fn i v).seqs = s.seqs ∧ (s.setTableWord fn i v).teams = s.teams ∧
      (s.setTableWord fn i v).tiles = s.tiles ∧ (s.setTableWord fn i v).clocks = s.clocks ∧
      (s.setTableWord fn i v).nv = s.nv := by
  unfold State.setTableWord
  dsimp only
  split
  · exact ⟨s.vecSet_slots _ _ _, s.vecSet_kv _ _ _, s.vecSet_seqs _ _ _, s.vecSet_teams _ _ _, s.vecSet_tiles _ _ _, s.vecSet_clocks _ _ _, s.vecSet_nv _ _ _⟩
  · split
    · exact ⟨s.vecSet_slots _ _ _, s.vecSet_kv _ _ _, s.vecSet_seqs _ _ _, s.vecSet_teams _ _ _, s.vecSet_tiles _ _ _, s.vecSet_clocks _ _ _, s.vecSet_nv _ _ _⟩
    · split
      · exact ⟨s.vecSet_slots _ _ _, s.vecSet_kv _ _ _, s.vecSet_seqs _ _ _, s.vecSet_teams _ _ _, s.vecSet_tiles _ _ _, s.vecSet_clocks _ _ _, s.vecSet_nv _ _ _⟩
      · simp

@[simp] theorem State.write32_units (s : State) (fn bar off v : Nat) :
    (s.write32 fn bar off v).slots = s.slots ∧ (s.write32 fn bar off v).kv = s.kv ∧
      (s.write32 fn bar off v).seqs = s.seqs ∧ (s.write32 fn bar off v).teams = s.teams ∧
      (s.write32 fn bar off v).tiles = s.tiles ∧ (s.write32 fn bar off v).clocks = s.clocks := by
  unfold State.write32
  split <;> simp

end Sys2Proof.Machine
end

section
/-!
PROOFS. What every command keeps, and the statements that say so: O29, O30, O33.
-/
set_option Elab.async false
namespace Sys2Proof.Machine

/-! ### Where reads outside BAR2 land, and what they leave -/

theorem Landing.early_ne_desc (l : Landing) (paddock : Bool) (g o : Nat) : l.early paddock ≠ .desc g o := by
  cases l with
  | reg a sel => simp [Landing.early]
  | table i => cases paddock <;> simp [Landing.early]
  | pba i => cases paddock <;> simp [Landing.early]
  | desc g o => simp [Landing.early]
  | nothing => simp [Landing.early]

theorem State.landCore_ne_desc (s : State) (c off g o : Nat) : s.landCore c off ≠ .desc g o := by
  fun_cases State.landCore <;> simp

theorem State.land0_ne_desc (s : State) (off g o : Nat) : s.land0 off ≠ .desc g o := by
  fun_cases State.land0 <;> simp

theorem landVf_ne_desc (p off g o : Nat) : landVf p off ≠ .desc g o := by
  fun_cases landVf <;> simp

/-- BAR0 of a virtual function, before READY and after. -/
theorem landVf_ite_ne_desc (ready paddock : Bool) (p off g o : Nat) :
    (if ready then landVf p off else (landVf p off).early paddock) ≠ .desc g o := by
  cases ready
  · exact Landing.early_ne_desc _ _ g o
  · exact landVf_ne_desc p off g o

/-- Descriptors are in BAR2 alone. -/
theorem State.land_ne_desc (s : State) {fn bar : Nat} (off g o : Nat) (hbar : bar ≠ 2) :
    s.land fn bar off ≠ some (.desc g o) := by
  fun_cases State.land <;> simp_all [State.landCore_ne_desc, State.land0_ne_desc, landVf_ite_ne_desc]

/-- What a 32-bit read does to the state outside BAR2: nothing, unless it meets a register or is unsupported. -/
theorem State.read32_state (s : State) {fn bar : Nat} (off : Nat) (hbar : bar ≠ 2) :
    (s.read32 fn bar off).2 = s ∨ (s.read32 fn bar off).2 = s.unsupported fn ∨ ∃ w, (s.read32 fn bar off).2 = (s.readReg w).2 := by
  unfold State.read32
  split
  case h_1 => exact .inr (.inl rfl)
  case h_2 a sel _ => exact .inr (.inr ⟨_, rfl⟩)
  case h_5 g o h => exact absurd h (s.land_ne_desc off g o hbar)
  all_goals exact .inl rfl

/-- What an unsupported request and every register read keep, a run of word reads outside BAR2 keeps. -/
theorem State.readWords_keeps_of {α : Type} (P : State → α) {fn bar : Nat} (hbar : bar ≠ 2)
    (hu : ∀ s : State, P (s.unsupported fn) = P s) (hr : ∀ (s : State) (w : RegWord), P (s.readReg w).2 = P s)
    (off n : Nat) (s : State) : P (State.readWords fn bar off n s).2 = P s := by
  induction n generalizing s off with
  | zero => rfl
  | succ n ih =>
    have h1 : P (s.read32 fn bar off).2 = P s := by
      obtain h | h | ⟨w, h⟩ := s.read32_state off hbar <;> rw [h]
      · exact hu s
      · exact hr s w
    unfold State.readWords
    dsimp only
    split
    · exact h1
    · exact (ih _ _).trans h1

/-- What an unsupported request, every register read and what is sent keep, a host's read outside BAR2 keeps. -/
theorem State.hostRead_keeps_of {α : Type} (P : State → α) {fn bar : Nat} (hbar : bar ≠ 2)
    (hu : ∀ s : State, P (s.unsupported fn) = P s) (hr : ∀ (s : State) (w : RegWord), P (s.readReg w).2 = P s)
    (ho : ∀ (s : State) (o : Out), P (s.send o) = P s) (off size : Nat) (s : State) :
    P (s.hostRead fn bar off size) = P s := by
  unfold State.hostRead
  rw [if_neg (fun h => hbar h.1)]
  exact (ho _ _).trans (State.readWords_keeps_of P hbar hu hr _ _ _)

theorem State.hostRead_mem (s : State) {fn bar : Nat} (off size : Nat) (hbar : bar ≠ 2) :
    (s.hostRead fn bar off size).mem = s.mem :=
  State.hostRead_keeps_of State.mem hbar (fun s => by simp) (fun s w => by simp) (fun s o => by simp) off size s

/-! ### What every command keeps -/

/-- The command leaves the queue as it is, and every byte of memory where `b` says so. -/
def Leaves (b : Bool) (s t : State) : Prop := t.pending = s.pending ∧ (b = true → ∀ a : Nat, t.readByte a = s.readByte a)

theorem State.readByte_congr {s t : State} (h : t.mem = s.mem) (a : Nat) : t.readByte a = s.readByte a := by
  rw [State.readByte, State.readByte, h]

/-- A command that keeps the queue and memory. -/
theorem Completes.quiet {o : Host.Outcome State Fault Refusal} {s : State} {b : Bool}
    (h : Completes o (fun t => t.pending = s.pending ∧ t.mem = s.mem)) : Completes o (Leaves b s) :=
  h.mono fun _ ht => ⟨ht.1, fun _ => State.readByte_congr ht.2⟩

/-- A command that is defined to store keeps the queue. -/
theorem Completes.queueOnly {o : Host.Outcome State Fault Refusal} {s : State}
    (h : Completes o (fun t => t.pending = s.pending)) : Completes o (Leaves false s) :=
  h.mono fun _ ht => ⟨ht, nofun⟩

/-- A host's read keeps the queue, and memory outside BAR2. -/
theorem State.hostRead_leaves (fn bar off size : Nat) (s : State) :
    Leaves (bar != 2) s (s.hostRead fn bar off size) :=
  ⟨by simp, fun h => State.readByte_congr (s.hostRead_mem off size (by simpa using h))⟩

theorem execReadClearCounter_leaves (fn bar off size : Nat) (s : State) :
    Completes (execReadClearCounter fn bar off size s) (Leaves (bar != 2) s) :=
  ⟨_, rfl, s.hostRead_leaves fn bar off size⟩

theorem execLatchingLoRead_leaves (fn bar off size : Nat) (s : State) :
    Completes (execLatchingLoRead fn bar off size s) (Leaves (bar != 2) s) :=
  ⟨_, rfl, s.hostRead_leaves fn bar off size⟩

/-- Every command answers a next state, with the queue as it was, and with memory as it was where the command is defined to
store nothing. -/
theorem exec_leaves (c : Instr) (s : State) : Completes (exec c s) (Leaves (storesNothing c) s) := by
  cases c with
  | perstNAssert ns => exact (execPerstNAssert_keeps ns s).queueOnly
  | powerOnDetect => exact (execPowerOnDetect_keeps s).queueOnly
  | railPowerLoss k => exact (execRailPowerLoss_keeps k s).quiet
  | internalResetEnd => exact (execInternalResetEnd_keeps s).quiet
  | romStageEnd => exact (execRomStageEnd_keeps s).quiet
  | fwVerifyEnd => exact (execFwVerifyEnd_keeps s).quiet
  | nvLoadEnd => exact (execNvLoadEnd_keeps s).quiet
  | pinsSetEnd => exact (execPinsSetEnd_keeps s).quiet
  | railGood k => exact (execRailGood_keeps k s).quiet
  | railGoodTimeout k word => exact (execRailGoodTimeout_keeps k word s).quiet
  | railOnTempRecheck => exact (execRailOnTempRecheck_keeps s).quiet
  | dramUpEnd => exact (execDramUpEnd_keeps s).quiet
  | linksUpEnd => exact (execLinksUpEnd_keeps s).quiet
  | imageLoadSlot => exact (execImageLoadSlot_keeps s).queueOnly
  | imageLoadEnd => exact (execImageLoadEnd_keeps s).queueOnly
  | selfCalEnd fits => exact (execSelfCalEnd_keeps fits s).queueOnly
  | causewayOpenEnd => exact (execCausewayOpenEnd_keeps s).queueOnly
  | startDeadlineExpire => exact (execStartDeadlineExpire_keeps s).quiet
  | failCountNvRetry => exact (execFailCountNvRetry_keeps s).quiet
  | registerWrite fn bar off size value poison => exact (execRegisterWrite_keeps fn bar off size value poison s).quiet
  | readClearCounter fn bar off size => exact execReadClearCounter_leaves fn bar off size s
  | latchingLoRead fn bar off size => exact execLatchingLoRead_leaves fn bar off size s
  | configRequest r => exact (execConfigRequest_keeps r s).quiet
  | hostBar4Read fn off n => exact (execHostBar4Read_keeps fn off n s).queueOnly
  | hostBar4Write fn off bytes poison => exact (execHostBar4Write_keeps fn off bytes poison s).queueOnly
  | malformedTlp fn => exact (execMalformedTlp_keeps fn s).quiet
  | slotDescriptorWrite fn off bytes poison => exact (execSlotDescriptorWrite_keeps fn off bytes poison s).queueOnly
  | arm g => exact (execArm_keeps g s).queueOnly
  | continueSlot g => exact (execContinueSlot_keeps g s).queueOnly
  | pause g => exact (execPause_keeps g s).quiet
  | resume g => exact (execResume_keeps g s).quiet
  | cancel g => exact (execCancel_keeps g s).queueOnly
  | release g => exact (execRelease_keeps g s).quiet
  | resultPayloadRead fn k off n => exact (execResultPayloadRead_keeps fn k off n s).queueOnly
  | stepPlan p m a0 a1 a2 a2b attn => exact (execStepPlan_keeps p m a0 a1 a2 a2b attn s).queueOnly
  | pageWaitRetry g => exact (execPageWaitRetry_keeps g s).queueOnly
  | pageWaitExpire g => exact (execPageWaitExpire_keeps g s).quiet
  | pageMoveComplete p page err host => exact (execPageMoveComplete_keeps p page err host s).queueOnly
  | inputPullComplete g err host => exact (execInputPullComplete_keeps g err host s).queueOnly
  | ttlExpire g => exact (execTtlExpire_keeps g s).quiet
  | stepRecord id => exact (execStepRecord_keeps id s).quiet
  | nop x => exact (execNop_keeps x s).quiet
  | lda x a off => exact (execLda_keeps x a off s).queueOnly
  | adda x a imm => exact (execAdda_keeps x a imm s).quiet
  | loop x count len => exact (execLoop_keeps x count len s).quiet
  | gopen x team a => exact (execGopen_keeps x team a s).queueOnly
  | gclose x team group => exact (execGclose_keeps x team group s).quiet
  | gwait x team group => exact (execGwait_keeps x team group s).quiet
  | vec x layer group a vectors => exact (execVec_keeps x layer group a vectors s).queueOnly
  | gate x set topk inp disp vectors => exact (execGate_keeps x set topk inp disp vectors s).queueOnly
  | vuCopy x team half a d count => exact (execVuCopy_keeps x team half a d count s).queueOnly
  | vuAdd x team half a b d count => exact (execVuAdd_keeps x team half a b d count s).queueOnly
  | vuMul x team half a b d count => exact (execVuMul_keeps x team half a b d count s).queueOnly
  | vuFma x team half a b d count => exact (execVuFma_keeps x team half a b d count s).queueOnly
  | vuMax x team half a b d count => exact (execVuMax_keeps x team half a b d count s).queueOnly
  | vuSum x team half a d count => exact (execVuSum_keeps x team half a d count s).queueOnly
  | vuExp x team half a d count => exact (execVuExp_keeps x team half a d count s).queueOnly
  | vuRsqrt x team half a d count => exact (execVuRsqrt_keeps x team half a d count s).queueOnly
  | vuRecip x team half a d count => exact (execVuRecip_keeps x team half a d count s).queueOnly
  | vuSilu x team half a d count => exact (execVuSilu_keeps x team half a d count s).queueOnly
  | vuGelu x team half a d count => exact (execVuGelu_keeps x team half a d count s).queueOnly
  | vuRmsnorm x team half a b d count => exact (execVuRmsnorm_keeps x team half a b d count s).queueOnly
  | vuSoftmax x team half a d count => exact (execVuSoftmax_keeps x team half a d count s).queueOnly
  | vuRope x team half a b d count => exact (execVuRope_keeps x team half a b d count s).queueOnly
  | vuGather x team half a b d count => exact (execVuGather_keeps x team half a b d count s).queueOnly
  | vuScatter x team half a b d count => exact (execVuScatter_keeps x team half a b d count s).queueOnly
  | vuScore x team half a b d count => exact (execVuScore_keeps x team half a b d count s).queueOnly
  | vuValue x team half a b d count => exact (execVuValue_keeps x team half a b d count s).queueOnly
  | vuToMx x team half fmt a d count => exact (execVuToMx_keeps x team half fmt a d count s).queueOnly
  | vuFromMx x team half fmt a d count => exact (execVuFromMx_keeps x team half fmt a d count s).queueOnly
  | loadm x model => exact (execLoadm_keeps x model s).queueOnly
  | loadmComplete x model remote => exact (execLoadmComplete_keeps x model remote s).queueOnly
  | swapPlanes x model => exact (execSwapPlanes_keeps x model s).quiet
  | swapat x model a => exact (execSwapat_keeps x model a s).quiet
  | signal x str flag => exact (execSignal_keeps x str flag s).quiet
  | waitf x flag count => exact (execWaitf_keeps x flag count s).quiet
  | coll x a => exact (execColl_keeps x a s).queueOnly
  | milepost x tag => exact (execMilepost_keeps x tag s).queueOnly
  | seqEnd x => exact (execSeqEnd_keeps x s).quiet
  | badInstructionFetch x => exact (execBadInstructionFetch_keeps x s).queueOnly
  | expertCallTimeout id => exact (execExpertCallTimeout_keeps id s).queueOnly
  | edgeConvert t => exact (execEdgeConvert_keeps t s).queueOnly
  | splitStallEnd t => exact (execSplitStallEnd_keeps t s).quiet
  | beatBoundary wrong missing => exact (execBeatBoundary_keeps wrong missing s).queueOnly
  | tileRecordArrive t => exact (execTileRecordArrive_keeps t s).queueOnly
  | outriderDelivery t => exact (execOutriderDelivery_keeps t s).queueOnly
  | groupCloseComplete t g => exact (execGroupCloseComplete_keeps t g s).queueOnly
  | accAbandon t g => exact (execAccAbandon_keeps t g s).quiet
  | milepostReached id => exact (execMilepostReached_keeps id s).queueOnly
  | replayStart id => exact (execReplayStart_keeps id s).queueOnly
  | planeWrite t k plane off bytes => exact (execPlaneWrite_keeps t k plane off bytes s).quiet
  | drainEnd t k => exact (execDrainEnd_keeps t k s).quiet
  | teamSwapGo t plane => exact (execTeamSwapGo_keeps t plane s).quiet
  | teamStop t stop => exact (execTeamStop_keeps t stop s).quiet
  | teamCntFreeze t freeze => exact (execTeamCntFreeze_keeps t freeze s).quiet
  | sampleDue t r => exact (execSampleDue_keeps t r s).quiet
  | forcedCheck t r => exact (execForcedCheck_keeps t r s).quiet
  | checkLate t r => exact (execCheckLate_keeps t r s).quiet
  | sampleComplete t r lanes => exact (execSampleComplete_keeps t r lanes s).queueOnly
  | arbCodeCheckDone t => exact (execArbCodeCheckDone_keeps t s).queueOnly
  | arbReferenceDone t agrees => exact (execArbReferenceDone_keeps t agrees s).queueOnly
  | arbSpareLoadDone t => exact (execArbSpareLoadDone_keeps t s).quiet
  | arbSpareRunDone t wrong => exact (execArbSpareRunDone_keeps t wrong s).queueOnly
  | arbNoSpareTimeout t => exact (execArbNoSpareTimeout_keeps t s).quiet
  | outriderSelftestDone t pass => exact (execOutriderSelftestDone_keeps t pass s).queueOnly
  | outrSample t r => exact (execOutrSample_keeps t r s).quiet
  | outrSelftest t => exact (execOutrSelftest_keeps t s).quiet
  | outrRefGo t w => exact (execOutrRefGo_keeps t w s).quiet
  | referenceRunDone t => exact (execReferenceRunDone_keeps t s).queueOnly
  | calrefQualified => exact (execCalrefQualified_keeps s).quiet
  | calrefLost => exact (execCalrefLost_keeps s).queueOnly
  | rotationVisit t => exact (execRotationVisit_keeps t s).quiet
  | calLate t => exact (execCalLate_keeps t s).quiet
  | calRequest t k => exact (execCalRequest_keeps t k s).quiet
  | calAbandon t => exact (execCalAbandon_keeps t s).queueOnly
  | calHold t hold => exact (execCalHold_keeps t hold s).quiet
  | takeoverCopyDone t => exact (execTakeoverCopyDone_keeps t s).queueOnly
  | takeoverMove t => exact (execTakeoverMove_keeps t s).queueOnly
  | calGateDone t delay win => exact (execCalGateDone_keeps t delay win s).queueOnly
  | calFitDone t fits delay resid noisy stuck => exact (execCalFitDone_keeps t fits delay resid noisy stuck s).queueOnly
  | statsShadowEnd t => exact (execStatsShadowEnd_keeps t s).quiet
  | slewStep t k => exact (execSlewStep_keeps t k s).queueOnly
  | dailyTrimRecord t k => exact (execDailyTrimRecord_keeps t k s).queueOnly
  | pendingRetireComplete t => exact (execPendingRetireComplete_keeps t s).queueOnly
  | farrRemap t k col => exact (execFarrRemap_keeps t k col s).queueOnly
  | farrRetire t k => exact (execFarrRetire_keeps t k s).queueOnly
  | farrReadmit t k => exact (execFarrReadmit_keeps t k s).quiet
  | farrNvRetry t fail => exact (execFarrNvRetry_keeps t fail s).quiet
  | thermalSample n temp => exact (execThermalSample_keeps n temp s).queueOnly
  | tripRailsOff => exact (execTripRailsOff_keeps s).quiet
  | tripFinal => exact (execTripFinal_keeps s).quiet
  | bridleTick lanes sram dram => exact (execBridleTick_keeps lanes sram dram s).quiet
  | boostSwitch r => exact (execBoostSwitch_keeps r s).quiet
  | bridleMeasure => exact (execBridleMeasure_keeps s).quiet
  | brdlCapWrite cap => exact (execBrdlCapWrite_keeps cap s).quiet
  | pmbusAlert stops warns failed => exact (execPmbusAlert_keeps stops warns failed s).quiet
  | voltMonitorTrip k over_ mv => exact (execVoltMonitorTrip_keeps k over_ mv s).quiet
  | setpointStep failed => exact (execSetpointStep_keeps failed s).quiet
  | droopTrip r mv => exact (execDroopTrip_keeps r mv s).quiet
  | stretchEnd r => exact (execStretchEnd_keeps r s).quiet
  | clockMonitorFail pll => exact (execClockMonitorFail_keeps pll s).quiet
  | regionRestart r => exact (execRegionRestart_keeps r s).quiet
  | ageingMeasure counts => exact (execAgeingMeasure_keeps counts s).quiet
  | ageingReplan => exact (execAgeingReplan_keeps s).quiet
  | adcConversionDone c code urgent => exact (execAdcConversionDone_keeps c code urgent s).quiet
  | adcOpenTest c up down => exact (execAdcOpenTest_keeps c up down s).quiet
  | adcUrgentGo c => exact (execAdcUrgentGo_keeps c s).quiet
  | tollgateRefill asks => exact (execTollgateRefill_keeps asks s).quiet
  | msixIntervalEnd fn vec => exact (execMsixIntervalEnd_keeps fn vec s).quiet
  | vfFlr k => exact (execVfFlr_keeps k s).queueOnly
  | pfFlr => exact (execPfFlr_keeps s).queueOnly
  | hotReset => exact (execHotReset_keeps s).queueOnly
  | pcieLinkDown => exact (execPcieLinkDown_keeps s).quiet
  | vfEnableCleared n => exact (execVfEnableCleared_keeps n s).quiet
  | pciCompletionTimeout fn addr => exact (execPciCompletionTimeout_keeps fn addr s).queueOnly
  | atsInvalidation fn addr len => exact (execAtsInvalidation_keeps fn addr len s).quiet
  | partQuiesce => exact (execPartQuiesce_keeps s).queueOnly
  | partScrub => exact (execPartScrub_keeps s).quiet
  | partReturn => exact (execPartReturn_keeps s).queueOnly
  | quiesceComplete p moved bytes => exact (execQuiesceComplete_keeps p moved bytes s).queueOnly
  | scrubComplete => exact (execScrubComplete_keeps s).queueOnly
  | volzFull => exact (execVolzFull_keeps s).quiet
  | volzPartial part => exact (execVolzPartial_keeps part s).quiet
  | volzAbort => exact (execVolzAbort_keeps s).queueOnly
  | volzPullComplete err bytes => exact (execVolzPullComplete_keeps err bytes s).queueOnly
  | volzVerifyComplete => exact (execVolzVerifyComplete_keeps s).queueOnly
  | volzCommit => exact (execVolzCommit_keeps s).queueOnly
  | loadGo c irqVec => exact (execLoadGo_keeps c irqVec s).quiet
  | loadAbort c moved bytes => exact (execLoadAbort_keeps c moved bytes s).queueOnly
  | loadDescArrive c err bytes => exact (execLoadDescArrive_keeps c err bytes s).quiet
  | loadMoveComplete c err bytes => exact (execLoadMoveComplete_keeps c err bytes s).queueOnly
  | remoteTierWaitExpire x expert n => exact (execRemoteTierWaitExpire_keeps x expert n s).queueOnly
  | relayChunkReceive p src session off bytes late => exact (execRelayChunkReceive_keeps p src session off bytes late s).queueOnly
  | relayRxTimeout c origin session => exact (execRelayRxTimeout_keeps c origin session s).quiet
  | relayAckTimeout c => exact (execRelayAckTimeout_keeps c s).quiet
  | groomNearBound t k => exact (execGroomNearBound_keeps t k s).quiet
  | groomLapLate t => exact (execGroomLapLate_keeps t s).quiet
  | heldPlaneReloaded t k plane => exact (execHeldPlaneReloaded_keeps t k plane s).quiet
  | sweepGo c mode => exact (execSweepGo_keeps c mode s).queueOnly
  | sweepAbort c pages => exact (execSweepAbort_keeps c pages s).queueOnly
  | sweepComplete c => exact (execSweepComplete_keeps c s).queueOnly
  | dramRetire kind index => exact (execDramRetire_keeps kind index s).quiet
  | retireNvRetry => exact (execRetireNvRetry_keeps s).quiet
  | kvSel1Write index cache => exact (execKvSel1Write_keeps index cache s).quiet
  | kvHostAreaWrite p which value => exact (execKvHostAreaWrite_keeps p which value s).quiet
  | flitReceive p bytes corr uncorr => exact (execFlitReceive_keeps p bytes corr uncorr s).quiet
  | nakReceived p last => exact (execNakReceived_keeps p last s).quiet
  | laneFail p lane => exact (execLaneFail_keeps p lane s).quiet
  | laserLow p => exact (execLaserLow_keeps p s).queueOnly
  | trainingAttemptEnd p good lock hello => exact (execTrainingAttemptEnd_keeps p good lock hello s).queueOnly
  | downLightCheck p light => exact (execDownLightCheck_keeps p light s).quiet
  | discoveryDeadline lit => exact (execDiscoveryDeadline_keeps lit s).queueOnly
  | portAutoReadmit p => exact (execPortAutoReadmit_keeps p s).quiet
  | linkRetrain p => exact (execLinkRetrain_keeps p s).quiet
  | linkDark p dark => exact (execLinkDark_keeps p dark s).quiet
  | cwayOpen a => exact (execCwayOpen_keeps a s).quiet
  | cwayClose a => exact (execCwayClose_keeps a s).quiet
  | cwayConfirm a => exact (execCwayConfirm_keeps a s).quiet
  | cwayConfirmTimeout a => exact (execCwayConfirmTimeout_keeps a s).quiet
  | helloSend p => exact (execHelloSend_keeps p s).quiet
  | hello p ok h body => exact (execHello_keeps p ok h body s).quiet
  | ack p ok h acked => exact (execAck_keeps p ok h acked s).quiet
  | revoke p ok h pos unit inc => exact (execRevoke_keeps p ok h pos unit inc s).queueOnly
  | revoked p ok h pos unit inc => exact (execRevoked_keeps p ok h pos unit inc s).queueOnly
  | readmit p ok h pos unit inc new => exact (execReadmit_keeps p ok h pos unit inc new s).queueOnly
  | linkState p ok h pos port state inc => exact (execLinkState_keeps p ok h pos port state inc s).quiet
  | waySync p ok h t1 f1 frac => exact (execWaySync_keeps p ok h t1 f1 frac s).quiet
  | wayReply p ok h t1 t2 t3 f1 f2 f3 state frac => exact (execWayReply_keeps p ok h t1 t2 t3 f1 f2 f3 state frac s).quiet
  | waySyncSend p frac => exact (execWaySyncSend_keeps p frac s).quiet
  | collStep p ok h id step dir session bytes check => exact (execCollStep_keeps p ok h id step dir session bytes check s).queueOnly
  | collAck p ok h id step dir => exact (execCollAck_keeps p ok h id step dir s).queueOnly
  | collAbort p ok h id code port pos => exact (execCollAbort_keeps p ok h id code port pos s).queueOnly
  | collStepResend part id dir => exact (execCollStepResend_keeps part id dir s).quiet
  | collTimeout part id => exact (execCollTimeout_keeps part id s).queueOnly
  | relayStart p ok h seq hopsLeft session kind len dst => exact (execRelayStart_keeps p ok h seq hopsLeft session kind len dst s).quiet
  | relayEnd p ok h seq chunks => exact (execRelayEnd_keeps p ok h seq chunks s).quiet
  | relayAck p ok h seq chunks => exact (execRelayAck_keeps p ok h seq chunks s).quiet
  | expertCall p ok h id set position vectors sessionIn inBytes outBytes => exact (execExpertCall_keeps p ok h id set position vectors sessionIn inBytes outBytes s).quiet
  | expertDone p ok h id code session => exact (execExpertDone_keeps p ok h id code session s).queueOnly
  | dataPacketReceive p dst src cls vc session off bytes => exact (execDataPacketReceive_keeps p dst src cls vc session off bytes s).queueOnly
  | ctrlRetransmit unit seq => exact (execCtrlRetransmit_keeps unit seq s).queueOnly
  | routeReplan => exact (execRouteReplan_keeps s).quiet
  | torRevoke pos => exact (execTorRevoke_keeps pos s).queueOnly
  | torReadmit entry => exact (execTorReadmit_keeps entry s).queueOnly
  | waySet => exact (execWaySet_keeps s).quiet
  | ppsEdge falling => exact (execPpsEdge_keeps falling s).quiet
  | ptpSync domain m frac out => exact (execPtpSync_keeps domain m frac out s).quiet
  | timeSourceInvalid src => exact (execTimeSourceInvalid_keeps src s).quiet
  | rstRetry => exact (execRstRetry_keeps s).quiet
  | nvWrite target => exact (execNvWrite_keeps target s).quiet
  | nvErase target => exact (execNvErase_keeps target s).quiet
  | nvSetTrial target => exact (execNvSetTrial_keeps target s).quiet
  | nvClearTrial target => exact (execNvClearTrial_keeps target s).quiet
  | nvCommandComplete err bytes => exact (execNvCommandComplete_keeps err bytes s).quiet
  | secAttest => exact (execSecAttest_keeps s).quiet
  | secEnrol => exact (execSecEnrol_keeps s).quiet
  | secTransfer => exact (execSecTransfer_keeps s).quiet
  | secCommandComplete err bytes => exact (execSecCommandComplete_keeps err bytes s).quiet
  | lockstepMismatch pair => exact (execLockstepMismatch_keeps pair s).quiet
  | cc6WatchdogExpire => exact (execCc6WatchdogExpire_keeps s).quiet
  | safeAck => exact (execSafeAck_keeps s).quiet
  | safeDigestNow => exact (execSafeDigestNow_keeps s).quiet
  | safeLogSelWrite n => exact (execSafeLogSelWrite_keeps n s).quiet
  | tileIftDue t k => exact (execTileIftDue_keeps t k s).queueOnly
  | iftDeferExpire t tile => exact (execIftDeferExpire_keeps t tile s).queueOnly
  | tileIftComplete t k fail => exact (execTileIftComplete_keeps t k fail s).queueOnly
  | teamTestDue t => exact (execTeamTestDue_keeps t s).queueOnly
  | teamTestComplete t fail => exact (execTeamTestComplete_keeps t fail s).queueOnly
  | digestDue p m => exact (execDigestDue_keeps p m s).quiet
  | digestComplete p m => exact (execDigestComplete_keeps p m s).queueOnly
  | heartbeatSend => exact (execHeartbeatSend_keeps s).quiet
  | errorReportResend id => exact (execErrorReportResend_keeps id s).quiet
  | errorAck h id => exact (execErrorAck_keeps h id s).quiet
  | getAttest h nonce => exact (execGetAttest_keeps h nonce s).quiet
  | getLog h first count => exact (execGetLog_keeps h first count s).quiet
  | nvBegin h cmd target len => exact (execNvBegin_keeps h cmd target len s).quiet
  | nvChunk h off bytes => exact (execNvChunk_keeps h off bytes s).quiet
  | nvChunkGapTimeout => exact (execNvChunkGapTimeout_keeps s).quiet
  | mgmtRetry h => exact (execMgmtRetry_keeps h s).quiet
  | mgmtRevoke h pos inc => exact (execMgmtRevoke_keeps h pos inc s).queueOnly
  | tapReset => exact (execTapReset_keeps s).quiet
  | extest n cells => exact (execExtest_keeps n cells s).quiet
  | idcode => exact (execIdcode_keeps s).quiet
  | samplePreload n cells => exact (execSamplePreload_keeps n cells s).quiet
  | clamp => exact (execClamp_keeps s).quiet
  | tapChallenge => exact (execTapChallenge_keeps s).quiet
  | tapUnlock bytes => exact (execTapUnlock_keeps bytes s).quiet
  | tapAccess op space data addr => exact (execTapAccess_keeps op space data addr s).queueOnly
  | bypass => exact (execBypass_keeps s).quiet
  | dbgUnlock err bytes => exact (execDbgUnlock_keeps err bytes s).quiet
  | dbgLock => exact (execDbgLock_keeps s).queueOnly
  | unlockDurationExpire => exact (execUnlockDurationExpire_keeps s).queueOnly
  | dbgClockStop r => exact (execDbgClockStop_keeps r s).quiet
  | dbgClockRun r => exact (execDbgClockRun_keeps r s).quiet
  | dbgWfg => exact (execDbgWfg_keeps s).quiet
  | hangTimeout id => exact (execHangTimeout_keeps id s).quiet
  | wfgSecondSnapshot => exact (execWfgSecondSnapshot_keeps s).queueOnly
  | runctlHalt u => exact (execRunctlHalt_keeps u s).quiet
  | runctlResume u => exact (execRunctlResume_keeps u s).queueOnly
  | runctlStep u => exact (execRunctlStep_keeps u s).quiet
  | trcArm => exact (execTrcArm_keeps s).quiet
  | trcStop => exact (execTrcStop_keeps s).quiet
  | trcTrigger => exact (execTrcTrigger_keeps s).quiet
  | trcCopy => exact (execTrcCopy_keeps s).quiet
  | traceCopyComplete => exact (execTraceCopyComplete_keeps s).queueOnly
  | traceEntryWrite source => exact (execTraceEntryWrite_keeps source s).quiet
  | traceTrigInEdge pin => exact (execTraceTrigInEdge_keeps pin s).quiet
  | dumpArm slot => exact (execDumpArm_keeps slot s).queueOnly
  | dumpDisarm slot => exact (execDumpDisarm_keeps slot s).quiet
  | cntSnap => exact (execCntSnap_keeps s).quiet
  | cntClear => exact (execCntClear_keeps s).quiet
  | counterSnapshotLatch => exact (execCounterSnapshotLatch_keeps s).quiet
  | trainingTimeLimit p => exact (execTrainingTimeLimit_keeps p s).queueOnly
  | timeRootDisciplineUpdate => exact (execTimeRootDisciplineUpdate_keeps s).quiet
  | pcieLinkUp rate width flit => exact (execPcieLinkUp_keeps rate width flit s).quiet
  | managementPortDown => exact (execManagementPortDown_keeps s).quiet
  | managementPortUp => exact (execManagementPortUp_keeps s).quiet

/-- Settles O29: every command answers a next state, as the rule of each command says. -/
theorem everyCommandAnswersNext : Obligations.EveryCommandAnswersNext := by
  unfold Obligations.EveryCommandAnswersNext
  intro c s
  obtain ⟨t, ht, -⟩ := exec_leaves c s
  exact ⟨t, ht⟩

/-- What `exec` answers is the state of which its rule speaks. -/
theorem exec_next_leaves {c : Instr} {s t : State} (h : exec c s = .next t) : Leaves (storesNothing c) s t := by
  obtain ⟨u, hu, hl⟩ := exec_leaves c s
  obtain rfl : t = u := by rw [h] at hu; injection hu
  exact hl

/-- Settles O30: the rule of each command says that it keeps the queue. -/
theorem commandsLeaveTheQueue : Obligations.CommandsLeaveTheQueue := by
  unfold Obligations.CommandsLeaveTheQueue
  intro c s t h
  exact (exec_next_leaves h).1

/-- Settles O33: the rule of each command of the list says that it keeps memory, a register read's that it does outside
BAR2. -/
theorem commandsThatStoreNothing : Obligations.CommandsThatStoreNothing := by
  unfold Obligations.CommandsThatStoreNothing
  intro c s t hc h
  exact (exec_next_leaves h).2 hc

end Sys2Proof.Machine
end

section
/-!
PROOFS. The statements about host accesses, the queue and reset: O59, O45, O27, O32, O44.
-/
set_option Elab.async false
namespace Sys2Proof.Machine

/-! ### What a host's register accesses keep -/

/-- Every byte of memory, and all slots, caches, strings, teams, tiles and clock regions are as they were. -/
def SameUnits (s t : State) : Prop :=
  (∀ a : Nat, t.readByte a = s.readByte a) ∧ t.slots = s.slots ∧ t.kv = s.kv ∧ t.seqs = s.seqs ∧ t.teams = s.teams ∧
    t.tiles = s.tiles ∧ t.clocks = s.clocks

theorem State.write32_sameUnits (s : State) (fn bar off v : Nat) : SameUnits s (s.write32 fn bar off v) :=
  ⟨State.readByte_congr (s.write32_keeps fn bar off v).2, s.write32_units fn bar off v⟩

theorem SameUnits.refl (s : State) : SameUnits s s := ⟨fun _ => rfl, rfl, rfl, rfl, rfl, rfl, rfl⟩

theorem SameUnits.trans {s t u : State} (h : SameUnits s t) (k : SameUnits t u) : SameUnits s u := by
  obtain ⟨hm, hs, hk, hq, ht, hl, hc⟩ := h
  obtain ⟨km, ks, kk, kq, kt, kl, kc⟩ := k
  exact ⟨fun a => (km a).trans (hm a), ks.trans hs, kk.trans hk, kq.trans hq, kt.trans ht, kl.trans hl, kc.trans hc⟩

theorem execRegisterWrite_sameUnits (fn bar off size value : Nat) (poison : Bool) (s : State) :
    Completes (execRegisterWrite fn bar off size value poison s) (SameUnits s) := by
  unfold execRegisterWrite
  split
  · exact ⟨_, rfl, State.readByte_congr (s.poisonedWrite_keeps fn off).2, s.poisonedWrite_units fn off⟩
  · split
    · exact ⟨_, rfl, .refl s⟩
    · dsimp only
      split
      · exact ⟨_, rfl, (s.write32_sameUnits ..).trans (State.write32_sameUnits _ ..)⟩
      · exact ⟨_, rfl, s.write32_sameUnits ..⟩

/-- A host's read outside BAR2 keeps the units, and the non-volatile store as well. -/
theorem State.hostRead_sameUnits (s : State) {fn bar : Nat} (off size : Nat) (hbar : bar ≠ 2) :
    SameUnits s (s.hostRead fn bar off size) ∧ (s.hostRead fn bar off size).nv = s.nv := by
  have keeps {α : Type} (P : State → α) (hu : ∀ s : State, P (s.unsupported fn) = P s)
      (hr : ∀ (s : State) (w : RegWord), P (s.readReg w).2 = P s) (ho : ∀ (s : State) (o : Out), P (s.send o) = P s) :=
    State.hostRead_keeps_of P hbar hu hr ho off size s
  exact ⟨⟨State.readByte_congr (s.hostRead_mem off size hbar),
    keeps State.slots (fun s => by simp) (fun s w => by simp) (fun s o => by simp),
    keeps State.kv (fun s => by simp) (fun s w => by simp) (fun s o => by simp),
    keeps State.seqs (fun s => by simp) (fun s w => by simp) (fun s o => by simp),
    keeps State.teams (fun s => by simp) (fun s w => by simp) (fun s o => by simp),
    keeps State.tiles (fun s => by simp) (fun s w => by simp) (fun s o => by simp),
    keeps State.clocks (fun s => by simp) (fun s w => by simp) (fun s o => by simp)⟩,
    keeps State.nv (fun s => by simp) (fun s w => by simp) (fun s o => by simp)⟩

/-- Settles O59: a write by what the two words it writes keep, a read by what each register read outside BAR2 keeps. -/
theorem frameOfRegisterAccesses : Obligations.FrameOfRegisterAccesses := by
  unfold Obligations.FrameOfRegisterAccesses
  intro fn bar off n value p s t c hc hmem h
  have read (hbar : bar ≠ 2) (ht : t = s.hostRead fn bar off n) : SameUnits s t ∧ t.nv = s.nv :=
    ht ▸ s.hostRead_sameUnits off n hbar
  have both : SameUnits s t ∧ (c ≠ .registerWrite fn bar off n value p → t.nv = s.nv) := by
    simp only [List.mem_cons, List.not_mem_nil, or_false] at hmem
    obtain rfl | rfl | rfl := hmem
    · obtain ⟨u, hu, hk⟩ := execRegisterWrite_sameUnits fn bar off n value p s
      obtain rfl : u = t := by injection hu.symm.trans h
      exact ⟨hk, fun hne => absurd rfl hne⟩
    · obtain ⟨hk, hnv⟩ := read (hc.resolve_left nofun) (by injection h.symm)
      exact ⟨hk, fun _ => hnv⟩
    · obtain ⟨hk, hnv⟩ := read (hc.resolve_left nofun) (by injection h.symm)
      exact ⟨hk, fun _ => hnv⟩
  obtain ⟨⟨hm, hs, hk, hq, ht, hl, hcl⟩, hnv⟩ := both
  exact ⟨hm, hs, hk, hq, ht, hl, hcl, hnv⟩

/-! ### A field of each access type -/

/-- A value less the bits that it has in common with another keeps its other bits. -/
theorem testBit_sub_and (x y b : Nat) : (x - (x &&& y)).testBit b = (x.testBit b && !y.testBit b) := by
  induction b generalizing x y with
  | zero =>
    have hle : x &&& y ≤ x := Nat.and_le_left
    have hand : (x &&& y) % 2 = 1 ↔ x % 2 = 1 ∧ y % 2 = 1 := by simp [Nat.and_mod_two_eq_one]
    rw [Bool.eq_iff_iff]
    simp only [Nat.testBit_zero, Bool.and_eq_true, Bool.not_eq_true', decide_eq_true_eq, decide_eq_false_iff_not]
    omega
  | succ b ih =>
    have hle : x &&& y ≤ x := Nat.and_le_left
    have hdiv : (x &&& y) / 2 = x / 2 &&& y / 2 := Nat.and_div_two
    have hand : (x &&& y) % 2 = 1 ↔ x % 2 = 1 ∧ y % 2 = 1 := by simp [Nat.and_mod_two_eq_one]
    have hhalf : (x - (x &&& y)) / 2 = x / 2 - (x / 2 &&& y / 2) := by omega
    rw [Nat.testBit_succ, Nat.testBit_succ, Nat.testBit_succ, hhalf, ih]

/-- A write of a field changes no other one. -/
theorem State.storeField_fget_ne (s : State) (w : RegWord) (v : Nat) {f g : Fld} (h : g.key ≠ f.key) :
    (s.storeField w v f).fget g = s.fget g := by
  have hset (x : Nat) : (s.fset f x).fget g = s.fget g := s.fget_fset_ne x h.symm
  fun_cases State.storeField <;> simp_all

/-- Settles O45, by the branch of the field's access type. -/
theorem storedFieldsFollowTheirAccess : Obligations.StoredFieldsFollowTheirAccess := by
  unfold Obligations.StoredFieldsFollowTheirAccess
  intro s w v f g hlt
  have hx : v / 2 ^ f.lsb % f.card < f.card := Nat.mod_lt _ (Nat.two_pow_pos _)
  refine ⟨fun ha => ?ro, fun ha b => ?w1c, fun ha b => ?w1s, fun ha hl => ?rwl, fun ha hv => ?rw, s.storeField_fget_ne w v⟩
  case ro => simp [State.storeField, ha]
  case w1c =>
    have hsub : s.fget f - (s.fget f &&& v / 2 ^ f.lsb % f.card) < f.card := lt_of_le_of_lt (Nat.sub_le _ _) hlt
    simp [State.storeField, ha, Nat.mod_eq_of_lt hsub, testBit_sub_and]
  case w1s =>
    have hor : s.fget f ||| v / 2 ^ f.lsb % f.card < f.card := Nat.or_lt_two_pow hlt hx
    simp only [State.storeField, ha, State.fget_fset_same, Nat.mod_eq_of_lt hor, Nat.testBit_or]
  case rwl => simp [State.storeField, ha, State.flag, hl]
  case rw => simp only [State.storeField, ha, State.fget_fset_same, hv, Nat.mod_eq_of_lt hx]

/-! ### The queue, and the state after reset -/

/-- Settles O27: it is what a step does with a command waiting. -/
theorem stepTakesFrontCommand : Obligations.StepTakesFrontCommand := by
  unfold Obligations.StepTakesFrontCommand
  intro c rest s
  rfl

/-- Settles O32, by evaluating the state after reset. -/
theorem resetStateIsCanonical : Obligations.ResetStateIsCanonical := by
  unfold Obligations.ResetStateIsCanonical
  exact ⟨rfl, State.memoryOk_reset, rfl, rfl, rfl, rfl, rfl, rfl, rfl⟩

/-! ### Reads and writes of one word -/

/-- An access that lands on a register is not one of the result pages of BAR2. -/
theorem State.land_reg_off (s : State) {fn bar off a : Nat} {sel : Option Nat} (h : s.land fn bar off = some (.reg a sel)) :
    ¬ (bar = 2 ∧ 0x4000000 ≤ off) := by
  rintro ⟨rfl, hoff⟩
  revert h
  fun_cases State.land <;> simp_all [State.landCore, State.land2, show ¬ off < 0x400000 by omega, show ¬ off < 0x420000 by omega, show ¬ off < 0x401000 by omega]

theorem State.read32_reg (s : State) {fn bar off a : Nat} {sel : Option Nat} (h : s.land fn bar off = some (.reg a sel)) :
    s.read32 fn bar off = (some ((s.readReg (s.landedWord a sel)).1, false), (s.readReg (s.landedWord a sel)).2) := by
  unfold State.read32
  rw [h]

/-- The read of a part of one register word answers that part of the word. -/
theorem State.hostRead_reg (s : State) {fn bar off n a : Nat} {sel : Option Nat} (hn : off % 4 + n ≤ 4)
    (h : s.land fn bar (off / 4 * 4) = some (.reg a sel)) :
    s.hostRead fn bar off n = (s.readReg (s.landedWord a sel)).2.send
      (.completion 0 (slice (leBytes 4 (s.readReg (s.landedWord a sel)).1) (off % 4) n)) := by
  have hoff : ¬ (bar = 2 ∧ 0x4000000 ≤ off) := fun hb => s.land_reg_off h ⟨hb.1, by omega⟩
  have hwords : max 1 (ceilDiv (off % 4 + n) 4) = 0 + 1 := by unfold ceilDiv; omega
  unfold State.hostRead
  rw [if_neg hoff, hwords]
  simp [State.readWords, s.read32_reg h]

/-- Settles O44: the guard of a register write, and the one word that the read touches. -/
theorem narrowWritesAreDiscarded : Obligations.NarrowWritesAreDiscarded := by
  unfold Obligations.NarrowWritesAreDiscarded
  intro fn bar off n value a sel s
  refine ⟨fun hn => ?_, fun hn _ hland => ?_⟩
  · show execRegisterWrite fn bar off n value false s = _
    rw [execRegisterWrite, if_neg Bool.false_ne_true, if_pos hn]
  · show execReadClearCounter fn bar off n s = _
    rw [execReadClearCounter, s.hostRead_reg hn hland]

end Sys2Proof.Machine
end

section
/-!
PROOFS. Host accesses complete: O2.
-/
set_option Elab.async false
namespace Sys2Proof.Machine

/-! ### Fields that a record leaves alone -/

/-- The fields that a record of the log, its trace and the health that it brings may write. -/
def recordFields : List Fld :=
  [Reg.safeLogHead, Reg.safeHealthWhyDegraded, Reg.safeHealthWhyReplace, Reg.safeStatusHealth, Reg.trcDropped, Reg.trcLost,
   Reg.trcWritten, Reg.trcStatusHead, Reg.trcStatusState, Reg.trcTrigWayLo, Reg.trcTrigWayHi, Reg.trcLateTrigs]

/-- The field is none that a record may write. -/
def Fld.apart (f : Fld) : Prop := ∀ g ∈ recordFields, g.key ≠ f.key

@[simp] theorem State.fget_ite (c : Prop) [Decidable c] (s t : State) (f : Fld) :
    (if c then s else t).fget f = if c then s.fget f else t.fget f := apply_ite (fun u => State.fget u f) c s t

section
variable {f : Fld} (hf : Fld.apart f)
include hf

/-- A write of a field that a record may write. -/
theorem State.fget_fset_apart (s : State) (g : Fld) (v : Nat) (hg : g ∈ recordFields) : (s.fset g v).fget f = s.fget f :=
  s.fget_fset_ne v (hf g hg)

theorem State.enqueueTrace_fget (s : State) (e : TraceEntry) : (s.enqueueTrace e).fget f = s.fget f := by
  have hdropped := hf Reg.trcDropped (by simp [recordFields])
  unfold State.enqueueTrace
  dsimp only
  split
  · rfl
  · split
    · exact State.fget_bump_ne _ hdropped
    · rw [State.fget_ite, State.fget_bump_ne _ hdropped]
      exact ite_self (s.fget f)

theorem State.traceEvent_fget (s : State) (bit source kind : Nat) (data : List Nat) :
    (s.traceEvent bit source kind data).fget f = s.fget f := by
  unfold State.traceEvent
  split
  · exact State.enqueueTrace_fget hf s _
  · rfl

theorem State.writeTrace_fget (s : State) (e : TraceEntry) : (s.writeTrace e).fget f = s.fget f := by
  have hlost := hf Reg.trcLost (by simp [recordFields])
  have hwritten := hf Reg.trcWritten (by simp [recordFields])
  have hhead := hf Reg.trcStatusHead (by simp [recordFields])
  have hstate := hf Reg.trcStatusState (by simp [recordFields])
  unfold State.writeTrace
  dsimp only
  split
  · exact s.fget_bump_ne hlost
  · split
    · rfl
    · split
      · split
        · exact (State.fget_fset_ne _ _ hstate).trans ((State.fget_fset_ne _ _ hhead).trans (State.fget_bump_ne _ hwritten))
        · exact (State.fget_fset_ne _ _ hhead).trans (State.fget_bump_ne _ hwritten)
      · exact (State.fget_fset_ne _ _ hhead).trans (State.fget_bump_ne _ hwritten)

theorem State.traceTrigger_fget (s : State) (cond : Nat) : (s.traceTrigger cond).fget f = s.fget f := by
  unfold State.traceTrigger
  dsimp only
  split
  · rfl
  · split
    · rw [State.writeTrace_fget hf, State.fget_fset_apart hf _ Reg.trcStatusState _ (by simp [recordFields])]
      exact s.fget_fset64_ne _ (hf Reg.trcTrigWayLo (by simp [recordFields])) (hf Reg.trcTrigWayHi (by simp [recordFields]))
    · split
      · exact State.writeTrace_fget hf s _
      · split
        · exact s.fget_bump_ne (hf Reg.trcLateTrigs (by simp [recordFields]))
        · rfl

theorem State.append_fget (s : State) (r : LogRec) : (s.append r).fget f = s.fget f := by
  have hlog (v : Nat) (x : Safety) : (({ s with safety := x } : State).fset Reg.safeLogHead v).fget f = s.fget f :=
    State.fget_fset_apart hf _ Reg.safeLogHead v (by simp [recordFields])
  unfold State.append
  dsimp only
  split
  · rw [State.traceTrigger_fget hf, State.traceEvent_fget hf, hlog]
  · split
    · rw [State.traceTrigger_fget hf, State.traceEvent_fget hf, hlog]
    · rw [State.traceEvent_fget hf, hlog]

theorem State.updateHealth_fget (s : State) : s.updateHealth.fget f = s.fget f := by
  have hwhy (a b : Nat) : ((s.fset Reg.safeHealthWhyDegraded a).fset Reg.safeHealthWhyReplace b).fget f = s.fget f := by
    rw [State.fget_fset_apart hf _ Reg.safeHealthWhyReplace _ (by simp [recordFields]),
      State.fget_fset_apart hf _ Reg.safeHealthWhyDegraded _ (by simp [recordFields])]
  have hpins (t : State) (p : Pins) : (if t.pins.configured then { t with pins := p } else t).fget f = t.fget f := by
    split <;> rfl
  unfold State.updateHealth
  dsimp only
  rw [hpins, State.fget_ite, State.append_fget hf,
    State.fget_fset_apart hf _ Reg.safeStatusHealth _ (by simp [recordFields]), hwhy, ite_self]

/-- A record below DF that no unit of the start makes fails no start: it is the entry of the log, and the health. -/
theorem State.record_fget (s : State) {sev : Nat} (cls code source : Nat) (ctx : List Nat) (hsev : sev < 2) :
    (s.record sev cls code source ctx).fget f = s.fget f := by
  have hstart (t : State) : t.failsStart sev false = false := by
    have : ¬ 2 ≤ sev := by omega
    simp [State.failsStart, this]
  unfold State.record State.recordAs
  dsimp only
  rw [State.updateHealth_fget hf, if_neg (by simp [hstart]), State.append_fget hf]

theorem State.pciRecord_fget (s : State) {sev : Nat} (code fn part addr : Nat) (hsev : sev < 2) :
    (s.pciRecord sev code fn part addr).fget f = s.fget f := State.record_fget hf s 0 code _ _ hsev

end

@[simp] theorem State.aerReport_fget (s : State) (fn sev : Nat) (f : Fld) : (s.aerReport fn sev).fget f = s.fget f := by
  unfold State.aerReport
  dsimp only
  split <;> rfl

@[simp] theorem State.vecEvent_fget (s : State) (fn vec : Nat) (f : Fld) : (s.vecEvent fn vec).fget f = s.fget f := by
  unfold State.vecEvent
  split
  · rfl
  · split <;> rfl

@[simp] theorem State.pkgEvent_fget (s : State) (e : PkgEvent) (f : Fld) : (s.pkgEvent e).fget f = s.fget f :=
  s.vecEvent_fget _ _ f

/-! ### Configuration requests -/

/-- After NV_LOAD a request of a function that is there is answered (R428). -/
theorem configAnswered {s : State} {fn : Nat} {early absent answer : Host.Outcome State Fault Refusal}
    (hs : stNvLoad < s.stage) (hp : s.fnPresent fn = true) :
    (if s.stage ≤ stNvLoad ∧ !s.paddock then early else if !s.fnPresent fn then absent else answer) = answer := by
  rw [if_neg fun hc => absurd hc.1 (Nat.not_le.2 hs), if_neg (by simp [hp])]

theorem State.fnPresent_zero (s : State) : s.fnPresent 0 = true := by simp [State.fnPresent]

@[simp] theorem State.fnCfg_setFnCfg (s : State) (fn : Nat) (c : FnCfg) : (s.setFnCfg fn c).fnCfg fn = c := by
  simp [State.fnCfg, State.setFnCfg]

@[simp] theorem State.send_fnCfg (s : State) (o : Out) (fn : Nat) : (s.send o).fnCfg fn = s.fnCfg fn := rfl

section
variable {s : State} {fn : Nat} (hs : stNvLoad < s.stage) (hp : s.fnPresent fn = true)
include hs hp

theorem execConfigRequest_identity :
    execConfigRequest (.identity fn) s = .next (s.send (.completion 0 (identityBytes fn))) :=
  configAnswered hs hp

theorem execConfigRequest_field (f : CfgField) :
    execConfigRequest (.field fn f) s = .next (s.send (.completion 0 (leBytes 4 (s.cfgValue fn f)))) :=
  configAnswered hs hp

theorem execConfigRequest_power (d3 : Bool) :
    execConfigRequest (.power fn d3) s = .next (((s.setFnCfg fn { s.fnCfg fn with d3 := d3 }).each
      (List.range (fnVectors fn)) (fun s v => s.vecRelease fn v)).send (.completion 0 [])) :=
  configAnswered hs hp

theorem execConfigRequest_ats (on : Bool) :
    execConfigRequest (.ats fn on) s = .next ((s.cfgAts fn on).send (.completion 0 [])) :=
  configAnswered hs hp

theorem execConfigRequest_msix (on mask : Bool) :
    execConfigRequest (.msix fn on mask) s = .next ((s.cfgMsix fn on mask).send (.completion 0 [])) :=
  configAnswered hs hp

theorem execConfigRequest_sizes (payload readReq : Nat) : Completes (execConfigRequest (.sizes fn payload readReq) s)
    (fun t => (t.fnCfg fn).payload = min 2 payload ∧ (t.fnCfg fn).readReq = min 5 readReq) :=
  ⟨_, configAnswered hs hp, by simp⟩

theorem execConfigRequest_acs (bits : Nat) : Completes (execConfigRequest (.acs fn bits) s)
    (fun t => (t.fnCfg fn).acs = bits % 2 ^ 16) :=
  ⟨_, configAnswered hs hp, by simp⟩

theorem execConfigRequest_aer (clear mask : Nat) : Completes (execConfigRequest (.aer fn clear mask) s)
    (fun t => (t.fnCfg fn).aer = (s.fnCfg fn).aer - ((s.fnCfg fn).aer &&& clear) ∧ (t.fnCfg fn).aerMask = mask % 8) :=
  ⟨_, configAnswered hs hp, by simp⟩

theorem execConfigRequest_read (off : Nat) : Completes (execConfigRequest (.read fn off) s)
    (fun t => t.freeCount = s.freeCount + 1 ∧
      t.out = s.out ++ [.completion 0 (leBytes 4 (Config.freeValue s.freeCount))]) :=
  ⟨_, configAnswered hs hp, rfl, rfl⟩

theorem execConfigRequest_write (off v : Nat) :
    execConfigRequest (.write fn off v) s = .next (s.send (.completion 0 [])) :=
  configAnswered hs hp

end

section
variable {s : State} (hs : stNvLoad < s.stage)
include hs

theorem execConfigRequest_sriov (n : Nat) :
    Completes (execConfigRequest (.sriov n) s) (fun t => t.pci.vfEnable = true ∧ t.pci.numVfs = min 32 n) :=
  ⟨_, configAnswered hs s.fnPresent_zero, rfl, rfl⟩

theorem execConfigRequest_bar4 (vf : Bool) (g : Nat) : Completes (execConfigRequest (.bar4 vf g) s)
    (fun t => if vf then t.pci.vfBar4 = clampNat 8 64 g else t.pci.bar4 = clampNat 8 512 g) := by
  cases vf <;> exact ⟨_, configAnswered hs s.fnPresent_zero, rfl⟩

end

/-! ### BAR4, errors and the link -/

theorem execHostBar4Read_open {s : State} {fn off n a : Nat} (ho : s.bar4Open fn = true) (hr : s.bar4Range fn off n = some a) :
    execHostBar4Read fn off n s = .next ((s.readThrough unitPackage a n).2.2.send
      (.completion (if (s.readThrough unitPackage a n).2.1 then 2 else 0) (s.readThrough unitPackage a n).1)) := by
  rw [execHostBar4Read, if_pos ho, hr]

theorem execHostBar4Write_open {s : State} {fn off a : Nat} {bytes : List Nat} (ho : s.bar4Open fn = true)
    (hr : s.bar4Range fn off bytes.length = some a) :
    execHostBar4Write fn off bytes false s = .next (s.hostWrite a (bytes.map (· % 256))) := by
  rw [execHostBar4Write, if_pos ho, hr]
  rfl

theorem State.aerReport_unmasked {s : State} {fn sev : Nat} (h : (s.fnCfg fn).aerMask.testBit sev = false) :
    s.aerReport fn sev = (s.setFnCfg fn { s.fnCfg fn with aer := setBit (s.fnCfg fn).aer sev }).send (.aer fn sev) := by
  rw [State.aerReport, if_neg (by simp [h])]

theorem State.aerReport_masked {s : State} {fn sev : Nat} (h : (s.fnCfg fn).aerMask.testBit sev = true) :
    s.aerReport fn sev = s.setFnCfg fn { s.fnCfg fn with aer := setBit (s.fnCfg fn).aer sev } := by
  rw [State.aerReport, if_pos h]

theorem execPcieLinkUp_completes (rate width : Nat) (flit : Bool) (s : State) :
    Completes (execPcieLinkUp rate width flit s) (fun t => t.fget Reg.pciStatusLinkUp = 1 ∧
      t.fget Reg.pciStatusRate = rate % 16 ∧ t.fget Reg.pciStatusWidth = width % 64 ∧
      t.fget Reg.pciStatusBelowSpec = if belowSpec rate width then 1 else 0) := by
  refine ⟨_, rfl, State.fget_raise_same _ _, ?rate, ?width, ?below⟩
  case rate =>
    rw [State.fget_raise_ne _ (by decide), State.fget_fput_ne _ _ (by decide)]
    exact (State.fget_fput_ne _ _ (by decide)).trans ((State.fget_fset_ne _ _ (by decide)).trans (s.fget_fset_same _ _))
  case width =>
    rw [State.fget_raise_ne _ (by decide), State.fget_fput_ne _ _ (by decide)]
    exact (State.fget_fput_ne _ _ (by decide)).trans (State.fget_fset_same _ _ _)
  case below =>
    rw [State.fget_raise_ne _ (by decide), State.fput, State.fget_fset_same]
    split <;> rfl

/-- The bits of a link-down and of a completion timeout are none that a record writes. -/
theorem pciStatusLinkUp_apart : Fld.apart Reg.pciStatusLinkUp := by unfold Fld.apart; decide
theorem pciErrLinkDown_apart : Fld.apart Reg.pciErrLinkDown := by unfold Fld.apart; decide
theorem pciErrCplTimeout_apart : Fld.apart Reg.pciErrCplTimeout := by unfold Fld.apart; decide

theorem execPcieLinkDown_completes (s : State) : Completes (execPcieLinkDown s)
    (fun t => t.fget Reg.pciStatusLinkUp = 0 ∧ t.fget Reg.pciErrLinkDown = 1 ∧ t.mem = s.mem) := by
  refine ⟨_, rfl, ?up, ?down, by simp⟩
  case up =>
    rw [State.pciRecord_fget pciStatusLinkUp_apart _ _ _ _ _ (by decide), State.fget_raise_ne _ (by decide),
      State.fget_clear_same]
  case down =>
    rw [State.pciRecord_fget pciErrLinkDown_apart _ _ _ _ _ (by decide)]
    exact State.fget_raise_same _ _

theorem State.timedOut_cplTimeout (s : State) (fn addr : Nat) : (s.timedOut fn addr).fget Reg.pciErrCplTimeout = 1 := by
  rw [State.timedOut, State.pkgEvent_fget, State.aerReport_fget,
    State.pciRecord_fget pciErrCplTimeout_apart _ _ _ _ _ (by decide), State.fget_bump_ne _ (by decide)]
  exact State.fget_raise_same _ _

/-- Every load context's state stands at a higher address than PCI_ATS_INVAL. -/
theorem loadStatusState_key_ne (c : Nat) : Reg.pciAtsInval.key ≠ (Reg.loadStatusState.ctx c).key := by
  simp only [Reg.pciAtsInval, Reg.loadStatusState, Fld.ctx, Fld.shift, Fld.key]
  omega

/-- No read of host memory starts because invalidations are counted, or translations dropped. -/
theorem State.hostReads_bump_ats {s : State} (p : Pci) (h : s.hostReads = []) :
    ({ s.bump Reg.pciAtsInval with pci := p } : State).hostReads = [] := by
  have hload (c : Nat) : ({ s.bump Reg.pciAtsInval with pci := p } : State).loadSt c = s.loadSt c :=
    s.fget_bump_ne (loadStatusState_key_ne c)
  have hvolz : ({ s.bump Reg.pciAtsInval with pci := p } : State).fget Reg.volzStatusState = s.fget Reg.volzStatusState :=
    s.fget_bump_ne (by decide)
  unfold State.hostReads at h ⊢
  simp only [List.append_eq_nil_iff] at h ⊢
  obtain ⟨⟨⟨⟨⟨hloads, hsteps⟩, hmoves⟩, himage⟩, hnv⟩, hsec⟩ := h
  refine ⟨⟨⟨⟨⟨?loads, hsteps⟩, ?moves⟩, ?image⟩, hnv⟩, hsec⟩
  case loads =>
    simp only [hload]
    exact hloads
  case moves =>
    rw [List.filterMap_eq_nil_iff] at hmoves ⊢
    intro m hm
    have hm' := hmoves m hm
    split at hm'
    · exact absurd hm' nofun
    · next htier => exact if_neg htier
  case image =>
    rw [hvolz]
    exact himage

/-- With no read outstanding an invalidation completes at once. -/
theorem State.settleInvals_one {s : State} {fn addr len : Nat} (hr : s.hostReads = [])
    (hv : s.pci.invals = [(fn, addr, len)]) :
    s.settleInvals = { s with pci := { s.pci with invals := [] } }.send (.invalidated fn addr len) := by
  simp [State.settleInvals, State.each, hr, hv]

theorem execAtsInvalidation_completes {s : State} (fn addr len : Nat) (hr : s.hostReads = []) (hv : s.pci.invals = []) :
    Completes (execAtsInvalidation fn addr len s) (fun t =>
      t.fget Reg.pciAtsInval = min (Reg.pciAtsInval.card - 1) (s.fget Reg.pciAtsInval + 1) ∧
      t.pci.atc = s.pci.atc.filter (fun e => !(e.1 == fn && overlaps e.2.1 (2 ^ e.2.2) addr len)) ∧ t.pci.invals = [] ∧
      t.out = s.out ++ [.invalidated fn addr len]) := by
  have hcount : (s.bump Reg.pciAtsInval).fget Reg.pciAtsInval =
      min (Reg.pciAtsInval.card - 1) (s.fget Reg.pciAtsInval + 1) :=
    (s.fget_bumpBy_same _ 1).trans (Nat.mod_eq_of_lt (lt_of_le_of_lt (Nat.min_le_left _ _) (by decide)))
  refine ⟨_, rfl, ?_⟩
  rw [State.settleInvals_one (State.hostReads_bump_ats _ hr) (by show s.pci.invals ++ [(fn, addr, len)] = _; rw [hv]; rfl)]
  exact ⟨hcount, rfl, rfl, rfl⟩

/-- A vector with an event pending and nothing to mask it sends its message. -/
theorem State.vecRelease_sends {s : State} {fn vec : Nat} (hpend : (s.vecGet fn vec).pending = true)
    (hmask : (s.vecGet fn vec).mask = false) (hrun : (s.vecGet fn vec).running = false) (hon : s.msixOn fn = true) :
    s.vecRelease fn vec = s.vecSend fn vec := by
  simp [State.vecRelease, hpend, hmask, hrun, hon]

theorem execMsixIntervalEnd_sends {s : State} {fn vec : Nat} (hrun : (s.vecGet fn vec).running = true)
    (hpend : (s.vecGet fn vec).pending = true) (hmask : (s.vecGet fn vec).mask = false) (hon : s.msixOn fn = true) :
    execMsixIntervalEnd fn vec s = .next ((s.vecSet fn vec { s.vecGet fn vec with running := false }).vecSend fn vec) := by
  have hget : (s.vecSet fn vec { s.vecGet fn vec with running := false }).vecGet fn vec =
      { s.vecGet fn vec with running := false } := Map.get_set_same _ _ _ _
  unfold execMsixIntervalEnd
  dsimp only
  rw [if_neg (by simp [hrun])]
  exact congrArg _ (State.vecRelease_sends (by rw [hget]; exact hpend) (by rw [hget]; exact hmask) (by rw [hget]) hon)

theorem execRegisterWrite_reg {s : State} {fn bar off a : Nat} {sel : Option Nat} (value : Nat) (hoff : off % 4 = 0)
    (h : s.land fn bar off = some (.reg a sel)) :
    execRegisterWrite fn bar off 4 value false s = .next (s.writeReg (s.landedWord a sel) (value % 2 ^ 32)) := by
  rw [execRegisterWrite, if_neg Bool.false_ne_true, if_neg (by omega), State.write32, h]
  rfl

/-- The read of a whole register word answers it. -/
theorem State.hostRead_word {s : State} {fn bar off a : Nat} {sel : Option Nat} (hoff : off % 4 = 0)
    (h : s.land fn bar off = some (.reg a sel)) :
    s.hostRead fn bar off 4 = (s.readReg (s.landedWord a sel)).2.send
      (.completion 0 (leBytes 4 (s.readReg (s.landedWord a sel)).1)) := by
  have hal : off / 4 * 4 = off := by omega
  rw [s.hostRead_reg (by omega) (hal.symm ▸ h), hoff]
  rfl

/-- Settles O2, access by access. -/
theorem hostAccessesComplete : Obligations.HostAccessesComplete := by
  unfold Obligations.HostAccessesComplete
  refine ⟨?write, ?counter, ?low, ?identity, ?field, ?power, ?ats, ?msix, ?sizes, ?acs, ?aer, ?sriov, ?bar4, ?read, ?cfgWrite,
    ?bar4Read, ?bar4Write, ?unmasked, ?masked, ?linkUp, ?linkDown, ?timeout, ?readFails, ?invalidation, ?vfs, ?interval⟩
  case write => exact fun fn bar off value a sel s hoff h => execRegisterWrite_reg value hoff h
  case counter => exact fun fn bar off a sel s hoff h => congrArg _ (State.hostRead_word hoff h)
  case low => exact fun fn bar off a sel s hoff h => congrArg _ (State.hostRead_word hoff h)
  case identity => exact fun fn s hs hp => execConfigRequest_identity hs hp
  case field => exact fun fn f s hs hp => execConfigRequest_field hs hp f
  case power => exact fun fn d3 s hs hp => execConfigRequest_power hs hp d3
  case ats => exact fun fn on s hs hp => execConfigRequest_ats hs hp on
  case msix => exact fun fn on mask s hs hp => execConfigRequest_msix hs hp on mask
  case sizes => exact fun fn payload readReq s hs hp => execConfigRequest_sizes hs hp payload readReq
  case acs => exact fun fn bits s hs hp => execConfigRequest_acs hs hp bits
  case aer => exact fun fn clear mask s hs hp => execConfigRequest_aer hs hp clear mask
  case sriov => exact fun n s hs => execConfigRequest_sriov hs n
  case bar4 => exact fun vf g s hs => execConfigRequest_bar4 hs vf g
  case read => exact fun fn off s hs hp => execConfigRequest_read hs hp off
  case cfgWrite => exact fun fn off v s hs hp => execConfigRequest_write hs hp off v
  case bar4Read => exact fun fn off n a s ho hr => execHostBar4Read_open ho hr
  case bar4Write => exact fun fn off a bytes s ho hr => execHostBar4Write_open ho hr
  case unmasked => exact fun fn s h => congrArg _ (State.aerReport_unmasked h)
  case masked => exact fun fn s h => congrArg _ (State.aerReport_masked h)
  case linkUp => exact execPcieLinkUp_completes
  case linkDown => exact execPcieLinkDown_completes
  case timeout =>
    intro fn addr s h
    refine ⟨s.timedOut fn addr, ?_, rfl, s.timedOut_cplTimeout fn addr⟩
    show execPciCompletionTimeout fn addr s = _
    simp only [execPciCompletionTimeout, h]
  case readFails =>
    intro fn addr r s h
    show execPciCompletionTimeout fn addr s = _
    simp only [execPciCompletionTimeout, h]
  case invalidation => exact fun fn addr len s hr hv => execAtsInvalidation_completes fn addr len hr hv
  case vfs => exact fun n s => ⟨_, rfl, rfl, rfl⟩
  case interval => exact fun fn vec s hrun hpend hmask hon => execMsixIntervalEnd_sends hrun hpend hmask hon

end Sys2Proof.Machine
end

section
/-!
SUPPORT. What keeps memory in its canonical form: every operation that writes bytes of it, one lemma per definition, in the order
of the definitions. An operation that leaves memory alone says so itself, and needs no lemma here.
-/
set_option Elab.async false
namespace Sys2Proof.Machine

/-- The memory lists its addresses in strictly rising order, and no byte that reads as an unlisted one. -/
def MemOk (m : SMap Byte) : Prop := Map.wf (0#8) m = true

/-- A state of which a lemma takes for granted that its memory is canonical. The lemmas conclude about memories, so that what
leaves memory alone drops out by its own rule before the next lemma is asked for. -/
structure State.Sound (s : State) : Prop where
  mem : MemOk s.mem

@[simp] theorem State.sound_iff (s : State) : s.Sound ↔ MemOk s.mem := ⟨State.Sound.mem, State.Sound.mk⟩

/-- The sound states: what a fold's step, and what is handed a command to run, may take for granted. -/
abbrev SoundState : Type := { s : State // s.Sound }

@[simp] theorem SoundState.mem (s : SoundState) : MemOk s.val.mem := s.property.mem

/-- What keeps sound states sound leaves the memory of a sound state canonical. -/
theorem memOk_apply {f : State → State} (hf : ∀ s : SoundState, (f s).Sound) {s : State} (hs : MemOk s.mem) :
    MemOk (f s).mem := (hf ⟨s, ⟨hs⟩⟩).mem

theorem State.memoryOk_iff (s : State) : s.memoryOk = true ↔ MemOk s.mem := Iff.rfl

/-- A memory that nothing was written to. -/
@[simp] theorem memOk_nil : MemOk [] := rfl

@[simp] theorem memOk_ite (c : Prop) [Decidable c] (m n : SMap Byte) :
    MemOk (if c then m else n) ↔ if c then MemOk m else MemOk n := by
  split <;> rfl

section
variable {s : State} (hm : s.Sound)
include hm

/-- A fold whose every step keeps the form keeps it. -/
@[simp] theorem State.each_memOk {α : Type} {f : State → α → State}
    (hf : ∀ (s : SoundState) (x : α), (f s x).Sound) (xs : List α) : MemOk (s.each xs f).mem :=
  (State.each_inv s State.Sound f (fun s x hs => hf ⟨s, hs⟩ x) xs hm).mem

/-- A command that keeps the queue and memory. -/
theorem Completes.memOk {o : Host.Outcome State Fault Refusal}
    (h : Completes o (fun t => t.pending = s.pending ∧ t.mem = s.mem)) : Completes o (fun t => MemOk t.mem) :=
  h.mono fun _ ht => ht.2.symm ▸ hm.mem

@[simp] theorem State.writeByte_memOk (a : Nat) (v : Byte) : MemOk (s.writeByte a v).mem :=
  s.memoryOk_writeByte a v hm.mem

@[simp] theorem State.writeBytes_memOk (a : Nat) (bs : List Nat) : MemOk (s.writeBytes a bs).mem :=
  s.memoryOk_writeBytes a bs hm.mem

/-! ### Ops -/

@[simp] theorem State.writeWord_memOk (a v : Nat) : MemOk (s.writeWord a v).mem := s.memoryOk_writeWord a v hm.mem

/-! ### Memory -/

@[simp] theorem State.readBlock_memOk (source : Nat) (repair : Bool) (blk : Nat) :
    MemOk (s.readBlock source repair blk).mem := s.memoryOk_readBlock source repair blk hm.mem

@[simp] theorem State.readFor_memOk (step : Option Nat) (source a n : Nat) :
    MemOk (s.readFor step source a n).2.2.mem := s.memoryOk_readFor step source a n hm.mem

@[simp] theorem State.readThrough_memOk (source a n : Nat) :
    MemOk (s.readThrough source a n).2.2.mem := s.memoryOk_readThrough source a n hm.mem

@[simp] theorem State.writeThrough_memOk (source a : Nat) (b : List Nat) :
    MemOk (s.writeThrough source a b).mem := s.memoryOk_writeThrough source a b hm.mem

@[simp] theorem State.hostWrite_memOk (a : Nat) (b : List Nat) : MemOk (s.hostWrite a b).mem := by
  simp [hm.mem, State.hostWrite]

/-! ### Torus -/

@[simp] theorem State.withRev_memOk {f : State → State} (hf : ∀ s : SoundState, (f s).Sound) (r : Rev) :
    MemOk (s.withRev r f).mem := by
  unfold State.withRev
  split
  · exact memOk_apply hf hm.mem
  · simp [hm.mem]

@[simp] theorem State.endColl_memOk (c : Coll) (code port pos : Nat) : MemOk (s.endColl c code port pos).mem := by
  simp [hm.mem, State.endColl]

@[simp] theorem State.abortColls_memOk (step : Nat) : MemOk (s.abortColls step).mem := by
  simp [hm.mem, State.abortColls]

/-! ### StepRuns -/

@[simp] theorem State.storeInput_memOk (p x : Nat) (cs : List (Nat × Nat)) (b : List Nat) :
    MemOk (s.storeInput p x cs b).mem := by
  induction cs generalizing s b with
  | nil => exact hm.mem
  | cons c cs ih =>
    refine ih ?_ _
    exact List.foldlRecOn (motive := fun a : State × List Nat => a.1.Sound) _ _ hm
      (fun a ha k _ => ⟨State.writeThrough_memOk ha ..⟩)

@[simp] theorem State.loadInput_memOk (p x : Nat) (cs : List (Nat × Nat)) : MemOk (s.loadInput p x cs).2.2.mem :=
  List.foldlRecOn (motive := fun a : List Nat × Bool × State => MemOk a.2.2.mem) _ _ hm.mem
    (fun _ ha _ _ => State.readThrough_memOk ⟨ha⟩ ..)

@[simp] theorem State.abandonStep_memOk (id : Nat) : MemOk (s.abandonStep id).mem := by
  unfold State.abandonStep
  split <;> simp [hm.mem]

@[simp] theorem State.parkStep_memOk (id : Nat) : MemOk (s.parkStep id).mem := by
  unfold State.parkStep
  split <;> simp [hm.mem]

@[simp] theorem State.abandonBoth_memOk (id : Nat) : MemOk (s.abandonBoth id).mem := by
  unfold State.abandonBoth
  repeat' split
  all_goals simp [hm.mem]

@[simp] theorem State.failStepWith_memOk (id code : Nat) : MemOk (s.failStepWith id code).mem := by
  unfold State.failStepWith
  split <;> simp [hm.mem]

@[simp] theorem State.failStep_memOk (id : Nat) : MemOk (s.failStep id).mem := by
  simp [hm.mem, State.failStep]

@[simp] theorem State.faultStep_memOk (id : Nat) (seq : Bool) (unit cause layer group extra : Nat) :
    MemOk (s.faultStep id seq unit cause layer group extra).mem := by
  fun_cases State.faultStep <;> simp [hm.mem]

@[simp] theorem State.failPartSteps_memOk (p : Nat) : MemOk (s.failPartSteps p).mem := by
  simp [hm.mem, State.failPartSteps]

/-! ### Accum -/

@[simp] theorem State.badScaleFault_memOk (t step layer g : Nat) : MemOk (s.badScaleFault t step layer g).mem := by
  simp [hm.mem, State.badScaleFault]

@[simp] theorem State.wideAdd_memOk (t g tile i step : Nat) (v : Rat) (scol : Nat) (sseg : Option Nat) :
    MemOk (s.wideAdd t g tile i step v scol sseg).mem := by
  simp [hm.mem, State.wideAdd]

@[simp] theorem State.promote_memOk (t : Nat) (r : Run) : MemOk (s.promote t r).mem := by
  simp [hm.mem, State.promote]

@[simp] theorem State.startRun_memOk (t : Nat) (n : Run) (v : Int) : MemOk (s.startRun t n v).mem := by
  simp [hm.mem, State.startRun]

@[simp] theorem State.narrowAdd_memOk (t : Nat) (n : Run) (v : Int) : MemOk (s.narrowAdd t n v).mem := by
  unfold State.narrowAdd
  split <;> simp [hm.mem]

@[simp] theorem State.promoteAll_memOk (t : Nat) (rs : List Run) : MemOk (s.promoteAll t rs).mem := by
  simp [hm.mem, State.promoteAll]

@[simp] theorem State.flushRuns_memOk (t : Nat) : MemOk (s.flushRuns t).mem := by
  simp [hm.mem, State.flushRuns]

@[simp] theorem State.addRecord_memOk (t k plane : Nat) (p : Pulse) (vs : List (Int × Bool)) :
    MemOk (s.addRecord t k plane p vs).mem := by
  refine State.each_memOk hm (fun s i => ⟨?_⟩) _
  split <;> simp

@[simp] theorem State.takeRecord_memOk (t : Nat) (r : TileRec) : MemOk (s.takeRecord t r).mem := by
  unfold State.takeRecord
  dsimp only
  repeat' split
  all_goals simp [hm.mem]

@[simp] theorem State.fillGroup_memOk (t : Nat) (d : GroupDesc) (word : Nat → Nat) : MemOk (s.fillGroup t d word).mem :=
  State.each_memOk hm (fun s _ => ⟨State.writeThrough_memOk s.property ..⟩) _

@[simp] theorem State.initGroup_memOk (p t step : Nat) (d : GroupDesc) : MemOk (s.initGroup p t step d).mem := by
  simp [hm.mem, State.initGroup]

@[simp] theorem State.openGroup_memOk (p t step : Nat) (d : GroupDesc) : MemOk (s.openGroup p t step d).mem := by
  simp [hm.mem, State.openGroup]

@[simp] theorem State.writeOut_memOk (p t g : Nat) (x : Group) : MemOk (s.writeOut p t g x).mem := by
  simp [hm.mem, State.writeOut]

@[simp] theorem State.writeTopk_memOk (p t g : Nat) (x : Group) : MemOk (s.writeTopk p t g x).mem := by
  simp [hm.mem, State.writeTopk]

@[simp] theorem State.closeGroup_memOk (t g : Nat) : MemOk (s.closeGroup t g).mem := by
  unfold State.closeGroup
  extract_lets x s1 x1 reads r s2
  have h1 : s1.Sound := ⟨by simp [s1, hm.mem]⟩
  have h2 : s2.Sound := ⟨by simp [s2, r, h1.mem]⟩
  split
  · exact hm.mem
  · split
    · exact h1.mem
    · split
      · simp [r, h1.mem]
      · extract_lets s3
        split <;> simp [s3, h2.mem]

/-! ### Edge -/

@[simp] theorem State.nanInput_memOk (t : Nat) (j : Job) (loc seg : Nat) : MemOk (s.nanInput t j loc seg).mem := by
  simp [hm.mem, State.nanInput]

@[simp] theorem State.edgeConvert_memOk (t : Nat) : MemOk (s.edgeConvert t).mem := by
  unfold State.edgeConvert
  dsimp only
  repeat' split
  all_goals simp [hm.mem]

theorem execEdgeConvert_memOk (t : Nat) : Completes (execEdgeConvert t s) (fun t => MemOk t.mem) := by
  simp [hm.mem, execEdgeConvert]

/-! ### Planes -/

@[simp] theorem State.startReload_memOk (p t r plane : Nat) : MemOk (s.startReload p t r plane).mem := by
  unfold State.startReload
  split <;> simp [hm.mem]

@[simp] theorem State.reloadMarked_memOk (t k plane : Nat) : MemOk (s.reloadMarked t k plane).mem := by
  fun_cases State.reloadMarked <;> simp [hm.mem]

/-! ### Groom -/

@[simp] theorem State.finding_memOk (t k plane cls : Nat) (e : Nat × Nat) : MemOk (s.finding t k plane cls e).mem := by
  unfold State.finding
  dsimp only
  repeat' split
  all_goals simp [hm.mem]

@[simp] theorem State.findAll_memOk (t k plane cls : Nat) (hit : Nat → Bool) : MemOk (s.findAll t k plane cls hit).mem := by
  simp [hm.mem, State.findAll]

@[simp] theorem State.outriderReads_memOk (t k plane : Nat) (rows : List Nat) :
    MemOk (s.outriderReads t k plane rows).mem := by
  simp [hm.mem, State.outriderReads]

@[simp] theorem State.groomTile_memOk (t k : Nat) : MemOk (s.groomTile t k).mem := by
  simp [hm.mem, State.groomTile]

@[simp] theorem State.groomBeat_memOk (t : Nat) (idle : List Nat) : MemOk (s.groomBeat t idle).mem := by
  simp [hm.mem, State.groomBeat]

/-! ### Takeover -/

@[simp] theorem State.finishCopy_memOk (t : Nat) : MemOk (s.finishCopy t).mem := by
  unfold State.finishCopy
  split <;> simp [hm.mem]

/-! ### Farrier -/

@[simp] theorem State.loseTeam_memOk (t : Nat) : MemOk (s.loseTeam t).mem := by
  unfold State.loseTeam
  dsimp only
  split <;> simp [hm.mem]

@[simp] theorem State.teamLost_memOk (t reason k col : Nat) : MemOk (s.teamLost t reason k col).mem := by
  simp [hm.mem, State.teamLost]

@[simp] theorem State.bypassColumn_memOk (t k reason col : Nat) : MemOk (s.bypassColumn t k reason col).mem := by
  simp [hm.mem, State.bypassColumn]

@[simp] theorem State.retireNoSpare_memOk (t k reason col : Nat) : MemOk (s.retireNoSpare t k reason col).mem := by
  simp [hm.mem, State.retireNoSpare]

@[simp] theorem State.retire_memOk (t k reason col : Nat) : MemOk (s.retire t k reason col).mem := by
  fun_cases State.retire <;> simp [hm.mem]

@[simp] theorem State.nextRetire_memOk (t : Nat) : MemOk (s.nextRetire t).mem := by
  fun_cases State.nextRetire <;> simp [hm.mem]

@[simp] theorem State.remap_memOk (t k col reason : Nat) : MemOk (s.remap t k col reason).mem := by
  unfold State.remap
  dsimp only
  split
  · simp [hm.mem]
  · rw [(State.farrAction_keeps ..).2, (State.calTrace_keeps ..).2, (State.bumpTeam_keeps ..).2, State.setTeam_mem,
      (s.copyColumn_keeps t k _ _).2]
    exact hm.mem

theorem execFarrRetire_memOk (t k : Nat) : Completes (execFarrRetire t k s) (fun t => MemOk t.mem) := by
  simp [hm.mem, execFarrRetire]

theorem execPendingRetireComplete_memOk (t : Nat) : Completes (execPendingRetireComplete t s) (fun t => MemOk t.mem) := by
  unfold execPendingRetireComplete
  dsimp only
  repeat' split
  all_goals simp [hm.mem]

theorem execDailyTrimRecord_memOk (t k : Nat) : Completes (execDailyTrimRecord t k s) (fun t => MemOk t.mem) := by
  simp [hm.mem, execDailyTrimRecord]

/-! ### Calibration -/

@[simp] theorem State.windowFault_memOk (t k : Nat) : MemOk (s.windowFault t k).mem := by
  simp [hm.mem, State.windowFault]

@[simp] theorem State.winLimited_memOk (t k : Nat) (was now : Int) : MemOk (s.winLimited t k was now).mem := by
  simp [hm.mem, State.winLimited]

@[simp] theorem State.setWin_memOk (t k : Nat) (w : Int) : MemOk (s.setWin t k w).2.mem := by
  unfold State.setWin
  split <;> simp [hm.mem]

@[simp] theorem State.retrimTo_memOk (wait : Bool) (t k : Nat) : MemOk (s.retrimTo wait t k).mem := by
  unfold State.retrimTo
  split <;> simp [hm.mem]

@[simp] theorem State.retrim_memOk (t k : Nat) : MemOk (s.retrim t k).mem := by simp [hm.mem, State.retrim]

@[simp] theorem State.applyResult_memOk (t k : Nat) (v : CoefSet) (abrupt : Bool) :
    MemOk (s.applyResult t k v abrupt).mem := by
  simp [hm.mem, State.applyResult]

theorem execSlewStep_memOk (t k : Nat) : Completes (execSlewStep t k s) (fun t => MemOk t.mem) := by
  unfold execSlewStep
  dsimp only
  split <;> simp [hm.mem]

@[simp] theorem State.abandonCal_memOk (t : Nat) : MemOk (s.abandonCal t).mem := by
  unfold State.abandonCal
  dsimp only
  repeat' split
  all_goals simp [hm.mem]

theorem execCalAbandon_memOk (t : Nat) : Completes (execCalAbandon t s) (fun t => MemOk t.mem) := by
  simp [hm.mem, execCalAbandon]

theorem execFarrRemap_memOk (t k col : Nat) : Completes (execFarrRemap t k col s) (fun t => MemOk t.mem) := by
  simp [hm.mem, execFarrRemap]

theorem execCalrefLost_memOk : Completes (execCalrefLost s) (fun t => MemOk t.mem) := by
  simp [hm.mem, execCalrefLost]

theorem execCalGateDone_memOk (t : Nat) (delay win : Int) :
    Completes (execCalGateDone t delay win s) (fun t => MemOk t.mem) := by
  simp [hm.mem, execCalGateDone]

@[simp] theorem State.completeCal_memOk (t k mode : Nat) (v : CoefSet) (abrupt : Bool) :
    MemOk (s.completeCal t k mode v abrupt).mem := by
  simp [hm.mem, State.completeCal]

@[simp] theorem State.judgeTile_memOk (t : Nat) (c : Cal) (v : CoefSet) (due : Bool) :
    MemOk (s.judgeTile t c v due).mem := by
  simp [hm.mem, State.judgeTile]

@[simp] theorem State.endIdleCal_memOk (t : Nat) (c : Cal) (v : CoefSet) (abrupt due : Bool) :
    MemOk (s.endIdleCal t c v abrupt due).mem := by
  simp [hm.mem, State.endIdleCal]

@[simp] theorem State.remapDue_memOk (t k : Nat) (due : List (Nat × Nat)) : MemOk (s.remapDue t k due).mem := by
  simp [hm.mem, State.remapDue]

@[simp] theorem State.medianTrims_memOk (t k : Nat) (delay : Int) : MemOk (s.medianTrims t k delay).2.mem := by
  simp [hm.mem, State.medianTrims]

theorem execCalFitDone_memOk (t : Nat) (fits : List (Nat × Int × Int)) (delay : Int) (resid : Nat) (noisy stuck : List Nat) :
    Completes (execCalFitDone t fits delay resid noisy stuck s) (fun t => MemOk t.mem) := by
  unfold execCalFitDone
  extract_lets c k fits' d s1 old v abrupt due poor s2 s3 lost s4 s5
  have h1 : s1.Sound := by
    simp only [s1, d, State.sound_iff]
    split <;> simp [hm.mem]
  have h3 : s3.Sound := ⟨by simp [s3, s2, h1.mem]⟩
  have h5 : s5.Sound := by
    simp only [s5, s4, State.sound_iff]
    split
    · simp [h3.mem]
    · simp [h3.mem]
  split <;> simp [hm.mem, h5.mem]

theorem execTakeoverCopyDone_memOk (t : Nat) : Completes (execTakeoverCopyDone t s) (fun t => MemOk t.mem) := by
  simp [hm.mem, execTakeoverCopyDone]

@[simp] theorem State.afterMove_memOk (t : Nat) (o : Takeover) : MemOk (s.afterMove t o).mem := by
  fun_cases State.afterMove <;> simp [hm.mem]

theorem execTakeoverMove_memOk (t : Nat) : Completes (execTakeoverMove t s) (fun t => MemOk t.mem) := by
  unfold execTakeoverMove
  split <;> simp [hm.mem]

/-! ### Outrider -/

@[simp] theorem State.deliverColumn_memOk (t : Nat) (d : Delivery) (acc : Nat) (seg : Option Nat) (c : Nat)
    (terms : List (Int × Bool)) :
    MemOk (s.deliverColumn t d acc seg c terms).mem := by
  simp [hm.mem, State.deliverColumn]

@[simp] theorem State.outriderDelivery_memOk (t : Nat) : MemOk (s.outriderDelivery t).mem := by
  unfold State.outriderDelivery
  split
  · exact hm.mem
  · extract_lets x s1 s2 m cols segs
    have h2 : s2.Sound := ⟨by simp [s2, s1, hm.mem]⟩
    split
    · simp [h2.mem]
    · rw [(State.showGroup_keeps ..).2]
      refine State.each_memOk h2 (fun s g => ⟨?_⟩) _
      exact State.each_memOk s.property (fun s c => ⟨by simp⟩) _

theorem execOutriderDelivery_memOk (t : Nat) : Completes (execOutriderDelivery t s) (fun t => MemOk t.mem) := by
  simp [hm.mem, execOutriderDelivery]

@[simp] theorem State.repairInPlace_memOk (t k : Nat) (v : CoefSet) (fits : List (Nat × Rat × Rat)) :
    MemOk (s.repairInPlace t k v fits).mem := by
  simp [hm.mem, State.repairInPlace]

@[simp] theorem State.track_memOk (t k : Nat) : MemOk (s.track t k).mem := by
  unfold State.track
  extract_lets fits a n d v c s1
  have h1 : s1.Sound := ⟨by simp [s1, d, hm.mem]⟩
  split <;> simp [hm.mem, h1.mem]

@[simp] theorem State.verdict_memOk (t v : Nat) : MemOk (s.verdict t v).mem := by
  unfold State.verdict
  dsimp only
  repeat' split
  all_goals simp [hm.mem]

theorem execArbCodeCheckDone_memOk (t : Nat) : Completes (execArbCodeCheckDone t s) (fun t => MemOk t.mem) := by
  unfold execArbCodeCheckDone
  repeat' split
  all_goals simp [hm.mem]

@[simp] theorem State.seekSpare_memOk (t : Nat) (a : Arb) : MemOk (s.seekSpare t a).mem := by
  unfold State.seekSpare
  split <;> simp [hm.mem]

theorem execArbReferenceDone_memOk (t : Nat) (agrees : Bool) :
    Completes (execArbReferenceDone t agrees s) (fun t => MemOk t.mem) := by
  unfold execArbReferenceDone
  repeat' split
  all_goals simp [hm.mem]

theorem execArbSpareRunDone_memOk (t : Nat) (wrong : List (Nat × Int)) :
    Completes (execArbSpareRunDone t wrong s) (fun t => MemOk t.mem) := by
  unfold execArbSpareRunDone
  repeat' split
  all_goals simp [hm.mem]

theorem execOutriderSelftestDone_memOk (t : Nat) (pass : Bool) :
    Completes (execOutriderSelftestDone t pass s) (fun t => MemOk t.mem) := by
  unfold execOutriderSelftestDone
  split
  · simp [hm.mem]
  · extract_lets s1 src s2
    split <;> simp [hm.mem, s2, s1]

theorem execSampleComplete_memOk (t r : Nat) (lanes : List (Nat × Nat × Int)) :
    Completes (execSampleComplete t r lanes s) (fun t => MemOk t.mem) := by
  unfold execSampleComplete
  repeat' split
  all_goals simp [hm.mem]

theorem execReferenceRunDone_memOk (t : Nat) : Completes (execReferenceRunDone t s) (fun t => MemOk t.mem) := by
  unfold execReferenceRunDone
  split
  · simp [hm.mem]
  · split
    · simp [hm.mem]
    · extract_lets w x s1 r s2 k plane s3 units s4 run out
      have h2 : s2.Sound := ⟨by simp [s2, r, s1, hm.mem]⟩
      have h4 : s4.Sound := ⟨by simp [s4, s3, h2.mem]⟩
      split <;> simp [h2.mem, h4.mem]

/-! ### FieldTests -/

@[simp] theorem State.beginRoleTest_memOk (t k r : Nat) (forced : Bool) : MemOk (s.beginRoleTest t k r forced).mem := by
  unfold State.beginRoleTest
  repeat' split
  all_goals simp [hm.mem]

@[simp] theorem State.beginTileTest_memOk (t k : Nat) : MemOk (s.beginTileTest t k).mem := by
  fun_cases State.beginTileTest <;> simp [hm.mem]

@[simp] theorem State.tryTests_memOk (t : Nat) : MemOk (s.tryTests t).mem := by simp [hm.mem, State.tryTests]

theorem execTileIftDue_memOk (t k : Nat) : Completes (execTileIftDue t k s) (fun t => MemOk t.mem) := by
  simp [hm.mem, execTileIftDue]

theorem execTeamTestDue_memOk (t : Nat) : Completes (execTeamTestDue t s) (fun t => MemOk t.mem) := by
  simp [hm.mem, execTeamTestDue]

theorem execIftDeferExpire_memOk (t : Nat) (tile : Option Nat) :
    Completes (execIftDeferExpire t tile s) (fun t => MemOk t.mem) := by
  unfold execIftDeferExpire
  split <;> simp [hm.mem]

theorem execTileIftComplete_memOk (t k fail : Nat) : Completes (execTileIftComplete t k fail s) (fun t => MemOk t.mem) := by
  simp [hm.mem, execTileIftComplete]

theorem execTeamTestComplete_memOk (t fail : Nat) : Completes (execTeamTestComplete t fail s) (fun t => MemOk t.mem) := by
  simp [hm.mem, execTeamTestComplete]

/-! ### Beat -/

@[simp] theorem State.edgeMissing_memOk (t k : Nat) (r : TileRec) (n : Nat) : MemOk (s.edgeMissing t k r n).mem := by
  simp [hm.mem, State.edgeMissing]

@[simp] theorem State.latch_memOk (f : BeatFaults) (t k : Nat) (p : Pulse) : MemOk (s.latch f t k p).2.mem := by
  simp [hm.mem, State.latch]

@[simp] theorem State.latchAll_memOk (f : BeatFaults) (t : Nat) (l : List Nat) : MemOk (s.latchAll f t l).2.mem := by
  induction l generalizing s with
  | nil => simp [hm.mem, State.latchAll]
  | cons k ks ih =>
    unfold State.latchAll
    split <;> simp [hm.mem, ih]

@[simp] theorem State.repair_memOk (t left : Nat) (r : TileRec) : MemOk (s.repair t left r).2.2.mem := by
  simp [hm.mem, State.repair]

@[simp] theorem State.repairAll_memOk (t left : Nat) (l : List TileRec) : MemOk (s.repairAll t left l).2.2.mem := by
  induction l generalizing s left with
  | nil => simp [hm.mem, State.repairAll]
  | cons c cs ih => simp [hm.mem, State.repairAll, ih]

@[simp] theorem State.endBeat_memOk (f : BeatFaults) (t : Nat) : MemOk (s.endBeat f t).mem := by
  simp [hm.mem, State.endBeat]

@[simp] theorem State.swapTile_memOk (t k plane : Nat) : MemOk (s.swapTile t k plane).mem := by
  simp [hm.mem, State.swapTile]

@[simp] theorem State.swaps_memOk (t : Nat) : MemOk (s.swaps t).2.mem := by
  unfold State.swaps
  extract_lets x s1 due lost s2 go items s3 rest
  have h2 : s2.Sound := ⟨by simp [s2, s1, hm.mem]⟩
  simp [s3, h2.mem]

@[simp] theorem State.startBeat_memOk (t : Nat) : MemOk (s.startBeat t).mem := by
  simp [hm.mem, State.startBeat]

@[simp] theorem State.teamBeat_memOk (f : BeatFaults) (t : Nat) : MemOk (s.teamBeat f t).mem := by
  unfold State.teamBeat
  extract_lets s1
  have h1 : s1.Sound := ⟨by simp [s1, hm.mem]⟩
  have h2 : ((s1.flushRuns t).endBeat f t).Sound := ⟨by simp [h1.mem]⟩
  split <;> simp [hm.mem, h2.mem]

@[simp] theorem State.beatBoundary_memOk (f : BeatFaults) : MemOk (s.beatBoundary f).mem := by
  simp [hm.mem, State.beatBoundary]

theorem execTileRecordArrive_memOk (t : Nat) : Completes (execTileRecordArrive t s) (fun t => MemOk t.mem) := by
  fun_cases execTileRecordArrive <;> simp [hm.mem]

theorem execGroupCloseComplete_memOk (t g : Nat) : Completes (execGroupCloseComplete t g s) (fun t => MemOk t.mem) := by
  unfold execGroupCloseComplete
  split <;> simp [hm.mem]

end

end Sys2Proof.Machine
end

section
/-!
SUPPORT. What keeps memory in its canonical form, continued: strings and their instructions, the vector unit, attention,
collectives, experts and links.
-/
set_option Elab.async false
namespace Sys2Proof.Machine

section
variable {s : State} (hm : s.Sound)
include hm

/-! ### Sequencer -/

@[simp] theorem State.issue_memOk {f : State → State} (hf : ∀ s : SoundState, (f s).Sound) (x : Nat) (c : Touch)
    (stall : Option (Nat × Nat × Nat)) (go : Seq → Seq) : MemOk (s.issue x c stall go f).mem := by
  unfold State.issue
  dsimp only
  split
  · exact hm.mem
  · split
    · simp [hm.mem]
    · split
      · simp [hm.mem]
      · simp [memOk_apply hf, hm.mem]

@[simp] theorem State.readProg_memOk (x b : Nat) : MemOk (s.readProg x b).2.2.mem := by
  simp [hm.mem, State.readProg]

@[simp] theorem State.seqFault_memOk (x cause layer group extra : Nat) :
    MemOk (s.seqFault x cause layer group extra).mem := by
  unfold State.seqFault
  split <;> simp [hm.mem]

@[simp] theorem State.teamSeqFault_memOk (x t cause layer group extra : Nat) :
    MemOk (s.teamSeqFault x t cause layer group extra).mem := by
  unfold State.teamSeqFault
  split <;> simp [hm.mem]

@[simp] theorem State.seqFail_memOk (x : Nat) : MemOk (s.seqFail x).mem := by
  unfold State.seqFail
  split <;> simp [hm.mem]

@[simp] theorem State.retain_memOk (x p step layer : Nat) (b : List Nat) : MemOk (s.retain x p step layer b).mem :=
  State.storeInput_memOk ⟨by simp [hm.mem]⟩ ..

@[simp] theorem State.retainOverflow_memOk (id : Nat) : MemOk (s.retainOverflow id).mem := by
  unfold State.retainOverflow
  split <;> simp [hm.mem]

@[simp] theorem State.vec_memOk (x layer group a vectors : Nat) (y : Step) :
    MemOk (s.vec x layer group a vectors y).mem := by
  unfold State.vec
  extract_lets s1 l n q occ t r
  split
  · simp [hm.mem, s1]
  · split
    · simp [hm.mem, s1]
    · split
      · simp [hm.mem, s1]
      · split
        · simp [hm.mem, r, s1]
        · split <;> simp [hm.mem, r, s1]

@[simp] theorem State.loadModel_memOk (x m : Nat) (y : Step) : MemOk (s.loadModel x m y).mem := by
  simp [hm.mem, State.loadModel]

@[simp] theorem State.loadRecord_memOk (x unit : Nat) (remote : List (Nat × List Nat)) (e : Nat × Place) :
    MemOk (s.loadRecord x unit remote e).mem := by
  unfold State.loadRecord
  repeat' split
  all_goals simp [hm.mem]

theorem execLda_memOk (x a off : Nat) : Completes (execLda x a off s) (fun t => MemOk t.mem) := by
  unfold execLda
  split
  · simp [hm.mem]
  · rw [completes_next]
    refine State.issue_memOk hm (fun s => ⟨?_⟩) ..
    simp

theorem execGopen_memOk (x team a : Nat) : Completes (execGopen x team a s) (fun t => MemOk t.mem) := by
  unfold execGopen
  split
  · simp [hm.mem]
  · rw [completes_next]
    refine State.issue_memOk hm (fun s => ⟨?_⟩) ..
    simp

theorem execVec_memOk (x layer group a vectors : Nat) :
    Completes (execVec x layer group a vectors s) (fun t => MemOk t.mem) := by
  unfold execVec
  split <;> simp [hm.mem]

theorem execLoadm_memOk (x model : Nat) : Completes (execLoadm x model s) (fun t => MemOk t.mem) := by
  unfold execLoadm
  split <;> simp [hm.mem]

theorem execLoadmComplete_memOk (x model : Nat) (remote : List (Nat × List Nat)) :
    Completes (execLoadmComplete x model remote s) (fun t => MemOk t.mem) := by
  unfold execLoadmComplete
  split <;> simp [hm.mem]

theorem execBadInstructionFetch_memOk (x : Nat) : Completes (execBadInstructionFetch x s) (fun t => MemOk t.mem) := by
  unfold execBadInstructionFetch
  split
  · simp [hm.mem]
  · extract_lets pos r
    split
    · simp [hm.mem]
    · split
      · simp [hm.mem]
      · split
        · simp [hm.mem, r]
        · split <;> simp [hm.mem, r]

/-! ### VectorUnit -/

@[simp] theorem State.readAll_memOk (u : Nat) (l : List (Nat × Nat)) : MemOk (s.readAll u l).2.2.mem := by
  induction l generalizing s with
  | nil => simp [hm.mem, State.readAll]
  | cons c cs ih => simp [hm.mem, State.readAll, ih]

@[simp] theorem State.vuRun_memOk {after : State → State} (ha : ∀ s : SoundState, (after s).Sound) (x t : Nat)
    (y : Step) (reads : List (Nat × Nat)) (dst : Nat × Nat) (f : List (List Nat) → List Nat) :
    MemOk (s.vuRun x t y reads dst f after).mem := by
  unfold State.vuRun
  split
  · simp [hm.mem]
  · extract_lets r
    split
    · simp [r, hm.mem]
    · exact memOk_apply ha (by simp [r, hm.mem])

@[simp] theorem State.vuIssue_memOk {after : State → State} (ha : ∀ s : SoundState, (after s).Sound)
    (x team : Nat) (y : Step) (reads : List (Nat × Nat)) (dst : Nat × Nat) (f : List (List Nat) → List Nat) :
    MemOk (s.vuIssue x team y reads dst f after).mem := by
  have h (s : SoundState) (t : Nat) : (s.val.vuRun x t y reads dst f after).Sound := ⟨State.vuRun_memOk s.property ha ..⟩
  unfold State.vuIssue
  exact State.issue_memOk hm (fun s => h s _) ..

@[simp] theorem State.vu1_memOk (x team : Nat) (half : Bool) (a d count cnt : Nat) (f : List Nat → List Nat) :
    MemOk (s.vu1 x team half a d count cnt f).mem := by
  unfold State.vu1
  split <;> simp [hm.mem]

@[simp] theorem State.vu2_memOk (x team : Nat) (half : Bool) (a b d count cnt : Nat) (f : List Nat → List Nat → List Nat) :
    MemOk (s.vu2 x team half a b d count cnt f).mem := by
  unfold State.vu2
  split <;> simp [hm.mem]

theorem execVuCopy_memOk (x team : Nat) (half : Bool) (a d count : Nat) :
    Completes (execVuCopy x team half a d count s) (fun t => MemOk t.mem) := by
  simp [hm.mem, execVuCopy]

theorem execVuAdd_memOk (x team : Nat) (half : Bool) (a b d count : Nat) :
    Completes (execVuAdd x team half a b d count s) (fun t => MemOk t.mem) := by
  simp [hm.mem, execVuAdd]

theorem execVuMul_memOk (x team : Nat) (half : Bool) (a b d count : Nat) :
    Completes (execVuMul x team half a b d count s) (fun t => MemOk t.mem) := by
  simp [hm.mem, execVuMul]

theorem execVuFma_memOk (x team : Nat) (half : Bool) (a b d count : Nat) :
    Completes (execVuFma x team half a b d count s) (fun t => MemOk t.mem) := by
  unfold execVuFma
  split <;> simp [hm.mem]

theorem execVuMax_memOk (x team : Nat) (half : Bool) (a b d count : Nat) :
    Completes (execVuMax x team half a b d count s) (fun t => MemOk t.mem) := by
  simp [hm.mem, execVuMax]

theorem execVuSum_memOk (x team : Nat) (half : Bool) (a d count : Nat) :
    Completes (execVuSum x team half a d count s) (fun t => MemOk t.mem) := by
  unfold execVuSum
  split <;> simp [hm.mem]

theorem execVuExp_memOk (x team : Nat) (half : Bool) (a d count : Nat) :
    Completes (execVuExp x team half a d count s) (fun t => MemOk t.mem) := by
  simp [hm.mem, execVuExp]

theorem execVuRsqrt_memOk (x team : Nat) (half : Bool) (a d count : Nat) :
    Completes (execVuRsqrt x team half a d count s) (fun t => MemOk t.mem) := by
  simp [hm.mem, execVuRsqrt]

theorem execVuRecip_memOk (x team : Nat) (half : Bool) (a d count : Nat) :
    Completes (execVuRecip x team half a d count s) (fun t => MemOk t.mem) := by
  simp [hm.mem, execVuRecip]

theorem execVuSilu_memOk (x team : Nat) (half : Bool) (a d count : Nat) :
    Completes (execVuSilu x team half a d count s) (fun t => MemOk t.mem) := by
  simp [hm.mem, execVuSilu]

theorem execVuGelu_memOk (x team : Nat) (half : Bool) (a d count : Nat) :
    Completes (execVuGelu x team half a d count s) (fun t => MemOk t.mem) := by
  simp [hm.mem, execVuGelu]

theorem execVuRmsnorm_memOk (x team : Nat) (half : Bool) (a b d count : Nat) :
    Completes (execVuRmsnorm x team half a b d count s) (fun t => MemOk t.mem) := by
  simp [hm.mem, execVuRmsnorm]

theorem execVuSoftmax_memOk (x team : Nat) (half : Bool) (a d count : Nat) :
    Completes (execVuSoftmax x team half a d count s) (fun t => MemOk t.mem) := by
  simp [hm.mem, execVuSoftmax]

theorem execVuRope_memOk (x team : Nat) (half : Bool) (a b d count : Nat) :
    Completes (execVuRope x team half a b d count s) (fun t => MemOk t.mem) := by
  unfold execVuRope
  split <;> simp [hm.mem]

@[simp] theorem State.gather_memOk (x t : Nat) (y : Step) (half : Bool) (a b d count : Nat) :
    MemOk (s.gather x t y half a b d count).mem := by
  unfold State.gather
  extract_lets ew r as q
  have hr : r.2.2.Sound := ⟨by simp [r, hm.mem]⟩
  split
  · simp [hm.mem]
  · split
    · simp [hr.mem]
    · split
      · simp [hr.mem]
      · split <;> simp [q, hr.mem]

@[simp] theorem State.scatter_memOk (x t : Nat) (y : Step) (half : Bool) (a b d count : Nat) :
    MemOk (s.scatter x t y half a b d count).mem := by
  unfold State.scatter
  extract_lets ew r ds ws
  split
  · simp [hm.mem]
  · split
    · simp [hm.mem, r]
    · split <;> simp [hm.mem, r]

theorem execVuGather_memOk (x team : Nat) (half : Bool) (a b d count : Nat) :
    Completes (execVuGather x team half a b d count s) (fun t => MemOk t.mem) := by
  unfold execVuGather
  split <;> simp [hm.mem]

theorem execVuScatter_memOk (x team : Nat) (half : Bool) (a b d count : Nat) :
    Completes (execVuScatter x team half a b d count s) (fun t => MemOk t.mem) := by
  unfold execVuScatter
  split <;> simp [hm.mem]

theorem execVuToMx_memOk (x team : Nat) (half : Bool) (fmt a d count : Nat) :
    Completes (execVuToMx x team half fmt a d count s) (fun t => MemOk t.mem) := by
  unfold execVuToMx
  split
  · simp [hm.mem]
  · rw [completes_next]
    refine State.issue_memOk hm (fun s => ⟨?_⟩) ..
    dsimp only
    split
    · simp
    · split <;> simp

theorem execVuFromMx_memOk (x team : Nat) (half : Bool) (fmt a d count : Nat) :
    Completes (execVuFromMx x team half fmt a d count s) (fun t => MemOk t.mem) := by
  unfold execVuFromMx
  split <;> simp [hm.mem]

/-! ### Attention -/

@[simp] theorem State.writePage_memOk (u p : Nat) (x : Page) (off : Nat) (b : List Nat) :
    MemOk (s.writePage u p x off b).mem := by
  simp [hm.mem, State.writePage]

@[simp] theorem State.readPage_memOk (u p : Nat) (x : Page) (off n : Nat) : MemOk (s.readPage u p x off n).2.2.mem := by
  simp [hm.mem, State.readPage]

@[simp] theorem State.appendRow_memOk (t p slot : Nat) (d : AttnDesc) (c : CacheShape) (ks vs : List Nat) (n pos r : Nat) :
    MemOk (s.appendRow t p slot d c ks vs n pos r).mem := by
  unfold State.appendRow
  split
  · exact hm.mem
  · extract_lets x i m put s1 s2
    have hput (s : State) (hs : s.Sound) (h kind : Nat) (b : List Nat) : (put s h kind b).Sound := ⟨by simp [put, hs.mem]⟩
    have h1 : s1.Sound := ⟨State.each_memOk hm (fun s h => hput _ (hput _ s.property ..) ..) _⟩
    split
    · exact hm.mem
    · simp [s2, h1.mem]

@[simp] theorem State.appendRows_memOk (t p slot : Nat) (d : AttnDesc) (c : CacheShape) (n : Nat) (ks vs : List Nat) :
    MemOk (s.appendRows t p slot d c n ks vs).mem := by
  simp [hm.mem, State.appendRows]

@[simp] theorem State.poisonRead_memOk (x p id : Nat) : MemOk (s.poisonRead x p id).mem := by
  simp [hm.mem, State.poisonRead]

@[simp] theorem State.colVectors_memOk (t p : Nat) (c : CacheShape) (layer head kind : Nat) (ks : List Col) :
    MemOk (s.colVectors t p c layer head kind ks).2.2.mem := by
  induction ks generalizing s with
  | nil => exact hm.mem
  | cons k ks ih =>
    unfold State.colVectors
    extract_lets x sp a b r
    have hb : b.2.2.Sound := ⟨by simp [b, a, hm.mem]⟩
    split
    · exact hm.mem
    · split
      · exact hb.mem
      · exact ih hb

@[simp] theorem State.headVectors_memOk (t p : Nat) (c : CacheShape) (layer kind : Nat) (ks : List Col) (hs : List Nat) :
    MemOk (s.headVectors t p c layer kind ks hs).2.2.mem := by
  induction hs generalizing s with
  | nil => exact hm.mem
  | cons h hs ih =>
    unfold State.headVectors
    extract_lets a b
    have ha : a.2.2.Sound := ⟨by simp [a, hm.mem]⟩
    split
    · exact ha.mem
    · exact ih ha

@[simp] theorem State.kvRefuse_memOk (x t desc : Nat) : MemOk (s.kvRefuse x t desc).mem := by
  simp [hm.mem, State.kvRefuse]

@[simp] theorem State.scoreWrite_memOk (t at_ da dd n : Nat) (half byPos : Bool) (d : AttnDesc) (c : CacheShape) (next : Nat)
    (ks : List Col) (keys : List (List (List Nat))) (qs : List Nat) :
    MemOk (s.scoreWrite t at_ da dd n half byPos d c next ks keys qs).mem := by
  unfold State.scoreWrite
  extract_lets rows res s1 s2
  have h1 : s1.Sound := ⟨by simp [s1, hm.mem]⟩
  have h2 : s2.Sound := ⟨by simp [s2, h1.mem]⟩
  simp [h2.mem]

@[simp] theorem State.scoreRun_memOk (x t : Nat) (y : Step) (half : Bool) (aa da dd n : Nat) (d : AttnDesc) :
    MemOk (s.scoreRun x t y half aa da dd n d).mem := by
  unfold State.scoreRun
  extract_lets p c kvb nk s1 next mine app s2 ks bytes pages s3 cols s4 q2 kv
  have h1 : s1.Sound := ⟨by simp [s1, nk, hm.mem]⟩
  have h2 : s2.Sound := ⟨by simp [s2, h1.mem]⟩
  have hq : q2.2.2.Sound := ⟨by simp [q2, s4, s3, h2.mem]⟩
  have hkv : kv.2.2.Sound := ⟨by simp [kv, hq.mem]⟩
  split
  · simp [nk, hm.mem]
  · split
    · simp [h2.mem]
    · split
      · simp [hq.mem]
      · split <;> simp [hkv.mem]

@[simp] theorem State.score_memOk (x t : Nat) (y : Step) (half : Bool) (aa da dd n : Nat) :
    MemOk (s.score x t y half aa da dd n).mem := by
  simp [hm.mem, State.score]

theorem execVuScore_memOk (x team : Nat) (half : Bool) (a b d count : Nat) :
    Completes (execVuScore x team half a b d count s) (fun t => MemOk t.mem) := by
  unfold execVuScore
  split <;> simp [hm.mem]

@[simp] theorem State.addImportance_memOk (x t p decay : Nat) (k : Col) (ps : List Nat) :
    MemOk (s.addImportance x t p decay k ps).mem := by
  simp [hm.mem, State.addImportance]

@[simp] theorem State.valueRun_memOk (x t : Nat) (y : Step) (half : Bool) (aa da dd n : Nat) (d : AttnDesc) (sc : ScoreRec) :
    MemOk (s.valueRun x t y half aa da dd n d sc).mem := by
  unfold State.valueRun
  extract_lets p c rows ks stride sp byPos st kv stats page s1 outs s2 s3
  have hsp : sp.2.2.Sound := ⟨by simp [sp, hm.mem]⟩
  have hst : st.2.2.Sound := by
    simp only [st, State.sound_iff]
    split <;> simp [hsp.mem]
  have hkv : kv.2.2.Sound := ⟨by simp [kv, hst.mem]⟩
  have h1 : s1.Sound := ⟨by simp [s1, hkv.mem]⟩
  have h3 : s3.Sound := ⟨by simp [s3, s2, h1.mem]⟩
  split
  · simp [hst.mem]
  · split
    · simp [hkv.mem]
    · simp [h3.mem]

@[simp] theorem State.value_memOk (x t : Nat) (y : Step) (half : Bool) (aa da dd n : Nat) :
    MemOk (s.value x t y half aa da dd n).mem := by
  unfold State.value
  dsimp only
  split
  · simp [hm.mem]
  · split
    · simp [hm.mem]
    · split
      · simp [hm.mem]
      · split <;> simp [hm.mem]

theorem execVuValue_memOk (x team : Nat) (half : Bool) (a b d count : Nat) :
    Completes (execVuValue x team half a b d count s) (fun t => MemOk t.mem) := by
  unfold execVuValue
  split <;> simp [hm.mem]

/-! ### Collectives -/

@[simp] theorem State.inOrder_memOk {f : State → State} (hf : ∀ s : SoundState, (f s).Sound) (h : CtrlHdr)
    (subject : List Nat) : MemOk (s.inOrder h subject f).mem := by
  fun_cases State.inOrder
  · exact hm.mem
  · exact memOk_apply hf hm.mem
  · exact memOk_apply hf hm.mem

@[simp] theorem State.ctrlIn_memOk {f : State → State} (hf : ∀ s : SoundState, (f s).Sound) (p : Nat)
    (ok : Bool) (type : Nat) (h : CtrlHdr) (body : List Nat) : MemOk (s.ctrlIn p ok type h body f).mem := by
  unfold State.ctrlIn
  extract_lets s1 s2
  have h2 : MemOk (f (s2.remember h)).mem := memOk_apply hf (by simp [s2, s1, hm.mem])
  simp [h2, s2, s1, hm.mem]

@[simp] theorem State.unlessQuarantined_memOk {f : State → State} (hf : ∀ s : SoundState, (f s).Sound) :
    MemOk (s.unlessQuarantined f).mem := by
  unfold State.unlessQuarantined
  split
  · exact hm.mem
  · exact memOk_apply hf hm.mem

@[simp] theorem State.collFailStep_memOk (id : Nat) : MemOk (s.collFailStep id).mem := by
  unfold State.collFailStep
  split <;> simp [hm.mem]

@[simp] theorem State.abortColl_memOk (c : Coll) (code port : Nat) : MemOk (s.abortColl c code port).mem := by
  unfold State.abortColl
  extract_lets body s1 s2
  have h1 : s1.Sound := ⟨State.unlessQuarantined_memOk hm (fun s => ⟨by simp⟩)⟩
  have h2 : s2.Sound := ⟨by simp [s2, h1.mem]⟩
  split <;> simp [h2.mem]

@[simp] theorem State.finishColl_memOk (c : Coll) : MemOk (s.finishColl c).mem := by
  simp [hm.mem, State.finishColl]

@[simp] theorem State.runColl_memOk (p id n : Nat) : MemOk (s.runColl p id n).mem := by
  induction n generalizing s with
  | zero => exact hm.mem
  | succ n ih =>
    unfold State.runColl
    dsimp only
    split
    · exact hm.mem
    · split
      · simp [hm.mem]
      · split
        · exact ih ⟨hm.mem⟩
        · split
          · split
            · exact hm.mem
            · split
              · simp [hm.mem]
              · exact ih ⟨by simp [hm.mem]⟩
          · split
            · exact hm.mem
            · refine ih ⟨?_⟩
              rw [State.setColl_mem]
              refine State.each_memOk hm (fun s m => ⟨?_⟩) _
              split <;> simp

@[simp] theorem State.advanceColl_memOk (p id : Nat) : MemOk (s.advanceColl p id).mem := by
  unfold State.advanceColl
  split <;> simp [hm.mem]

@[simp] theorem State.startColl_memOk (x a : Nat) (y : Step) : MemOk (s.startColl x a y).mem := by
  unfold State.startColl
  extract_lets r s1 d st bad eb single out c q own buf c1 s2 tor s3
  have h1 : s1.Sound := ⟨by simp [s1, r, hm.mem]⟩
  have h2 : s2.Sound := ⟨by simp [s2, q, h1.mem]⟩
  have h3 : s3.Sound := ⟨h2.mem⟩
  simp [r, q, hm.mem, h1.mem, h3.mem]

theorem execColl_memOk (x a : Nat) : Completes (execColl x a s) (fun t => MemOk t.mem) := by
  unfold execColl
  split <;> simp [hm.mem]

@[simp] theorem State.ackHeld_memOk : MemOk (s.ackHeld).mem := by simp [hm.mem, State.ackHeld]

theorem execCollStep_memOk (p : Nat) (ok : Bool) (h : CtrlHdr) (id step dir session bytes check : Nat) :
    Completes (execCollStep p ok h id step dir session bytes check s) (fun t => MemOk t.mem) := by
  unfold execCollStep
  rw [completes_next]
  refine State.ctrlIn_memOk hm (fun s => ⟨State.unlessQuarantined_memOk s.property (fun s => ⟨?_⟩)⟩) ..
  dsimp only
  split
  · simp
  · split
    · simp
    · split <;> simp

theorem execCollAck_memOk (p : Nat) (ok : Bool) (h : CtrlHdr) (id step dir : Nat) :
    Completes (execCollAck p ok h id step dir s) (fun t => MemOk t.mem) := by
  unfold execCollAck
  rw [completes_next]
  refine State.ctrlIn_memOk hm (fun s => ⟨State.unlessQuarantined_memOk s.property (fun s => ⟨?_⟩)⟩) ..
  split <;> simp

theorem execCollAbort_memOk (p : Nat) (ok : Bool) (h : CtrlHdr) (id code port pos : Nat) :
    Completes (execCollAbort p ok h id code port pos s) (fun t => MemOk t.mem) := by
  unfold execCollAbort
  rw [completes_next]
  refine State.ctrlIn_memOk hm (fun s => ⟨State.unlessQuarantined_memOk s.property (fun s =>
    ⟨State.inOrder_memOk s.property (fun s => ⟨?_⟩) ..⟩)⟩) ..
  split <;> simp

theorem execCollTimeout_memOk (part id : Nat) : Completes (execCollTimeout part id s) (fun t => MemOk t.mem) := by
  unfold execCollTimeout
  split <;> simp [hm.mem]

@[simp] theorem State.rerouteColls_memOk (p : Nat) : MemOk (s.rerouteColls p).mem := by
  refine State.each_memOk hm (fun s c0 => ⟨?_⟩) _
  split
  · simp
  · extract_lets q s1
    have hq : q.2.Sound := by
      refine List.foldlRecOn (motive := fun a : List CollSend × State => a.2.Sound) _ _ s.property (fun a ha x _ => ?_)
      split <;> simp [ha.mem]
    have h1 : s1.Sound := ⟨by simp [s1, hq.mem]⟩
    split <;> simp [h1.mem]

@[simp] theorem State.fenceColls_memOk (pos : Nat) : MemOk (s.fenceColls pos).mem := by
  simp [hm.mem, State.fenceColls]

/-! ### Experts -/

@[simp] theorem State.listedInput_memOk (x p a : Nat) (l : Layer) (vs : List Nat) :
    MemOk (s.listedInput x p a l vs).2.2.2.mem :=
  List.foldlRecOn (motive := fun a : List (Nat × Nat × List Nat) × Bool × Bool × State => MemOk a.2.2.2.mem) _ _ hm.mem
    (fun _ ha _ _ => State.readThrough_memOk ⟨ha⟩ ..)

@[simp] theorem State.listedAgain_memOk (x p a : Nat) (l : Layer) (vs : List Nat) (r : Retained) :
    MemOk (s.listedAgain x p a l vs r).2.2.2.mem := by
  simp [hm.mem, State.listedAgain]

@[simp] theorem State.expertWork_memOk (x p a : Nat) (y : Step) (h : List Nat) (e : Expert) (vs : List Nat) :
    MemOk (s.expertWork x p a y h e vs).2.2.2.mem := by
  refine List.foldlRecOn (motive := fun a : List ExpertWork × Bool × Bool × State => MemOk a.2.2.2.mem) _ _ hm.mem
    (fun b hb l _ => ?_)
  have hb : b.2.2.2.Sound := ⟨hb⟩
  dsimp only
  split <;> split <;> simp [hb.mem]

@[simp] theorem State.fire_memOk (x a out : Nat) (y : Step) (h : List Nat) (c : Nat × List (Nat × Nat)) :
    MemOk (s.fire x a out y h c).2.mem := by
  unfold State.fire
  extract_lets e rest r s1 w q n s2 k call s3 tor s4
  have h1 : s1.Sound := ⟨by simp [s1, r, hm.mem]⟩
  have h2 : s2.Sound := ⟨by simp [s2, q, h1.mem]⟩
  have h4 : s4.Sound := ⟨by simp [s4, s3, k, h2.mem]⟩
  split
  · exact hm.mem
  · split
    · simp [hm.mem]
    · split
      · simp [hm.mem]
      · split
        · exact State.seqFail_memOk h1 x
        · split
          · simp [h1.mem]
          · simp [h1.mem]
          · split
            · simp [q, h1.mem]
            · simp [h4.mem]

@[simp] theorem State.fireAll_memOk (x a : Nat) (y : Step) (h : List Nat) (out : Nat) (l : List (Nat × List (Nat × Nat))) :
    MemOk (s.fireAll x a y h out l).mem := by
  induction l generalizing s out with
  | nil => simp [hm.mem, State.fireAll]
  | cons c cs ih => simp [hm.mem, State.fireAll, ih]

@[simp] theorem State.gate_memOk (x set topk inp disp vectors : Nat) (y : Step) :
    MemOk (s.gate x set topk inp disp vectors y).mem := by
  unfold State.gate
  extract_lets h s1 k n r es s2 cs b s3 home
  have h1 : s1.Sound := ⟨by simp [s1, hm.mem]⟩
  have h2 : s2.Sound := ⟨by simp [s2, r, h1.mem]⟩
  simp [h1.mem, h2.mem, r, s3]

theorem execGate_memOk (x set topk inp disp vectors : Nat) :
    Completes (execGate x set topk inp disp vectors s) (fun t => MemOk t.mem) := by
  unfold execGate
  split <;> simp [hm.mem]

@[simp] theorem State.loadExpert_memOk (x unit : Nat) (e : Nat × Place) : MemOk (s.loadExpert x unit e).mem := by
  simp [hm.mem, State.loadExpert]

@[simp] theorem State.expertGoes_memOk (x p : Nat) (r : ExpertRun) : MemOk (s.expertGoes x p r).2.mem := by
  unfold State.expertGoes
  split <;> simp [hm.mem]

@[simp] theorem State.expertsGo_memOk (x : Nat) : MemOk (s.expertsGo x).mem := by
  unfold State.expertsGo
  split <;> simp [hm.mem]

theorem execRemoteTierWaitExpire_memOk (x : Nat) (expert : Bool) (n : Nat) :
    Completes (execRemoteTierWaitExpire x expert n s) (fun t => MemOk t.mem) := by
  unfold execRemoteTierWaitExpire
  dsimp only
  split
  · simp [hm.mem]
  · split
    · split
      · simp [hm.mem]
      · split <;> simp [hm.mem]
    · split
      · simp [hm.mem]
      · split <;> simp [hm.mem]

theorem execBeatBoundary_memOk (wrong : List (Nat × Nat × Nat × Int)) (missing : List (Nat × Nat × Nat)) :
    Completes (execBeatBoundary wrong missing s) (fun t => MemOk t.mem) := by
  simp [hm.mem, execBeatBoundary]

@[simp] theorem State.collect_memOk (c : ExpCall) : MemOk (s.collect c).mem := by
  unfold State.collect
  repeat' split
  all_goals simp [hm.mem]

@[simp] theorem State.collectAll_memOk : MemOk (s.collectAll).mem := by simp [hm.mem, State.collectAll]

@[simp] theorem State.failCall_memOk (c : ExpCall) (code : Nat) : MemOk (s.failCall c code).mem := by
  simp [hm.mem, State.failCall]

theorem execExpertDone_memOk (p : Nat) (ok : Bool) (h : CtrlHdr) (id code session : Nat) :
    Completes (execExpertDone p ok h id code session s) (fun t => MemOk t.mem) := by
  unfold execExpertDone
  rw [completes_next]
  refine State.ctrlIn_memOk hm (fun s => ⟨State.unlessQuarantined_memOk s.property (fun s => ⟨?_⟩)⟩) ..
  split
  · simp
  · split <;> simp

@[simp] theorem State.callLost_memOk (id : Nat) : MemOk (s.callLost id).mem := by
  unfold State.callLost
  repeat' split
  all_goals simp [hm.mem]

theorem execExpertCallTimeout_memOk (id : Nat) : Completes (execExpertCallTimeout id s) (fun t => MemOk t.mem) := by
  simp [hm.mem, execExpertCallTimeout]

/-! ### Links -/

@[simp] theorem State.portDown_memOk (p cause : Nat) : MemOk (s.portDown p cause).mem := by
  simp [hm.mem, State.portDown]

theorem execLaserLow_memOk (p : Nat) : Completes (execLaserLow p s) (fun t => MemOk t.mem) := by
  simp [hm.mem, execLaserLow]

@[simp] theorem State.attemptFails_memOk (p : Nat) : MemOk (s.attemptFails p).mem := by
  simp [hm.mem, State.attemptFails]

theorem execTrainingAttemptEnd_memOk (p : Nat) (good : List Nat) (lock : Bool) (hello : Option (List Nat)) :
    Completes (execTrainingAttemptEnd p good lock hello s) (fun t => MemOk t.mem) := by
  unfold execTrainingAttemptEnd
  repeat' split
  all_goals simp [hm.mem]

theorem execTrainingTimeLimit_memOk (p : Nat) : Completes (execTrainingTimeLimit p s) (fun t => MemOk t.mem) := by
  simp [hm.mem, execTrainingTimeLimit]

theorem execDiscoveryDeadline_memOk (lit : List Nat) : Completes (execDiscoveryDeadline lit s) (fun t => MemOk t.mem) := by
  simp [hm.mem, execDiscoveryDeadline]

@[simp] theorem State.unreachable_memOk (u : Unacked) : MemOk (s.unreachable u).mem := by
  fun_cases State.unreachable <;> simp [hm.mem]

theorem execCtrlRetransmit_memOk (unit seq : Nat) : Completes (execCtrlRetransmit unit seq s) (fun t => MemOk t.mem) := by
  unfold execCtrlRetransmit
  split
  · simp [hm.mem]
  · dsimp only
    split
    · simp [hm.mem]
    · split
      · rw [completes_next]
        split
        · simp [hm.mem]
        · split <;> simp [hm.mem]
      · simp [hm.mem]

@[simp] theorem State.learnRevoke_memOk (r : Rev) : MemOk (s.learnRevoke r).mem := by
  simp [hm.mem, State.learnRevoke]

theorem execRevoke_memOk (p : Nat) (ok : Bool) (h : CtrlHdr) (pos unit inc : Nat) :
    Completes (execRevoke p ok h pos unit inc s) (fun t => MemOk t.mem) := by
  unfold execRevoke
  rw [completes_next]
  refine State.ctrlIn_memOk hm (fun s => ⟨?_⟩) ..
  refine State.withRev_memOk s.property (fun s => ⟨?_⟩) _
  simp

theorem execRevoked_memOk (p : Nat) (ok : Bool) (h : CtrlHdr) (pos unit inc : Nat) :
    Completes (execRevoked p ok h pos unit inc s) (fun t => MemOk t.mem) := by
  unfold execRevoked
  rw [completes_next]
  refine State.ctrlIn_memOk hm (fun s => ⟨?_⟩) ..
  split
  · simp
  · refine State.withRev_memOk s.property (fun s => ⟨?_⟩) _
    simp

@[simp] theorem State.torRevoke_memOk (pos inc : Nat) : MemOk (s.torRevoke pos inc).mem := by
  simp [hm.mem, State.torRevoke]

theorem execTorRevoke_memOk (pos : Nat) : Completes (execTorRevoke pos s) (fun t => MemOk t.mem) := by
  simp [hm.mem, execTorRevoke]

end

end Sys2Proof.Machine
end

section
/-!
SUPPORT. What keeps memory in its canonical form, continued: caches, slots, plans, steps, loads, sweeps, partitions, images,
starts, host reads, debug and the accesses of the port.
-/
set_option Elab.async false
namespace Sys2Proof.Machine

section
variable {s : State} (hm : s.Sound)
include hm

/-! ### Thermal -/

@[simp] theorem State.loseString_memOk (x : Nat) : MemOk (s.loseString x).mem := by
  simp [hm.mem, State.loseString]

@[simp] theorem State.failSensor_memOk (i : Nat) : MemOk (s.failSensor i).mem := by
  simp [hm.mem, State.failSensor]

@[simp] theorem State.compareSensors_memOk (x : Nat) : MemOk (s.compareSensors x).mem := by
  simp [hm.mem, State.compareSensors]

@[simp] theorem State.retrimString_memOk (x : Nat) : MemOk (s.retrimString x).mem := by
  have h : (s.each (s.listedTeams.filter (fun t => teamString t == x)) (fun s t =>
      s.each (s.teamTiles t) (fun s k => s.retrimTo true t k))).Sound :=
    ⟨State.each_memOk hm (fun s t => ⟨by simp⟩) _⟩
  simp [State.retrimString, h.mem]

@[simp] theorem State.settleTemps_memOk (i : Nat) : MemOk (s.settleTemps i).mem := by
  simp [hm.mem, State.settleTemps]

@[simp] theorem State.takeSample_memOk (i : Nat) (was : Bool) : MemOk (s.takeSample i was).mem := by
  simp [hm.mem, State.takeSample]

theorem execThermalSample_memOk (i : Nat) (temp : Int) : Completes (execThermalSample i temp s) (fun t => MemOk t.mem) := by
  simp [hm.mem, execThermalSample]

/-! ### Reserve -/

@[simp] theorem State.evictScore_memOk (p : Nat) (e : Entry) : MemOk (s.evictScore p e).2.mem := by
  simp [hm.mem, State.evictScore]

@[simp] theorem State.evictPick_memOk (p slot c : Nat) : MemOk (s.evictPick p slot c).2.mem :=
  List.foldlRecOn (motive := fun a : Option (Rat × Entry) × State => MemOk a.2.mem) _ _ hm.mem
    (fun _ ha _ _ => State.evictScore_memOk ⟨ha⟩ ..)

@[simp] theorem State.evictOne_memOk (p slot c : Nat) : MemOk (s.evictOne p slot c).2.mem := by
  unfold State.evictOne
  dsimp only
  split <;> simp [hm.mem]

@[simp] theorem State.evictUntil_memOk (p slot c : Nat) (done : State → Bool) (l : Nat) :
    MemOk (s.evictUntil p slot c done l).mem := by
  induction l generalizing s with
  | zero => simp [hm.mem, State.evictUntil]
  | succ n ih => simp [hm.mem, State.evictUntil, ih]

@[simp] theorem State.fitTables_memOk (p slot upto : Nat) : MemOk (s.fitTables p slot upto).mem := by
  simp [hm.mem, State.fitTables]

@[simp] theorem State.takeAll_memOk {take : State → State} (ht : ∀ s : SoundState, (take s).Sound) (p g : Nat) :
    MemOk (s.takeAll p g take).mem := by
  unfold State.takeAll
  extract_lets w x s1
  have h1 : MemOk s1.mem := memOk_apply ht (by simp [w, hm.mem])
  simp [h1]

@[simp] theorem State.secureNeed_memOk {take : State → Reserved × State} (ht : ∀ s : SoundState, (take s).2.Sound)
    (p g rows : Nat) (ns : State → List CacheNeed) : MemOk (s.secureNeed p g rows ns take).2.mem := by
  unfold State.secureNeed
  extract_lets k s1 need failed hs s2
  have h1 : s1.Sound := ⟨by simp [s1, hm.mem]⟩
  have hgo : MemOk (take s1).2.mem := @memOk_apply (fun s => (take s).2) ht s1 h1.mem
  simp [s2, h1.mem, hgo]

@[simp] theorem State.reserve_memOk (p g rows : Nat) : MemOk (s.reserve p g rows).2.mem := by
  simp [hm.mem, State.reserve]

@[simp] theorem State.moveBytes_memOk (p n : Nat) (x : Page) (host : List Nat) : MemOk (s.moveBytes p n x host).2.2.mem := by
  simp [hm.mem, State.moveBytes]

@[simp] theorem State.placeBytes_memOk (p : Nat) (x : Page) (b : List Nat) : MemOk (s.placeBytes p x b).mem := by
  simp [hm.mem, State.placeBytes]

@[simp] theorem State.endMove_memOk (m : Move) (host : List Nat) : MemOk (s.endMove m host).mem := by
  simp [hm.mem, State.endMove]

@[simp] theorem State.copyParts_memOk (p : Nat) (x y : Page) (view : Nat) (b : List Nat) :
    MemOk (s.copyParts p x y view b).mem := by
  unfold State.copyParts
  extract_lets c s1
  have h1 : s1.Sound := ⟨by simp [s1, hm.mem]⟩
  refine State.each_memOk h1 (fun s i => ⟨?_⟩) _
  exact State.each_memOk s.property (fun s j => ⟨by simp⟩) _

@[simp] theorem State.endCopy_memOk (m : Move) : MemOk (s.endCopy m).mem := by simp [hm.mem, State.endCopy]

theorem execPageMoveComplete_memOk (p page : Nat) (err : Bool) (host : List Nat) :
    Completes (execPageMoveComplete p page err host s) (fun t => MemOk t.mem) := by
  unfold execPageMoveComplete
  split
  · simp [hm.mem]
  · extract_lets src s1 s2 src s3 src s4
    split
    · simp [hm.mem, s4, s3, s2, s1]
    · split <;> simp [hm.mem, s1]

@[simp] theorem State.forkCopy_memOk (p slot c : Nat) (e : Entry) : MemOk (s.forkCopy p slot c e).mem := by
  unfold State.forkCopy
  dsimp only
  split <;> simp [hm.mem]

@[simp] theorem State.forkTake_memOk (p g : Nat) : MemOk (s.forkTake p g).2.mem := by
  unfold State.forkTake
  extract_lets d k s1
  have h1 : MemOk s1.mem := by
    refine State.takeAll_memOk hm (fun s => ⟨State.each_memOk s.property (fun s c => ⟨?_⟩) _⟩) _ _
    simp
  split <;> simp [h1]

@[simp] theorem State.fork_memOk (p g rows : Nat) : MemOk (s.fork p g rows).2.mem := by
  simp [hm.mem, State.fork]

@[simp] theorem State.secure_memOk (p g rows : Nat) : MemOk (s.secure p g rows).2.mem := by
  unfold State.secure
  extract_lets x r
  split
  · split <;> simp [hm.mem, r]
  · simp [hm.mem]

theorem execPageWaitRetry_memOk (g : Nat) : Completes (execPageWaitRetry g s) (fun t => MemOk t.mem) := by
  unfold execPageWaitRetry
  split
  · simp [hm.mem]
  · split
    · simp [hm.mem]
    · rw [completes_next]
      split <;> simp [hm.mem]

/-! ### Slots -/

@[simp] theorem State.finishRun_memOk (p g code : Nat) (yielded : Bool) (count : Nat) (bytes : List Nat) :
    MemOk (s.finishRun p g code yielded count bytes).mem := by
  simp [hm.mem, State.finishRun]

@[simp] theorem State.readDesc_memOk (g : Nat) : MemOk (s.readDesc g).2.mem := by
  simp [hm.mem, State.readDesc]

@[simp] theorem State.cmdArm_memOk (p g : Nat) : MemOk (s.cmdArm p g).mem := by simp [hm.mem, State.cmdArm]

@[simp] theorem State.continueRun_memOk (p g : Nat) (d : Desc) : MemOk (s.continueRun p g d).mem := by
  simp [hm.mem, State.continueRun]

@[simp] theorem State.cmdContinue_memOk (p g : Nat) : MemOk (s.cmdContinue p g).mem := by
  simp [hm.mem, State.cmdContinue]

@[simp] theorem State.cmdCancel_memOk (p g : Nat) : MemOk (s.cmdCancel p g).mem := by
  unfold State.cmdCancel
  extract_lets x s1
  split
  · simp [hm.mem]
  · split
    · split <;> simp [hm.mem, s1]
    · simp [hm.mem, s1]

@[simp] theorem State.slotCmd_memOk (p g cmd : Nat) : MemOk (s.slotCmd p g cmd).mem := by
  unfold State.slotCmd
  split <;> simp [hm.mem]

@[simp] theorem State.onSlot_memOk {f : Nat → State} (hf : ∀ p, (f p).Sound) (g : Nat) : MemOk (s.onSlot g f).mem := by
  unfold State.onSlot
  split
  · exact (hf _).mem
  · exact hm.mem

theorem execArm_memOk (g : Nat) : Completes (execArm g s) (fun t => MemOk t.mem) := by simp [hm.mem, execArm]

theorem execContinueSlot_memOk (g : Nat) : Completes (execContinueSlot g s) (fun t => MemOk t.mem) := by
  simp [hm.mem, execContinueSlot]

theorem execCancel_memOk (g : Nat) : Completes (execCancel g s) (fun t => MemOk t.mem) := by
  simp [hm.mem, execCancel]

@[simp] theorem State.descWrite_memOk (g off : Nat) (b : List Nat) : MemOk (s.descWrite g off b).mem := by
  unfold State.descWrite
  extract_lets keep s1
  have h1 : s1.Sound := ⟨by simp [s1, hm.mem]⟩
  simp [h1.mem]

theorem execSlotDescriptorWrite_memOk (fn off : Nat) (bytes : List Nat) (poison : Bool) :
    Completes (execSlotDescriptorWrite fn off bytes poison s) (fun t => MemOk t.mem) := by
  unfold execSlotDescriptorWrite
  repeat' split
  all_goals simp [hm.mem]

@[simp] theorem State.resultRead_memOk (fn k off n : Nat) : MemOk (s.resultRead fn k off n).mem := by
  unfold State.resultRead
  repeat' split
  all_goals simp [hm.mem]

theorem execResultPayloadRead_memOk (fn k off n : Nat) :
    Completes (execResultPayloadRead fn k off n s) (fun t => MemOk t.mem) := by
  simp [hm.mem, execResultPayloadRead]

/-! ### Plan -/

@[simp] theorem State.writeBatch_memOk (p a0 a1 : Nat) (attn : List (List Nat)) (es : List (Nat × StepSeq)) :
    MemOk (s.writeBatch p a0 a1 attn es).mem := by
  unfold State.writeBatch
  extract_lets held base
  refine State.each_memOk hm (fun s e => ⟨?_⟩) _
  extract_lets d x s1 s2
  have h1 : s1.Sound := ⟨by simp [s1]⟩
  have h2 : s2.Sound := ⟨by simp [s2, h1.mem]⟩
  simp [h2.mem]

@[simp] theorem State.createStep_memOk (p m a0 a1 a2 a2b : Nat) (attn : List (List Nat)) (es : List (Nat × StepSeq)) :
    MemOk (s.createStep p m a0 a1 a2 a2b attn es).mem := by
  unfold State.createStep
  dsimp only
  split <;> simp [hm.mem]

omit hm in
@[simp] theorem PlanState.join_memOk {a : PlanState} (ha : a.s.Sound) (p g rows propose kind : Nat) :
    MemOk (a.join p g rows propose kind).s.mem := by
  unfold PlanState.join
  dsimp only
  split <;> simp [ha.mem]

omit hm in
@[simp] theorem PlanState.decode_memOk {a : PlanState} (ha : a.s.Sound) (p tokens seqs g : Nat) :
    MemOk (a.decode p tokens seqs g).s.mem := by
  unfold PlanState.decode
  split <;> simp [ha.mem]

omit hm in
@[simp] theorem PlanState.prompt_memOk {a : PlanState} (ha : a.s.Sound) (p tokens seqs lo hi g : Nat) :
    MemOk (a.prompt p tokens seqs lo hi g).s.mem := by
  unfold PlanState.prompt
  dsimp only
  split <;> simp [ha.mem]

theorem State.faultOversize_memOk (p m lo : Nat) (gone : List (Nat × StepSeq)) :
    MemOk (s.each gone (fun s e => if s.overRetained p m [smallest lo (s.slot e.1) e.2] then s.faultSlot p e.1 cOversize
      else s)).mem := by
  refine State.each_memOk hm (fun s e => ⟨?_⟩) gone
  split <;> simp

theorem execStepPlan_memOk (p m a0 a1 a2 a2b : Nat) (attn : List (List Nat)) :
    Completes (execStepPlan p m a0 a1 a2 a2b attn s) (fun t => MemOk t.mem) := by
  unfold execStepPlan
  split
  · exact (completes_next _ _).2 hm.mem
  · extract_lets tokens lo hi seqs a b keep gone s1
    have ha : a.s.Sound := List.foldlRecOn (motive := fun a : PlanState => a.s.Sound) _ _ hm
      (fun a ha g _ => ⟨PlanState.decode_memOk ha p tokens seqs g⟩)
    have hb : b.s.Sound := List.foldlRecOn (motive := fun a : PlanState => a.s.Sound) _ _ ⟨ha.mem⟩
      (fun a ha g _ => ⟨PlanState.prompt_memOk ha p tokens seqs lo hi g⟩)
    have h1 : s1.Sound := ⟨by simp [s1, hb.mem]⟩
    have h2 := State.faultOversize_memOk h1 p m lo gone
    rw [completes_next]
    split
    · exact h2
    · exact State.createStep_memOk ⟨h2⟩ ..

@[simp] theorem State.chunkTokens_memOk (g : Nat) (e : StepSeq) (host : List Nat) :
    MemOk (s.chunkTokens g e host).2.2.mem := by
  unfold State.chunkTokens
  split <;> simp [hm.mem]

theorem execInputPullComplete_memOk (g : Nat) (err : Bool) (host : List Nat) :
    Completes (execInputPullComplete g err host s) (fun t => MemOk t.mem) := by
  unfold execInputPullComplete
  split <;> simp [hm.mem]

/-! ### Milepost -/

@[simp] theorem State.copyDump_memOk (x tag attempt i : Nat) : MemOk (s.copyDump x tag attempt i).mem := by
  unfold State.copyDump
  split
  · exact hm.mem
  · extract_lets a r head s1
    have hr : r.2.2.Sound := ⟨by simp [r, hm.mem]⟩
    have h1 : s1.Sound := ⟨by simp [s1, hr.mem]⟩
    split <;> simp [hm.mem, h1.mem]

theorem execMilepost_memOk (x tag : Nat) : Completes (execMilepost x tag s) (fun t => MemOk t.mem) := by
  unfold execMilepost
  split
  · simp [hm.mem]
  · rw [completes_next]
    refine State.issue_memOk hm (fun s => ⟨?_⟩) ..
    simp

@[simp] theorem State.readRows_memOk (a2 stride n : Nat) (l : List Nat) : MemOk (s.readRows a2 stride n l).2.2.mem := by
  induction l generalizing s with
  | nil => simp [hm.mem, State.readRows]
  | cons c cs ih => simp [hm.mem, State.readRows, ih]

@[simp] theorem State.settleSlot_memOk (y : Step) (g : Nat) (o : Yield) (vec : List Nat) :
    MemOk (s.settleSlot y g o vec).mem := by
  unfold State.settleSlot
  split <;> simp [hm.mem]

@[simp] theorem State.commitSeq_memOk (y : Step) (g : Nat) (e : StepSeq) (o : Yield) (vec : List Nat) :
    MemOk (s.commitSeq y g e o vec).mem := by
  simp [hm.mem, State.commitSeq]

@[simp] theorem State.commitStep_memOk (y : Step) (rows : List (Nat × List Nat)) (sel : Nat → StepSeq → Nat → Nat) :
    MemOk (s.commitStep y rows sel).mem := by
  simp [hm.mem, State.commitStep]

@[simp] theorem State.commitAlone_memOk (y : Step) : MemOk (s.commitAlone y).mem := by
  simp [hm.mem, State.commitAlone]

@[simp] theorem State.commitTwins_memOk (y z : Step) : MemOk (s.commitTwins y z).mem := by
  unfold State.commitTwins
  extract_lets n qa qb s1 live cmp bad s2 again s3 ties s4 s5
  have h1 : s1.Sound := ⟨by simp [s1, qb, qa, hm.mem]⟩
  have h4 : s4.Sound := ⟨by simp [s4, s3, h1.mem]⟩
  have h5 : s5.Sound := ⟨by simp [s5, h4.mem]⟩
  split
  · simp [h1.mem]
  · split
    · simp [s2, h1.mem]
    · split <;> simp [h5.mem]

theorem execMilepostReached_memOk (id : Nat) : Completes (execMilepostReached id s) (fun t => MemOk t.mem) := by
  unfold execMilepostReached
  split
  · simp [hm.mem]
  · split
    · simp [hm.mem]
    · split
      · simp [hm.mem]
      · extract_lets s1
        split
        · simp [hm.mem, s1]
        · simp [hm.mem, s1]

@[simp] theorem State.restartString_memOk (id x : Nat) (again : Bool) : MemOk (s.restartString id x again).mem := by
  simp [hm.mem, State.restartString]

@[simp] theorem State.startReplay_memOk (y : Step) : MemOk (s.startReplay y).mem := by
  simp [hm.mem, State.startReplay]

theorem execReplayStart_memOk (id : Nat) : Completes (execReplayStart id s) (fun t => MemOk t.mem) := by
  unfold execReplayStart
  split <;> simp [hm.mem]

/-! ### Loads -/

@[simp] theorem State.writeSkip_memOk (source a : Nat) (b : List Nat) : MemOk (s.writeSkip source a b).mem := by
  unfold State.writeSkip
  refine State.each_memOk hm (fun s u => ⟨?_⟩) _
  dsimp only
  split
  · simp
  · exact State.writeThrough_memOk s.property ..

@[simp] theorem State.loadPut_memOk (c kind dst off : Nat) (b : List Nat) : MemOk (s.loadPut c kind dst off b).mem := by
  simp [hm.mem, State.loadPut]

@[simp] theorem State.loadBytes_memOk (c : Nat) (d host : List Nat) (n : Nat) : MemOk (s.loadBytes c d host n).2.2.mem := by
  simp [hm.mem, State.loadBytes]

@[simp] theorem State.loadMove_memOk (c : Nat) (d b : List Nat) : MemOk (s.loadMove c d b).mem := by
  simp [hm.mem, State.loadMove]

theorem execLoadMoveComplete_memOk (c : Nat) (err : Bool) (bytes : List Nat) :
    Completes (execLoadMoveComplete c err bytes s) (fun t => MemOk t.mem) := by
  simp [hm.mem, execLoadMoveComplete]

@[simp] theorem State.abortLoad_memOk (c : Nat) (host : List Nat) (n : Nat) : MemOk (s.abortLoad c host n).mem := by
  simp [hm.mem, State.abortLoad]

theorem execLoadAbort_memOk (c moved : Nat) (bytes : List Nat) :
    Completes (execLoadAbort c moved bytes s) (fun t => MemOk t.mem) := by
  simp [hm.mem, execLoadAbort]

@[simp] theorem State.relayChunk_memOk (p src session off : Nat) (b : List Nat) (late : Bool) :
    MemOk (s.relayChunk p src session off b late).mem := by
  unfold State.relayChunk
  split <;> simp [hm.mem]

theorem execRelayChunkReceive_memOk (p src session off : Nat) (bytes : List Nat) (late : Bool) :
    Completes (execRelayChunkReceive p src session off bytes late s) (fun t => MemOk t.mem) := by
  fun_cases execRelayChunkReceive <;> simp [hm.mem]

theorem execDataPacketReceive_memOk (p dst src cls vc session off : Nat) (bytes : List Nat) :
    Completes (execDataPacketReceive p dst src cls vc session off bytes s) (fun t => MemOk t.mem) := by
  unfold execDataPacketReceive
  repeat' split
  all_goals simp [hm.mem]

/-! ### Sweeps -/

@[simp] theorem State.zeroRange_memOk (a n : Nat) : MemOk (s.zeroRange a n).mem :=
  Map.wf_filter (fun x => decide (x < a ∨ a + n ≤ x) || s.retiredAt x) hm.mem

@[simp] theorem State.endSweep_memOk (c outcome : Nat) (summary : List Nat) (sum : Nat) :
    MemOk (s.endSweep c outcome summary sum).mem := by
  simp [hm.mem, State.endSweep]

@[simp] theorem State.runSweep_memOk (c n outcome : Nat) (x : Sweep) : MemOk (s.runSweep c n outcome x).mem := by
  unfold State.runSweep
  extract_lets s1 all skips bs ues ces hard first last t
  have h1 : s1.Sound := ⟨by simp [s1, hm.mem]⟩
  have ht : t.Sound := ⟨by simp [t, h1.mem]⟩
  split <;> simp [h1.mem, ht.mem]

theorem execSweepGo_memOk (c mode : Nat) : Completes (execSweepGo c mode s) (fun t => MemOk t.mem) := by
  simp [hm.mem, execSweepGo]

theorem execSweepComplete_memOk (c : Nat) : Completes (execSweepComplete c s) (fun t => MemOk t.mem) := by
  unfold execSweepComplete
  split <;> simp [hm.mem]

theorem execSweepAbort_memOk (c pages : Nat) : Completes (execSweepAbort c pages s) (fun t => MemOk t.mem) := by
  unfold execSweepAbort
  split <;> simp [hm.mem]

/-! ### Partition -/

@[simp] theorem State.stopSeqs_memOk (p : Nat) : MemOk (s.stopSeqs p).mem := by
  unfold State.stopSeqs
  extract_lets s1
  have h1 : s1.Sound := ⟨State.each_memOk hm (fun s _ => ⟨s.property.mem⟩) _⟩
  simp [h1.mem]

@[simp] theorem State.beginQuiesce_memOk (p cause : Nat) (flr : Bool) : MemOk (s.beginQuiesce p cause flr).mem := by
  simp [hm.mem, State.beginQuiesce]

@[simp] theorem State.askQuiesce_memOk (p cause : Nat) (flr : Bool) : MemOk (s.askQuiesce p cause flr).mem := by
  unfold State.askQuiesce
  dsimp only
  split <;> simp [hm.mem]

theorem execPartQuiesce_memOk : Completes (execPartQuiesce s) (fun t => MemOk t.mem) := by
  simp [hm.mem, execPartQuiesce]

theorem execQuiesceComplete_memOk (p moved : Nat) (bytes : List Nat) :
    Completes (execQuiesceComplete p moved bytes s) (fun t => MemOk t.mem) := by
  simp [hm.mem, execQuiesceComplete]

@[simp] theorem State.copyPiece_memOk (src dst n : Nat) : MemOk (s.copyPiece src dst n).mem := by
  simp [hm.mem, State.copyPiece]

@[simp] theorem State.copyArea_memOk (x off src n : Nat) : MemOk (s.copyArea x off src n).mem := by
  simp [hm.mem, State.copyArea]

@[simp] theorem State.copyProgram_memOk (h : List Nat) (body x : Nat) : MemOk (s.copyProgram h body x).mem := by
  simp [hm.mem, State.copyProgram]

@[simp] theorem State.copyPrograms_memOk (p : Nat) : MemOk (s.copyPrograms p).mem := by
  simp [hm.mem, State.copyPrograms]

@[simp] theorem State.returnPart_memOk (p : Nat) : MemOk (s.returnPart p).mem := by
  simp [hm.mem, State.returnPart]

@[simp] theorem State.askReturn_memOk (p : Nat) : MemOk (s.askReturn p).mem := by
  simp [hm.mem, State.askReturn]

@[simp] theorem State.resumeReturn_memOk (p : Nat) : MemOk (s.resumeReturn p).mem := by
  simp [hm.mem, State.resumeReturn]

theorem execPartReturn_memOk : Completes (execPartReturn s) (fun t => MemOk t.mem) := by
  simp [hm.mem, execPartReturn]

@[simp] theorem State.scrubMemory_memOk (p : Nat) : MemOk (s.scrubMemory p).mem := by
  unfold State.scrubMemory
  extract_lets s1 hub s2 s3 s4 s5
  have h1 : s1.Sound := ⟨by simp [s1, hm.mem]⟩
  have h2 : s2.Sound := ⟨by simp [s2, h1.mem]⟩
  have h3 : s3.Sound := ⟨by simp [s3, h2.mem]⟩
  have h4 : s4.Sound := ⟨by simp [s4, h3.mem]⟩
  simp [s5, h4.mem]

@[simp] theorem State.endScrub_memOk (p : Nat) : MemOk (s.endScrub p).mem := by simp [hm.mem, State.endScrub]

theorem execScrubComplete_memOk : Completes (execScrubComplete s) (fun t => MemOk t.mem) := by
  unfold execScrubComplete
  split <;> simp [hm.mem]

theorem execVfFlr_memOk (k : Nat) : Completes (execVfFlr k s) (fun t => MemOk t.mem) := by
  unfold execVfFlr
  dsimp only
  split <;> simp [hm.mem]

@[simp] theorem State.flrAll_memOk (cause : Nat) : MemOk (s.flrAll cause).mem := by
  simp [hm.mem, State.flrAll]

theorem execPfFlr_memOk : Completes (execPfFlr s) (fun t => MemOk t.mem) := by simp [hm.mem, execPfFlr]

theorem execHotReset_memOk : Completes (execHotReset s) (fun t => MemOk t.mem) := by
  simp [hm.mem, execHotReset]

@[simp] theorem State.packageReadmitted_memOk : MemOk (s.packageReadmitted).mem := by
  simp [hm.mem, State.packageReadmitted]

@[simp] theorem State.readmitted_memOk (r : Rev) : MemOk (s.readmitted r).mem := by
  simp [hm.mem, State.readmitted]

theorem execTorReadmit_memOk (entry : Nat) : Completes (execTorReadmit entry s) (fun t => MemOk t.mem) := by
  unfold execTorReadmit
  dsimp only
  split <;> simp [hm.mem]

theorem execReadmit_memOk (p : Nat) (ok : Bool) (h : CtrlHdr) (pos unit inc new : Nat) :
    Completes (execReadmit p ok h pos unit inc new s) (fun t => MemOk t.mem) := by
  unfold execReadmit
  rw [completes_next]
  refine State.ctrlIn_memOk hm (fun s => ⟨?_⟩) ..
  rw [(State.flood_keeps ..).2]
  exact State.inOrder_memOk s.property (fun s => ⟨by simp⟩) ..

/-! ### Volz -/

@[simp] theorem State.runSections_memOk (cfg : List Sect) : MemOk (s.runSections cfg).mem := by
  simp [hm.mem, State.runSections]

@[simp] theorem State.takeImage_memOk (b : List Nat) : MemOk (s.takeImage b).mem := by
  simp [hm.mem, State.takeImage]

@[simp] theorem State.loadSlot_memOk (i : Nat) : MemOk (s.loadSlot i).mem := by simp [hm.mem, State.loadSlot]

theorem execImageLoadSlot_memOk : Completes (execImageLoadSlot s) (fun t => MemOk t.mem) := by
  simp [hm.mem, execImageLoadSlot]

@[simp] theorem State.slotRefused_memOk (v : Verdict) : MemOk (s.slotRefused v).mem := by
  simp [hm.mem, State.slotRefused]

@[simp] theorem State.freePart_memOk (k : Option LoadKind) : MemOk (s.freePart k).mem := by
  unfold State.freePart
  split <;> simp [hm.mem]

@[simp] theorem State.volzFail_memOk (v : Verdict) : MemOk (s.volzFail v).mem := by
  unfold State.volzFail
  split <;> simp [hm.mem]

theorem execVolzAbort_memOk : Completes (execVolzAbort s) (fun t => MemOk t.mem) := by
  simp [hm.mem, execVolzAbort]

theorem execVolzPullComplete_memOk (err : Bool) (bytes : List Nat) :
    Completes (execVolzPullComplete err bytes s) (fun t => MemOk t.mem) := by
  simp [hm.mem, execVolzPullComplete]

theorem execVolzVerifyComplete_memOk : Completes (execVolzVerifyComplete s) (fun t => MemOk t.mem) := by
  simp [hm.mem, execVolzVerifyComplete]

theorem execVolzCommit_memOk : Completes (execVolzCommit s) (fun t => MemOk t.mem) := by
  unfold execVolzCommit
  split
  · extract_lets s1 s2
    have h1 : s1.Sound := ⟨by simp [s1, hm.mem]⟩
    have h2 : s2.Sound := ⟨by simp [s2, h1.mem]⟩
    split <;> simp [hm.mem, h2.mem]
  · simp [hm.mem]

/-! ### Boot -/

omit hm in
/-- A reset leaves no byte of memory. -/
theorem State.cleared_memOk (tap : Bool) : MemOk (s.cleared tap).mem := memOk_nil

omit hm in
@[simp] theorem State.resets_memOk (cause : Nat) : MemOk (s.resets cause).mem := by
  unfold State.resets
  extract_lets t1 t2 t3
  have h3 : t3.Sound := ⟨@State.cleared_memOk s.railsOff (cause == 1)⟩
  simp [h3.mem]

theorem execPerstNAssert_memOk (ns : Nat) : Completes (execPerstNAssert ns s) (fun t => MemOk t.mem) := by
  simp [hm.mem, execPerstNAssert]

omit hm in
theorem execPowerOnDetect_memOk : Completes (execPowerOnDetect s) (fun t => MemOk t.mem) := by
  simp [execPowerOnDetect]

@[simp] theorem State.definePartitions_memOk : MemOk (s.definePartitions).mem := by
  simp [hm.mem, State.definePartitions]

theorem execImageLoadEnd_memOk : Completes (execImageLoadEnd s) (fun t => MemOk t.mem) := by
  simp [hm.mem, execImageLoadEnd]

@[simp] theorem State.selfCal_memOk (f : SelfFit) : MemOk (s.selfCal f).mem := by
  unfold State.selfCal
  extract_lets t k s1 w d s2 old v abrupt due poor s3 s4
  have h1 : s1.Sound := ⟨by simp [s1, hm.mem]⟩
  have h2 : s2.Sound := ⟨by simp [s2, d, w, h1.mem]⟩
  have h4 : s4.Sound := ⟨by simp [s4, s3, h2.mem]⟩
  simp [h4.mem]

theorem execSelfCalEnd_memOk (fits : List SelfFit) : Completes (execSelfCalEnd fits s) (fun t => MemOk t.mem) := by
  simp [hm.mem, execSelfCalEnd]

@[simp] theorem State.autoStart_memOk : MemOk (s.autoStart).mem := by simp [hm.mem, State.autoStart]

theorem execCausewayOpenEnd_memOk : Completes (execCausewayOpenEnd s) (fun t => MemOk t.mem) := by
  simp [hm.mem, execCausewayOpenEnd]

/-! ### SafeBlock -/

@[simp] theorem State.digestRead_memOk (x : Place) : MemOk (s.digestRead x).2.mem := by
  simp [hm.mem, State.digestRead]

@[simp] theorem State.digestAll_memOk (l : List Place) : MemOk (s.digestAll l).2.mem := by
  induction l generalizing s with
  | nil => simp [hm.mem, State.digestAll]
  | cons c cs ih => simp [hm.mem, State.digestAll, ih]

theorem execDigestComplete_memOk (p m : Nat) : Completes (execDigestComplete p m s) (fun t => MemOk t.mem) := by
  simp [hm.mem, execDigestComplete]

@[simp] theorem State.mgmtCommand_memOk {f : State → Nat × Nat × State} (hf : ∀ s : SoundState, (f s).2.2.Sound)
    (m : MgmtHdr) (type : Nat) (body : List Nat) : MemOk (s.mgmtCommand m type body f).mem := by
  have hr : MemOk (f s).2.2.mem := @memOk_apply (fun s => (f s).2.2) hf s hm.mem
  simp [State.mgmtCommand, hm.mem, hr]

theorem execMgmtRevoke_memOk (h : MgmtHdr) (pos inc : Nat) :
    Completes (execMgmtRevoke h pos inc s) (fun t => MemOk t.mem) := by
  simp [hm.mem, execMgmtRevoke]

/-! ### Host -/

@[simp] theorem State.read32_memOk (fn bar off : Nat) : MemOk (s.read32 fn bar off).2.mem := by
  unfold State.read32
  split <;> simp [hm.mem]

@[simp] theorem State.readWords_memOk (fn bar off n : Nat) : MemOk (State.readWords fn bar off n s).2.mem := by
  induction n generalizing s off with
  | zero => simp [hm.mem, State.readWords]
  | succ n ih =>
    unfold State.readWords
    dsimp only
    split <;> simp [hm.mem, ih]

@[simp] theorem State.hostRead_memOk (fn bar off size : Nat) : MemOk (s.hostRead fn bar off size).mem := by
  simp [hm.mem, State.hostRead]

theorem execReadClearCounter_memOk (fn bar off size : Nat) :
    Completes (execReadClearCounter fn bar off size s) (fun t => MemOk t.mem) := by
  simp [hm.mem, execReadClearCounter]

theorem execLatchingLoRead_memOk (fn bar off size : Nat) :
    Completes (execLatchingLoRead fn bar off size s) (fun t => MemOk t.mem) := by
  simp [hm.mem, execLatchingLoRead]

theorem execHostBar4Read_memOk (fn off n : Nat) : Completes (execHostBar4Read fn off n s) (fun t => MemOk t.mem) := by
  unfold execHostBar4Read
  split <;> simp [hm.mem]

theorem execHostBar4Write_memOk (fn off : Nat) (bytes : List Nat) (poison : Bool) :
    Completes (execHostBar4Write fn off bytes poison s) (fun t => MemOk t.mem) := by
  unfold execHostBar4Write
  split <;> simp [hm.mem]

/-! ### Debug -/

@[simp] theorem State.coreWork_memOk (c : Nat) : MemOk (s.coreWork c).mem := by simp [hm.mem, State.coreWork]

@[simp] theorem State.resumeCore_memOk (c : Nat) : MemOk (s.resumeCore c).mem := by
  simp [hm.mem, State.resumeCore]

@[simp] theorem State.resume_memOk (u : Nat) : MemOk (s.resume u).mem := by simp [hm.mem, State.resume]

theorem execRunctlResume_memOk (u : Nat) : Completes (execRunctlResume u s) (fun t => MemOk t.mem) := by
  simp [hm.mem, execRunctlResume]

@[simp] theorem State.lock_memOk : MemOk (s.lock).mem := by simp [hm.mem, State.lock]

theorem execDbgLock_memOk : Completes (execDbgLock s) (fun t => MemOk t.mem) := by simp [hm.mem, execDbgLock]

theorem execUnlockDurationExpire_memOk : Completes (execUnlockDurationExpire s) (fun t => MemOk t.mem) := by
  simp [hm.mem, execUnlockDurationExpire]

@[simp] theorem State.clockCommand_memOk {f : State → State} (hf : ∀ s : SoundState, (f s).Sound) (r : Nat) :
    MemOk (s.clockCommand r f).mem := by
  unfold State.clockCommand
  extract_lets s1
  have h1 : MemOk s1.mem := hm.mem
  simp [h1, memOk_apply hf h1]

@[simp] theorem State.writeGraph_memOk (ws : List Wait) (cycle : Nat) : MemOk (s.writeGraph ws cycle).mem := by
  simp [hm.mem, State.writeGraph]

theorem execWfgSecondSnapshot_memOk : Completes (execWfgSecondSnapshot s) (fun t => MemOk t.mem) := by
  unfold execWfgSecondSnapshot
  split <;> simp [hm.mem]

@[simp] theorem State.copyTraceBlock_memOk (a i : Nat) : MemOk (s.copyTraceBlock a i).mem := by
  simp [hm.mem, State.copyTraceBlock]

theorem execTraceCopyComplete_memOk : Completes (execTraceCopyComplete s) (fun t => MemOk t.mem) := by
  simp [hm.mem, execTraceCopyComplete]

theorem execDumpArm_memOk (slot : Nat) : Completes (execDumpArm slot s) (fun t => MemOk t.mem) := by
  simp [hm.mem, execDumpArm]

/-! ### Pcie -/

@[simp] theorem State.failRead_memOk (r : HostRead) : MemOk (s.failRead r).mem := by
  cases r with
  | descriptor c => exact (Completes.memOk hm (execLoadDescArrive_keeps ..)).outState s
  | load c => exact (execLoadMoveComplete_memOk hm ..).outState s
  | input g => exact (execInputPullComplete_memOk hm ..).outState s
  | page p n => exact (execPageMoveComplete_memOk hm ..).outState s
  | image => exact (execVolzPullComplete_memOk hm ..).outState s
  | nv => exact (Completes.memOk hm (execNvCommandComplete_keeps ..)).outState s
  | sec => exact (Completes.memOk hm (execSecCommandComplete_keeps ..)).outState s

theorem execPciCompletionTimeout_memOk (fn addr : Nat) :
    Completes (execPciCompletionTimeout fn addr s) (fun t => MemOk t.mem) := by
  unfold execPciCompletionTimeout
  dsimp only
  split <;> simp [hm.mem]

/-! ### TapAccess -/

/-- What a write sets off keeps the form, where its command does. -/
theorem State.strobe_memOk {f : State → Host.Outcome State Fault Refusal}
    (hf : ∀ s : SoundState, Completes (f s) (fun t => MemOk t.mem)) (on : Bool) : MemOk (s.strobe on f).mem := by
  unfold State.strobe
  split
  · exact (hf ⟨s, hm⟩).outState s
  · exact hm.mem

omit hm in
/-- What a write sets off leaves memory alone, where its command does. -/
theorem State.strobe_mem {f : State → Host.Outcome State Fault Refusal}
    (hf : ∀ s, Completes (f s) (fun t => t.pending = s.pending ∧ t.mem = s.mem)) (s : State) (on : Bool) :
    (s.strobe on f).mem = s.mem := by
  unfold State.strobe
  split
  · exact ((hf s).outState s).2
  · rfl

@[simp] theorem State.loadStrobes_memOk (c v : Nat) : MemOk (s.loadStrobes c v).mem := by
  unfold State.loadStrobes
  extract_lets s1 r q
  have h1 : s1.Sound := ⟨by simp [s1, State.strobe_mem (execLoadGo_keeps _ _), hm.mem]⟩
  split
  · exact h1.mem
  · exact (execLoadAbort_memOk ⟨by simp [q, r, h1.mem]⟩ ..).outState s1

@[simp] theorem State.sweepStrobes_memOk (c v : Nat) : MemOk (s.sweepStrobes c v).mem := by
  unfold State.sweepStrobes
  extract_lets s1 r
  have h1 : s1.Sound := ⟨State.strobe_memOk hm (fun s => execSweepGo_memOk s.property ..) _⟩
  split
  · exact h1.mem
  · exact (execSweepAbort_memOk ⟨by simp [r, h1.mem]⟩ ..).outState s1

@[simp] theorem State.debugStrobes_memOk (v : Nat) : MemOk (s.debugStrobes v).mem := by
  unfold State.debugStrobes
  extract_lets region r q s1 s2 s3 s4
  have h1 : s1.Sound := ⟨by simp [s1, q, r, ((execDbgUnlock_keeps ..).outState s).2, hm.mem]⟩
  have h2 : s2.Sound := ⟨State.strobe_memOk h1 (fun s => execDbgLock_memOk s.property) _⟩
  simp [s4, s3, State.strobe_mem (execDbgClockStop_keeps _), State.strobe_mem (execDbgClockRun_keeps _),
    State.strobe_mem execDbgWfg_keeps, h2.mem]

@[simp] theorem State.teamStrobes_memOk (t base v : Nat) : MemOk (s.teamStrobes t base v).mem := by
  have habandon (r : Bool) (u : Nat) (on : Bool) :
      MemOk ((s.strobe r (execCalRequest t u)).strobe on (execCalAbandon t)).mem :=
    State.strobe_memOk ⟨by simp [State.strobe_mem (execCalRequest_keeps _ _), hm.mem]⟩
      (fun s => execCalAbandon_memOk s.property t) on
  have hremap (k c : Nat) (on : Bool) : MemOk (s.strobe on (execFarrRemap t k c)).mem :=
    State.strobe_memOk hm (fun s => execFarrRemap_memOk s.property ..) on
  have hretire (k : Nat) (on : Bool) : MemOk (s.strobe on (execFarrRetire t k)).mem :=
    State.strobe_memOk hm (fun s => execFarrRetire_memOk s.property ..) on
  unfold State.teamStrobes
  dsimp only
  repeat' split
  all_goals simp [habandon, hremap, hretire, hm.mem, State.strobe_mem (execTeamStop_keeps _ _),
    State.strobe_mem (execTeamCntFreeze_keeps _ _), State.strobe_mem (execTeamSwapGo_keeps _ _),
    State.strobe_mem (execOutrSelftest_keeps _), State.strobe_mem (execOutrSample_keeps _ _),
    State.strobe_mem (execOutrRefGo_keeps _ _), State.strobe_mem (execCalHold_keeps _ _),
    State.strobe_mem (execFarrReadmit_keeps _ _), State.strobe_mem (execAccAbandon_keeps _ _)]

@[simp] theorem State.linkStrobes_memOk (p base v : Nat) : MemOk (s.linkStrobes p base v).mem := by
  have hre (e : Nat) (on : Bool) : MemOk (s.strobe on (execTorReadmit e)).mem :=
    State.strobe_memOk hm (fun s => execTorReadmit_memOk s.property e) on
  have hrv (pos : Nat) (on : Bool) : MemOk (s.strobe on (execTorRevoke pos)).mem :=
    State.strobe_memOk hm (fun s => execTorRevoke_memOk s.property pos) on
  simp [State.linkStrobes, hre, hrv, hm.mem, State.strobe_mem (execLinkRetrain_keeps _),
    State.strobe_mem (execLinkDark_keeps _ _), State.strobe_mem (execCwayOpen_keeps _),
    State.strobe_mem (execCwayClose_keeps _), State.strobe_mem (execDramRetire_keeps _ _)]

@[simp] theorem State.bootStrobes_memOk (base v : Nat) : MemOk (s.bootStrobes base v).mem := by
  have habort : MemOk (s.strobe true execVolzAbort).mem :=
    State.strobe_memOk hm (fun s => execVolzAbort_memOk s.property) true
  unfold State.bootStrobes
  dsimp only
  repeat' split
  all_goals simp [habort, hm.mem, State.strobe_mem execRstRetry_keeps, State.strobe_mem (execNvWrite_keeps _),
    State.strobe_mem (execNvErase_keeps _), State.strobe_mem (execNvSetTrial_keeps _),
    State.strobe_mem (execNvClearTrial_keeps _), State.strobe_mem execSecAttest_keeps,
    State.strobe_mem execSecEnrol_keeps, State.strobe_mem execSecTransfer_keeps, State.strobe_mem execSafeAck_keeps,
    State.strobe_mem execSafeDigestNow_keeps, State.strobe_mem (execSafeLogSelWrite_keeps _),
    State.strobe_mem execVolzFull_keeps, State.strobe_mem (execVolzPartial_keeps _)]

@[simp] theorem State.traceStrobes_memOk (base v : Nat) : MemOk (s.traceStrobes base v).mem := by
  have harm (k : Nat) (off on : Bool) : MemOk ((s.strobe off (execDumpDisarm k)).strobe on (execDumpArm k)).mem :=
    State.strobe_memOk ⟨by simp [State.strobe_mem (execDumpDisarm_keeps _), hm.mem]⟩
      (fun s => execDumpArm_memOk s.property k) on
  unfold State.traceStrobes
  split
  · simp [hm.mem, State.strobe_mem execTrcArm_keeps, State.strobe_mem execTrcTrigger_keeps,
      State.strobe_mem execTrcStop_keeps, State.strobe_mem execTrcCopy_keeps]
  · split
    · simp [hm.mem, State.strobe_mem execCntSnap_keeps, State.strobe_mem execCntClear_keeps]
    · split
      · exact harm ..
      · exact hm.mem

@[simp] theorem State.blockStrobes_memOk (w : RegWord) (v : Nat) : MemOk (s.blockStrobes w v).mem := by
  have hq (on : Bool) : MemOk (s.strobe on execPartQuiesce).mem :=
    State.strobe_memOk hm (fun s => execPartQuiesce_memOk s.property) on
  have hr (on : Bool) : MemOk (s.strobe on execPartReturn).mem :=
    State.strobe_memOk hm (fun s => execPartReturn_memOk s.property) on
  unfold State.blockStrobes
  dsimp only
  split
  · split <;> simp [hq, hr, hm.mem, State.strobe_mem execPartScrub_keeps]
  · simp [hm.mem, State.strobe_mem (execKvSel1Write_keeps _ _), State.strobe_mem (execKvHostAreaWrite_keeps _ _ _),
      State.strobe_mem (execBrdlCapWrite_keeps _), State.strobe_mem (execAdcUrgentGo_keeps _),
      State.strobe_mem execWaySet_keeps]

@[simp] theorem State.strobes_memOk (w : RegWord) (v : Nat) : MemOk (s.strobes w v).mem := by
  unfold State.strobes
  dsimp only
  repeat' split
  all_goals simp [hm.mem]

@[simp] theorem State.access0_memOk (write : Bool) (a v : Nat) : MemOk (s.access0 write a v).2.2.mem := by
  unfold State.access0
  repeat' split
  all_goals simp [hm.mem]

@[simp] theorem State.access1_memOk (write : Bool) (a v : Nat) : MemOk (s.access1 write a v).2.2.mem := by
  unfold State.access1
  split <;> simp [hm.mem]

@[simp] theorem State.accessSeq_memOk (write : Bool) (a v : Nat) : MemOk (s.accessSeq write a v).2.2.mem := by
  simp [hm.mem, State.accessSeq]

@[simp] theorem State.accessUnit_memOk (write : Bool) (a v : Nat) : MemOk (s.accessUnit write a v).2.2.mem := by
  simp [hm.mem, State.accessUnit]

@[simp] theorem State.accessSpace_memOk (write : Bool) (space a v : Nat) :
    MemOk (s.accessSpace write space a v).2.2.mem := by
  simp [hm.mem, State.accessSpace]

@[simp] theorem State.accessNow_memOk (write : Bool) (space a v : Nat) : MemOk (s.accessNow write space a v).2.2.mem := by
  simp [hm.mem, State.accessNow]

theorem execTapAccess_memOk (op space data addr : Nat) :
    Completes (execTapAccess op space data addr s) (fun t => MemOk t.mem) := by
  simp [hm.mem, execTapAccess]

end

end Sys2Proof.Machine
end

section
/-!
PROOFS. Every command and every idle step keeps memory in its canonical form, and the statement that says so: O31.
-/
set_option Elab.async false
namespace Sys2Proof.Machine

section
variable {s : State} (hm : s.Sound)
include hm

/-! ### Tick: with no command waiting -/

omit hm in
@[simp] theorem State.tick_mem : s.tick.mem = s.mem := rfl

omit hm in
@[simp] theorem State.translateReads_mem : s.translateReads.mem = s.mem := by simp [State.translateReads]

omit hm in
@[simp] theorem State.coreBreak_mem (c k : Nat) : (s.coreBreak c k).mem = s.mem := by simp [State.coreBreak]

omit hm in
@[simp] theorem State.coreEvent_mem (c : Nat) : (s.coreEvent c).mem = s.mem := by simp [State.coreEvent]

omit hm in
@[simp] theorem State.coresRun_mem : s.coresRun.mem = s.mem := by simp [State.coresRun]

theorem vuMeaning_memOk (x team func a b d count : Nat) :
    Completes (vuMeaning x team func a b d count s) (fun t => MemOk t.mem) := by
  unfold vuMeaning
  extract_lets half
  split
  · exact execVuCopy_memOk hm ..
  · exact execVuAdd_memOk hm ..
  · exact execVuMul_memOk hm ..
  · exact execVuFma_memOk hm ..
  · exact execVuMax_memOk hm ..
  · exact execVuSum_memOk hm ..
  · exact execVuExp_memOk hm ..
  · exact execVuRsqrt_memOk hm ..
  · exact execVuRecip_memOk hm ..
  · exact execVuSilu_memOk hm ..
  · exact execVuGelu_memOk hm ..
  · exact execVuRmsnorm_memOk hm ..
  · exact execVuSoftmax_memOk hm ..
  · exact execVuRope_memOk hm ..
  · exact execVuGather_memOk hm ..
  · exact execVuScatter_memOk hm ..
  · exact execVuScore_memOk hm ..
  · exact execVuValue_memOk hm ..
  · split
    · exact execVuToMx_memOk hm ..
    · exact execVuFromMx_memOk hm ..

theorem SeqOp.meaning_memOk (x : Nat) (op : SeqOp) : Completes (op.meaning x s) (fun t => MemOk t.mem) := by
  cases op with
  | nop => exact (execNop_keeps x s).memOk hm
  | lda a off => exact execLda_memOk hm x a off
  | adda a imm => exact (execAdda_keeps x a imm s).memOk hm
  | loop count len => exact (execLoop_keeps x count len s).memOk hm
  | gopen team a => exact execGopen_memOk hm x team a
  | gclose team group => exact (execGclose_keeps x team group s).memOk hm
  | gwait team group => exact (execGwait_keeps x team group s).memOk hm
  | vec layer group a vectors => exact execVec_memOk hm x layer group a vectors
  | gate set topk inp disp vectors => exact execGate_memOk hm x set topk inp disp vectors
  | vu team func a b d count => exact vuMeaning_memOk hm x team func a b d count
  | loadm model => exact execLoadm_memOk hm x model
  | swap model => exact (execSwapPlanes_keeps x model s).memOk hm
  | swapat model a => exact (execSwapat_keeps x model a s).memOk hm
  | signal str flag => exact (execSignal_keeps x str flag s).memOk hm
  | waitf flag count => exact (execWaitf_keeps x flag count s).memOk hm
  | coll a => exact execColl_memOk hm x a
  | milepost tag => exact execMilepost_memOk hm x tag
  | seqEnd => exact (execSeqEnd_keeps x s).memOk hm

@[simp] theorem State.runSeq_memOk (x : Nat) : MemOk (s.runSeq x).mem := by
  have hbad : MemOk (outState s (execBadInstructionFetch x s)).mem := (execBadInstructionFetch_memOk hm x).outState s
  unfold State.runSeq
  split
  · exact hm.mem
  · split
    · exact hm.mem
    · extract_lets r
      have hr : r.2.2.Sound := ⟨by simp [r, hm.mem]⟩
      split
      · split
        · exact (SeqOp.meaning_memOk hr x _).outState s
        · exact hbad
      · exact hbad

@[simp] theorem State.runPrograms_memOk : MemOk s.runPrograms.mem := by simp [State.runPrograms, hm.mem]

theorem State.idle_memOk : MemOk s.idle.mem := by simp [State.idle, hm.mem]

/-! ### Every command -/

/-- By the rule of each command: that it leaves memory alone, or that what it writes keeps the form. -/
theorem exec_memOk (c : Instr) : Completes (exec c s) (fun t => MemOk t.mem) := by
  cases c with
  | perstNAssert ns => exact execPerstNAssert_memOk hm ns
  | powerOnDetect => exact execPowerOnDetect_memOk
  | railPowerLoss k => exact (execRailPowerLoss_keeps k s).memOk hm
  | internalResetEnd => exact (execInternalResetEnd_keeps s).memOk hm
  | romStageEnd => exact (execRomStageEnd_keeps s).memOk hm
  | fwVerifyEnd => exact (execFwVerifyEnd_keeps s).memOk hm
  | nvLoadEnd => exact (execNvLoadEnd_keeps s).memOk hm
  | pinsSetEnd => exact (execPinsSetEnd_keeps s).memOk hm
  | railGood k => exact (execRailGood_keeps k s).memOk hm
  | railGoodTimeout k word => exact (execRailGoodTimeout_keeps k word s).memOk hm
  | railOnTempRecheck => exact (execRailOnTempRecheck_keeps s).memOk hm
  | dramUpEnd => exact (execDramUpEnd_keeps s).memOk hm
  | linksUpEnd => exact (execLinksUpEnd_keeps s).memOk hm
  | imageLoadSlot => exact execImageLoadSlot_memOk hm
  | imageLoadEnd => exact execImageLoadEnd_memOk hm
  | selfCalEnd fits => exact execSelfCalEnd_memOk hm fits
  | causewayOpenEnd => exact execCausewayOpenEnd_memOk hm
  | startDeadlineExpire => exact (execStartDeadlineExpire_keeps s).memOk hm
  | failCountNvRetry => exact (execFailCountNvRetry_keeps s).memOk hm
  | registerWrite fn bar off size value poison => exact (execRegisterWrite_keeps fn bar off size value poison s).memOk hm
  | readClearCounter fn bar off size => exact execReadClearCounter_memOk hm fn bar off size
  | latchingLoRead fn bar off size => exact execLatchingLoRead_memOk hm fn bar off size
  | configRequest r => exact (execConfigRequest_keeps r s).memOk hm
  | hostBar4Read fn off n => exact execHostBar4Read_memOk hm fn off n
  | hostBar4Write fn off bytes poison => exact execHostBar4Write_memOk hm fn off bytes poison
  | malformedTlp fn => exact (execMalformedTlp_keeps fn s).memOk hm
  | slotDescriptorWrite fn off bytes poison => exact execSlotDescriptorWrite_memOk hm fn off bytes poison
  | arm g => exact execArm_memOk hm g
  | continueSlot g => exact execContinueSlot_memOk hm g
  | pause g => exact (execPause_keeps g s).memOk hm
  | resume g => exact (execResume_keeps g s).memOk hm
  | cancel g => exact execCancel_memOk hm g
  | release g => exact (execRelease_keeps g s).memOk hm
  | resultPayloadRead fn k off n => exact execResultPayloadRead_memOk hm fn k off n
  | stepPlan p m a0 a1 a2 a2b attn => exact execStepPlan_memOk hm p m a0 a1 a2 a2b attn
  | pageWaitRetry g => exact execPageWaitRetry_memOk hm g
  | pageWaitExpire g => exact (execPageWaitExpire_keeps g s).memOk hm
  | pageMoveComplete p page err host => exact execPageMoveComplete_memOk hm p page err host
  | inputPullComplete g err host => exact execInputPullComplete_memOk hm g err host
  | ttlExpire g => exact (execTtlExpire_keeps g s).memOk hm
  | stepRecord id => exact (execStepRecord_keeps id s).memOk hm
  | nop x => exact (execNop_keeps x s).memOk hm
  | lda x a off => exact execLda_memOk hm x a off
  | adda x a imm => exact (execAdda_keeps x a imm s).memOk hm
  | loop x count len => exact (execLoop_keeps x count len s).memOk hm
  | gopen x team a => exact execGopen_memOk hm x team a
  | gclose x team group => exact (execGclose_keeps x team group s).memOk hm
  | gwait x team group => exact (execGwait_keeps x team group s).memOk hm
  | vec x layer group a vectors => exact execVec_memOk hm x layer group a vectors
  | gate x set topk inp disp vectors => exact execGate_memOk hm x set topk inp disp vectors
  | vuCopy x team half a d count => exact execVuCopy_memOk hm x team half a d count
  | vuAdd x team half a b d count => exact execVuAdd_memOk hm x team half a b d count
  | vuMul x team half a b d count => exact execVuMul_memOk hm x team half a b d count
  | vuFma x team half a b d count => exact execVuFma_memOk hm x team half a b d count
  | vuMax x team half a b d count => exact execVuMax_memOk hm x team half a b d count
  | vuSum x team half a d count => exact execVuSum_memOk hm x team half a d count
  | vuExp x team half a d count => exact execVuExp_memOk hm x team half a d count
  | vuRsqrt x team half a d count => exact execVuRsqrt_memOk hm x team half a d count
  | vuRecip x team half a d count => exact execVuRecip_memOk hm x team half a d count
  | vuSilu x team half a d count => exact execVuSilu_memOk hm x team half a d count
  | vuGelu x team half a d count => exact execVuGelu_memOk hm x team half a d count
  | vuRmsnorm x team half a b d count => exact execVuRmsnorm_memOk hm x team half a b d count
  | vuSoftmax x team half a d count => exact execVuSoftmax_memOk hm x team half a d count
  | vuRope x team half a b d count => exact execVuRope_memOk hm x team half a b d count
  | vuGather x team half a b d count => exact execVuGather_memOk hm x team half a b d count
  | vuScatter x team half a b d count => exact execVuScatter_memOk hm x team half a b d count
  | vuScore x team half a b d count => exact execVuScore_memOk hm x team half a b d count
  | vuValue x team half a b d count => exact execVuValue_memOk hm x team half a b d count
  | vuToMx x team half fmt a d count => exact execVuToMx_memOk hm x team half fmt a d count
  | vuFromMx x team half fmt a d count => exact execVuFromMx_memOk hm x team half fmt a d count
  | loadm x model => exact execLoadm_memOk hm x model
  | loadmComplete x model remote => exact execLoadmComplete_memOk hm x model remote
  | swapPlanes x model => exact (execSwapPlanes_keeps x model s).memOk hm
  | swapat x model a => exact (execSwapat_keeps x model a s).memOk hm
  | signal x str flag => exact (execSignal_keeps x str flag s).memOk hm
  | waitf x flag count => exact (execWaitf_keeps x flag count s).memOk hm
  | coll x a => exact execColl_memOk hm x a
  | milepost x tag => exact execMilepost_memOk hm x tag
  | seqEnd x => exact (execSeqEnd_keeps x s).memOk hm
  | badInstructionFetch x => exact execBadInstructionFetch_memOk hm x
  | expertCallTimeout id => exact execExpertCallTimeout_memOk hm id
  | edgeConvert t => exact execEdgeConvert_memOk hm t
  | splitStallEnd t => exact (execSplitStallEnd_keeps t s).memOk hm
  | beatBoundary wrong missing => exact execBeatBoundary_memOk hm wrong missing
  | tileRecordArrive t => exact execTileRecordArrive_memOk hm t
  | outriderDelivery t => exact execOutriderDelivery_memOk hm t
  | groupCloseComplete t g => exact execGroupCloseComplete_memOk hm t g
  | accAbandon t g => exact (execAccAbandon_keeps t g s).memOk hm
  | milepostReached id => exact execMilepostReached_memOk hm id
  | replayStart id => exact execReplayStart_memOk hm id
  | planeWrite t k plane off bytes => exact (execPlaneWrite_keeps t k plane off bytes s).memOk hm
  | drainEnd t k => exact (execDrainEnd_keeps t k s).memOk hm
  | teamSwapGo t plane => exact (execTeamSwapGo_keeps t plane s).memOk hm
  | teamStop t stop => exact (execTeamStop_keeps t stop s).memOk hm
  | teamCntFreeze t freeze => exact (execTeamCntFreeze_keeps t freeze s).memOk hm
  | sampleDue t r => exact (execSampleDue_keeps t r s).memOk hm
  | forcedCheck t r => exact (execForcedCheck_keeps t r s).memOk hm
  | checkLate t r => exact (execCheckLate_keeps t r s).memOk hm
  | sampleComplete t r lanes => exact execSampleComplete_memOk hm t r lanes
  | arbCodeCheckDone t => exact execArbCodeCheckDone_memOk hm t
  | arbReferenceDone t agrees => exact execArbReferenceDone_memOk hm t agrees
  | arbSpareLoadDone t => exact (execArbSpareLoadDone_keeps t s).memOk hm
  | arbSpareRunDone t wrong => exact execArbSpareRunDone_memOk hm t wrong
  | arbNoSpareTimeout t => exact (execArbNoSpareTimeout_keeps t s).memOk hm
  | outriderSelftestDone t pass => exact execOutriderSelftestDone_memOk hm t pass
  | outrSample t r => exact (execOutrSample_keeps t r s).memOk hm
  | outrSelftest t => exact (execOutrSelftest_keeps t s).memOk hm
  | outrRefGo t w => exact (execOutrRefGo_keeps t w s).memOk hm
  | referenceRunDone t => exact execReferenceRunDone_memOk hm t
  | calrefQualified => exact (execCalrefQualified_keeps s).memOk hm
  | calrefLost => exact execCalrefLost_memOk hm
  | rotationVisit t => exact (execRotationVisit_keeps t s).memOk hm
  | calLate t => exact (execCalLate_keeps t s).memOk hm
  | calRequest t k => exact (execCalRequest_keeps t k s).memOk hm
  | calAbandon t => exact execCalAbandon_memOk hm t
  | calHold t hold => exact (execCalHold_keeps t hold s).memOk hm
  | takeoverCopyDone t => exact execTakeoverCopyDone_memOk hm t
  | takeoverMove t => exact execTakeoverMove_memOk hm t
  | calGateDone t delay win => exact execCalGateDone_memOk hm t delay win
  | calFitDone t fits delay resid noisy stuck => exact execCalFitDone_memOk hm t fits delay resid noisy stuck
  | statsShadowEnd t => exact (execStatsShadowEnd_keeps t s).memOk hm
  | slewStep t k => exact execSlewStep_memOk hm t k
  | dailyTrimRecord t k => exact execDailyTrimRecord_memOk hm t k
  | pendingRetireComplete t => exact execPendingRetireComplete_memOk hm t
  | farrRemap t k col => exact execFarrRemap_memOk hm t k col
  | farrRetire t k => exact execFarrRetire_memOk hm t k
  | farrReadmit t k => exact (execFarrReadmit_keeps t k s).memOk hm
  | farrNvRetry t fail => exact (execFarrNvRetry_keeps t fail s).memOk hm
  | thermalSample n temp => exact execThermalSample_memOk hm n temp
  | tripRailsOff => exact (execTripRailsOff_keeps s).memOk hm
  | tripFinal => exact (execTripFinal_keeps s).memOk hm
  | bridleTick lanes sram dram => exact (execBridleTick_keeps lanes sram dram s).memOk hm
  | boostSwitch r => exact (execBoostSwitch_keeps r s).memOk hm
  | bridleMeasure => exact (execBridleMeasure_keeps s).memOk hm
  | brdlCapWrite cap => exact (execBrdlCapWrite_keeps cap s).memOk hm
  | pmbusAlert stops warns failed => exact (execPmbusAlert_keeps stops warns failed s).memOk hm
  | voltMonitorTrip k over_ mv => exact (execVoltMonitorTrip_keeps k over_ mv s).memOk hm
  | setpointStep failed => exact (execSetpointStep_keeps failed s).memOk hm
  | droopTrip r mv => exact (execDroopTrip_keeps r mv s).memOk hm
  | stretchEnd r => exact (execStretchEnd_keeps r s).memOk hm
  | clockMonitorFail pll => exact (execClockMonitorFail_keeps pll s).memOk hm
  | regionRestart r => exact (execRegionRestart_keeps r s).memOk hm
  | ageingMeasure counts => exact (execAgeingMeasure_keeps counts s).memOk hm
  | ageingReplan => exact (execAgeingReplan_keeps s).memOk hm
  | adcConversionDone c code urgent => exact (execAdcConversionDone_keeps c code urgent s).memOk hm
  | adcOpenTest c up down => exact (execAdcOpenTest_keeps c up down s).memOk hm
  | adcUrgentGo c => exact (execAdcUrgentGo_keeps c s).memOk hm
  | tollgateRefill asks => exact (execTollgateRefill_keeps asks s).memOk hm
  | msixIntervalEnd fn vec => exact (execMsixIntervalEnd_keeps fn vec s).memOk hm
  | vfFlr k => exact execVfFlr_memOk hm k
  | pfFlr => exact execPfFlr_memOk hm
  | hotReset => exact execHotReset_memOk hm
  | pcieLinkDown => exact (execPcieLinkDown_keeps s).memOk hm
  | vfEnableCleared n => exact (execVfEnableCleared_keeps n s).memOk hm
  | pciCompletionTimeout fn addr => exact execPciCompletionTimeout_memOk hm fn addr
  | atsInvalidation fn addr len => exact (execAtsInvalidation_keeps fn addr len s).memOk hm
  | partQuiesce => exact execPartQuiesce_memOk hm
  | partScrub => exact (execPartScrub_keeps s).memOk hm
  | partReturn => exact execPartReturn_memOk hm
  | quiesceComplete p moved bytes => exact execQuiesceComplete_memOk hm p moved bytes
  | scrubComplete => exact execScrubComplete_memOk hm
  | volzFull => exact (execVolzFull_keeps s).memOk hm
  | volzPartial part => exact (execVolzPartial_keeps part s).memOk hm
  | volzAbort => exact execVolzAbort_memOk hm
  | volzPullComplete err bytes => exact execVolzPullComplete_memOk hm err bytes
  | volzVerifyComplete => exact execVolzVerifyComplete_memOk hm
  | volzCommit => exact execVolzCommit_memOk hm
  | loadGo c irqVec => exact (execLoadGo_keeps c irqVec s).memOk hm
  | loadAbort c moved bytes => exact execLoadAbort_memOk hm c moved bytes
  | loadDescArrive c err bytes => exact (execLoadDescArrive_keeps c err bytes s).memOk hm
  | loadMoveComplete c err bytes => exact execLoadMoveComplete_memOk hm c err bytes
  | remoteTierWaitExpire x expert n => exact execRemoteTierWaitExpire_memOk hm x expert n
  | relayChunkReceive p src session off bytes late => exact execRelayChunkReceive_memOk hm p src session off bytes late
  | relayRxTimeout c origin session => exact (execRelayRxTimeout_keeps c origin session s).memOk hm
  | relayAckTimeout c => exact (execRelayAckTimeout_keeps c s).memOk hm
  | groomNearBound t k => exact (execGroomNearBound_keeps t k s).memOk hm
  | groomLapLate t => exact (execGroomLapLate_keeps t s).memOk hm
  | heldPlaneReloaded t k plane => exact (execHeldPlaneReloaded_keeps t k plane s).memOk hm
  | sweepGo c mode => exact execSweepGo_memOk hm c mode
  | sweepAbort c pages => exact execSweepAbort_memOk hm c pages
  | sweepComplete c => exact execSweepComplete_memOk hm c
  | dramRetire kind index => exact (execDramRetire_keeps kind index s).memOk hm
  | retireNvRetry => exact (execRetireNvRetry_keeps s).memOk hm
  | kvSel1Write index cache => exact (execKvSel1Write_keeps index cache s).memOk hm
  | kvHostAreaWrite p which value => exact (execKvHostAreaWrite_keeps p which value s).memOk hm
  | flitReceive p bytes corr uncorr => exact (execFlitReceive_keeps p bytes corr uncorr s).memOk hm
  | nakReceived p last => exact (execNakReceived_keeps p last s).memOk hm
  | laneFail p lane => exact (execLaneFail_keeps p lane s).memOk hm
  | laserLow p => exact execLaserLow_memOk hm p
  | trainingAttemptEnd p good lock hello => exact execTrainingAttemptEnd_memOk hm p good lock hello
  | downLightCheck p light => exact (execDownLightCheck_keeps p light s).memOk hm
  | discoveryDeadline lit => exact execDiscoveryDeadline_memOk hm lit
  | portAutoReadmit p => exact (execPortAutoReadmit_keeps p s).memOk hm
  | linkRetrain p => exact (execLinkRetrain_keeps p s).memOk hm
  | linkDark p dark => exact (execLinkDark_keeps p dark s).memOk hm
  | cwayOpen a => exact (execCwayOpen_keeps a s).memOk hm
  | cwayClose a => exact (execCwayClose_keeps a s).memOk hm
  | cwayConfirm a => exact (execCwayConfirm_keeps a s).memOk hm
  | cwayConfirmTimeout a => exact (execCwayConfirmTimeout_keeps a s).memOk hm
  | helloSend p => exact (execHelloSend_keeps p s).memOk hm
  | hello p ok h body => exact (execHello_keeps p ok h body s).memOk hm
  | ack p ok h acked => exact (execAck_keeps p ok h acked s).memOk hm
  | revoke p ok h pos unit inc => exact execRevoke_memOk hm p ok h pos unit inc
  | revoked p ok h pos unit inc => exact execRevoked_memOk hm p ok h pos unit inc
  | readmit p ok h pos unit inc new => exact execReadmit_memOk hm p ok h pos unit inc new
  | linkState p ok h pos port state inc => exact (execLinkState_keeps p ok h pos port state inc s).memOk hm
  | waySync p ok h t1 f1 frac => exact (execWaySync_keeps p ok h t1 f1 frac s).memOk hm
  | wayReply p ok h t1 t2 t3 f1 f2 f3 state frac => exact (execWayReply_keeps p ok h t1 t2 t3 f1 f2 f3 state frac s).memOk hm
  | waySyncSend p frac => exact (execWaySyncSend_keeps p frac s).memOk hm
  | collStep p ok h id step dir session bytes check => exact execCollStep_memOk hm p ok h id step dir session bytes check
  | collAck p ok h id step dir => exact execCollAck_memOk hm p ok h id step dir
  | collAbort p ok h id code port pos => exact execCollAbort_memOk hm p ok h id code port pos
  | collStepResend part id dir => exact (execCollStepResend_keeps part id dir s).memOk hm
  | collTimeout part id => exact execCollTimeout_memOk hm part id
  | relayStart p ok h seq hopsLeft session kind len dst =>
    exact (execRelayStart_keeps p ok h seq hopsLeft session kind len dst s).memOk hm
  | relayEnd p ok h seq chunks => exact (execRelayEnd_keeps p ok h seq chunks s).memOk hm
  | relayAck p ok h seq chunks => exact (execRelayAck_keeps p ok h seq chunks s).memOk hm
  | expertCall p ok h id set position vectors sessionIn inBytes outBytes =>
    exact (execExpertCall_keeps p ok h id set position vectors sessionIn inBytes outBytes s).memOk hm
  | expertDone p ok h id code session => exact execExpertDone_memOk hm p ok h id code session
  | dataPacketReceive p dst src cls vc session off bytes =>
    exact execDataPacketReceive_memOk hm p dst src cls vc session off bytes
  | ctrlRetransmit unit seq => exact execCtrlRetransmit_memOk hm unit seq
  | routeReplan => exact (execRouteReplan_keeps s).memOk hm
  | torRevoke pos => exact execTorRevoke_memOk hm pos
  | torReadmit entry => exact execTorReadmit_memOk hm entry
  | waySet => exact (execWaySet_keeps s).memOk hm
  | ppsEdge falling => exact (execPpsEdge_keeps falling s).memOk hm
  | ptpSync domain m frac out => exact (execPtpSync_keeps domain m frac out s).memOk hm
  | timeSourceInvalid src => exact (execTimeSourceInvalid_keeps src s).memOk hm
  | rstRetry => exact (execRstRetry_keeps s).memOk hm
  | nvWrite target => exact (execNvWrite_keeps target s).memOk hm
  | nvErase target => exact (execNvErase_keeps target s).memOk hm
  | nvSetTrial target => exact (execNvSetTrial_keeps target s).memOk hm
  | nvClearTrial target => exact (execNvClearTrial_keeps target s).memOk hm
  | nvCommandComplete err bytes => exact (execNvCommandComplete_keeps err bytes s).memOk hm
  | secAttest => exact (execSecAttest_keeps s).memOk hm
  | secEnrol => exact (execSecEnrol_keeps s).memOk hm
  | secTransfer => exact (execSecTransfer_keeps s).memOk hm
  | secCommandComplete err bytes => exact (execSecCommandComplete_keeps err bytes s).memOk hm
  | lockstepMismatch pair => exact (execLockstepMismatch_keeps pair s).memOk hm
  | cc6WatchdogExpire => exact (execCc6WatchdogExpire_keeps s).memOk hm
  | safeAck => exact (execSafeAck_keeps s).memOk hm
  | safeDigestNow => exact (execSafeDigestNow_keeps s).memOk hm
  | safeLogSelWrite n => exact (execSafeLogSelWrite_keeps n s).memOk hm
  | tileIftDue t k => exact execTileIftDue_memOk hm t k
  | iftDeferExpire t tile => exact execIftDeferExpire_memOk hm t tile
  | tileIftComplete t k fail => exact execTileIftComplete_memOk hm t k fail
  | teamTestDue t => exact execTeamTestDue_memOk hm t
  | teamTestComplete t fail => exact execTeamTestComplete_memOk hm t fail
  | digestDue p m => exact (execDigestDue_keeps p m s).memOk hm
  | digestComplete p m => exact execDigestComplete_memOk hm p m
  | heartbeatSend => exact (execHeartbeatSend_keeps s).memOk hm
  | errorReportResend id => exact (execErrorReportResend_keeps id s).memOk hm
  | errorAck h id => exact (execErrorAck_keeps h id s).memOk hm
  | getAttest h nonce => exact (execGetAttest_keeps h nonce s).memOk hm
  | getLog h first count => exact (execGetLog_keeps h first count s).memOk hm
  | nvBegin h cmd target len => exact (execNvBegin_keeps h cmd target len s).memOk hm
  | nvChunk h off bytes => exact (execNvChunk_keeps h off bytes s).memOk hm
  | nvChunkGapTimeout => exact (execNvChunkGapTimeout_keeps s).memOk hm
  | mgmtRetry h => exact (execMgmtRetry_keeps h s).memOk hm
  | mgmtRevoke h pos inc => exact execMgmtRevoke_memOk hm h pos inc
  | tapReset => exact (execTapReset_keeps s).memOk hm
  | extest n cells => exact (execExtest_keeps n cells s).memOk hm
  | idcode => exact (execIdcode_keeps s).memOk hm
  | samplePreload n cells => exact (execSamplePreload_keeps n cells s).memOk hm
  | clamp => exact (execClamp_keeps s).memOk hm
  | tapChallenge => exact (execTapChallenge_keeps s).memOk hm
  | tapUnlock bytes => exact (execTapUnlock_keeps bytes s).memOk hm
  | tapAccess op space data addr => exact execTapAccess_memOk hm op space data addr
  | bypass => exact (execBypass_keeps s).memOk hm
  | dbgUnlock err bytes => exact (execDbgUnlock_keeps err bytes s).memOk hm
  | dbgLock => exact execDbgLock_memOk hm
  | unlockDurationExpire => exact execUnlockDurationExpire_memOk hm
  | dbgClockStop r => exact (execDbgClockStop_keeps r s).memOk hm
  | dbgClockRun r => exact (execDbgClockRun_keeps r s).memOk hm
  | dbgWfg => exact (execDbgWfg_keeps s).memOk hm
  | hangTimeout id => exact (execHangTimeout_keeps id s).memOk hm
  | wfgSecondSnapshot => exact execWfgSecondSnapshot_memOk hm
  | runctlHalt u => exact (execRunctlHalt_keeps u s).memOk hm
  | runctlResume u => exact execRunctlResume_memOk hm u
  | runctlStep u => exact (execRunctlStep_keeps u s).memOk hm
  | trcArm => exact (execTrcArm_keeps s).memOk hm
  | trcStop => exact (execTrcStop_keeps s).memOk hm
  | trcTrigger => exact (execTrcTrigger_keeps s).memOk hm
  | trcCopy => exact (execTrcCopy_keeps s).memOk hm
  | traceCopyComplete => exact execTraceCopyComplete_memOk hm
  | traceEntryWrite source => exact (execTraceEntryWrite_keeps source s).memOk hm
  | traceTrigInEdge pin => exact (execTraceTrigInEdge_keeps pin s).memOk hm
  | dumpArm slot => exact execDumpArm_memOk hm slot
  | dumpDisarm slot => exact (execDumpDisarm_keeps slot s).memOk hm
  | cntSnap => exact (execCntSnap_keeps s).memOk hm
  | cntClear => exact (execCntClear_keeps s).memOk hm
  | counterSnapshotLatch => exact (execCounterSnapshotLatch_keeps s).memOk hm
  | trainingTimeLimit p => exact execTrainingTimeLimit_memOk hm p
  | timeRootDisciplineUpdate => exact (execTimeRootDisciplineUpdate_keeps s).memOk hm
  | pcieLinkUp rate width flit => exact (execPcieLinkUp_keeps rate width flit s).memOk hm
  | managementPortDown => exact (execManagementPortDown_keeps s).memOk hm
  | managementPortUp => exact (execManagementPortUp_keeps s).memOk hm

/-- With no command waiting and with one, a step leaves memory canonical. -/
theorem step_memOk : Completes (step s) (fun t => MemOk t.mem) := by
  unfold step
  split
  · exact (completes_next _ _).2 (State.idle_memOk hm)
  · next c rest _ =>
    have hrest : ({ s with pending := rest } : State).Sound := ⟨hm.mem⟩
    exact exec_memOk hrest c

end

/-- Settles O31: what a step answers is the state of which its rule speaks. -/
theorem memoryStaysCanonical : Obligations.MemoryStaysCanonical := by
  unfold Obligations.MemoryStaysCanonical
  intro s t hs h
  obtain ⟨u, hu, hok⟩ := step_memOk ⟨s.memoryOk_iff.1 hs⟩
  obtain rfl : t = u := by rw [h] at hu; injection hu
  exact t.memoryOk_iff.2 hok

end Sys2Proof.Machine
end

section
/-!
SUPPORT. The entry into paddock mode (R430 to R434): the registers that it writes, and what it leaves alone.
-/
set_option Elab.async false
namespace Sys2Proof.Machine

/-! ### The registers of a start stand below those that a record, a port or the trace unit writes -/

/-- The field stands below the registers of the safety unit, as those of the start do. -/
abbrev LowField (f : Fld) : Prop := f.key < Reg.safeStatusHealth.key

theorem LowField.apart {f : Fld} (hf : LowField f) : Fld.apart f := by
  have hrec : ∀ g ∈ recordFields, Reg.safeStatusHealth.key ≤ g.key := by decide
  intro g hg
  have := hrec g hg
  omega

/-- No copy of a field that is not low is a low one. -/
theorem LowField.ne_shift {f g : Fld} (hf : LowField f) (hg : Reg.safeStatusHealth.key ≤ g.key) (d : Nat) :
    (g.shift d).key ≠ f.key := by
  have : (g.shift d).key = g.key + 8 * d := by simp only [Fld.shift, Fld.key]; omega
  omega

/-! ### Rails -/

/-- A rail's command is something sent: what does not read what has been sent does not see it. -/
theorem State.pmbusWrite_same {β : Type} (P : State → β) (h : ∀ (s : State) (o : List Out), P { s with out := o } = P s)
    (s : State) (k : Nat) (c : PmbusCmd) (v : Nat) : P (s.pmbusWrite k c v) = P s := by
  unfold State.pmbusWrite
  dsimp only
  split
  · rfl
  · exact h s _

theorem State.commandRail_same {β : Type} (P : State → β) (h : ∀ (s : State) (o : List Out), P { s with out := o } = P s)
    (s : State) (k uv : Nat) : P (s.commandRail k uv) = P s := by
  unfold State.commandRail
  split
  · split
    · rfl
    · exact h s _
  · split
    · exact State.pmbusWrite_same P h s _ _ _
    · exact (State.pmbusWrite_same P h _ _ _ _).trans (State.pmbusWrite_same P h s _ _ _)

@[simp] theorem State.commandRail_power (s : State) (k uv : Nat) : (s.commandRail k uv).power = s.power :=
  State.commandRail_same State.power (fun _ _ => rfl) s k uv

@[simp] theorem State.commandRail_pins (s : State) (k uv : Nat) : (s.commandRail k uv).pins = s.pins :=
  State.commandRail_same State.pins (fun _ _ => rfl) s k uv

/-- Rails that turn off leave what reads neither what has been sent nor the power controller. -/
theorem State.railsOff_same {β : Type} (P : State → β) (h : ∀ (s : State) (o : List Out), P { s with out := o } = P s)
    (hp : ∀ (s : State) (x : Power), P { s with power := x } = P s) (s : State) : P s.railsOff = P s :=
  (hp _ _).trans (s.each_keeps P _ (fun s k => State.commandRail_same P h s k 0) _)

@[simp] theorem State.railsOff_fields (s : State) : s.railsOff.fields = s.fields :=
  s.railsOff_same State.fields (fun _ _ => rfl) (fun _ _ => rfl)

@[simp] theorem State.railsOff_volz (s : State) : s.railsOff.volz = s.volz :=
  s.railsOff_same State.volz (fun _ _ => rfl) (fun _ _ => rfl)

@[simp] theorem State.railsOff_boot (s : State) : s.railsOff.boot = s.boot :=
  s.railsOff_same State.boot (fun _ _ => rfl) (fun _ _ => rfl)

@[simp] theorem State.railsOff_retireWaits (s : State) : s.railsOff.retireWaits = s.retireWaits :=
  s.railsOff_same State.retireWaits (fun _ _ => rfl) (fun _ _ => rfl)

@[simp] theorem State.railsOff_turning (s : State) : s.railsOff.power.turning = none := rfl

/-! ### What a fold or a choice of states has of each -/

@[simp] theorem State.fields_ite (c : Prop) [Decidable c] (s t : State) :
    (if c then s else t).fields = if c then s.fields else t.fields := apply_ite State.fields c s t

@[simp] theorem State.volz_ite (c : Prop) [Decidable c] (s t : State) :
    (if c then s else t).volz = if c then s.volz else t.volz := apply_ite State.volz c s t

@[simp] theorem State.boot_ite (c : Prop) [Decidable c] (s t : State) :
    (if c then s else t).boot = if c then s.boot else t.boot := apply_ite State.boot c s t

@[simp] theorem State.power_ite (c : Prop) [Decidable c] (s t : State) :
    (if c then s else t).power = if c then s.power else t.power := apply_ite State.power c s t

@[simp] theorem State.each_fields {α : Type} {f : State → α → State} (h : ∀ s x, (f s x).fields = s.fields)
    (s : State) (xs : List α) : (s.each xs f).fields = s.fields := s.each_keeps State.fields f h xs

@[simp] theorem State.each_volz {α : Type} {f : State → α → State} (h : ∀ s x, (f s x).volz = s.volz)
    (s : State) (xs : List α) : (s.each xs f).volz = s.volz := s.each_keeps State.volz f h xs

@[simp] theorem State.each_boot {α : Type} {f : State → α → State} (h : ∀ s x, (f s x).boot = s.boot)
    (s : State) (xs : List α) : (s.each xs f).boot = s.boot := s.each_keeps State.boot f h xs

@[simp] theorem State.each_power {α : Type} {f : State → α → State} (h : ∀ s x, (f s x).power = s.power)
    (s : State) (xs : List α) : (s.each xs f).power = s.power := s.each_keeps State.power f h xs

/-! ### A record, its trace and the health leave the load, the start and the rails alone -/

@[simp] theorem State.enqueueTrace_start (s : State) (e : TraceEntry) :
    (s.enqueueTrace e).volz = s.volz ∧ (s.enqueueTrace e).boot = s.boot ∧ (s.enqueueTrace e).power = s.power := by
  simp [State.enqueueTrace]

@[simp] theorem State.traceEvent_start (s : State) (bit source kind : Nat) (data : List Nat) :
    (s.traceEvent bit source kind data).volz = s.volz ∧ (s.traceEvent bit source kind data).boot = s.boot ∧
      (s.traceEvent bit source kind data).power = s.power := by
  simp [State.traceEvent]

@[simp] theorem State.writeTrace_start (s : State) (e : TraceEntry) :
    (s.writeTrace e).volz = s.volz ∧ (s.writeTrace e).boot = s.boot ∧ (s.writeTrace e).power = s.power := by
  unfold State.writeTrace
  dsimp only
  repeat' split
  all_goals simp

@[simp] theorem State.traceTrigger_start (s : State) (cond : Nat) :
    (s.traceTrigger cond).volz = s.volz ∧ (s.traceTrigger cond).boot = s.boot ∧ (s.traceTrigger cond).power = s.power := by
  simp [State.traceTrigger]

@[simp] theorem State.append_start (s : State) (r : LogRec) :
    (s.append r).volz = s.volz ∧ (s.append r).boot = s.boot ∧ (s.append r).power = s.power := by
  simp [State.append]

@[simp] theorem State.updateHealth_start (s : State) :
    s.updateHealth.volz = s.volz ∧ s.updateHealth.boot = s.boot ∧ s.updateHealth.power = s.power := by
  simp [State.updateHealth]

/-! ### The entry into paddock mode -/

@[simp] theorem State.quiesceAllForPaddock_start (s : State) :
    s.quiesceAllForPaddock.volz = s.volz ∧ s.quiesceAllForPaddock.boot = s.boot ∧
      s.quiesceAllForPaddock.power = s.power ∧ s.quiesceAllForPaddock.fields = s.fields := by
  simp [State.quiesceAllForPaddock]

@[simp] theorem State.keepPort_start (s : State) (stage : Nat) :
    (s.keepPort stage).volz = s.volz ∧ (s.keepPort stage).boot = s.boot ∧ (s.keepPort stage).power = s.power ∧
      (s.keepPort stage).fields = s.fields := ⟨rfl, rfl, rfl, rfl⟩

@[simp] theorem State.closeAxis_start (s : State) (a : Nat) :
    (s.closeAxis a).volz = s.volz ∧ (s.closeAxis a).boot = s.boot ∧ (s.closeAxis a).power = s.power := by
  simp [State.closeAxis]

@[simp] theorem State.traceRegs_start (s : State) :
    s.traceRegs.volz = s.volz ∧ s.traceRegs.boot = s.boot ∧ s.traceRegs.power = s.power := ⟨rfl, rfl, rfl⟩

@[simp] theorem State.factoryPins_start (s : State) :
    s.factoryPins.volz = s.volz ∧ s.factoryPins.boot = s.boot ∧ s.factoryPins.power = s.power ∧
      s.factoryPins.fields = s.fields := by
  simp [State.factoryPins]

@[simp] theorem State.writeFailCount_start (s : State) (v : Nat) :
    (s.writeFailCount v).volz = s.volz ∧ (s.writeFailCount v).boot.readyAt = s.boot.readyAt ∧
      (s.writeFailCount v).boot.fwRefused = s.boot.fwRefused := by
  unfold State.writeFailCount State.showFailCount
  split <;> exact ⟨rfl, rfl, rfl⟩

@[simp] theorem State.enterPaddock_start (s : State) (reason code : Nat) :
    (s.enterPaddock reason code).volz = s.volz ∧ (s.enterPaddock reason code).boot.readyAt = s.boot.readyAt ∧
      (s.enterPaddock reason code).boot.fwRefused = s.boot.fwRefused := by
  unfold State.enterPaddock
  dsimp only
  split
  · exact ⟨rfl, rfl, rfl⟩
  · split <;> simp

/-- In paddock mode no rail is turning on but one that did so before. -/
theorem State.enterPaddock_turning {s : State} (reason code : Nat) (h : s.power.turning = none) :
    (s.enterPaddock reason code).power.turning = none := by
  unfold State.enterPaddock
  dsimp only
  split
  · exact h
  · simp

/-- The state in which a start that wrote no marker has counted its failure (R430, R433). -/
def State.failCounted (s : State) (reason : Nat) : State :=
  if reason = 4 ∨ s.boot.marked then s else s.writeFailCount (s.nv.failCount + 1)

section
variable {f : Fld} (hf : LowField f)
include hf

theorem State.closeAxis_fget (s : State) (a : Nat) : (s.closeAxis a).fget f = s.fget f := by
  have hcway (p : Nat) : (Reg.cwayStatusState.port p).key ≠ f.key := hf.ne_shift (by decide) _
  have hstate (p : Nat) : (Reg.linkStatusState.port p).key ≠ f.key := hf.ne_shift (by decide) _
  have hlanes (p : Nat) : (Reg.linkStatusLanes.port p).key ≠ f.key := hf.ne_shift (by decide) _
  refine s.each_keeps (fun t => t.fget f) _ (fun t p => ?_) _
  dsimp only
  rw [State.fget_fset_ne _ _ (hlanes p), State.fget_fset_ne _ _ (hstate p)]
  split
  · rfl
  · exact State.fget_fset_ne _ _ (hcway p)

theorem State.traceRegs_fget (s : State) : s.traceRegs.fget f = s.fget f := by
  have above : ∀ g ∈ [Reg.trcSrc, Reg.trcTrig, Reg.trcPost], Reg.safeStatusHealth.key ≤ g.key := by decide
  have ne (g : Fld) (hg : g ∈ [Reg.trcSrc, Reg.trcTrig, Reg.trcPost]) : g.key ≠ f.key := by
    have := above g hg
    omega
  rw [State.traceRegs, State.fget_fset_ne _ _ (ne Reg.trcPost (by simp)), State.fget_fset_ne _ _ (ne Reg.trcTrig (by simp)),
    State.fget_fset_ne _ _ (ne Reg.trcSrc (by simp))]

/-- Of the registers of a start, the entry into paddock mode writes those that show it, and FAIL_COUNT. -/
theorem State.enterPaddock_fget {s : State} (reason code : Nat) (hp : s.paddock = false) :
    (s.enterPaddock reason code).fget f = ((((((s.failCounted reason).raise Reg.rstStatusPaddock).raise
      Reg.rstStatusBootLock).fset Reg.rstStatusReason reason).fset Reg.rstFaultStage s.stage).fset
      Reg.rstFaultCode code).fget f := by
  have fields {t u : State} (h : t.fields = u.fields) : t.fget f = u.fget f := by rw [State.fget, State.fget, h]
  unfold State.enterPaddock
  rw [if_neg (by simp [hp])]
  dsimp only
  rw [State.updateHealth_fget hf.apart, fields (State.factoryPins_start _).2.2.2, State.traceRegs_fget hf,
    State.each_keeps (P := fun t => t.fget f) _ _ (fun t a => t.closeAxis_fget hf a) [0, 1, 2]]
  exact fields (by simp [State.failCounted])

end

theorem State.failCounted_fget {f : Fld} (hf : Reg.rstStatusFailCount.key ≠ f.key) (s : State) (reason : Nat) :
    (s.failCounted reason).fget f = s.fget f := by
  unfold State.failCounted State.writeFailCount State.showFailCount
  split
  · rfl
  · rw [State.fget_fset_ne _ _ hf]
    split <;> rfl

/-- The stage of the start stands in paddock mode as it stood at the entry. -/
@[simp] theorem State.enterPaddock_stage (s : State) (reason code : Nat) : (s.enterPaddock reason code).stage = s.stage := by
  cases hp : s.paddock
  case true => rw [State.enterPaddock, if_pos hp]
  case false =>
    unfold State.stage
    rw [State.enterPaddock_fget (by decide) reason code hp, State.fget_fset_ne _ _ (by decide),
      State.fget_fset_ne _ _ (by decide), State.fget_fset_ne _ _ (by decide), State.fget_raise_ne _ (by decide),
      State.fget_raise_ne _ (by decide), State.failCounted_fget (by decide)]

@[simp] theorem State.enterPaddock_paddock (s : State) (reason code : Nat) : (s.enterPaddock reason code).paddock = true := by
  cases hp : s.paddock
  case true => rw [State.enterPaddock, if_pos hp, hp]
  case false =>
    have : (s.enterPaddock reason code).fget Reg.rstStatusPaddock = 1 := by
      rw [State.enterPaddock_fget (by decide) reason code hp, State.fget_fset_ne _ _ (by decide),
        State.fget_fset_ne _ _ (by decide), State.fget_fset_ne _ _ (by decide), State.fget_raise_ne _ (by decide),
        State.fget_raise_same]
      rfl
    simp [State.paddock, State.flag, this]

theorem State.enterPaddock_reason {s : State} {reason : Nat} (code : Nat) (hp : s.paddock = false)
    (hr : reason < Reg.rstStatusReason.card) : (s.enterPaddock reason code).fget Reg.rstStatusReason = reason := by
  rw [State.enterPaddock_fget (by decide) reason code hp, State.fget_fset_ne _ _ (by decide),
    State.fget_fset_ne _ _ (by decide), State.fget_fset_same, Nat.mod_eq_of_lt hr]

theorem State.enterPaddock_faultStage {s : State} (reason code : Nat) (hp : s.paddock = false)
    (hs : s.stage < Reg.rstFaultStage.card) : (s.enterPaddock reason code).fget Reg.rstFaultStage = s.stage := by
  rw [State.enterPaddock_fget (by decide) reason code hp, State.fget_fset_ne _ _ (by decide), State.fget_fset_same,
    Nat.mod_eq_of_lt hs]

end Sys2Proof.Machine
end

section
/-!
SUPPORT. What a partition's return to service leaves alone: the load block and its registers, the stage, and what READY has
written. One lemma per definition, in the order of the definitions.
-/
set_option Elab.async false
namespace Sys2Proof.Machine

/-! ### The registers -/

/-- The stage of the start, the lock that READY sets, and the state and the result of a load. -/
def servingFields : List Fld := [Reg.rstStatusStage, Reg.rstStatusBootLock, Reg.volzStatusState, Reg.volzResultCode]

/-- In READY what those fields hold; before it nothing. -/
def servingRegs (m : SMap Nat) : Option (List Nat) :=
  if Map.get Reg.rstStatusStage.reset m Reg.rstStatusStage.key = stReady then
    some (servingFields.map (fun f => Map.get f.reset m f.key))
  else none

/-- The field is none of them. -/
def Fld.aside (g : Fld) : Bool := servingFields.all (fun f => g.key != f.key)

/-- The field stands above them all, and so does every copy of it. -/
def Fld.above (g : Fld) : Bool := servingFields.all (fun f => decide (f.key < g.key))

theorem Fld.aside_iff (g : Fld) : Fld.aside g = true ↔ ∀ f ∈ servingFields, g.key ≠ f.key := by simp [Fld.aside]
theorem Fld.above_iff (g : Fld) : Fld.above g = true ↔ ∀ f ∈ servingFields, f.key < g.key := by simp [Fld.above]

theorem Fld.key_shift (g : Fld) (d : Nat) : (g.shift d).key = g.key + 8 * d := by simp only [Fld.shift, Fld.key]; omega

theorem Fld.above_shift {g : Fld} (d : Nat) (hg : Fld.above g = true) : Fld.above (g.shift d) = true := by
  rw [Fld.above_iff] at hg ⊢
  intro f hf
  have := hg f hf
  rw [Fld.key_shift]
  omega

theorem Fld.above_aside {g : Fld} (hg : Fld.above g = true) : Fld.aside g = true := by
  rw [Fld.above_iff] at hg
  rw [Fld.aside_iff]
  intro f hf
  have := hg f hf
  omega

@[simp] theorem Fld.aside_team {g : Fld} (t : Nat) (hg : Fld.above g = true) : Fld.aside (g.team t) = true :=
  Fld.above_aside (Fld.above_shift _ hg)

@[simp] theorem Fld.aside_tile {g : Fld} (t k : Nat) (hg : Fld.above g = true) : Fld.aside (g.tile t k) = true :=
  Fld.above_aside (Fld.above_shift _ hg)

/-- A register that a SEL register selects stands 2^32 bytes further on for each selection. -/
@[simp] theorem Fld.aside_sel {g : Fld} (i : Nat) (hg : Fld.aside g = true) : Fld.aside (g.sel i) = true := by
  have below : ∀ f ∈ servingFields, f.key < 8 * 0x100000000 := by decide
  rw [Fld.aside_iff] at hg ⊢
  intro f hf
  have hb := below f hf
  have hne := hg f hf
  have hkey : (g.sel i).key = g.key + 8 * (i * 0x100000000) := Fld.key_shift g _
  omega

theorem State.servingRegs_congr {s t : State} (h : ∀ f ∈ servingFields, t.fget f = s.fget f) :
    servingRegs t.fields = servingRegs s.fields := by
  have hstage : t.fget Reg.rstStatusStage = s.fget Reg.rstStatusStage := h _ (by simp [servingFields])
  unfold State.fget at h hstage
  unfold servingRegs
  rw [hstage, List.map_congr_left h]

/-- Before READY they are nothing. -/
theorem State.servingRegs_of_stage {s : State} (h : s.stage ≠ stReady) : servingRegs s.fields = none := if_neg h

section
variable {g : Fld} (s : State)

@[simp] theorem State.fset_servingRegs (v : Nat) (hg : Fld.aside g = true) :
    servingRegs (s.fset g v).fields = servingRegs s.fields :=
  State.servingRegs_congr fun _ hf => s.fget_fset_ne v ((Fld.aside_iff g).1 hg _ hf)

@[simp] theorem State.raise_servingRegs (hg : Fld.aside g = true) :
    servingRegs (s.raise g).fields = servingRegs s.fields := s.fset_servingRegs 1 hg

@[simp] theorem State.clear_servingRegs (hg : Fld.aside g = true) :
    servingRegs (s.clear g).fields = servingRegs s.fields := s.fset_servingRegs 0 hg

@[simp] theorem State.fput_servingRegs (b : Bool) (hg : Fld.aside g = true) :
    servingRegs (s.fput g b).fields = servingRegs s.fields := s.fset_servingRegs _ hg

@[simp] theorem State.bump_servingRegs (hg : Fld.aside g = true) :
    servingRegs (s.bump g).fields = servingRegs s.fields := s.fset_servingRegs _ hg

end

@[simp] theorem State.each_servingRegs {α : Type} {f : State → α → State}
    (h : ∀ s x, servingRegs (f s x).fields = servingRegs s.fields) (s : State) (xs : List α) :
    servingRegs (s.each xs f).fields = servingRegs s.fields := s.each_keeps (fun t => servingRegs t.fields) f h xs

@[simp] theorem State.each_readyAt {α : Type} {f : State → α → State} (h : ∀ s x, (f s x).boot.readyAt = s.boot.readyAt)
    (s : State) (xs : List α) : (s.each xs f).boot.readyAt = s.boot.readyAt := s.each_keeps (fun t => t.boot.readyAt) f h xs

@[simp] theorem servingRegs_ite (c : Prop) [Decidable c] (m n : SMap Nat) :
    servingRegs (if c then m else n) = if c then servingRegs m else servingRegs n := apply_ite servingRegs c m n

@[simp] theorem readyAt_ite (c : Prop) [Decidable c] (x y : Boot) :
    (if c then x else y).readyAt = if c then x.readyAt else y.readyAt := apply_ite Boot.readyAt c x y

/-! ### Events, records and health -/

theorem servingFields_apart : ∀ f ∈ servingFields, Fld.apart f := by unfold Fld.apart; decide

@[simp] theorem State.append_servingRegs (s : State) (r : LogRec) :
    servingRegs (s.append r).fields = servingRegs s.fields :=
  State.servingRegs_congr fun _ hf => s.append_fget (servingFields_apart _ hf) r

@[simp] theorem State.updateHealth_servingRegs (s : State) :
    servingRegs s.updateHealth.fields = servingRegs s.fields :=
  State.servingRegs_congr fun _ hf => s.updateHealth_fget (servingFields_apart _ hf)

@[simp] theorem State.vecEvent_serving (s : State) (fn vec : Nat) : (s.vecEvent fn vec).volz = s.volz ∧
    (s.vecEvent fn vec).boot = s.boot ∧ (s.vecEvent fn vec).fields = s.fields := by
  simp [State.vecEvent, State.vecSend]

@[simp] theorem State.pkgEvent_serving (s : State) (e : PkgEvent) : (s.pkgEvent e).volz = s.volz ∧
    (s.pkgEvent e).boot = s.boot ∧ (s.pkgEvent e).fields = s.fields := by
  simp [State.pkgEvent]

@[simp] theorem State.partEvent_serving (s : State) (p : Nat) : (s.partEvent p).volz = s.volz ∧
    (s.partEvent p).boot = s.boot ∧ (s.partEvent p).fields = s.fields := by
  simp [State.partEvent]

/-- A start fails before READY only, so that a record in READY enters no paddock mode. -/
theorem State.failsStart_stage {s : State} {sev : Nat} {hubUe : Bool} (h : s.failsStart sev hubUe = true) :
    s.stage ≠ stReady := by
  simp only [State.failsStart, Bool.and_eq_true, decide_eq_true_eq] at h
  omega

@[simp] theorem State.recordAs_serving (s : State) (hubUe : Bool) (sev cls code source : Nat) (ctx : List Nat) :
    (s.recordAs hubUe sev cls code source ctx).volz = s.volz ∧
      (s.recordAs hubUe sev cls code source ctx).boot.readyAt = s.boot.readyAt ∧
      servingRegs (s.recordAs hubUe sev cls code source ctx).fields = servingRegs s.fields := by
  unfold State.recordAs
  dsimp only
  split
  · next h =>
    have hstage := State.failsStart_stage h
    have hregs : servingRegs s.fields = none := by
      rw [← State.servingRegs_of_stage hstage, State.append_servingRegs]
    refine ⟨by simp, by simp, ?_⟩
    rw [State.updateHealth_servingRegs, hregs]
    exact State.servingRegs_of_stage (by rw [State.enterPaddock_stage]; exact hstage)
  · simp

@[simp] theorem State.record_serving (s : State) (sev cls code source : Nat) (ctx : List Nat) :
    (s.record sev cls code source ctx).volz = s.volz ∧
      (s.record sev cls code source ctx).boot.readyAt = s.boot.readyAt ∧
      servingRegs (s.record sev cls code source ctx).fields = servingRegs s.fields := by
  unfold State.record
  exact s.recordAs_serving false sev cls code source ctx

/-! ### Memory -/

@[simp] theorem State.writeBytes_serving (s : State) (a : Nat) (bs : List Nat) : (s.writeBytes a bs).volz = s.volz ∧
    (s.writeBytes a bs).boot = s.boot := by
  fun_induction State.writeBytes <;> simp_all

@[simp] theorem Fld.aside_ceCounter (a : Nat) : Fld.aside (ceCounter a) = true := by unfold ceCounter; split <;> decide
@[simp] theorem Fld.aside_ueCounter (a : Nat) : Fld.aside (ueCounter a) = true := by unfold ueCounter; split <;> decide

@[simp] theorem State.recordSoft_serving (s : State) (source a mem syn : Nat) :
    (s.recordSoft source a mem syn).volz = s.volz ∧
      (s.recordSoft source a mem syn).boot.readyAt = s.boot.readyAt ∧
      servingRegs (s.recordSoft source a mem syn).fields = servingRegs s.fields := by
  unfold State.recordSoft
  split <;> simp [State.softCount]

@[simp] theorem State.hardBlock_serving (s : State) (a : Nat) : (s.hardBlock a).volz = s.volz ∧
    (s.hardBlock a).boot.readyAt = s.boot.readyAt ∧ servingRegs (s.hardBlock a).fields = servingRegs s.fields := by
  unfold State.hardBlock
  dsimp only
  split <;> simp +decide [State.hardEvent]

@[simp] theorem State.readBlock_serving (s : State) (source : Nat) (repair : Bool) (blk : Nat) :
    (s.readBlock source repair blk).volz = s.volz ∧
      (s.readBlock source repair blk).boot.readyAt = s.boot.readyAt ∧
      servingRegs (s.readBlock source repair blk).fields = servingRegs s.fields := by
  unfold State.readBlock
  dsimp only
  repeat' split
  all_goals simp

@[simp] theorem State.retiredAccess_serving (s : State) (source a n : Nat) :
    (s.retiredAccess source a n).volz = s.volz ∧
      (s.retiredAccess source a n).boot.readyAt = s.boot.readyAt ∧
      servingRegs (s.retiredAccess source a n).fields = servingRegs s.fields := by
  simp +decide [State.retiredAccess]

@[simp] theorem State.seeLines_serving (s : State) (y a : Nat) (xs : List StaleLine) (b : List Nat) :
    (s.seeLines y a xs b).2.volz = s.volz ∧ (s.seeLines y a xs b).2.boot = s.boot ∧
      (s.seeLines y a xs b).2.fields = s.fields := by
  fun_induction State.seeLines with
  | case1 => simp
  | case2 s b x xs _ ih => exact ih
  | case3 s b x xs _ _ d ih => exact ih
  | case4 s b x xs _ _ ih => exact ih

@[simp] theorem State.readThrough_serving (s : State) (source a n : Nat) :
    (s.readThrough source a n).2.2.volz = s.volz ∧
      (s.readThrough source a n).2.2.boot.readyAt = s.boot.readyAt ∧
      servingRegs (s.readThrough source a n).2.2.fields = servingRegs s.fields := by
  unfold State.readThrough State.readFor
  dsimp only
  split <;> simp

@[simp] theorem State.mergeBlock_serving (s : State) (source a n blk : Nat) :
    (s.mergeBlock source a n blk).volz = s.volz ∧
      (s.mergeBlock source a n blk).boot.readyAt = s.boot.readyAt ∧
      servingRegs (s.mergeBlock source a n blk).fields = servingRegs s.fields := by
  unfold State.mergeBlock
  dsimp only
  repeat' split
  all_goals simp

@[simp] theorem State.writeLive_serving (s : State) (a : Nat) (bs : List Nat) : (s.writeLive a bs).volz = s.volz ∧
    (s.writeLive a bs).boot = s.boot ∧ (s.writeLive a bs).fields = s.fields := by
  fun_induction State.writeLive <;> simp_all

@[simp] theorem State.writeThrough_serving (s : State) (source a : Nat) (b : List Nat) :
    (s.writeThrough source a b).volz = s.volz ∧
      (s.writeThrough source a b).boot.readyAt = s.boot.readyAt ∧
      servingRegs (s.writeThrough source a b).fields = servingRegs s.fields := by
  simp [State.writeThrough, State.settleLines]

/-! ### The registers of teams and partitions -/

@[simp] theorem State.showTile_serving (s : State) (t k : Nat) : (s.showTile t k).volz = s.volz ∧
    (s.showTile t k).boot = s.boot ∧ servingRegs (s.showTile t k).fields = servingRegs s.fields := by
  simp +decide [State.showTile]

@[simp] theorem State.showTracking_serving (s : State) (t : Nat) : (s.showTracking t).volz = s.volz ∧
    (s.showTracking t).boot = s.boot ∧ servingRegs (s.showTracking t).fields = servingRegs s.fields := by
  simp +decide [State.showTracking]

@[simp] theorem State.showTeam_serving (s : State) (t : Nat) : (s.showTeam t).volz = s.volz ∧
    (s.showTeam t).boot = s.boot ∧ servingRegs (s.showTeam t).fields = servingRegs s.fields := by
  simp +decide [State.showTeam]

@[simp] theorem State.showPart_serving (s : State) (p : Nat) : (s.showPart p).volz = s.volz ∧
    (s.showPart p).boot = s.boot ∧ servingRegs (s.showPart p).fields = servingRegs s.fields := by
  simp +decide [State.showPart]

@[simp] theorem State.enterPart_serving (s : State) (p : Nat) (x : Part) : (s.enterPart p x).volz = s.volz ∧
    (s.enterPart p x).boot = s.boot ∧ servingRegs (s.enterPart p x).fields = servingRegs s.fields := by
  simp [State.enterPart]

@[simp] theorem State.refusePart_serving (s : State) (p : Nat) : (s.refusePart p).volz = s.volz ∧
    (s.refusePart p).boot = s.boot ∧ servingRegs (s.refusePart p).fields = servingRegs s.fields := by
  simp +decide [State.refusePart]

@[simp] theorem State.quiesceTeams_serving (s : State) (p : Nat) (on : Bool) : (s.quiesceTeams p on).volz = s.volz ∧
    (s.quiesceTeams p on).boot = s.boot ∧ servingRegs (s.quiesceTeams p on).fields = servingRegs s.fields := by
  simp [State.quiesceTeams]

@[simp] theorem State.unsetMeans_serving (s : State) (p : Nat) : (s.unsetMeans p).volz = s.volz ∧
    (s.unsetMeans p).boot = s.boot ∧ (s.unsetMeans p).fields = s.fields := by
  unfold State.unsetMeans
  refine ⟨State.each_volz (fun s t => ?_) _ _, State.each_boot (fun s t => ?_) _ _, State.each_fields (fun s t => ?_) _ _⟩
  · exact s.setTeam_volz _ _
  · exact s.setTeam_boot _ _
  · exact s.setTeam_fields _ _

/-! ### A partition's return to service -/

@[simp] theorem State.copyPiece_serving (s : State) (src dst n : Nat) : (s.copyPiece src dst n).volz = s.volz ∧
    (s.copyPiece src dst n).boot.readyAt = s.boot.readyAt ∧
      servingRegs (s.copyPiece src dst n).fields = servingRegs s.fields := by
  simp [State.copyPiece]

@[simp] theorem State.copyArea_serving (s : State) (x off src n : Nat) : (s.copyArea x off src n).volz = s.volz ∧
    (s.copyArea x off src n).boot.readyAt = s.boot.readyAt ∧
      servingRegs (s.copyArea x off src n).fields = servingRegs s.fields := by
  simp [State.copyArea]

@[simp] theorem State.copyPrograms_serving (s : State) (p : Nat) : (s.copyPrograms p).volz = s.volz ∧
    (s.copyPrograms p).boot.readyAt = s.boot.readyAt ∧ servingRegs (s.copyPrograms p).fields = servingRegs s.fields := by
  simp [State.copyPrograms, State.copyProgram]

@[simp] theorem State.returnPart_serving (s : State) (p : Nat) : (s.returnPart p).volz = s.volz ∧
    (s.returnPart p).boot.readyAt = s.boot.readyAt ∧ servingRegs (s.returnPart p).fields = servingRegs s.fields := by
  simp [State.returnPart]

end Sys2Proof.Machine
end

section
/-!
SUPPORT. What the steps of a start leave alone: the state outside the register file, the registers of the start, the rails.
-/
set_option Elab.async false
namespace Sys2Proof.Machine

/-! ### Operations that write registers only -/

/-- The state with another register file. -/
def State.withRegs (m : SMap Nat) (s : State) : State := { s with fields := m }

/-- Nothing but registers has changed. -/
def State.onlyRegs (s t : State) : Prop := t.withRegs s.fields = s

/-- What does not read a register has not changed. -/
theorem State.onlyRegs.same {s t : State} (h : s.onlyRegs t) {β : Type} (P : State → β)
    (hP : ∀ (m : SMap Nat) (s : State), P (s.withRegs m) = P s) : P t = P s := by
  rw [← hP s.fields t, h]

@[simp] theorem State.onlyRegs.refl (s : State) : s.onlyRegs s := rfl

theorem State.onlyRegs.trans {s t u : State} (h : s.onlyRegs t) (h' : t.onlyRegs u) : s.onlyRegs u :=
  (congrArg (State.withRegs s.fields) h').trans h

section
variable (s t : State)

@[simp] theorem State.onlyRegs_fset (g : Fld) (v : Nat) : s.onlyRegs (t.fset g v) ↔ s.onlyRegs t := .rfl
@[simp] theorem State.onlyRegs_raise (g : Fld) : s.onlyRegs (t.raise g) ↔ s.onlyRegs t := .rfl
@[simp] theorem State.onlyRegs_clear (g : Fld) : s.onlyRegs (t.clear g) ↔ s.onlyRegs t := .rfl
@[simp] theorem State.onlyRegs_fput (g : Fld) (b : Bool) : s.onlyRegs (t.fput g b) ↔ s.onlyRegs t := .rfl

end

theorem State.each_onlyRegs {α : Type} {f : State → α → State} (h : ∀ t x, State.onlyRegs t (f t x)) (s : State)
    (xs : List α) : s.onlyRegs (s.each xs f) :=
  s.each_inv s.onlyRegs f (fun t x ht => State.onlyRegs.trans ht (h t x)) xs (.refl s)

theorem State.fsetWords_onlyRegs (s : State) (g : Fld) (i : Nat) (ws : List Nat) : s.onlyRegs (s.fsetWords g i ws) := by
  induction ws generalizing s i with
  | nil => exact .refl s
  | cons w ws ih => exact State.onlyRegs.trans (t := s.fset (g.nth i) w) rfl (ih _ _)

theorem State.setCway_onlyRegs (s : State) (a st : Nat) : s.onlyRegs (s.setCway a st) := by simp [State.setCway]

theorem State.showNv_onlyRegs (s : State) : s.onlyRegs s.showNv := by simp [State.showNv]

theorem State.showStore_onlyRegs (s : State) : s.onlyRegs s.showStore :=
  State.onlyRegs.trans (by simp [State.showNv, State.showFailCount]) (State.fsetWords_onlyRegs _ _ _ _)

theorem State.showIncs_onlyRegs (s : State) : s.onlyRegs s.showIncs :=
  State.onlyRegs.trans (by simp) (State.each_onlyRegs (by simp) (s.fset Reg.torPkgInc (s.incarnation unitPackage)) _)

theorem State.showRetired_onlyRegs (s : State) : s.onlyRegs s.showRetired := by simp [State.showRetired]

theorem State.showAge_onlyRegs (s : State) (m : Nat) (v : Int) : s.onlyRegs (s.showAge m v) := by simp [State.showAge]

theorem State.showFarrier_onlyRegs (s : State) (t : Nat) : s.onlyRegs (s.showFarrier t) := by simp [State.showFarrier]

theorem State.showRoles_onlyRegs (s : State) (t : Nat) : s.onlyRegs (s.showRoles t) := State.each_onlyRegs (by simp) _ _

theorem State.showRepair_onlyRegs (s : State) (t : Nat) : s.onlyRegs (s.showRepair t) := by
  unfold State.showRepair
  dsimp only
  refine .trans (.trans (State.each_onlyRegs (fun u i => ?_) s _) (State.each_onlyRegs (fun u e => ?_) _ _))
    (State.showFarrier_onlyRegs _ _)
  · split <;> simp
  · split <;> simp

theorem State.loadAdc_onlyRegs (s : State) : s.onlyRegs s.loadAdc := by
  unfold State.loadAdc
  exact (State.onlyRegs_raise _ _ _).2 (State.each_onlyRegs (by simp) _ _)

/-! ### The registers of the start -/

/-- The field stands below the registers of the store, as those of RST do. -/
abbrev StartField (f : Fld) : Prop := f.key < Reg.nvStatusBusy.key

/-- The field stands among the registers of the store or above them. -/
def Fld.late (g : Fld) : Bool := decide (Reg.nvStatusBusy.key ≤ g.key)

section
variable {f : Fld} (hf : StartField f)
include hf

theorem StartField.low : LowField f := by
  have : Reg.nvStatusBusy.key ≤ Reg.safeStatusHealth.key := by decide
  omega

/-- No late field, nor a copy of one, is one of RST. -/
theorem StartField.ne_shift {g : Fld} (hg : Fld.late g = true) (d : Nat) : (g.shift d).key ≠ f.key := by
  have := of_decide_eq_true hg
  rw [Fld.key_shift]
  omega

theorem State.fget_fset_late (s : State) {g : Fld} (v : Nat) (hg : Fld.late g = true) :
    (s.fset g v).fget f = s.fget f := by
  have := of_decide_eq_true hg
  exact s.fget_fset_ne v (by omega)

theorem State.fget_raise_late (s : State) {g : Fld} (hg : Fld.late g = true) : (s.raise g).fget f = s.fget f :=
  s.fget_fset_late hf 1 hg

theorem State.fget_clear_late (s : State) {g : Fld} (hg : Fld.late g = true) : (s.clear g).fget f = s.fget f :=
  s.fget_fset_late hf 0 hg

theorem State.fget_fput_late (s : State) {g : Fld} (b : Bool) (hg : Fld.late g = true) : (s.fput g b).fget f = s.fget f :=
  s.fget_fset_late hf _ hg

theorem State.fsetWords_fget (s : State) {g : Fld} (i : Nat) (ws : List Nat) (hg : Fld.late g = true) :
    (s.fsetWords g i ws).fget f = s.fget f := by
  induction ws generalizing s i with
  | nil => rfl
  | cons w ws ih => exact (ih _ _).trans (s.fget_fset_ne w (hf.ne_shift hg _))

theorem State.setCway_fget (s : State) (a st : Nat) : (s.setCway a st).fget f = s.fget f := by
  have hport (p : Nat) : (Reg.cwayStatusState.port p).key ≠ f.key := hf.ne_shift (by decide) _
  rw [State.setCway, State.fget_fset_ne _ _ (hport _), State.fget_fset_ne _ _ (hport _)]

theorem State.openCway_fget (s : State) (a : Nat) : (s.openCway a).fget f = s.fget f := by
  have hheld (p : Nat) : (Reg.cwayStatusHeld.port p).key ≠ f.key := hf.ne_shift (by decide) _
  have hfault (p : Nat) : (Reg.cwayStatusFault.port p).key ≠ f.key := hf.ne_shift (by decide) _
  unfold State.openCway State.setCwayFault State.setCwayHeld
  split
  · rw [State.fget_fput_ne _ _ (hfault _), State.fget_fput_ne _ _ (hfault _), State.fget_fput_ne _ _ (hheld _),
      State.fget_fput_ne _ _ (hheld _), State.setCway_fget hf]
  · rfl

theorem State.openCauseways_fget (s : State) : s.openCauseways.fget f = s.fget f :=
  s.each_keeps (fun t => t.fget f) _ (fun t a => by
    rw [State.fget_ite, t.openCway_fget hf, ite_self]) _

theorem State.showNv_fget (s : State) (hn : Reg.rstStartCount.key ≠ f.key) : s.showNv.fget f = s.fget f := by
  simp +decide only [State.showNv, State.fget_fset_late hf, State.fget_fput_late hf, State.fget_fset_ne _ _ hn]

/-- What of the store shows in RST itself: the counts of starts and of failures, and the limit. -/
theorem State.showStore_fget (s : State) (hc : Reg.rstStatusFailCount.key ≠ f.key) (hl : Reg.rstStatusFailLimit.key ≠ f.key)
    (hn : Reg.rstStartCount.key ≠ f.key) : s.showStore.fget f = s.fget f := by
  have hcount (t : State) : t.showFailCount.fget f = t.fget f := t.fget_fset_ne _ hc
  unfold State.showStore
  dsimp only
  rw [State.fsetWords_fget hf _ _ _ (by decide)]
  simp +decide only [State.fget_fset_late hf, State.fget_fput_late hf, State.fget_fset_ne _ _ hl, hcount,
    State.showNv_fget hf _ hn]

theorem State.tryMark_fget (s : State) (hc : Reg.rstStatusFailCount.key ≠ f.key) (hn : Reg.rstStartCount.key ≠ f.key) :
    s.tryMark.fget f = s.fget f := by
  have hcount (t : State) : t.showFailCount.fget f = t.fget f := t.fget_fset_ne _ hc
  unfold State.tryMark
  split
  · rfl
  · dsimp only
    rw [State.showNv_fget hf _ hn, hcount, State.fget_ite, State.fget_raise_late hf _ (by decide), ite_self]
    rfl

end

/-! ### The source of waybeat -/

/-- The registers that a choice of source writes. -/
def wayFields : List Fld := [Reg.wayStatusSourceDisagree, Reg.wayStatusSource, Reg.wayStatusState, Reg.wayStatusHops]

theorem wayFields_late : ∀ g ∈ wayFields, Fld.late g = true := by decide

/-- A choice of source writes those registers and the clock's own state, and may append an information record. -/
theorem State.reSource_same {β : Type} (P : State → β)
    (hfset : ∀ (s : State) (v : Nat), ∀ g ∈ wayFields, P (s.fset g v) = P s)
    (hway : ∀ (s : State) (w : Way), P (s.setWay w) = P s)
    (hrecord : ∀ (s : State) (cls code source : Nat) (ctx : List Nat), P (s.record 0 cls code source ctx) = P s) (s : State) :
    P s.reSource = P s := by
  have hdisagree (t : State) (b : Bool) : P (t.fput Reg.wayStatusSourceDisagree b) = P t := hfset t _ _ (by simp [wayFields])
  have hsource (t : State) (v : Nat) : P (t.fset Reg.wayStatusSource v) = P t := hfset t v _ (by simp [wayFields])
  have hstate (t : State) (v : Nat) : P (t.fset Reg.wayStatusState v) = P t := hfset t v _ (by simp [wayFields])
  have hhops (t : State) (v : Nat) : P (t.fset Reg.wayStatusHops v) = P t := hfset t v _ (by simp [wayFields])
  have hacquire (t : State) : P t.acquire = P t := (hway _ _).trans (hstate t 1)
  unfold State.reSource
  dsimp only
  repeat' split
  all_goals simp only [hrecord, hacquire, hway, hstate, hhops, hsource, hdisagree]

theorem State.reSource_fget {f : Fld} (hf : StartField f) (s : State) : s.reSource.fget f = s.fget f :=
  State.reSource_same (fun t => t.fget f) (fun t v _ hg => t.fget_fset_late hf v (wayFields_late _ hg)) (fun _ _ => rfl)
    (fun t _ _ _ _ => State.record_fget hf.low.apart t _ _ _ _ (by decide)) s

/-! ### What a record below DF leaves alone -/

@[simp] theorem State.safety_ite (c : Prop) [Decidable c] (s t : State) :
    (if c then s else t).safety = if c then s.safety else t.safety := apply_ite State.safety c s t

@[simp] theorem State.enqueueTrace_safety (s : State) (e : TraceEntry) : (s.enqueueTrace e).safety = s.safety := by
  simp [State.enqueueTrace]

@[simp] theorem State.traceEvent_safety (s : State) (bit source kind : Nat) (data : List Nat) :
    (s.traceEvent bit source kind data).safety = s.safety := by
  simp [State.traceEvent]

@[simp] theorem State.writeTrace_safety (s : State) (e : TraceEntry) : (s.writeTrace e).safety = s.safety := by
  unfold State.writeTrace
  dsimp only
  repeat' split
  all_goals simp

@[simp] theorem State.traceTrigger_safety (s : State) (cond : Nat) : (s.traceTrigger cond).safety = s.safety := by
  simp [State.traceTrigger]

/-- The log is the safety unit's; the management port is not what a record touches. -/
@[simp] theorem State.append_portUp (s : State) (r : LogRec) : (s.append r).safety.portUp = s.safety.portUp := by
  simp [State.append]

@[simp] theorem State.updateHealth_portUp (s : State) : s.updateHealth.safety.portUp = s.safety.portUp := by
  unfold State.updateHealth
  dsimp only
  repeat' split
  all_goals simp

/-- An information record is its entry of the log, and the health. -/
theorem State.record_info_same {β : Type} (P : State → β) (happend : ∀ (s : State) (r : LogRec), P (s.append r) = P s)
    (hhealth : ∀ s : State, P s.updateHealth = P s) (s : State) (cls code source : Nat) (ctx : List Nat) :
    P (s.record 0 cls code source ctx) = P s := by
  unfold State.record State.recordAs
  dsimp only
  rw [hhealth, if_neg (by simp [State.failsStart]), happend]

@[simp] theorem State.reSource_power (s : State) : s.reSource.power = s.power :=
  State.reSource_same State.power (fun _ _ _ _ => rfl) (fun _ _ => rfl)
    (State.record_info_same State.power (fun t r => (t.append_start r).2.2) (fun t => t.updateHealth_start.2.2)) s

@[simp] theorem State.reSource_portUp (s : State) : s.reSource.safety.portUp = s.safety.portUp :=
  State.reSource_same (fun t => t.safety.portUp) (fun _ _ _ _ => rfl) (fun _ _ => rfl)
    (State.record_info_same (fun t => t.safety.portUp) State.append_portUp State.updateHealth_portUp) s

/-! ### Ports and the management port -/

@[simp] theorem State.darken_power (s : State) (p : Nat) : (s.darken p).power = s.power := by
  simp [State.darken, State.lanesOff, State.showLane, State.setLink]

@[simp] theorem State.mgmtSend_portUp (s : State) (type : Nat) (body : List Nat) :
    (s.mgmtSend type body).safety.portUp = s.safety.portUp := by
  have hto (t : State) (dst : List Nat) : (t.mgmtTo dst type 0 body).safety.portUp = t.safety.portUp := by
    unfold State.mgmtTo
    split <;> rfl
  unfold State.mgmtSend
  dsimp only
  split
  · exact hto _ _
  · exact (hto _ _).trans (hto _ _)

@[simp] theorem State.setReports_portUp (s : State) (rs : List Report) : (s.setReports rs).safety.portUp = s.safety.portUp := rfl

@[simp] theorem State.sendWaiting_portUp (s : State) : s.sendWaiting.safety.portUp = s.safety.portUp := by
  have hreport (t : State) (r : Report) : ((t.mgmtSend 0x02 r.body).bump Reg.safeReports).safety.portUp = t.safety.portUp := by
    rw [State.bump_safety, State.mgmtSend_portUp]
  unfold State.sendWaiting
  split
  · rfl
  · dsimp only
    rw [State.setReports_portUp, s.each_keeps (fun t => t.safety.portUp) _ hreport]

@[simp] theorem State.tryMark_safety (s : State) : s.tryMark.safety = s.safety := by
  unfold State.tryMark
  split
  · rfl
  · dsimp only
    refine ((State.showNv_onlyRegs _).same State.safety (fun _ _ => rfl)).trans ?_
    show State.safety (if _ then _ else _) = _
    rw [State.safety_ite]
    exact ite_self _

/-! ### Rails -/

@[simp] theorem State.pkgEvent_power (s : State) (e : PkgEvent) : (s.pkgEvent e).power = s.power := by
  simp [State.pkgEvent, State.vecEvent, State.vecSend]

theorem State.recordAs_turning {s : State} (hubUe : Bool) (sev cls code source : Nat) (ctx : List Nat)
    (h : s.power.turning = none) : (s.recordAs hubUe sev cls code source ctx).power.turning = none := by
  unfold State.recordAs
  dsimp only
  rw [(State.updateHealth_start _).2.2]
  split
  · exact State.enterPaddock_turning _ _ (by simp [h])
  · simp [h]

theorem State.powerRecord_turning {s : State} (hubUe : Bool) (sev code source subject value : Nat) (rest : List Nat)
    (h : s.power.turning = none) : (s.powerRecord hubUe sev code source subject value rest).power.turning = none := by
  unfold State.powerRecord State.powerEvent
  rw [State.power_ite, State.pkgEvent_power, ite_self]
  exact State.recordAs_turning _ _ _ _ _ _ h

theorem State.turnOn_turning (s : State) (k : Nat) : (s.turnOn k).power.turning = some k := by simp [State.turnOn]

/-- The rail that is turned on, and the others. -/
theorem State.turnOn_rail (s : State) (k : Nat) : ((s.turnOn k).rail k).on = true := by
  simp [State.turnOn, State.rail, State.setRail]

theorem State.turnOn_rail_ne (s : State) {j k : Nat} (h : j ≠ k) : (s.turnOn j).rail k = s.rail k := by
  simp [State.turnOn, State.rail, State.setRail, Map.get_set_ne _ _ _ _ h]

theorem State.setRail_rail (s : State) (k : Nat) (x : Rail) : (s.setRail k x).rail k = x := by simp [State.setRail, State.rail]

/-- Every rail of the order stands in it once. -/
theorem railAfter_ne {j k : Nat} (h : railAfter k = some j) : j ≠ k := by
  have hnext : ∀ r ∈ railOrder, railAfter r ≠ some r := by decide
  rintro rfl
  exact hnext j (List.mem_of_getElem? h) h

/-! ### What NV_LOAD applies -/

theorem State.applyFarrier_store (s : State) : s.applyFarrier.nv = s.nv ∧ s.applyFarrier.boot = s.boot := by
  have hteam {β : Type} (P : State → β) (hP : ∀ (m : SMap Nat) (s : State), P (s.withRegs m) = P s) (t : State) (k : Nat) :
      P ((t.showRepair k).showRoles k) = P t :=
    ((State.showRoles_onlyRegs _ k).same P hP).trans ((t.showRepair_onlyRegs k).same P hP)
  constructor
  · refine s.each_keeps State.nv _ (fun t e => ?_) _
    rw [(State.showTeam_units _ _).2.2.2.2.2.2]
    exact hteam State.nv (fun _ _ => rfl) _ _
  · refine s.each_keeps State.boot _ (fun t e => ?_) _
    rw [(State.showTeam_serving _ _).2.1]
    exact hteam State.boot (fun _ _ => rfl) _ _

theorem State.applyPlan_store (s : State) : s.applyPlan.nv = s.nv ∧ s.applyPlan.boot = s.boot := by
  have hshow : State.onlyRegs { s with thermal := { s.thermal with plan := s.nv.plan } } s.applyPlan := by
    unfold State.applyPlan
    simp only [State.onlyRegs_fput, State.onlyRegs_fset]
    exact State.each_onlyRegs (fun t m => t.showAge_onlyRegs m _) _ _
  exact ⟨hshow.same State.nv fun _ _ => rfl, hshow.same State.boot fun _ _ => rfl⟩

end Sys2Proof.Machine
end

section
/-!
PROOFS. A command that meets a partition in another state: O37.
-/
set_option Elab.async false
namespace Sys2Proof.Machine

/-- A collective of partition 0, in step 0, whose status record goes to DRAM unit 0 (R326). -/
def retiredStatusColl : Coll :=
  { id := 0, part := 0, str := 0, step := 0, desc := zeros 40 ++ leBytes 8 dramBase, phases := [], phase := 0, k := 0,
    sent := false, done := 0, buf := [], sends := [], degraded := false, issued := 0 }

/-- In IMAGE_LOAD, with DRAM unit 0 retired: partition 0 serves and runs that collective, and partition 1, which PART_SEL
selects, is QUIESCED with a RETURN waiting. -/
def flrBeforeReady : State :=
  (({ parts := [(0, { st := .inService }), (1, { st := .quiesced, returnWaits := true })],
      steps := [newStep 0 0 0 [] 0 0 0 0 [] [] none], torus := { colls := [retiredStatusColl] },
      nv := { units := [0] } } : State).fset Reg.rstStatusStage stImageLoad).fset Reg.partSelPart 1

/-- The function-level reset quiesces partition 0 first. The status record of its collective meets the retired unit, that UE
fails the start (R432), and paddock mode takes the RETURN of partition 1 away (R434) before the reset comes to cancel it. -/
theorem pfFlr_before_ready_sets_no_refused :
    (outState flrBeforeReady (exec .pfFlr flrBeforeReady)).fget (Reg.partStatusRefused.sel 1) = 0 := by decide +kernel

/-- Refutes O37: a reset of physical function 0 before READY can end in paddock mode halfway, and then the RETURN that waited
is gone without REFUSED. -/
theorem not_meetingPartitionCommands : ¬ Obligations.MeetingPartitionCommands := by
  unfold Obligations.MeetingPartitionCommands
  intro h
  obtain ⟨-, -, -, -, hflr, -⟩ := h flrBeforeReady 1 (by decide +kernel)
  obtain ⟨-, hset⟩ := (hflr (by decide) (by decide +kernel)).outState flrBeforeReady
  exact absurd (hset.symm.trans pfFlr_before_ready_sets_no_refused) (by decide)

end Sys2Proof.Machine
end

section
/-!
PROOFS. One load of an image at a time, and the commands of VOLZ: O38 and O18.
-/
set_option Elab.async false
namespace Sys2Proof.Machine

/-- What READY shows is the same where those registers are. -/
theorem State.fget_of_servingRegs {s t : State} (hs : s.stage = stReady)
    (h : servingRegs t.fields = servingRegs s.fields) {f : Fld} (hf : f ∈ servingFields) : t.fget f = s.fget f := by
  have hregs : servingRegs s.fields = some (servingFields.map s.fget) := if_pos hs
  rw [hregs, servingRegs] at h
  split at h
  · exact List.map_inj_left.1 (Option.some.inj h) f hf
  · cases h

/-- A load's state, as its end leaves it. -/
def State.sameLoad (s t : State) : Prop :=
  t.volz = s.volz ∧ t.fget Reg.volzStatusState = s.fget Reg.volzStatusState ∧
    t.fget Reg.volzResultCode = s.fget Reg.volzResultCode

theorem State.sameLoad.trans {s t u : State} (h : s.sameLoad t) (h' : t.sameLoad u) : s.sameLoad u := by
  obtain ⟨hv, hs, hc⟩ := h
  obtain ⟨hv', hs', hc'⟩ := h'
  exact ⟨hv'.trans hv, hs'.trans hs, hc'.trans hc⟩

theorem State.refusePart_sameLoad (s : State) (p : Nat) : s.sameLoad (s.refusePart p) :=
  have hne (f : Fld) (hf : f ∈ servingFields) : (Reg.partStatusRefused.sel p).key ≠ f.key :=
    (Fld.aside_iff _).1 (Fld.aside_sel p (by decide)) f hf
  ⟨(s.refusePart_serving p).1, s.fget_raise_ne (hne _ (by simp [servingFields])),
    s.fget_raise_ne (hne _ (by simp [servingFields]))⟩

/-- A RETURN is refused, waits or is done: none of these is a load. -/
theorem State.askReturn_sameLoad (s : State) (p : Nat) : s.sameLoad (s.askReturn p) := by
  unfold State.askReturn
  dsimp only
  split
  · exact s.refusePart_sameLoad p
  · next h =>
    split
    · exact ⟨rfl, rfl, rfl⟩
    · have hready : s.ready = true := by
        simp only [Bool.or_eq_true, Bool.not_eq_true', not_or, Bool.not_eq_false] at h
        exact h.1.1
      have hstage : s.stage = stReady := by
        simp only [State.ready, Bool.and_eq_true, beq_iff_eq] at hready
        exact hready.1
      obtain ⟨hv, -, hregs⟩ := s.returnPart_serving p
      exact ⟨hv, State.fget_of_servingRegs hstage hregs (by simp [servingFields]),
        State.fget_of_servingRegs hstage hregs (by simp [servingFields])⟩

theorem State.freePart_sameLoad (s : State) (k : Option LoadKind) : s.sameLoad (s.freePart k) := by
  unfold State.freePart
  split
  · unfold State.resumeReturn
    split
    · exact ⟨rfl, rfl, rfl⟩
    · exact State.sameLoad.trans ⟨rfl, rfl, rfl⟩ (State.askReturn_sameLoad _ _)
  · exact ⟨rfl, rfl, rfl⟩

/-- The load of a host or of a partition image that fails ends, with the verdict in RESULT. -/
theorem State.volzFail_ends {s : State} (v : Verdict) (hv : v.1 < Reg.volzResultCode.card) (ha : s.volz.kind ≠ some .slotA)
    (hb : s.volz.kind ≠ some .slotB) : (s.volzFail v).fget Reg.volzResultCode = v.1 ∧ (s.volzFail v).volzIdle = true ∧
      (s.volzFail v).volz.kind = none := by
  have hfail : s.volzFail v = (s.volzRefuse v).freePart s.volz.kind := by
    unfold State.volzFail
    split
    · next h => exact absurd h ha
    · next h => exact absurd h hb
    · rfl
  have hcode : (s.volzRefuse v).fget Reg.volzResultCode = v.1 := by
    rw [State.volzRefuse, State.pkgEvent_fget, State.fget_raise_ne _ (by decide), State.fget_fset_ne _ _ (by decide),
      State.fget_fset_same, Nat.mod_eq_of_lt hv]
  have hidle : (s.volzRefuse v).fget Reg.volzStatusState = vzIdle := by
    rw [State.volzRefuse, State.pkgEvent_fget, State.fget_raise_ne _ (by decide), State.fget_fset_ne _ _ (by decide),
      State.fget_fset_ne _ _ (by decide), State.fget_fset_same]
    rfl
  obtain ⟨hvolz, hs, hc⟩ := (s.volzRefuse v).freePart_sameLoad s.volz.kind
  rw [hfail, State.volzIdle, hs, hc, hvolz, hcode, hidle]
  exact ⟨rfl, rfl, by simp [State.volzRefuse]⟩

/-- Settles O38: a PARTIAL finds the block busy; an ABORT ends the load through the one end that every refused load has. -/
theorem oneVolzLoadAtATime : Obligations.OneVolzLoadAtATime := by
  unfold Obligations.OneVolzLoadAtATime
  intro s part
  refine ⟨fun hbusy => ?_, fun hbusy ha hb => ?_, fun hidle => if_pos hidle⟩
  · have hcheck : (s.fset Reg.volzCtrlPart (part % 32)).partialCheck (part % 32) = vrBusy := by
      have : (s.fset Reg.volzCtrlPart (part % 32)).volzIdle = false := by
        rw [State.volzIdle, State.fget_fset_ne _ _ (by decide)]
        exact hbusy
      simp [State.partialCheck, this]
    show Completes (execVolzPartial part s) _
    unfold execVolzPartial
    dsimp only
    rw [if_pos hcheck, hcheck]
    refine ⟨_, rfl, ?_, ?_, by simp, ?_, by simp⟩
    · rw [State.pkgEvent_fget, State.fget_raise_ne _ (by decide), State.fget_fset_ne _ _ (by decide), State.fget_fset_same]
      rfl
    · rw [State.pkgEvent_fget, State.fget_raise_same]
      rfl
    · rw [State.pkgEvent_fget, State.fget_raise_ne _ (by decide), State.fget_fset_ne _ _ (by decide),
        State.fget_fset_ne _ _ (by decide), State.fget_fset_ne _ _ (by decide)]
  · have hexec : exec .volzAbort s = .next (s.volzFail (vrAborted, noSection)) := if_neg (by simp [hbusy])
    exact ⟨_, hexec, State.volzFail_ends _ (by decide) ha hb⟩

/-- The pull of an image, as its start leaves the load. -/
theorem State.startPull_begins (s : State) (k : LoadKind) : (s.startPull k).volz.kind = some k ∧
    (s.startPull k).fget Reg.volzStatusState = vzPull := by
  refine ⟨rfl, ?_⟩
  rw [State.startPull, State.fget_fset_same]
  rfl

theorem State.takeImage_verifies (s : State) (b : List Nat) : (s.takeImage b).fget Reg.volzStatusState = vzVerify ∧
    (s.takeImage b).volz.incoming = b := by
  refine ⟨?_, by simp [State.takeImage]⟩
  rw [State.takeImage, State.fget_fset_same]
  rfl

theorem execVolzPartial_accepted {s : State} {part : Nat}
    (h : (s.fset Reg.volzCtrlPart (part % 32)).partialCheck (part % 32) = 0) :
    exec (.volzPartial part) s = .next (((s.fset Reg.volzCtrlPart (part % 32)).fset Reg.volzStatusLoadPart
      (part % 32)).startPull (.part (part % 32))) := by
  show execVolzPartial part s = _
  unfold execVolzPartial
  dsimp only
  rw [h, if_neg (by decide), if_neg (by simp)]

/-- Settles O18: each command is its definition in the state that admits it. -/
theorem volzCommandsComplete : Obligations.VolzCommandsComplete := by
  unfold Obligations.VolzCommandsComplete
  refine ⟨fun s hstage hsrc hidle hlen => ?full, fun part s hcheck => ?part, fun s hbusy => ?abort,
    fun bytes s hpull hkind hlink hlen => ?pulled, fun s hverify => ?verified, fun p u s hkind happly hu => ?commit⟩
  case full =>
    show execVolzFull s = _
    unfold execVolzFull
    rw [if_neg (by simp [hstage, hsrc, hidle]), if_neg (Nat.not_lt.2 hlen)]
  case part =>
    obtain ⟨hkind, hpull⟩ := State.startPull_begins
      ((s.fset Reg.volzCtrlPart (part % 32)).fset Reg.volzStatusLoadPart (part % 32)) (.part (part % 32))
    refine ⟨_, execVolzPartial_accepted hcheck, hkind, hpull, ?_⟩
    have hpart : part % 32 < Reg.volzStatusLoadPart.card := Nat.mod_lt _ (by decide)
    rw [State.startPull, State.fget_fset_ne _ _ (by decide)]
    exact (State.fget_fset_same _ _ _).trans (Nat.mod_eq_of_lt hpart)
  case abort => exact if_neg (by simp [hbusy])
  case pulled =>
    have hexec : exec (.volzPullComplete false bytes) s =
        .next ((s.charge 32 true bytes.length [2, 1]).takeImage (padTo s.volz.len (bytes.map (· % 256)))) := by
      show execVolzPullComplete false bytes s = _
      unfold execVolzPullComplete
      rw [if_neg (by simp [hpull]), if_neg hkind]
      dsimp only
      rw [if_neg (by simp [hkind]), if_neg (by simp [State.dmaError, hlink]), if_neg (Nat.not_lt.2 hlen)]
    exact ⟨_, hexec, State.takeImage_verifies _ _⟩
  case verified =>
    show execVolzVerifyComplete s = _
    unfold execVolzVerifyComplete
    rw [if_neg (by simp [hverify])]
    by_cases hdone : s.volzVerdict.1 = vrDone
    · rw [if_pos hdone, if_neg (by simp [hdone])]
    · rw [if_neg hdone, if_pos hdone]
  case commit =>
    show execVolzCommit s = _
    unfold execVolzCommit
    rw [hkind, hu]
    exact if_neg (by simp [happly])

end Sys2Proof.Machine
end

section
/-!
PROOFS. Reset and the stages of a start: O1. One lemma for each command whose effect is more than an assignment.
-/
set_option Elab.async false
namespace Sys2Proof.Machine

/-! ### Reset and the loss of a rail -/

/-- What a reset makes of the state, but for the registers of the causeways. -/
theorem State.resets_start (s : State) {cause : Nat} (hc : cause < 2) : (s.resets cause).stage = stPor ∧
    (s.resets cause).fget Reg.rstStatusCause = cause ∧ (s.resets cause).mem = [] ∧ (s.resets cause).pending = s.pending ∧
    (s.resets cause).nv = s.nv.afterLoss s.retireWaits := by
  have hcard : cause % Reg.rstStatusCause.card = cause := Nat.mod_eq_of_lt (Nat.lt_of_lt_of_le hc (by decide))
  have hways (t : State) (f : Fld) (hf : StartField f) : (t.each [0, 1, 2] (fun t a =>
      t.setCway a (if s.cway a = cwClosed then cwClosed else cwClosing))).fget f = t.fget f :=
    t.each_keeps (fun t => t.fget f) _ (fun t a => t.setCway_fget hf a _) _
  have hregs (t : State) : t.onlyRegs (t.each [0, 1, 2] (fun t a =>
      t.setCway a (if s.cway a = cwClosed then cwClosed else cwClosing))) :=
    State.each_onlyRegs (fun t a => t.setCway_onlyRegs a _) _ _
  refine ⟨?_, ?_, ?_, s.resets_pending cause, ?_⟩
  · unfold State.stage State.resets
    dsimp only
    rw [hways _ _ (by decide), State.fget_fset_ne _ _ (by decide), State.fget_fset_ne _ _ (by decide), State.fget_fset_same]
    rfl
  · unfold State.resets
    dsimp only
    rw [hways _ _ (by decide), State.fget_fset_ne _ _ (by decide), State.fget_fset_same, hcard]
  · exact (hregs _).same State.mem (fun _ _ => rfl)
  · refine ((hregs _).same State.nv (fun _ _ => rfl)).trans ?_
    show s.railsOff.nv.afterLoss s.railsOff.retireWaits = _
    rw [s.railsOff_retireWaits, s.railsOff_units.2.2.2.2.2.2]

theorem execRailPowerLoss_completes (k : Nat) (s : State) : Completes (exec (.railPowerLoss k) s)
    (fun t => t.rail k = (s.rail k).off ∧ t.sec.nvCmd = none ∧ t.safety.nvOpen = none) := by
  have hdark (t : State) : (t.each [0, 1, 2] (fun t a => if t.cway a = cwClosed then t else
      (t.each [2 * a, 2 * a + 1] State.darken).setCway a cwClosed)).power = t.power := by
    refine State.each_power (fun t a => ?_) t _
    rw [State.power_ite, (State.setCway_onlyRegs _ _ _).same State.power (fun _ _ => rfl),
      State.each_power (fun t p => t.darken_power p), ite_self]
  have hnv (t : State) : t.onlyRegs t.showNv := t.showNv_onlyRegs
  refine ⟨_, rfl, ?_, (hnv _).same (fun t => t.sec.nvCmd) (fun _ _ => rfl),
    (hnv _).same (fun t => t.safety.nvOpen) (fun _ _ => rfl)⟩
  unfold State.rail State.dropNvCmd
  rw [(hnv _).same State.power (fun _ _ => rfl), hdark]
  exact s.setRail_rail k _

/-! ### The ROM, the firmware and the store -/

theorem execRomStageEnd_completes {s : State} (hs : s.stage = stRom) (hp : s.paddock = false)
    (hfw : s.nv.fwA.isSome ∨ s.nv.fwB.isSome) : Completes (exec .romStageEnd s) (fun t => t.stage = stFwVerify ∧
      t.boot.fwSlot = some (if s.nv.fwTrialLost then s.nv.fwActive else s.nv.fwTrial.getD s.nv.fwActive)) := by
  have hslot : ¬ (s.nv.fwA.isNone ∧ s.nv.fwB.isNone) := by
    rintro ⟨ha, hb⟩
    simp_all
  show Completes (execRomStageEnd s) _
  unfold execRomStageEnd
  rw [if_neg (by simp [hs, hp]), if_neg (by simpa using hslot)]
  refine ⟨_, rfl, ?_, rfl⟩
  rw [State.stage, State.fget_fset_same]
  rfl

theorem State.romPaddock_start (s : State) : s.romPaddock.paddock = true ∧ s.romPaddock.boot.fwRefused = s.boot.fwRefused := by
  unfold State.romPaddock
  constructor
  · unfold State.paddock State.flag
    rw [State.showStore_fget (by decide) _ (by decide) (by decide) (by decide)]
    exact State.enterPaddock_paddock _ _ _
  · rw [(State.showStore_onlyRegs _).same State.boot (fun _ _ => rfl), (State.enterPaddock_start _ _ _).2.2]

theorem execFwVerifyEnd_completes {s : State} (hs : s.stage = stFwVerify) (hp : s.paddock = false) :
    Completes (exec .fwVerifyEnd s) (fun t => if s.checkFw ((s.nv.fwSlotBytes (s.boot.fwSlot.getD 0)).getD [])
      ((s.nv.fwSlotBytes (s.boot.fwSlot.getD 0)).getD []).length = 0 then t.stage = stNvLoad ∧ t.fget Reg.safeStatusCc6Ok = 1
      else t.boot.fwRefused = s.boot.fwRefused ++ [s.boot.fwSlot.getD 0] ∧
        (t.paddock = true ∨ t.boot.fwSlot = some (1 - s.boot.fwSlot.getD 0))) := by
  show Completes (execFwVerifyEnd s) _
  unfold execFwVerifyEnd
  rw [if_neg (by simp [hs, hp])]
  dsimp only
  split
  · next hok =>
    refine ⟨_, rfl, ?_, ?_⟩
    · rw [State.stage, State.fget_fset_same]
      rfl
    · rw [State.fget_fset_ne _ _ (by decide), State.fget_raise_same]
      rfl
  · split
    · obtain ⟨hpad, href⟩ := State.romPaddock_start
        { s with boot := { s.boot with fwRefused := s.boot.fwRefused ++ [s.boot.fwSlot.getD 0] } }
      exact ⟨_, rfl, href, .inl hpad⟩
    · exact ⟨_, rfl, rfl, .inr rfl⟩

/-- Once the store is applied, a start that has not failed too often goes on. -/
theorem State.nvLoaded_goes_on {s x : State} (hnv : x.nv = s.nv.countStart) (hboot : x.boot = s.boot)
    (hfail : s.nv.failCount < s.failLimit) :
    Completes (if x.failLimit ≤ x.nv.failCount then .next (x.enterPaddock 4 0)
      else .next ((x.fset Reg.rstStatusStage stPinsSet).updateHealth))
      (fun t => t.stage = stPinsSet ∧ t.nv = s.nv.countStart) := by
  have hlimit : x.failLimit = s.failLimit := by unfold State.failLimit State.userCfg; rw [hboot]
  have hcount : x.nv.failCount = s.nv.failCount := by rw [hnv]; rfl
  rw [hlimit, hcount, if_neg (Nat.not_le.2 hfail)]
  refine ⟨_, rfl, ?_, (State.updateHealth_units _).2.2.2.2.2.2.trans hnv⟩
  rw [State.stage, State.updateHealth_fget (LowField.apart (by decide)), State.fget_fset_same]
  rfl

theorem State.showLoaded_onlyRegs (s : State) : s.onlyRegs ((s.showRetired.showStore).showIncs) :=
  (s.showRetired_onlyRegs.trans (State.showStore_onlyRegs _)).trans (State.showIncs_onlyRegs _)

/-- Where no user image is stored, NV_LOAD counts the start and applies the store. -/
theorem execNvLoadEnd_completes {s : State} (hs : s.stage = stNvLoad) (hp : s.paddock = false) (hok : s.nvOk = true)
    (huser : s.nv.userNv = none) (hfail : s.nv.failCount < s.failLimit) :
    Completes (exec .nvLoadEnd s) (fun t => t.stage = stPinsSet ∧ t.nv = s.nv.countStart) := by
  have hload : State.loadUser { s with nv := s.nv.countStart } = ({ s with nv := s.nv.countStart }, true) := by
    have hnone : s.nv.countStart.userNv = none := huser
    unfold State.loadUser
    rw [hnone]
  have hshow (t : State) (v : Nat) := (State.onlyRegs_fset t _ Reg.torPosPos v).2 t.showLoaded_onlyRegs
  obtain ⟨hnv, hboot⟩ := State.applyFarrier_store { s with nv := s.nv.countStart }
  obtain ⟨hnv', hboot'⟩ := State.applyPlan_store (State.applyFarrier { s with nv := s.nv.countStart })
  show Completes (execNvLoadEnd s) _
  unfold execNvLoadEnd
  rw [if_neg (by simp [hs, hp, hok])]
  dsimp only
  rw [hload]
  exact State.nvLoaded_goes_on (((hshow _ _).same State.nv fun _ _ => rfl).trans (hnv'.trans hnv))
    (((hshow _ _).same State.boot fun _ _ => rfl).trans (hboot'.trans hboot)) hfail

/-! ### The pins and the rails -/

theorem execPinsSetEnd_completes {s : State} (hs : s.stage = stPinsSet) (hp : s.paddock = false)
    (hpins : s.pins.configured = false) (hcool : s.setPins.loadAdc.tooHot = false) :
    Completes (exec .pinsSetEnd s)
      (fun t => t.pins.configured = true ∧ t.power.turning = some 15 ∧ (t.rail 15).on = true) := by
  show Completes (execPinsSetEnd s) _
  unfold execPinsSetEnd State.startRails
  rw [if_neg (by simp [hs, hp, hpins]), if_neg (by simp [hcool])]
  refine ⟨_, rfl, ?_, State.turnOn_turning _ _, State.turnOn_rail _ _⟩
  rw [State.turnOn, State.commandRail_pins]
  show s.setPins.loadAdc.pins.configured = true
  rw [(State.loadAdc_onlyRegs _).same State.pins (fun _ _ => rfl)]
  rfl

theorem execRailGood_completes {k : Nat} {s : State} (ht : s.power.turning = some k) : Completes (exec (.railGood k) s)
    (fun t => (t.rail k).good = true ∧ t.power.turning = railAfter k) := by
  have hgood : ((s.setRail k { s.rail k with good := true }).rail k).good = true := by rw [State.setRail_rail]
  show Completes (execRailGood k s) _
  unfold execRailGood
  rw [if_neg (by simp [ht])]
  dsimp only
  split
  · next j hj =>
    refine ⟨_, rfl, ?_, (State.turnOn_turning _ j).trans hj.symm⟩
    rw [State.turnOn_rail_ne _ (railAfter_ne hj)]
    exact hgood
  · next hj =>
    rw [hj]
    split
    · exact ⟨_, rfl, hgood, rfl⟩
    · exact ⟨_, rfl, hgood, rfl⟩

theorem execRailGoodTimeout_completes {k : Nat} (word : Nat) {s : State} (ht : s.power.turning = some k) :
    Completes (exec (.railGoodTimeout k word) s) (fun t => t.power.turning = none) := by
  show Completes (execRailGoodTimeout k word s) _
  unfold execRailGoodTimeout
  rw [if_neg (by simp [ht])]
  exact ⟨_, rfl, State.powerRecord_turning _ _ _ _ _ _ _ rfl⟩

theorem execRailOnTempRecheck_completes {s : State} (hheld : s.power.heldOff = true) (hp : s.paddock = false)
    (hcool : s.tooHot = false) : Completes (exec .railOnTempRecheck s)
      (fun t => t.power.heldOff = false ∧ t.power.turning = some 15) := by
  show Completes (execRailOnTempRecheck s) _
  unfold execRailOnTempRecheck State.startRails
  rw [if_pos (by simp [hheld, hp]), if_neg (by simp [hcool])]
  refine ⟨_, rfl, ?_, State.turnOn_turning _ _⟩
  rw [State.turnOn, State.commandRail_power]
  rfl

/-! ### DRAM_UP to IMAGE_LOAD -/

theorem execDramUpEnd_completes {s : State} (hs : s.stage = stDramUp) (hp : s.paddock = false) :
    Completes (exec .dramUpEnd s) (fun t => t.stage = stLinksUp ∧ t.fget Reg.dramStatusStacksUp = 0xFF) := by
  show Completes (execDramUpEnd s) _
  unfold execDramUpEnd
  rw [if_neg (by simp [hs, hp])]
  refine ⟨_, rfl, ?_, ?_⟩
  · rw [State.stage, State.send_fget, State.fget_fset_same]
    rfl
  · rw [State.send_fget, State.fget_fset_ne _ _ (by decide), State.fget_fset_same]
    rfl

theorem execLinksUpEnd_completes {s : State} (hs : s.stage = stLinksUp) (hp : s.paddock = false) :
    Completes (exec .linksUpEnd s) (fun t => t.stage = stImageLoad ∧ t.safety.portUp = true) := by
  show Completes (execLinksUpEnd s) _
  unfold execLinksUpEnd
  rw [if_neg (by simp [hs, hp])]
  refine ⟨_, rfl, ?_, ?_⟩
  · rw [State.stage, State.tryMark_fget (by decide) _ (by decide) (by decide), State.reSource_fget (by decide),
      State.fget_fset_ne _ _ (by decide), State.fget_fset_same]
    rfl
  · rw [State.tryMark_safety, State.reSource_portUp]
    exact State.sendWaiting_portUp _

theorem execImageLoadSlot_marked {s : State} (hs : s.imageLoad = true) (hsrc : s.bootSrc ≠ 1) (hkind : s.volz.kind = none)
    (hrefused : s.boot.imgRefused = []) (hmark : s.boot.marked = true) :
    exec .imageLoadSlot s = .next (s.loadSlot s.boot.imgSlot) := by
  have hsame : s.tryMark = s := if_pos (by simp [hmark])
  show execImageLoadSlot s = _
  unfold execImageLoadSlot
  rw [if_neg (by simp [hs, hsrc, hkind, hrefused]), hsame]
  exact congrArg _ (if_pos hmark)

/-- A load that commits. -/
theorem State.volzDone_ends (s : State) : s.volzDone.fget Reg.volzResultCode = vrDone ∧ s.volzDone.volz.kind = none := by
  refine ⟨?_, by simp [State.volzDone]⟩
  rw [State.volzDone, State.pkgEvent_fget, State.fget_raise_ne _ (by decide), State.fget_fset_ne _ _ (by decide),
    State.fget_fset_same]
  rfl

theorem execImageLoadEnd_completes {s : State} (hs : s.imageLoad = true) (happly : s.fget Reg.volzStatusState = vzApply) :
    Completes (exec .imageLoadEnd s)
      (fun t => t.stage = stSelfCal ∧ t.fget Reg.volzResultCode = vrDone ∧ t.volz.kind = none) := by
  have hstage : Fld.apart Reg.rstStatusStage := LowField.apart (by decide)
  have hcode : Fld.apart Reg.volzResultCode := servingFields_apart _ (by simp [servingFields])
  show Completes (execImageLoadEnd s) _
  unfold execImageLoadEnd
  rw [if_neg (by simp [hs, happly])]
  dsimp only
  rw [completes_next]
  refine ⟨?_, ?_, ?_⟩
  · rw [State.stage, State.updateHealth_fget hstage, State.fget_fset_same]
    rfl
  · rw [State.updateHealth_fget hcode, State.fget_fset_ne _ _ (by decide)]
    exact (State.volzDone_ends _).1
  · rw [(State.updateHealth_start _).1, State.fset_volz]
    exact (State.volzDone_ends _).2

/-! ### SELF_CAL to READY -/

theorem execSelfCalEnd_completes (fits : List SelfFit) {s : State} (hs : s.stage = stSelfCal) (hp : s.paddock = false) :
    Completes (exec (.selfCalEnd fits) s) (fun t => t.stage = stCauseway) := by
  show Completes (execSelfCalEnd fits s) _
  unfold execSelfCalEnd
  rw [if_neg (by simp [hs, hp])]
  dsimp only
  rw [completes_next, State.stage, State.openCauseways_fget (by decide), State.fget_fset_same]
  rfl

/-- In READY the partitions that start by themselves leave the stage, the lock, and the time of READY. -/
theorem State.autoStart_serving (s : State) : s.autoStart.boot.readyAt = s.boot.readyAt ∧
    servingRegs s.autoStart.fields = servingRegs s.fields := by
  unfold State.autoStart
  refine ⟨State.each_readyAt (fun t p => ?_) s _, State.each_servingRegs (fun t p => ?_) s _⟩
  · rw [State.boot_ite, readyAt_ite, (t.returnPart_serving p).2.1, ite_self]
  · rw [State.fields_ite, servingRegs_ite, (t.returnPart_serving p).2.2, ite_self]

theorem State.readyWrites_fget {f : Fld} (hf : StartField f) (s : State) (hc : Reg.rstStatusFailCount.key ≠ f.key)
    (hl : Reg.rstStatusFailLimit.key ≠ f.key) (hn : Reg.rstStartCount.key ≠ f.key) : s.readyWrites.fget f = s.fget f := by
  unfold State.readyWrites
  split
  · exact State.showStore_fget hf _ hc hl hn
  · exact State.showStore_fget hf _ hc hl hn

theorem State.readyWrites_readyAt (s : State) : s.readyWrites.boot.readyAt = s.boot.readyAt := by
  unfold State.readyWrites
  split
  · rw [(State.showStore_onlyRegs _).same State.boot (fun _ _ => rfl)]
  · rw [(State.showStore_onlyRegs _).same State.boot (fun _ _ => rfl)]

/-- What READY sets up before partitions start: the fit, the rails' targets and the trace unit. -/
theorem State.readyUnits_fget {f : Fld} (hf : StartField f) (s : State) :
    (s.resetFit.retarget.armTrace).fget f = s.fget f := by
  have hfit (t : State) : t.resetFit.fget f = t.fget f :=
    (State.fget_fset_late hf _ _ (by decide)).trans (State.fget_fset_late hf _ _ (by decide))
  have hrails (t : State) : t.retarget.fget f = t.fget f := by
    unfold State.retarget
    exact t.each_keeps (fun t => t.fget f) _ (fun _ _ => State.setRail_fget _ _ _ _) _
  have htrace (t : State) : t.armTrace.fget f = t.fget f := by
    unfold State.armTrace
    simp +decide only [State.fget_clear_late hf, State.fget_fset_late hf]
    rfl
  rw [htrace, hrails, hfit]

theorem State.readyUnits_boot (s : State) : (s.resetFit.retarget.armTrace).boot = s.boot := by
  have hrails (t : State) : t.retarget.boot = t.boot := by
    unfold State.retarget
    exact State.each_boot (fun _ _ => State.setRail_boot _ _ _) _ _
  have htrace (t : State) : t.armTrace.boot = t.boot := by simp [State.armTrace]
  rw [htrace, hrails]
  rfl

/-- The stage, the lock and the time of READY stand as they were set, through what READY goes on to do. -/
theorem State.ready_keeps {s : State} (hs : s.stage = stReady) (hlock : s.fget Reg.rstStatusBootLock = 1) :
    let t := ((((s.readyWrites).resetFit).retarget).armTrace).autoStart.updateHealth
    t.stage = stReady ∧ t.boot.readyAt = s.boot.readyAt ∧ t.fget Reg.rstStatusBootLock = 1 := by
  have hset {f : Fld} (hf : StartField f) (hc : Reg.rstStatusFailCount.key ≠ f.key)
      (hl : Reg.rstStatusFailLimit.key ≠ f.key) (hn : Reg.rstStartCount.key ≠ f.key) :
      (((s.readyWrites).resetFit).retarget).armTrace.fget f = s.fget f :=
    (State.readyUnits_fget hf _).trans (State.readyWrites_fget hf _ hc hl hn)
  have hstage : (((s.readyWrites).resetFit).retarget).armTrace.stage = stReady :=
    (hset (f := Reg.rstStatusStage) (by decide) (by decide) (by decide) (by decide)).trans hs
  have hserves {f : Fld} (hf : f ∈ servingFields) :
      ((((s.readyWrites).resetFit).retarget).armTrace).autoStart.updateHealth.fget f =
        (((s.readyWrites).resetFit).retarget).armTrace.fget f :=
    (State.updateHealth_fget (servingFields_apart f hf) _).trans
      (State.fget_of_servingRegs hstage (State.autoStart_serving _).2 hf)
  refine ⟨(hserves (by simp [servingFields])).trans hstage, ?_, ?_⟩
  · rw [(State.updateHealth_start _).2.1, (State.autoStart_serving _).1, State.readyUnits_boot, State.readyWrites_readyAt]
  · rw [hserves (by simp [servingFields]), hset (by decide) (by decide) (by decide) (by decide), hlock]

theorem execCausewayOpenEnd_completes {s : State} (hs : s.stage = stCauseway) (hp : s.paddock = false)
    (hd : s.discovered = true) : Completes (exec .causewayOpenEnd s)
      (fun t => t.stage = stReady ∧ t.boot.readyAt = s.now ∧ t.fget Reg.rstStatusBootLock = 1) := by
  show Completes (execCausewayOpenEnd s) _
  unfold execCausewayOpenEnd
  rw [if_neg (by simp [hs, hp, hd])]
  dsimp only
  rw [completes_next]
  have hway (t : State) (v : Nat) {f : Fld} (hlo : Reg.rstReadyWayLo.key ≠ f.key) (hhi : Reg.rstReadyWayHi.key ≠ f.key) :
      (t.fset64 Reg.rstReadyWayLo Reg.rstReadyWayHi v).fget f = t.fget f := by
    rw [State.fset64, State.fget_fset_ne _ _ hhi, State.fget_fset_ne _ _ hlo]
  refine State.ready_keeps ?_ ?_
  · rw [State.stage, hway _ _ (by decide) (by decide), State.fget_raise_ne _ (by decide), State.fget_fset_same]
    rfl
  · rw [hway _ _ (by decide) (by decide), State.fget_raise_same]
    rfl

/-! ### Failed starts -/

theorem execStartDeadlineExpire_completes {s : State} (hs : s.stage ≠ stPor) (hlt : s.stage < stReady)
    (hp : s.paddock = false) : Completes (exec .startDeadlineExpire s)
      (fun t => t.paddock = true ∧ t.fget Reg.rstStatusReason = 1 ∧ t.fget Reg.rstFaultStage = s.stage) := by
  have hcard : s.stage < Reg.rstFaultStage.card := Nat.lt_of_lt_of_le hlt (by decide)
  show Completes (execStartDeadlineExpire s) _
  unfold execStartDeadlineExpire
  rw [if_neg (by simp [hs, hlt]), completes_next]
  exact ⟨s.enterPaddock_paddock 1 0, State.enterPaddock_reason 0 hp (by decide), State.enterPaddock_faultStage 1 0 hp hcard⟩

theorem execInternalResetEnd_completes {s : State} (hs : s.stage = stPor) : Completes (exec .internalResetEnd s)
    (fun t => t.stage = stRom ∧ t.now = 0 ∧ t.dbgState.ir = 1) := by
  show Completes (execInternalResetEnd s) _
  unfold execInternalResetEnd
  rw [if_neg (by simp [hs])]
  refine ⟨_, rfl, ?_, rfl, rfl⟩
  rw [State.stage, State.fget_fset_same]
  rfl

/-- Settles O1: each command by its lemma above. -/
theorem startCommandsComplete : Obligations.StartCommandsComplete := by
  unfold Obligations.StartCommandsComplete
  refine ⟨fun ns s hns => ?perst, fun s => ?powerOn, execRailPowerLoss_completes, fun s => execInternalResetEnd_completes,
    fun s => execRomStageEnd_completes, fun s => execFwVerifyEnd_completes, fun s => execNvLoadEnd_completes,
    fun s => execPinsSetEnd_completes, fun k s => execRailGood_completes, fun k word s => execRailGoodTimeout_completes word,
    fun s => execRailOnTempRecheck_completes, fun s => execDramUpEnd_completes, fun s => execLinksUpEnd_completes,
    fun s => execImageLoadSlot_marked, fun s => execImageLoadEnd_completes, fun fits s => execSelfCalEnd_completes fits,
    fun s => execCausewayOpenEnd_completes, fun s => execStartDeadlineExpire_completes, fun n s hpend hready => ?retry⟩
  case perst =>
    show Completes (execPerstNAssert ns s) _
    unfold execPerstNAssert
    rw [if_neg (Nat.not_lt.2 hns), completes_next]
    exact s.resets_start (by decide)
  case powerOn => exact ⟨_, rfl, s.resets_start (by decide)⟩
  case retry =>
    show execFailCountNvRetry s = _
    unfold execFailCountNvRetry
    rw [hpend]
    exact congrArg _ (if_neg (by simp [hready]))

end Sys2Proof.Machine
end

section
/-!
PROOFS. Where the TILE registers of a team stand (O42).
-/
set_option Elab.async false
namespace Sys2Proof.Machine

/-- The TILE registers as they are given, for spare tile 32 of team 0, lie within its block of 0x100 bytes. -/
theorem Reg.tileRegs_block : ∀ f ∈ Reg.tileRegs, 0x1001800 ≤ f.addr ∧ f.addr < 0x1001900 := by decide

/-- Where tile `k` of team `m` has a TILE register. -/
theorem Fld.tile_addr (f : Fld) (m k : Nat) : (f.tile m k).addr = f.addr + (m * 0x4000 + tileOffset k) := rfl

/-- Settles O42: a register's offset is that from the block of spare tile 32, and a tile's block stands at `tileOffset`. -/
theorem tileRegisterPlaces : Obligations.TileRegisterPlaces := by
  unfold Obligations.TileRegisterPlaces
  intro f hf m k
  obtain ⟨hlo, hhi⟩ := Reg.tileRegs_block f hf
  refine ⟨f.addr - 0x1001800, by omega, fun hk => ?_, ?_, ?_⟩
  · rw [Fld.tile_addr, tileOffset, if_pos hk]
    omega
  · rw [Fld.tile_addr, tileOffset, if_neg (by decide)]
    omega
  · rw [Fld.tile_addr, tileOffset, if_neg (by decide)]
    omega

end Sys2Proof.Machine
end

section
/-!
SUPPORT. What a team's status registers leave alone: the registers of its window that `showTeam` does not write, its teams and tiles.
-/
set_option Elab.async false
namespace Sys2Proof.Machine

theorem State.team_congr {s t : State} (h : t.teams = s.teams) (m : Nat) : t.team m = s.team m := by
  rw [State.team, State.team, h]

theorem State.tile_congr {s t : State} (h : t.tiles = s.tiles) (m k : Nat) : t.tile m k = s.tile m k := by
  rw [State.tile, State.tile, h]

/-! ### The registers of a team window -/

/-- The registers of a team that follow its state (R81, R109, R127, R158), those of its tiles excepted. -/
def shownFields : List Fld :=
  [Reg.teamStatusQuiesced, Reg.teamStatusStopped, Reg.teamStatusTakeover, Reg.teamStatusSwapPending, Reg.teamStatusDrain,
   Reg.teamLive, Reg.accStatusHold, Reg.outrStatusArbQueued, Reg.outrStatusRefBusy, Reg.outrStatusDegraded,
   Reg.outrStatusOutOfService, Reg.outrStatusSplitStall, Reg.outrStatusArbActive, Reg.outrStatusForcedCheck,
   Reg.calStatusTracking, Reg.outrArbState]

/-- The field stands below the TILE registers of its team window, and is none that follows the team. -/
def Fld.unshown (f : Fld) : Bool :=
  decide (f.key < Reg.tileStatusLive.key) && shownFields.all (fun g => g.key != f.key)

section
variable (s : State) {f g : Fld} (t : Nat)

theorem Fld.team_key_ne (h : g.key ≠ f.key) : (g.team t).key ≠ (f.team t).key := by
  simp only [Fld.team, Fld.key_shift]
  omega

/-- A TILE register stands above the registers of its team. -/
theorem Fld.tile_key_ne (k : Nat) (h : f.key < g.key) : (g.tile t k).key ≠ (f.team t).key := by
  simp only [Fld.tile, Fld.team, Fld.key_shift]
  omega

theorem State.fget_fset_team (v : Nat) (h : g.key ≠ f.key) : (s.fset (g.team t) v).fget (f.team t) = s.fget (f.team t) :=
  s.fget_fset_ne v (Fld.team_key_ne t h)

theorem State.fget_fput_team (b : Bool) (h : g.key ≠ f.key) : (s.fput (g.team t) b).fget (f.team t) = s.fget (f.team t) :=
  s.fget_fset_team t _ h

theorem State.fget_fput_same (b : Bool) (h : f.card = 2) : (s.fput f b).fget f = if b then 1 else 0 := by
  rw [State.fput, State.fget_fset_same, h]
  cases b <;> rfl

theorem State.showTile_fget_team (k : Nat) (h : f.key < Reg.tileStatusLive.key) :
    (s.showTile t k).fget (f.team t) = s.fget (f.team t) := by
  have hne (g : Fld) (hg : Reg.tileStatusLive.key ≤ g.key) : (g.tile t k).key ≠ (f.team t).key :=
    Fld.tile_key_ne t k (by omega)
  unfold State.showTile
  dsimp only
  rw [State.fget_fput_ne _ _ (hne _ (by decide)), State.fget_fput_ne _ _ (hne _ (by decide)),
    State.fget_fput_ne _ _ (hne _ (by decide)), State.fget_fset_ne _ _ (hne _ (by decide)),
    State.fget_fset_ne _ _ (hne _ (by decide)), State.fget_fset_ne _ _ (hne _ (by decide)),
    State.fget_fput_ne _ _ (hne _ (by decide))]

theorem State.showTeam_fget (h : Fld.unshown f = true) : (s.showTeam t).fget (f.team t) = s.fget (f.team t) := by
  simp only [Fld.unshown, Bool.and_eq_true, decide_eq_true_eq, List.all_eq_true, bne_iff_ne] at h
  obtain ⟨hlow, hshown⟩ := h
  simp only [shownFields, List.forall_mem_cons] at hshown
  have htiles (u : State) (ks : List Nat) : (u.each ks (fun u k => u.showTile t k)).fget (f.team t) = u.fget (f.team t) :=
    u.each_keeps (fun u => u.fget (f.team t)) _ (fun u k => u.showTile_fget_team t k hlow) ks
  simp only [State.showTeam, State.showTracking, State.fget_fset_team, State.fget_fput_team, hshown, htiles, ne_eq,
    not_false_eq_true]

/-- FORCED_CHECK as `showTeam` writes it. -/
theorem State.showTeam_forcedCheck : (s.showTeam t).fget (Reg.outrStatusForcedCheck.team t) =
    if (s.team t).forced.isEmpty then 0 else 1 := by
  have hteam (u : State) (ks : List Nat) : (u.each ks (fun u k => u.showTile t k)).team t = u.team t :=
    u.each_keeps (fun u => u.team t) _ (fun u k => State.team_congr (u.showTile_units t k).2.2.2.1 t) ks
  unfold State.showTeam State.showTracking
  dsimp only
  rw [State.fget_fset_team _ _ _ (by decide), State.fget_fput_team _ _ _ (by decide),
    State.fget_fput_same _ _ rfl, hteam]
  cases (s.team t).forced.isEmpty <;> rfl

end

/-! ### Teams, tiles and groups -/

section
variable (s : State) (t u : Nat)

@[simp] theorem State.showTeam_team : (s.showTeam t).team u = s.team u :=
  State.team_congr (s.showTeam_units t).2.2.2.1 u

@[simp] theorem State.showTeam_tile (k : Nat) : (s.showTeam t).tile u k = s.tile u k :=
  State.tile_congr (s.showTeam_units t).2.2.2.2.1 u k

@[simp] theorem State.showTeam_group (g : Nat) : (s.showTeam t).group u g = s.group u g := by
  rw [State.group, State.showTeam_team, State.group]

@[simp] theorem State.showGroup_team (g : Nat) : (s.showGroup t g).team u = s.team u :=
  State.team_congr (s.showGroup_units t g).2.2.2.1 u

@[simp] theorem State.setGroup_group (g : Nat) (x : Group) : (s.setGroup t g x).group t g = x := by
  rw [State.group, State.setGroup, State.showGroup_team, State.team_setTeam, Map.get_set_same]

@[simp] theorem State.fset_team (f : Fld) (v : Nat) : (s.fset f v).team u = s.team u := State.team_congr rfl u
@[simp] theorem State.fput_team (f : Fld) (b : Bool) : (s.fput f b).team u = s.team u := State.team_congr rfl u
@[simp] theorem State.raise_team (f : Fld) : (s.raise f).team u = s.team u := State.team_congr rfl u
@[simp] theorem State.setTile_team (k : Nat) (x : Tile) : (s.setTile t k x).team u = s.team u := State.team_congr rfl u
@[simp] theorem State.setTeam_tile (x : Team) (k : Nat) : (s.setTeam t x).tile u k = s.tile u k := State.tile_congr rfl u k
@[simp] theorem State.tile_setTile (k : Nat) (x : Tile) : (s.setTile t k x).tile t k = x := by
  simp [State.tile, State.setTile]

@[simp] theorem State.bumpTeam_teams (f : Fld) (n : Nat) : (s.bumpTeam t f n).teams = s.teams := by
  unfold State.bumpTeam
  split <;> rfl

@[simp] theorem State.bumpTeam_team (f : Fld) (n : Nat) : (s.bumpTeam t f n).team u = s.team u :=
  State.team_congr (s.bumpTeam_teams t f n) u

theorem State.bumpTeam_group (f : Fld) (n g : Nat) : (s.bumpTeam t f n).group u g = s.group u g := by
  rw [State.group, State.bumpTeam_team, State.group]

/-- What the tile that is set has as it had, every tile has as it had. -/
theorem State.setTile_keeps {β : Type} (P : Tile → β) {k : Nat} {x : Tile} (h : P x = P (s.tile t k)) (j : Nat) :
    P ((s.setTile t k x).tile u j) = P (s.tile u j) := by
  unfold State.tile State.setTile at *
  by_cases hkey : tileKey t k = tileKey u j
  · rw [← hkey, Map.get_set_same, h]
  · rw [Map.get_set_ne _ _ _ _ hkey]

end

end Sys2Proof.Machine
end

section
/-!
PROOFS. Plane writes, drains and the outrider's checks: O11. One lemma for each command whose effect is more than an assignment.
-/
set_option Elab.async false
namespace Sys2Proof.Machine

/-! ### Sampling -/

theorem State.makeDue_due (s : State) (m r why : Nat) (h : Map.get 0 (s.team m).due r = 0) :
    Map.get 0 ((s.makeDue m r why).team m).due r = why := by
  simp [State.makeDue, h]

theorem execSampleDue_completes {m r : Nat} {s : State} (hr : r < 32) (hdue : Map.get 0 (s.team m).due r = 0) :
    Completes (exec (.sampleDue m r) s) (fun t => Map.get 0 (t.team m).due r = 1) := by
  show Completes (execSampleDue m r s) _
  unfold execSampleDue
  rw [if_pos hr, completes_next]
  exact s.makeDue_due m r 1 hdue

theorem execOutrSample_completes {m r : Nat} {s : State} (hr : r < 32) (hdue : Map.get 0 (s.team m).due r = 0) :
    Completes (exec (.outrSample m r) s)
      (fun t => Map.get 0 (t.team m).due r = 2 ∧ t.fget (Reg.outrCtrlRole.team m) = r) := by
  have hcard : r % Reg.outrCtrlRole.card = r := Nat.mod_eq_of_lt (Nat.lt_of_lt_of_le hr (by decide))
  show Completes (execOutrSample m r s) _
  unfold execOutrSample
  dsimp only
  rw [if_pos hr, completes_next]
  refine ⟨State.makeDue_due _ m r 2 hdue, ?_⟩
  rw [State.makeDue, State.setTeam_fget, State.fget_fset_same]
  exact hcard

/-! ### Forced checks -/

theorem State.forceCheck_forced (s : State) (m r : Nat) : ((s.forceCheck m r).team m).forced.contains r = true := by
  unfold State.forceCheck
  dsimp only
  rw [State.bumpTeam_team, State.team_setTeam]
  dsimp only
  split
  · assumption
  · simp

theorem execForcedCheck_begun {m r : Nat} {s : State} (h : (s.team m).samples.any (fun e => e.1 == r) = true) :
    Completes (exec (.forcedCheck m r) s)
      (fun t => (t.team m).forced.contains r = true ∧ t.fget (Reg.outrStatusForcedCheck.team m) = 1) := by
  have hforced := s.forceCheck_forced m r
  have hne : ((s.forceCheck m r).team m).forced.isEmpty = false := by
    cases hl : ((s.forceCheck m r).team m).forced with
    | nil => simp [hl] at hforced
    | cons => rfl
  show Completes (execForcedCheck m r s) _
  unfold execForcedCheck
  dsimp only
  rw [if_pos h, completes_next]
  exact ⟨by rw [State.showTeam_team, hforced], by rw [State.showTeam_forcedCheck, hne]; rfl⟩

theorem execForcedCheck_due {m r : Nat} {s : State} (h : (s.team m).samples.any (fun e => e.1 == r) = false)
    (hdue : Map.get 0 (s.team m).due r ≠ 0) :
    Completes (exec (.forcedCheck m r) s) (fun t => Map.get 0 (t.team m).due r = 3) := by
  show Completes (execForcedCheck m r s) _
  unfold execForcedCheck
  dsimp only
  rw [if_neg (by simp [h]), if_neg hdue, completes_next, State.showTeam_team, State.team_setTeam]
  exact Map.get_set_same 0 _ r 3

/-- A register of a team window is none that a record may write. -/
theorem Fld.apart_team {f : Fld} (m : Nat) (h : Reg.teamIdTeam.key ≤ f.key) : Fld.apart (f.team m) := by
  have hrec : ∀ g ∈ recordFields, g.key < Reg.teamIdTeam.key := by decide
  intro g hg
  have := hrec g hg
  rw [Fld.team, Fld.key_shift]
  omega

theorem execCheckLate_completes (m r : Nat) (s : State) :
    Completes (exec (.checkLate m r) s) (fun t => t.fget (Reg.outrErrCheckLate.team m) = 1 ∧ t.mem = s.mem) := by
  show Completes (execCheckLate m r s) _
  unfold execCheckLate
  rw [completes_next]
  refine ⟨?_, (State.teamFault_keeps ..).2⟩
  rw [State.teamFault, State.record_fget (Fld.apart_team m (by decide)) _ _ _ _ _ (by decide), State.fget_raise_same]
  rfl

/-! ### Arbitration -/

@[simp] theorem State.setArb_team (s : State) (m : Nat) (a : Arb) :
    (s.setArb m a).team m = { s.team m with arb := some a } := by
  rw [State.setArb, State.team_setTeam]

theorem State.showTeam_setArb (s : State) (m : Nat) (a : Arb) : (((s.setArb m a).showTeam m).team m).arb = some a := by
  rw [State.showTeam_team, State.setArb_team]

theorem State.countUnits_idleSpares (s : State) (x n m : Nat) : (s.countUnits x n).idleSpares m = s.idleSpares m := by
  unfold State.countUnits State.countOp
  split <;> rfl

section
variable {m : Nat} {a : Arb} {s : State} (harb : (s.team m).arb = some a)
include harb

theorem execArbCodeCheckDone_clean (hrun : (s.region (teamString m)).stopped = false) (hst : a.st = 1)
    (hclean : ((s.tile m a.sample.tile).badOf a.sample.plane).filter (fun e =>
      (((a.sample.recs.map (fun r => r.pulse.rows.map (·.1))).flatten).eraseDups).any (fun r => rowBlock r e.1)) = []) :
    Completes (exec (.arbCodeCheckDone m) s) (fun t => (t.team m).arb = some { a with st := 2 }) := by
  show Completes (execArbCodeCheckDone m s) _
  unfold execArbCodeCheckDone
  rw [if_neg (by simp [hrun]), harb]
  dsimp only
  rw [if_neg (by simp [hst]), hclean, if_pos List.isEmpty_nil, completes_next]
  exact State.showTeam_setArb s m _

theorem execArbReferenceDone_agrees {d : Nat} (hrun : (s.region (teamString m)).stopped = false) (hst : a.st = 2)
    (hspare : (s.idleSpares m).head? = some d) :
    Completes (exec (.arbReferenceDone m true) s) (fun t => (t.team m).arb = some { a with st := 3, spare := some d }) := by
  obtain ⟨ds, hds⟩ := List.head?_eq_some_iff.1 hspare
  show Completes (execArbReferenceDone m true s) _
  unfold execArbReferenceDone
  rw [if_neg (by simp [hrun]), harb]
  dsimp only
  rw [if_neg (by simp [hst]), if_pos rfl, completes_next, State.seekSpare, State.countUnits_idleSpares, hds]
  exact State.showTeam_setArb _ m _

theorem execArbSpareLoadDone_loads {d : Nat} (hst : a.st = 3) (hspare : a.spare = some d)
    (hdrain : (s.tile m d).drain = false) : Completes (exec (.arbSpareLoadDone m) s)
      (fun t => (t.team m).arb = some { a with st := 4 } ∧ (t.tile m d).live = a.sample.plane) := by
  show Completes (execArbSpareLoadDone m s) _
  unfold execArbSpareLoadDone
  rw [harb]
  dsimp only
  rw [if_neg (by simp [hst]), hspare]
  dsimp only
  rw [if_neg (by simp [hst, hdrain]), completes_next]
  refine ⟨State.showTeam_setArb _ m _, ?_⟩
  rw [State.showTeam_tile, State.setArb, State.setTeam_tile, State.tile_setTile]

theorem execArbSpareRunDone_spareRight {d : Nat} {wrong : List (Nat × Int)} {r : List TileRec × State}
    (hrun : (s.region (teamString m)).stopped = false) (hst : a.st = 4) (hspare : a.spare = some d)
    (hr : r = s.runSpare m d ⟨wrong.map (fun e => (m, d, e.1, e.2)), []⟩ a.sample.recs)
    (hright : (r.2.team m).sampleFails d (gradeAll (r.1.map TileRec.graded) a.sample.sums) = false) :
    exec (.arbSpareRunDone m wrong) s = .next ((r.2.verdict m 3).showTeam m) := by
  subst hr
  show execArbSpareRunDone m wrong s = _
  unfold execArbSpareRunDone
  rw [if_neg (by simp [hrun]), harb]
  dsimp only
  rw [hspare]
  dsimp only
  rw [if_neg (by simp [hst]), if_pos (by simp [hright])]

theorem execArbNoSpareTimeout_ends (hst : a.st = 6) :
    Completes (exec (.arbNoSpareTimeout m) s) (fun t => (t.team m).arb = some { a with st := 5, next := 7 }) := by
  show Completes (execArbNoSpareTimeout m s) _
  unfold execArbNoSpareTimeout
  rw [harb]
  dsimp only
  rw [if_pos hst, completes_next]
  exact State.showTeam_setArb s m _

end

/-! ### The self-test -/

theorem execOutriderSelftestDone_completes {m : Nat} (pass : Bool) {s : State}
    (hrun : (s.region (teamString m)).stopped = false) (harb : (s.team m).arb = none) :
    Completes (exec (.outriderSelftestDone m pass) s) (fun t => t.fget (Reg.outrStatusSelftestDone.team m) = 1 ∧
      t.fget (Reg.outrStatusSelftestPass.team m) = (if pass then 1 else 0) ∧ (t.team m).selftest = false) := by
  show Completes (execOutriderSelftestDone m pass s) _
  unfold execOutriderSelftestDone
  rw [if_neg (by simp [hrun])]
  dsimp only
  rw [State.team_setTeam, State.fput_team, State.raise_team]
  dsimp only
  rw [harb]
  dsimp only
  rw [completes_next]
  refine ⟨?_, ?_, ?_⟩
  · rw [State.showTeam_fget _ _ (by decide), State.setTeam_fget, State.fget_fput_team _ _ _ (by decide),
      State.fget_raise_same]
    rfl
  · rw [State.showTeam_fget _ _ (by decide), State.setTeam_fget, State.fget_fput_same _ _ rfl]
  · rw [State.showTeam_team, State.team_setTeam]

theorem execOutrSelftest_begins {m : Nat} {s : State} (h : (s.team m).stopped = true ∨ (s.team m).quiesced = true) :
    Completes (exec (.outrSelftest m) s) (fun t => (t.team m).selftest = true) := by
  show Completes (execOutrSelftest m s) _
  unfold execOutrSelftest
  dsimp only
  rw [if_pos (by simpa using h), completes_next, State.team_setTeam]

end Sys2Proof.Machine
end

section
/-!
SUPPORT. What comes of a beat leaves alone READY, the waymark and the count of beats; and what changes no team leaves the teams
alone. One lemma per definition, in the order of the definitions; `simp` takes each apart into its equations.
-/
set_option Elab.async false
namespace Sys2Proof.Machine

/-- What the registers show of READY and of paddock mode: that the device serves. -/
def readyRegs (m : SMap Nat) : Bool :=
  Map.get Reg.rstStatusStage.reset m Reg.rstStatusStage.key == stReady &&
    !(Map.get Reg.rstStatusPaddock.reset m Reg.rstStatusPaddock.key != 0)

theorem State.ready_eq (s : State) : s.ready = readyRegs s.fields := rfl

/-- The device serves or not as it did, and neither the waymark nor the count of beats has moved. No `abbrev`: the kernel would
unfold it at once and run the folds in its arguments. -/
@[reducible] def SameBeat (s t : State) : Prop :=
  readyRegs t.fields = readyRegs s.fields ∧ t.now = s.now ∧ t.power.beat = s.power.beat

/-- Nor has a team changed. -/
@[reducible] def SameTeams (s t : State) : Prop := SameBeat s t ∧ t.teams = s.teams

/-! ### Registers, folds and choices -/

theorem State.readyRegs_congr {s t : State} (hstage : t.fget Reg.rstStatusStage = s.fget Reg.rstStatusStage)
    (hpaddock : t.fget Reg.rstStatusPaddock = s.fget Reg.rstStatusPaddock) : readyRegs t.fields = readyRegs s.fields := by
  unfold State.fget at hstage hpaddock
  unfold readyRegs
  rw [hstage, hpaddock]

/-- Every copy of a register above those of the start stands above them too. -/
theorem Fld.late_shift {g : Fld} (d : Nat) (hg : Fld.late g = true) : Fld.late (g.shift d) = true := by
  have := of_decide_eq_true hg
  exact decide_eq_true (by rw [Fld.key_shift]; omega)

section
variable {g : Fld} (i k : Nat) (hg : Fld.late g = true)
include hg

@[simp] theorem Fld.late_nth : Fld.late (g.nth i) = true := Fld.late_shift _ hg
@[simp] theorem Fld.late_team : Fld.late (g.team i) = true := Fld.late_shift _ hg
@[simp] theorem Fld.late_tile : Fld.late (g.tile i k) = true := Fld.late_shift _ hg
@[simp] theorem Fld.late_port : Fld.late (g.port i) = true := Fld.late_shift _ hg
@[simp] theorem Fld.late_kvPart : Fld.late (g.kvPart i) = true := Fld.late_shift _ hg
@[simp] theorem Fld.late_gate : Fld.late (g.gate i) = true := Fld.late_shift _ hg
@[simp] theorem Fld.late_ctx : Fld.late (g.ctx i) = true := Fld.late_shift _ hg
@[simp] theorem Fld.late_unit : Fld.late (g.unit i) = true := Fld.late_shift _ hg
@[simp] theorem Fld.late_sel : Fld.late (g.sel i) = true := Fld.late_shift _ hg
@[simp] theorem Fld.late_gate_nth : Fld.late ((g.gate i).nth k) = true := Fld.late_shift _ (Fld.late_gate i hg)
@[simp] theorem Fld.late_team_nth : Fld.late ((g.team i).nth k) = true := Fld.late_shift _ (Fld.late_team i hg)
@[simp] theorem Fld.late_team_sel : Fld.late ((g.team i).sel k) = true := Fld.late_shift _ (Fld.late_team i hg)
@[simp] theorem Fld.late_tile_nth (j : Nat) : Fld.late ((g.tile i k).nth j) = true :=
  Fld.late_shift _ (Fld.late_tile i k hg)

end

@[simp] theorem Fld.late_ceCounter (a : Nat) : Fld.late (ceCounter a) = true := by unfold ceCounter; split <;> decide
@[simp] theorem Fld.late_ueCounter (a : Nat) : Fld.late (ueCounter a) = true := by unfold ueCounter; split <;> decide

section
variable {f g : Fld} (s : State) (hf : Fld.late f = true) (hg : Fld.late g = true)

section
include hf

@[simp] theorem State.fset_readyRegs (v : Nat) : readyRegs (s.fset f v).fields = readyRegs s.fields :=
  State.readyRegs_congr (s.fget_fset_late (by decide) v hf) (s.fget_fset_late (by decide) v hf)

@[simp] theorem State.raise_readyRegs : readyRegs (s.raise f).fields = readyRegs s.fields := s.fset_readyRegs hf 1
@[simp] theorem State.clear_readyRegs : readyRegs (s.clear f).fields = readyRegs s.fields := s.fset_readyRegs hf 0
@[simp] theorem State.fput_readyRegs (b : Bool) : readyRegs (s.fput f b).fields = readyRegs s.fields :=
  s.fset_readyRegs hf _
@[simp] theorem State.bumpBy_readyRegs (n : Nat) : readyRegs (s.bumpBy f n).fields = readyRegs s.fields :=
  s.fset_readyRegs hf _
@[simp] theorem State.bump_readyRegs : readyRegs (s.bump f).fields = readyRegs s.fields := s.fset_readyRegs hf _

end

include hf hg

@[simp] theorem State.fset64_readyRegs (v : Nat) : readyRegs (s.fset64 f g v).fields = readyRegs s.fields := by
  rw [State.fset64, State.fset_readyRegs _ hg, State.fset_readyRegs _ hf]

@[simp] theorem State.bump64_readyRegs (n : Nat) : readyRegs (s.bump64 f g n).fields = readyRegs s.fields :=
  s.fset64_readyRegs hf hg _

end

@[simp] theorem readyRegs_ite (c : Prop) [Decidable c] (m n : SMap Nat) :
    readyRegs (if c then m else n) = if c then readyRegs m else readyRegs n := apply_ite readyRegs c m n

@[simp] theorem State.now_ite (c : Prop) [Decidable c] (s t : State) :
    (if c then s else t).now = if c then s.now else t.now := apply_ite State.now c s t

@[simp] theorem beat_ite (c : Prop) [Decidable c] (p q : Power) :
    (if c then p else q).beat = if c then p.beat else q.beat := apply_ite Power.beat c p q

section
variable {α : Type} {f : State → α → State}

@[simp] theorem State.each_readyRegs (h : ∀ s x, readyRegs (f s x).fields = readyRegs s.fields) (s : State)
    (xs : List α) : readyRegs (s.each xs f).fields = readyRegs s.fields := s.each_keeps (fun t => readyRegs t.fields) f h xs

@[simp] theorem State.each_now (h : ∀ s x, (f s x).now = s.now) (s : State) (xs : List α) : (s.each xs f).now = s.now :=
  s.each_keeps State.now f h xs

@[simp] theorem State.each_beat (h : ∀ s x, (f s x).power.beat = s.power.beat) (s : State) (xs : List α) :
    (s.each xs f).power.beat = s.power.beat := s.each_keeps (fun t => t.power.beat) f h xs

/-- A fold whose every step keeps them. -/
theorem State.each_sameBeat (h : ∀ s x, SameBeat s (f s x)) (s : State) (xs : List α) : SameBeat s (s.each xs f) :=
  ⟨State.each_readyRegs (fun s x => (h s x).1) s xs, State.each_now (fun s x => (h s x).2.1) s xs,
    State.each_beat (fun s x => (h s x).2.2) s xs⟩

theorem State.each_sameTeams (h : ∀ s x, SameTeams s (f s x)) (s : State) (xs : List α) : SameTeams s (s.each xs f) :=
  ⟨State.each_sameBeat (fun s x => (h s x).1) s xs, State.each_teams (fun s x => (h s x).2) s xs⟩

end

theorem SameBeat.trans {s t u : State} (h : SameBeat s t) (k : SameBeat t u) : SameBeat s u :=
  ⟨k.1.trans h.1, k.2.1.trans h.2.1, k.2.2.trans h.2.2⟩

theorem SameTeams.trans {s t u : State} (h : SameTeams s t) (k : SameTeams t u) : SameTeams s u :=
  ⟨h.1.trans k.1, k.2.trans h.2⟩

/-! ### Counters, writes and interrupts -/

@[simp] theorem State.bumpTeam_sameTeams (s : State) (t : Nat) {f : Fld} (n : Nat) (hf : Fld.late f = true) :
    SameTeams s (s.bumpTeam t f n) := by
  simp [SameTeams, SameBeat, State.bumpTeam, hf]

@[simp] theorem State.bumpTile_sameTeams (s : State) (t k : Nat) {f : Fld} (n : Nat) (hf : Fld.late f = true) :
    SameTeams s (s.bumpTile t k f n) := by
  simp [SameTeams, SameBeat, State.bumpTile, hf]

@[simp] theorem State.writeBytes_sameTeams (s : State) (a : Nat) (bs : List Nat) : SameTeams s (s.writeBytes a bs) := by
  fun_induction State.writeBytes <;> simp_all [SameTeams, SameBeat]

@[simp] theorem State.writeWord_sameTeams (s : State) (a v : Nat) : SameTeams s (s.writeWord a v) := by
  simp +decide [SameTeams, SameBeat, State.writeWord]

@[simp] theorem State.traceRegs_sameTeams (s : State) : SameTeams s s.traceRegs := by
  simp +decide [SameTeams, SameBeat, State.traceRegs]

@[simp] theorem State.vecEvent_sameTeams (s : State) (fn vec : Nat) : SameTeams s (s.vecEvent fn vec) := by
  simp +decide [SameTeams, SameBeat, State.vecEvent, State.vecSend]

@[simp] theorem State.raiseVec_sameTeams (s : State) (fn vec : Nat) : SameTeams s (s.raiseVec fn vec) := by
  simp +decide [SameTeams, SameBeat, State.raiseVec]

@[simp] theorem State.pkgEvent_sameTeams (s : State) (e : PkgEvent) :
    SameTeams s (s.pkgEvent e) := s.vecEvent_sameTeams _ _

/-! ### Trace and counts -/

@[simp] theorem State.enqueueTrace_sameTeams (s : State) (e : TraceEntry) : SameTeams s (s.enqueueTrace e) := by
  simp +decide [SameTeams, SameBeat, State.enqueueTrace]

@[simp] theorem State.traceEvent_sameTeams (s : State) (bit source kind : Nat) (data : List Nat) :
    SameTeams s (s.traceEvent bit source kind data) := by
  simp +decide [SameTeams, SameBeat, State.traceEvent]

@[simp] theorem State.writeTrace_sameTeams (s : State) (e : TraceEntry) : SameTeams s (s.writeTrace e) := by
  unfold State.writeTrace
  dsimp only
  repeat' split
  all_goals simp +decide [SameTeams, SameBeat]

@[simp] theorem State.traceTrigger_sameTeams (s : State) (cond : Nat) : SameTeams s (s.traceTrigger cond) := by
  simp +decide [SameTeams, SameBeat, State.traceTrigger]

@[simp] theorem State.countOp_sameTeams (s : State) (x i n : Nat) : SameTeams s (s.countOp x i n) := by
  simp +decide [SameTeams, SameBeat, State.countOp]

@[simp] theorem State.countUnits_sameTeams (s : State) (x n : Nat) : SameTeams s (s.countUnits x n) := by
  simp +decide [SameTeams, SameBeat, State.countUnits]

@[simp] theorem State.countBeat_sameTeams (s : State) (rows : Nat) : SameTeams s (s.countBeat rows) := by
  simp +decide [SameTeams, SameBeat, State.countBeat]

@[simp] theorem State.calTrace_sameTeams (s : State) (t k action : Nat) : SameTeams s (s.calTrace t k action) := by
  simp +decide [SameTeams, SameBeat, State.calTrace]

/-! ### Pages, waits and slots -/

@[simp] theorem State.reclaim_sameTeams (s : State) (p id : Nat) : SameTeams s (s.reclaim p id) := by
  simp +decide [SameTeams, SameBeat, State.reclaim]

@[simp] theorem State.releasePage_sameTeams (s : State) (p id : Nat) : SameTeams s (s.releasePage p id) := by
  simp +decide [SameTeams, SameBeat, State.releasePage]

@[simp] theorem State.unpin_sameTeams (s : State) (p id : Nat) : SameTeams s (s.unpin p id) := by
  simp +decide [SameTeams, SameBeat, State.unpin]

@[simp] theorem State.releaseCache_sameTeams (s : State) (p slot c : Nat) : SameTeams s (s.releaseCache p slot c) := by
  simp +decide [SameTeams, SameBeat, State.releaseCache]

@[simp] theorem State.takeWaits_sameTeams (s : State) (p slot : Nat) : SameTeams s (s.takeWaits p slot).2 := by
  simp +decide [SameTeams, SameBeat, State.takeWaits]

@[simp] theorem State.passFrames_sameTeams (s : State) (p : Nat) (ws : List Waiter) :
    SameTeams s (s.passFrames p ws) := by
  simp +decide [SameTeams, SameBeat, State.passFrames]

@[simp] theorem State.leaveWait_sameTeams (s : State) (p slot : Nat) : SameTeams s (s.leaveWait p slot) := by
  simp +decide [SameTeams, SameBeat, State.leaveWait]

@[simp] theorem State.releaseSeq_sameTeams (s : State) (p slot : Nat) : SameTeams s (s.releaseSeq p slot) := by
  simp +decide [SameTeams, SameBeat, State.releaseSeq]

@[simp] theorem State.abandonTentative_sameTeams (s : State) (p slot : Nat) :
    SameTeams s (s.abandonTentative p slot) := by
  unfold State.abandonTentative
  refine State.each_sameTeams (fun _ _ => State.each_sameTeams (fun _ _ => ?_) _ _) _ _
  exact ⟨⟨rfl, rfl, rfl⟩, rfl⟩

@[simp] theorem State.signalSlot_sameTeams (s : State) (p g : Nat) : SameTeams s (s.signalSlot p g) := by
  simp +decide [SameTeams, SameBeat, State.signalSlot]

@[simp] theorem State.enter_sameTeams (s : State) (p g : Nat) (st : SlotSt) (code : Nat) :
    SameTeams s (s.enter p g st code) := by
  simp +decide [SameTeams, SameBeat, State.enter]

@[simp] theorem State.endSlot_sameTeams (s : State) (p g : Nat) (st : SlotSt) (code : Nat) :
    SameTeams s (s.endSlot p g st code) := by
  simp +decide [SameTeams, SameBeat, State.endSlot]

@[simp] theorem State.faultSlot_sameTeams (s : State) (p g code : Nat) : SameTeams s (s.faultSlot p g code) := by
  simp +decide [SameTeams, SameBeat, State.faultSlot]

/-! ### Records, health and faults -/

@[simp] theorem State.append_sameTeams (s : State) (r : LogRec) : SameTeams s (s.append r) := by
  simp +decide [SameTeams, SameBeat, State.append]

@[simp] theorem State.updateHealth_sameTeams (s : State) : SameTeams s s.updateHealth := by
  simp +decide [SameTeams, SameBeat, State.updateHealth]

/-- The entry into paddock mode, in READY or not, moves neither the waymark nor the beat. -/
theorem State.enterPaddock_now_beat (s : State) (reason code : Nat) : (s.enterPaddock reason code).now = s.now ∧
    (s.enterPaddock reason code).power.beat = s.power.beat := by
  simp +decide [State.enterPaddock, State.writeFailCount, State.showFailCount, State.railsOff, State.railsOffBut,
    State.commandRail, State.pmbusWrite, State.quiesceAllForPaddock, State.keepPort, State.closeAxis, State.factoryPins]

theorem readyRegs_of_stage {s : State} (h : s.stage ≠ stReady) : readyRegs s.fields = false := by
  rw [← State.ready_eq, State.ready]
  simp [h]

/-- Before READY the device does not serve, in paddock mode or out of it. -/
@[simp] theorem State.enterPaddock_sameTeams (s : State) (reason code : Nat) (h : s.stage ≠ stReady) :
    SameTeams s (s.enterPaddock reason code) := by
  refine ⟨⟨?_, s.enterPaddock_now_beat reason code⟩, (s.enterPaddock_units reason code).2.2.2.1⟩
  rw [readyRegs_of_stage h, readyRegs_of_stage (by rwa [State.enterPaddock_stage])]

@[simp] theorem State.mgmtTo_sameTeams (s : State) (dst : List Nat) (type req : Nat) (body : List Nat) :
    SameTeams s (s.mgmtTo dst type req body) := by
  simp +decide [SameTeams, SameBeat, State.mgmtTo]

@[simp] theorem State.mgmtSend_sameTeams (s : State) (type : Nat) (body : List Nat) :
    SameTeams s (s.mgmtSend type body) := by
  simp +decide [SameTeams, SameBeat, State.mgmtSend]

@[simp] theorem State.setReports_sameTeams (s : State) (rs : List Report) : SameTeams s (s.setReports rs) := by
  simp +decide [SameTeams, SameBeat, State.setReports]

@[simp] theorem State.reportDropped_sameTeams (s : State) (id : Nat) : SameTeams s (s.reportDropped id) := by
  simp +decide [SameTeams, SameBeat, State.reportDropped]

@[simp] theorem State.report_sameTeams (s : State) (r : LogRec) (scope start marked poisoned : Nat) :
    SameTeams s (s.report r scope start marked poisoned) := by
  simp +decide [SameTeams, SameBeat, State.report]

@[simp] theorem State.poisonPages_sameTeams (s : State) (scope start : Nat) :
    SameTeams s (s.poisonPages scope start).1 := by
  unfold State.poisonPages
  refine State.each_sameTeams (fun _ _ => ?_) _ _
  exact ⟨⟨rfl, rfl, rfl⟩, rfl⟩

@[simp] theorem State.markSlots_sameTeams (s : State) (scope start : Nat) :
    SameTeams s (s.markSlots scope start).1 := by
  unfold State.markSlots
  refine State.each_sameTeams (fun s e => ?_) _ _
  split <;> simp +decide [SameTeams, SameBeat]

/-- What fails a start in whose place READY stands enters no paddock mode. -/
theorem State.failStart_sameTeams {s u : State} (h : SameTeams s u) (sev code : Nat) (hubUe : Bool) :
    SameTeams s (if u.failsStart sev hubUe then u.enterPaddock 2 code else u).updateHealth := by
  refine SameTeams.trans ?_ (State.updateHealth_sameTeams _)
  split
  · next hf => exact h.trans (u.enterPaddock_sameTeams 2 code (State.failsStart_stage hf))
  · exact h

@[simp] theorem State.recordAs_sameTeams (s : State) (hubUe : Bool) (sev cls code source : Nat) (ctx : List Nat) :
    SameTeams s (s.recordAs hubUe sev cls code source ctx) := by
  unfold State.recordAs
  apply State.failStart_sameTeams
  apply State.append_sameTeams

@[simp] theorem State.record_sameTeams (s : State) (sev cls code source : Nat) (ctx : List Nat) :
    SameTeams s (s.record sev cls code source ctx) := by
  unfold State.record
  exact s.recordAs_sameTeams ..

@[simp] theorem State.assertFaultN_sameTeams (s : State) : SameTeams s (s.assertFaultN) := by
  simp +decide [SameTeams, SameBeat, State.assertFaultN]

@[simp] theorem State.keepFaults_sameTeams (s : State) : SameTeams s (s.keepFaults) := by
  simp +decide [SameTeams, SameBeat, State.keepFaults]

@[simp] theorem State.danger_sameTeams (s : State) (sev cls code source : Nat) (ctx : List Nat) (scope start : Nat) :
    SameTeams s (s.danger sev cls code source ctx scope start) := by
  unfold State.danger
  dsimp only
  apply State.failStart_sameTeams
  simp +decide [SameTeams, SameBeat]

@[simp] theorem State.teamFault_sameTeams (s : State) (seq : Bool) (unit cause layer tile group milepost extra : Nat) :
    SameTeams s (s.teamFault seq unit cause layer tile group milepost extra) := by
  simp +decide [SameTeams, SameBeat, State.teamFault]

@[simp] theorem State.softCount_sameTeams (s : State) (mem : Nat) : SameTeams s (s.softCount mem) := by
  simp +decide [SameTeams, SameBeat, State.softCount]

@[simp] theorem State.recordSoft_sameTeams (s : State) (source a mem syn : Nat) :
    SameTeams s (s.recordSoft source a mem syn) := by
  simp +decide [SameTeams, SameBeat, State.recordSoft]

@[simp] theorem State.hardEvent_sameTeams (s : State) (kind index : Nat) :
    SameTeams s (s.hardEvent kind index) := ⟨⟨rfl, rfl, rfl⟩, rfl⟩

@[simp] theorem State.hardBlock_sameTeams (s : State) (a : Nat) : SameTeams s (s.hardBlock a) := by
  unfold State.hardBlock
  dsimp only
  split <;> simp +decide [SameTeams, SameBeat]

/-! ### Memory -/

@[simp] theorem State.readBlock_sameTeams (s : State) (source : Nat) (repair : Bool) (blk : Nat) :
    SameTeams s (s.readBlock source repair blk) := by
  unfold State.readBlock
  dsimp only
  repeat' split
  all_goals simp +decide [SameTeams, SameBeat]

@[simp] theorem State.retiredAccess_sameTeams (s : State) (source a n : Nat) :
    SameTeams s (s.retiredAccess source a n) := by
  simp +decide [SameTeams, SameBeat, State.retiredAccess]

@[simp] theorem State.seeLines_sameTeams (s : State) (y a : Nat) (xs : List StaleLine) (b : List Nat) :
    SameTeams s (s.seeLines y a xs b).2 := by
  fun_induction State.seeLines with
  | case1 => simp +decide [SameTeams, SameBeat]
  | case2 s b x xs _ ih => exact ih
  | case3 s b x xs _ _ d ih => exact ih
  | case4 s b x xs _ _ ih => exact ih

@[simp] theorem State.readFor_sameTeams (s : State) (step : Option Nat) (source a n : Nat) :
    SameTeams s (s.readFor step source a n).2.2 := by
  unfold State.readFor
  dsimp only
  split <;> simp +decide [SameTeams, SameBeat]

@[simp] theorem State.readThrough_sameTeams (s : State) (source a n : Nat) :
    SameTeams s (s.readThrough source a n).2.2 := by
  simp +decide [SameTeams, SameBeat, State.readThrough]

@[simp] theorem State.mergeBlock_sameTeams (s : State) (source a n blk : Nat) :
    SameTeams s (s.mergeBlock source a n blk) := by
  unfold State.mergeBlock
  repeat' split
  all_goals simp +decide [SameTeams, SameBeat]

@[simp] theorem State.writeLive_sameTeams (s : State) (a : Nat) (bs : List Nat) : SameTeams s (s.writeLive a bs) := by
  fun_induction State.writeLive <;> simp_all +decide [SameTeams, SameBeat]

@[simp] theorem State.settleLines_sameTeams (s : State) (a n : Nat) :
    SameTeams s (s.settleLines a n) := ⟨⟨rfl, rfl, rfl⟩, rfl⟩

@[simp] theorem State.writeThrough_sameTeams (s : State) (source a : Nat) (b : List Nat) :
    SameTeams s (s.writeThrough source a b) := by
  simp +decide [SameTeams, SameBeat, State.writeThrough]

/-! ### Torus -/

@[simp] theorem State.unroutable_sameTeams (s : State) (dst : Nat) : SameTeams s (s.unroutable dst) := by
  simp +decide [SameTeams, SameBeat, State.unroutable]

@[simp] theorem State.torusRecord_sameTeams (s : State) (sev code pos port lane inc value : Nat) :
    SameTeams s (s.torusRecord sev code pos port lane inc value) := by
  simp +decide [SameTeams, SameBeat, State.torusRecord]

@[simp] theorem State.sendFlit_sameTeams (s : State) (p : Nat) (f : Flit) : SameTeams s (s.sendFlit p f) := by
  simp +decide [SameTeams, SameBeat, State.sendFlit]

@[simp] theorem State.giveIdle_sameTeams (s : State) (p : Nat) : SameTeams s (s.giveIdle p) := by
  simp +decide [SameTeams, SameBeat, State.giveIdle]

@[simp] theorem State.takeCredit_sameTeams (s : State) (p : Nat) (k : Packet) : SameTeams s (s.takeCredit p k).2 := by
  unfold State.takeCredit
  split <;> simp +decide [SameTeams, SameBeat]

@[simp] theorem State.transmit_sameTeams (s : State) (p : Nat) (k : Packet) : SameTeams s (s.transmit p k) := by
  simp +decide [SameTeams, SameBeat, State.transmit]

@[simp] theorem State.moveLine_sameTeams (s : State) (p : Nat) (k : Packet) (arb : OutArb) :
    SameTeams s (s.moveLine p k arb) := by
  simp +decide [SameTeams, SameBeat, State.moveLine]

@[simp] theorem State.pump_sameTeams (s : State) (p n : Nat) : SameTeams s (s.pump p n) := by
  fun_induction State.pump <;> simp_all +decide [SameTeams, SameBeat]

@[simp] theorem State.drainPort_sameTeams (s : State) (p : Nat) : SameTeams s (s.drainPort p) := by
  simp +decide [SameTeams, SameBeat, State.drainPort]

@[simp] theorem State.enqueue_sameTeams (s : State) (p : Nat) (k : Packet) : SameTeams s (s.enqueue p k) := by
  simp +decide [SameTeams, SameBeat, State.enqueue]

@[simp] theorem State.sendOn_sameTeams (s : State) (p type : Nat) (h : CtrlHdr) (body : List Nat) :
    SameTeams s (s.sendOn p type h body) := by
  simp +decide [SameTeams, SameBeat, State.sendOn]

@[simp] theorem State.takeSeq_sameTeams (s : State) (u : Nat) : SameTeams s (s.takeSeq u).2 := by
  simp +decide [SameTeams, SameBeat, State.takeSeq]

@[simp] theorem State.addUnacked_sameTeams (s : State) (u : Unacked) : SameTeams s (s.addUnacked u) := by
  simp +decide [SameTeams, SameBeat, State.addUnacked]

@[simp] theorem State.sendTo_sameTeams (s : State) (dst part type purpose : Nat) (ackReq : Bool) (body : List Nat) :
    SameTeams s (s.sendTo dst part type purpose ackReq body) := by
  unfold State.sendTo
  dsimp only
  repeat' split
  all_goals simp +decide [SameTeams, SameBeat]

@[simp] theorem State.flood_sameTeams (s : State) (type : Nat) (h : CtrlHdr) (but : Option Nat) (body : List Nat) :
    SameTeams s (s.flood type h but body) := by
  simp +decide [SameTeams, SameBeat, State.flood]

@[simp] theorem State.floodNew_sameTeams (s : State) (type : Nat) (body : List Nat) :
    SameTeams s (s.floodNew type body) := by
  simp +decide [SameTeams, SameBeat, State.floodNew]

/-! ### Revocations, collectives and calls -/

@[simp] theorem State.withRev_sameTeams (s : State) {f : State → State} (h : ∀ s, SameTeams s (f s)) (r : Rev) :
    SameTeams s (s.withRev r f) := by
  simp [SameTeams, SameBeat, State.withRev, h]

@[simp] theorem State.showRev_sameTeams (s : State) : SameTeams s (s.showRev) := by
  unfold State.showRev
  split <;> simp +decide [SameTeams, SameBeat]

@[simp] theorem State.enterRev_sameTeams (s : State) (r : Rev) : SameTeams s (s.enterRev r) := by
  fun_cases State.enterRev <;> simp +decide [SameTeams, SameBeat]

@[simp] theorem State.revokeOwn_sameTeams (s : State) (u : Nat) : SameTeams s (s.revokeOwn u) := by
  simp +decide [SameTeams, SameBeat, State.revokeOwn]

@[simp] theorem State.raiseFlag_sameTeams (s : State) (x flag by_ : Nat) : SameTeams s (s.raiseFlag x flag by_) := by
  simp +decide [SameTeams, SameBeat, State.raiseFlag]

@[simp] theorem State.endColl_sameTeams (s : State) (c : Coll) (code port pos : Nat) :
    SameTeams s (s.endColl c code port pos) := by
  simp +decide [SameTeams, SameBeat, State.endColl]

@[simp] theorem State.abortColls_sameTeams (s : State) (step : Nat) : SameTeams s (s.abortColls step) := by
  simp +decide [SameTeams, SameBeat, State.abortColls]

@[simp] theorem State.dropCalls_sameTeams (s : State) (step : Nat) : SameTeams s (s.dropCalls step) := by
  simp +decide [SameTeams, SameBeat, State.dropCalls]

/-! ### Groups, tiles and teams -/

@[simp] theorem State.showGroup_sameTeams (s : State) (t g : Nat) : SameTeams s (s.showGroup t g) := by
  simp +decide [SameTeams, SameBeat, State.showGroup]

@[simp] theorem State.setGroup_sameBeat (s : State) (t g : Nat) (x : Group) : SameBeat s (s.setGroup t g x) := by
  simp +decide [SameBeat, State.setGroup]

@[simp] theorem State.abandonGroup_sameBeat (s : State) (t g : Nat) : SameBeat s (s.abandonGroup t g) := by
  simp +decide [SameBeat, State.abandonGroup]

@[simp] theorem State.abandonGroups_sameBeat (s : State) (id t : Nat) : SameBeat s (s.abandonGroups id t) := by
  simp +decide [SameBeat, State.abandonGroups]

@[simp] theorem State.showWait_sameTeams (s : State) (u reason detail on since : Nat) :
    SameTeams s (s.showWait u reason detail on since) := by
  simp +decide [SameTeams, SameBeat, State.showWait]

@[simp] theorem State.seqWait_sameTeams (s : State) (x : Nat) (w : Option (Nat × Nat × Nat)) :
    SameTeams s (s.seqWait x w) := by
  unfold State.seqWait
  split <;> simp +decide [SameTeams, SameBeat]

@[simp] theorem State.stopWait_sameTeams (s : State) (x : Nat) : SameTeams s (s.stopWait x) := by
  simp +decide [SameTeams, SameBeat, State.stopWait]

@[simp] theorem State.stamps_sameTeams (s : State) (t k x phys : Nat) (sums : Nat × Nat) :
    SameTeams s (s.stamps t k x phys sums).2 := by
  simp +decide [SameTeams, SameBeat, State.stamps]

@[simp] theorem State.difference_sameTeams (s : State) (f : BeatFaults) (t k x : Nat) (sums : Nat × Nat) (c : Nat) :
    SameTeams s (s.difference f t k x sums c).2 := by
  unfold State.difference
  repeat' split
  all_goals simp +decide [SameTeams, SameBeat]

@[simp] theorem State.differences_sameTeams (s : State) (f : BeatFaults) (t k x plane : Nat) (p : Pulse)
    (xs : List Nat) :
    SameTeams s (s.differences f t k x plane p xs).2 := by
  induction xs generalizing s with
  | nil => simp +decide [SameTeams, SameBeat, State.differences]
  | cons c cs ih => simp +decide [SameTeams, SameBeat, State.differences, ih]

@[simp] theorem State.evaluate_sameTeams (s : State) (f : BeatFaults) (t k : Nat) (p : Pulse) :
    SameTeams s (s.evaluate f t k p).2 := by
  simp +decide [SameTeams, SameBeat, State.evaluate]

@[simp] theorem State.showTile_sameTeams (s : State) (t k : Nat) : SameTeams s (s.showTile t k) := by
  simp +decide [SameTeams, SameBeat, State.showTile]

@[simp] theorem State.showFarrier_sameTeams (s : State) (t : Nat) : SameTeams s (s.showFarrier t) := by
  simp +decide [SameTeams, SameBeat, State.showFarrier]

@[simp] theorem State.showTracking_sameTeams (s : State) (t : Nat) : SameTeams s (s.showTracking t) := by
  simp +decide [SameTeams, SameBeat, State.showTracking]

@[simp] theorem State.showTeam_sameTeams (s : State) (t : Nat) : SameTeams s (s.showTeam t) := by
  simp +decide [SameTeams, SameBeat, State.showTeam]

@[simp] theorem State.settleStop_sameBeat (s : State) (t : Nat) : SameBeat s (s.settleStop t) := by
  simp +decide [SameBeat, State.settleStop]

/-! ### Steps -/

@[simp] theorem State.dropTeamWork_sameBeat (s : State) (id t : Nat) : SameBeat s (s.dropTeamWork id t) := by
  simp +decide [SameBeat, State.dropTeamWork]

@[simp] theorem State.swapPlaces_sameBeat (s : State) (ps : List Place) (back : Bool) :
    SameBeat s (s.swapPlaces ps back) := by
  simp +decide [SameBeat, State.swapPlaces]

@[simp] theorem State.claim_sameBeat (s : State) (ps : List Place) (v : Nat) : SameBeat s (s.claim ps v) := by
  unfold State.claim
  refine State.each_sameBeat (fun _ _ => ?_) _ _
  exact ⟨rfl, rfl, rfl⟩

@[simp] theorem State.dropExpert_sameBeat (s : State) (x : Nat) (h : List Nat) (r : ExpertRun) :
    SameBeat s (s.dropExpert x h r) := by
  simp +decide [SameBeat, State.dropExpert]

@[simp] theorem State.dropExperts_sameBeat (s : State) (id x : Nat) : SameBeat s (s.dropExperts id x) := by
  unfold State.dropExperts
  split <;> simp +decide [SameBeat]

@[simp] theorem State.releasePins_sameTeams (s : State) (id : Nat) : SameTeams s (s.releasePins id) := by
  unfold State.releasePins
  split <;> simp +decide [SameTeams, SameBeat]

@[simp] theorem State.rewindMeans_sameBeat (s : State) (k : Nat) (t : Step) (before after : SMap Nat) :
    SameBeat s (s.rewindMeans k t before after) := by
  simp +decide [SameBeat, State.rewindMeans]

@[simp] theorem State.beginSeq_sameBeat (s : State) (x : Nat) (t : Step) : SameBeat s (s.beginSeq x t) := by
  simp +decide [SameBeat, State.beginSeq]

@[simp] theorem State.rebeginSeq_sameBeat (s : State) (x : Nat) (t : Step) : SameBeat s (s.rebeginSeq x t) := by
  unfold State.rebeginSeq
  split <;> simp +decide [SameBeat]

@[simp] theorem State.startSeq_sameBeat (s : State) (x : Nat) : SameBeat s (s.startSeq x) := by
  fun_cases State.startSeq <;> simp +decide [SameBeat]

@[simp] theorem State.startSeqs_sameBeat (s : State) (p : Nat) : SameBeat s (s.startSeqs p) := by
  simp +decide [SameBeat, State.startSeqs]

@[simp] theorem State.showReplay_sameTeams (s : State) (p : Nat) : SameTeams s (s.showReplay p) := by
  unfold State.showReplay
  refine State.each_sameTeams (fun _ _ => ?_) _ _
  simp +decide [SameTeams, SameBeat]

@[simp] theorem State.dropSeq_sameTeams (s : State) (id x : Nat) : SameTeams s (s.dropSeq id x) := by
  simp +decide [SameTeams, SameBeat, State.dropSeq]

@[simp] theorem State.abandonStep_sameBeat (s : State) (id : Nat) : SameBeat s (s.abandonStep id) := by
  unfold State.abandonStep
  split <;> simp +decide [SameBeat]

@[simp] theorem State.abandonBoth_sameBeat (s : State) (id : Nat) : SameBeat s (s.abandonBoth id) := by
  unfold State.abandonBoth
  repeat' split
  all_goals simp +decide [SameBeat]

@[simp] theorem State.failStepWith_sameBeat (s : State) (id code : Nat) : SameBeat s (s.failStepWith id code) := by
  unfold State.failStepWith
  split <;> simp +decide [SameBeat]

@[simp] theorem State.failStep_sameBeat (s : State) (id : Nat) : SameBeat s (s.failStep id) := by
  simp +decide [SameBeat, State.failStep]

@[simp] theorem State.dropCallWork_sameBeat (s : State) (id x : Nat) : SameBeat s (s.dropCallWork id x) := by
  simp +decide [SameBeat, State.dropCallWork]

@[simp] theorem State.endCall_sameBeat (s : State) (v : Served) (code session : Nat) :
    SameBeat s (s.endCall v code session) := by
  unfold State.endCall
  dsimp only
  split <;> simp +decide [SameBeat]

@[simp] theorem State.faultStep_sameBeat (s : State) (id : Nat) (seq : Bool) (unit cause layer group extra : Nat) :
    SameBeat s (s.faultStep id seq unit cause layer group extra) := by
  fun_cases State.faultStep <;> simp +decide [SameBeat]

@[simp] theorem State.askReplay_sameTeams (s : State) (p : Nat) : SameTeams s (s.askReplay p) := by
  simp +decide [SameTeams, SameBeat, State.askReplay]

@[simp] theorem State.failPartSteps_sameBeat (s : State) (p : Nat) : SameBeat s (s.failPartSteps p) := by
  simp +decide [SameBeat, State.failPartSteps]

/-! ### Layers and running sums -/

@[simp] theorem State.setStat_sameBeat (s : State) (t step loc : Nat) (x : LayerStat) :
    SameBeat s (s.setStat t step loc x) := by
  simp +decide [SameBeat, State.setStat]

@[simp] theorem State.askLayer_sameTeams (s : State) (step layer : Nat) : SameTeams s (s.askLayer step layer) := by
  simp +decide [SameTeams, SameBeat, State.askLayer]

@[simp] theorem State.checkLimits_sameTeams (s : State) (t step loc : Nat) :
    SameTeams s (s.checkLimits t step loc) := by
  fun_cases State.checkLimits <;> simp +decide [SameTeams, SameBeat]

@[simp] theorem State.chargeSat_sameBeat (s : State) (t step loc n : Nat) (wide : Bool) :
    SameBeat s (s.chargeSat t step loc n wide) := by
  simp +decide [SameBeat, State.chargeSat]

@[simp] theorem State.groupSat_sameBeat (s : State) (t g : Nat) : SameBeat s (s.groupSat t g) := by
  simp +decide [SameBeat, State.groupSat]

@[simp] theorem State.badScaleFault_sameBeat (s : State) (t step layer g : Nat) :
    SameBeat s (s.badScaleFault t step layer g) := by
  simp +decide [SameBeat, State.badScaleFault]

@[simp] theorem State.wideAdd_sameBeat (s : State) (t g tile i step : Nat) (v : Rat) (scol : Nat) (sseg : Option Nat) :
    SameBeat s (s.wideAdd t g tile i step v scol sseg) := by
  simp +decide [SameBeat, State.wideAdd]

@[simp] theorem State.promote_sameBeat (s : State) (t : Nat) (r : Run) : SameBeat s (s.promote t r) := by
  simp +decide [SameBeat, State.promote]

@[simp] theorem State.dropRun_sameBeat (s : State) (t acc : Nat) : SameBeat s (s.dropRun t acc) := by
  simp +decide [SameBeat, State.dropRun]

@[simp] theorem State.promoteAll_sameBeat (s : State) (t : Nat) (rs : List Run) : SameBeat s (s.promoteAll t rs) := by
  simp +decide [SameBeat, State.promoteAll]

@[simp] theorem State.flushRuns_sameBeat (s : State) (t : Nat) : SameBeat s (s.flushRuns t) := by
  simp +decide [SameBeat, State.flushRuns]

/-! ### Planes -/

@[simp] theorem State.noteCell_sameBeat (s : State) (t k blk i j : Nat) : SameBeat s (s.noteCell t k blk i j) := by
  fun_cases State.noteCell <;> simp +decide [SameBeat]

@[simp] theorem State.hardPlane_sameBeat (s : State) (t k blk syn : Nat) : SameBeat s (s.hardPlane t k blk syn) := by
  unfold State.hardPlane
  split <;> simp +decide [SameBeat]

@[simp] theorem State.readForMerge_sameBeat (s : State) (t k plane writer : Nat) (e : Nat × Nat) :
    SameBeat s (s.readForMerge t k plane writer e) := by
  unfold State.readForMerge
  split <;> simp +decide [SameBeat]

@[simp] theorem State.mergePlaneBlock_sameBeat (s : State) (t k plane off n writer : Nat) (e : Nat × Nat) :
    SameBeat s (s.mergePlaneBlock t k plane off n writer e) := by
  unfold State.mergePlaneBlock
  repeat' split
  all_goals simp +decide [SameBeat]

@[simp] theorem State.storePlane_sameBeat (s : State) (t k : Nat) (w : PlaneWrite) :
    SameBeat s (s.storePlane t k w) := by
  simp +decide [SameBeat, State.storePlane]

@[simp] theorem State.planeWrite_sameBeat (s : State) (t k : Nat) (w : PlaneWrite) :
    SameBeat s (s.planeWrite t k w) := by
  simp +decide [SameBeat, State.planeWrite]

@[simp] theorem State.planeWriteBoth_sameBeat (s : State) (t k : Nat) (w : PlaneWrite) :
    SameBeat s (s.planeWriteBoth t k w) := by
  simp +decide [SameBeat, State.planeWriteBoth]

@[simp] theorem State.roleWrite_sameBeat (s : State) (writer t r plane off : Nat) (b : List Nat) :
    SameBeat s (s.roleWrite writer t r plane off b) := by
  simp +decide [SameBeat, State.roleWrite]

@[simp] theorem State.loadIrq_sameTeams (s : State) (c : Nat) : SameTeams s (s.loadIrq c) := by
  simp +decide [SameTeams, SameBeat, State.loadIrq]

@[simp] theorem State.startReload_sameBeat (s : State) (p t r plane : Nat) :
    SameBeat s (s.startReload p t r plane) := by
  unfold State.startReload
  split <;> simp +decide [SameBeat]

@[simp] theorem State.reloadMarked_sameBeat (s : State) (t k plane : Nat) : SameBeat s (s.reloadMarked t k plane) := by
  fun_cases State.reloadMarked <;> simp +decide [SameBeat]

@[simp] theorem State.mendBlock_sameBeat (s : State) (t k plane blk syn : Nat) :
    SameBeat s (s.mendBlock t k plane blk syn) := by
  simp +decide [SameBeat, State.mendBlock]

@[simp] theorem State.finding_sameBeat (s : State) (t k plane cls : Nat) (e : Nat × Nat) :
    SameBeat s (s.finding t k plane cls e) := by
  unfold State.finding
  dsimp only
  repeat' split
  all_goals simp +decide [SameBeat]

@[simp] theorem State.findAll_sameBeat (s : State) (t k plane cls : Nat) (hit : Nat → Bool) :
    SameBeat s (s.findAll t k plane cls hit) := by
  simp +decide [SameBeat, State.findAll]

@[simp] theorem State.outriderReads_sameBeat (s : State) (t k plane : Nat) (rows : List Nat) :
    SameBeat s (s.outriderReads t k plane rows) := by
  simp +decide [SameBeat, State.outriderReads]

/-! ### Grooming -/

@[simp] theorem State.showLap_sameTeams (s : State) (t : Nat) : SameTeams s (s.showLap t) := by
  simp +decide [SameTeams, SameBeat, State.showLap]

@[simp] theorem State.endLap_sameBeat (s : State) (t : Nat) : SameBeat s (s.endLap t) := by
  unfold State.endLap
  extract_lets ks ms s1 s2 src s3
  split
  · simp +decide [SameBeat]
  · have h3 : SameBeat s s3 := by simp +decide [SameBeat, s3, s2, s1]
    refine h3.trans (State.each_sameBeat (fun s k => ?_) s3 ks)
    exact ⟨rfl, rfl, rfl⟩

@[simp] theorem State.groomTile_sameBeat (s : State) (t k : Nat) : SameBeat s (s.groomTile t k) := by
  simp +decide [SameBeat, State.groomTile]

@[simp] theorem State.groomBeat_sameBeat (s : State) (t : Nat) (idle : List Nat) : SameBeat s (s.groomBeat t idle) := by
  simp +decide [SameBeat, State.groomBeat]

/-! ### Calibration and take-overs -/

@[simp] theorem State.showCalStatus_sameTeams (s : State) (t : Nat) : SameTeams s (s.showCalStatus t) := by
  simp +decide [SameTeams, SameBeat, State.showCalStatus]

@[simp] theorem State.setCal_sameBeat (s : State) (t : Nat) (c : Cal) : SameBeat s (s.setCal t c) := by
  simp +decide [SameBeat, State.setCal]

@[simp] theorem State.startTakeover_sameBeat (s : State) (t r dst why reason column : Nat) (planes : List Nat) :
    SameBeat s (s.startTakeover t r dst why reason column planes) := by
  simp +decide [SameBeat, State.startTakeover]

@[simp] theorem State.beginNext_sameBeat (s : State) (t : Nat) (ws : List Takeover) :
    SameBeat s (s.beginNext t ws) := by
  fun_induction State.beginNext <;> simp_all +decide [SameBeat]

@[simp] theorem State.nextMove_sameBeat (s : State) (t : Nat) : SameBeat s (s.nextMove t) := by
  simp +decide [SameBeat, State.nextMove]

/-! ### The farrier -/

@[simp] theorem State.showRepair_sameTeams (s : State) (t : Nat) : SameTeams s (s.showRepair t) := by
  unfold State.showRepair
  extract_lets x s1 s2
  have h1 : SameTeams s s1 := State.each_sameTeams (fun s i => by split <;> simp +decide [SameTeams, SameBeat]) s _
  have h2 : SameTeams s1 s2 := State.each_sameTeams (fun s e => by
    dsimp only
    split <;> simp +decide [SameTeams, SameBeat]) s1 _
  exact (h1.trans h2).trans (s2.showFarrier_sameTeams t)

@[simp] theorem State.writeFarrier_sameBeat (s : State) (t : Nat) (fail : Bool) :
    SameBeat s (s.writeFarrier t fail) := by
  simp +decide [SameBeat, State.writeFarrier]

@[simp] theorem State.recordFarrier_sameBeat (s : State) (t : Nat) : SameBeat s (s.recordFarrier t) := by
  simp +decide [SameBeat, State.recordFarrier]

@[simp] theorem State.farrAction_sameBeat (s : State) (t action reason k col : Nat) :
    SameBeat s (s.farrAction t action reason k col) := by
  simp +decide [SameBeat, State.farrAction]

@[simp] theorem State.loseTeam_sameBeat (s : State) (t : Nat) : SameBeat s (s.loseTeam t) := by
  unfold State.loseTeam
  dsimp only
  split <;> simp +decide [SameBeat]

@[simp] theorem State.teamLost_sameBeat (s : State) (t reason k col : Nat) :
    SameBeat s (s.teamLost t reason k col) := by
  simp +decide [SameBeat, State.teamLost]

@[simp] theorem State.bypassColumn_sameBeat (s : State) (t k reason col : Nat) :
    SameBeat s (s.bypassColumn t k reason col) := by
  simp +decide [SameBeat, State.bypassColumn]

@[simp] theorem State.dropReturns_sameBeat (s : State) (t k : Nat) : SameBeat s (s.dropReturns t k) := by
  simp +decide [SameBeat, State.dropReturns]

@[simp] theorem State.retireTile_sameBeat (s : State) (t k reason : Nat) : SameBeat s (s.retireTile t k reason) := by
  simp +decide [SameBeat, State.retireTile]

@[simp] theorem State.retireNoSpare_sameBeat (s : State) (t k reason col : Nat) :
    SameBeat s (s.retireNoSpare t k reason col) := by
  simp +decide [SameBeat, State.retireNoSpare]

@[simp] theorem State.takeoverRetires_sameBeat (s : State) (t k reason col : Nat) :
    SameBeat s (s.takeoverRetires t k reason col) := by
  simp +decide [SameBeat, State.takeoverRetires]

@[simp] theorem State.retire_sameBeat (s : State) (t k reason col : Nat) : SameBeat s (s.retire t k reason col) := by
  fun_cases State.retire <;> simp +decide [SameBeat]

@[simp] theorem State.copyColumn_sameTeams (s : State) (t k a b : Nat) : SameTeams s (s.copyColumn t k a b) := by
  unfold State.copyColumn
  extract_lets s1
  have h1 : SameTeams s s1 := by
    refine State.each_sameTeams (fun s p => ?_) s _
    dsimp only
    refine State.each_sameTeams (fun s r => ?_) s _
    exact ⟨⟨rfl, rfl, rfl⟩, rfl⟩
  refine h1.trans (State.each_sameTeams (fun s p => ?_) s1 _)
  refine State.each_sameTeams (fun s e => ?_) s _
  split <;> exact ⟨⟨rfl, rfl, rfl⟩, rfl⟩

@[simp] theorem State.setTileCal_sameTeams (s : State) (t k : Nat) (c : TileCal) :
    SameTeams s (s.setTileCal t k c) := by
  simp +decide [SameTeams, SameBeat, State.setTileCal]

@[simp] theorem State.windowFault_sameBeat (s : State) (t k : Nat) : SameBeat s (s.windowFault t k) := by
  simp +decide [SameBeat, State.windowFault]

@[simp] theorem State.winLimited_sameBeat (s : State) (t k : Nat) (was now : Int) :
    SameBeat s (s.winLimited t k was now) := by
  simp +decide [SameBeat, State.winLimited]

@[simp] theorem State.retrimTo_sameBeat (s : State) (wait : Bool) (t k : Nat) : SameBeat s (s.retrimTo wait t k) := by
  unfold State.retrimTo
  split <;> simp +decide [SameBeat]

@[simp] theorem State.retrim_sameBeat (s : State) (t k : Nat) : SameBeat s (s.retrim t k) := by
  simp +decide [SameBeat, State.retrim]

@[simp] theorem State.applyTrims_sameTeams (s : State) (t k : Nat) : SameTeams s (s.applyTrims t k) := by
  unfold State.applyTrims
  dsimp only
  split <;> simp +decide [SameTeams, SameBeat]

@[simp] theorem State.abandonCal_sameBeat (s : State) (t : Nat) : SameBeat s (s.abandonCal t) := by
  unfold State.abandonCal
  dsimp only
  repeat' split
  all_goals simp +decide [SameBeat]

@[simp] theorem State.forceCheck_sameBeat (s : State) (t r : Nat) : SameBeat s (s.forceCheck t r) := by
  simp +decide [SameBeat, State.forceCheck]

/-! ### Tests -/

@[simp] theorem State.setTileTest_sameTeams (s : State) (t k v : Nat) : SameTeams s (s.setTileTest t k v) := by
  simp +decide [SameTeams, SameBeat, State.setTileTest]

@[simp] theorem State.setTeamTest_sameTeams (s : State) (t v : Nat) : SameTeams s (s.setTeamTest t v) := by
  simp +decide [SameTeams, SameBeat, State.setTeamTest]

@[simp] theorem State.beginRoleTest_sameBeat (s : State) (t k r : Nat) (forced : Bool) :
    SameBeat s (s.beginRoleTest t k r forced) := by
  unfold State.beginRoleTest
  repeat' split
  all_goals simp +decide [SameBeat]

@[simp] theorem State.beginTileTest_sameBeat (s : State) (t k : Nat) : SameBeat s (s.beginTileTest t k) := by
  fun_cases State.beginTileTest <;> simp +decide [SameBeat]

@[simp] theorem State.runRoleTest_sameTeams (s : State) (t k : Nat) : SameTeams s (s.runRoleTest t k) := by
  simp +decide [SameTeams, SameBeat, State.runRoleTest]

@[simp] theorem State.returnTested_sameBeat (s : State) (t k : Nat) : SameBeat s (s.returnTested t k) := by
  simp +decide [SameBeat, State.returnTested]

@[simp] theorem State.beginTeamTest_sameTeams (s : State) (t : Nat) : SameTeams s (s.beginTeamTest t) := by
  simp +decide [SameTeams, SameBeat, State.beginTeamTest]

@[simp] theorem State.tryTests_sameBeat (s : State) (t : Nat) : SameBeat s (s.tryTests t) := by
  simp +decide [SameBeat, State.tryTests]

/-! ### The beat of a team -/

@[simp] theorem State.showBeat_sameTeams (s : State) (t k : Nat) (r : TileRec) : SameTeams s (s.showBeat t k r) := by
  simp +decide [SameTeams, SameBeat, State.showBeat]

@[simp] theorem State.showSat_sameTeams (s : State) (t k : Nat) (r : TileRec) : SameTeams s (s.showSat t k r) := by
  unfold State.showSat
  extract_lets n s1 s2
  split
  · exact ⟨⟨rfl, rfl, rfl⟩, rfl⟩
  · have h1 : SameTeams s s1 := by simp +decide [SameTeams, SameBeat, s1]
    have h2 : SameTeams s1 s2 := State.each_sameTeams (fun s i => by simp +decide [SameTeams, SameBeat]) s1 _
    refine (h1.trans h2).trans ?_
    simp +decide [SameTeams, SameBeat]

@[simp] theorem State.edgeMissing_sameBeat (s : State) (t k : Nat) (r : TileRec) (n : Nat) :
    SameBeat s (s.edgeMissing t k r n) := by
  simp +decide [SameBeat, State.edgeMissing]

@[simp] theorem State.latch_sameBeat (s : State) (f : BeatFaults) (t k : Nat) (p : Pulse) :
    SameBeat s (s.latch f t k p).2 := by
  simp +decide [SameBeat, State.latch]

@[simp] theorem State.latchAll_sameBeat (s : State) (f : BeatFaults) (t : Nat) (xs : List Nat) :
    SameBeat s (s.latchAll f t xs).2 := by
  induction xs generalizing s with
  | nil => simp +decide [SameBeat, State.latchAll]
  | cons k ks ih =>
    unfold State.latchAll
    split <;> simp +decide [SameBeat, ih]

@[simp] theorem State.keepSample_sameBeat (s : State) (t : Nat) (r : TileRec) : SameBeat s (s.keepSample t r) := by
  unfold State.keepSample
  split <;> simp +decide [SameBeat]

@[simp] theorem State.outlierWork_sameBeat (s : State) (t : Nat) (a8 : Bool) (rs : List TileRec) :
    SameBeat s (s.outlierWork t a8 rs).2 := by
  simp +decide [SameBeat, State.outlierWork]

@[simp] theorem State.repair_sameBeat (s : State) (t left : Nat) (r : TileRec) :
    SameBeat s (s.repair t left r).2.2 := by
  simp +decide [SameBeat, State.repair]

@[simp] theorem State.repairAll_sameBeat (s : State) (t left : Nat) (rs : List TileRec) :
    SameBeat s (s.repairAll t left rs).2.2 := by
  induction rs generalizing s left with
  | nil => simp +decide [SameBeat, State.repairAll]
  | cons c cs ih => simp +decide [SameBeat, State.repairAll, ih]

@[simp] theorem State.lateWork_sameBeat (s : State) (t used : Nat) : SameBeat s (s.lateWork t used) := by
  simp +decide [SameBeat, State.lateWork]

@[simp] theorem State.shadow_sameBeat (s : State) (t : Nat) (rs : List TileRec) : SameBeat s (s.shadow t rs) := by
  simp +decide [SameBeat, State.shadow]

@[simp] theorem State.endBeat_sameBeat (s : State) (f : BeatFaults) (t : Nat) : SameBeat s (s.endBeat f t) := by
  simp +decide [SameBeat, State.endBeat]

@[simp] theorem State.queueFirst_sameTeams (s : State) (t r : Nat) : SameTeams s (s.queueFirst t r) := by
  unfold State.queueFirst
  refine State.each_sameTeams (fun s c => ?_) _ _
  split
  · simp +decide [SameTeams, SameBeat]
  · simp +decide [SameTeams, SameBeat]

@[simp] theorem State.swapTile_sameBeat (s : State) (t k plane : Nat) : SameBeat s (s.swapTile t k plane) := by
  simp +decide [SameBeat, State.swapTile]

@[simp] theorem State.swaps_sameBeat (s : State) (t : Nat) : SameBeat s (s.swaps t).2 := by
  unfold State.swaps
  extract_lets x s1 due lost s2 go items s3 rest
  have h1 : SameBeat s s1 := State.each_sameBeat (fun s r => by simp [SameBeat]) s _
  have h2 : SameBeat s1 s2 := by
    unfold s2
    split <;> simp +decide [SameBeat]
  have h3 : SameBeat s2 s3 := State.each_sameBeat (fun s i => by simp [SameBeat]) s2 _
  exact (h1.trans h2).trans h3

@[simp] theorem State.noteBeat_sameTeams (s : State) (t : Nat) (p : Pulse) : SameTeams s (s.noteBeat t p) := by
  simp +decide [SameTeams, SameBeat, State.noteBeat]

@[simp] theorem State.beginVector_sameBeat (s : State) (t k : Nat) (p : Pulse) : SameBeat s (s.beginVector t k p) := by
  simp +decide [SameBeat, State.beginVector]

@[simp] theorem State.startTile_sameBeat (s : State) (t k : Nat) : SameBeat s (s.startTile t k) := by
  unfold State.startTile
  split <;> simp +decide [SameBeat]

@[simp] theorem State.startBeat_sameBeat (s : State) (t : Nat) : SameBeat s (s.startBeat t) := by
  simp +decide [SameBeat, State.startBeat]

@[simp] theorem State.teamWait_sameTeams (s : State) (t : Nat) : SameTeams s (s.teamWait t) := by
  simp +decide [SameTeams, SameBeat, State.teamWait]

@[simp] theorem State.teamBeat_sameBeat (s : State) (f : BeatFaults) (t : Nat) : SameBeat s (s.teamBeat f t) := by
  simp +decide [SameBeat, State.teamBeat]

/-! ### Experts and calls served -/

@[simp] theorem State.seqFail_sameBeat (s : State) (x : Nat) : SameBeat s (s.seqFail x) := by
  unfold State.seqFail
  split <;> simp +decide [SameBeat]

@[simp] theorem State.closeSession_sameTeams (s : State) (src num : Nat) : SameTeams s (s.closeSession src num) := by
  simp +decide [SameTeams, SameBeat, State.closeSession]

@[simp] theorem State.sendData_sameTeams (s : State) (m p dst cls session opened : Nat) (b : List Nat) :
    SameTeams s (s.sendData m p dst cls session opened b) := by
  simp +decide [SameTeams, SameBeat, State.sendData]

@[simp] theorem State.takeSession_sameTeams (s : State) : SameTeams s (s.takeSession).2 := by
  simp +decide [SameTeams, SameBeat, State.takeSession]

@[simp] theorem State.queueWork_sameBeat (s : State) (step : Nat) (h : List Nat) (w : ExpertWork) :
    SameBeat s (s.queueWork step h w) := by
  simp +decide [SameBeat, State.queueWork]

@[simp] theorem State.loadExpert_sameBeat (s : State) (x unit : Nat) (e : Nat × Place) :
    SameBeat s (s.loadExpert x unit e) := by
  simp +decide [SameBeat, State.loadExpert]

@[simp] theorem State.expertGoes_sameBeat (s : State) (x p : Nat) (r : ExpertRun) :
    SameBeat s (s.expertGoes x p r).2 := by
  unfold State.expertGoes
  split <;> simp +decide [SameBeat]

@[simp] theorem State.expertsGo_sameBeat (s : State) (x : Nat) : SameBeat s (s.expertsGo x) := by
  unfold State.expertsGo
  split <;> simp +decide [SameBeat]

@[simp] theorem State.putServed_sameTeams (s : State) (v w : Served) : SameTeams s (s.putServed v w) := by
  simp +decide [SameTeams, SameBeat, State.putServed]

@[simp] theorem State.answerCall_sameBeat (s : State) (v : Served) : SameBeat s (s.answerCall v) := by
  unfold State.answerCall
  extract_lets r q s1
  have hr : SameBeat s r.2 := ⟨foldl_keeps (fun a : List Nat × State => readyRegs a.2.fields) (by intro b x; rfl) _ _,
    foldl_keeps (fun a : List Nat × State => a.2.now) (by intro b x; rfl) _ _,
    foldl_keeps (fun a : List Nat × State => a.2.power.beat) (by intro b x; rfl) _ _⟩
  obtain ⟨hregs, hnow, hbeat⟩ := hr
  simp only [s1]
  split <;> simp [SameBeat, q, hregs, hnow, hbeat]

@[simp] theorem State.serve_sameBeat (s : State) (v : Served) : SameBeat s (s.serve v) := by
  unfold State.serve
  repeat' split
  all_goals simp +decide [SameBeat]

@[simp] theorem State.serveAll_sameBeat (s : State) : SameBeat s (s.serveAll) := by
  simp +decide [SameBeat, State.serveAll]

end Sys2Proof.Machine
end

section
/-!
SUPPORT. What a block of a plane that is read, merged or mended leaves of a team: all but its counts of hard cells.
-/
set_option Elab.async false
namespace Sys2Proof.Machine

/-- A team without its counts of hard cells (R280). -/
def bareTeam (teams : SMap Team) (u : Nat) : Team := { Map.get {} teams u with cells := [] }

@[simp] theorem bareTeam_ite (c : Prop) [Decidable c] (x y : SMap Team) (u : Nat) :
    bareTeam (if c then x else y) u = if c then bareTeam x u else bareTeam y u := apply_ite (bareTeam · u) c x y

@[simp] theorem State.each_bare {α : Type} {f : State → α → State} (u : Nat)
    (h : ∀ s x, bareTeam (f s x).teams u = bareTeam s.teams u) (s : State) (xs : List α) :
    bareTeam (s.each xs f).teams u = bareTeam s.teams u := s.each_keeps (fun t => bareTeam t.teams u) f h xs

@[simp] theorem State.setCells_bare (s : State) (t u : Nat) (c : SMap Nat) :
    bareTeam (s.setTeam t { s.team t with cells := c }).teams u = bareTeam s.teams u := by
  by_cases htu : t = u
  · subst htu
    simp [bareTeam, State.setTeam, Map.get_set_same, State.team]
  · simp [bareTeam, State.setTeam, Map.get_set_ne _ _ _ _ htu]

@[simp] theorem State.noteCell_bare (s : State) (t k blk i j : Nat) (u : Nat) :
    bareTeam (s.noteCell t k blk i j).teams u = bareTeam s.teams u := by
  fun_cases State.noteCell <;> simp

@[simp] theorem State.hardPlane_bare (s : State) (t k blk syn : Nat) (u : Nat) :
    bareTeam (s.hardPlane t k blk syn).teams u = bareTeam s.teams u := by
  unfold State.hardPlane
  split <;> simp

@[simp] theorem State.readForMerge_bare (s : State) (t k plane writer : Nat) (e : Nat × Nat) (u : Nat) :
    bareTeam (s.readForMerge t k plane writer e).teams u = bareTeam s.teams u := by
  unfold State.readForMerge
  split <;> simp

@[simp] theorem State.mergePlaneBlock_bare (s : State) (t k plane off n writer : Nat) (e : Nat × Nat) (u : Nat) :
    bareTeam (s.mergePlaneBlock t k plane off n writer e).teams u = bareTeam s.teams u := by
  unfold State.mergePlaneBlock
  repeat' split
  all_goals simp

@[simp] theorem State.storePlane_bare (s : State) (t k : Nat) (w : PlaneWrite) (u : Nat) :
    bareTeam (s.storePlane t k w).teams u = bareTeam s.teams u := by
  simp [State.storePlane]

@[simp] theorem State.planeWrite_bare (s : State) (t k : Nat) (w : PlaneWrite) (u : Nat) :
    bareTeam (s.planeWrite t k w).teams u = bareTeam s.teams u := by
  simp [State.planeWrite]

@[simp] theorem State.planeWriteBoth_bare (s : State) (t k : Nat) (w : PlaneWrite) (u : Nat) :
    bareTeam (s.planeWriteBoth t k w).teams u = bareTeam s.teams u := by
  simp [State.planeWriteBoth]

@[simp] theorem State.roleWrite_bare (s : State) (writer t r plane off : Nat) (b : List Nat) (u : Nat) :
    bareTeam (s.roleWrite writer t r plane off b).teams u = bareTeam s.teams u := by
  simp [State.roleWrite]

@[simp] theorem State.startReload_bare (s : State) (p t r plane : Nat) (u : Nat) :
    bareTeam (s.startReload p t r plane).teams u = bareTeam s.teams u := by
  unfold State.startReload
  split <;> simp

@[simp] theorem State.reloadMarked_bare (s : State) (t k plane : Nat) (u : Nat) :
    bareTeam (s.reloadMarked t k plane).teams u = bareTeam s.teams u := by
  fun_cases State.reloadMarked <;> simp

@[simp] theorem State.mendBlock_bare (s : State) (t k plane blk syn : Nat) (u : Nat) :
    bareTeam (s.mendBlock t k plane blk syn).teams u = bareTeam s.teams u := by
  simp [State.mendBlock]

@[simp] theorem State.finding_bare (s : State) (t k plane cls : Nat) (e : Nat × Nat) (u : Nat) :
    bareTeam (s.finding t k plane cls e).teams u = bareTeam s.teams u := by
  unfold State.finding
  dsimp only
  repeat' split
  all_goals simp

@[simp] theorem State.findAll_bare (s : State) (t k plane cls : Nat) (hit : Nat → Bool) (u : Nat) :
    bareTeam (s.findAll t k plane cls hit).teams u = bareTeam s.teams u := by
  simp [State.findAll]

@[simp] theorem State.outriderReads_bare (s : State) (t k plane : Nat) (rows : List Nat) (u : Nat) :
    bareTeam (s.outriderReads t k plane rows).teams u = bareTeam s.teams u := by
  simp [State.outriderReads]

end Sys2Proof.Machine
end
section
/-!
SUPPORT. What adds no sample of a role to a team and forces none: every operation that a tracked repair of a tile can come to
(R102, R127), one lemma per definition. An operation that changes no team says so itself, and needs no lemma here.
-/
set_option Elab.async false
namespace Sys2Proof.Machine

/-- No sample of the role is being taken in the team, and none is forced. -/
def NoSample (m role : Nat) (teams : SMap Team) : Prop :=
  role ∉ (Map.get {} teams m).forced ∧ ∀ e ∈ (Map.get {} teams m).samples, e.1 ≠ role

/-- A state of which a lemma takes that for granted. The lemmas conclude about teams, so that what changes no team drops out by
its own rule before the next lemma is asked for. -/
structure State.Unsampled (s : State) (m role : Nat) : Prop where
  none : NoSample m role s.teams

@[simp] theorem State.unsampled_iff (s : State) (m role : Nat) : s.Unsampled m role ↔ NoSample m role s.teams :=
  ⟨State.Unsampled.none, State.Unsampled.mk⟩

@[simp] theorem noSample_ite {m role : Nat} (c : Prop) [Decidable c] (x y : SMap Team) :
    NoSample m role (if c then x else y) ↔ if c then NoSample m role x else NoSample m role y := by
  split <;> rfl

section
variable {m role : Nat} {s : State} (hno : s.Unsampled m role)
include hno

@[simp] theorem State.each_noSample {α : Type} {f : State → α → State}
    (hf : ∀ s x, s.Unsampled m role → (f s x).Unsampled m role) (xs : List α) :
    NoSample m role (s.each xs f).teams :=
  (s.each_inv (fun t => t.Unsampled m role) f hf xs hno).none

/-- A team that keeps no more samples and forced roles than it had. -/
theorem State.setTeam_noSample_of_subset (t : Nat) (x : Team) (hforced : x.forced ⊆ (s.team t).forced)
    (hsamples : x.samples ⊆ (s.team t).samples) : NoSample m role (s.setTeam t x).teams := by
  obtain ⟨hf, hs⟩ := hno.none
  by_cases htm : t = m
  · subst htm
    rw [NoSample, State.setTeam, Map.get_set_same]
    exact ⟨fun h => hf (hforced h), fun e he => hs e (hsamples he)⟩
  · rw [NoSample, State.setTeam, Map.get_set_ne _ _ _ _ htm]
    exact ⟨hf, hs⟩

@[simp] theorem State.setTeam_noSample (t : Nat) (x : Team) (hforced : x.forced = (s.team t).forced)
    (hsamples : x.samples = (s.team t).samples) : NoSample m role (s.setTeam t x).teams :=
  State.setTeam_noSample_of_subset hno t x (by rw [hforced]; exact List.Subset.refl _)
    (by rw [hsamples]; exact List.Subset.refl _)

@[simp] theorem State.setGroup_noSample (t g : Nat) (x : Group) : NoSample m role (s.setGroup t g x).teams := by
  simp [hno.none, State.setGroup]

@[simp] theorem State.abandonGroup_noSample (t g : Nat) : NoSample m role (s.abandonGroup t g).teams := by
  simp [hno.none, State.abandonGroup]

@[simp] theorem State.abandonGroups_noSample (id t : Nat) : NoSample m role (s.abandonGroups id t).teams := by
  unfold State.abandonGroups
  exact State.each_noSample hno (fun s x hno => by simp [hno.none]) _

@[simp] theorem State.dropTeamWork_noSample (id t : Nat) : NoSample m role (s.dropTeamWork id t).teams := by
  unfold State.dropTeamWork
  extract_lets s1 x lost s2
  have h1 : s1.Unsampled m role := ⟨State.abandonGroups_noSample hno id t⟩
  have h2 : s2.Unsampled m role := ⟨State.setTeam_noSample_of_subset h1 t _ (List.filter_subset_self _) (List.filter_subset_self _)⟩
  refine State.each_noSample h2 (fun _ _ hno => ⟨?_⟩) _
  exact hno.none

@[simp] theorem State.swapPlaces_noSample (ps : List Place) (back : Bool) :
    NoSample m role (s.swapPlaces ps back).teams := by
  unfold State.swapPlaces
  exact State.each_noSample hno (fun s x hno => by simp [hno.none]) _

@[simp] theorem State.claim_noSample (ps : List Place) (v : Nat) : NoSample m role (s.claim ps v).teams := by
  unfold State.claim
  exact State.each_noSample hno (fun s x hno => by simp [hno.none]) _

@[simp] theorem State.dropExpert_noSample (x : Nat) (h : List Nat) (r : ExpertRun) :
    NoSample m role (s.dropExpert x h r).teams := by
  unfold State.dropExpert
  dsimp only
  rw [State.setSeqr_teams]
  exact State.each_noSample ⟨State.claim_noSample hno _ 0⟩ (fun s y hno => by simp [hno.none]) _

@[simp] theorem State.dropExperts_noSample (id x : Nat) : NoSample m role (s.dropExperts id x).teams := by
  unfold State.dropExperts
  split
  · exact hno.none
  · exact State.each_noSample hno (fun s r hno => by simp [hno.none]) _

@[simp] theorem State.rewindMeans_noSample (k : Nat) (t : Step) (before after : SMap Nat) :
    NoSample m role (s.rewindMeans k t before after).teams := by
  simp [hno.none, State.rewindMeans]

@[simp] theorem State.beginSeq_noSample (x : Nat) (t : Step) : NoSample m role (s.beginSeq x t).teams := by
  unfold State.beginSeq
  refine State.each_noSample ?_ (fun s k hno => ?_) _
  · simp [hno.none]
  · split <;> simp [hno.none, Team.beginStep]

@[simp] theorem State.rebeginSeq_noSample (x : Nat) (t : Step) : NoSample m role (s.rebeginSeq x t).teams := by
  unfold State.rebeginSeq
  split
  · simp [hno.none]
  · refine State.each_noSample ⟨?_⟩ (fun s k hno => ⟨by simp [hno.none]⟩) _
    simp [hno.none]

@[simp] theorem State.startSeq_noSample (x : Nat) : NoSample m role (s.startSeq x).teams := by
  fun_cases State.startSeq <;> simp [hno.none]

@[simp] theorem State.startSeqs_noSample (p : Nat) : NoSample m role (s.startSeqs p).teams := by
  unfold State.startSeqs
  exact State.each_noSample hno (fun s x hno => by simp [hno.none]) _

@[simp] theorem State.abandonStep_noSample (id : Nat) : NoSample m role (s.abandonStep id).teams := by
  unfold State.abandonStep
  split
  · exact hno.none
  · next x _ =>
    extract_lets s1 s2 s3
    have h1 : s1.Unsampled m role := ⟨by simp [s1, hno.none]⟩
    have h2 : s2.Unsampled m role := ⟨State.each_noSample h1 (fun s t hno => ⟨by simp [hno.none, Team.endStep]⟩) _⟩
    have h3 : s3.Unsampled m role := ⟨State.each_noSample h2 (fun s k hno => ⟨by simp [hno.none]⟩) _⟩
    exact State.startSeqs_noSample ⟨by simpa using h3.none⟩ _

@[simp] theorem State.abandonBoth_noSample (id : Nat) : NoSample m role (s.abandonBoth id).teams := by
  unfold State.abandonBoth
  repeat' split
  all_goals simp [hno.none]

@[simp] theorem State.failStepWith_noSample (id code : Nat) : NoSample m role (s.failStepWith id code).teams := by
  unfold State.failStepWith
  split <;> simp [hno.none]

@[simp] theorem State.failStep_noSample (id : Nat) : NoSample m role (s.failStep id).teams := by
  simp [hno.none, State.failStep]

@[simp] theorem State.failPartSteps_noSample (p : Nat) : NoSample m role (s.failPartSteps p).teams := by
  unfold State.failPartSteps
  exact State.each_noSample hno (fun s x hno => by simp [hno.none]) _

@[simp] theorem State.setCal_noSample (t : Nat) (c : Cal) : NoSample m role (s.setCal t c).teams := by
  simp [hno.none, State.setCal]

@[simp] theorem State.startTakeover_noSample (t r dst why reason column : Nat) (planes : List Nat) :
    NoSample m role (s.startTakeover t r dst why reason column planes).teams := by
  unfold State.startTakeover
  dsimp only
  split <;> simp [hno.none]

@[simp] theorem State.writeFarrier_noSample (t : Nat) (fail : Bool) : NoSample m role (s.writeFarrier t fail).teams := by
  unfold State.writeFarrier
  extract_lets nv x s1
  have h1 : NoSample m role s1.teams := by
    unfold s1
    split
    · exact State.setTeam_noSample ⟨hno.none⟩ t _ rfl rfl
    · split
      · exact State.setTeam_noSample ⟨hno.none⟩ t _ rfl rfl
      · exact State.setTeam_noSample hno t _ rfl rfl
  simp [h1]

@[simp] theorem State.recordFarrier_noSample (t : Nat) : NoSample m role (s.recordFarrier t).teams := by
  simp [hno.none, State.recordFarrier]

@[simp] theorem State.farrAction_noSample (t action reason k col : Nat) :
    NoSample m role (s.farrAction t action reason k col).teams := by
  simp [hno.none, State.farrAction]

@[simp] theorem State.loseTeam_noSample (t : Nat) : NoSample m role (s.loseTeam t).teams := by
  unfold State.loseTeam
  dsimp only
  split <;> simp [hno.none]

@[simp] theorem State.teamLost_noSample (t reason k col : Nat) : NoSample m role (s.teamLost t reason k col).teams := by
  simp [hno.none, State.teamLost]

@[simp] theorem State.bypassColumn_noSample (t k reason col : Nat) :
    NoSample m role (s.bypassColumn t k reason col).teams := by
  simp [hno.none, State.bypassColumn]

@[simp] theorem State.dropReturns_noSample (t k : Nat) : NoSample m role (s.dropReturns t k).teams := by
  simp [hno.none, State.dropReturns]

@[simp] theorem State.retireTile_noSample (t k reason : Nat) : NoSample m role (s.retireTile t k reason).teams := by
  unfold State.retireTile
  extract_lets x y
  split
  · exact hno.none
  · have hset : NoSample m role (s.setTeam t y).teams := State.setTeam_noSample hno t y rfl rfl
    have hdrop := State.dropReturns_noSample ⟨hset⟩ t k
    exact State.farrAction_noSample ⟨by simp +decide [hdrop]⟩ t 2 reason k 0

@[simp] theorem State.retireNoSpare_noSample (t k reason col : Nat) :
    NoSample m role (s.retireNoSpare t k reason col).teams := by
  simp [hno.none, State.retireNoSpare]

@[simp] theorem State.takeoverRetires_noSample (t k reason col : Nat) :
    NoSample m role (s.takeoverRetires t k reason col).teams := by
  simp [hno.none, State.takeoverRetires]

@[simp] theorem State.retire_noSample (t k reason col : Nat) : NoSample m role (s.retire t k reason col).teams := by
  unfold State.retire
  dsimp only
  repeat' split
  all_goals simp [hno.none]

theorem State.retireForColumn_unsampled (t k col : Nat) (cols : SMap SpareCol) :
    (((s.setTeam t { s.team t with cols := cols }).raise (Reg.farrErrNoSpareColumn.team t)).retire t k frSpares
      col).Unsampled m role := by
  have hset := State.setTeam_noSample hno t { s.team t with cols := cols } rfl rfl
  exact ⟨State.retire_noSample ⟨by simpa using hset⟩ t k frSpares col⟩

theorem State.countRemap_unsampled (t k col reason : Nat) (cols : SMap SpareCol) (cells : SMap Nat) :
    ((((s.setTeam t { s.team t with cols := cols, cells := cells }).bumpTeam t Reg.farrRemapCount 1).calTrace t k
      3).farrAction t 1 reason k col).Unsampled m role := by
  have hset := State.setTeam_noSample hno t { s.team t with cols := cols, cells := cells } rfl rfl
  exact ⟨State.farrAction_noSample ⟨by simp [hset]⟩ t 1 reason k col⟩

/-- The two lemmas above stand for any state, so that nothing computes the copied column. -/
theorem State.remap_unsampled (t k col reason : Nat) : (s.remap t k col reason).Unsampled m role := by
  unfold State.remap
  dsimp only
  split
  · exact State.retireForColumn_unsampled hno t k col _
  · next i _ =>
    have hcopy : (s.copyColumn t k ((s.team t).phys k col) (256 + i)).Unsampled m role :=
      ⟨by rw [(State.copyColumn_sameTeams ..).2]; exact hno.none⟩
    exact State.countRemap_unsampled hcopy t k col reason _ _

@[simp] theorem State.remap_noSample (t k col reason : Nat) : NoSample m role (s.remap t k col reason).teams :=
  (State.remap_unsampled hno t k col reason).none

@[simp] theorem State.windowFault_noSample (t k : Nat) : NoSample m role (s.windowFault t k).teams := by
  simp [hno.none, State.windowFault]

@[simp] theorem State.winLimited_noSample (t k : Nat) (was now : Int) :
    NoSample m role (s.winLimited t k was now).teams := by
  simp [hno.none, State.winLimited]

@[simp] theorem State.setWin_noSample (t k : Nat) (w : Int) : NoSample m role (s.setWin t k w).2.teams := by
  unfold State.setWin
  split <;> simp [hno.none]

@[simp] theorem State.retrimTo_noSample (wait : Bool) (t k : Nat) : NoSample m role (s.retrimTo wait t k).teams := by
  unfold State.retrimTo
  split <;> simp [hno.none]

@[simp] theorem State.retrim_noSample (t k : Nat) : NoSample m role (s.retrim t k).teams := by
  simp [hno.none, State.retrim]

@[simp] theorem State.remapDue_noSample (t k : Nat) (due : List (Nat × Nat)) :
    NoSample m role (s.remapDue t k due).teams := by
  unfold State.remapDue
  dsimp only
  split
  · exact hno.none
  · exact State.setTeam_noSample ⟨State.each_noSample hno (fun s e hno => ⟨State.remap_noSample hno t k _ _⟩) due⟩ t _ rfl rfl

@[simp] theorem State.medianTrims_noSample (t k : Nat) (delay : Int) :
    NoSample m role (s.medianTrims t k delay).2.teams := by
  simp [hno.none, State.medianTrims]

@[simp] theorem State.repairInPlace_noSample (t k : Nat) (v : CoefSet) (fits : List (Nat × Rat × Rat)) :
    NoSample m role (s.repairInPlace t k v fits).teams := by
  simp [hno.none, State.repairInPlace]

@[simp] theorem State.keepCheck_noSample (t : Nat) (q : Check) : NoSample m role (s.keepCheck t q).teams := by
  simp [hno.none, State.keepCheck]

@[simp] theorem State.track_noSample (t k : Nat) : NoSample m role (s.track t k).teams := by
  unfold State.track
  extract_lets fits a n d v c s1
  split
  · exact hno.none
  · have hd : NoSample m role d.2.teams := State.medianTrims_noSample hno t k _
    have hretrim := State.retrim_noSample (m := m) (role := role) (s := s1) ⟨by simp [s1, hd]⟩ t k
    exact State.repairInPlace_noSample ⟨by simpa using hretrim⟩ t k v fits

@[simp] theorem State.startArb_noSample (t : Nat) (q : Sample) (col phase : Nat) :
    NoSample m role (s.startArb t q col phase).teams := by
  simp [hno.none, State.startArb]

end

end Sys2Proof.Machine
end

section
/-!
PROOFS. Plane writes, drains and the outrider's checks complete (O11): writes and drains, the reference run, the sampled check.
-/
set_option Elab.async false
namespace Sys2Proof.Machine

/-! ### What a write to a plane leaves of the tiles -/

section
variable (x : Tile)

@[simp] theorem Tile.setCell_drain (plane row c v : Nat) : (x.setCell plane row c v).drain = x.drain := by
  unfold Tile.setCell
  split <;> rfl

@[simp] theorem Tile.setScaleByte_drain (plane i v : Nat) : (x.setScaleByte plane i v).drain = x.drain := by
  unfold Tile.setScaleByte
  split <;> rfl

@[simp] theorem Tile.setBad_drain (plane blk syn : Nat) : (x.setBad plane blk syn).drain = x.drain := rfl

@[simp] theorem Tile.flip_drain (plane blk b i : Nat) : (x.flip plane blk b i).drain = x.drain := by
  unfold Tile.flip
  repeat' split
  all_goals simp

@[simp] theorem putBytes_drain (m : Team) (k plane off : Nat) (bs : List Nat) :
    (putBytes m k plane off bs x).drain = x.drain := by
  induction bs generalizing off x with
  | nil => rfl
  | cons b bs ih =>
    unfold putBytes
    rw [ih]
    repeat' split
    all_goals simp

end

section
variable (s : State)

@[simp] theorem State.bumpTeam_tiles (t : Nat) (f : Fld) (n : Nat) : (s.bumpTeam t f n).tiles = s.tiles := by
  unfold State.bumpTeam
  split <;> rfl

@[simp] theorem State.noteCell_tiles (t k blk i j : Nat) : (s.noteCell t k blk i j).tiles = s.tiles := by
  fun_cases State.noteCell <;> rfl

@[simp] theorem State.hardPlane_tiles (t k blk syn : Nat) : (s.hardPlane t k blk syn).tiles = s.tiles := by
  unfold State.hardPlane
  split <;> simp

@[simp] theorem State.recordSoft_tiles (source where_ mem syn : Nat) :
    (s.recordSoft source where_ mem syn).tiles = s.tiles := by
  unfold State.recordSoft
  split
  · simp [State.softCount]
  · rfl

@[simp] theorem State.readForMerge_tiles (t k plane writer : Nat) (e : Nat × Nat) :
    (s.readForMerge t k plane writer e).tiles = s.tiles := by
  unfold State.readForMerge
  dsimp only
  repeat' split
  all_goals simp

/-- The block that is merged is written; no tile begins a drain or ends one. -/
theorem State.mergePlaneBlock_drain (t k plane off n writer j : Nat) (e : Nat × Nat) :
    ((s.mergePlaneBlock t k plane off n writer e).tile t j).drain = (s.tile t j).drain := by
  have hread := State.tile_congr (s.readForMerge_tiles t k plane writer e) t j
  unfold State.mergePlaneBlock
  dsimp only
  split
  · exact State.setTile_keeps s t t Tile.drain (by rfl) j
  · rw [← hread]
    split
    · exact State.setTile_keeps _ t t Tile.drain (by rfl) j
    · exact State.setTile_keeps _ t t Tile.drain (by simp) j
    · exact State.setTile_keeps _ t t Tile.drain (by rfl) j

theorem State.storePlane_drain (t k j : Nat) (w : PlaneWrite) :
    ((s.storePlane t k w).tile t j).drain = (s.tile t j).drain := by
  unfold State.storePlane
  extract_lets n s1 x x1 x2
  have h1 : (s1.tile t j).drain = (s.tile t j).drain :=
    s.each_keeps (fun u => (u.tile t j).drain) _ (fun u e => u.mergePlaneBlock_drain t k w.plane w.off n w.writer j e) _
  rw [← h1]
  refine State.setTile_keeps s1 t t Tile.drain ?_ j
  have hx : x.drain = (s1.tile t k).drain := putBytes_drain ..
  rw [← hx]
  unfold x2 x1
  repeat' split
  all_goals rfl

theorem State.planeWrite_drain (t k j : Nat) (w : PlaneWrite) :
    ((s.planeWrite t k w).tile t j).drain = (s.tile t j).drain := by
  unfold State.planeWrite
  dsimp only
  repeat' split
  · rfl
  · exact State.setTile_keeps s t t Tile.drain (by rfl) j
  · exact s.storePlane_drain t k j w

theorem State.flushQueue_drain (t k j : Nat) : ((s.flushQueue t k).tile t j).drain = (s.tile t j).drain := by
  unfold State.flushQueue
  dsimp only
  refine (State.each_keeps _ (fun u => (u.tile t j).drain) _ (fun u w => ?_) _).trans
    (State.setTile_keeps s t t Tile.drain (by rfl) j)
  split
  · exact u.storePlane_drain t k j w
  · exact u.planeWrite_drain t k j w

theorem State.setCal_tiles (t : Nat) (c : Cal) : (s.setCal t c).tiles = s.tiles := by
  simp [State.setCal, State.showCalStatus]

theorem State.writePatterns_drain (t j : Nat) : ((s.writePatterns t).tile t j).drain = (s.tile t j).drain := by
  unfold State.writePatterns
  dsimp only
  split
  · rfl
  · rw [State.tile_congr (State.setCal_tiles ..)]
    exact State.setTile_keeps s t t Tile.drain (by rfl) j

end

theorem State.ref_of_bare {s t : State} {m : Nat} (h : bareTeam t.teams m = bareTeam s.teams m) :
    (t.team m).ref = (s.team m).ref := by
  have href := congrArg Team.ref h
  simpa only [bareTeam, State.team] using href

/-! ### Writes, drains and reloads -/

theorem execPlaneWrite_stores {m k plane off : Nat} {bytes : List Nat} {s : State}
    (hopen : (s.tile m k).live ≠ plane % 2 ∨ (s.tile m k).held = some (plane % 2)) (hdrain : (s.tile m k).drain = false)
    (hmirrors : (s.team m).mirrors k = []) : exec (.planeWrite m k plane off bytes) s =
      .next ((s.storePlane m k ⟨plane % 2, off, bytes.map (· % 256), unitTeam m⟩).showTeam m) := by
  show execPlaneWrite m k plane off bytes s = _
  have hkept (w : PlaneWrite) : ((s.storePlane m k w).team m).mirrors k = [] :=
    (congrArg (fun x : Team => x.mirrors k) (s.storePlane_bare m k w m)).trans hmirrors
  have hlive : ¬((s.tile m k).live = plane % 2 ∧ (s.tile m k).held ≠ some (plane % 2)) := by tauto
  unfold execPlaneWrite State.planeWriteBoth State.planeWrite
  dsimp only
  rw [if_neg (by simpa [imp_iff_not_or] using hopen), if_neg hlive, if_neg (by simp [hdrain]), hkept]
  rfl

theorem execDrainEnd_ends {m k : Nat} {s : State} (hdrain : (s.tile m k).drain = true)
    (hreads : (s.openPlanes m k).any (fun p => s.readsHeld m k p) = false) :
    Completes (exec (.drainEnd m k) s) (fun t => (t.tile m k).drain = false) := by
  show Completes (execDrainEnd m k s) _
  unfold execDrainEnd
  rw [completes_next, State.showTeam_tile, State.writePatterns_drain, State.endDrain,
    if_neg (by simp [hdrain, hreads]), State.flushQueue_drain, State.tile_setTile]

theorem execHeldPlaneReloaded_ends {m k plane : Nat} {s : State} (hdone : (s.tile m k).reloadDone plane = true) :
    Completes (exec (.heldPlaneReloaded m k plane) s)
      (fun t => (t.tile m k).held ≠ some plane ∧ plane ∉ (t.tile m k).marked) := by
  show Completes (execHeldPlaneReloaded m k plane s) _
  unfold execHeldPlaneReloaded
  dsimp only
  rw [if_pos hdone, completes_next, State.showTeam_tile, State.tile_setTile, Tile.endReload]
  refine ⟨?_, by simp⟩
  dsimp only
  split
  · simp
  · assumption

/-! ### The reference run -/

theorem State.fset_refRange (s : State) (f : Fld) (v t a n : Nat) : (s.fset f v).refRange t a n = s.refRange t a n := rfl

theorem execOutrRefGo_takes {m w : Nat} {s : State} (href : (s.team m).ref = none) (htile : bits w 21 16 < 34)
    (hfloor : bits w 6 4 ≤ 4) {a b : Nat} (ha : a = s.fget (Reg.outrRefInLo.team m) * 64 + 2 ^ 32 * s.fget (Reg.outrRefInHi.team m))
    (hb : b = s.fget (Reg.outrRefOutLo.team m) * 64 + 2 ^ 32 * s.fget (Reg.outrRefOutHi.team m))
    (hin : s.refRange m a 1024 = true) (hout : s.refRange m b (if w.testBit 7 then 3200 else 1600) = true) :
    Completes (exec (.outrRefGo m w) s) (fun t => (t.team m).ref = some ⟨w, a, b⟩) := by
  have hclear (u : State) (f : Fld) : u.clear f = u.fset f 0 := rfl
  show Completes (execOutrRefGo m w s) _
  unfold execOutrRefGo
  extract_lets s1 s2 s3 s4 s5 a' b' n x
  have hteam : s5.team m = s.team m := by
    unfold s5
    split
    all_goals
      unfold s4 s3 s2 s1
      simp only [hclear, State.fset_team]
  have hrange (c l : Nat) : s5.refRange m c l = s.refRange m c l := by
    unfold s5
    split
    all_goals
      unfold s4 s3 s2 s1
      simp only [hclear, State.fset_refRange]
  have hfget {f : Fld} (hf : Reg.outrRefCtrlGo.key < f.key) : s5.fget (f.team m) = s.fget (f.team m) := by
    have hne (g : Fld) (hg : g.key ≤ Reg.outrRefCtrlGo.key) : g.key ≠ f.key := by omega
    unfold s5
    split
    all_goals
      unfold s4 s3 s2 s1
      simp (disch := exact hne _ (by decide)) only [hclear, State.fget_fset_team]
  have ha' : a' = a := by rw [ha]; unfold a'; rw [hfget (by decide), hfget (by decide)]
  have hb' : b' = b := by rw [hb]; unfold b'; rw [hfget (by decide), hfget (by decide)]
  rw [if_neg (by simp [hteam, hrange, href, htile, hfloor, ha', hb', hin, hout, n]), completes_next, State.showTeam_team,
    State.team_setTeam, ha', hb']

theorem State.readFor_none_bytes (s : State) (source a n : Nat) : (s.readFor none source a n).1 = s.codedBytes a n := rfl

theorem State.setTeam_codedBytes (s : State) (t : Nat) (x : Team) (a n : Nat) :
    (s.setTeam t x).codedBytes a n = s.codedBytes a n := rfl

/-- A block of zeros is good input in either format; the run is taken off before it reads. -/
theorem execReferenceRunDone_completes {m : Nat} {f : RefRun} {s : State} (hrun : (s.region (teamString m)).stopped = false)
    (href : (s.team m).ref = some f) (hzero : s.codedBytes f.input 1024 = zeros 1024) :
    Completes (exec (.referenceRunDone m) s) (fun t => (t.team m).ref = none ∧ t.fget (Reg.outrRefCtrlDone.team m) = 1) := by
  show Completes (execReferenceRunDone m s) _
  unfold execReferenceRunDone
  rw [if_neg (by simp [hrun])]
  split
  case h_1 h => simp [href] at h
  case h_2 g hg =>
  obtain rfl : f = g := Option.some.inj (href.symm.trans hg)
  extract_lets w x s1 r s2 k plane s3 units s4 run out
  have hread : r.1 = s.codedBytes f.input 1024 := by
    unfold r
    rw [State.readFor_none_bytes, State.setTeam_codedBytes]
  have hcodes : ¬((!w.testBit 7 && r.1.any (fun b => b % 128 / 16 != 0)) = true) := by
    have hzeros (n : Nat) : (zeros n).any (fun b => b % 128 / 16 != 0) = false := by simp [zeros]
    rw [hread, hzero, hzeros, Bool.and_false]
    exact Bool.false_ne_true
  rw [if_neg hcodes, completes_next]
  refine ⟨?_, ?_⟩
  · have h1 : (s1.team m).ref = none := by rw [State.team_setTeam]
    have h4 : bareTeam s4.teams m = bareTeam s1.teams m := by simp [s4, s3, s2, r]
    rw [State.showTeam_team, State.raise_team, State.team_congr (State.writeThrough_sameTeams ..).2]
    exact (State.ref_of_bare h4).trans h1
  · rw [State.showTeam_fget _ _ (by decide), State.fget_raise_same]
    rfl

/-! ### The sampled check -/

/-- What a block that is read leaves of a team holds no more samples of it. -/
@[simp] theorem State.outriderReads_noSample {m role : Nat} {s : State} (hno : s.Unsampled m role) (t k plane : Nat)
    (rows : List Nat) : NoSample m role (s.outriderReads t k plane rows).teams := by
  have hbare := s.outriderReads_bare t k plane rows m
  have hforced := congrArg Team.forced hbare
  have hsamples := congrArg Team.samples hbare
  simp only [bareTeam] at hforced hsamples
  rw [NoSample, hforced, hsamples]
  exact hno.none

theorem execSampleComplete_completes {m r : Nat} (lanes : List (Nat × Nat × Int)) {q : Sample} {s : State}
    (hrun : (s.region (teamString m)).stopped = false) (hsample : (s.team m).samples.find? (fun e => e.1 == r) = some (r, q))
    (hwhole : q.whole = true) : Completes (exec (.sampleComplete m r lanes) s)
      (fun t => (t.team m).forced.contains r = false ∧ (t.team m).samples.find? (fun e => e.1 == r) = none) := by
  show Completes (execSampleComplete m r lanes s) _
  unfold execSampleComplete
  rw [if_neg (by simp [hrun])]
  split
  case h_1 h => simp [hsample] at h
  case h_2 r' q' hq =>
  obtain ⟨rfl, rfl⟩ : r = r' ∧ q = q' := by simpa [hsample] using hq
  rw [if_neg (by simp [hwhole])]
  extract_lets sums g near x fails s1 s2 s3 obs s4 s5 y s6
  rw [completes_next]
  have h1 : s1.Unsampled m r := by
    constructor
    rw [NoSample, ← State.team, State.team_setTeam]
    simp
  have h3 : s3.Unsampled m r := ⟨State.outriderReads_noSample (s := s2) ⟨by simpa [s2] using h1.none⟩ m _ _ _⟩
  have h4 : s4.Unsampled m r := ⟨State.keepCheck_noSample ⟨by simpa using h3.none⟩ m _⟩
  have h5 : s5.Unsampled m r := ⟨State.track_noSample h4 m _⟩
  clear_value s5
  have h6 : s6.Unsampled m r := by
    unfold s6
    split
    · exact ⟨State.startArb_noSample ⟨by simpa using h5.none⟩ m _ _ _⟩
    · exact ⟨State.setTeam_noSample h5 m _ rfl rfl⟩
  obtain ⟨hforced, hsamples⟩ := h6.none
  rw [State.showTeam_team]
  exact ⟨by simpa [State.team] using hforced, by simpa [State.team] using hsamples⟩

/-- Settles O11: each command by its lemma above. -/
theorem planesAndOutriderComplete : Obligations.PlanesAndOutriderComplete := by
  unfold Obligations.PlanesAndOutriderComplete
  exact ⟨fun m k plane off bytes s => execPlaneWrite_stores, fun m k s => execDrainEnd_ends,
    fun m k plane s => execHeldPlaneReloaded_ends, fun m r s => execSampleDue_completes,
    fun m r s => execOutrSample_completes, fun m r s => execForcedCheck_begun, fun m r s => execForcedCheck_due,
    fun m r s => execCheckLate_completes m r s, fun m r lanes q s => execSampleComplete_completes lanes,
    fun m a s hrun harb => execArbCodeCheckDone_clean harb hrun,
    fun m d a s hrun harb => execArbReferenceDone_agrees harb hrun,
    fun m d a s harb => execArbSpareLoadDone_loads harb,
    fun m d wrong a r s hrun harb => execArbSpareRunDone_spareRight harb hrun,
    fun m a s harb => execArbNoSpareTimeout_ends harb,
    fun m pass s => execOutriderSelftestDone_completes pass, fun m s => execOutrSelftest_begins,
    fun m w s href htile hfloor => execOutrRefGo_takes href htile hfloor rfl rfl,
    fun m f s hrun href _ => execReferenceRunDone_completes hrun href⟩

end Sys2Proof.Machine
end

section
/-!
PROOFS. Conversion, beats, records, deliveries and groups of a team go on (O10). One lemma for each command whose effect is more
than an assignment.
-/
set_option Elab.async false
namespace Sys2Proof.Machine

/-- Folds whose steps agree wherever the invariant holds agree. -/
theorem State.each_congr {α : Type} {P : State → Prop} {f g : State → α → State} (hP : ∀ s x, P s → P (f s x))
    (hfg : ∀ s x, P s → f s x = g s x) {s : State} (hs : P s) (xs : List α) : s.each xs f = s.each xs g := by
  unfold State.each
  induction xs generalizing s with
  | nil => rfl
  | cons x xs ih =>
    rw [List.foldl_cons, List.foldl_cons, ← hfg s x hs]
    exact ih (hP s x hs)

/-! ### The conversion leaves the running configuration alone -/

section
variable (s : State)

@[simp] theorem State.bumpTeam_volz (t : Nat) (f : Fld) (n : Nat) : (s.bumpTeam t f n).volz = s.volz := by
  unfold State.bumpTeam
  split <;> rfl

@[simp] theorem State.bumpTile_volz (t k : Nat) (f : Fld) (n : Nat) : (s.bumpTile t k f n).volz = s.volz := by
  unfold State.bumpTile
  split <;> rfl

@[simp] theorem State.countOp_volz (x i n : Nat) : (s.countOp x i n).volz = s.volz := by
  unfold State.countOp
  split <;> rfl

@[simp] theorem State.showGroup_volz (t g : Nat) : (s.showGroup t g).volz = s.volz := by
  simp [State.showGroup]

@[simp] theorem State.setStat_volz (t step loc : Nat) (x : LayerStat) : (s.setStat t step loc x).volz = s.volz := by
  unfold State.setStat
  split <;> rfl

@[simp] theorem State.checkLimits_volz (t step loc : Nat) : (s.checkLimits t step loc).volz = s.volz := by
  fun_cases State.checkLimits <;> rfl

@[simp] theorem State.chargeSat_volz (t step loc n : Nat) (wide : Bool) : (s.chargeSat t step loc n wide).volz = s.volz := by
  unfold State.chargeSat
  split <;> simp

@[simp] theorem State.chargeUfl_volz (t step loc n : Nat) : (s.chargeUfl t step loc n).volz = s.volz := by
  unfold State.chargeUfl
  split <;> simp

@[simp] theorem State.countOverflow_volz (t : Nat) (j : Job) (loc excess : Nat) (l : Layer) :
    (s.countOverflow t j loc excess l).volz = s.volz := by
  simp [State.countOverflow, State.askLayer]

@[simp] theorem State.extract_volz (t : Nat) (j : Job) (l : Layer) (loc : Nat) (ps : List Place) (vs : List Rat) :
    (s.extract t j l loc ps vs).2.volz = s.volz := by
  simp [State.extract]

@[simp] theorem State.extractAll_volz (t : Nat) (l : Layer) (loc : Nat) (h : List Nat) (js : List Job) :
    (s.extractAll t l loc h js).2.volz = s.volz := by
  induction js generalizing s with
  | nil => rfl
  | cons j js ih => simp [State.extractAll, ih]

@[simp] theorem State.launch_volz (t : Nat) (j : Job) (l : Layer) (causes : Nat) (e : Int) (part : SegPart)
    (qs : List (Nat × Bool)) (x : Place) : (s.launch t j l causes e part qs x).volz = s.volz := by
  simp [State.launch, State.skipPhase]

@[simp] theorem State.deliver_volz (t : Nat) (j : Job) (l : Layer) (e : Int) (part : SegPart) (x : Place) :
    (s.deliver t j l e part x).volz = s.volz := by
  simp [State.deliver]

@[simp] theorem State.convertPart_volz (t : Nat) (j : Job) (l : Layer) (loc : Nat) (e : Int) (part : SegPart) :
    (s.convertPart t j l loc e part).volz = s.volz := by
  simp [State.convertPart]

theorem State.harness_congr {s t : State} (h : t.volz = s.volz) (p : Nat) : t.harness p = s.harness p := by
  simp only [State.harness, State.body, State.sect?, h]

end

/-! ### Conversion, records and deliveries -/

/-- The layer's place is that of the harness as it runs, which no part of the conversion changes. -/
theorem execEdgeConvert_converts {m p : Nat} {j : Job} {rest run : List Job} {l : Layer} {r : List SegPart × State} {e0 : Int}
    {s : State} (hrun : (s.region (teamString m)).stopped = false) (hstall : s.inputStalled m = false)
    (hjobs : (s.team m).jobs = j :: rest) (hpart : s.jobPart m j = some p) (hl : l = harnessLayer (s.harness p) j.layer)
    (hspan : run = spanJobs l.span (j :: rest)) (hnan : nanJob l run = none)
    (hr : r = (s.setTeam m { s.team m with jobs := (j :: rest).drop run.length }).extractAll m l
      (localLayer (s.harness p) m j.layer) (s.harness p) run)
    (he0 : e0 = if spanMax r.1 = 0 then 0
      else commonScale (spanMax r.1) (if inFmtOf l (r.2.causes j.step j.layer) = 1 then 127 else 15)) :
    exec (.edgeConvert m) s = .next ((r.2.each (run.zip r.1) (fun v b => v.convertPart m b.1 l
      (localLayer (v.harness p) m j.layer) (if (r.2.causes j.step j.layer).testBit 0 then e0 + 1 else e0) b.2)).showTeam m) := by
  have hconf : r.2.volz = s.volz := by rw [hr, State.extractAll_volz, State.setTeam_volz]
  rw [State.each_congr (P := fun v => v.volz = s.volz) (g := fun v b => v.convertPart m b.1 l
      (localLayer (s.harness p) m j.layer) (if (r.2.causes j.step j.layer).testBit 0 then e0 + 1 else e0) b.2)
    (fun v b hv => by rw [State.convertPart_volz, hv]) (fun v b hv => by rw [State.harness_congr hv]) hconf]
  subst hl hspan hr he0
  show execEdgeConvert m s = _
  unfold execEdgeConvert State.edgeConvert
  rw [if_neg (by simp [hrun]), if_neg (by simp [hstall]), hjobs]
  dsimp only
  rw [hpart]
  dsimp only
  rw [hnan]

theorem execSplitStallEnd_completes {m : Nat} {s : State} (hrun : (s.region (teamString m)).stopped = false) :
    Completes (exec (.splitStallEnd m) s)
      (fun t => (t.team m).stall = 0 ∧ (t.team m).drawn = 0 ∧ (t.team m).jobs = (s.team m).jobs) := by
  show Completes (execSplitStallEnd m s) _
  unfold execSplitStallEnd
  rw [if_neg (by simp [hrun]), completes_next, State.showTeam_team, State.team_setTeam]
  exact ⟨rfl, rfl, rfl⟩

theorem execTileRecordArrive_takes {m : Nat} {r : TileRec} {rest : List TileRec} {s : State}
    (hrun : (s.region (teamString m)).stopped = false) (hrecords : (s.team m).records = r :: rest) :
    exec (.tileRecordArrive m) s =
      .next (((s.setTeam m { s.team m with records := rest }).takeRecord m r).showTeam m) := by
  show execTileRecordArrive m s = _
  unfold execTileRecordArrive
  rw [if_neg (by simp [hrun]), hrecords]

/-- The delivery that is taken is the first that has begun (log 128), and its columns are delivered group of rows by group. -/
theorem execOutriderDelivery_delivers {m acc : Nat} {d : Delivery} {y : Step} {u s : State}
    (hrun : (s.region (teamString m)).stopped = false) (hfront : (s.team m).deliveries.find? (·.begun) = some d)
    (hu : u = (s.setTeam m { s.team m with deliveries := (s.team m).deliveries.erase d }).outriderReads m d.tile d.plane
      (d.rows.map (·.1)))
    (hstep : u.step? d.step = some y) (hstray : d.stray = false)
    (hacc : u.accTile y.part m d.layer d.group d.vec d.colBlock = some acc) :
    exec (.outriderDelivery m) s = .next (((u.each
      (if d.segScale then (d.rows.map (fun r => some (r.1 / 256))).eraseDups else [none])
      (fun v g => v.each (List.range (if d.pair then 128 else 256)) (fun v c =>
        if (v.step? d.step).isNone then v else v.deliverColumn m d acc g c
          ((u.setTile m d.tile ((u.tile m d.tile).mended d.plane)).deliveryTerms m d g c)))).showGroup m d.group).showTeam
      m) := by
  subst hu
  show execOutriderDelivery m s = _
  unfold execOutriderDelivery State.outriderDelivery
  rw [if_neg (by simp [hrun]), hfront]
  dsimp only
  rw [hstep]
  dsimp only
  rw [if_neg (by simp [hstray]), hacc]

/-- A delivery of no use any more, a stray or one of a group that has let its sum go, is counted. -/
theorem execOutriderDelivery_strays {m : Nat} {d : Delivery} {y : Step} {u s : State}
    (hrun : (s.region (teamString m)).stopped = false) (hfront : (s.team m).deliveries.find? (·.begun) = some d)
    (hu : u = (s.setTeam m { s.team m with deliveries := (s.team m).deliveries.erase d }).outriderReads m d.tile d.plane
      (d.rows.map (·.1)))
    (hstep : u.step? d.step = some y)
    (hlost : d.stray = true ∨ u.accTile y.part m d.layer d.group d.vec d.colBlock = none) :
    exec (.outriderDelivery m) s = .next (((u.strays d.step m
      (List.range (if d.pair then 128 else 256)).length).showGroup m d.group).showTeam m) := by
  have hnone : (if d.stray = true then none else u.accTile y.part m d.layer d.group d.vec d.colBlock) = none := by
    rcases hlost with hstray | hacc
    · rw [if_pos hstray]
    · rw [hacc, ite_self]
  subst hu
  show execOutriderDelivery m s = _
  unfold execOutriderDelivery State.outriderDelivery
  rw [if_neg (by simp [hrun]), hfront]
  dsimp only
  rw [hstep]
  dsimp only
  rw [hnone]

/-! ### Beats -/

theorem State.beatBoundary_counts {s : State} (f : BeatFaults) (hready : s.ready = true) :
    (s.beatBoundary f).power.beat = s.power.beat + 1 ∧ (s.beatBoundary f).now = s.now := by
  unfold State.beatBoundary
  extract_lets s1
  obtain ⟨hregs, hnow, hbeat⟩ : SameBeat s s1 := State.each_sameBeat (fun s t => s.teamBeat_sameBeat f t) s _
  have hready1 : s1.ready = true := hregs.trans hready
  rw [if_pos hready1]
  exact ⟨congrArg (· + 1) hbeat, hnow⟩

/-- What comes of a beat changes neither the waymark nor the count, which the boundary itself counts up in READY. -/
theorem execBeatBoundary_counts (wrong : List (Nat × Nat × Nat × Int)) (missing : List (Nat × Nat × Nat)) {s : State}
    (hready : s.ready = true) : Completes (exec (.beatBoundary wrong missing) s)
      (fun t => t.power.beat = s.power.beat + 1 ∧ t.now = s.now) := by
  obtain ⟨hbeat, hnow⟩ := State.beatBoundary_counts ⟨wrong, missing⟩ hready
  show Completes (execBeatBoundary wrong missing s) _
  unfold execBeatBoundary
  dsimp only
  rw [completes_next, ← hbeat, ← hnow]
  generalize s.beatBoundary ⟨wrong, missing⟩ = u
  exact ((State.each_sameBeat (fun s x => s.expertsGo_sameBeat x) u _).trans (State.serveAll_sameBeat _)).2.symm

/-! ### Groups and the team's controls -/

theorem execGroupCloseComplete_frees {m g : Nat} {y : Step} {s : State} (hrun : (s.region (teamString m)).stopped = false)
    (hst : (s.group m g).st = 2) (hbusy : s.groupBusy m g = false) (hruns : (s.team m).runs = [])
    (hstep : s.step? (s.group m g).step = some y) (hout : (s.group m g).desc.outMx = 7)
    (htopk : (s.group m g).desc.topkK = 0) : Completes (exec (.groupCloseComplete m g) s)
      (fun t => (t.group m g).st = 0 ∧ t.mem = s.mem) := by
  have hnone : s.promoteAll m [] = s := rfl
  have hreads : ((s.group m g).desc.outMx != 7 || (s.group m g).desc.topkK != 0) = false := by simp [hout, htopk]
  show Completes (execGroupCloseComplete m g s) _
  unfold execGroupCloseComplete State.closeGroup
  dsimp only
  rw [if_neg (by simp [hrun]), if_neg (by simp [hst, hbusy]), hruns, List.filter_nil, hnone, hstep, completes_next]
  dsimp only
  rw [hreads, Bool.false_and, if_neg Bool.false_ne_true, if_neg Bool.false_ne_true, State.writeOut, if_pos hout, State.writeTopk,
    if_pos (Or.inl htopk), if_neg (by simp [hstep]), State.showTeam_group, State.setGroup_group]
  exact ⟨rfl, by simp⟩

theorem State.abandonGroup_st (s : State) (m g : Nat) : ((s.abandonGroup m g).group m g).st = 0 := by
  unfold State.abandonGroup
  dsimp only
  split
  · assumption
  · rw [State.bumpTeam_group, State.setGroup_group]

theorem execAccAbandon_frees {m g : Nat} {s : State} (h : (s.team m).stopped = true ∨ (s.team m).quiesced = true) :
    Completes (exec (.accAbandon m g) s) (fun t => (t.group m (g % 16)).st = 0) := by
  show Completes (execAccAbandon m g s) _
  unfold execAccAbandon
  dsimp only
  rw [State.fset_team, if_pos (by simpa using h), completes_next, State.showTeam_group, State.abandonGroup_st]

theorem execTeamStop_completes (m : Nat) (stop : Bool) (s : State) : Completes (exec (.teamStop m stop) s)
    (fun t => t.fget (Reg.teamCtrlStop.team m) = (if stop then 1 else 0) ∧ (t.team m).stopped =
      (stop && ((s.team m).stopped || !((s.teamTiles m).any (fun k => (s.tile m k).vector.isSome))))) := by
  have hstop : (s.fput (Reg.teamCtrlStop.team m) stop).fget (Reg.teamCtrlStop.team m) = if stop then 1 else 0 :=
    State.fget_fput_same _ _ rfl
  show Completes (execTeamStop m stop s) _
  unfold execTeamStop State.settleStop
  dsimp only
  rw [completes_next]
  refine ⟨?_, ?_⟩
  · rw [State.showTeam_fget _ _ (by decide), State.setTeam_fget, hstop]
  · rw [State.showTeam_team, State.team_setTeam, State.flag, hstop]
    cases stop <;> rfl

theorem execTeamCntFreeze_completes (m : Nat) (freeze : Bool) (s : State) : Completes (exec (.teamCntFreeze m freeze) s)
    (fun t => t.fget (Reg.teamCtrlCntFreeze.team m) = if freeze then 1 else 0) := by
  show Completes (execTeamCntFreeze m freeze s) _
  unfold execTeamCntFreeze
  rw [completes_next]
  exact State.fget_fput_same _ _ rfl

/-- MASK 1 names role 0 alone. -/
theorem execTeamSwapGo_queues {m plane : Nat} {s : State} (hmask : s.fget (Reg.teamSwapMask.team m) = 1) :
    Completes (exec (.teamSwapGo m plane) s)
      (fun t => (t.team m).swaps = (s.team m).swaps ++ [⟨false, s.now, 0, [(0, plane % 2)]⟩]) := by
  have hroles : (List.range 32).filter (fun r => (1 : Nat).testBit r) = [0] := by decide
  show Completes (execTeamSwapGo m plane s) _
  unfold execTeamSwapGo
  dsimp only
  rw [hmask, hroles, completes_next, State.showTeam_team]
  exact congrArg Team.swaps (s.team_setTeam ..)

/-- Settles O10: each command by its lemma above. That the oldest record and the first begun delivery are the ones taken is the
model's choice (log 128). -/
theorem teamWorkCompletes : Obligations.TeamWorkCompletes := by
  unfold Obligations.TeamWorkCompletes
  exact ⟨fun m p j rest run l r e0 s => execEdgeConvert_converts, fun m s => execSplitStallEnd_completes,
    fun wrong missing s => execBeatBoundary_counts wrong missing, fun m r rest s => execTileRecordArrive_takes,
    fun m acc d y u s => execOutriderDelivery_delivers,
    fun m d u s hrun hfront hu y => execOutriderDelivery_strays hrun hfront hu,
    fun m g y s => execGroupCloseComplete_frees, fun m g s => execAccAbandon_frees,
    fun m stop s => execTeamStop_completes m stop s, fun m freeze s => execTeamCntFreeze_completes m freeze s,
    fun m plane s => execTeamSwapGo_queues⟩

end Sys2Proof.Machine
end

section
/-!
SUPPORT. A retirement ends the calibration of its tile (R131, R134): one lemma per operation, from the farrier's record up to the
trims in force, whose limit retires the tile at the second window fault of a day (R65, R129).
-/
set_option Elab.async false
namespace Sys2Proof.Machine

theorem clampInt_of_within {lo hi i : Int} (hlo : lo ≤ i) (hhi : i ≤ hi) : clampInt lo hi i = i := by
  unfold clampInt
  rw [if_neg (by omega), if_neg (by omega)]

section
variable (s : State) (t : Nat)

@[simp] theorem State.setCal_team (c : Cal) : (s.setCal t c).team t = { s.team t with cal := c } := by
  rw [State.setCal, State.team_congr (State.showCalStatus_sameTeams ..).2, State.team_setTeam]

/-- A take-over that begins or waits ends no calibration. -/
theorem State.startTakeover_cal (r dst why reason col : Nat) (planes : List Nat) :
    ((s.startTakeover t r dst why reason col planes).team t).cal = (s.team t).cal := by
  unfold State.startTakeover
  rw [State.team_setTeam]
  split <;> rfl

theorem State.startTakeover_tile (r dst why reason col : Nat) (planes : List Nat) (u k : Nat) :
    (s.startTakeover t r dst why reason col planes).tile u k = s.tile u k := State.setTeam_tile ..

/-- Whether it begins or waits, the team has a take-over. -/
theorem State.startTakeover_isSome (r dst why reason col : Nat) (planes : List Nat) :
    ((s.startTakeover t r dst why reason col planes).team t).takeover.isSome = true := by
  unfold State.startTakeover
  rw [State.team_setTeam]
  split
  · assumption
  · rfl

theorem State.nextCal_of_takeover (h : (s.team t).takeover.isSome = true) : s.nextCal t = s := by
  have hbusy : s.calFree t = false := by
    rw [State.calFree, Option.isNone_eq_false_iff.2 h, Bool.and_false]
  rw [State.nextCal, hbusy]
  rfl

theorem State.writeFarrier_cal (fail : Bool) : ((s.writeFarrier t fail).team t).cal = (s.team t).cal := by
  unfold State.writeFarrier
  rw [State.team_congr (State.updateHealth_sameTeams _).2, State.team_congr (State.showRepair_sameTeams ..).2]
  split <;> rw [State.team_setTeam]

theorem State.farrAction_cal (action reason k col : Nat) :
    ((s.farrAction t action reason k col).team t).cal = (s.team t).cal := by
  unfold State.farrAction State.recordFarrier
  rw [State.writeFarrier_cal]
  rfl

end

section
variable {s : State} {t k : Nat}

theorem State.dropReturns_ends_cal (hstep : (s.team t).cal.step ≠ 0) (htile : (s.team t).cal.tile = k) :
    ((s.dropReturns t k).team t).cal.step = 0 := by
  unfold State.dropReturns
  dsimp only
  rw [if_pos ⟨hstep, htile⟩, State.setCal_team]

theorem State.retireTile_ends_cal (reason : Nat) (hretired : (s.team t).retired.contains k = false)
    (hstep : (s.team t).cal.step ≠ 0) (htile : (s.team t).cal.tile = k) :
    ((s.retireTile t k reason).team t).cal.step = 0 := by
  unfold State.retireTile
  dsimp only
  rw [if_neg (by rw [hretired]; exact Bool.false_ne_true), State.farrAction_cal,
    State.team_congr (State.calTrace_sameTeams ..).2, State.bumpTeam_team, State.team_congr (State.revokeOwn_sameTeams ..).2]
  exact State.dropReturns_ends_cal (by rwa [State.team_setTeam]) (by rwa [State.team_setTeam])

/-- A tile that has given its role away is retired where it stands, and its calibration ends. -/
theorem State.retire_ends_cal (reason col : Nat) (hretired : (s.team t).retired.contains k = false)
    (hrun : s.coreHalted 5 = false) (hrole : (s.team t).roleOf k = none) (hstep : (s.team t).cal.step ≠ 0)
    (htile : (s.team t).cal.tile = k) : ((s.retire t k reason col).team t).cal.step = 0 := by
  unfold State.retire
  dsimp only
  rw [if_neg (by rw [hretired]; exact Bool.false_ne_true), if_neg (by rw [hrun]; exact Bool.false_ne_true), hrole]
  exact State.retireTile_ends_cal reason hretired hstep htile

theorem State.windowFault_ends_cal (hday : ∃ w ∈ (s.tile t k).cal.windowFaults, s.now < w + secTicks 86400)
    (hretired : (s.team t).retired.contains k = false) (hrun : s.coreHalted 5 = false)
    (hrole : (s.team t).roleOf k = none) (hstep : (s.team t).cal.step ≠ 0) (htile : (s.team t).cal.tile = k) :
    ((s.windowFault t k).team t).cal.step = 0 := by
  have hagain : ((s.tile t k).cal.windowFaults.filter (fun w => decide (s.now < w + secTicks 86400))).isEmpty = false := by
    simpa using hday
  unfold State.windowFault
  dsimp only
  rw [if_neg (by simp [hagain])]
  exact State.retire_ends_cal frWindow 512 hretired hrun hrole hstep htile

end

/-! ### The trims in force -/

/-- The trims that the temperature asks of a tile (R112), before any limit. -/
def State.delayAsked (s : State) (t k : Nat) (temp : Rat) : Int :=
  trimNow (s.trimSet t k).delay ((s.trimSet t k).tco.getD 0) (s.trimSet t k).tCal temp

def State.winAsked (s : State) (t k : Nat) (temp : Rat) : Int :=
  trimNow (s.trimSet t k).win ((s.trimSet t k).tco.getD 0) (s.trimSet t k).tCal temp

/-- TRIM_LIMIT of a team is no bit of CC5's run state. -/
theorem State.raise_trimLimit_coreHalted (s : State) (t : Nat) :
    (s.raise (Reg.calErrTrimLimit.team t)).coreHalted 5 = s.coreHalted 5 := by
  have hne : (Reg.calErrTrimLimit.team t).key ≠ (Reg.runstatHalted.unit 5).key := by
    simp only [Fld.team, Fld.unit, Fld.shift, Fld.key, Reg.calErrTrimLimit, Reg.runstatHalted]
    omega
  rw [State.coreHalted, State.flag, State.raise, State.fget_fset_ne _ _ hne]
  rfl

/-- A tile's trims in force are set at once. -/
def State.setTrims (s : State) (t k : Nat) (delay win : Int) : State :=
  s.setTileCal t k { (s.tile t k).cal with delayEff := delay, winEff := win, nextEff := none }

section
variable {s : State} {t k : Nat} {temp : Rat} (htemp : s.calTemp (teamString t) = some temp)
  (hwin : -1024 ≤ s.winAsked t k temp ∧ s.winAsked t k temp ≤ 1024)
include htemp hwin

/-- A window trim that R65 clamps, and that was not in force as clamped, is a window fault. -/
theorem State.retrim_clamped (hdelay : -1024 ≤ s.delayAsked t k temp ∧ s.delayAsked t k temp ≤ 1024)
    (hlimit : holdWin t k temp (s.winAsked t k temp) ≠ s.winAsked t k temp)
    (hmoves : (s.tile t k).cal.winEff ≠ holdWin t k temp (s.winAsked t k temp)) :
    s.retrim t k = ((s.setTrims t k (s.delayAsked t k temp) (holdWin t k temp (s.winAsked t k temp))).raise
      (Reg.tileErrWinLimit.tile t k)).windowFault t k := by
  obtain ⟨hdlo, hdhi⟩ := hdelay
  obtain ⟨hwlo, hwhi⟩ := hwin
  have hd := clampInt_of_within hdlo hdhi
  have hw := clampInt_of_within hwlo hwhi
  unfold State.delayAsked State.winAsked at *
  unfold State.retrim State.retrimTo State.setTrims
  rw [htemp]
  dsimp only
  rw [hw, hd, if_neg hlimit, if_pos ⟨hdlo, hdhi, hwlo, hwhi⟩, if_neg Bool.false_ne_true, State.winLimited, if_neg hmoves]

/-- A delay trim past its range costs the team where the tile's retirement is pending (R132). -/
theorem State.retrim_pendingLost (hfree : holdWin t k temp (s.winAsked t k temp) = s.winAsked t k temp)
    (hdelay : 1024 < s.delayAsked t k temp) (hpending : (s.team t).pendingRetire = some k)
    (hrun : s.coreHalted 5 = false) :
    s.retrim t k = (((s.setTrims t k 1024 (s.winAsked t k temp)).raise (Reg.calErrTrimLimit.team t)).setTeam t
      { s.team t with pendingRetire := none }).teamLost t frTrimLimit k 0 := by
  obtain ⟨hwlo, hwhi⟩ := hwin
  have hd : clampInt (-1024) 1024 (s.delayAsked t k temp) = 1024 := by
    unfold clampInt
    rw [if_neg (by omega), if_pos hdelay]
  have hw := clampInt_of_within hwlo hwhi
  unfold State.delayAsked State.winAsked at *
  unfold State.retrim State.retrimTo State.setTrims
  rw [htemp]
  dsimp only
  rw [hw, hd, if_pos hfree, hfree, if_neg (by omega), if_neg Bool.false_ne_true]
  refine if_pos ⟨hpending, ?_⟩
  rw [State.raise_trimLimit_coreHalted, Bool.not_eq_true']
  exact hrun

end

end Sys2Proof.Machine
end

section
/-!
PROOFS. O12 fails, at a fit that is taken while the tile's old trims, in force again until its role returns, cost it its service.
-/
set_option Elab.async false
namespace Sys2Proof.Machine

/-! ### A fit whose trims are known, of a tile that has given its role away -/

/-- Such a fit as it stands before the return of the role begins (R121): the residual is kept, the farrier has acted, and the
calibration has reached step 4. -/
def State.fitTaken (s : State) (m : Nat) (fits : List (Nat × Int × Int)) (resid : Nat) (noisy stuck : List Nat)
    (d : Int × Int) : State :=
  let c := (s.team m).cal
  let x := (s.tile m c.tile).cal
  let fits := (s.team m).fitted c fits
  let abrupt := abruptColumns x.active fits
  let u := if !(fitConditions x fits noisy stuck).isEmpty then s.raise (Reg.calErrFitPoor.team m) else s
  ((u.setTileCal m c.tile { x with abrupt := abrupt, resid := min 255 resid }).remapDue m c.tile
      (s.dueRemaps m c.tile fits noisy stuck)).setCal m
    { c with step := 4, abrupt := !abrupt.isEmpty,
             result := some (s.withTemp m c.tile (fittedSet x.active fits d.1 d.2) c.tCal) }

/-- What the fit leaves of the calibration and of its tile is what the trims in force leave: the return of the role begins or
waits, and no other calibration starts. -/
theorem execCalFitDone_leaves {m resid r : Nat} {fits : List (Nat × Int × Int)} {delay : Int} {noisy stuck : List Nat}
    {d : Int × Int} {s u : State} (hready : (s.team m).cal.fitReady = true) (hrole : (s.team m).cal.role = some r)
    (htrims : (s.team m).cal.trims = some d) (hu : u = s.fitTaken m fits resid noisy stuck d)
    (hretired : (u.team m).retired.contains (s.team m).cal.tile = false) :
    Completes (exec (.calFitDone m fits delay resid noisy stuck) s) (fun t =>
      (t.team m).cal = ((u.retrim m (s.team m).cal.tile).team m).cal ∧
      t.tile m (s.team m).cal.tile = (u.retrim m (s.team m).cal.tile).tile m (s.team m).cal.tile) := by
  subst hu
  unfold State.fitTaken at *
  dsimp only at *
  rw [State.setCal_team] at hretired
  show Completes (execCalFitDone m fits delay resid noisy stuck s) _
  unfold execCalFitDone
  dsimp only
  rw [if_neg (by simp [hready]), htrims, hrole]
  dsimp only
  rw [if_neg (by rw [hretired]; simp), State.nextCal_of_takeover _ _ (State.startTakeover_isSome ..), completes_next,
    State.showTeam_team, State.startTakeover_cal, State.showTeam_tile, State.startTakeover_tile]
  exact ⟨rfl, rfl⟩

/-! ### Two fits that do not end as O12 says -/

/-- Tile 5 of team 0 is fitted out of service, in CALREF mode and with known trims, while spare 32 serves its role. -/
def fitting (x : Team) : Team :=
  { x with roles := [(5, 32)],
           cal := { step := 3, tile := 5, role := some 5, spare := some 32, overwritten := true, trims := some (0, 0) } }

/-- String 0 has one good sensor, at 0 °C. -/
def oneSensor : Thermal := { sensors := [(0, { good := true })] }

/-- Tile 5 had a window fault within the day, and its old window trim asks for 1,024 steps. -/
def faultedToday : State :=
  { teams := [(0, fitting {})], thermal := oneSensor,
    tiles := [(5, { cal := { active := { win := 1024 }, winEff := 1024, windowFaults := [0] } })] }

/-- Partition 0 owns string 0 and runs a step; tile 5 waits for its retirement, and its old delay trim asks for 2,000 steps. The
map of tiles lists tile 5 twice, so that the second entry, with another residual, is read once the first is gone. -/
def listedTwice : State :=
  { volz := { running := [⟨2, 1, pkgScope, 0, [], zeros 32 ++ [1], false⟩] },
    steps := [newStep 0 0 0 [] 0 0 0 0 [] [] none],
    teams := [(0, fitting { pendingRetire := some 5 })], thermal := oneSensor,
    tiles := [(5, { cal := { active := { win := 1024, delay := 2000 } } }), (5, { cal := { resid := 1 } })] }

/-- What O12 says of a fit of tile 5 that is taken in such a state comes to this: the trims that come into force again leave the
calibration in step 4, and the tile its residual. -/
theorem retrim_keeps_of_calibrationCommandsComplete (h : Obligations.CalibrationCommandsComplete) {s u : State}
    (hu : u = s.fitTaken 0 [] 0 [] [] (0, 0)) (hcal : (s.team 0).cal = (fitting {}).cal)
    (hretired : (s.team 0).retired.contains 5 = false) (hdue : s.dueRemaps 0 5 [] [] [] = [])
    (htakeover : (s.team 0).takeover = none) (hqueue : (s.team 0).calQueue = [])
    (hkept : (u.team 0).retired.contains 5 = false) :
    ((u.retrim 0 5).team 0).cal.step = 4 ∧ ((u.retrim 0 5).tile 0 5).cal.resid = 0 := by
  have htile : (s.team 0).cal.tile = 5 := by rw [hcal]; rfl
  have hready : (s.team 0).cal.fitReady = true := by rw [hcal]; rfl
  have hrole : (s.team 0).cal.role = some 5 := by rw [hcal]; rfl
  have htrims : (s.team 0).cal.trims = some (0, 0) := by rw [hcal]; rfl
  have hfits : (s.team 0).fitted (s.team 0).cal [] = [] := by
    rw [hcal]
    rfl
  obtain ⟨-, -, -, -, -, -, -, -, -, -, hfit, -⟩ := h
  have hleaves := execCalFitDone_leaves (delay := 0) hready hrole htrims hu (by rwa [htile])
  have hclaims := hfit 0 0 [] 0 [] [] (0, 0) _ 5 s rfl hready hrole (by rwa [htile]) (by rwa [htile, hfits]) (Or.inl htrims)
    htakeover hqueue
  obtain ⟨hteam, hleft⟩ := hleaves.outState s
  obtain ⟨hstep, -, hresid, -⟩ := hclaims.outState s
  rw [htile] at hteam hleft hresid
  rw [← hteam, ← hleft]
  exact ⟨hstep, hresid⟩

/-- Where the limit of R65 clamps 1,024 steps, the old trims are a second window fault within the day, which retires tile 5. -/
theorem faultedToday_ends_cal (hlimit : holdWin 0 5 0 1024 ≠ 1024) :
    (((faultedToday.fitTaken 0 [] 0 [] [] (0, 0)).retrim 0 5).team 0).cal.step = 0 := by
  have hwin : (faultedToday.fitTaken 0 [] 0 [] [] (0, 0)).winAsked 0 5 0 = 1024 := by decide +kernel
  have hdelay : (faultedToday.fitTaken 0 [] 0 [] [] (0, 0)).delayAsked 0 5 0 = 0 := by decide +kernel
  rw [State.retrim_clamped (temp := 0) (by decide +kernel) (by rw [hwin]; decide) (by rw [hdelay]; decide)
    (by rwa [hwin]) (by rw [hwin]; exact hlimit.symm)]
  exact State.windowFault_ends_cal ⟨0, by decide +kernel, by decide +kernel⟩ (by decide +kernel) (by decide +kernel)
    (by decide +kernel) (by decide +kernel) (by decide +kernel)

/-- Where it does not, the delay trim costs the team, whose partition's step fails, and what tile 5 held of that step is dropped
entry by entry: the second is read from then on. -/
theorem listedTwice_resid (hfree : holdWin 0 5 0 1024 = 1024) :
    (((listedTwice.fitTaken 0 [] 0 [] [] (0, 0)).retrim 0 5).tile 0 5).cal.resid = 1 := by
  have hwin : (listedTwice.fitTaken 0 [] 0 [] [] (0, 0)).winAsked 0 5 0 = 1024 := by decide +kernel
  rw [State.retrim_pendingLost (temp := 0) (by decide +kernel) (by rw [hwin]; decide) (by rwa [hwin]) (by decide +kernel)
    (by decide +kernel) (by decide +kernel)]
  decide +kernel

/-- Refutes O12, by its statement on CAL_FIT_DONE: the old trims come into force again before the role has returned, and can cost
the tile or its team their service. Where R65 clamps a trim of 1,024 steps, the calibration ends at once in step 0, not in step 4.
The model leaves that limit open; should it clamp nothing, the statement, which is about every state, fails in one whose map of
tiles lists a tile twice, as no command makes it. -/
theorem not_calibrationCommandsComplete : ¬ Obligations.CalibrationCommandsComplete := by
  intro h
  by_cases hlimit : holdWin 0 5 0 1024 = 1024
  · obtain ⟨-, hresid⟩ := retrim_keeps_of_calibrationCommandsComplete h (s := listedTwice) rfl rfl rfl
      (by decide +kernel) rfl rfl (by decide +kernel)
    exact absurd (hresid.symm.trans (listedTwice_resid hlimit)) (by decide)
  · obtain ⟨hstep, -⟩ := retrim_keeps_of_calibrationCommandsComplete h (s := faultedToday) rfl rfl rfl
      (by decide +kernel) rfl rfl (by decide +kernel)
    exact absurd (hstep.symm.trans (faultedToday_ends_cal hlimit)) (by decide)

end Sys2Proof.Machine
end

section
/-!
SUPPORT. What an instruction of a string finds when it issues, and what follows its effect (R184): the state but for registers,
sequencers, trace, counters and pins stands as it stood, and the sequencer but for its wait.
-/
set_option Elab.async false
namespace Sys2Proof.Machine

/-! ### Operations that write registers, sequencers, trace, counters and pins only -/

/-- The state with the registers, sequencers, trace, counters and pins of another. -/
def State.behind (t s : State) : State :=
  { t with fields := s.fields, seqs := s.seqs, trace := s.trace, dbgState := s.dbgState, pins := s.pins }

/-- Nothing but those has changed. -/
def State.ShowsOnly (s t : State) : Prop := t.behind s = s

/-- What reads none of them has not changed. -/
theorem State.ShowsOnly.same {s t : State} (h : s.ShowsOnly t) {β : Type} (P : State → β)
    (hP : ∀ s u : State, P (s.behind u) = P s) : P t = P s := by
  rw [← hP t s, h]

theorem State.ShowsOnly.refl (s : State) : s.ShowsOnly s := rfl

theorem State.ShowsOnly.trans {s t u : State} (h : s.ShowsOnly t) (h' : t.ShowsOnly u) : s.ShowsOnly u :=
  (congrArg (State.behind · s) h').trans h

theorem State.each_showsOnly {α : Type} {f : State → α → State} (h : ∀ t x, State.ShowsOnly t (f t x)) (s : State)
    (xs : List α) : s.ShowsOnly (s.each xs f) :=
  s.each_inv s.ShowsOnly f (fun t x ht => ht.trans (h t x)) xs (.refl s)

section
variable (s t : State)

@[simp] theorem State.showsOnly_refl : s.ShowsOnly s := .refl s
@[simp] theorem State.showsOnly_fset (g : Fld) (v : Nat) : s.ShowsOnly (t.fset g v) ↔ s.ShowsOnly t := .rfl
@[simp] theorem State.showsOnly_raise (g : Fld) : s.ShowsOnly (t.raise g) ↔ s.ShowsOnly t := .rfl
@[simp] theorem State.showsOnly_bump (g : Fld) : s.ShowsOnly (t.bump g) ↔ s.ShowsOnly t := .rfl
@[simp] theorem State.showsOnly_fset64 (g h : Fld) (v : Nat) : s.ShowsOnly (t.fset64 g h v) ↔ s.ShowsOnly t := .rfl
@[simp] theorem State.showsOnly_setSeqr (x : Nat) (q : Seq) : s.ShowsOnly (t.setSeqr x q) ↔ s.ShowsOnly t := .rfl
@[simp] theorem State.showsOnly_trace (z : Trace) : s.ShowsOnly { t with trace := z } ↔ s.ShowsOnly t := .rfl
@[simp] theorem State.showsOnly_dbgState (z : Debug) : s.ShowsOnly { t with dbgState := z } ↔ s.ShowsOnly t := .rfl
@[simp] theorem State.showsOnly_pins (z : Pins) : s.ShowsOnly { t with pins := z } ↔ s.ShowsOnly t := .rfl

end

section
variable (s : State)

theorem State.enqueueTrace_showsOnly (e : TraceEntry) : s.ShowsOnly (s.enqueueTrace e) := by
  unfold State.enqueueTrace
  dsimp only
  repeat' split
  all_goals simp

theorem State.traceEvent_showsOnly (bit source kind : Nat) (data : List Nat) :
    s.ShowsOnly (s.traceEvent bit source kind data) := by
  unfold State.traceEvent
  split
  · exact s.enqueueTrace_showsOnly _
  · exact .refl s

theorem State.writeTrace_showsOnly (e : TraceEntry) : s.ShowsOnly (s.writeTrace e) := by
  unfold State.writeTrace
  extract_lets st h e' s1 s2 s3
  split
  · simp
  · split
    · exact .refl s
    · have h2 : s.ShowsOnly s2 := by
        unfold s2 s1
        simp
      have h3 : s.ShowsOnly s3 := h2
      split
      · split
        · exact (State.showsOnly_fset ..).2 h3
        · exact h3
      · exact h2

theorem State.traceTrigger_showsOnly (cond : Nat) : s.ShowsOnly (s.traceTrigger cond) := by
  unfold State.traceTrigger
  extract_lets st s1 pins s2 trace s3
  have h3 : s.ShowsOnly (s3.fset Reg.trcStatusState trcPost) :=
    (State.showsOnly_fset ..).2 ((State.showsOnly_trace s s2 _).2 ((State.showsOnly_pins s s1 _).2
      ((State.showsOnly_fset64 s s ..).2 (.refl s))))
  repeat' split
  · exact .refl s
  · exact h3.trans (State.writeTrace_showsOnly _ _)
  · exact s.writeTrace_showsOnly _
  · simp
  · exact .refl s

theorem State.breakHit_showsOnly (x k : Nat) : s.ShowsOnly (s.breakHit x k) := by
  unfold State.breakHit
  extract_lets u s1
  have h1 : s.ShowsOnly s1 := by
    unfold s1
    split
    · exact s.traceEvent_showsOnly _ _ _ _
    · exact .refl s
  split
  · exact h1.trans (s1.traceTrigger_showsOnly _)
  · exact h1

theorem State.seqWait_showsOnly (x : Nat) (w : Option (Nat × Nat × Nat)) : s.ShowsOnly (s.seqWait x w) := by
  unfold State.seqWait State.showWait
  dsimp only
  repeat' split
  all_goals simp

theorem State.haltSeq_showsOnly (x cause bp : Nat) : s.ShowsOnly (s.haltSeq x cause bp) := by
  unfold State.haltSeq
  refine State.ShowsOnly.trans ?_ (State.seqWait_showsOnly _ _ _)
  simp

theorem State.countOp_showsOnly (x i n : Nat) : s.ShowsOnly (s.countOp x i n) := by
  unfold State.countOp
  split <;> simp

theorem State.issued_showsOnly (x : Nat) (c : Touch) : s.ShowsOnly (s.issued x c) := by
  unfold State.issued
  extract_lets s1
  have h1 : s.ShowsOnly s1 :=
    (State.each_showsOnly (fun t k => t.breakHit_showsOnly x k) s _).trans (State.seqWait_showsOnly _ _ _)
  refine (h1.trans ?_).trans (State.countOp_showsOnly _ _ _ _)
  simp

theorem State.onward_showsOnly (x : Nat) (go : Seq → Seq) (u : State) : u.ShowsOnly (s.onward x go u) := by
  unfold State.onward
  extract_lets v
  have hv : u.ShowsOnly v := by
    unfold v
    split <;> simp
  split
  · exact hv.trans (v.haltSeq_showsOnly _ _ _)
  · exact hv

/-! ### The sequencers -/

theorem State.seq_congr {s t : State} (h : t.seqs = s.seqs) (x : Nat) : t.seq x = s.seq x := by
  rw [State.seq, State.seq, h]

@[simp] theorem State.breakHit_seqs (x k : Nat) : (s.breakHit x k).seqs = s.seqs := by
  simp [State.breakHit]

@[simp] theorem State.countOp_seqs (x i n : Nat) : (s.countOp x i n).seqs = s.seqs := by
  unfold State.countOp
  split <;> rfl

@[simp] theorem State.countOp_seq (x i n y : Nat) : (s.countOp x i n).seq y = s.seq y := State.seq_congr (s.countOp_seqs x i n) y

/-- A sequencer's wait is the only thing that a wait changes. -/
theorem State.seqWait_none_seq (x : Nat) : (s.seqWait x none).seq x = { s.seq x with wait := none } := by
  unfold State.seqWait
  dsimp only
  split
  · next h => rw [← Option.isNone_iff_eq_none.1 h]
  · rw [State.seq_congr (State.showWait_units ..).2.2.1, State.seq_setSeqr]

theorem State.seqWait_none_seq_ne {x y : Nat} (h : x ≠ y) : (s.seqWait x none).seq y = s.seq y := by
  unfold State.seqWait
  dsimp only
  split
  · rfl
  · rw [State.seq_congr (State.showWait_units ..).2.2.1, State.seq_setSeqr_ne _ _ h]

/-- What an instruction finds of its own sequencer. -/
def Seq.issued (q : Seq) : Seq := { q with wait := none, skipBp := false }

@[simp] theorem State.issued_seq (x : Nat) (c : Touch) : (s.issued x c).seq x = (s.seq x).issued := by
  have heach : (s.each (s.hits x c) (fun s k => s.breakHit x k)).seqs = s.seqs := by simp
  simp only [State.issued, Seq.issued, State.countOp_seq, State.seq_setSeqr, State.seqWait_none_seq, State.seq_congr heach]

theorem State.issued_seq_ne {x y : Nat} (c : Touch) (h : x ≠ y) : (s.issued x c).seq y = s.seq y := by
  have heach : (s.each (s.hits x c) (fun s k => s.breakHit x k)).seqs = s.seqs := by simp
  simp only [State.issued, State.countOp_seq, State.seq_setSeqr_ne _ _ h, State.seqWait_none_seq_ne _ h, State.seq_congr heach]

theorem State.issued_step (x y : Nat) (c : Touch) : ((s.issued x c).seq y).step = (s.seq y).step := by
  by_cases h : x = y
  · subst h
    rw [State.issued_seq]
    rfl
  · rw [State.issued_seq_ne s c h]

end

/-- An instruction that issues and does not stall has its effect, and the sequencer goes onward (R184). -/
theorem State.issue_onward {s : State} {x : Nat} {c : Touch} (h : s.issues x c) (go : Seq → Seq) (f : State → State) :
    s.issue x c none go f = s.onward x go (f (s.issued x c)) := by
  obtain ⟨hcan, hbp⟩ := h
  have heach : (s.each (s.hits x c) (fun s k => s.breakHit x k)).seqs = s.seqs := by simp
  unfold State.issue
  rw [if_neg (by simp [hcan])]
  extract_lets hs s1 id pos step q s2 s3
  rw [hbp]
  dsimp only
  have hseq : s1.seq x = { s.seq x with wait := none } := by
    rw [← State.seq_congr heach]
    exact State.seqWait_none_seq _ x
  have hid : id = (s.seq x).step := by unfold id; rw [hseq]
  have hpos : pos = (s.seq x).pos := by unfold pos; rw [hseq]
  have hstep : step = (s.seq x).stepping := by unfold step; rw [hseq]
  unfold State.onward s3
  rw [hid, hpos, hstep]
  rfl

/-- A string that issues runs a step that has not ended. -/
theorem State.issues.running {s : State} {x : Nat} {c : Touch} (h : s.issues x c) : (s.seq x).ended = false := by
  have hcan := h.1
  simp only [State.canIssue, Bool.and_eq_true, Bool.not_eq_true'] at hcan
  exact hcan.1.1.2

/-! ### What follows the effect -/

/-- What a halt changes of a sequencer is no concern of `P`. -/
def IgnoresHalt {β : Type} (P : Seq → β) : Prop :=
  ∀ (q : Seq) (halted stepping : Bool) (wait : Option (Nat × Nat × Nat × Nat)),
    P { q with halted := halted, stepping := stepping, wait := wait } = P q

/-- What the sequencer that is set has as it had, every sequencer has as it had. -/
theorem State.seq_setSeqr_keeps {β : Type} {P : Seq → β} (s : State) (x : Nat) {q : Seq} (h : P q = P (s.seq x)) (y : Nat) :
    P ((s.setSeqr x q).seq y) = P (s.seq y) := by
  by_cases hxy : x = y
  · subst hxy
    rw [State.seq_setSeqr, h]
  · rw [State.seq_setSeqr_ne _ _ hxy]

section
variable {β : Type} {P : Seq → β} (hP : IgnoresHalt P)
include hP

theorem State.seqWait_seq (s : State) (x : Nat) (w : Option (Nat × Nat × Nat)) (y : Nat) :
    P ((s.seqWait x w).seq y) = P (s.seq y) := by
  unfold State.seqWait
  dsimp only
  split
  · split
    · rfl
    · rw [State.seq_congr (State.showWait_units ..).2.2.1]
      exact State.seq_setSeqr_keeps s x (hP _ _ _ _) y
  · rw [State.seq_congr (State.showWait_units ..).2.2.1]
    exact State.seq_setSeqr_keeps s x (hP _ _ _ _) y

theorem State.haltSeq_seq (s : State) (x cause bp y : Nat) : P ((s.haltSeq x cause bp).seq y) = P (s.seq y) := by
  unfold State.haltSeq
  rw [State.seqWait_seq hP]
  exact State.seq_setSeqr_keeps s x (hP _ _ _ _) y

/-- An effect that leaves the string at the instruction: the code position goes on. -/
theorem State.onward_seq {s u : State} {x : Nat} (go : Seq → Seq) (hstep : (u.seq x).step = (s.seq x).step)
    (hended : (u.seq x).ended = false) (hpos : (u.seq x).pos = (s.seq x).pos) :
    P ((s.onward x go u).seq x) = P (go (u.seq x)) := by
  unfold State.onward
  extract_lets v
  have hv : v.seq x = go (u.seq x) := by
    unfold v
    rw [if_pos ⟨hstep, by simp [hended], hpos⟩, State.seq_setSeqr]
  rw [← hv]
  split
  · exact State.haltSeq_seq hP v x 2 0 x
  · rfl

/-- What a change of the code position leaves as it is. -/
theorem State.onward_seq_keeps {go : Seq → Seq} (hgo : ∀ q, P (go q) = P q) (s u : State) {x : Nat} :
    P ((s.onward x go u).seq x) = P (u.seq x) := by
  unfold State.onward
  extract_lets v
  have hv : P (v.seq x) = P (u.seq x) := by
    unfold v
    split
    · rw [State.seq_setSeqr, hgo]
    · rfl
  rw [← hv]
  split
  · exact State.haltSeq_seq hP v x 2 0 x
  · rfl

theorem State.onward_seq_ended {s u : State} {x : Nat} (go : Seq → Seq) (hended : (u.seq x).ended = true) :
    P ((s.onward x go u).seq x) = P (u.seq x) := by
  unfold State.onward
  extract_lets v
  have hv : v = u := if_neg (by simp [hended])
  rw [← hv]
  split
  · exact State.haltSeq_seq hP v x 2 0 x
  · rfl

theorem State.onward_seq_ne {x y : Nat} (s u : State) (go : Seq → Seq) (h : x ≠ y) :
    P ((s.onward x go u).seq y) = P (u.seq y) := by
  unfold State.onward
  extract_lets v
  have hv : v.seq y = u.seq y := by
    unfold v
    split
    · exact State.seq_setSeqr_ne _ _ h
    · rfl
  rw [← hv]
  split
  · exact State.haltSeq_seq hP v x 2 0 y
  · rfl

end

/-! ### An effect and what follows it -/

section
variable {β : Type} {s : State} {x : Nat} {c : Touch} (h : s.issues x c) {f : State → State}
include h

/-- What neither the issue nor the code position shows is as the effect leaves it. -/
theorem State.issue_same (P : State → β) (hP : ∀ s u : State, P (s.behind u) = P s) (go : Seq → Seq) :
    P (s.issue x c none go f) = P (f (s.issued x c)) := by
  rw [State.issue_onward h]
  exact (s.onward_showsOnly x go _).same P hP

/-- An effect on the instruction's own sequencer that leaves it at the instruction. -/
theorem State.issue_seq {P : Seq → β} (hP : IgnoresHalt P) {go : Seq → Seq} (e : Seq → Seq)
    (he : ∀ q, (e q).step = q.step ∧ (e q).ended = q.ended ∧ (e q).pos = q.pos)
    (hq : (f (s.issued x c)).seq x = e ((s.issued x c).seq x)) :
    P ((s.issue x c none go f).seq x) = P (go (e (s.seq x).issued)) := by
  obtain ⟨hstep, hended, hpos⟩ := he (s.seq x).issued
  rw [State.issued_seq] at hq
  rw [State.issue_onward h, State.onward_seq hP go (by rw [hq, hstep]; rfl) (by rw [hq, hended]; exact h.running)
    (by rw [hq, hpos]; rfl), hq]

/-- An effect that leaves the sequencers alone. -/
theorem State.issue_seq_same {P : Seq → β} (hP : IgnoresHalt P) {go : Seq → Seq}
    (hseqs : (f (s.issued x c)).seqs = (s.issued x c).seqs) :
    P ((s.issue x c none go f).seq x) = P (go (s.seq x).issued) :=
  State.issue_seq h hP id (fun _ => ⟨rfl, rfl, rfl⟩) (State.seq_congr hseqs x)

/-- An effect that sets its own sequencer. -/
theorem State.issue_seq_set {P : Seq → β} (hP : IgnoresHalt P) {go : Seq → Seq} (e : Seq → Seq)
    (he : ∀ q, (e q).step = q.step ∧ (e q).ended = q.ended ∧ (e q).pos = q.pos) :
    P ((s.issue x c none go (fun u => u.setSeqr x (e (u.seq x)))).seq x) = P (go (e (s.seq x).issued)) :=
  State.issue_seq h hP e he (State.seq_setSeqr ..)

/-- The code position goes on after an effect that leaves the sequencers alone. -/
theorem State.issue_pos (hseqs : (f (s.issued x c)).seqs = (s.issued x c).seqs) :
    ((s.issue x c none Seq.advance f).seq x).pos = (s.seq x).advance.pos :=
  State.issue_seq_same h (P := Seq.pos) (fun _ _ _ _ => rfl) hseqs

end

end Sys2Proof.Machine
end

section
/-!
SUPPORT. What reads and writes through the block code (R270 to R275, R521) make of the state: of a clean range the bytes as they
stand, and no sequencer or step is touched; and of what the result of a read depends.
-/
set_option Elab.async false
namespace Sys2Proof.Machine

/-! ### Sequencers and steps -/

@[simp] theorem State.steps_ite (c : Prop) [Decidable c] (s t : State) :
    (if c then s else t).steps = if c then s.steps else t.steps := apply_ite State.steps c s t

@[simp] theorem State.each_steps {α : Type} {f : State → α → State} (h : ∀ s x, (f s x).steps = s.steps)
    (s : State) (xs : List α) : (s.each xs f).steps = s.steps := s.each_keeps State.steps f h xs

/-- What the reads of memory depend on, in an else empty state. -/
def State.stored (s : State) : State :=
  { mem := s.mem, stale := s.stale, syndromes := s.syndromes, hardBlocks := s.hardBlocks, freeCount := s.freeCount,
    volz := s.volz, steps := s.steps, kv := s.kv, nv := { units := s.nv.units, banks := s.nv.banks } }

/-- What looks at nothing but stored data is the same where the stored data are. -/
theorem State.congr_of_stored {β : Type} (P : State → β) (hP : ∀ u : State, P u.stored = P u) {s t : State}
    (h : t.stored = s.stored) : P t = P s := by
  rw [← hP t, h, hP]

theorem State.ShowsOnly.stored {s t : State} (h : s.ShowsOnly t) : t.stored = s.stored := h.same State.stored (fun _ _ => rfl)

section
variable (s : State)


@[simp] theorem State.stored_ite (c : Prop) [Decidable c] (t : State) :
    (if c then s else t).stored = if c then s.stored else t.stored := apply_ite State.stored c s t

@[simp] theorem State.fset_stored (f : Fld) (v : Nat) : (s.fset f v).stored = s.stored := rfl
@[simp] theorem State.raise_stored (f : Fld) : (s.raise f).stored = s.stored := rfl

@[simp] theorem State.each_stored {α : Type} {f : State → α → State} (h : ∀ s x, (f s x).stored = s.stored)
    (xs : List α) : (s.each xs f).stored = s.stored := s.each_keeps State.stored f h xs

@[simp] theorem State.traceEvent_stored (bit source kind : Nat) (data : List Nat) :
    (s.traceEvent bit source kind data).stored = s.stored := (s.traceEvent_showsOnly bit source kind data).stored

@[simp] theorem State.traceTrigger_stored (cond : Nat) : (s.traceTrigger cond).stored = s.stored :=
  (s.traceTrigger_showsOnly cond).stored

@[simp] theorem State.append_stored (r : LogRec) : (s.append r).stored = s.stored := by
  simp only [State.append, State.stored_ite, State.traceTrigger_stored, State.traceEvent_stored, State.fset_stored, ite_self]
  rfl

@[simp] theorem State.pins_stored (z : Pins) : ({ s with pins := z } : State).stored = s.stored := rfl

@[simp] theorem State.updateHealth_stored : s.updateHealth.stored = s.stored := by
  unfold State.updateHealth
  dsimp only
  rw [State.stored_ite, State.pins_stored, ite_self, State.stored_ite, State.append_stored]
  simp only [State.fset_stored, ite_self]

@[simp] theorem State.writeFailCount_stored (v : Nat) : (s.writeFailCount v).stored = s.stored := by
  unfold State.writeFailCount State.showFailCount Nv.failFw
  repeat' split
  all_goals rfl

@[simp] theorem State.quiesceAllForPaddock_stored : s.quiesceAllForPaddock.stored = s.stored := by
  unfold State.quiesceAllForPaddock
  refine s.each_stored (fun s p => ?_) _
  split <;> rfl

@[simp] theorem State.closeAxis_stored (a : Nat) : (s.closeAxis a).stored = s.stored := by
  unfold State.closeAxis
  refine s.each_stored (fun s p => ?_) _
  simp only [State.fset_stored, State.stored_ite, ite_self]

@[simp] theorem State.factoryPins_stored : s.factoryPins.stored = s.stored := by
  unfold State.factoryPins
  split <;> rfl

@[simp] theorem State.railsOff_stored : s.railsOff.stored = s.stored :=
  s.railsOff_same State.stored (fun _ _ => rfl) (fun _ _ => rfl)

@[simp] theorem State.traceRegs_stored : s.traceRegs.stored = s.stored := by
  simp only [State.traceRegs, State.fset_stored]

@[simp] theorem State.keepPort_stored (stage : Nat) : (s.keepPort stage).stored = s.stored := rfl

@[simp] theorem State.enterPaddock_stored (reason code : Nat) : (s.enterPaddock reason code).stored = s.stored := by
  unfold State.enterPaddock
  split
  · rfl
  · simp

@[simp] theorem State.recordAs_stored (hubUe : Bool) (sev cls code source : Nat) (ctx : List Nat) :
    (s.recordAs hubUe sev cls code source ctx).stored = s.stored := by
  unfold State.recordAs
  dsimp only
  rw [State.updateHealth_stored]
  split
  · rw [State.enterPaddock_stored, State.append_stored]
  · exact s.append_stored _

@[simp] theorem State.record_stored (sev cls code source : Nat) (ctx : List Nat) :
    (s.record sev cls code source ctx).stored = s.stored := s.recordAs_stored false sev cls code source ctx

@[simp] theorem State.recordSoft_stored (source a mem syn : Nat) : (s.recordSoft source a mem syn).stored = s.stored := by
  unfold State.recordSoft
  split
  · exact State.record_stored _ _ _ _ _ _
  · rfl

@[simp] theorem State.hardBlock_stored (a : Nat) : (s.hardBlock a).stored = s.stored := by
  unfold State.hardBlock
  dsimp only
  split <;> rfl

@[simp] theorem State.retiredAccess_stored (source a n : Nat) : (s.retiredAccess source a n).stored = s.stored :=
  State.recordAs_stored _ _ _ _ _ _ _

end

/-! ### Reads of a clean range -/

section
variable {s : State} {a n : Nat} (hbad : s.badBlocks a n = []) (hret : s.anyRetired a n = false)
include hbad hret

theorem State.readFor_clean (step : Option Nat) (source : Nat) (hmix : s.mixedLines a n = []) :
    s.readFor step source a n = (s.codedBytes a n, false, s) := by
  cases step <;> simp [State.readFor, State.hasUe, hbad, hret, hmix, State.each, State.seeLines]

theorem State.readThrough_clean (source : Nat) (hmix : s.mixedLines a n = []) :
    s.readThrough source a n = (s.codedBytes a n, false, s) := State.readFor_clean hbad hret _ source hmix

end

/-- Several clean ranges. -/
theorem State.readAll_clean {s : State} {rs : List (Nat × Nat)} (hclean : s.cleanAt rs) (source : Nat) :
    s.readAll source rs = (rs.map (fun r => s.codedBytes r.1 r.2), false, s) := by
  induction rs with
  | nil => rfl
  | cons r rs ih =>
    obtain ⟨⟨hbad, hret, hmix⟩, hrest⟩ := List.forall_mem_cons.1 hclean
    simp [State.readAll, State.readThrough_clean hbad hret source hmix, ih hrest]

/-! ### Writes to a clean range -/

theorem State.writeBytes_mem_congr {s t : State} (h : t.mem = s.mem) (a : Nat) (bs : List Nat) :
    (t.writeBytes a bs).mem = (s.writeBytes a bs).mem := by
  induction bs generalizing a s t with
  | nil => exact h
  | cons b bs ih => exact ih (by simp [State.writeByte, h]) (a + 1)

theorem State.writeThrough_clean {s : State} {a : Nat} {bs : List Nat} (hbad : s.badBlocks a bs.length = [])
    (hret : s.anyRetired a bs.length = false) (source : Nat) :
    s.writeThrough source a bs = (s.settleLines a bs.length).writeBytes a bs := by
  have hret' : (s.settleLines a bs.length).anyRetired a bs.length = false := hret
  simp [State.writeThrough, hbad, State.each, hret']

theorem State.writeThrough_clean_mem {s : State} {a : Nat} {bs : List Nat} (hbad : s.badBlocks a bs.length = [])
    (hret : s.anyRetired a bs.length = false) (source : Nat) :
    (s.writeThrough source a bs).mem = (s.writeBytes a bs).mem := by
  rw [State.writeThrough_clean hbad hret]
  exact State.writeBytes_mem_congr (s := s) (t := s.settleLines a bs.length) rfl a bs

/-! ### Sequencers and steps -/

section
variable (s : State)

theorem State.steps_of_stored {s t : State} (h : t.stored = s.stored) : t.steps = s.steps :=
  State.congr_of_stored State.steps (fun _ => rfl) h

@[simp] theorem State.recordAs_steps (hubUe : Bool) (sev cls code source : Nat) (ctx : List Nat) :
    (s.recordAs hubUe sev cls code source ctx).steps = s.steps := State.steps_of_stored (s.recordAs_stored ..)

@[simp] theorem State.record_steps (sev cls code source : Nat) (ctx : List Nat) :
    (s.record sev cls code source ctx).steps = s.steps := State.steps_of_stored (s.record_stored ..)

@[simp] theorem State.recordSoft_runs (source a mem syn : Nat) : (s.recordSoft source a mem syn).seqs = s.seqs ∧
    (s.recordSoft source a mem syn).steps = s.steps := by
  unfold State.recordSoft
  split <;> simp [State.softCount]

@[simp] theorem State.hardBlock_runs (a : Nat) :
    (s.hardBlock a).seqs = s.seqs ∧ (s.hardBlock a).steps = s.steps := by
  unfold State.hardBlock
  dsimp only
  split <;> simp [State.hardEvent]

@[simp] theorem State.readBlock_runs (source : Nat) (repair : Bool) (blk : Nat) :
    (s.readBlock source repair blk).seqs = s.seqs ∧ (s.readBlock source repair blk).steps = s.steps := by
  unfold State.readBlock
  dsimp only
  repeat' split
  all_goals simp

@[simp] theorem State.retiredAccess_runs (source a n : Nat) : (s.retiredAccess source a n).seqs = s.seqs ∧
    (s.retiredAccess source a n).steps = s.steps := by
  simp [State.retiredAccess]

@[simp] theorem State.seeLines_runs (y a : Nat) (xs : List StaleLine) (b : List Nat) :
    (s.seeLines y a xs b).2.seqs = s.seqs ∧ (s.seeLines y a xs b).2.steps = s.steps := by
  fun_induction State.seeLines with
  | case1 => simp
  | case2 s b x xs _ ih => exact ih
  | case3 s b x xs _ _ d ih => exact ih
  | case4 s b x xs _ _ ih => exact ih

@[simp] theorem State.readFor_runs (step : Option Nat) (source a n : Nat) :
    (s.readFor step source a n).2.2.seqs = s.seqs ∧ (s.readFor step source a n).2.2.steps = s.steps := by
  unfold State.readFor
  dsimp only
  split <;> simp

@[simp] theorem State.readThrough_runs (source a n : Nat) :
    (s.readThrough source a n).2.2.seqs = s.seqs ∧ (s.readThrough source a n).2.2.steps = s.steps :=
  s.readFor_runs _ source a n

@[simp] theorem State.writeBytes_runs (a : Nat) (bs : List Nat) :
    (s.writeBytes a bs).seqs = s.seqs ∧ (s.writeBytes a bs).steps = s.steps := by
  fun_induction State.writeBytes <;> simp_all

@[simp] theorem State.mergeBlock_runs (source a n blk : Nat) : (s.mergeBlock source a n blk).seqs = s.seqs ∧
    (s.mergeBlock source a n blk).steps = s.steps := by
  unfold State.mergeBlock
  repeat' split
  all_goals simp

@[simp] theorem State.writeLive_runs (a : Nat) (bs : List Nat) :
    (s.writeLive a bs).seqs = s.seqs ∧ (s.writeLive a bs).steps = s.steps := by
  fun_induction State.writeLive <;> simp_all

@[simp] theorem State.writeThrough_runs (source a : Nat) (b : List Nat) :
    (s.writeThrough source a b).seqs = s.seqs ∧ (s.writeThrough source a b).steps = s.steps := by
  simp [State.writeThrough, State.settleLines]

end

/-! ### Of what the result of a read depends -/

section
variable {s t : State} (h : t.stored = s.stored)
include h

theorem State.codedBytes_congr (a n : Nat) : t.codedBytes a n = s.codedBytes a n :=
  State.congr_of_stored (fun u => u.codedBytes a n) (fun _ => rfl) h

theorem State.badBlocks_congr (a n : Nat) : t.badBlocks a n = s.badBlocks a n :=
  State.congr_of_stored (fun u => u.badBlocks a n) (fun _ => rfl) h

theorem State.anyRetired_congr (a n : Nat) : t.anyRetired a n = s.anyRetired a n :=
  State.congr_of_stored (fun u => u.anyRetired a n) (fun _ => rfl) h

theorem State.hasUe_congr (a n : Nat) : t.hasUe a n = s.hasUe a n :=
  State.congr_of_stored (fun u => u.hasUe a n) (fun _ => rfl) h

theorem State.mixedLines_congr (a n : Nat) : t.mixedLines a n = s.mixedLines a n :=
  State.congr_of_stored (fun u => u.mixedLines a n) (fun _ => rfl) h

theorem State.reaches_congr (p a n : Nat) : t.reaches p a n = s.reaches p a n :=
  State.congr_of_stored (fun u => u.reaches p a n) (fun _ => rfl) h

theorem State.firstBad_congr (p : Nat) (rs : List (Nat × Nat)) : t.firstBad p rs = s.firstBad p rs :=
  State.congr_of_stored (fun u => u.firstBad p rs) (fun _ => rfl) h

theorem State.badIndex_congr (p ew : Nat) (as : List (Option Nat)) : t.badIndex p ew as = s.badIndex p ew as :=
  State.congr_of_stored (fun u => u.badIndex p ew as) (fun _ => rfl) h

theorem State.cleanAt_congr {rs : List (Nat × Nat)} (hclean : s.cleanAt rs) : t.cleanAt rs := by
  intro r hr
  rw [State.badBlocks_congr h, State.anyRetired_congr h, State.mixedLines_congr h]
  exact hclean r hr

end

end Sys2Proof.Machine
end

section
/-!
PROOFS. SUM, ROPE, GATHER, SCATTER and the MX conversions complete (O8): an effect that writes memory alone lets the string go on;
reads of clean operands answer their bytes, and the result is as long as the range that is clean.
-/
set_option Elab.async false
namespace Sys2Proof.Machine

/-! ### Lengths -/

theorem leBytes_length (n v : Nat) : (leBytes n v).length = n := by
  induction n generalizing v with
  | zero => rfl
  | succ n ih => simp [leBytes, ih]

@[simp] theorem elems_length (half : Bool) (n : Nat) (b : List Nat) : (elems half n b).length = n := by simp [elems]

@[simp] theorem storeElems_length (half : Bool) (ws : List Nat) : (storeElems half ws).length = elemBytes half * ws.length := by
  induction ws with
  | nil => rfl
  | cons w ws ih =>
    rw [storeElems, List.map_cons, List.flatten_cons, List.length_append, ← storeElems, ih, List.length_cons, Nat.mul_succ,
      Nat.add_comm, elemBytes]
    split <;> rw [leBytes_length]

@[simp] theorem fromMx_length (f n : Nat) (b : List Nat) : (fromMx f n b).length = n := by simp [fromMx]

/-- Pairs rotate, and an odd last element stays. -/
@[simp] theorem vuRope_length (as bs : List Nat) : (vuRope as bs).length = as.length := by
  have hpairs (n : Nat) (f : Nat → Nat × Nat × Nat) : (((List.range n).map (fun k =>
      ropePair (f k).1 (f k).2.1 (f k).2.2)).flatten).length = 2 * n := by
    simp [List.length_flatten, Function.comp_def, ropePair, Nat.mul_comm]
  unfold vuRope
  rw [List.length_append, hpairs _ (fun k => (as.getD (2 * k) 0, as.getD (2 * k + 1) 0, bs.getD k 0))]
  split <;> simp <;> omega

theorem padTo_length (n : Nat) (b : List Nat) : (padTo n b).length = n := by
  simp [padTo, slice]

/-- Four bytes of codes for each bit of an element's width, for every block of 32. -/
theorem mxTensor_length (f : Nat) (raise : Nat → Nat) (vs : List Num) :
    ((mxTensor f raise vs).1).length = mxSize f vs.length := by
  have hblocks : (blocks32 vs).length = ceilDiv vs.length 32 := by simp [blocks32]
  simp [mxTensor, padTo_length, mxSize, mxElemBytes, List.length_flatten, Function.comp_def, packBlock, leBytes_length, hblocks]

/-! ### An effect that writes memory alone -/

section
variable {s : State} {x : Nat}

theorem State.issued_stored (x : Nat) (c : Touch) : (s.issued x c).stored = s.stored := (s.issued_showsOnly x c).stored

/-- An effect that leaves the sequencer alone lets the string go on, with memory as the effect leaves it. -/
theorem State.issue_advances {c : Touch} (h : s.issues x c) {f : State → State}
    (hseq : (f (s.issued x c)).seq x = (s.issued x c).seq x) :
    ((s.issue x c none Seq.advance f).seq x).pos = (s.seq x).advance.pos ∧
      (s.issue x c none Seq.advance f).mem = (f (s.issued x c)).mem :=
  ⟨State.issue_seq h (P := Seq.pos) (fun _ _ _ _ => rfl) id (fun _ => ⟨rfl, rfl, rfl⟩) hseq,
    State.issue_same h State.mem (fun _ _ => rfl) _⟩

/-- The result of a vector operation on clean operands within reach. -/
theorem State.vuRun_writes {t : Nat} {y : Step} {reads : List (Nat × Nat)} {dst : Nat × Nat} {f : List (List Nat) → List Nat}
    (hreach : s.firstBad y.part (reads ++ [dst]) = none) (hclean : s.cleanAt (reads ++ [dst])) (after : State → State) :
    s.vuRun x t y reads dst f after =
      after (s.writeThrough (unitTeam t) dst.1 (f (reads.map (fun r => s.codedBytes r.1 r.2)))) := by
  have hreads : s.cleanAt reads := fun r hr => hclean r (List.mem_append_left _ hr)
  simp [State.vuRun, hreach, State.readAll_clean hreads]

/-- Bytes written to a clean range of their length. -/
theorem State.writeThrough_at_mem {a n : Nat} {bs : List Nat} (hclean : s.cleanAt [(a, n)]) (hlen : bs.length = n)
    (source : Nat) : (s.writeThrough source a bs).mem = (s.writeBytes a bs).mem := by
  obtain ⟨hbad, hret, -⟩ := hclean (a, n) (List.mem_singleton_self _)
  subst hlen
  exact State.writeThrough_clean_mem hbad hret source

/-- A vector instruction issues for a team of the string, its operands within reach and clean. -/
structure State.VuReady (s : State) (x team : Nat) (y : Step) (c : Touch) (rs : List (Nat × Nat)) : Prop where
  issues : s.issues x c
  stall : s.queueStall (24 * x + team % 24) = none
  reach : s.firstBad y.part rs = none
  clean : s.cleanAt rs

section
variable {team : Nat} {y : Step} {c : Touch} {rs : List (Nat × Nat)} (h : s.VuReady x team y c rs)
include h

/-- The instruction finds its operands as they were. -/
theorem State.VuReady.issued_reach : (s.issued x c).firstBad y.part rs = none :=
  (State.firstBad_congr (s.issued_stored x c) y.part rs).trans h.reach

theorem State.VuReady.issued_clean : (s.issued x c).cleanAt rs := State.cleanAt_congr (s.issued_stored x c) h.clean

/-- An effect that comes to a write at a clean range, but for what it counts and shows. -/
theorem State.VuReady.advances {f : State → State} {a n source : Nat} {bs : List Nat} (hrange : (a, n) ∈ rs)
    (hlen : bs.length = n) (hseqs : (f (s.issued x c)).seqs = ((s.issued x c).writeThrough source a bs).seqs)
    (hmem : (f (s.issued x c)).mem = ((s.issued x c).writeThrough source a bs).mem) :
    ((s.issue x c (s.queueStall (24 * x + team % 24)) Seq.advance f).seq x).pos = (s.seq x).advance.pos ∧
      (s.issue x c (s.queueStall (24 * x + team % 24)) Seq.advance f).mem = (s.writeBytes a bs).mem := by
  rw [h.stall]
  obtain ⟨hpos, hafter⟩ := State.issue_advances h.issues (f := f)
    (State.seq_congr (hseqs.trans (State.writeThrough_runs ..).1) x)
  have hwrite : ((s.issued x c).writeThrough source a bs).mem = ((s.issued x c).writeBytes a bs).mem :=
    State.writeThrough_at_mem (n := n) (fun r hr => h.issued_clean r (by rwa [List.mem_singleton.1 hr])) hlen source
  have hissued : (s.issued x c).mem = s.mem := (s.issued_showsOnly x c).same State.mem (fun _ _ => rfl)
  exact ⟨hpos, hafter.trans (hmem.trans (hwrite.trans (State.writeBytes_mem_congr hissued a bs)))⟩

end

/-- A vector instruction that issues on clean operands within reach writes its result and nothing else (R181). -/
theorem State.vuIssue_writes {team : Nat} {y : Step} {reads : List (Nat × Nat)} {dst : Nat × Nat}
    {f : List (List Nat) → List Nat} (h : s.VuReady x team y ⟨0x30, reads, [dst]⟩ (reads ++ [dst]))
    (hlen : (f (reads.map (fun r => s.codedBytes r.1 r.2))).length = dst.2) (i n : Nat) :
    ((s.vuIssue x team y reads dst f (fun u => u.countOp x i n)).seq x).pos = (s.seq x).advance.pos ∧
      (s.vuIssue x team y reads dst f (fun u => u.countOp x i n)).mem =
        (s.writeBytes dst.1 (f (reads.map (fun r => s.codedBytes r.1 r.2)))).mem := by
  have hrun := State.vuRun_writes (x := x) (t := 24 * x + team % 24) (f := f) h.issued_reach h.issued_clean
    (fun u => u.countOp x i n)
  simp only [State.codedBytes_congr (s.issued_stored x _)] at hrun
  exact h.advances (f := fun u => u.vuRun x (24 * x + team % 24) y reads dst f (fun u => u.countOp x i n))
    (source := unitTeam (24 * x + team % 24)) (by simp) hlen (by rw [hrun, State.countOp_seqs])
    (by rw [hrun, (State.countOp_keeps ..).2])

end

/-! ### Writes element by element -/

/-- Bytes that are written change neither what is stored beside them nor what of it is bad. -/
theorem State.writeBytes_same {β : Type} (P : State → β)
    (hP : ∀ (s : State) (m : List Host.Cell), P { s with mem := m } = P s)
    (s : State) (a : Nat) (bs : List Nat) : P (s.writeBytes a bs) = P s := by
  induction bs generalizing s a with
  | nil => rfl
  | cons b bs ih => rw [State.writeBytes, ih, State.writeByte, hP]

/-- Elements written one by one to clean places reach memory as they are. -/
theorem State.each_writeThrough_mem {half : Bool} {s t : State} (hmem : t.mem = s.mem) {es : List (Option Nat × Nat)}
    (hclean : ∀ e ∈ es, t.badBlocks (e.1.getD 0) (elemBytes half) = [] ∧ t.anyRetired (e.1.getD 0) (elemBytes half) = false)
    (source : Nat) : (t.each es (fun u e => u.writeThrough source (e.1.getD 0) (storeElems half [e.2]))).mem =
      (s.each es (fun u e => u.writeBytes (e.1.getD 0) (storeElems half [e.2]))).mem := by
  induction es generalizing s t with
  | nil => exact hmem
  | cons e es ih =>
    obtain ⟨⟨hbad, hret⟩, hrest⟩ := List.forall_mem_cons.1 hclean
    have hlen : (storeElems half [e.2]).length = elemBytes half := by simp
    rw [← hlen] at hbad hret
    have hwrite := State.writeThrough_clean hbad hret source
    refine ih ?_ ?_
    · rw [State.writeThrough_clean_mem hbad hret, State.writeBytes_mem_congr hmem]
    · intro z hz
      obtain ⟨hb, hr⟩ := hrest z hz
      dsimp only
      rw [hwrite]
      exact ⟨(State.writeBytes_same (fun u => u.badBlocks (z.1.getD 0) (elemBytes half)) (fun _ _ => rfl) _ _ _).trans hb,
        (State.writeBytes_same (fun u => u.anyRetired (z.1.getD 0) (elemBytes half)) (fun _ _ => rfl) _ _ _).trans hr⟩

/-! ### SUM, ROPE and FROM_MX -/

section
variable {x team count a b d fmt : Nat} {half : Bool} {y : Step} {s : State} (hstep : s.seqStep x = some y)
include hstep

theorem execVuSum_writes (h : s.VuReady x team y
      ⟨0x30, [((s.seq x).a a, elemBytes half * count)], [((s.seq x).a d, elemBytes half)]⟩
      [((s.seq x).a a, elemBytes half * count), ((s.seq x).a d, elemBytes half)]) :
    Completes (exec (.vuSum x team half a d count) s) (fun t => (t.seq x).pos = (s.seq x).advance.pos ∧
      t.mem = (s.writeBytes ((s.seq x).a d) (storeElems half [vuSum (s.elemsAt half ((s.seq x).a a) count)])).mem) := by
  show Completes (execVuSum x team half a d count s) _
  unfold execVuSum
  rw [hstep]
  exact (completes_next ..).2 (State.vuIssue_writes h (by simp) _ _)

theorem execVuRope_writes (h : s.VuReady x team y
      ⟨0x30, [((s.seq x).a a, elemBytes half * count), ((s.seq x).a b, elemBytes half * (count / 2))],
        [((s.seq x).a d, elemBytes half * count)]⟩
      [((s.seq x).a a, elemBytes half * count), ((s.seq x).a b, elemBytes half * (count / 2)),
        ((s.seq x).a d, elemBytes half * count)]) :
    Completes (exec (.vuRope x team half a b d count) s) (fun t => (t.seq x).pos = (s.seq x).advance.pos ∧
      t.mem = (s.writeBytes ((s.seq x).a d) (storeElems half (vuRope (s.elemsAt half ((s.seq x).a a) count)
        (s.elemsAt half ((s.seq x).a b) (count / 2))))).mem) := by
  show Completes (execVuRope x team half a b d count s) _
  unfold execVuRope
  rw [hstep]
  exact (completes_next ..).2 (State.vuIssue_writes h (by simp) _ _)

theorem execVuFromMx_writes (h : s.VuReady x team y
      ⟨0x30, [((s.seq x).a a, mxSize (fmt % 6) count)], [((s.seq x).a d, elemBytes half * count)]⟩
      [((s.seq x).a a, mxSize (fmt % 6) count), ((s.seq x).a d, elemBytes half * count)]) :
    Completes (exec (.vuFromMx x team half fmt a d count) s) (fun t => (t.seq x).pos = (s.seq x).advance.pos ∧
      t.mem = (s.writeBytes ((s.seq x).a d) (storeElems half (fromMx (fmt % 6) count
        (s.codedBytes ((s.seq x).a a) (mxSize (fmt % 6) count))))).mem) := by
  show Completes (execVuFromMx x team half fmt a d count s) _
  unfold execVuFromMx
  rw [hstep]
  exact (completes_next ..).2 (State.vuIssue_writes h (by simp) _ _)

/-! ### TO_MX -/

theorem execVuToMx_writes (h : s.VuReady x team y
      ⟨0x30, [((s.seq x).a a, elemBytes half * count)], [((s.seq x).a d, mxSize (fmt % 6) count)]⟩
      [((s.seq x).a a, elemBytes half * count), ((s.seq x).a d, mxSize (fmt % 6) count)]) :
    Completes (exec (.vuToMx x team half fmt a d count) s) (fun t => (t.seq x).pos = (s.seq x).advance.pos ∧
      t.mem = (s.writeBytes ((s.seq x).a d)
        (mxTensor (fmt % 6) (fun _ => 0) ((s.elemsAt half ((s.seq x).a a) count).map f32ForMx)).1).mem) := by
  show Completes (execVuToMx x team half fmt a d count s) _
  unfold execVuToMx
  rw [hstep]
  refine (completes_next ..).2 ?_
  obtain ⟨hbad, hret, hmix⟩ := h.issued_clean _ (List.mem_cons_self ..)
  have hread := State.readThrough_clean hbad hret (unitTeam (24 * x + team % 24)) hmix
  rw [State.codedBytes_congr (s.issued_stored x _)] at hread
  refine h.advances (source := unitTeam (24 * x + team % 24)) (List.mem_cons_of_mem _ (List.mem_cons_self ..))
    (by simp [mxTensor_length, State.elemsAt]) ?_ ?_
  · dsimp only
    rw [h.issued_reach]
    simp [hread, State.elemsAt, State.bumpTeam]
  · dsimp only
    rw [h.issued_reach]
    simp [hread, State.elemsAt]

end

/-! ### GATHER and SCATTER -/

section
variable {s : State} {x t a b d count : Nat} {half : Bool} {y : Step} {js : List (Option Nat)}

theorem State.gather_writes (hreach : s.firstBad y.part [(b, 4 * count), (d, elemBytes half * count)] = none)
    (hclean : s.cleanAt [(b, 4 * count)]) (hjs : js = indexAddrs a (elemBytes half) count (s.codedBytes b (4 * count)))
    (hindex : s.badIndex y.part (elemBytes half) js = none)
    (helems : s.cleanAt (js.map (fun o => (o.getD 0, elemBytes half)))) :
    s.gather x t y half a b d count = (s.writeThrough (unitTeam t) d (storeElems half (elems half count
      (js.map (fun o => s.codedBytes (o.getD 0) (elemBytes half))).flatten))).countOp x (vuCount half) count := by
  obtain ⟨hbad, hret, hmix⟩ := hclean _ (List.mem_singleton_self _)
  unfold State.gather
  dsimp only
  rw [hreach]
  dsimp only
  rw [State.readThrough_clean hbad hret _ hmix, ← hjs]
  dsimp only
  rw [hindex, State.readAll_clean helems, List.map_map]
  rfl

/-- Each element goes to the place that its index selects, in order: of two at one place the later one stays. -/
theorem State.scatter_writes (hreach : s.firstBad y.part [(a, elemBytes half * count), (b, 4 * count)] = none)
    (hclean : s.cleanAt [(a, elemBytes half * count), (b, 4 * count)])
    (hjs : js = indexAddrs d (elemBytes half) count (s.codedBytes b (4 * count)))
    (hindex : s.badIndex y.part (elemBytes half) js = none) :
    s.scatter x t y half a b d count = (s.each (js.zip (s.elemsAt half a count)) (fun u e =>
      u.writeThrough (unitTeam t) (e.1.getD 0) (storeElems half [e.2]))).countOp x (vuCount half) count := by
  unfold State.scatter
  dsimp only
  rw [hreach]
  dsimp only
  rw [State.readAll_clean hclean]
  simp only [List.map_cons, List.map_nil, List.getD_cons_zero, List.getD_cons_succ]
  rw [← hjs, hindex]
  rfl

end

section
variable {x team count a b d : Nat} {half : Bool} {y : Step} {s : State} (hstep : s.seqStep x = some y)
  {js : List (Option Nat)} (hindex : s.badIndex y.part (elemBytes half) js = none)
  (helems : s.cleanAt (js.map (fun o => (o.getD 0, elemBytes half))))
include hstep hindex helems

theorem execVuGather_writes (h : s.VuReady x team y
      ⟨0x30, ((s.seq x).a b, 4 * count) :: s.indexed half count ((s.seq x).a a) ((s.seq x).a b),
        [((s.seq x).a d, elemBytes half * count)]⟩
      [((s.seq x).a b, 4 * count), ((s.seq x).a d, elemBytes half * count)])
    (hjs : js = indexAddrs ((s.seq x).a a) (elemBytes half) count (s.codedBytes ((s.seq x).a b) (4 * count))) :
    Completes (exec (.vuGather x team half a b d count) s) (fun t => (t.seq x).pos = (s.seq x).advance.pos ∧
      t.mem = (s.writeBytes ((s.seq x).a d) (storeElems half
        (elems half count (js.map (fun o => s.codedBytes (o.getD 0) (elemBytes half))).flatten))).mem) := by
  show Completes (execVuGather x team half a b d count s) _
  unfold execVuGather
  rw [hstep]
  refine (completes_next ..).2 ?_
  have hst := s.issued_stored x
    ⟨0x30, ((s.seq x).a b, 4 * count) :: s.indexed half count ((s.seq x).a a) ((s.seq x).a b),
        [((s.seq x).a d, elemBytes half * count)]⟩
  have hrun := State.gather_writes (x := x) (t := 24 * x + team % 24) h.issued_reach
    (fun r hr => h.issued_clean r (by simp [List.mem_singleton.1 hr]))
    (by rw [State.codedBytes_congr hst, hjs]) ((State.badIndex_congr hst ..).trans hindex) (State.cleanAt_congr hst helems)
  simp only [State.codedBytes_congr hst] at hrun
  exact h.advances (f := fun u => u.gather x (24 * x + team % 24) y half ((s.seq x).a a) ((s.seq x).a b) ((s.seq x).a d) count)
    (source := unitTeam (24 * x + team % 24)) (List.mem_cons_of_mem _ (List.mem_cons_self ..)) (by simp)
    (by rw [hrun, State.countOp_seqs]) (by rw [hrun, (State.countOp_keeps ..).2])

theorem execVuScatter_writes (h : s.VuReady x team y
      ⟨0x30, [((s.seq x).a a, elemBytes half * count), ((s.seq x).a b, 4 * count)],
        s.indexed half count ((s.seq x).a d) ((s.seq x).a b)⟩
      [((s.seq x).a a, elemBytes half * count), ((s.seq x).a b, 4 * count)])
    (hjs : js = indexAddrs ((s.seq x).a d) (elemBytes half) count (s.codedBytes ((s.seq x).a b) (4 * count))) :
    Completes (exec (.vuScatter x team half a b d count) s) (fun t => (t.seq x).pos = (s.seq x).advance.pos ∧
      t.mem = (s.each (js.zip (s.elemsAt half ((s.seq x).a a) count))
        (fun s e => s.writeBytes (e.1.getD 0) (storeElems half [e.2]))).mem) := by
  show Completes (execVuScatter x team half a b d count s) _
  unfold execVuScatter
  rw [hstep]
  refine (completes_next ..).2 ?_
  have hst := s.issued_stored x
    ⟨0x30, [((s.seq x).a a, elemBytes half * count), ((s.seq x).a b, 4 * count)],
        s.indexed half count ((s.seq x).a d) ((s.seq x).a b)⟩
  have hrun := State.scatter_writes (x := x) (t := 24 * x + team % 24) h.issued_reach h.issued_clean
    (by rw [State.codedBytes_congr hst, hjs]) ((State.badIndex_congr hst ..).trans hindex)
  rw [State.elemsAt, State.codedBytes_congr hst, ← State.elemsAt] at hrun
  obtain ⟨hpos, hmem⟩ := State.issue_advances h.issues
    (f := fun u => u.scatter x (24 * x + team % 24) y half ((s.seq x).a a) ((s.seq x).a b) ((s.seq x).a d) count)
    (by rw [hrun, State.countOp_seq, State.seq_congr (State.each_seqs (fun u e => (u.writeThrough_runs ..).1) _ _)])
  rw [hrun, (State.countOp_keeps ..).2,
    State.each_writeThrough_mem ((s.issued_showsOnly x _).same State.mem (fun _ _ => rfl))] at hmem
  · rw [h.stall]
    exact ⟨hpos, hmem⟩
  · intro e he
    obtain ⟨hbad, hret, -⟩ := State.cleanAt_congr hst helems _ (List.mem_map_of_mem (List.of_mem_zip he).1)
    exact ⟨hbad, hret⟩

end

/-- Settles O8: each operation by its lemma above. -/
theorem vectorOtherOperationsComplete : Obligations.VectorOtherOperationsComplete := by
  unfold Obligations.VectorOtherOperationsComplete
  exact ⟨fun x team half a d count y s hstep hissue hstall hreach hclean =>
      execVuSum_writes hstep ⟨hissue, hstall, hreach, hclean⟩,
    fun x team half a b d count y s hstep hissue hstall hreach hclean =>
      execVuRope_writes hstep ⟨hissue, hstall, hreach, hclean⟩,
    fun x team half fmt a d count y s hstep hissue hstall hreach hclean =>
      execVuToMx_writes hstep ⟨hissue, hstall, hreach, hclean⟩,
    fun x team half fmt a d count y s hstep hissue hstall hreach hclean =>
      execVuFromMx_writes hstep ⟨hissue, hstall, hreach, hclean⟩,
    fun x team half a b d count y js s hstep hissue hstall hreach hclean hjs hindex helems =>
      execVuGather_writes hstep hindex helems ⟨hissue, hstall, hreach, hclean⟩ hjs,
    fun x team half a b d count y js s hstep hissue hstall hreach hclean hjs hindex helems =>
      execVuScatter_writes hstep hindex helems ⟨hissue, hstall, hreach, hclean⟩ hjs⟩

end Sys2Proof.Machine
end

section
/-!
PROOFS. The serving events complete (O5): a slot that ends shows the state and the code it ends in, and a string that starts what
waits on it changes no step.
-/
set_option Elab.async false
namespace Sys2Proof.Machine

/-! ### A slot that ends -/

theorem State.slot_congr {s t : State} (h : t.slots = s.slots) (g : Nat) : t.slot g = s.slot g := by
  rw [State.slot, State.slot, h]

section
variable (s : State) (p g : Nat)

@[simp] theorem State.raiseVec_slots (fn vec : Nat) : (s.raiseVec fn vec).slots = s.slots := by
  simp [State.raiseVec, State.vecEvent, State.vecSend]

@[simp] theorem State.signalSlot_slots : (s.signalSlot p g).slots = s.slots := by
  simp [State.signalSlot]

theorem State.enter_ends (st : SlotSt) (code : Nat) :
    ((s.enter p g st code).slot g).st = st ∧ ((s.enter p g st code).slot g).code = code := by
  have hentered (u : State) (x : Slot) : (if st.signals then (u.setSlot g x).signalSlot p g else u.setSlot g x).slot g = x := by
    rw [State.slot_congr (t := ite ..) (s := u.setSlot g x) (by simp), State.slot_setSlot]
  unfold State.enter
  dsimp only
  rw [hentered]
  exact ⟨rfl, rfl⟩

theorem State.endSlot_ends (st : SlotSt) (code : Nat) :
    ((s.endSlot p g st code).slot g).st = st ∧ ((s.endSlot p g st code).slot g).code = code :=
  State.enter_ends _ p g st code

end

/-! ### A string that starts what waits on it -/

section
variable (s : State) (x : Nat)

@[simp] theorem State.traceEvent_steps (bit source kind : Nat) (data : List Nat) :
    (s.traceEvent bit source kind data).steps = s.steps :=
  (s.traceEvent_showsOnly bit source kind data).same State.steps (fun _ _ => rfl)

@[simp] theorem State.countOp_steps (i n : Nat) : (s.countOp x i n).steps = s.steps :=
  (s.countOp_showsOnly x i n).same State.steps (fun _ _ => rfl)

@[simp] theorem State.seqWait_steps (w : Option (Nat × Nat × Nat)) : (s.seqWait x w).steps = s.steps :=
  (s.seqWait_showsOnly x w).same State.steps (fun _ _ => rfl)

@[simp] theorem State.stopWait_steps : (s.stopWait x).steps = s.steps := by
  simp [State.stopWait]

@[simp] theorem State.rewindMeans_steps (k : Nat) (y : Step) (before after : SMap Nat) :
    (s.rewindMeans k y before after).steps = s.steps := rfl

@[simp] theorem State.beginSeq_steps (y : Step) : (s.beginSeq x y).steps = s.steps := by
  simp [State.beginSeq]

@[simp] theorem State.rebeginSeq_steps (y : Step) : (s.rebeginSeq x y).steps = s.steps := by
  unfold State.rebeginSeq
  split
  · simp
  · exact (State.each_steps (fun u k => u.rewindMeans_steps ..) _ _).trans (s.stopWait_steps x)

@[simp] theorem State.startSeq_steps : (s.startSeq x).steps = s.steps := by
  fun_cases State.startSeq <;> simp

end

theorem State.step?_congr {s t : State} (h : t.steps = s.steps) (id : Nat) : t.step? id = s.step? id := by
  rw [State.step?, State.step?, h]

theorem State.id_of_step? {s : State} {id : Nat} {y : Step} (h : s.step? id = some y) : y.id = id := by
  simpa using List.find?_some h

/-- The step that a string runs is found by its number. -/
theorem State.step?_of_seqStep {s : State} {x : Nat} {y : Step} (h : s.seqStep x = some y) : s.step? y.id = some y := by
  unfold State.seqStep at h
  split at h
  · rw [State.id_of_step? h, h]
  · cases h

/-- A step that is changed is found again, when it keeps its number. -/
theorem State.step?_modStep {s : State} {id : Nat} {y : Step} {f : Step → Step} (h : s.step? id = some y)
    (hf : ∀ z : Step, (f z).id = z.id) : (s.modStep id f).step? id = some (f y) := by
  have hid : y.id = id := State.id_of_step? h
  have hsame : ((fun z : Step => z.id == id) ∘ fun z => if z.id = id then f z else z) = fun z => z.id == id := by
    funext z
    by_cases hz : z.id = id <;> simp [hz, hf]
  rw [State.step?] at h ⊢
  rw [State.modStep, List.find?_map, hsame, h, Option.map_some, if_pos hid]

/-- The record of a step is posted now (R240). -/
theorem State.postStep_step? {s : State} {id : Nat} {y : Step} (h : s.step? id = some y) :
    (s.postStep y).step? id = some { y with posted := true, startedAt := s.now, milepost := s.nextMilepost y.part } := by
  obtain rfl : y.id = id := State.id_of_step? h
  unfold State.postStep
  dsimp only
  rw [State.step?_congr (State.each_steps (fun u x => by simp) _ _), State.step?_congr (State.traceEvent_steps ..)]
  exact State.step?_modStep (s := s.partSet y.part _) h (fun _ => rfl)

/-! ### The events -/

section
variable {s : State} {g p id : Nat} {y : Step}

theorem execPageWaitRetry_secures (hpart : s.slotPart g = some p) (hwait : s.waiting p (s.localSlot p g) = true)
    (hok : (s.secure p g (s.slot g).waitRows).1 = .ok) :
    exec (.pageWaitRetry g) s = .next (s.secure p g (s.slot g).waitRows).2 := by
  show execPageWaitRetry g s = _
  simp [execPageWaitRetry, hpart, hwait, hok]

theorem execPageWaitExpire_ends (hpart : s.slotPart g = some p) (hwait : s.waiting p (s.localSlot p g) = true) :
    Completes (exec (.pageWaitExpire g) s) (fun t => (t.slot g).st = .faulted ∧ (t.slot g).code = cExhausted) := by
  show Completes (execPageWaitExpire g s) _
  simp only [execPageWaitExpire, hpart, hwait]
  exact (completes_next ..).2 (s.endSlot_ends p g .faulted cExhausted)

theorem execPageMoveComplete_moves {page : Nat} {host : List Nat} {m : Move}
    (hmove : s.kv.moves.find? (fun m => m.part == p && m.page == page) = some m) (hkind : m.kind ≠ .copy)
    (hlink : s.pci.lost = false) : exec (.pageMoveComplete p page false host) s =
      .next (({ s with kv := { s.kv with moves := s.kv.moves.filter (fun z => !(z == m)) } } : State).endMove m host) := by
  show execPageMoveComplete p page false host s = _
  simp only [execPageMoveComplete, hmove, State.dmaError, hlink]
  split
  · contradiction
  · rfl

/-- The pull of a chunk's tokens ends: the step waits for it no longer. -/
theorem execInputPullComplete_writes {host : List Nat} {e : StepSeq} {u : State}
    (hu : s.modStep y.id (fun z => { z with pulls := z.pulls.filter (· != g) }) = u)
    (hpull : s.pulling g = some (y, e)) (hstep : (s.slot g).inStep = some y.id) (hlink : s.pci.lost = false)
    (hread : (u.chunkTokens g e host).2.1 = false) : exec (.inputPullComplete g false host) s =
      .next ((u.chunkTokens g e host).2.2.writeThrough (unitCore 0) (y.a1 + 4 * e.firstRow)
        (tokenBytes (u.chunkTokens g e host).1)) := by
  have hslot : (u.slot g).inStep = some y.id := by rw [← hu]; exact hstep
  have hlost : u.pci.lost = false := by rw [← hu]; exact hlink
  show execInputPullComplete g false host s = _
  simp [execInputPullComplete, hpull, hu, hslot, hlost, hread]

theorem execTtlExpire_ends (hpart : s.slotPart g = some p) (hfrom : (s.slot g).ttlFrom ≠ none) (httl : s.ttlMs p g ≠ none)
    (hcore : s.coreHalted 0 = false) (hparked : (s.slot g).st = .paused) :
    Completes (exec (.ttlExpire g) s) (fun t => (t.slot g).st = .cancelled ∧ (t.slot g).code = cTtl) := by
  show Completes (execTtlExpire g s) _
  simp only [execTtlExpire, State.onSlot, hpart]
  rw [if_neg (by simp [hfrom, httl, hcore]), if_pos hparked]
  exact (completes_next ..).2 (s.endSlot_ends p g .cancelled cTtl)

/-- A step is planned of the sequences that join it, when none of them has to go. -/
theorem execStepPlan_creates {m a0 a1 a2 a2b : Nat} {attn : List (List Nat)} {a b : PlanState} (hready : s.ready = true)
    (hserve : s.inService p = true) (hcore : s.coreHalted 0 = false)
    (ha : a = (s.decodeSlots p m).foldl
      (fun a g => a.decode p (s.serveCfg p 32 2 1024) (s.serveCfg p 38 2 1024) g) { s := s })
    (hb : b = (a.s.promptSlots p m).foldl (fun a g => a.prompt p (s.serveCfg p 32 2 1024) (s.serveCfg p 38 2 1024)
      (s.serveCfg p 34 2 64) (s.serveCfg p 36 2 512) g) { a with stop := false })
    (hjoin : b.seqs ≠ []) (hkeep : b.s.trimPlan p m b.seqs = b.seqs) :
    exec (.stepPlan p m a0 a1 a2 a2b attn) s = .next (b.s.createStep p m a0 a1 a2 a2b attn b.seqs) := by
  show execStepPlan p m a0 a1 a2 a2b attn s = _
  simp [execStepPlan, hready, hserve, hcore, ← ha, ← hb, hkeep, hjoin, State.each]

theorem execStepRecord_posts (hstep : s.step? id = some y) (hnew : y.posted = false) (hpulls : y.pulls = [])
    (hserve : s.inService y.part = true) (hcore : s.coreHalted 0 = false) (htwin : y.twin = none) :
    Completes (exec (.stepRecord id) s) (fun t => ∃ z, t.step? id = some z ∧ z.posted = true ∧ z.startedAt = s.now) := by
  show Completes (execStepRecord id s) _
  simp only [execStepRecord, hstep]
  rw [if_neg (by simp [hnew, hpulls, hserve, hcore]), htwin]
  exact (completes_next ..).2 ⟨_, State.postStep_step? hstep, rfl, rfl⟩

theorem execMilepostReached_commits (hstep : s.step? id = some y) (hreached : s.reached y = true)
    (hcore : s.coreHalted 0 = false) (htwin : y.twin = none) :
    exec (.milepostReached id) s = .next (s.commitAlone y) := by
  show execMilepostReached id s = _
  simp [execMilepostReached, hstep, hreached, hcore, htwin]

/-- A replay begins once what it waits for has come (R166, R328). -/
theorem execReplayStart_replays (hstep : s.step? id = some y)
    (hask : y.asked ≠ [] ∨ y.verdictAsked = true ∨ y.collFailed = true) (hposted : y.posted = true)
    (hheld : s.stepHeld y = false) (hverdict : s.verdictMoves y.part = false ∧ s.planeHeld y.part = false)
    (hplan : s.torus.replan = false) : exec (.replayStart id) s = .next (s.startReplay y) := by
  have hasked : (y.asked.isEmpty && !y.verdictAsked && !y.collFailed) = false := by
    rcases hask with h | h | h <;> simp [h]
  show execReplayStart id s = _
  simp [execReplayStart, hstep, hasked, hposted, hheld, hverdict, hplan]

end

/-- Settles O5: each event by its lemma above. -/
theorem servingEventsComplete : Obligations.ServingEventsComplete := by
  unfold Obligations.ServingEventsComplete
  exact ⟨fun g p s => execPageWaitRetry_secures,
    fun g p s => execPageWaitExpire_ends,
    fun p page host m s => execPageMoveComplete_moves,
    fun g host y e s => execInputPullComplete_writes rfl,
    fun g p s => execTtlExpire_ends,
    fun p m a0 a1 a2 a2b attn a b s => execStepPlan_creates,
    fun id y s => execStepRecord_posts,
    fun id y s hstep hreached hcore htwin _ => execMilepostReached_commits hstep hreached hcore htwin,
    fun id y s hstep hask hposted hheld _ hverdict _ => execReplayStart_replays hstep hask hposted hheld hverdict⟩

end Sys2Proof.Machine
end

section
/-!
PROOFS. Sequencer instructions complete (O6): flow, groups, flags, swaps and descriptors. What follows the effect of an instruction
that issues adds nothing but the code position.
-/
set_option Elab.async false
namespace Sys2Proof.Machine

/-! ### Address registers and the code position -/

/-- An address register keeps what its 64 bits hold (R184). -/
theorem Seq.a_setA (q : Seq) {a : Nat} (ha : a < 16) (v : Nat) : (q.setA a v).a a = v % 2 ^ 64 := by
  simp [Seq.a, Seq.setA, ha]

/-- The code position goes on, whatever it means for loops. -/
@[simp] theorem Seq.a_advance (q : Seq) (a : Nat) : q.advance.a a = q.a a := rfl

theorem ofSigned_lt (n : Nat) (v : Int) : ofSigned n v < 2 ^ n := by
  rw [ofSigned, Int.toNat_lt (Int.emod_nonneg _ (by positivity))]
  exact_mod_cast Int.emod_lt_of_pos _ (by positivity)

section
variable {s : State} {x : Nat}

theorem execNop_advances (h : s.issues x (touchNone 0x00)) : Completes (exec (.nop x) s) (fun t =>
    (t.seq x).pos = (s.seq x).advance.pos ∧ (t.seq x).regs = (s.seq x).regs ∧ t.mem = s.mem) :=
  (completes_next ..).2 ⟨State.issue_pos h rfl, State.issue_seq_same h (P := Seq.regs) (fun _ _ _ _ => rfl) rfl,
    State.issue_mem (fun _ => rfl) ..⟩

theorem execAdda_adds {a : Nat} {imm : Int} (ha : a < 16) (h : s.issues x (touchNone 0x02)) :
    Completes (exec (.adda x a imm) s) (fun t => (t.seq x).pos = (s.seq x).advance.pos ∧
      (t.seq x).a a = ofSigned 64 ((s.seq x).a a + imm) ∧ t.mem = s.mem) := by
  have hseq {β : Type} (P : Seq → β) (hP : IgnoresHalt P) := State.issue_seq_set h hP (go := Seq.advance)
    (fun q => q.setA a (ofSigned 64 (q.a a + imm))) (fun _ => ⟨rfl, rfl, rfl⟩)
  refine (completes_next ..).2 ⟨hseq Seq.pos (fun _ _ _ _ => rfl), ?_, State.issue_mem (fun u => u.setSeqr_mem x _) ..⟩
  refine (hseq (Seq.a · a) (fun _ _ _ _ => rfl)).trans ?_
  rw [Seq.a_advance, Seq.a_setA _ ha, Nat.mod_eq_of_lt (ofSigned_lt ..)]
  rfl

theorem execLoop_loops {count len : Nat} (h : s.issues x (touchNone 0x03)) :
    Completes (exec (.loop x count len) s) (fun t => (t.seq x).pos = ((s.seq x).loop count len).pos ∧
      (t.seq x).loops = ((s.seq x).loop count len).loops ∧ t.mem = s.mem) := by
  have hissued : (s.seq x).issued.loop count len = ((s.seq x).loop count len).issued := by
    unfold Seq.loop
    split <;> rfl
  refine (completes_next ..).2 ⟨?_, ?_, State.issue_mem (fun _ => rfl) ..⟩
  · exact (State.issue_seq_same h (P := Seq.pos) (fun _ _ _ _ => rfl) rfl).trans (by rw [hissued]; rfl)
  · exact (State.issue_seq_same h (P := Seq.loops) (fun _ _ _ _ => rfl) rfl).trans (by rw [hissued]; rfl)

/-! ### Groups -/

/-- A descriptor without an error opens its group (R155, R156). -/
theorem execGopen_opens {team a : Nat} {y : Step} {u : State} {r : List Nat × Bool × State} (hstep : s.seqStep x = some y)
    (h : s.issues x ⟨0x10, [((s.seq x).a a, 64)], []⟩) (hu : u = s.issued x ⟨0x10, [((s.seq x).a a, 64)], []⟩)
    (hreach : u.reaches y.part ((s.seq x).a a) 64 = true) (hr : r = u.readThrough (unitString x) ((s.seq x).a a) 64)
    (hue : r.2.1 = false) (hopen : r.2.2.openErrors (24 * x + team % 24) (parseGroup r.1) = 0) :
    exec (.gopen x team a) s = .next (s.onward x Seq.advance
      ((r.2.2.initGroup y.part (24 * x + team % 24) y.id (parseGroup r.1)).showTeam (24 * x + team % 24))) := by
  show execGopen x team a s = _
  unfold execGopen
  rw [hstep]
  dsimp only
  rw [State.issue_onward h, ← hu]
  simp only [hreach, ← hr, hue, State.openGroup, hopen]
  rfl

theorem execGclose_closes {team group : Nat} (h : s.issues x (touchNone 0x11))
    (hopen : (s.group (24 * x + team % 24) group).st = 1) : Completes (exec (.gclose x team group) s) (fun t =>
      (t.seq x).pos = (s.seq x).advance.pos ∧ (t.group (24 * x + team % 24) group).st = 2) := by
  have hgroup : (s.issued x (touchNone 0x11)).group (24 * x + team % 24) group = s.group (24 * x + team % 24) group :=
    (s.issued_showsOnly x _).same (fun u => u.group (24 * x + team % 24) group) (fun _ _ => rfl)
  refine (completes_next ..).2 ⟨State.issue_pos h ?_, ?_⟩
  · dsimp only
    rw [hgroup, if_pos hopen]
    simp [State.setGroup]
  · refine (State.issue_same h (fun u => (u.group (24 * x + team % 24) group).st) (fun _ _ => rfl) _).trans ?_
    dsimp only
    rw [hgroup, if_pos hopen]
    simp

theorem execGwait_passes {team group : Nat} (h : s.issues x (touchNone 0x12))
    (hfree : (s.group (24 * x + team % 24) group).st = 0) : Completes (exec (.gwait x team group) s) (fun t =>
      (t.seq x).pos = (s.seq x).advance.pos ∧ t.mem = s.mem) := by
  show Completes (execGwait x team group s) _
  unfold execGwait
  dsimp only
  rw [if_pos hfree]
  exact (completes_next ..).2 ⟨State.issue_pos h rfl, State.issue_mem (fun _ => rfl) ..⟩

/-! ### Flags -/

/-- The flag of a string that signals, and what it remembers of who signalled (R184). -/
def Seq.signalled (q : Seq) (x flag : Nat) : Seq :=
  { q with flags := Map.modify 0 q.flags flag (fun v => min 255 (v + 1)), signallers := Map.set 0 q.signallers flag (x + 1) }

theorem Seq.signalled_flag (q : Seq) (x flag : Nat) :
    Map.get 0 (q.signalled x flag).flags flag = min 255 (Map.get 0 q.flags flag + 1) := Map.get_set_same ..

/-- A string may signal itself. -/
theorem execSignal_raises {str flag : Nat} (h : s.issues x (touchNone 0x3B)) : Completes (exec (.signal x str flag) s) (fun t =>
    (t.seq x).pos = (s.seq x).advance.pos ∧
      Map.get 0 (t.seq str).flags flag = min 255 (Map.get 0 (s.seq str).flags flag + 1)) := by
  refine (completes_next ..).2 ?_
  by_cases hx : x = str
  · subst hx
    have hseq {β : Type} (P : Seq → β) (hP : IgnoresHalt P) := State.issue_seq_set h hP (go := Seq.advance)
      (fun q => q.signalled x flag) (fun _ => ⟨rfl, rfl, rfl⟩)
    exact ⟨hseq Seq.pos (fun _ _ _ _ => rfl),
      (hseq (fun q => Map.get 0 q.flags flag) (fun _ _ _ _ => rfl)).trans (Seq.signalled_flag (s.seq x).issued x flag)⟩
  · constructor
    · exact State.issue_seq h (f := fun u => u.setSeqr str ((u.seq str).signalled x flag)) (P := Seq.pos) (fun _ _ _ _ => rfl) id
        (fun _ => ⟨rfl, rfl, rfl⟩) (State.seq_setSeqr_ne _ _ (Ne.symm hx))
    · rw [State.issue_onward h, State.onward_seq_ne (P := Seq.flags) (fun _ _ _ _ => rfl) _ _ _ hx, State.seq_setSeqr,
        State.issued_seq_ne s _ hx]
      exact Seq.signalled_flag (s.seq str) x flag

theorem execWaitf_takes {flag count : Nat} (h : s.issues x (touchNone 0x3C)) (hflag : count ≤ Map.get 0 (s.seq x).flags flag) :
    Completes (exec (.waitf x flag count) s) (fun t => (t.seq x).pos = (s.seq x).advance.pos ∧
      Map.get 0 (t.seq x).flags flag = Map.get 0 (s.seq x).flags flag - count) := by
  have hseq {β : Type} (P : Seq → β) (hP : IgnoresHalt P) := State.issue_seq_set h hP (go := Seq.advance)
    (fun q => { q with flags := Map.modify 0 q.flags flag (fun v => v - count) }) (fun _ => ⟨rfl, rfl, rfl⟩)
  show Completes (execWaitf x flag count s) _
  unfold execWaitf
  dsimp only
  rw [if_pos hflag]
  exact (completes_next ..).2 ⟨hseq Seq.pos (fun _ _ _ _ => rfl),
    (hseq (fun q => Map.get 0 q.flags flag) (fun _ _ _ _ => rfl)).trans (Map.get_set_same ..)⟩

/-! ### The end of a step's part -/

/-- With no step record in the queue nothing starts. -/
theorem State.startSeq_empty (h : (s.seq x).queue = []) : s.startSeq x = s := by
  unfold State.startSeq
  dsimp only
  split
  · rfl
  · rw [h]

theorem execSeqEnd_ends (h : s.issues x (touchNone 0x3F)) (hqueue : (s.seq x).queue = []) :
    Completes (exec (.seqEnd x) s) (fun t => (t.seq x).ended = true ∧ (t.seq x).reported = (s.seq x).reported) := by
  refine (completes_next ..).2 ?_
  rw [State.issue_onward h, State.startSeq_empty (by rw [State.seq_setSeqr, s.issued_seq]; exact hqueue)]
  have hq (u : State) : ((u.setSeqr x { u.seq x with ended := true }).seq x) = { u.seq x with ended := true } :=
    State.seq_setSeqr ..
  have hafter {β : Type} (P : Seq → β) (hP : IgnoresHalt P) :=
    State.onward_seq_ended hP (s := s) Seq.advance (congrArg Seq.ended (hq (s.issued x (touchNone 0x3F))))
  constructor
  · rw [hafter Seq.ended (fun _ _ _ _ => rfl), hq]
  · rw [hafter Seq.reported (fun _ _ _ _ => rfl), hq, s.issued_seq]
    rfl

/-- A code position beyond the code (R184). -/
theorem execBadInstructionFetch_faults {y : Step} (hstep : s.seqStep x = some y) (hcan : s.canIssue x = true)
    (hlen : s.codeLen y.part x ≤ (s.seq x).pos) :
    exec (.badInstructionFetch x) s = .next (s.seqFault x 0x0C 0xFF 0xFF (s.seq x).pos) := by
  show execBadInstructionFetch x s = _
  simp [execBadInstructionFetch, hstep, hcan, hlen]

end

end Sys2Proof.Machine
end

section
/-!
PROOFS. Sequencer instructions complete (O6): models and their swaps (R188, R189, R261). A swap is queued once in each team that
holds a placement of the model.
-/
set_option Elab.async false
namespace Sys2Proof.Machine

/-! ### Each team once -/

theorem nodup_eraseDups (l : List Nat) : l.eraseDups.Nodup := by
  induction hn : l.length using Nat.strong_induction_on generalizing l with
  | _ n ih =>
    cases l with
    | nil => exact List.nodup_nil
    | cons a as =>
      rw [List.eraseDups_cons, List.nodup_cons]
      refine ⟨by simp, ih _ ?_ _ rfl⟩
      rw [← hn, List.length_cons, Nat.lt_succ_iff]
      exact List.length_filter_le _ _

theorem placeTeams_nodup (ps : List Place) : (placeTeams ps).Nodup :=
  (List.mergeSort_perm _ _).nodup_iff.2 (nodup_eraseDups _)

/-- What only one member's turn changes is as that turn leaves it. -/
theorem State.each_at {β : Type} (P : State → β) {f : State → Nat → State} {t : Nat}
    (hother : ∀ u k, k ≠ t → P (f u k) = P u) {ts : List Nat} (hnodup : ts.Nodup) (hmem : t ∈ ts) (s : State) :
    ∃ u, P u = P s ∧ P (s.each ts f) = P (f u t) := by
  induction ts generalizing s with
  | nil => cases hmem
  | cons k ks ih =>
    obtain ⟨hk, hks⟩ := List.nodup_cons.1 hnodup
    by_cases hkt : k = t
    · subst hkt
      have hrest (u : State) (js : List Nat) (hjs : k ∉ js) : P (u.each js f) = P u := by
        induction js generalizing u with
        | nil => rfl
        | cons j js ihj =>
          obtain ⟨hj, hjs⟩ := not_or.1 (mt List.mem_cons.2 hjs)
          exact (ihj _ hjs).trans (hother u j (Ne.symm hj))
      exact ⟨s, rfl, hrest _ _ hk⟩
    · obtain ⟨u, hu, hrun⟩ := ih hks ((List.mem_cons.1 hmem).resolve_left (Ne.symm hkt)) (f s k)
      exact ⟨u, hu.trans (hother s k hkt), hrun⟩

/-! ### Swaps -/

@[simp] theorem State.showTeam_now (s : State) (t : Nat) : (s.showTeam t).now = s.now :=
  (s.showTeam_sameTeams t).1.2.1

section
variable (s : State) (x m notBefore : Nat) (y : Step)

@[simp] theorem State.swapModel_seqs : (s.swapModel x m notBefore y).seqs = s.seqs := by
  unfold State.swapModel
  exact State.each_seqs (fun u t => by rw [(State.showTeam_units ..).2.2.1, State.setTeam_seqs]) _ _

theorem State.swapModel_swaps {t : Nat} (ht : t ∈ placeTeams (modelStringPlaces (s.harness y.part) m x)) :
    ((s.swapModel x m notBefore y).team t).swaps = (s.team t).swaps ++ [⟨true, s.now, notBefore,
      (((modelStringPlaces (s.harness y.part) m x).filter (fun z => z.team == t)).map
        (fun z => (z.role, z.plane))).eraseDups⟩] := by
  unfold State.swapModel
  obtain ⟨u, hu, hrun⟩ := State.each_at (fun u => ((u.team t).swaps, u.now)) (t := t)
    (f := fun u k => (u.setTeam k { u.team k with swaps := (u.team k).swaps ++ [⟨true, u.now, notBefore,
      (((modelStringPlaces (s.harness y.part) m x).filter (fun z => z.team == k)).map
        (fun z => (z.role, z.plane))).eraseDups⟩] }).showTeam k)
    (fun u k hk => by simp only [State.showTeam_team, State.showTeam_now, State.team_setTeam_ne u _ hk, State.setTeam_now])
    (placeTeams_nodup _) ht s
  obtain ⟨hswaps, hnow⟩ := Prod.mk.inj hu
  refine (congrArg Prod.fst hrun).trans ?_
  dsimp only
  rw [State.showTeam_team, State.team_setTeam, hswaps, hnow]

end

section
variable {s : State} {x model : Nat} {y : Step} (hstep : s.seqStep x = some y)

theorem State.issued_harness (c : Touch) (p : Nat) : (s.issued x c).harness p = s.harness p :=
  (s.issued_showsOnly x c).same (fun u => u.harness p) (fun _ _ => rfl)

theorem State.issued_now (c : Touch) : (s.issued x c).now = s.now :=
  (s.issued_showsOnly x c).same State.now (fun _ _ => rfl)

theorem State.issued_team (c : Touch) (t : Nat) : (s.issued x c).team t = s.team t :=
  (s.issued_showsOnly x c).same (fun u => u.team t) (fun _ _ => rfl)

/-- A swap that issues is queued in each team of the model (R188). -/
theorem State.issue_swapModel {c : Touch} (h : s.issues x c) {team : Nat}
    (hteam : team ∈ placeTeams (modelStringPlaces (s.harness y.part) model x)) (notBefore : Nat) :
    ((s.issue x c none Seq.advance (fun u => u.swapModel x model notBefore y)).seq x).pos = (s.seq x).advance.pos ∧
      ((s.issue x c none Seq.advance (fun u => u.swapModel x model notBefore y)).team team).swaps =
        (s.team team).swaps ++ [⟨true, s.now, notBefore, (((modelStringPlaces (s.harness y.part) model x).filter
          (fun z => z.team == team)).map (fun z => (z.role, z.plane))).eraseDups⟩] := by
  refine ⟨State.issue_pos h (State.swapModel_seqs ..), ?_⟩
  refine (State.issue_same h (fun u => (u.team team).swaps) (fun _ _ => rfl) _).trans ?_
  rw [State.swapModel_swaps _ x model notBefore y (by rw [State.issued_harness]; exact hteam), State.issued_harness,
    State.issued_now, State.issued_team]

include hstep

theorem execSwapPlanes_queues {team : Nat} (h : s.issues x (touchNone 0x39)) (hstall : s.swapStall x model = none)
    (hteam : team ∈ placeTeams (modelStringPlaces (s.harness y.part) model x)) :
    Completes (exec (.swapPlanes x model) s) (fun t => (t.seq x).pos = (s.seq x).advance.pos ∧
      (t.team team).swaps = (s.team team).swaps ++ [⟨true, s.now, 0, (((modelStringPlaces (s.harness y.part) model x).filter
        (fun z => z.team == team)).map (fun z => (z.role, z.plane))).eraseDups⟩]) := by
  show Completes (execSwapPlanes x model s) _
  unfold execSwapPlanes
  rw [hstep, hstall]
  exact (completes_next ..).2 (State.issue_swapModel h hteam 0)

/-- At or after the waymark, when it is issued in time (R189). -/
theorem execSwapat_queues {a team : Nat} (h : s.issues x (touchNone 0x3A)) (hstall : s.swapStall x model = none)
    (htime : s.now + 40 ≤ (s.seq x).a a) (hteam : team ∈ placeTeams (modelStringPlaces (s.harness y.part) model x)) :
    Completes (exec (.swapat x model a) s) (fun t => (t.seq x).pos = (s.seq x).advance.pos ∧
      (t.team team).swaps = (s.team team).swaps ++ [⟨true, s.now, (s.seq x).a a,
        (((modelStringPlaces (s.harness y.part) model x).filter (fun z => z.team == team)).map
          (fun z => (z.role, z.plane))).eraseDups⟩]) := by
  have hintime : ¬ (s.seq x).a a < (s.issued x (touchNone 0x3A)).now + 40 := by
    rw [State.issued_now]
    omega
  have hsame : s.issue x (touchNone 0x3A) none Seq.advance (fun s' =>
      if (s.seq x).a a < s'.now + 40 then (s'.setSeqr x { s'.seq x with swapLate := true }).swapModel x model 0 y
      else s'.swapModel x model ((s.seq x).a a) y) =
      s.issue x (touchNone 0x3A) none Seq.advance (fun u => u.swapModel x model ((s.seq x).a a) y) := by
    rw [State.issue_onward h, State.issue_onward h, if_neg hintime]
  show Completes (execSwapat x model a s) _
  unfold execSwapat
  rw [hstep, hstall]
  dsimp only
  rw [hsame]
  exact (completes_next ..).2 (State.issue_swapModel h hteam _)

/-! ### Loads -/

/-- A load of a cold model begins (R188, R261). -/
theorem execLoadm_begins (h : s.issues x (touchNone 0x38))
    (hstall : s.roleStall false (modelStringPlaces (s.harness y.part) model x) = none)
    (hhome : (harnessModel (s.harness y.part) model).home = 2)
    (hlive : (modelStringPlaces (s.harness y.part) model x).any s.placeLive = false) (hidle : (s.seq x).loads model = false) :
    Completes (exec (.loadm x model) s) (fun t => (t.seq x).pos = (s.seq x).advance.pos ∧
      (t.seq x).loading = (s.seq x).loading ++ [(model, y.id)]) := by
  have hload : ((s.issued x (touchNone 0x38)).loadModel x model y).seq x =
      { (s.issued x (touchNone 0x38)).seq x with
        loading := ((s.issued x (touchNone 0x38)).seq x).loading ++ [(model, y.id)] } := by
    have hlive' : (modelStringPlaces (s.harness y.part) model x).any (s.issued x (touchNone 0x38)).placeLive = false :=
      ((s.issued_showsOnly x (touchNone 0x38)).same (fun u => (modelStringPlaces (s.harness y.part) model x).any u.placeLive)
        (fun _ _ => rfl)).trans hlive
    unfold State.loadModel
    rw [State.issued_harness]
    dsimp only
    rw [if_neg (by simp [hhome]), hlive', if_neg (by simp), if_neg (by rw [s.issued_seq]; exact ne_true_of_eq_false hidle),
      State.seq_setSeqr]
  have hseq {β : Type} (P : Seq → β) (hP : IgnoresHalt P) := State.issue_seq h hP (go := Seq.advance)
    (f := fun u => u.loadModel x model y) (fun q => { q with loading := q.loading ++ [(model, y.id)] })
    (fun _ => ⟨rfl, rfl, rfl⟩) hload
  show Completes (execLoadm x model s) _
  unfold execLoadm
  rw [hstep]
  dsimp only
  rw [hstall]
  exact (completes_next ..).2 ⟨hseq Seq.pos (fun _ _ _ _ => rfl), hseq Seq.loading (fun _ _ _ _ => rfl)⟩

end

/-- A load that waits for a neighbour's tier whose link stays down fails the step (R261). -/
theorem execRemoteTierWaitExpire_fails {s : State} {x model p : Nat} {e : Nat × Nat} (hpart : s.stringPart x = some p)
    (hload : (s.seq x).loading.find? (fun e => e.1 == model) = some e)
    (hremote : remoteTier (harnessModel (s.harness p) model).stageUnit = true)
    (hdown : s.remoteUp (harnessModel (s.harness p) model).stageUnit = false) :
    exec (.remoteTierWaitExpire x false model) s = .next ((s.setSeqr x
      { s.seq x with loading := (s.seq x).loading.filter (· != e) }).faultStep e.2 false
        ((placeTeams (modelStringPlaces (s.harness p) model x)).headD (24 * x)) 0x0A 0xFF 0xFF
        (remotePort (harnessModel (s.harness p) model).stageUnit)) := by
  show execRemoteTierWaitExpire x false model s = _
  simp [execRemoteTierWaitExpire, hpart, hload, hremote, hdown]

end Sys2Proof.Machine
end

section
/-!
PROOFS. A collective issues (O6, R324): the call that the descriptor at A(a) describes joins the outstanding ones.
-/
set_option Elab.async false
namespace Sys2Proof.Machine

/-- A collective that a descriptor describes, as it stands when it is issued, its operand loaded. -/
def State.issuedColl (s : State) (x : Nat) (y : Step) (d : List Nat) (buf : List Nat) : Coll :=
  { id := field d 4 4, part := y.part, str := x, step := y.id, desc := d, phases := s.collPhases d,
    phase := 0, k := 1, sent := false, done := 0, buf := buf, sends := [], degraded := false, issued := s.now }

theorem State.issuedColl_of_fields {s : State} {x : Nat} {y : Step} {d : List Nat} {c : Coll}
    (h : c.id = field d 4 4 ∧ c.part = y.part ∧ c.str = x ∧ c.step = y.id ∧ c.desc = d ∧ c.phases = s.collPhases d ∧
      c.phase = 0 ∧ c.k = 1 ∧ c.sent = false ∧ c.done = 0 ∧ c.sends = [] ∧ c.degraded = false ∧ c.issued = s.now) :
    c = s.issuedColl x y d c.buf := by
  cases c
  dsimp only at h
  obtain ⟨rfl, rfl, rfl, rfl, rfl, rfl, rfl, rfl, rfl, rfl, rfl, rfl, rfl⟩ := h
  rfl

theorem execColl_joins {x a : Nat} {y : Step} {u : State} {r q : List Nat × Bool × State} {b : List Nat} {c : Coll} {s : State}
    (hstep : s.seqStep x = some y) (h : s.issues x (s.collTouch ((s.seq x).a a) y))
    (hu : u = s.issued x (s.collTouch ((s.seq x).a a) y)) (hreach : u.reaches y.part ((s.seq x).a a) 64 = true)
    (hr : r = u.readThrough (unitString x) ((s.seq x).a a) 64) (hue : r.2.1 = false)
    (hstatus : r.2.2.reaches y.part (field r.1 40 8) 16 = true) (hgood : r.2.2.collBad y.part r.1 = false)
    (hring : ((collRings r.1).isEmpty && collOp r.1 == 3 && field r.1 12 2 != r.2.2.position) = false)
    (hfrom : r.2.2.reaches y.part (field r.1 24 8) (collCount r.1 * collElemBytes r.1) = true)
    (hto : r.2.2.reaches y.part (field r.1 32 8) ((r.2.2.collResult r.1).2 * collElemBytes r.1) = true)
    (hq : q = r.2.2.readFor (some y.id) (unitColl (r.2.2.collPort c)) (field r.1 24 8) (collCount r.1 * collElemBytes r.1))
    (hload : q.2.1 = false) (hc : c = r.2.2.issuedColl x y r.1 c.buf)
    (hb : b = if collOp r.1 = 2 then collPut r.1 1 (zeros (r.2.2.collTotal r.1))
      (r.2.2.shareOff (collCount r.1) (collRings r.1)) (collLoad r.1 q.1) else collLoad r.1 q.1)
    (hbuf : c.buf = if (collRings r.1).isEmpty && collElem r.1 == 1 && collOp r.1 < 2 then b.map bf16Round else b)
    (hcheck : q.2.2.torus.collIn.any (fun e => e.part == c.part && e.id == c.id && !e.past && e.check != c.check) = false) :
    exec (.coll x a) s = .next (s.onward x Seq.advance
      (({ q.2.2 with torus := { q.2.2.torus with colls := q.2.2.torus.colls ++ [c] } } : State).advanceColl y.part
        (field r.1 4 4))) := by
  have hport : r.2.2.collPort (r.2.2.issuedColl x y r.1 []) = r.2.2.collPort c := by
    rw [hc]
    rfl
  have hfinal : { r.2.2.issuedColl x y r.1 [] with buf := c.buf } = c := by
    rw [hc]
    rfl
  show execColl x a s = _
  unfold execColl
  rw [hstep]
  dsimp only
  rw [State.issue_onward h, ← hu]
  congr 2
  unfold State.startColl
  simp only [hreach, ← hr, hue, hstatus, hgood, hring, hfrom, hto, Bool.or_false, Bool.not_true, Bool.false_eq_true, if_false]
  rw [State.issuedColl] at hport hfinal
  rw [hport, ← hq, hload, ← hb, ← hbuf, hfinal]
  have hpart : c.part = y.part := by rw [hc]; rfl
  have hid : c.id = field r.1 4 4 := by rw [hc]; rfl
  rw [hpart, hid] at hcheck
  rw [if_neg Bool.false_ne_true, hcheck, if_neg Bool.false_ne_true]

end Sys2Proof.Machine
end

section
/-!
PROOFS. LDA (O6): what a string reads of its program area at issue is what stood there, and as long as it asked for.
-/
set_option Elab.async false
namespace Sys2Proof.Machine

/-! ### Of what the result of a read depends -/

/-- A block as a read mends it: a data bit flipped, the check bits as they belong to the data (R270, R271). -/
def State.mended (s : State) (blk : Nat) : BlockVerdict → State
  | .ceData i j =>
    let a := 32 * blk + mendByte i j
    { s.writeByte a (BitVec.ofNat 8 (flipBit (s.readByte a).toNat (mendBit i j))) with syndromes := Map.set 0 s.syndromes blk 0 }
  | .ceCheck => { s with syndromes := Map.set 0 s.syndromes blk 0 }
  | _ => s

theorem State.readBlock_stored (s : State) (source : Nat) (repair : Bool) (blk : Nat) :
    (s.readBlock source repair blk).stored = (if repair && !s.hardBlocks.contains blk then
      s.mended blk (blockVerdict (s.syndrome blk)) else s).stored := by
  unfold State.readBlock
  extract_lets a syn mem u v
  have hsyn : s.syndrome blk = syn := rfl
  have hue : u.stored = s.stored := (State.recordAs_stored ..).trans rfl
  have hcount : v.stored = s.stored := rfl
  have hhard : v.hardBlocks = s.hardBlocks := rfl
  rw [hsyn]
  cases blockVerdict syn with
  | clean => simp [State.mended]
  | ue => simp [State.mended, hue]
  | ceData i j =>
    cases repair <;> cases hblk : s.hardBlocks.contains blk
    all_goals simp only [hhard, hblk, Bool.not_true, Bool.not_false, Bool.true_and, Bool.false_and, Bool.false_eq_true, if_false,
      if_true, State.recordSoft_stored, State.record_stored, State.hardBlock_stored]
    all_goals rfl
  | ceCheck =>
    cases repair <;> cases hblk : s.hardBlocks.contains blk
    all_goals simp only [hhard, hblk, Bool.not_true, Bool.not_false, Bool.true_and, Bool.false_and, Bool.false_eq_true, if_false,
      if_true, State.recordSoft_stored, State.record_stored, State.hardBlock_stored]
    all_goals rfl

section
variable {s t : State} (h : t.stored = s.stored)
include h

theorem State.readBlock_congr (source : Nat) (repair : Bool) (blk : Nat) :
    (t.readBlock source repair blk).stored = (s.readBlock source repair blk).stored := by
  rw [State.readBlock_stored, State.readBlock_stored]
  refine State.congr_of_stored (fun u => (if repair && !u.hardBlocks.contains blk then
    u.mended blk (blockVerdict (u.syndrome blk)) else u).stored) (fun u => ?_) h
  have hsyn : u.stored.syndrome blk = u.syndrome blk := rfl
  have hhard : u.stored.hardBlocks = u.hardBlocks := rfl
  rw [hsyn, hhard]
  split
  · cases blockVerdict (u.syndrome blk) <;> rfl
  · rfl

theorem State.each_stored_congr {α : Type} {f : State → α → State}
    (hf : ∀ {u v : State}, v.stored = u.stored → ∀ x, (f v x).stored = (f u x).stored) (xs : List α) :
    (t.each xs f).stored = (s.each xs f).stored := by
  induction xs generalizing s t with
  | nil => exact h
  | cons x xs ih => exact ih (hf h x)

/-- A step that comes to a line of an overwritten tensor may see either (R275): which, is drawn alike. -/
theorem State.seeLines_congr (y a : Nat) (xs : List StaleLine) (b : List Nat) :
    (t.seeLines y a xs b).1 = (s.seeLines y a xs b).1 ∧ (t.seeLines y a xs b).2.stored = (s.seeLines y a xs b).2.stored := by
  induction xs generalizing s t b with
  | nil => exact ⟨rfl, h⟩
  | cons x xs ih =>
    have hdraw : t.draw.1 = s.draw.1 := State.congr_of_stored (fun u => u.draw.1) (fun _ => rfl) h
    have hsaw (old : Bool) : (t.draw.2.sawLine y x.line old).stored = (s.draw.2.sawLine y x.line old).stored :=
      State.congr_of_stored (fun u => (u.draw.2.sawLine y x.line old).stored) (fun _ => rfl) h
    unfold State.seeLines
    split
    · exact ih h _
    · split
      · dsimp only
        rw [hdraw]
        exact ih (hsaw _) _
      · exact ih h _

theorem State.readFor_congr (step : Option Nat) (source a n : Nat) :
    (t.readFor step source a n).1 = (s.readFor step source a n).1 ∧
      (t.readFor step source a n).2.1 = (s.readFor step source a n).2.1 ∧
      (t.readFor step source a n).2.2.stored = (s.readFor step source a n).2.2.stored := by
  have hblocks : ((if s.anyRetired a n then t.retiredAccess source a n else t).each (s.badBlocks a n)
      (fun u b => u.readBlock source true b)).stored = ((if s.anyRetired a n then s.retiredAccess source a n else s).each
      (s.badBlocks a n) (fun u b => u.readBlock source true b)).stored :=
    State.each_stored_congr (by split <;> simp [h]) (fun hu b => State.readBlock_congr hu source true b) _
  unfold State.readFor
  dsimp only
  rw [State.hasUe_congr h, State.anyRetired_congr h, State.badBlocks_congr h, State.mixedLines_congr h, State.codedBytes_congr h]
  cases step with
  | none => exact ⟨rfl, rfl, hblocks⟩
  | some y =>
    obtain ⟨hbytes, hstored⟩ := State.seeLines_congr hblocks y a (s.mixedLines a n) (s.codedBytes a n)
    exact ⟨hbytes, rfl, hstored⟩

theorem State.readThrough_congr {source : Nat} (hreader : t.readerStep source = s.readerStep source) (a n : Nat) :
    (t.readThrough source a n).1 = (s.readThrough source a n).1 ∧
      (t.readThrough source a n).2.1 = (s.readThrough source a n).2.1 ∧
      (t.readThrough source a n).2.2.stored = (s.readThrough source a n).2.2.stored := by
  unfold State.readThrough
  rw [hreader]
  exact State.readFor_congr h _ source a n

end

/-- Whose reads a unit's reads are depends on what its sequencer runs. -/
theorem State.readerStep_congr {s t : State} (h : ∀ x, (t.seq x).step = (s.seq x).step) (u : Nat) :
    t.readerStep u = s.readerStep u := by
  simp only [State.readerStep, h]

/-- A word of a string's program area, which may go on in another bank. -/
theorem State.readProg_congr {s t : State} (h : t.stored = s.stored) (hseq : ∀ x, (t.seq x).step = (s.seq x).step) (x b : Nat) :
    (t.readProg x b).1 = (s.readProg x b).1 ∧ (t.readProg x b).2.1 = (s.readProg x b).2.1 := by
  have haddr (c : Nat) : t.progAddr x c = s.progAddr x c :=
    State.congr_of_stored (fun u => u.progAddr x c) (fun _ => rfl) h
  obtain ⟨hbytes, hue, hstored⟩ := State.readThrough_congr h (State.readerStep_congr hseq (unitString x)) (s.progAddr x b)
    (min 8 (0x40000 - b % 0x40000))
  have hreader : ((t.readThrough (unitString x) (s.progAddr x b) (min 8 (0x40000 - b % 0x40000))).2.2).readerStep (unitString x) =
      ((s.readThrough (unitString x) (s.progAddr x b) (min 8 (0x40000 - b % 0x40000))).2.2).readerStep (unitString x) := by
    refine State.readerStep_congr (fun y => ?_) _
    rw [State.seq_congr (t.readThrough_runs ..).1, State.seq_congr (s.readThrough_runs ..).1, hseq]
  obtain ⟨hrest, hueRest, -⟩ := State.readThrough_congr hstored hreader
    (s.progAddr x (b + min 8 (0x40000 - b % 0x40000))) (8 - min 8 (0x40000 - b % 0x40000))
  unfold State.readProg
  dsimp only
  rw [haddr, haddr, hbytes, hue, hrest, hueRest]
  split <;> exact ⟨rfl, rfl⟩

/-! ### The bytes of a read -/

@[simp] theorem State.codedBytes_length (s : State) (a n : Nat) : (s.codedBytes a n).length = n := by
  simp [State.codedBytes]

@[simp] theorem putOld_length (a : Nat) (x : StaleLine) (b : List Nat) : (putOld a x b).length = b.length := by
  simp [putOld]

@[simp] theorem State.seeLines_length (s : State) (y a : Nat) (xs : List StaleLine) (b : List Nat) :
    (s.seeLines y a xs b).1.length = b.length := by
  fun_induction State.seeLines with
  | case1 => rfl
  | case2 s b x xs _ ih => rw [ih, putOld_length]
  | case3 s b x xs _ _ d ih =>
    rw [ih]
    split <;> simp
  | case4 s b x xs _ _ ih => exact ih

@[simp] theorem State.readThrough_length (s : State) (source a n : Nat) : (s.readThrough source a n).1.length = n := by
  unfold State.readThrough State.readFor
  dsimp only
  split <;> simp

theorem leValue_lt (b : List Nat) : leValue b < 256 ^ b.length := by
  induction b with
  | nil => exact Nat.one_pos
  | cons x xs ih =>
    rw [leValue, List.length_cons, Nat.pow_succ]
    omega

theorem State.readProg_lt (s : State) (x b : Nat) : (s.readProg x b).1 < 2 ^ 64 := by
  unfold State.readProg
  dsimp only
  split
  · next h =>
    refine (leValue_lt _).trans_eq ?_
    rw [State.readThrough_length, h]
    norm_num
  · refine (leValue_lt _).trans_eq ?_
    rw [List.length_append, State.readThrough_length, State.readThrough_length, Nat.add_sub_cancel' (Nat.min_le_left ..)]
    norm_num

@[simp] theorem State.readProg_seqs (s : State) (x b : Nat) : (s.readProg x b).2.2.seqs = s.seqs := by
  unfold State.readProg
  dsimp only
  split <;> simp

/-! ### LDA -/

theorem execLda_loads {s : State} {x a off : Nat} {y : Step} (ha : a < 16) (hstep : s.seqStep x = some y)
    (h : s.issues x ⟨0x01, [(s.progAddr x (s.dataStart y.part x + off), 8)], []⟩)
    (hue : (s.readProg x (s.dataStart y.part x + off)).2.1 = false) :
    Completes (exec (.lda x a off) s) (fun t => (t.seq x).pos = (s.seq x).advance.pos ∧
      (t.seq x).a a = (s.readProg x (s.dataStart y.part x + off)).1) := by
  obtain ⟨hvalue, hue'⟩ := State.readProg_congr (s.issued_stored x
    ⟨0x01, [(s.progAddr x (s.dataStart y.part x + off), 8)], []⟩) (fun z => s.issued_step x z _) x (s.dataStart y.part x + off)
  have hseq {β : Type} (P : Seq → β) (hP : IgnoresHalt P) := State.issue_seq h hP (go := Seq.advance)
    (f := fun u => if (u.readProg x (s.dataStart y.part x + off)).2.1 then
        (u.readProg x (s.dataStart y.part x + off)).2.2.seqFail x
      else (u.readProg x (s.dataStart y.part x + off)).2.2.setSeqr x
        (((u.readProg x (s.dataStart y.part x + off)).2.2.seq x).setA a (u.readProg x (s.dataStart y.part x + off)).1))
    (fun q => q.setA a (s.readProg x (s.dataStart y.part x + off)).1) (fun _ => ⟨rfl, rfl, rfl⟩)
    (by rw [hvalue, hue', hue, if_neg Bool.false_ne_true, State.seq_setSeqr, State.seq_congr (State.readProg_seqs ..)])
  show Completes (execLda x a off s) _
  unfold execLda
  rw [hstep]
  refine (completes_next ..).2 ⟨hseq Seq.pos (fun _ _ _ _ => rfl), (hseq (Seq.a · a) (fun _ _ _ _ => rfl)).trans ?_⟩
  rw [Seq.a_advance, Seq.a_setA _ ha, Nat.mod_eq_of_lt (s.readProg_lt ..)]

end Sys2Proof.Machine
end

section
/-!
PROOFS. VEC (O6, R177, R187): the vectors of a layer are read once, kept in the retention area beside the other inputs of the
string, and queued in the teams of the layer.
-/
set_option Elab.async false
namespace Sys2Proof.Machine

/-! ### The sequencers -/

@[simp] theorem State.storeInput_seqs (s : State) (p x : Nat) (cs : List (Nat × Nat)) (b : List Nat) :
    (s.storeInput p x cs b).seqs = s.seqs := by
  induction cs generalizing s b with
  | nil => rfl
  | cons c cs ih =>
    rw [State.storeInput, ih]
    exact foldl_keeps (fun a : State × List Nat => a.1.seqs) (fun _ _ => (State.writeThrough_runs ..).1) _ _

@[simp] theorem State.queueVectors_seqs (s : State) (x step layer group occ : Nat) (h : List Nat)
    (vs : List (Nat × Nat × List Nat)) : (s.queueVectors x step layer group occ h vs).seqs = s.seqs := by
  unfold State.queueVectors
  exact State.each_seqs (fun u t => by rw [(State.showTeam_units ..).2.2.1, State.setTeam_seqs]) _ _

@[simp] theorem State.vecInput_seqs (s : State) (x layer group a n vectors occ : Nat) (y : Step) (b : List Nat) :
    (s.vecInput x layer group a n vectors occ y b).seqs = s.seqs := State.queueVectors_seqs ..

/-! ### The string -/

/-- The string after a VEC whose input of `n` bytes it keeps in an area (R187), a restart point before it (R186). -/
def Seq.keepsInput (q : Seq) (area id layer n : Nat) : Seq :=
  { q.mark id layer with
    retained := q.otherInputs id layer (q.occ id layer) ++
      [⟨id, layer, q.occ id layer, placeInput area n (q.otherInputs id layer (q.occ id layer))⟩]
    vecs := Map.set 0 q.vecs (id * 4096 + layer) (q.occ id layer + 1) }

theorem Seq.keepsInput_occ (q : Seq) (area id layer n : Nat) :
    (q.keepsInput area id layer n).occ id layer = q.occ id layer + 1 := by
  simp [Seq.occ, Seq.keepsInput]

/-- A VEC on clean vectors, not run again in a replay, with room for its input. -/
theorem State.vec_keeps {x layer group a vectors n : Nat} {y : Step} {u : State} (hvectors : vectors ≠ 0)
    (hn : n = mxSize (harnessLayer (u.harness y.part) layer).inMx ((harnessLayer (u.harness y.part) layer).rowSegs * 1024))
    (hagain : u.again x y layer = none) (hreach : u.reaches y.part a (n * vectors) = true)
    (hclean : u.cleanAt [(a, n * vectors)])
    (hroom : n * vectors + retainedBytes (((u.seq x).otherInputs y.id layer ((u.seq x).occ y.id layer)).filter
      (fun r => r.step == y.id)) ≤ u.retainArea y.part) :
    (u.vec x layer group a vectors y).seq x = (u.seq x).keepsInput (u.retainArea y.part) y.id layer (n * vectors) := by
  obtain ⟨hbad, hret, hmix⟩ := hclean _ (List.mem_singleton_self _)
  have hmark : (u.setSeqr x ((u.seq x).mark y.id layer)).seq x = (u.seq x).mark y.id layer := State.seq_setSeqr ..
  have hother : ((u.seq x).mark y.id layer).otherInputs y.id layer (((u.seq x).mark y.id layer).occ y.id layer) =
      (u.seq x).otherInputs y.id layer ((u.seq x).occ y.id layer) := rfl
  have hagain' : (u.setSeqr x ((u.seq x).mark y.id layer)).again x y layer = none := by
    rw [State.again, hmark]
    exact hagain
  have hread (source : Nat) : (u.setSeqr x ((u.seq x).mark y.id layer)).readThrough source a (n * vectors) =
      (u.codedBytes a (n * vectors), false, u.setSeqr x ((u.seq x).mark y.id layer)) :=
    State.readThrough_clean (s := u.setSeqr x ((u.seq x).mark y.id layer)) hbad hret source hmix
  have hharness : (u.setSeqr x ((u.seq x).mark y.id layer)).harness y.part = u.harness y.part := rfl
  have hreach' : (u.setSeqr x ((u.seq x).mark y.id layer)).reaches y.part a (n * vectors) = true := hreach
  have harea : (u.setSeqr x ((u.seq x).mark y.id layer)).retainArea y.part = u.retainArea y.part := rfl
  unfold State.vec
  dsimp only
  rw [if_neg hvectors, hagain', hharness, ← hn]
  dsimp only
  rw [hreach', if_neg (by simp), hread, hmark]
  dsimp only
  rw [if_neg Bool.false_ne_true, harea, hother, if_neg (Nat.not_lt.2 hroom), State.seq_congr (State.vecInput_seqs ..)]
  unfold State.retain
  dsimp only
  rw [State.seq_congr (State.storeInput_seqs ..), State.seq_setSeqr, hmark, harea, State.codedBytes_length]
  rfl

theorem execVec_queues {x layer group a vectors : Nat} {y : Step} {l : Layer} {d n : Nat} {s : State} (hstep : s.seqStep x = some y)
    (hl : l = harnessLayer (s.harness y.part) layer) (hd : d = (s.seq x).a a) (hn : n = mxSize l.inMx (l.rowSegs * 1024))
    (h : s.issues x ⟨0x20, [(d, n * vectors)], []⟩) (hstall : s.vecStall x layer d vectors = none) (hvectors : vectors ≠ 0)
    (hagain : s.again x y layer = none) (hreach : s.reaches y.part d (n * vectors) = true) (hclean : s.cleanAt [(d, n * vectors)])
    (hroom : n * vectors + retainedBytes (((s.seq x).otherInputs y.id layer ((s.seq x).occ y.id layer)).filter
      (fun r => r.step == y.id)) ≤ s.retainArea y.part) :
    Completes (exec (.vec x layer group a vectors) s) (fun t => (t.seq x).pos = (s.seq x).advance.pos ∧
      (t.seq x).occ y.id layer = (s.seq x).occ y.id layer + 1 ∧ ⟨y.id, layer, (s.seq x).occ y.id layer, placeInput
        (s.retainArea y.part) (n * vectors) ((s.seq x).otherInputs y.id layer ((s.seq x).occ y.id layer))⟩ ∈
          (t.seq x).retained) := by
  have hst := s.issued_stored x ⟨0x20, [(d, n * vectors)], []⟩
  have harea (c : Touch) : (s.issued x c).retainArea y.part = s.retainArea y.part := by
    rw [State.retainArea, State.issued_harness, State.retainArea]
  have hagain' (c : Touch) : (s.issued x c).again x y layer = none := by
    rw [State.again, s.issued_seq]
    exact hagain
  have hseq {β : Type} (P : Seq → β) (hP : IgnoresHalt P) := State.issue_seq h hP (go := Seq.advance)
    (f := fun u => u.vec x layer group d vectors y) (fun q => q.keepsInput (s.retainArea y.part) y.id layer (n * vectors))
    (fun _ => ⟨rfl, rfl, rfl⟩)
    ((State.vec_keeps hvectors (by rw [State.issued_harness, ← hl, ← hn]) (hagain' _)
      ((State.reaches_congr hst ..).trans hreach) (State.cleanAt_congr hst hclean)
      (by rw [s.issued_seq, harea]; exact hroom)).trans (by rw [harea]))
  show Completes (execVec x layer group a vectors s) _
  unfold execVec
  rw [hstep]
  dsimp only
  rw [← hl, ← hd, ← hn, hstall]
  refine (completes_next ..).2 ⟨hseq Seq.pos (fun _ _ _ _ => rfl),
    (hseq (fun q => q.occ y.id layer) (fun _ _ _ _ => rfl)).trans
      (Seq.keepsInput_occ (s.seq x).issued (s.retainArea y.part) y.id layer (n * vectors)), ?_⟩
  rw [hseq Seq.retained (fun _ _ _ _ => rfl)]
  exact List.mem_append_right _ (List.mem_singleton_self _)

end Sys2Proof.Machine
end

section
/-!
SUPPORT. What a failing step leaves of every sequencer: the tag of its last milepost and the models it loads. Slots, pages, planes
and teams end without a sequencer's part in it.
-/
set_option Elab.async false
namespace Sys2Proof.Machine

/-! ### What touches no sequencer -/

section
variable (s : State)

@[simp] theorem State.record_seqs (sev cls code source : Nat) (ctx : List Nat) :
    (s.record sev cls code source ctx).seqs = s.seqs := (State.record_units ..).2.2.1

@[simp] theorem State.traceEvent_seqs (bit source kind : Nat) (data : List Nat) :
    (s.traceEvent bit source kind data).seqs = s.seqs := (State.traceEvent_units ..).2.2.1

@[simp] theorem State.showTeam_seqs (t : Nat) : (s.showTeam t).seqs = s.seqs := (State.showTeam_units ..).2.2.1

@[simp] theorem State.raiseVec_seqs (fn vec : Nat) : (s.raiseVec fn vec).seqs = s.seqs := by
  simp [State.raiseVec]

@[simp] theorem State.torusRecord_seqs (sev code pos port lane inc value : Nat) :
    (s.torusRecord sev code pos port lane inc value).seqs = s.seqs := by
  simp [State.torusRecord]

@[simp] theorem State.bumpTeam_seqs (t : Nat) (f : Fld) (n : Nat) : (s.bumpTeam t f n).seqs = s.seqs := by
  simp [State.bumpTeam]

/-! Pages and slots -/

@[simp] theorem State.reclaim_seqs (p id : Nat) : (s.reclaim p id).seqs = s.seqs := by
  simp [State.reclaim]

@[simp] theorem State.releasePage_seqs (p id : Nat) : (s.releasePage p id).seqs = s.seqs := by
  simp [State.releasePage]

@[simp] theorem State.unpin_seqs (p id : Nat) : (s.unpin p id).seqs = s.seqs := by
  simp [State.unpin]

@[simp] theorem State.releaseCache_seqs (p slot c : Nat) : (s.releaseCache p slot c).seqs = s.seqs := by
  simp [State.releaseCache]

@[simp] theorem State.leaveWait_seqs (p slot : Nat) : (s.leaveWait p slot).seqs = s.seqs := by
  simp [State.leaveWait, State.takeWaits, State.passFrames]

@[simp] theorem State.abandonTentative_seqs (p slot : Nat) : (s.abandonTentative p slot).seqs = s.seqs := by
  unfold State.abandonTentative
  refine State.each_seqs (fun u c => State.each_seqs (fun v e => ?_) _ _) _ _
  exact v.setPage_seqs ..

@[simp] theorem State.enter_seqs (p g : Nat) (st : SlotSt) (code : Nat) : (s.enter p g st code).seqs = s.seqs := by
  simp [State.enter, State.signalSlot]

@[simp] theorem State.faultSlot_seqs (p g code : Nat) : (s.faultSlot p g code).seqs = s.seqs := by
  simp [State.faultSlot, State.endSlot, State.releaseSeq]

@[simp] theorem State.releasePins_seqs (id : Nat) : (s.releasePins id).seqs = s.seqs := by
  unfold State.releasePins
  split <;> simp

/-! Teams -/

@[simp] theorem State.setGroup_seqs (t g : Nat) (x : Group) : (s.setGroup t g x).seqs = s.seqs := by
  simp [State.setGroup]

@[simp] theorem State.abandonGroups_seqs (id t : Nat) : (s.abandonGroups id t).seqs = s.seqs := by
  simp [State.abandonGroups, State.abandonGroup]

@[simp] theorem State.dropTeamWork_seqs (id t : Nat) : (s.dropTeamWork id t).seqs = s.seqs := by
  unfold State.dropTeamWork
  dsimp only
  refine (State.each_seqs (fun u e => ?_) _ _).trans ?_
  · rfl
  · simp

@[simp] theorem State.claim_seqs (ps : List Place) (v : Nat) : (s.claim ps v).seqs = s.seqs := by
  unfold State.claim
  refine State.each_seqs (fun u z => ?_) _ _
  exact u.setTeam_seqs ..

@[simp] theorem State.swapPlaces_seqs (ps : List Place) (back : Bool) : (s.swapPlaces ps back).seqs = s.seqs := by
  simp [State.swapPlaces]

@[simp] theorem State.rewindMeans_seqs (k : Nat) (y : Step) (before after : SMap Nat) :
    (s.rewindMeans k y before after).seqs = s.seqs := rfl

@[simp] theorem State.showReplay_seqs (p : Nat) : (s.showReplay p).seqs = s.seqs := by
  unfold State.showReplay
  refine State.each_seqs (fun u t => ?_) _ _
  exact u.fput_seqs ..

/-! Planes -/

@[simp] theorem State.hardPlane_seqs (t k blk syn : Nat) : (s.hardPlane t k blk syn).seqs = s.seqs := by
  unfold State.hardPlane State.noteCell
  dsimp only
  repeat' split
  all_goals simp

@[simp] theorem State.readForMerge_seqs (t k plane writer : Nat) (e : Nat × Nat) :
    (s.readForMerge t k plane writer e).seqs = s.seqs := by
  unfold State.readForMerge
  dsimp only
  repeat' split
  all_goals simp

@[simp] theorem State.mergePlaneBlock_seqs (t k plane off n writer : Nat) (e : Nat × Nat) :
    (s.mergePlaneBlock t k plane off n writer e).seqs = s.seqs := by
  unfold State.mergePlaneBlock
  dsimp only
  repeat' split
  all_goals simp

@[simp] theorem State.storePlane_seqs (t k : Nat) (w : PlaneWrite) : (s.storePlane t k w).seqs = s.seqs := by
  simp [State.storePlane]

@[simp] theorem State.planeWrite_seqs (t k : Nat) (w : PlaneWrite) : (s.planeWrite t k w).seqs = s.seqs := by
  simp [State.planeWrite]

@[simp] theorem State.roleWrite_seqs (writer t r plane off : Nat) (b : List Nat) :
    (s.roleWrite writer t r plane off b).seqs = s.seqs := by
  simp [State.roleWrite, State.planeWriteBoth]

end

/-! ### What every sequencer keeps -/

/-- The tag of a sequencer's last milepost and the models that it loads. -/
def Seq.lasting (q : Seq) : Nat × List (Nat × Nat) := (q.tag, q.loading)

theorem Seq.lasting_ignoresHalt : IgnoresHalt Seq.lasting := fun _ _ _ _ => rfl

@[simp] theorem Seq.leave_lasting (q : Seq) (id : Nat) : (q.leave id).lasting = q.lasting := by
  unfold Seq.leave Seq.forget
  dsimp only
  split <;> rfl

/-- No sequencer has another tag or loads other models. -/
def State.KeepsSeqs (s t : State) : Prop := ∀ x, (t.seq x).lasting = (s.seq x).lasting

theorem State.KeepsSeqs.trans {s t u : State} (h : s.KeepsSeqs t) (h' : t.KeepsSeqs u) : s.KeepsSeqs u :=
  fun x => (h' x).trans (h x)

theorem State.KeepsSeqs.tag {s t : State} (h : s.KeepsSeqs t) (x : Nat) : (t.seq x).tag = (s.seq x).tag :=
  congrArg Prod.fst (h x)

theorem State.KeepsSeqs.loading {s t : State} (h : s.KeepsSeqs t) (x : Nat) : (t.seq x).loading = (s.seq x).loading :=
  congrArg Prod.snd (h x)

theorem State.keepsSeqs_of_seqs {s t : State} (h : t.seqs = s.seqs) : s.KeepsSeqs t :=
  fun x => congrArg Seq.lasting (State.seq_congr h x)

theorem State.KeepsSeqs.of_seqs {s t u : State} (h : s.KeepsSeqs t) (hu : u.seqs = t.seqs) : s.KeepsSeqs u :=
  h.trans (State.keepsSeqs_of_seqs hu)

theorem State.each_keepsSeqs {α : Type} {f : State → α → State} (h : ∀ u a, State.KeepsSeqs u (f u a)) (s : State)
    (xs : List α) : s.KeepsSeqs (s.each xs f) :=
  s.each_inv s.KeepsSeqs f (fun t a ht => ht.trans (h t a)) xs (fun _ => rfl)

section
variable (s : State) (x : Nat)

theorem State.setSeqr_keepsSeqs {q : Seq} (h : q.lasting = (s.seq x).lasting) : s.KeepsSeqs (s.setSeqr x q) :=
  State.seq_setSeqr_keeps s x h

theorem State.seqWait_keepsSeqs (w : Option (Nat × Nat × Nat)) : s.KeepsSeqs (s.seqWait x w) :=
  State.seqWait_seq Seq.lasting_ignoresHalt s x w

theorem State.stopWait_keepsSeqs : s.KeepsSeqs (s.stopWait x) := by
  unfold State.stopWait
  split
  · exact fun _ => rfl
  · exact s.seqWait_keepsSeqs x none

theorem State.raiseFlag_keepsSeqs (flag by_ : Nat) : s.KeepsSeqs (s.raiseFlag x flag by_) :=
  s.setSeqr_keepsSeqs x rfl

theorem State.endColl_keepsSeqs (c : Coll) (code port pos : Nat) : s.KeepsSeqs (s.endColl c code port pos) := by
  unfold State.endColl
  extract_lets torus s1 s2 s3
  have h2 : s2.seqs = s.seqs := (State.writeThrough_runs ..).1
  have h3 : s2.KeepsSeqs s3 := s2.raiseFlag_keepsSeqs _ _ _
  refine ((State.keepsSeqs_of_seqs h2).trans h3).of_seqs ?_
  rw [State.seqs_ite, State.seqs_ite, State.torusRecord_seqs]
  simp only [State.bump_seqs, ite_self]

theorem State.abortColls_keepsSeqs (id : Nat) : s.KeepsSeqs (s.abortColls id) :=
  State.each_keepsSeqs (fun u c => u.endColl_keepsSeqs c _ _ _) s _

theorem State.dropExpert_keepsSeqs (h : List Nat) (r : ExpertRun) : s.KeepsSeqs (s.dropExpert x h r) := by
  unfold State.dropExpert
  extract_lets ps s1
  have h1 : s1.seqs = s.seqs := (State.each_seqs (fun u z => by simp) _ _).trans (s.claim_seqs ps 0)
  exact (State.keepsSeqs_of_seqs h1).trans (s1.setSeqr_keepsSeqs x rfl)

theorem State.dropExperts_keepsSeqs (id : Nat) : s.KeepsSeqs (s.dropExperts id x) := by
  unfold State.dropExperts
  split
  · exact fun _ => rfl
  · refine State.each_keepsSeqs (fun u r => ?_) s _
    dsimp only
    split
    · exact fun _ => rfl
    · split
      · exact u.dropExpert_keepsSeqs x _ r
      · exact (u.dropExpert_keepsSeqs x _ r).of_seqs (State.swapPlaces_seqs ..)

theorem State.dropSeq_keepsSeqs (id : Nat) : s.KeepsSeqs (s.dropSeq id x) := by
  unfold State.dropSeq
  split
  · exact (s.stopWait_keepsSeqs x).trans (State.setSeqr_keepsSeqs _ x (Seq.leave_lasting ..))
  · exact s.setSeqr_keepsSeqs x (Seq.leave_lasting ..)

/-! A string that starts what waits on it -/

theorem State.beginSeq_keepsSeqs (y : Step) : s.KeepsSeqs (s.beginSeq x y) := by
  unfold State.beginSeq
  extract_lets s1 q s2
  have h2 : s1.KeepsSeqs s2 := s1.setSeqr_keepsSeqs x rfl
  refine ((s.stopWait_keepsSeqs x).trans h2).of_seqs (State.each_seqs (fun u k => ?_) _ _)
  split
  · exact u.rewindMeans_seqs ..
  · exact u.setTeam_seqs ..

theorem State.rebeginSeq_keepsSeqs (y : Step) : s.KeepsSeqs (s.rebeginSeq x y) := by
  unfold State.rebeginSeq
  extract_lets q0 q
  split
  · exact s.setSeqr_keepsSeqs x (s.stopWait_keepsSeqs x x)
  · next r _ =>
    have h : (s.stopWait x).KeepsSeqs ((s.stopWait x).setSeqr x (q.restartAt y.id r)) :=
      State.setSeqr_keepsSeqs _ x rfl
    refine ((s.stopWait_keepsSeqs x).trans h).of_seqs (State.each_seqs (fun u k => ?_) _ _)
    exact u.rewindMeans_seqs ..

theorem State.startSeq_keepsSeqs : s.KeepsSeqs (s.startSeq x) := by
  unfold State.startSeq
  dsimp only
  repeat' split
  · exact fun _ => rfl
  · exact fun _ => rfl
  · exact s.setSeqr_keepsSeqs x rfl
  · exact s.rebeginSeq_keepsSeqs x _
  · exact s.seqWait_keepsSeqs x _
  · exact s.beginSeq_keepsSeqs x _

end

/-! A step that fails -/

section
variable (s : State) (id : Nat)

theorem State.abandonStep_keepsSeqs : s.KeepsSeqs (s.abandonStep id) := by
  unfold State.abandonStep
  split
  · exact fun _ => rfl
  · next y _ =>
    extract_lets s1 s2 s3
    have h1 : s.KeepsSeqs s1 :=
      ((State.keepsSeqs_of_seqs (s.releasePins_seqs id)).trans (State.abortColls_keepsSeqs _ id)).of_seqs rfl
    have h2 : s1.KeepsSeqs s2 := State.keepsSeqs_of_seqs (State.each_seqs (fun u t => by simp) _ _)
    have h3 : s2.KeepsSeqs s3 := State.each_keepsSeqs
      (fun u k => (u.dropExperts_keepsSeqs k id).trans (State.dropSeq_keepsSeqs _ k id)) _ _
    have h4 (u : State) (hu : u.seqs = s3.seqs) : s3.KeepsSeqs ((u.showReplay y.part).startSeqs y.part) :=
      ((State.keepsSeqs_of_seqs hu).of_seqs (u.showReplay_seqs y.part)).trans
        (State.each_keepsSeqs (fun v k => v.startSeq_keepsSeqs k) _ _)
    exact (h1.trans (h2.trans h3)).trans (h4 _ rfl)

theorem State.abandonBoth_keepsSeqs : s.KeepsSeqs (s.abandonBoth id) := by
  unfold State.abandonBoth
  split
  · exact fun _ => rfl
  · dsimp only
    split
    · exact (s.abandonStep_keepsSeqs id).trans (State.abandonStep_keepsSeqs _ _)
    · exact s.abandonStep_keepsSeqs id

theorem State.failStep_keepsSeqs : s.KeepsSeqs (s.failStep id) := by
  unfold State.failStep State.failStepWith
  split
  · exact fun _ => rfl
  · exact (State.keepsSeqs_of_seqs (State.each_seqs (fun u g => u.faultSlot_seqs ..) _ _)).trans
      (State.abandonBoth_keepsSeqs _ id)

theorem State.seqFail_keepsSeqs (x : Nat) : s.KeepsSeqs (s.seqFail x) := by
  unfold State.seqFail
  split
  · exact s.failStep_keepsSeqs _
  · exact fun _ => rfl

end

end Sys2Proof.Machine
end

section
/-!
PROOFS. LOADM's completion and MILEPOST (O6, R188, R186): whatever fails while the records of a model are written or a dump is
copied, the load ends, and the milepost is reported with its tag.
-/
set_option Elab.async false
namespace Sys2Proof.Machine

/-! ### The end of a load -/

/-- A record that is written, or the step that fails on it. -/
theorem State.loadRecord_keepsSeqs (s : State) (x unit : Nat) (remote : List (Nat × List Nat)) (e : Nat × Place) :
    s.KeepsSeqs (s.loadRecord x unit remote e) := by
  have hread : s.KeepsSeqs (s.readThrough (unitTeam e.2.team) (stageAddr unit e.1) recordBytes).2.2 :=
    State.keepsSeqs_of_seqs (State.readThrough_runs ..).1
  unfold State.loadRecord
  split
  · split
    · exact State.keepsSeqs_of_seqs (by simp)
    · exact fun _ => rfl
  · dsimp only
    split
    · exact hread.trans (State.seqFail_keepsSeqs _ x)
    · exact hread.of_seqs (by simp)

theorem execLoadmComplete_ends {s : State} {x model p : Nat} {remote : List (Nat × List Nat)} (hpart : s.stringPart x = some p)
    (hload : (s.seq x).loads model = true) (hhere : remoteTier (harnessModel (s.harness p) model).stageUnit = false) :
    Completes (exec (.loadmComplete x model remote) s) (fun t =>
      (t.seq x).loading = (s.seq x).loading.filter (fun e => e.1 != model)) := by
  have hrecords : s.KeepsSeqs (s.each (modelRecords (s.harness p) model x)
      (fun u e => u.loadRecord x (harnessModel (s.harness p) model).stageUnit remote e)) :=
    State.each_keepsSeqs (f := fun u e => u.loadRecord x (harnessModel (s.harness p) model).stageUnit remote e)
      (fun u e => u.loadRecord_keepsSeqs x _ remote e) s _
  show Completes (execLoadmComplete x model remote s) _
  unfold execLoadmComplete
  rw [hpart]
  dsimp only
  rw [hload, hhere, if_neg (by simp), if_neg (by simp)]
  refine (completes_next ..).2 ?_
  rw [State.seq_setSeqr]
  dsimp only
  rw [hrecords.loading]

/-! ### MILEPOST -/

@[simp] theorem State.copyDump_steps (s : State) (x tag attempt i : Nat) : (s.copyDump x tag attempt i).steps = s.steps := by
  unfold State.copyDump
  split
  · rfl
  · dsimp only
    split
    · rfl
    · simp [State.setDump]

/-- A milepost that does not wait for a dump is reported with its tag, and the step no longer waits for the string (R186). -/
theorem execMilepost_reports {s : State} {x tag : Nat} {y : Step} (hstep : s.seqStep x = some y) (h : s.issues x ⟨0x3E, [], []⟩)
    (hdump : (s.dumpsOf y.part tag).isEmpty = true ∨ s.dumpStall x y = none) : Completes (exec (.milepost x tag) s) (fun t =>
      (t.seq x).tag = tag ∧ ∃ z, t.step? y.id = some z ∧ z.waiting = y.waiting.filter (· != x)) := by
  have hstall : (if (s.dumpsOf y.part tag).isEmpty then none else s.dumpStall x y) = none := by
    split
    · rfl
    · next hnot => exact hdump.resolve_left hnot
  have hissued (c : Touch) : (s.issued x c).step? y.id = s.step? y.id :=
    (s.issued_showsOnly x c).same (fun u => u.step? y.id) (fun _ _ => rfl)
  have hcopies (u : State) (attempt : Nat) :
      (u.each (s.dumpsOf y.part tag) (fun v i => v.copyDump x tag attempt i)).steps = u.steps :=
    State.each_steps (f := fun v i => v.copyDump x tag attempt i) (fun v i => v.copyDump_steps ..) u _
  show Completes (execMilepost x tag s) _
  unfold execMilepost
  rw [hstep]
  dsimp only
  rw [hstall]
  refine (completes_next ..).2 ⟨?_, ?_⟩
  · rw [State.issue_onward h, State.onward_seq_keeps (P := Seq.tag) (go := Seq.advance) (fun _ _ _ _ => rfl) (fun _ => rfl),
      (State.startSeq_keepsSeqs _ x).tag, State.countOp_seq, State.seq_congr (State.modStep_seqs ..), State.seq_setSeqr]
  · refine ⟨{ y with waiting := y.waiting.filter (· != x) }, ?_, rfl⟩
    refine (State.issue_same h (fun u => u.step? y.id) (fun _ _ => rfl) _).trans ?_
    rw [State.step?_congr (State.startSeq_steps ..), State.step?_congr (State.countOp_steps ..)]
    refine State.step?_modStep (f := fun z => { z with waiting := z.waiting.filter (· != x) }) ?_ (fun _ => rfl)
    rw [State.step?_congr (State.setSeqr_steps ..), State.step?_congr (hcopies _ _)]
    rw [hissued, State.step?_of_seqStep hstep]

/-- Settles O6: each instruction by its lemma above. -/
theorem sequencerInstructionsComplete : Obligations.SequencerInstructionsComplete := by
  unfold Obligations.SequencerInstructionsComplete
  exact ⟨fun x s => execNop_advances,
    fun x a off y s => execLda_loads,
    fun x a imm s => execAdda_adds,
    fun x count len s => execLoop_loops,
    fun x team a y u r s => execGopen_opens,
    fun x team group s => execGclose_closes,
    fun x team group s => execGwait_passes,
    fun x layer group a vectors y l d n s => execVec_queues,
    fun x model y s => execLoadm_begins,
    fun x model p remote s hpart hload hhere _ _ _ => execLoadmComplete_ends hpart hload hhere,
    fun x model p e s => execRemoteTierWaitExpire_fails,
    fun x model team y s hstep => execSwapPlanes_queues hstep,
    fun x model a team y s hstep => execSwapat_queues hstep,
    fun x str flag s => execSignal_raises,
    fun x flag count s => execWaitf_takes,
    fun x a y u r q b c s hstep h hu hreach hr hue hstatus hgood hring hfrom hto hq hload hfields =>
      execColl_joins hstep h hu hreach hr hue hstatus hgood hring hfrom hto hq hload (State.issuedColl_of_fields hfields),
    fun x tag y s => execMilepost_reports,
    fun x s => execSeqEnd_ends,
    fun x y s => execBadInstructionFetch_faults⟩

end Sys2Proof.Machine
end

section
/-!
PROOFS. Elementwise vector operations (O7, O58, R181, R182): each is a function of the operands' elements that keeps their count,
so that its result is as long as its destination; and what such an instruction leaves as it is.
-/
set_option Elab.async false
namespace Sys2Proof.Machine

/-! ### The results are as many elements as the operands -/

theorem zip2_length (f : Nat → Nat → Nat) (as bs : List Nat) : (zip2 f as bs).length = min as.length bs.length := by
  simp [zip2]

theorem vuRmsNorm_length (as bs : List Nat) : (vuRmsNorm as bs).length = min as.length bs.length := by
  simp only [vuRmsNorm, zip2_length]

theorem vuSoftmax_length (as : List Nat) : (vuSoftmax as).length = as.length := by
  simp [vuSoftmax]

/-! ### Elementwise operations complete -/

section
variable {x team count a b d cnt : Nat} {half : Bool} {y : Step} {s : State} (hstep : s.seqStep x = some y)
include hstep

theorem State.vu1_eq (f : List Nat → List Nat) : s.vu1 x team half a d count cnt f =
    s.vuIssue x team y [((s.seq x).a a, elemBytes half * count)] ((s.seq x).a d, elemBytes half * count)
      (fun bs => storeElems half (f (elems half count (bs.getD 0 [])))) (fun u => u.countOp x cnt count) := by
  rw [State.vu1, hstep]

theorem State.vu2_eq (f : List Nat → List Nat → List Nat) : s.vu2 x team half a b d count cnt f =
    s.vuIssue x team y [((s.seq x).a a, elemBytes half * count), ((s.seq x).a b, elemBytes half * count)]
      ((s.seq x).a d, elemBytes half * count)
      (fun bs => storeElems half (f (elems half count (bs.getD 0 [])) (elems half count (bs.getD 1 []))))
      (fun u => u.countOp x cnt count) := by
  rw [State.vu2, hstep]

/-- An elementwise operation of one operand writes its result (R181). -/
theorem State.vu1_writes {f : List Nat → List Nat} (hf : ∀ ws, (f ws).length = ws.length) (h : s.VuReady x team y
      ⟨0x30, [((s.seq x).a a, elemBytes half * count)], [((s.seq x).a d, elemBytes half * count)]⟩
      [((s.seq x).a a, elemBytes half * count), ((s.seq x).a d, elemBytes half * count)]) :
    Completes (.next (s.vu1 x team half a d count cnt f)) (fun t => (t.seq x).pos = (s.seq x).advance.pos ∧
      t.mem = (s.writeBytes ((s.seq x).a d) (storeElems half (f (s.elemsAt half ((s.seq x).a a) count)))).mem) := by
  rw [State.vu1_eq hstep]
  exact (completes_next ..).2 (State.vuIssue_writes h (by simp [hf]) _ _)

/-- An elementwise operation of two operands writes its result (R181). -/
theorem State.vu2_writes {f : List Nat → List Nat → List Nat} (hf : ∀ as bs, (f as bs).length = min as.length bs.length)
    (h : s.VuReady x team y
      ⟨0x30, [((s.seq x).a a, elemBytes half * count), ((s.seq x).a b, elemBytes half * count)],
        [((s.seq x).a d, elemBytes half * count)]⟩
      [((s.seq x).a a, elemBytes half * count), ((s.seq x).a b, elemBytes half * count),
        ((s.seq x).a d, elemBytes half * count)]) :
    Completes (.next (s.vu2 x team half a b d count cnt f)) (fun t => (t.seq x).pos = (s.seq x).advance.pos ∧
      t.mem = (s.writeBytes ((s.seq x).a d) (storeElems half
        (f (s.elemsAt half ((s.seq x).a a) count) (s.elemsAt half ((s.seq x).a b) count)))).mem) := by
  rw [State.vu2_eq hstep]
  exact (completes_next ..).2 (State.vuIssue_writes h (by simp [hf]) _ _)

/-- FMA reads its destination as its third operand. -/
theorem execVuFma_writes (h : s.VuReady x team y
      ⟨0x30, [((s.seq x).a a, elemBytes half * count), ((s.seq x).a b, elemBytes half * count),
        ((s.seq x).a d, elemBytes half * count)], [((s.seq x).a d, elemBytes half * count)]⟩
      [((s.seq x).a a, elemBytes half * count), ((s.seq x).a b, elemBytes half * count),
        ((s.seq x).a d, elemBytes half * count), ((s.seq x).a d, elemBytes half * count)]) :
    Completes (exec (.vuFma x team half a b d count) s) (fun t => (t.seq x).pos = (s.seq x).advance.pos ∧
      t.mem = (s.writeBytes ((s.seq x).a d) (storeElems half (((s.elemsAt half ((s.seq x).a a) count).zip
        ((s.elemsAt half ((s.seq x).a b) count).zip (s.elemsAt half ((s.seq x).a d) count))).map
          (fun e => ffma e.1 e.2.1 e.2.2)))).mem) := by
  show Completes (execVuFma x team half a b d count s) _
  unfold execVuFma
  rw [hstep]
  exact (completes_next ..).2 (State.vuIssue_writes h (by simp) _ _)

end

/-- Settles O7: an operation of one operand, of two, or FMA, by the lemma for it. -/
theorem vectorElementOperationsComplete : Obligations.VectorElementOperationsComplete := by
  unfold Obligations.VectorElementOperationsComplete
  have one (f : Nat → Nat) (ws : List Nat) : (ws.map f).length = ws.length := List.length_map ..
  exact ⟨fun x team half a d count y s hstep hissue hstall hreach hclean =>
      State.vu1_writes (f := id) hstep (fun _ => rfl) ⟨hissue, hstall, hreach, hclean⟩,
    fun x team half a b d count y s hstep hissue hstall hreach hclean =>
      State.vu2_writes hstep (zip2_length fadd) ⟨hissue, hstall, hreach, hclean⟩,
    fun x team half a b d count y s hstep hissue hstall hreach hclean =>
      State.vu2_writes hstep (zip2_length fmul) ⟨hissue, hstall, hreach, hclean⟩,
    fun x team half a b d count y s hstep hissue hstall hreach hclean =>
      execVuFma_writes hstep ⟨hissue, hstall, hreach, hclean⟩,
    fun x team half a b d count y s hstep hissue hstall hreach hclean =>
      State.vu2_writes hstep (zip2_length fmax) ⟨hissue, hstall, hreach, hclean⟩,
    fun x team half a d count y s hstep hissue hstall hreach hclean =>
      State.vu1_writes hstep (one fexp) ⟨hissue, hstall, hreach, hclean⟩,
    fun x team half a d count y s hstep hissue hstall hreach hclean =>
      State.vu1_writes hstep (one frsqrt) ⟨hissue, hstall, hreach, hclean⟩,
    fun x team half a d count y s hstep hissue hstall hreach hclean =>
      State.vu1_writes hstep (one frecip) ⟨hissue, hstall, hreach, hclean⟩,
    fun x team half a d count y s hstep hissue hstall hreach hclean =>
      State.vu1_writes hstep (one fsilu) ⟨hissue, hstall, hreach, hclean⟩,
    fun x team half a d count y s hstep hissue hstall hreach hclean =>
      State.vu1_writes hstep (one fgelu) ⟨hissue, hstall, hreach, hclean⟩,
    fun x team half a b d count y s hstep hissue hstall hreach hclean =>
      State.vu2_writes hstep vuRmsNorm_length ⟨hissue, hstall, hreach, hclean⟩,
    fun x team half a d count y s hstep hissue hstall hreach hclean =>
      State.vu1_writes hstep vuSoftmax_length ⟨hissue, hstall, hreach, hclean⟩⟩

/-! ### What an operation leaves as it is -/

theorem State.seqWait_seq_ne (s : State) {x k : Nat} (w : Option (Nat × Nat × Nat)) (h : x ≠ k) :
    (s.seqWait x w).seq k = s.seq k := by
  unfold State.seqWait
  dsimp only
  split
  · split
    · rfl
    · rw [State.seq_congr (State.showWait_units ..).2.2.1, State.seq_setSeqr_ne _ _ h]
  · rw [State.seq_congr (State.showWait_units ..).2.2.1, State.seq_setSeqr_ne _ _ h]

theorem State.haltSeq_seq_ne (s : State) {x k : Nat} (cause bp : Nat) (h : x ≠ k) : (s.haltSeq x cause bp).seq k = s.seq k := by
  unfold State.haltSeq
  rw [State.seqWait_seq_ne _ _ h]
  exact State.seq_setSeqr_ne s _ h

/-- What follows an effect concerns no other string. -/
theorem State.onward_other_seq (s u : State) {x k : Nat} (go : Seq → Seq) (h : x ≠ k) : (s.onward x go u).seq k = u.seq k := by
  unfold State.onward
  extract_lets v
  have hv : v.seq k = u.seq k := by
    unfold v
    split
    · exact State.seq_setSeqr_ne _ _ h
    · rfl
  rw [← hv]
  split
  · exact State.haltSeq_seq_ne v 2 0 h
  · rfl

/-- A write to a clean range changes memory and which lines are seen as they were, and nothing else. -/
theorem State.writeThrough_clean_same {β : Type} (P : State → β)
    (hmem : ∀ (s : State) (m : List Host.Cell), P { s with mem := m } = P s)
    (hlines : ∀ (s : State) (a n : Nat), P (s.settleLines a n) = P s) {s : State} {a n : Nat} {bs : List Nat}
    (hclean : s.cleanAt [(a, n)]) (hlen : bs.length = n) (source : Nat) : P (s.writeThrough source a bs) = P s := by
  obtain ⟨hbad, hret, -⟩ := hclean (a, n) (List.mem_singleton_self _)
  subst hlen
  rw [State.writeThrough_clean hbad hret, State.writeBytes_same P hmem, hlines]

section
variable {s : State} {x team i n : Nat} {y : Step} {reads : List (Nat × Nat)} {dst : Nat × Nat} {f : List (List Nat) → List Nat}
  (h : s.VuReady x team y ⟨0x30, reads, [dst]⟩ (reads ++ [dst]))
  (hlen : (f (reads.map (fun r => s.codedBytes r.1 r.2))).length = dst.2)
include h

/-- A vector instruction on clean operands within reach, as the write of its result and what follows it. -/
theorem State.vuIssue_eq : s.vuIssue x team y reads dst f (fun u => u.countOp x i n) =
    s.onward x Seq.advance (((s.issued x ⟨0x30, reads, [dst]⟩).writeThrough (unitTeam (24 * x + team % 24)) dst.1
      (f (reads.map (fun r => s.codedBytes r.1 r.2)))).countOp x i n) := by
  have hrun := State.vuRun_writes (x := x) (t := 24 * x + team % 24) (f := f) h.issued_reach h.issued_clean
    (fun u => u.countOp x i n)
  simp only [State.codedBytes_congr (s.issued_stored x _)] at hrun
  unfold State.vuIssue
  dsimp only
  rw [h.stall, State.issue_onward h.issues, hrun]

theorem State.vuIssue_other_seq {k : Nat} (hk : x ≠ k) :
    (s.vuIssue x team y reads dst f (fun u => u.countOp x i n)).seq k = s.seq k := by
  rw [State.vuIssue_eq h, State.onward_other_seq _ _ _ hk, State.countOp_seq, State.seq_congr (State.writeThrough_runs ..).1,
    State.issued_seq_ne _ _ hk]

include hlen

/-- Outside its destination every byte reads as it did. -/
theorem State.vuIssue_readByte {e : Nat} (he : e < dst.1 ∨ dst.1 + dst.2 ≤ e) :
    (s.vuIssue x team y reads dst f (fun u => u.countOp x i n)).readByte e = s.readByte e := by
  rw [State.readByte_congr (State.vuIssue_writes h hlen i n).2]
  exact State.readByte_writeBytes_out s _ (by rwa [hlen])

theorem State.vuIssue_same {β : Type} (P : State → β) (hshow : ∀ s u : State, P (s.behind u) = P s)
    (hmem : ∀ (s : State) (m : List Host.Cell), P { s with mem := m } = P s)
    (hlines : ∀ (s : State) (a n : Nat), P (s.settleLines a n) = P s) :
    P (s.vuIssue x team y reads dst f (fun u => u.countOp x i n)) = P s := by
  have hdst : (s.issued x ⟨0x30, reads, [dst]⟩).cleanAt [(dst.1, dst.2)] :=
    fun r hr => h.issued_clean r (List.mem_append_right _ hr)
  rw [State.vuIssue_eq h, (State.onward_showsOnly ..).same P hshow, (State.countOp_showsOnly ..).same P hshow,
    State.writeThrough_clean_same P hmem hlines hdst hlen, (s.issued_showsOnly ..).same P hshow]

end

section
variable {x team count a b d : Nat} {half : Bool} {y : Step} {s : State} (hstep : s.seqStep x = some y)
include hstep

/-- COPY, ADD, MUL and MAX issue with their operands, and answer as many elements as they read. -/
theorem exec_elementwise_issues {c : Instr} {reads : List (Nat × Nat)}
    (hc : (c = .vuCopy x team half a d count ∧ reads = [((s.seq x).a a, elemBytes half * count)]) ∨
      (c ∈ [.vuAdd x team half a b d count, .vuMul x team half a b d count, .vuMax x team half a b d count] ∧
        reads = [((s.seq x).a a, elemBytes half * count), ((s.seq x).a b, elemBytes half * count)])) :
    ∃ (f : List (List Nat) → List Nat) (i : Nat), (∀ bs, (f bs).length = elemBytes half * count) ∧
      exec c s = .next (s.vuIssue x team y reads ((s.seq x).a d, elemBytes half * count) f (fun u => u.countOp x i count)) := by
  rcases hc with ⟨rfl, rfl⟩ | ⟨hc, rfl⟩
  · exact ⟨_, _, fun bs => by simp, congrArg Host.Outcome.next (State.vu1_eq hstep id)⟩
  · simp only [List.mem_cons, List.not_mem_nil, or_false] at hc
    rcases hc with rfl | rfl | rfl
    · exact ⟨_, _, fun bs => by simp [zip2_length], congrArg Host.Outcome.next (State.vu2_eq hstep (zip2 fadd))⟩
    · exact ⟨_, _, fun bs => by simp [zip2_length], congrArg Host.Outcome.next (State.vu2_eq hstep (zip2 fmul))⟩
    · exact ⟨_, _, fun bs => by simp [zip2_length], congrArg Host.Outcome.next (State.vu2_eq hstep (zip2 fmax))⟩

end

/-- Settles O58: the destination is as long as the result, and the string is the one that issues. -/
theorem frameOfVectorOperations : Obligations.FrameOfVectorOperations := by
  unfold Obligations.FrameOfVectorOperations
  intro x team a b d count k e half s t y c reads hc hstep hissue hstall hreach hclean hexec
  obtain ⟨f, i, hlen, hnext⟩ := exec_elementwise_issues hstep hc
  obtain rfl := Host.Outcome.next.inj (hnext.symm.trans hexec)
  have hready : s.VuReady x team y _ _ := ⟨hissue, hstall, hreach, hclean⟩
  have same {β : Type} (P : State → β) := State.vuIssue_same (i := i) (n := count) hready (hlen _) P
  exact ⟨State.vuIssue_readByte hready (hlen _), same State.nv (fun _ _ => rfl) (fun _ _ => rfl) (fun _ _ _ => rfl),
    same State.kv (fun _ _ => rfl) (fun _ _ => rfl) (fun _ _ _ => rfl),
    same State.slots (fun _ _ => rfl) (fun _ _ => rfl) (fun _ _ _ => rfl),
    same State.teams (fun _ _ => rfl) (fun _ _ => rfl) (fun _ _ _ => rfl),
    same State.clocks (fun _ _ => rfl) (fun _ _ => rfl) (fun _ _ _ => rfl),
    fun hk => State.vuIssue_other_seq hready (Ne.symm hk)⟩

end Sys2Proof.Machine
end

section
/-!
PROOFS. NOP, ADDA, LOOP, SIGNAL and WAITF (O57, R184): what they leave of the state and of the sequencers, whether they issue,
stall or halt; and the address register beyond the sixteen that R184 gives, at which O57 fails.
-/
set_option Elab.async false
namespace Sys2Proof.Machine

/-! ### An instruction, whether it issues or not -/

/-- A string that cannot issue does nothing; else it halts at a breakpoint, waits for a reason, or the instruction has its
effect. -/
theorem State.issue_cases (s : State) (x : Nat) (c : Touch) (stall : Option (Nat × Nat × Nat)) (go : Seq → Seq)
    (f : State → State) :
    s.issue x c stall go f = s ∨
    (∃ k, s.issue x c stall go f = (s.each (s.hits x c) (fun u k => u.breakHit x k)).haltSeq x 3 k) ∨
    (∃ w, s.issue x c stall go f = s.seqWait x (some w)) ∨
    s.issue x c stall go f = s.onward x go (f (s.issued x c)) := by
  by_cases hcan : s.canIssue x = true
  · cases hbp : s.haltingBp x (s.hits x c) with
    | some k =>
      refine .inr (.inl ⟨k, ?_⟩)
      unfold State.issue
      rw [if_neg (by simp [hcan])]
      dsimp only
      rw [hbp]
    | none =>
      cases stall with
      | some w =>
        refine .inr (.inr (.inl ⟨w, ?_⟩))
        unfold State.issue
        rw [if_neg (by simp [hcan])]
        dsimp only
        rw [hbp]
      | none => exact .inr (.inr (.inr (State.issue_onward ⟨hcan, hbp⟩ go f)))
  · left
    unfold State.issue
    rw [if_pos (by simp [hcan])]

section
variable {s : State} {x : Nat} {c : Touch} {stall : Option (Nat × Nat × Nat)} {go : Seq → Seq} {f : State → State}

theorem State.issue_showsOnly (hf : ∀ u : State, u.ShowsOnly (f u)) : s.ShowsOnly (s.issue x c stall go f) := by
  rcases s.issue_cases x c stall go f with h | ⟨k, h⟩ | ⟨w, h⟩ | h <;> rw [h]
  · exact .refl s
  · exact (State.each_showsOnly (fun u k => u.breakHit_showsOnly x k) s _).trans (State.haltSeq_showsOnly ..)
  · exact s.seqWait_showsOnly x _
  · exact ((s.issued_showsOnly x c).trans (hf _)).trans (State.onward_showsOnly ..)

/-- What neither a halt, the issue, the effect nor, of the string itself, the code position changes of a sequencer. -/
theorem State.issue_seq_keeps {β : Type} {P : Seq → β} (hP : IgnoresHalt P) (hissued : ∀ q : Seq, P q.issued = P q) {k : Nat}
    (hgo : x = k → ∀ q, P (go q) = P q) (hf : ∀ u : State, P ((f u).seq k) = P (u.seq k)) :
    P ((s.issue x c stall go f).seq k) = P (s.seq k) := by
  have heach : (s.each (s.hits x c) (fun u i => u.breakHit x i)).seqs = s.seqs := by simp
  rcases s.issue_cases x c stall go f with h | ⟨i, h⟩ | ⟨w, h⟩ | h <;> rw [h]
  · rw [State.haltSeq_seq hP, State.seq_congr heach]
  · exact State.seqWait_seq hP s x _ k
  · by_cases hk : x = k
    · subst hk
      rw [State.onward_seq_keeps hP (hgo rfl), hf, State.issued_seq, hissued]
    · rw [State.onward_seq_ne hP _ _ _ hk, hf, State.issued_seq_ne _ _ hk]

end

/-! ### The instructions -/

/-- The address registers, code position and loops of a sequencer. -/
def Seq.place (q : Seq) : List Nat × Nat × List LoopFrame := (q.regs, q.pos, q.loops)

@[simp] theorem Seq.loop_regs (q : Seq) (count len : Nat) : (q.loop count len).regs = q.regs := by
  unfold Seq.loop
  split <;> rfl

/-- NOP, LOOP, SIGNAL and WAITF issue with an effect on flags at most, and leave the address registers. -/
theorem exec_flow_issues {x str flag count len : Nat} {s : State} {c : Instr}
    (hc : c ∈ [.nop x, .loop x count len, .signal x str flag, .waitf x flag count]) :
    ∃ (op : Nat) (stall : Option (Nat × Nat × Nat)) (go : Seq → Seq) (f : State → State),
      exec c s = .next (s.issue x (touchNone op) stall go f) ∧ (∀ q, (go q).regs = q.regs) ∧
      (∀ u : State, u.ShowsOnly (f u)) ∧ ∀ (u : State) (k : Nat), ((f u).seq k).place = (u.seq k).place := by
  simp only [List.mem_cons, List.not_mem_nil, or_false] at hc
  rcases hc with rfl | rfl | rfl | rfl
  · exact ⟨_, _, _, _, rfl, fun _ => rfl, .refl, fun _ _ => rfl⟩
  · exact ⟨_, _, _, _, rfl, fun q => q.loop_regs count len, .refl, fun _ _ => rfl⟩
  · exact ⟨_, _, _, _, rfl, fun _ => rfl, fun u => by simp,
      fun u k => State.seq_setSeqr_keeps (P := Seq.place) u str (by rfl) k⟩
  · exact ⟨_, _, _, _, rfl, fun _ => rfl, fun u => by simp,
      fun u k => State.seq_setSeqr_keeps (P := Seq.place) u x (by rfl) k⟩

theorem Seq.a_setA_ne (q : Seq) {a r : Nat} (hr : r < 16) (hne : r ≠ a) (v : Nat) : (q.setA a v).a r = q.a r := by
  simp [Seq.a, Seq.setA, hr, hne]

/-- ADDA issues with an effect on its own string, and there on the register it names alone. -/
theorem exec_adda_issues (x a : Nat) (imm : Int) (s : State) : ∃ f : State → State,
    exec (.adda x a imm) s = .next (s.issue x (touchNone 0x02) none Seq.advance f) ∧ (∀ u : State, u.ShowsOnly (f u)) ∧
      (∀ (u : State) (k : Nat), k ≠ x → (f u).seq k = u.seq k) ∧
      ∀ (u : State) (r : Nat), r < 16 → r ≠ a → ((f u).seq x).a r = (u.seq x).a r :=
  ⟨_, rfl, fun u => by simp, fun u k hk => State.seq_setSeqr_ne u _ (Ne.symm hk),
    fun u r hr hne => by rw [State.seq_setSeqr, Seq.a_setA_ne _ hr hne]⟩

/-- O57 as it holds: nothing but registers, sequencers, trace, counters and pins changes, and of the sixteen address registers of
R184 ADDA changes the one it names alone. -/
theorem exec_flow_frame {x a str flag count len : Nat} {imm : Int} {s t : State} {c : Instr}
    (hc : c ∈ [.nop x, .adda x a imm, .loop x count len, .signal x str flag, .waitf x flag count]) (hexec : exec c s = .next t) :
    s.ShowsOnly t ∧ (∀ k, k ≠ x → (t.seq k).place = (s.seq k).place) ∧
      (c = .adda x a imm → ∀ r, r < 16 → r ≠ a → (t.seq x).a r = (s.seq x).a r) ∧
      (c ≠ .adda x a imm → (t.seq x).regs = (s.seq x).regs) := by
  by_cases hadda : c = .adda x a imm
  · subst hadda
    obtain ⟨f, hnext, hshow, hother, hreg⟩ := exec_adda_issues x a imm s
    obtain rfl := Host.Outcome.next.inj (hnext.symm.trans hexec)
    exact ⟨State.issue_showsOnly hshow,
      fun k hk => State.issue_seq_keeps (P := Seq.place) (fun _ _ _ _ => rfl) (fun _ => rfl) (fun h => absurd h.symm hk)
        (fun u => congrArg Seq.place (hother u k hk)),
      fun _ r hr hne => State.issue_seq_keeps (P := (Seq.a · r)) (fun _ _ _ _ => rfl) (fun _ => rfl) (fun _ _ => rfl)
        (fun u => hreg u r hr hne),
      fun h => absurd rfl h⟩
  · have hc' : c ∈ [.nop x, .loop x count len, .signal x str flag, .waitf x flag count] := by
      simpa [hadda] using hc
    obtain ⟨op, stall, go, f, hnext, hgo, hshow, hplace⟩ := exec_flow_issues hc'
    obtain rfl := Host.Outcome.next.inj (hnext.symm.trans hexec)
    exact ⟨State.issue_showsOnly hshow,
      fun k hk => State.issue_seq_keeps (fun _ _ _ _ => rfl) (fun _ => rfl) (fun h => absurd h.symm hk) (fun u => hplace u k),
      fun h => absurd h hadda,
      fun _ => State.issue_seq_keeps (P := Seq.regs) (fun _ _ _ _ => rfl) (fun _ => rfl) (fun _ => hgo)
        (fun u => congrArg Prod.fst (hplace u x))⟩

/-! ### A seventeenth register -/

/-- String 0 runs a step, and its list of address registers holds a seventeenth, which no instruction word names. -/
def seventeenRegisters : State :=
  { seqs := [(0, { step := some 0, ended := false, regs := zeros 16 ++ [1] })] }

/-- ADDA of register 0 writes the sixteen registers back, and what stood beyond them is gone. -/
theorem adda_drops_seventeenth_register :
    ((outState seventeenRegisters (exec (.adda 0 0 0) seventeenRegisters)).seq 0).a 16 = 0 := by decide +kernel

/-- Refutes O57, at ADDA: the statement is about every state and every register number, and in one whose string holds a seventeenth
address register, as no command makes it, ADDA of register 0 clears register 16. The rest of it holds (`exec_flow_frame`). -/
theorem not_frameOfFlowInstructions : ¬ Obligations.FrameOfFlowInstructions := by
  unfold Obligations.FrameOfFlowInstructions
  intro h
  obtain ⟨-, -, -, -, -, -, -, hadda, -⟩ := h 0 0 0 0 0 0 0 16 0 seventeenRegisters
    (outState seventeenRegisters (exec (.adda 0 0 0) seventeenRegisters)) (.adda 0 0 0) (by decide) rfl
  have hkept : (seventeenRegisters.seq 0).a 16 = 0 := (hadda rfl (by decide)).symm.trans adda_drops_seventeenth_register
  exact absurd hkept (by decide)

end Sys2Proof.Machine
end

section
/-!
PROOFS. SCORE, VALUE and GATE (O9, R180, R203, R204): with what they name accepted and readable each comes to its work, and the
string goes onward.
-/
set_option Elab.async false
namespace Sys2Proof.Machine

/-! ### SCORE -/

/-- A score page that fits one of the two areas goes to the SRAM area where it fits there (R203). -/
theorem scorePlace_of_room {bytes sramBytes dramBytes : Nat} (hroom : bytes ≤ max sramBytes dramBytes) (sram dram : Nat) :
    (if bytes ≤ sramBytes then some sram else if bytes ≤ dramBytes then some dram else none) =
      some (if bytes ≤ sramBytes then sram else dram) := by
  split
  · rfl
  · next hsram => rw [if_pos ((le_max_iff.1 hroom).resolve_left hsram)]

section
variable {s : State} {x t aa da dd n : Nat} {y : Step} {half : Bool} {r : List Nat × Bool × State} {D : AttnDesc} {c : CacheShape}

/-- A descriptor that R207 accepts. -/
theorem State.score_accepts (hreach : s.reaches y.part da 64 = true) (hr : r = s.readThrough (unitTeam t) da 64)
    (hue : r.2.1 = false) (hD : D = parseAttn r.1) (hc : c = r.2.2.cacheShape y.part D.cache)
    (hok : r.2.2.attnOk y.part t n D = true)
    (hranges : r.2.2.allReach y.part ((aa, attnRows c n * c.dim * elemBytes half) :: (dd, attnRows c n * 2 * elemBytes half) ::
      D.ranges c n) = true) :
    s.score x t y half aa da dd n = r.2.2.scoreRun x t y half aa da dd n D := by
  unfold State.score
  dsimp only
  rw [hreach, if_neg (by simp), ← hr, hue, if_neg (by simp), ← hD, ← hc, hok, hranges, if_neg (by simp)]

/-- The pages that a SCORE pins: those of its columns and those it appends to, each once. -/
def State.scorePages (s : State) (p : Nat) (D : AttnDesc) (n : Nat) (ks : List Col) : List Nat :=
  (ks.map (·.page) ++ (if D.append then (List.range n).filterMap (fun r =>
    (s.entryAt p D.slot D.cache ((s.seqTab p D.slot D.cache).nextPos + r)).map (·.page)) else [])).eraseDups

/-- With its pages pinned and its record kept, a SCORE whose queries and keys read writes its score page (R203). -/
theorem State.scoreRun_scores {nk : List (List Nat) × Bool × State} {v w : State} {ks : List Col} {at_ : Nat}
    {q : List Nat × Bool × State} (hc : c = s.cacheShape y.part D.cache)
    (hnk : nk = s.readAll (unitTeam t)
      (if D.append then [(D.newK, mxSize c.fmt (n * c.heads * c.dim)), (D.newV, mxSize c.fmt (n * c.heads * c.dim))] else []))
    (hnkUe : nk.2.1 = false) (hmine : nk.2.2.genNow y D.slot = true)
    (hv : v = if D.append then nk.2.2.appendRows t y.part D.slot D c n (nk.1.getD 0 []) (nk.1.getD 1 []) else nk.2.2)
    (hks : ks = v.columnsOf y.part D.slot D.cache)
    (hat : at_ = if attnRows c n * scoreStride half ks.length ≤ D.sramBytes then D.sram else D.dram)
    (hroom : attnRows c n * scoreStride half ks.length ≤ max D.sramBytes D.dramBytes)
    (hw : w = (v.each (nk.2.2.scorePages y.part D n ks) (fun u pg => u.pin y.part pg)).modStep y.id (fun z =>
      { z with scores := z.scores ++ [⟨da, seqKey y.part D.slot D.cache, nk.2.2.scorePages y.part D n ks,
        ks.map (fun k => (k.page, k.idx, k.pos, k.committed))⟩] }))
    (hq : q = w.readThrough (unitTeam t) aa (attnRows c n * c.dim * elemBytes half)) (hqUe : q.2.1 = false)
    (hkeys : (q.2.2.headVectors t y.part c D.layer 0 ks (List.range c.heads)).2.1 = none) :
    s.scoreRun x t y half aa da dd n D =
      ((q.2.2.headVectors t y.part c D.layer 0 ks (List.range c.heads)).2.2.scoreWrite t at_ da dd n half
        (w.byPosition y.part c D.layer) D c (nk.2.2.seqTab y.part D.slot D.cache).nextPos ks
        (q.2.2.headVectors t y.part c D.layer 0 ks (List.range c.heads)).1
        (elems half (attnRows c n * c.dim) q.1)).countOp x 20 1 := by
  unfold State.scorePages at hw
  unfold State.scoreRun
  dsimp only
  rw [← hc, ← hnk, hnkUe, if_neg Bool.false_ne_true, hmine, Bool.and_true, ← hv, if_pos rfl, ← hks,
    scorePlace_of_room hroom, ← hat]
  dsimp only
  rw [← hw, ← hq, hqUe, if_neg Bool.false_ne_true, hkeys]

end

/-! ### VALUE -/

section
variable {s : State} {x t aa da dd n : Nat} {y : Step} {half : Bool} {r : List Nat × Bool × State} {D : AttnDesc} {c : CacheShape}

/-- A descriptor that R207 accepts, with the record of a SCORE. -/
theorem State.value_accepts {z : Step} {sc : ScoreRec} (hreach : s.reaches y.part da 64 = true)
    (hr : r = s.readThrough (unitTeam t) da 64) (hue : r.2.1 = false) (hD : D = parseAttn r.1)
    (hc : c = r.2.2.cacheShape y.part D.cache) (hok : r.2.2.attnOk y.part t n D = true) (hstep : r.2.2.step? y.id = some z)
    (hscore : z.scores.reverse.find? (fun e => e.desc == da) = some sc)
    (hranges : r.2.2.allReach y.part ((aa, attnRows c n * 2 * elemBytes half) :: (dd, attnRows c n * c.dim * elemBytes half) ::
      (D.scoreAt, attnRows c n * scoreStride half D.columns) :: D.ranges c n) = true) :
    s.value x t y half aa da dd n = r.2.2.valueRun x t y half aa da dd n D sc := by
  unfold State.value
  dsimp only
  rw [hreach, if_neg (by simp), ← hr, hue, if_neg (by simp), ← hD, ← hc, hok, hranges, if_neg (by simp), hstep]
  dsimp only
  rw [hscore]

end

/-! ### GATE -/

/-- The work of GATE on entries and a dispatch area within reach: the dispatch lists are written, and the chosen experts fire. -/
theorem State.gate_fires {s u : State} {x set topk inp disp vectors k : Nat} {y : Step} {h : List Nat}
    {r : List Nat × Bool × State} {es : List (Nat × Nat × Nat)} {cs : List (Nat × List (Nat × Nat))} {b : List Nat} {w : State}
    (hh : h = s.harness y.part) (hu : u = s.countOp x 25 1) (hk : u.gateK x topk = k)
    (hreach : u.reaches y.part topk (vectors * k * 8) = true)
    (hr : r = u.readThrough (unitString x) topk (vectors * k * 8)) (hue : r.2.1 = false) (hes : es = gateEntries k vectors r.1)
    (hcs : cs = chosen h set es) (hb : b = (cs.map (fun c => dispatchList c.2)).flatten)
    (hdisp : (r.2.2.countOp x 26 (es.filter (fun e => (expertIndex h set e.2.2).isNone)).length).reaches y.part disp b.length =
      true)
    (hw : w = (r.2.2.countOp x 26 (es.filter (fun e => (expertIndex h set e.2.2).isNone)).length).writeThrough (unitString x)
      disp b) :
    s.gate x set topk inp disp vectors y = w.fireAll x inp y h (up64 (disp + b.length))
      (cs.filter (fun c => (harnessExpert h c.1).home == 0) ++ cs.filter (fun c => (harnessExpert h c.1).home != 0)) := by
  unfold State.gate
  dsimp only
  rw [← hh, ← hu, hk, hreach, if_neg (by simp), ← hr, hue, if_neg (by simp), ← hes, ← hcs, ← hb, hdisp,
    if_neg (by simp), ← hw]

/-- Settles O9: the descriptor or the entries are accepted, and the string goes onward from the work that follows. Whether VALUE's
reads and the work of the chosen experts meet an error is part of that work, so those hypotheses are not used. -/
theorem attentionAndGateComplete : Obligations.AttentionAndGateComplete := by
  unfold Obligations.AttentionAndGateComplete
  refine ⟨?_, ?_, ?_⟩
  · intro x team half a b d n y u v r q nk D c ks at_ w s hstep h hstall hu hreach hr hue hD hc hok hranges hnk hnkUe hmine hv hks
      hat hroom hw hq hqUe hkeys
    show execVuScore x team half a b d n s = _
    unfold execVuScore
    rw [hstep]
    dsimp only
    rw [hstall, State.issue_onward h, ← hu, State.score_accepts hreach hr hue hD hc hok hranges,
      State.scoreRun_scores hc hnk hnkUe hmine hv hks hat hroom hw hq hqUe hkeys]
  · intro x team half a b d n y z u r sp st D c sc s hstep h hstall hu hreach hr hue hD hc hok hz hscore hranges _ _ _ _ _
    show execVuValue x team half a b d n s = _
    unfold execVuValue
    rw [hstep]
    dsimp only
    rw [hstall, State.issue_onward h, ← hu, State.value_accepts hreach hr hue hD hc hok hz hscore hranges]
  · intro x set topk inp disp vectors y u w r k es cs b s hstep _ h hstall hu hk hreach hr hue hes hcs hb hdisp hw c _ _
    show execGate x set topk inp disp vectors s = _
    unfold execGate
    rw [hstep]
    dsimp only
    rw [hstall, State.issue_onward h, State.gate_fires (State.issued_harness _ _).symm hu hk hreach hr hue hes hcs hb hdisp hw]

end Sys2Proof.Machine
end

section
/-!
SUPPORT. A read through the block code (R272, R273) sends nothing in READY. A record that it writes sends a message only where it
fails the start (R432): then the rails turn off, each by a command to its regulator. From READY on no record does.
-/
set_option Elab.async false
namespace Sys2Proof.Machine

/-- From READY, READY stays and nothing is sent. -/
def State.Silent (s t : State) : Prop := s.stage = stReady → t.stage = stReady ∧ t.out = s.out

theorem State.Silent.refl (s : State) : s.Silent s := fun hs => ⟨hs, rfl⟩

theorem State.Silent.trans {s t u : State} (h : s.Silent t) (h' : t.Silent u) : s.Silent u := fun hs =>
  have ⟨ht, hout⟩ := h hs
  have ⟨hu, hout'⟩ := h' ht
  ⟨hu, hout'.trans hout⟩

/-- Where READY's registers are the same, READY stays. -/
theorem State.stage_of_servingRegs {s t : State} (h : servingRegs t.fields = servingRegs s.fields) (hs : s.stage = stReady) :
    t.stage = stReady := by
  by_contra ht
  have hsome : servingRegs s.fields = some (servingFields.map s.fget) := if_pos hs
  rw [State.servingRegs_of_stage ht, hsome] at h
  cases h

theorem State.silent_of_servingRegs {s t : State} (hregs : servingRegs t.fields = servingRegs s.fields)
    (hout : s.stage = stReady → t.out = s.out) : s.Silent t := fun hs => ⟨State.stage_of_servingRegs hregs hs, hout hs⟩

theorem State.each_silent {α : Type} {f : State → α → State} (h : ∀ t x, State.Silent t (f t x)) (s : State)
    (xs : List α) : s.Silent (s.each xs f) := s.each_inv s.Silent f (fun t x ht => ht.trans (h t x)) xs (.refl s)

@[simp] theorem State.out_ite (c : Prop) [Decidable c] (s t : State) :
    (if c then s else t).out = if c then s.out else t.out := apply_ite State.out c s t

section
variable (s : State)

theorem State.bump_silent {g : Fld} (hg : Fld.aside g = true) : s.Silent (s.bump g) :=
  State.silent_of_servingRegs (s.bump_servingRegs hg) fun _ => rfl

/-! ### Records -/

@[simp] theorem State.append_out (r : LogRec) : (s.append r).out = s.out := by
  have hevent (u : State) (bit source kind : Nat) (data : List Nat) : (u.traceEvent bit source kind data).out = u.out :=
    (u.traceEvent_showsOnly bit source kind data).same State.out (fun _ _ => rfl)
  have htrigger (u : State) (cond : Nat) : (u.traceTrigger cond).out = u.out :=
    (u.traceTrigger_showsOnly cond).same State.out (fun _ _ => rfl)
  simp only [State.append, State.out_ite, htrigger, hevent, State.fset_out, ite_self]

@[simp] theorem State.updateHealth_out : s.updateHealth.out = s.out := by
  simp only [State.updateHealth, State.out_ite, State.append_out, State.fset_out, ite_self]

theorem State.recordAs_silent (hubUe : Bool) (sev cls code source : Nat) (ctx : List Nat) :
    s.Silent (s.recordAs hubUe sev cls code source ctx) := by
  refine State.silent_of_servingRegs (s.recordAs_serving ..).2.2 fun hs => ?_
  have hready (r : LogRec) : ¬ (s.append r).failsStart sev hubUe = true := fun hfails =>
    State.failsStart_stage hfails (State.stage_of_servingRegs (s.append_servingRegs r) hs)
  unfold State.recordAs
  dsimp only
  rw [if_neg (hready _), State.updateHealth_out, State.append_out]

theorem State.record_silent (sev cls code source : Nat) (ctx : List Nat) : s.Silent (s.record sev cls code source ctx) :=
  s.recordAs_silent false sev cls code source ctx

/-! ### Blocks -/

theorem State.recordSoft_silent (source a mem syn : Nat) : s.Silent (s.recordSoft source a mem syn) := by
  unfold State.recordSoft
  split
  · exact State.Silent.trans (t := s.softCount mem) (State.silent_of_servingRegs rfl fun _ => rfl)
      (State.record_silent _ _ _ _ _ _)
  · exact .refl s

theorem State.hardBlock_silent (a : Nat) : s.Silent (s.hardBlock a) := by
  refine State.silent_of_servingRegs (s.hardBlock_serving a).2.2 fun _ => ?_
  unfold State.hardBlock
  dsimp only
  split <;> rfl

theorem State.readBlock_silent (source : Nat) (repair : Bool) (blk : Nat) : s.Silent (s.readBlock source repair blk) := by
  have hhard (u : State) (hubUe : Bool) (sev : Nat) (ctx : List Nat) :
      u.Silent ((u.hardBlock (32 * blk)).recordAs hubUe sev 4 0x41 source ctx) :=
    (u.hardBlock_silent _).trans (State.recordAs_silent _ _ _ _ _ _ _)
  unfold State.readBlock
  dsimp only
  split
  case h_1 => exact .refl s
  case h_2 =>
    have hue (ctx : List Nat) := (s.bump_silent (Fld.aside_ueCounter (32 * blk))).trans
      (State.recordAs_silent _ (hubMemory (32 * blk)) 1 4 0x42 source ctx)
    split
    · exact (hue _).trans (hhard _ _ _ _)
    · exact hue _
  case h_3 =>
    have hce := s.bump_silent (Fld.aside_ceCounter (32 * blk))
    split
    · exact hce.trans (State.recordSoft_silent _ _ _ _ _)
    split
    · exact hce.trans (hhard _ _ _ _)
    · refine hce.trans (State.Silent.trans (State.silent_of_servingRegs ?_ fun _ => ?_) (State.recordSoft_silent _ _ _ _ _))
      · split <;> rfl
      · split <;> rfl

theorem State.retiredAccess_silent (source a n : Nat) : s.Silent (s.retiredAccess source a n) :=
  (s.bump_silent (g := Reg.retiredAccess) (by decide)).trans (State.recordAs_silent _ _ _ _ _ _ _)

/-! ### Reads -/

@[simp] theorem State.seeLines_out (y a : Nat) (xs : List StaleLine) (b : List Nat) : (s.seeLines y a xs b).2.out = s.out := by
  fun_induction State.seeLines with
  | case1 => rfl
  | case2 s b x xs _ ih => exact ih
  | case3 s b x xs _ _ d ih => exact ih
  | case4 s b x xs _ _ ih => exact ih

theorem State.readFor_silent (step : Option Nat) (source a n : Nat) : s.Silent (s.readFor step source a n).2.2 := by
  have hblocks : s.Silent ((if s.anyRetired a n then s.retiredAccess source a n else s).each (s.badBlocks a n)
      (fun t b => t.readBlock source true b)) := by
    refine State.Silent.trans ?_ (State.each_silent (fun t b => t.readBlock_silent source true b) _ _)
    split
    · exact s.retiredAccess_silent source a n
    · exact .refl s
  unfold State.readFor
  dsimp only
  split
  · refine hblocks.trans (State.silent_of_servingRegs ?_ fun _ => State.seeLines_out ..)
    rw [(State.seeLines_serving ..).2.2]
  · exact hblocks

theorem State.readThrough_silent (source a n : Nat) : s.Silent (s.readThrough source a n).2.2 := s.readFor_silent _ source a n

end

end Sys2Proof.Machine
end

section
/-!
PROOFS. Descriptors and result windows of the slots, and the registers of the KV window: O3 and O43.
-/
set_option Elab.async false
namespace Sys2Proof.Machine

/-! ### Descriptors and result windows (R228, R237) -/

theorem execSlotDescriptorWrite_writes {s : State} {fn off g : Nat} {bytes : List Nat} (hopen : s.bar2Open fn = true)
    (hlen : bytes.length = 4 ∨ bytes.length = 8) (halign : off % bytes.length = 0) (hoff : off < 0x400000)
    (hslot : s.barSlot fn (off / 256) = some g) :
    exec (.slotDescriptorWrite fn off bytes false) s = .next (s.descWrite g (off % 256) (bytes.map (· % 256))) := by
  have hwhole : ¬ ((bytes.length ≠ 4 ∧ bytes.length ≠ 8) ∨ off % bytes.length ≠ 0 ∨ 0x400000 ≤ off) := by omega
  show execSlotDescriptorWrite fn off bytes false s = _
  unfold execSlotDescriptorWrite
  dsimp only
  rw [hopen, if_neg (by simp), if_neg (by simp), if_neg hwhole, hslot]

/-- A function reaches the slots in READY only. -/
theorem State.stage_of_bar2Open {s : State} {fn : Nat} (h : s.bar2Open fn = true) : s.stage = stReady := by
  unfold State.bar2Open State.ready at h
  simp only [Bool.and_eq_true, beq_iff_eq] at h
  exact h.1.1

theorem execResultPayloadRead_counts {s : State} {fn k off n g : Nat} (hopen : s.bar2Open fn = true)
    (hslot : s.barSlot fn k = some g) (hn : n ≠ 0) (hpayload : 64 < off + n) (hdone : (s.slot g).st = .done) :
    Completes (exec (.resultPayloadRead fn k off n) s) (fun t =>
      t.out = s.out ++ [.completion (if (s.readThrough unitPackage (windowAddr g + off) n).2.1 then 2 else 0)
        (s.windowBytes g off n)] ∧
      (t.slot g).reads = min 0xFFFFFFFF ((s.slot g).reads + 1)) := by
  obtain ⟨-, hout⟩ := s.readThrough_silent unitPackage (windowAddr g + off) n (State.stage_of_bar2Open hopen)
  refine (completes_next ..).2 ?_
  unfold State.resultRead
  dsimp only
  rw [hopen, if_neg (by simp), hslot]
  dsimp only
  rw [if_pos hdone, if_neg (by omega), if_pos hdone]
  exact ⟨congrArg (· ++ _) hout, congrArg Slot.reads (State.slot_setSlot ..)⟩

/-! ### The snapshot of KV_SEL1 (R225) -/

/-- The words of an array leave the fields below it alone. -/
theorem State.fsetWords_fget_below (s : State) {f g : Fld} (i : Nat) (ws : List Nat) (h : g.key < f.key) :
    (s.fsetWords f i ws).fget g = s.fget g := by
  induction ws generalizing s i with
  | nil => rfl
  | cons w ws ih =>
    have hword : (f.nth i).key ≠ g.key := by
      rw [Fld.nth, Fld.key_shift]
      omega
    exact (ih _ _).trans (s.fget_fset_ne w hword)

/-- The snapshot goes to registers of its own, and nothing but registers changes. -/
theorem execKvSel1Write_latches (index cache : Nat) (s : State) :
    Completes (exec (.kvSel1Write index cache) s) (fun t =>
      (∀ f : Fld, Reg.kvStatusSnapValid.key < f.key → f.key < Reg.kvSeqCount.key →
        t.fget f = ((s.fset Reg.kvSel1Index index).fset Reg.kvSel1Cache cache).fget f) ∧ t.kv = s.kv) := by
  refine (completes_next ..).2 ⟨fun f hvalid hcount => ?_, by simp⟩
  have habove {g : Fld} (hg : Reg.kvSeqCount.key ≤ g.key) : f.key < g.key := hcount.trans_le hg
  rw [State.fsetWords_fget_below _ _ _ (habove (by decide)), State.fsetWords_fget_below _ _ _ (habove (by decide)),
    State.fget_fset_ne _ _ (habove (by decide)).ne', State.fget_fset_ne _ _ (habove (by decide)).ne',
    State.fget_fset_ne _ _ hcount.ne', State.fget_fput_ne _ _ hvalid.ne]

theorem execKvSel1Write_stores (index cache : Nat) (s : State) :
    Completes (exec (.kvSel1Write index cache) s) (fun t => t.fget Reg.kvSel1Index = index % Reg.kvSel1Index.card ∧
      t.fget Reg.kvSel1Cache = cache % Reg.kvSel1Cache.card ∧ t.kv = s.kv) := by
  refine (execKvSel1Write_latches index cache s).mono fun t ⟨hsel, hkv⟩ => ⟨?_, ?_, hkv⟩
  · rw [hsel _ (by decide) (by decide), State.fget_fset_fset _ _ _ (by decide)]
  · rw [hsel _ (by decide) (by decide), State.fget_fset_same]

/-! ### The host area (R196) -/

section
variable {s : State} {p : Nat} (which value : Nat)

theorem execKvHostAreaWrite_stores (hfree : (s.livePages p).any (fun e => e.2.tier == 2) = false) :
    Completes (exec (.kvHostAreaWrite p which value) s) (fun t =>
      t.fget (if which = 0 then Reg.kvPHostLo.kvPart p else if which = 1 then Reg.kvPHostHi.kvPart p
        else Reg.kvPHostFrames.kvPart p) =
      (if which = 0 then value / 4096 % Reg.kvPHostLo.card else if which = 1 then value % 2 ^ 32
        else value % Reg.kvPHostFrames.card)) := by
  show Completes (execKvHostAreaWrite p which value s) _
  unfold execKvHostAreaWrite
  rw [if_neg (ne_true_of_eq_false hfree)]
  refine (completes_next ..).2 ?_
  match which with
  | 0 => exact State.fget_fset_same ..
  | 1 => exact State.fget_fset_same ..
  | k + 2 => exact State.fget_fset_same ..

/-- While a page lies in host memory the write is refused: HOST_BUSY is all that changes. -/
theorem execKvHostAreaWrite_refused (hbusy : (s.livePages p).any (fun e => e.2.tier == 2) = true) :
    exec (.kvHostAreaWrite p which value) s = .next (s.raise Reg.kvErrHostBusy) := if_pos hbusy

end

/-- Settles O3: each access by its lemma above. -/
theorem slotAccessesComplete : Obligations.SlotAccessesComplete := by
  unfold Obligations.SlotAccessesComplete
  exact ⟨fun fn off g bytes s => execSlotDescriptorWrite_writes, fun fn k off n g s => execResultPayloadRead_counts,
    execKvSel1Write_stores, fun p which value s => execKvHostAreaWrite_stores which value⟩

/-- Settles O43: the refused write raises HOST_BUSY, which stands below every register of a partition's window. -/
theorem hostAreaStaysWhilePagesLie : Obligations.HostAreaStaysWhilePagesLie := by
  unfold Obligations.HostAreaStaysWhilePagesLie
  intro p which value s hbusy
  have hkept {f : Fld} (hf : Reg.kvErrHostBusy.key < f.key) :
      (s.raise Reg.kvErrHostBusy).fget (f.kvPart p) = s.fget (f.kvPart p) := by
    refine State.fget_raise_ne s ?_
    rw [Fld.kvPart, Fld.key_shift]
    omega
  rw [execKvHostAreaWrite_refused which value hbusy, completes_next]
  exact ⟨State.fget_raise_same .., hkept (by decide), hkept (by decide), hkept (by decide), rfl, rfl⟩

end Sys2Proof.Machine
end

section
/-!
SUPPORT. What a command of a slot's state word reaches (R230, R233): its own slot, the pages and page waits of its sequence, and
what shows of it in registers, vectors, trace and messages. Memory, the store, teams, tiles, clock regions and every other slot are
not among that.
-/
set_option Elab.async false
namespace Sys2Proof.Machine

/-- The state with the slots, pages, vectors and messages of another, and with all that `State.behind` takes of it. -/
def State.besideGate (t s : State) : State :=
  { t.behind s with slots := s.slots, kv := s.kv, vectors := s.vectors, out := s.out }

/-- Nothing but those has changed, and of the slots at most slot `g`. -/
def State.SlotOnly (s : State) (g : Nat) (t : State) : Prop :=
  t.besideGate s = s ∧ ∀ k, k ≠ g → t.slot k = s.slot k

/-! ### What follows from it -/

/-- What looks at none of them has not changed. -/
theorem State.SlotOnly.same {s t : State} {g : Nat} (h : s.SlotOnly g t) {β : Type} (P : State → β)
    (hP : ∀ s u : State, P (s.besideGate u) = P s) : P t = P s := by
  rw [← hP t s, h.1]

theorem State.SlotOnly.now {s t : State} {g : Nat} (h : s.SlotOnly g t) : t.now = s.now := h.same State.now fun _ _ => rfl

theorem State.SlotOnly.readByte {s t : State} {g : Nat} (h : s.SlotOnly g t) (a : Nat) : t.readByte a = s.readByte a :=
  State.readByte_congr (h.same State.mem fun _ _ => rfl) a

/-! ### The operations of a slot, one after another -/

theorem State.SlotOnly.refl (s : State) (g : Nat) : s.SlotOnly g s := ⟨rfl, fun _ _ => rfl⟩

theorem State.SlotOnly.trans {s t u : State} {g : Nat} (h : s.SlotOnly g t) (h' : t.SlotOnly g u) : s.SlotOnly g u :=
  ⟨(congrArg (State.besideGate · s) h'.1).trans h.1, fun k hk => (h'.2 k hk).trans (h.2 k hk)⟩

theorem State.ShowsOnly.slotOnly {s t : State} (h : s.ShowsOnly t) (g : Nat) : s.SlotOnly g t :=
  ⟨congrArg (fun u : State => { u with slots := s.slots, kv := s.kv, vectors := s.vectors, out := s.out }) h,
    fun k _ => h.same (State.slot · k) fun _ _ => rfl⟩

section
variable {s t : State} {g : Nat} (h : s.SlotOnly g t)
include h

theorem State.SlotOnly.each {α : Type} {f : State → α → State} (hf : ∀ u x, s.SlotOnly g u → s.SlotOnly g (f u x))
    (xs : List α) : s.SlotOnly g (t.each xs f) := t.each_inv (s.SlotOnly g) f hf xs h

theorem State.SlotOnly.fset (f : Fld) (v : Nat) : s.SlotOnly g (t.fset f v) := h

theorem State.SlotOnly.bump (f : Fld) : s.SlotOnly g (t.bump f) := h

theorem State.SlotOnly.setKv (z : Kv) : s.SlotOnly g { t with kv := z } := h

theorem State.SlotOnly.setPage (p id : Nat) (x : Page) : s.SlotOnly g (t.setPage p id x) := h

theorem State.SlotOnly.setSeq (p slot c : Nat) (x : SeqTab) : s.SlotOnly g (t.setSeq p slot c x) := h

theorem State.SlotOnly.setSlot (x : Slot) : s.SlotOnly g (t.setSlot g x) :=
  ⟨h.1, fun k hk => (t.slot_setSlot_ne x hk.symm).trans (h.2 k hk)⟩

/-! Pages and page waits -/

theorem State.SlotOnly.reclaim (p id : Nat) : s.SlotOnly g (t.reclaim p id) := by
  unfold State.reclaim
  dsimp only
  split
  · split
    · exact (h.setPage _ _ _).bump _
    · exact ((h.setPage _ _ _).bump _).setKv _
  · exact h

theorem State.SlotOnly.releasePage (p id : Nat) : s.SlotOnly g (t.releasePage p id) := (h.setPage _ _ _).reclaim p id

theorem State.SlotOnly.releaseCache (p slot c : Nat) : s.SlotOnly g (t.releaseCache p slot c) := by
  refine State.SlotOnly.setSeq (State.SlotOnly.setKv (h.each (fun u e hu => ?_) _) _) _ _ _ _
  split
  · exact hu
  · exact hu.releasePage p _

theorem State.SlotOnly.passFrames (p : Nat) (ws : List Waiter) : s.SlotOnly g (t.passFrames p ws) := by
  refine h.each (fun u w hu => hu.each (fun v f hv => ?_) _) _
  split
  · exact hv
  · exact hv.setKv _

theorem State.SlotOnly.leaveWait (p slot : Nat) : s.SlotOnly g (t.leaveWait p slot) := (h.setKv _).passFrames p _

theorem State.SlotOnly.releaseSeq (p slot : Nat) : s.SlotOnly g (t.releaseSeq p slot) :=
  (h.each (fun _ c hu => hu.releaseCache p slot c) _).leaveWait p slot

theorem State.SlotOnly.startMove (p id : Nat) (kind : MoveKind) (pool : Pool) (seq : Nat) :
    s.SlotOnly g (t.startMove p id kind pool seq) := by
  unfold State.startMove
  split
  · exact h
  · exact (((h.setKv _).bump _).setPage _ _ _).setPage _ _ _

theorem State.SlotOnly.parkSlot (p : Nat) : s.SlotOnly g (t.parkSlot p g) := by
  have hparked : s.SlotOnly g (t.park g) := h.setSlot _
  unfold State.parkSlot
  dsimp only
  split
  · exact hparked
  · refine hparked.each (fun u id hu => ?_) _
    split
    · exact hu
    · exact hu.startMove p id _ _ _

/-! A slot enters a state -/

theorem State.SlotOnly.raiseVec (fn vec : Nat) : s.SlotOnly g (t.raiseVec fn vec) := by
  unfold State.raiseVec State.vecEvent
  repeat' split
  all_goals exact h

theorem State.SlotOnly.signalSlot (p k : Nat) : s.SlotOnly g (t.signalSlot p k) := by
  unfold State.signalSlot
  dsimp only
  split
  · exact (h.fset _ _).raiseVec _ _
  · exact h.fset _ _

theorem State.SlotOnly.enter (p : Nat) (st : SlotSt) (code : Nat) : s.SlotOnly g (t.enter p g st code) := by
  have hset (data : List Nat) (x : Slot) : s.SlotOnly g ((t.traceEvent 1 (unitPart p) 0x20 data).setSlot g x) :=
    (h.trans ((t.traceEvent_showsOnly _ _ _ _).slotOnly g)).setSlot x
  unfold State.enter
  dsimp only
  split
  · exact (hset _ _).signalSlot p g
  · exact hset _ _

end

/-! ### The commands -/

section
variable (s : State) (p g : Nat)

theorem State.onSlot_slotOnly {f : Nat → State} (hf : ∀ p, s.SlotOnly g (f p)) : s.SlotOnly g (s.onSlot g f) := by
  unfold State.onSlot
  split
  · exact hf _
  · exact .refl s g

theorem State.ignoreCmd_slotOnly : s.SlotOnly g (s.ignoreCmd p) := (State.SlotOnly.refl s g).bump _

theorem State.arm_slotOnly (d : Desc) : s.SlotOnly g (s.arm p g d) :=
  (((State.SlotOnly.refl s g).setSlot _).enter p .armed cNone).bump _

/-- A descriptor stored without an error is taken as it stands, and its read changes nothing. -/
theorem State.readDesc_clean {s : State} {g : Nat} (hclean : s.cleanAt [(descAddr g, 256)]) :
    s.readDesc g = (parseDesc (s.codedBytes (descAddr g) 256), s) := by
  obtain ⟨hbad, hretired, hmixed⟩ := hclean _ (List.mem_singleton_self _)
  rw [State.readDesc, State.readThrough_clean hbad hretired _ hmixed]

theorem State.cmdArm_slotOnly (hclean : s.cleanAt [(descAddr g, 256)]) : s.SlotOnly g (s.cmdArm p g) := by
  have hrefused (d : Desc) (code : Nat) :
      s.SlotOnly g ((s.setSlot g { s.slot g with work := s.refusedDesc p d }).enter p g .faulted code) :=
    ((State.SlotOnly.refl s g).setSlot _).enter p .faulted code
  unfold State.cmdArm
  rw [State.readDesc_clean hclean]
  dsimp only
  split
  · exact s.ignoreCmd_slotOnly p g
  split
  · exact hrefused _ _
  split
  · exact (hrefused _ _).bump _
  · exact s.arm_slotOnly p g _

theorem State.pauseNow_slotOnly : s.SlotOnly g (s.pauseNow p g) :=
  ((((State.SlotOnly.refl s g).leaveWait p _).setSlot _).parkSlot p).enter p .paused cNone

theorem State.cmdPause_slotOnly : s.SlotOnly g (s.cmdPause p g) := by
  unfold State.cmdPause
  dsimp only
  split
  · exact s.pauseNow_slotOnly p g
  split
  · exact (State.SlotOnly.refl s g).setSlot _
  · exact s.ignoreCmd_slotOnly p g

theorem State.cmdResume_slotOnly : s.SlotOnly g (s.cmdResume p g) := by
  unfold State.cmdResume
  dsimp only
  split
  · exact s.ignoreCmd_slotOnly p g
  · exact ((State.SlotOnly.refl s g).setSlot _).enter p .armed cNone

theorem State.cmdRelease_slotOnly : s.SlotOnly g (s.cmdRelease p g) := by
  unfold State.cmdRelease
  dsimp only
  split
  · exact s.ignoreCmd_slotOnly p g
  · exact (((State.SlotOnly.refl s g).releaseSeq p _).setSlot _).enter p .free cNone

end

end Sys2Proof.Machine
end

section
/-!
PROOFS. The starting gate: what the commands of the state word leave alone (O56), and how each moves its slot (O4).
-/
set_option Elab.async false
namespace Sys2Proof.Machine

/-- Settles O56: each command reaches nothing but its slot, the pages of its sequence, and what shows of them. -/
theorem frameOfSlotCommands : Obligations.FrameOfSlotCommands := by
  unfold Obligations.FrameOfSlotCommands
  intro g k s t c hc hclean hexec hk
  have hslot : s.SlotOnly g t := by
    simp only [List.mem_cons, List.not_mem_nil, or_false] at hc
    rcases hc with rfl | rfl | rfl | rfl <;> cases hexec
    · exact s.onSlot_slotOnly g fun p => s.cmdArm_slotOnly p g (hclean.resolve_left fun hne => hne rfl)
    · exact s.onSlot_slotOnly g fun p => s.cmdPause_slotOnly p g
    · exact s.onSlot_slotOnly g fun p => s.cmdResume_slotOnly p g
    · exact s.onSlot_slotOnly g fun p => s.cmdRelease_slotOnly p g
  exact ⟨hslot.2 k hk, hslot.readByte, hslot.same State.nv fun _ _ => rfl, hslot.same State.teams fun _ _ => rfl,
    hslot.same State.tiles fun _ _ => rfl, hslot.same State.clocks fun _ _ => rfl⟩

/-! ### A slot that enters a state -/

/-- The slot as it stood, in its new state, with its CODE and the time of the transition (R233). -/
theorem State.enter_slot (s : State) (p g : Nat) (st : SlotSt) (code : Nat) :
    (s.enter p g st code).slot g = { s.slot g with st := st, code := code, stateAt := s.now } := by
  have hnow (data : List Nat) : (s.traceEvent 1 (unitPart p) 0x20 data).now = s.now :=
    (s.traceEvent_showsOnly _ _ _ _).same State.now fun _ _ => rfl
  have hset (u : State) (x : Slot) : (if st.signals then (u.setSlot g x).signalSlot p g else u.setSlot g x).slot g = x := by
    rw [State.slot_congr (t := ite ..) (s := u.setSlot g x) (by simp), State.slot_setSlot]
  unfold State.enter
  dsimp only
  rw [hset, hnow]

/-! ### The commands in the states that R233 lists for them -/

section
variable {s : State} {g p : Nat} (hpart : s.slotPart g = some p)
include hpart

/-- A command of a slot is one of the partition that holds it. -/
theorem State.onSlot_of_slotPart (f : Nat → State) : s.onSlot g f = f p := by
  rw [State.onSlot, hpart]

theorem execArm_arms (hfree : (s.slot g).st = .free) (hserve : (s.readDesc g).2.inService p = true)
    (hgood : (s.readDesc g).2.badDesc p false (s.readDesc g).1 = false) :
    exec (.arm g) s = .next ((s.readDesc g).2.arm p g (s.readDesc g).1) := by
  show Host.Outcome.next _ = _
  rw [State.onSlot_of_slotPart hpart]
  simp [State.cmdArm, hfree, hserve, hgood]

theorem execContinueSlot_continues (hdone : (s.slot g).st = .done) (hheld : (s.slot g).cacheHeld = true)
    (hgood : (s.readDesc g).2.badDesc p true (s.readDesc g).1 = false) :
    exec (.continueSlot g) s = .next ((s.readDesc g).2.continueRun p g (s.readDesc g).1) := by
  show Host.Outcome.next _ = _
  rw [State.onSlot_of_slotPart hpart]
  simp [State.cmdContinue, hdone, hheld, hgood]

theorem execPause_pauses (hidle : (s.slot g).st = .armed ∨ ((s.slot g).st = .running ∧ (s.slot g).inStep = none)) :
    exec (.pause g) s = .next (s.pauseNow p g) := by
  show Host.Outcome.next _ = _
  rw [State.onSlot_of_slotPart hpart]
  exact congrArg Host.Outcome.next (if_pos hidle)

theorem execResume_arms (hpaused : (s.slot g).st = .paused) :
    Completes (exec (.resume g) s) (fun t => (t.slot g).st = .armed ∧ (t.slot g).stateAt = s.now) := by
  refine (completes_next ..).2 ?_
  rw [State.onSlot_of_slotPart hpart, State.cmdResume, if_neg (not_not_intro hpaused), State.enter_slot]
  exact ⟨rfl, rfl⟩

theorem execCancel_cancels (hlive : (s.slot g).st = .armed ∨ (s.slot g).st = .running ∨ (s.slot g).st = .paused)
    (hidle : (s.slot g).inStep = none) :
    Completes (exec (.cancel g) s) (fun t => (t.slot g).st = .cancelled ∧ (t.slot g).code = cHostCancel) := by
  refine (completes_next ..).2 ?_
  rw [State.onSlot_of_slotPart hpart, State.cmdCancel, if_neg (by tauto), hidle]
  exact s.endSlot_ends p g .cancelled cHostCancel

theorem execRelease_frees (hover : (s.slot g).st = .done ∨ (s.slot g).st = .cancelled ∨ (s.slot g).st = .faulted) :
    Completes (exec (.release g) s) (fun t => (t.slot g).st = .free ∧ (t.slot g).cacheHeld = false) := by
  refine (completes_next ..).2 ?_
  rw [State.onSlot_of_slotPart hpart, State.cmdRelease, if_neg (by tauto), State.enter_slot, State.slot_setSlot]
  exact ⟨rfl, rfl⟩

end

/-! ### The slot after ARM, CONTINUE and PAUSE -/

section
variable (s : State) (p g : Nat)

theorem State.arm_slot (d : Desc) : ((s.arm p g d).slot g).st = .armed ∧
    ((s.arm p g d).slot g).gen = ((s.slot g).gen + 1) % 65536 ∧ ((s.arm p g d).slot g).work = d ∧
    ((s.arm p g d).slot g).armedAt = s.now := by
  unfold State.arm
  dsimp only
  rw [State.slot_congr (State.bump_slots ..), State.enter_slot, State.slot_setSlot]
  exact ⟨rfl, rfl, rfl, rfl⟩

/-- With input to take, or a token pending, the run does not end at once (R246). -/
theorem State.continueRun_slot {d : Desc} (hinput : d.inputCount ≠ 0 ∨ (s.slot g).pendingTok ≠ none) :
    ((s.continueRun p g d).slot g).st = .armed ∧ ((s.continueRun p g d).slot g).work = d ∧
      ((s.continueRun p g d).slot g).gen = (s.slot g).gen := by
  have hrun : ¬ (d.inputCount = 0 ∧ (s.slot g).pendingTok.isNone = true) := by
    rw [Option.isNone_iff_eq_none]
    tauto
  unfold State.continueRun
  dsimp only
  rw [if_neg hrun, State.enter_slot, State.slot_setSlot]
  exact ⟨rfl, rfl, rfl⟩

theorem State.pauseNow_slot : ((s.pauseNow p g).slot g).st = .paused ∧ ((s.pauseNow p g).slot g).stateAt = s.now := by
  unfold State.pauseNow
  dsimp only
  rw [State.enter_slot]
  exact ⟨rfl, ((((State.SlotOnly.refl s g).leaveWait p _).setSlot _).parkSlot p).now⟩

end

/-- Settles O4: each command by its lemma above. -/
theorem slotCommandsComplete : Obligations.SlotCommandsComplete := by
  unfold Obligations.SlotCommandsComplete
  refine ⟨fun g p u s hpart hfree hu hserve hgood => ?_, fun g p u s hpart hdone hheld hu hgood hinput => ?_,
    fun g p s hpart hidle => ?_, fun g p s => execResume_arms, fun g p s => execCancel_cancels,
    fun g p s => execRelease_frees⟩
  · subst hu
    rw [execArm_arms hpart hfree hserve hgood, completes_next]
    exact State.arm_slot _ p g _
  · subst hu
    rw [execContinueSlot_continues hpart hdone hheld hgood, completes_next]
    exact State.continueRun_slot _ p g hinput
  · rw [execPause_pauses hpart hidle, completes_next]
    exact s.pauseNow_slot p g

end Sys2Proof.Machine
end

section
/-!
PROOFS. The block code (R270, R272): what a syndrome says of the bits that are flipped in a block (O36).
-/
set_option Elab.async false
namespace Sys2Proof.Machine

/-! ### The two halves of a syndrome -/

theorem synRow_eq_ones_mod (syn : Nat) : synRow syn = ones 16 (syn % 2 ^ 16) := by
  refine congrArg List.length (List.filter_congr fun i hi => ?_)
  rw [Nat.testBit_mod_two_pow, decide_eq_true (List.mem_range.1 hi), Bool.true_and]

theorem synCol_eq_ones_div (syn : Nat) : synCol syn = ones 16 (syn / 2 ^ 16) := rfl

theorem synRow_xor (x y : Nat) : synRow (x ^^^ y) = ones 16 (x % 2 ^ 16 ^^^ y % 2 ^ 16) := by
  rw [synRow_eq_ones_mod, Nat.xor_mod_two_pow]

theorem synCol_xor (x y : Nat) : synCol (x ^^^ y) = ones 16 (x / 2 ^ 16 ^^^ y / 2 ^ 16) := by
  rw [synCol_eq_ones_div, Nat.xor_div_two_pow]

theorem ones_two_pow : ∀ i < 16, ones 16 (2 ^ i) = 1 := by decide

theorem ones_two_pow_xor : ∀ i < 16, ∀ k < 16, i ≠ k → ones 16 (2 ^ i ^^^ 2 ^ k) = 2 := by decide

/-- The lowest set bit of the low half, whatever the high half holds. -/
theorem lowBit_eq_of_mod {syn i : Nat} (hi : i < 16) (h : syn % 2 ^ 16 = 2 ^ i) : lowBit syn = i := by
  have hbit (k : Nat) (hk : k < 16) : syn.testBit k = decide (i = k) := by
    rw [← Nat.testBit_two_pow, ← h, Nat.testBit_mod_two_pow, decide_eq_true hk, Bool.true_and]
  have hfind : (List.range 16).find? (fun k => syn.testBit k) = some i := by
    refine List.find?_range_eq_some.2 ⟨?_, List.mem_range.2 hi, fun k hk => ?_⟩
    · simp [hbit i hi]
    · simp [hbit k (by omega), hk.ne']
  rw [lowBit, hfind, Option.getD_some]

/-! ### One flipped data bit: a bit of each half -/

section
variable {i : Nat} (j : Nat) (hi : i < 16)
include hi

theorem dataFlip_mod : (2 ^ i + 2 ^ (16 + j)) % 2 ^ 16 = 2 ^ i := by
  rw [pow_add, Nat.add_mul_mod_self_left, Nat.mod_eq_of_lt (Nat.pow_lt_pow_right one_lt_two hi)]

theorem dataFlip_div : (2 ^ i + 2 ^ (16 + j)) / 2 ^ 16 = 2 ^ j := by
  rw [pow_add, Nat.add_mul_div_left _ _ (by decide), Nat.div_eq_of_lt (Nat.pow_lt_pow_right one_lt_two hi), zero_add]

end

/-! ### The verdict by the numbers of set bits (R272) -/

theorem blockVerdict_one_one {syn : Nat} (hrow : synRow syn = 1) (hcol : synCol syn = 1) :
    blockVerdict syn = .ceData (lowBit syn) (lowBit (syn / 2 ^ 16)) := by
  rw [blockVerdict, hrow, hcol]
  rfl

/-- Two set bits in a half are more than one flipped bit gives. -/
theorem blockVerdict_two {syn : Nat} (h : synRow syn = 2 ∨ synCol syn = 2) : blockVerdict syn = .ue := by
  unfold blockVerdict
  split
  case h_5 => rfl
  all_goals omega

/-- Settles O36: a data bit flips one bit of each half of the syndrome, so two of them leave two bits set in a half that tells
them apart. -/
theorem blockCodeMendsOneDataBit : Obligations.BlockCodeMendsOneDataBit := by
  unfold Obligations.BlockCodeMendsOneDataBit
  refine ⟨fun i j hi hj => ?_, by decide, by decide, fun i j k l hi hj hk hl hne => blockVerdict_two ?_⟩
  · have hmod := dataFlip_mod j hi
    have hdiv := dataFlip_div j hi
    rw [blockVerdict_one_one (by rw [synRow_eq_ones_mod, hmod, ones_two_pow i hi])
      (by rw [synCol_eq_ones_div, hdiv, ones_two_pow j hj]), lowBit_eq_of_mod hi hmod,
      lowBit_eq_of_mod hj (by rw [hdiv, Nat.mod_eq_of_lt (Nat.pow_lt_pow_right one_lt_two hj)])]
  · rw [synRow_xor, synCol_xor, dataFlip_mod j hi, dataFlip_mod l hk, dataFlip_div j hi, dataFlip_div l hk]
    by_cases hik : i = k
    · exact .inr (ones_two_pow_xor j hj l hl fun hjl => hne (by rw [hik, hjl]))
    · exact .inl (ones_two_pow_xor i hi k hk hik)

end Sys2Proof.Machine
end

section
/-!
PROOFS. Sweeps and retirement (R281 to R285): what DRAM_RETIRE answers (O55), and the commands' completions (O20).
-/
set_option Elab.async false
namespace Sys2Proof.Machine

/-! ### Retirement -/

theorem State.retireNow_nv (s : State) (k i : Nat) : (s.retireNow k i).nv =
    if k = 0 then { s.nv with units := s.nv.units ++ [i] } else { s.nv with banks := s.nv.banks ++ [i] } := by
  simp only [State.retireNow, State.updateHealth_units, State.showRetired_units, apply_ite State.nv, State.raise_nv, ite_self]

theorem State.retireNow_isRetired (s : State) (k i : Nat) : (s.retireNow k i).isRetired k i = true := by
  rw [State.isRetired, State.retireNow_nv]
  split <;> simp

theorem State.isRetired_fset (s : State) (f : Fld) (v k i : Nat) : (s.fset f v).isRetired k i = s.isRetired k i := rfl

/-- The code that DRAM_RETIRE answers for a kind and an index (R284, R285). -/
def State.retireCode (s : State) (k i : Nat) : Nat :=
  if s.isRetired k i then retAlready else if retireReserved k i then retReserved else if s.retireFull k then retFull else retDone

theorem State.retireCode_lt_card (s : State) (k i : Nat) : s.retireCode k i < Reg.dramRetireResultCode.card := by
  unfold State.retireCode
  split_ifs <;> decide

theorem State.retireCode_done {s : State} {k i : Nat} (hnew : s.isRetired k i = false) (hfree : retireReserved k i = false)
    (hroom : s.retireFull k = false) : s.retireCode k i = retDone := by
  simp [State.retireCode, hnew, hfree, hroom]

/-- The state once DRAM_RETIRE holds the kind and the index that were written. -/
def State.retireAsked (s : State) (k i : Nat) : State := (s.fset Reg.dramRetireKind k).fset Reg.dramRetireIndex i

/-- The code decides alone whether anything is retired. -/
theorem execDramRetire_eq (kind index : Nat) {k i : Nat} (s : State) (hk : k = kind % 2) (hi : i = index % 2 ^ 23) :
    exec (.dramRetire kind index) s = .next
      ((if s.retireCode k i = retDone then (s.retireAsked k i).retireNow k i else s.retireAsked k i).fset
        Reg.dramRetireResultCode (s.retireCode k i)) := by
  have hcode : s.retireCode k i = (s.retireAsked k i).retireCode k i := rfl
  show execDramRetire kind index s = _
  rw [execDramRetire, ← hk, ← hi, hcode, ← State.retireAsked]
  unfold State.retireCode
  generalize s.retireAsked k i = u
  split_ifs <;> simp_all [retAlready, retReserved, retFull, retDone]

theorem execDramRetire_answers (kind index : Nat) {k i : Nat} (s : State) (hk : k = kind % 2) (hi : i = index % 2 ^ 23) :
    Completes (exec (.dramRetire kind index) s) (fun t => t.mem = s.mem ∧
      t.fget Reg.dramRetireResultCode = s.retireCode k i ∧ (s.retireCode k i = retDone → t.isRetired k i = true) ∧
      (s.retireCode k i ≠ retDone → t.nv = s.nv)) := by
  rw [execDramRetire_eq kind index s hk hi, completes_next, State.fget_fset_same, Nat.mod_eq_of_lt (s.retireCode_lt_card k i)]
  simp only [State.fset_mem, State.isRetired_fset, State.fset_nv]
  split
  next hdone =>
    rw [(State.retireNow_keeps ..).2]
    exact ⟨rfl, trivial, fun _ => State.retireNow_isRetired .., fun hne => absurd hdone hne⟩
  next hne => exact ⟨rfl, trivial, fun hdone => absurd hdone hne, fun _ => rfl⟩

/-- Settles O55: the lists grow with DONE alone. -/
theorem dramRetireAnswers : Obligations.DramRetireAnswers := by
  unfold Obligations.DramRetireAnswers
  intro kind index k i s hk hi
  refine (execDramRetire_answers kind index s hk hi).mono fun t ⟨hmem, hcode, hretired, hkept⟩ =>
    ⟨hmem, hcode, fun hnv => ?_⟩
  have hdone : s.retireCode k i = retDone := by
    by_contra hne
    rw [hkept hne] at hnv
    tauto
  exact ⟨hcode.trans hdone, hretired hdone⟩

/-! ### A sweep begins -/

theorem Fld.sweep_key_ne {f g : Fld} (c : Nat) (h : f.key ≠ g.key) : (f.sweep c).key ≠ (g.sweep c).key := by
  rw [Fld.sweep, Fld.sweep, Fld.key_shift, Fld.key_shift]
  omega

/-- A register of a sweep context reads as before once another of the same context is written. -/
theorem State.fget_fset_sweep (s : State) {f g : Fld} (c v : Nat) (h : f.key ≠ g.key) :
    (s.fset (f.sweep c) v).fget (g.sweep c) = s.fget (g.sweep c) :=
  s.fget_fset_ne v (Fld.sweep_key_ne c h)

@[simp] theorem State.sweepAt_setSweep (s : State) (c : Nat) (x : Option Sweep) : (s.setSweep c x).sweepAt c = x := by
  simp [State.sweepAt, State.setSweep]

@[simp] theorem State.sweepAt_fset (s : State) (f : Fld) (v c : Nat) : (s.fset f v).sweepAt c = s.sweepAt c := rfl

/-- The first address and the summary's that the registers of a sweep context name (R281, R287). -/
def State.sweepStart (s : State) (c : Nat) : Nat :=
  s.fget (Reg.sweepStartLoAddrLo.sweep c) * 4096 + s.fget (Reg.sweepStartHi.sweep c) * 2 ^ 32
def State.sweepSum (s : State) (c : Nat) : Nat :=
  s.fget (Reg.sweepSumLoAddrLo.sweep c) * 4096 + s.fget (Reg.sweepSumLoAddrMid.sweep c) * 64 +
    s.fget (Reg.sweepSumHi.sweep c) * 2 ^ 32

/-- The sweep that the registers of a context ask for in a mode. -/
def State.sweepAsked (s : State) (c mode : Nat) : Sweep :=
  { mode := mode % 4, start := s.sweepStart c, len := s.fget (Reg.sweepLen.sweep c) * 4096, sum := s.sweepSum c, began := s.now }

/-- MODE, which GO writes, is none of the registers that name the range. -/
theorem State.sweepAsked_fset_mode (s : State) (c v mode : Nat) :
    (s.fset (Reg.sweepCtrlMode.sweep c) v).sweepAsked c mode = s.sweepAsked c mode := by
  simp (disch := decide) only [State.sweepAsked, State.sweepStart, State.sweepSum, State.fget_fset_sweep, State.fset_now]

theorem execSweepGo_begins {s : State} {c mode : Nat} (hc : c < 4) (hidle : s.sweepAt c = none) (hscrubs : c = 3 → s.scrubs = [])
    (hmode : mode % 4 ≠ 3) (hmid : s.fget (Reg.sweepStartLoAddrMid.sweep c) = 0)
    (hone : oneMemory (s.sweepAsked c mode).start (s.sweepAsked c mode).len = true)
    (hsum : memKind (s.sweepAsked c mode).sum = .sram) :
    exec (.sweepGo c mode) s = .next (((s.fset (Reg.sweepCtrlMode.sweep c) mode).setSweep c (some (s.sweepAsked c mode))).fset
      (Reg.sweepStatusBusy.sweep c) 1) := by
  have hasked := s.sweepAsked_fset_mode c mode mode
  have hmid' := (s.fget_fset_sweep c mode (show Reg.sweepCtrlMode.key ≠ Reg.sweepStartLoAddrMid.key by decide)).trans hmid
  rw [← hasked] at hone hsum ⊢
  show execSweepGo c mode s = _
  rw [execSweepGo, if_neg (by simp +contextual [hidle, hscrubs, hc])]
  refine if_neg ?_
  rintro (h | h | h | h)
  · exact hmode h
  · exact h hmid'
  · exact absurd (h.symm.trans (congrArg not hone)) (by decide)
  · exact h hsum

/-- Settles O20: the registers that GO reads name a good range, and the answer of DRAM_RETIRE is DONE where
nothing stands against it. -/
theorem sweepAndRetireCommandsComplete : Obligations.SweepAndRetireCommandsComplete := by
  unfold Obligations.SweepAndRetireCommandsComplete
  refine ⟨fun c mode a s hc hidle _ hscrubs hmode hmid ha hone hsum => ?_, fun c pages x s hx => ?_, fun c x s hx => ?_,
    fun kind index s hnew hfree hroom => ?_, fun s hok => ?_⟩
  · subst ha
    rw [execSweepGo_begins hc hidle (fun _ => hscrubs) hmode hmid hone hsum, completes_next]
    exact ⟨⟨s.sweepAsked c mode, by rw [State.sweepAt_fset, State.sweepAt_setSweep], rfl, rfl, rfl⟩,
      State.fget_fset_same ..⟩
  · show execSweepAbort c pages s = _
    rw [execSweepAbort, hx]
  · show execSweepComplete c s = _
    rw [execSweepComplete, hx]
  · have hcode := State.retireCode_done hnew hfree hroom
    exact (execDramRetire_answers kind index s rfl rfl).mono fun t ⟨hmem, hanswer, hretired, _⟩ =>
      ⟨hretired hcode, hanswer.trans hcode, hmem⟩
  · show Completes (execRetireNvRetry s) _
    rw [execRetireNvRetry, if_pos hok, completes_next]
    exact ⟨rfl, State.fget_clear_same ..⟩

end Sys2Proof.Machine
end

section
/-!
PROOFS. Load contexts, relays and DATA packets (R262 to R269, R317, R330): how each command completes (O19).
-/
set_option Elab.async false
namespace Sys2Proof.Machine

/-! ### The registers of a load context -/

theorem Fld.ctx_key_ne {f g : Fld} (c : Nat) (h : f.key ≠ g.key) : (f.ctx c).key ≠ (g.ctx c).key := by
  rw [Fld.ctx, Fld.ctx, Fld.key_shift, Fld.key_shift]
  omega

/-- A register of a load context reads as before once another of the same context is written. -/
theorem State.fget_fset_ctx (s : State) {f g : Fld} (c v : Nat) (h : f.key ≠ g.key) :
    (s.fset (f.ctx c) v).fget (g.ctx c) = s.fget (g.ctx c) :=
  s.fget_fset_ne v (Fld.ctx_key_ne c h)

@[simp] theorem State.load_setLoad (s : State) (c : Nat) (x : LoadCtx) : (s.setLoad c x).load c = x := by
  simp [State.load, State.setLoad]

@[simp] theorem State.load_fset (s : State) (f : Fld) (v c : Nat) : (s.fset f v).load c = s.load c := rfl

@[simp] theorem State.load_setLoadSt (s : State) (c v : Nat) : (s.setLoadSt c v).load c = { s.load c with since := s.now } := by
  rw [State.setLoadSt, State.load_fset, State.load_setLoad]

theorem State.fget_setLoadSt_ctx (s : State) {g : Fld} (c v : Nat) (h : Reg.loadStatusState.key ≠ g.key) :
    (s.setLoadSt c v).fget (g.ctx c) = s.fget (g.ctx c) :=
  State.fget_fset_ctx _ c v h

theorem State.loadSt_setLoadSt (s : State) (c v : Nat) : (s.setLoadSt c v).loadSt c = v % 4 := State.fget_fset_same ..

/-- LOAD_CUR, which shows the descriptor, is none of a context's other registers. -/
theorem State.fget_showCur_ctx (s : State) {g : Fld} (c : Nat)
    (hlo : Reg.loadCurLo.key ≠ g.key) (hhi : Reg.loadCurHi.key ≠ g.key) :
    (s.showCur c).fget (g.ctx c) = s.fget (g.ctx c) := by
  rw [State.showCur, State.fget_fset_ctx _ c _ hhi, State.fget_fset_ctx _ c _ hlo]

theorem State.load_showCur (s : State) (c : Nat) : (s.showCur c).load c = s.load c := rfl

/-! ### The commands of a context -/

section
variable {s : State} {c : Nat}

theorem execLoadGo_fetches (irqVec : Nat) (hidle : s.loadSt c = ldIdle) :
    Completes (exec (.loadGo c irqVec) s) (fun t => t.loadSt c = ldFetch ∧
      (t.load c).cur = s.fget (Reg.loadHeadLo.ctx c) * 64 + s.fget (Reg.loadHeadHi.ctx c) * 2 ^ 32 ∧
      t.fget (Reg.loadCtrlIrqVec.ctx c) = irqVec % Reg.loadCtrlIrqVec.card) := by
  have hidle' : (s.fset (Reg.loadCtrlIrqVec.ctx c) irqVec).loadSt c = ldIdle :=
    (s.fget_fset_ctx c irqVec (by decide)).trans hidle
  show Completes (execLoadGo c irqVec s) _
  rw [execLoadGo, if_neg (not_not_intro hidle'), completes_next]
  refine ⟨?_, ?_, ?_⟩
  · exact (State.fget_showCur_ctx _ c (by decide) (by decide)).trans (State.loadSt_setLoadSt ..)
  · rw [State.load_showCur, State.load_setLoadSt, State.load_setLoad, State.fget_fset_ctx _ c _ (by decide),
      State.fget_fset_ctx _ c _ (by decide)]
  · rw [State.fget_showCur_ctx _ c (by decide) (by decide), State.fget_setLoadSt_ctx _ c _ (by decide), State.setLoad_fget]
    exact State.fget_fset_same ..

theorem execLoadAbort_fetching (moved : Nat) (bytes : List Nat) (hfetch : s.loadSt c = ldFetch) :
    exec (.loadAbort c moved bytes) s = .next (s.loadEnd c ldAborted) := by
  show Host.Outcome.next (s.abortLoad c bytes moved) = _
  rw [State.abortLoad, if_neg (by rw [hfetch]; decide), if_pos (by rw [hfetch]; decide)]

theorem execLoadDescArrive_moves {bytes d : List Nat} {u : State} (hfetch : s.loadSt c = ldFetch) (hlink : s.pci.lost = false)
    (hd : d = padTo 64 (bytes.map (· % 256))) (hu : u = s.setLoad c { s.load c with desc := d, acks := [] })
    (hgood : u.loadCheck c d = 0) (hlocal : loadRelay d = false) :
    exec (.loadDescArrive c false bytes) s = .next ((u.setLoad c
      { u.load c with plane := if loadKind d = 0 then none else some (planeTarget (loadDst d)), first := none }).setLoadSt c
      ldMove) := by
  subst hd hu
  show execLoadDescArrive c false bytes s = _
  rw [execLoadDescArrive, if_neg (not_not_intro hfetch), if_neg (by simp [State.dmaError, hlink])]
  extract_lets d u code k v
  rw [if_neg (not_not_intro hgood), if_neg (by rw [hlocal]; decide)]

theorem execLoadMoveComplete_ends {bytes d : List Nat} {r : List Nat × Bool × State} (hmove : s.loadSt c = ldMove)
    (hopen : s.firstOpen c = true) (hd : d = (s.load c).desc) (hlink : s.pci.lost = false ∨ loadKind d = 2)
    (hr : r = s.loadBytes c d (padTo (loadLen d) bytes) (loadLen d)) (hgood : r.2.1 = false) (hlocal : loadRelay d = false)
    (hkept : (loadKind d == 0 && (r.2.2.loadMove c d r.1).anyRetired (dramBase + loadDst d) (loadLen d)) = false) :
    exec (.loadMoveComplete c false bytes) s = .next ((r.2.2.loadMove c d r.1).loadEnd c ldDone) := by
  have herr : (false || (s.pci.lost && loadKind d != 2)) = false := by
    rcases hlink with h | h <;> simp [h]
  subst hd
  show execLoadMoveComplete c false bytes s = _
  rw [execLoadMoveComplete, if_neg (not_not_intro hmove), if_neg (by simp [hopen])]
  simp only [herr, ← hr, hgood, hlocal, Bool.false_eq_true, if_false, false_and]
  refine if_neg fun ⟨hkind, hretired⟩ => ?_
  rw [hkind, hretired] at hkept
  exact absurd hkept (by decide)

end

/-! ### Messages of a relay (R268, R269, R330) -/

/-- A good message that the package is to act on takes its effect in the state that has heard it. -/
theorem State.ctrlIn_of_actsOn {s : State} {p : Nat} {h : CtrlHdr} (hacts : s.actsOn p h) (type : Nat) (body : List Nat)
    (f : State → State) : s.ctrlIn p true type h body f = f (s.heard p h) := by
  obtain ⟨hlink, hclock, hdst, hfence, haddr, hnew⟩ := hacts
  have hunseen : ((s.seenReset h.srcPos h.srcUnit h.srcInc).ackTo p h).seenBefore h = false := hnew
  have hmine : ¬ (h.dstPos ≠ 0xFFFF ∧ h.dstPos ≠ s.position) := by tauto
  simp only [State.ctrlIn, hlink, hclock, if_neg hmine, hfence, haddr, hunseen, Bool.not_true, Bool.or_false,
    Bool.false_eq_true, if_false]
  rfl

theorem State.unlessQuarantined_free {s : State} (hfree : s.quarantined = false) (f : State → State) :
    s.unlessQuarantined f = f s :=
  if_neg (by rw [hfree]; decide)

section
variable {s : State} {p : Nat} {h : CtrlHdr} (hacts : s.actsOn p h) (hfree : (s.heard p h).quarantined = false)
include hacts hfree

theorem execRelayStart_opens {seq hopsLeft session kind len dst c : Nat} {r : RelayRx} {u v : State} (hc : c = tagCtx h.part)
    (hctx : c ≤ 32) (hnone : ((s.heard p h).load c).ends.find? (fun e => e.1 == h.srcPos && e.2.1 == seq) = none)
    (hr : r = ⟨seq, h.srcPos, session, hopsLeft - 1, kind, dst, len, 0, none, false, (s.heard p h).relayRing p h.srcPos⟩)
    (hu : u = (s.heard p h).openSession h session 1)
    (hv : v = (u.setLoad c { u.load c with
      rx := (u.load c).rx.filter (fun q => !(q.origin == r.origin && q.session == r.session)) ++ [r],
      ends := (u.load c).ends.filter (fun e => !(e.1 == h.srcPos && e.2.1 == seq)) }).showRx c r rxReceiving) :
    exec (.relayStart p true h seq hopsLeft session kind len dst) s = .next
      (if r.hops = 0 then v else v.relayOn r.ring h 0x18 (startBody seq r.hops session kind len dst)) := by
  subst hc hv hu hr
  show execRelayStart p true h seq hopsLeft session kind len dst s = _
  rw [execRelayStart, State.ctrlIn_of_actsOn hacts, State.unlessQuarantined_free hfree]
  dsimp only
  rw [if_neg (by omega), hnone]
  rfl

theorem execRelayEnd_announces {seq chunks c : Nat} {r : RelayRx} {u : State} (hc : c = tagCtx h.part)
    (hrx : ((s.heard p h).load c).rx? h.srcPos (fun r => r.seq == seq) = some r)
    (hu : u = if r.hops = 0 then s.heard p h else (s.heard p h).relayOn r.ring h 0x19 (endBody seq chunks)) :
    exec (.relayEnd p true h seq chunks) s = .next
      ((u.setRx c { r with total := some chunks }).rxFinish c { r with total := some chunks }) := by
  subst hc hu
  show execRelayEnd p true h seq chunks s = _
  rw [execRelayEnd, State.ctrlIn_of_actsOn hacts, State.unlessQuarantined_free hfree]
  dsimp only
  rw [hrx]

theorem execRelayAck_counts (chunks : Nat) {seq c : Nat} {x : LoadCtx} {u : State} (hc : c = tagCtx h.part)
    (hx : x = (s.heard p h).load c) (hwait : (s.heard p h).loadSt c = ldWaitAck) (hrelay : loadRelay x.desc = true)
    (hseq : x.relaySeq = seq) (hnew : x.acks.contains h.srcPos = false)
    (hu : u = (s.heard p h).setLoad c { x with acks := x.acks ++ [h.srcPos] }) (hwait' : u.loadSt c = ldWaitAck) :
    exec (.relayAck p true h seq chunks) s = .next
      (if loadHops x.desc ≤ x.acks.length + 1 then u.loadEnd c ldDone else u) := by
  subst hc hx hu
  show execRelayAck p true h seq chunks s = _
  rw [execRelayAck, State.ctrlIn_of_actsOn hacts, State.unlessQuarantined_free hfree]
  dsimp only
  rw [if_neg (by simp only [hwait, hrelay, hseq, hnew]; simp)]
  simp only [hwait', true_and]

end

/-! ### Chunks, time limits and DATA packets (R267, R310, R317) -/

section
variable {s : State} {p src session : Nat} {x : Session} (hlink : s.linkUp p = true) (hclock : s.hubStopped = false)
include hlink hclock

/-- What arrives for an open session that neither is revoked nor waits reaches it. -/
theorem execRelayChunkReceive_reaches (off : Nat) (bytes : List Nat) (late : Bool) (hfree : s.quarantined = false)
    (hopen : s.session? src session = some x) (hvalid : s.isRevoked x.src x.unit x.inc = false) (hon : s.sessionOn p x = true) :
    exec (.relayChunkReceive p src session off bytes late) s = .next
      (s.relayChunk p src session off (bytes.map (· % 256)) late) := by
  show execRelayChunkReceive p src session off bytes late s = _
  rw [execRelayChunkReceive, if_neg (by simp [hlink, hfree, hclock]), hopen]
  exact congrArg Host.Outcome.next (if_neg (by simp [hvalid, hon]))

theorem execDataPacketReceive_reaches (cls vc off : Nat) (bytes : List Nat) (hfree : s.quarantined = false)
    (hopen : s.session? src session = some x) (hvalid : s.isRevoked x.src x.unit x.inc = false) (hon : s.sessionOn p x = true)
    (hkind : x.kind ≠ 1) :
    exec (.dataPacketReceive p 0xFFFF src cls vc session off bytes) s = .next
      (((s.putPiece src session off bytes).ackHeld).serveAll.collectAll) := by
  show execDataPacketReceive p 0xFFFF src cls vc session off bytes s = _
  rw [execDataPacketReceive, if_neg (by simp [hlink, hclock]), if_neg (by simp), if_neg (by simp [hfree]), hopen]
  dsimp only
  rw [if_neg (by simp [hvalid, hon]), if_neg hkind]

theorem execDataPacketReceive_goesOn {dst q : Nat} (cls vc session off : Nat) (bytes : List Nat)
    (hdst : dst ≠ 0xFFFF ∧ dst ≠ s.position) (hroute : s.routeVia (some p) dst = some q) :
    exec (.dataPacketReceive p dst src cls vc session off bytes) s = .next
      (s.passOn q p (dataPacket dst src cls vc session off (bytes.map (· % 256)))) := by
  have hroute' : s.routeVia (some p) (dataPacket dst src cls vc session off (bytes.map (· % 256))).dst = some q := hroute
  show execDataPacketReceive p dst src cls vc session off bytes s = _
  rw [execDataPacketReceive, if_neg (by simp [hlink, hclock]), if_pos hdst, State.forward, hroute']

end

theorem execRelayRxTimeout_drops {s : State} {c origin session : Nat} {r : RelayRx}
    (hrx : (s.load c).rx? origin (fun r => r.session == session) = some r) :
    exec (.relayRxTimeout c origin session) s = .next
      ((s.showRx c r (if r.dropped then rxDropped else rxIncomplete)).dropRx c r) := by
  show execRelayRxTimeout c origin session s = _
  rw [execRelayRxTimeout, hrx]

theorem execRelayAckTimeout_ends {s : State} {c : Nat} (hwait : s.loadSt c = ldWaitAck) :
    exec (.relayAckTimeout c) s = .next (s.loadEnd c ldRelayShort) :=
  congrArg Host.Outcome.next (if_pos hwait)

/-- Settles O19: each command by its lemma above. -/
theorem loadAndRelayCommandsComplete : Obligations.LoadAndRelayCommandsComplete := by
  unfold Obligations.LoadAndRelayCommandsComplete
  refine ⟨fun c irqVec a s hidle ha => ha ▸ execLoadGo_fetches irqVec hidle,
    fun c moved bytes s => execLoadAbort_fetching moved bytes,
    fun c bytes d u s => execLoadDescArrive_moves,
    fun c bytes d r s => execLoadMoveComplete_ends,
    fun p seq hopsLeft session kind len dst c h r u v s hacts hfree => execRelayStart_opens hacts hfree,
    fun p seq chunks c h r u s hacts hfree => execRelayEnd_announces hacts hfree,
    fun p seq chunks c h x u s hacts hfree => execRelayAck_counts hacts hfree chunks,
    fun p src session off bytes late x s hlink hclock => execRelayChunkReceive_reaches hlink hclock off bytes late,
    fun c origin session r s => execRelayRxTimeout_drops,
    fun c s => execRelayAckTimeout_ends,
    fun p dst src cls vc session off q bytes s hlink hclock => ?_,
    fun p src cls vc session off bytes x s hlink hclock => execDataPacketReceive_reaches hlink hclock cls vc off bytes⟩
  exact execDataPacketReceive_goesOn hlink hclock cls vc session off bytes

end Sys2Proof.Machine
end

section
/-!
PROOFS. The states that a causeway goes round (R298): O54.
-/
set_option Elab.async false
namespace Sys2Proof.Machine

/-! ### The registers of a port -/

/-- The field stands among the registers of the ports or above them, past those that a record or a choice of source writes. -/
abbrev PortField (f : Fld) : Prop := Reg.linkStatusState.key ≤ f.key

/-- Another register of a port's window stands at another place of every window. -/
theorem Fld.port_key_ne {f g : Fld} (p q : Nat) (h : f.key % 0x8000 ≠ g.key % 0x8000) : (f.port p).key ≠ (g.port q).key := by
  rw [Fld.port, Fld.port, Fld.key_shift, Fld.key_shift]
  omega

/-- So does the same register of another port. -/
theorem Fld.port_key_ne_other (f : Fld) {p q : Nat} (h : p ≠ q) : (f.port p).key ≠ (f.port q).key := by
  rw [Fld.port, Fld.port, Fld.key_shift, Fld.key_shift]
  omega

theorem PortField.port {f : Fld} (hf : PortField f) (p : Nat) : PortField (f.port p) := by
  rw [PortField, Fld.port, Fld.key_shift]
  omega

theorem PortField.apart {f : Fld} (hf : PortField f) : Fld.apart f := by
  have below : ∀ g ∈ recordFields, g.key < Reg.linkStatusState.key := by decide
  intro g hg
  have := below g hg
  omega

theorem PortField.apart_way {f : Fld} (hf : PortField f) : ∀ g ∈ wayFields, g.key ≠ f.key := by
  have below : ∀ g ∈ wayFields, g.key < Reg.linkStatusState.key := by decide
  intro g hg
  have := below g hg
  omega

/-- What neither a record nor a choice of source writes stands when the source of waybeat is chosen anew. -/
theorem State.reSource_fget_apart {f : Fld} (hf : Fld.apart f) (hway : ∀ g ∈ wayFields, g.key ≠ f.key) (s : State) :
    s.reSource.fget f = s.fget f :=
  State.reSource_same (fun t => t.fget f) (fun t v g hg => t.fget_fset_ne v (hway g hg)) (fun _ _ => rfl)
    (fun t _ _ _ _ => State.record_fget hf t _ _ _ _ (by decide)) s

/-- A record of the torus below DF leaves the registers of the ports alone. -/
theorem State.torusRecord_fget {f : Fld} (hf : PortField f) (s : State) {sev : Nat} (code pos port lane inc value : Nat)
    (hsev : sev < 2) : (s.torusRecord sev code pos port lane inc value).fget f = s.fget f :=
  (State.pkgEvent_fget _ _ _).trans (State.record_fget hf.apart s _ _ _ _ hsev)

/-! ### CWAY_STATUS.STATE -/

section
variable (s : State) (a p : Nat)

/-- Both windows of an axis show the state of its causeway. -/
theorem State.setCway_cway (v : Nat) : (s.setCway a v).cway a = v % 4 :=
  (State.fget_fset_ne _ _ (Fld.port_key_ne_other _ (by omega))).trans (State.fget_fset_same ..)

/-- A register at another place of a port's window is none that shows the causeway. -/
theorem State.fset_cway {g : Fld} (v : Nat) (hg : g.key % 0x8000 ≠ Reg.cwayStatusState.key % 0x8000) :
    (s.fset (g.port p) v).cway a = s.cway a :=
  s.fget_fset_ne v (Fld.port_key_ne _ _ hg)

theorem State.setCwayHeld_cway (b : Bool) : (s.setCwayHeld a b).cway a = s.cway a :=
  (State.fset_cway _ _ _ _ (by decide)).trans (State.fset_cway _ _ _ _ (by decide))

theorem State.setCwayFault_cway (b : Bool) : (s.setCwayFault a b).cway a = s.cway a :=
  (State.fset_cway _ _ _ _ (by decide)).trans (State.fset_cway _ _ _ _ (by decide))

theorem State.setLink_cway (st width : Nat) : (s.setLink p st width).cway a = s.cway a := by
  have hcway : PortField (Reg.cwayStatusState.port (2 * a)) := PortField.port (by decide) _
  have htrace (t : State) (bit source kind : Nat) (data : List Nat) :
      (t.traceEvent bit source kind data).updateHealth.reSource.cway a = t.cway a :=
    (State.reSource_fget_apart hcway.apart hcway.apart_way _).trans
      ((State.updateHealth_fget hcway.apart _).trans (State.traceEvent_fget hcway.apart _ _ _ _ _))
  rw [State.setLink, htrace, State.fset_cway _ _ _ _ (by decide), State.fset_cway _ _ _ _ (by decide)]

theorem State.showLane_cway : (s.showLane p).cway a = s.cway a := by
  rw [State.showLane, State.fset_cway _ _ _ _ (by decide), State.fset_cway _ _ _ _ (by decide),
    State.fset_cway _ _ _ _ (by decide)]

theorem State.darken_cway : (s.darken p).cway a = s.cway a := by
  rw [State.darken, State.setLink_cway, State.lanesOff, State.showLane_cway]
  rfl

theorem State.undark_cway : (s.undark p).cway a = s.cway a := by
  unfold State.undark
  split
  · exact State.setLink_cway ..
  · rfl

theorem State.torusRecord_cway {sev : Nat} (code pos port lane inc value : Nat) (hsev : sev < 2) :
    (s.torusRecord sev code pos port lane inc value).cway a = s.cway a :=
  State.torusRecord_fget (PortField.port (by decide) _) s code pos port lane inc value hsev

/-! ### The commands of a causeway (R298) -/

theorem execCwayOpen_cway (hready : s.ready = true) : Completes (exec (.cwayOpen a) s) (fun t => t.cway a =
    if s.cway a = cwClosed ∧ (s.policy (2 * a) ≠ 0 ∨ s.policy (2 * a + 1) ≠ 0) then cwOpening else s.cway a) := by
  refine ⟨s.openCway a, congrArg Host.Outcome.next (if_pos hready), ?_⟩
  unfold State.openCway
  split
  · rw [State.setCwayFault_cway, State.setCwayHeld_cway, State.setCway_cway]
    rfl
  · rfl

theorem execCwayClose_cway :
    Completes (exec (.cwayClose a) s) (fun t => t.cway a = if s.cway a = cwOpen then cwClosing else s.cway a) := by
  refine ⟨s.holdCway a, rfl, ?_⟩
  unfold State.holdCway
  split
  · rw [State.setCwayHeld_cway, State.setCway_cway]
    rfl
  · rfl

theorem execCwayConfirm_cway : Completes (exec (.cwayConfirm a) s) (fun t => t.cway a =
    if s.cway a = cwOpening then cwOpen else if s.cway a = cwClosing then cwClosed else s.cway a) := by
  have hopen : ((s.setCway a cwOpen).each [2 * a, 2 * a + 1] State.undark).cway a = cwOpen :=
    (State.each_keeps _ (State.cway · a) _ (fun t p => t.undark_cway a p) _).trans (s.setCway_cway a cwOpen)
  show Completes (execCwayConfirm a s) _
  unfold execCwayConfirm
  split
  · exact ⟨_, rfl, hopen⟩
  split
  · exact ⟨_, rfl, s.setCway_cway a cwClosed⟩
  · exact ⟨s, rfl, rfl⟩

theorem execCwayConfirmTimeout_cway :
    Completes (exec (.cwayConfirmTimeout a) s) (fun t => t.cway a = if s.cway a = cwOpening then cwClosing else s.cway a) := by
  show Completes (execCwayConfirmTimeout a s) _
  unfold execCwayConfirmTimeout
  split
  · have hclosing : ((s.setCway a cwClosing).setCwayFault a true).cway a = cwClosing :=
      (State.setCwayFault_cway ..).trans (s.setCway_cway a cwClosing)
    exact ⟨_, rfl, (State.torusRecord_cway _ _ _ _ _ _ _ _ (by decide)).trans hclosing⟩
  · exact ⟨s, rfl, rfl⟩

end

/-- Settles O54: each command by its lemma above. -/
theorem causewayStates : Obligations.CausewayStates := by
  unfold Obligations.CausewayStates
  intro a s t c _ hready ht
  have reached {P : State → Prop} (hc : Completes (exec c s) P) : P t := by
    have hP := hc.outState s
    rwa [ht] at hP
  refine ⟨?_, ?_, ?_, ?_⟩ <;> rintro rfl
  · exact reached (execCwayOpen_cway s a hready)
  · exact reached (execCwayClose_cway s a)
  · exact reached (execCwayConfirm_cway s a)
  · exact reached (execCwayConfirmTimeout_cway s a)

end Sys2Proof.Machine
end

section
/-!
PROOFS. A port that goes down in a start that fails: O21.
-/
set_option Elab.async false
namespace Sys2Proof.Machine

/-- In LINKS_UP, with DRAM unit 0 retired: port 0 trains again after a failed attempt, and the collective whose status record goes
to that unit has a transfer on it. -/
def trainingBeforeReady : State :=
  (({ nv := { units := [0] },
      torus := { ports := [(0, { firstFail := some 0 })],
                 colls := [{ retiredStatusColl with sends := [⟨0, 1, 1, 0, 0, false, []⟩] }] } } : State).fset
    Reg.rstStatusStage stLinksUp).fset (Reg.linkStatusState.port 0) lkTraining

/-- The port goes DOWN, so that the collective ends. Its status record meets the retired unit, that UE fails the start (R432), and
paddock mode takes every port DARK (R434). -/
theorem trainingTimeLimit_before_ready_leaves_dark :
    (outState trainingBeforeReady (exec (.trainingTimeLimit 0) trainingBeforeReady)).linkSt 0 = lkDark := by decide +kernel

/-- Refutes O21, by its statement on the time limit of a training: in a start that fails on the way, the port that goes down ends
DARK. -/
theorem not_linkCommandsComplete : ¬ Obligations.LinkCommandsComplete := by
  unfold Obligations.LinkCommandsComplete
  intro h
  obtain ⟨-, -, -, -, -, -, htime, -⟩ := h
  obtain ⟨hdown, -⟩ := (htime 0 trainingBeforeReady (by decide +kernel) (by decide +kernel) (by decide)).outState
    trainingBeforeReady
  exact absurd (hdown.symm.trans trainingTimeLimit_before_ready_leaves_dark) (by decide)

end Sys2Proof.Machine
end

section
/-!
PROOFS. Control messages of the torus (R316 to R329): those that are turned away (O49, O50), and those that are acted on (O22).
-/
set_option Elab.async false
namespace Sys2Proof.Machine

/-! ### Messages that are turned away -/

/-- A message whose check fails is counted, where the port is up and the hub's clock runs, and nothing more (R316). -/
theorem State.ctrlIn_bad (s : State) (p type : Nat) (h : CtrlHdr) (body : List Nat) (f : State → State) :
    s.ctrlIn p false type h body f = if s.linkUp p && !s.hubStopped then s.bump Reg.torCtrlCrc else s := by
  unfold State.ctrlIn
  by_cases hready : s.linkUp p && !s.hubStopped
  · rw [if_neg (by simpa using hready), if_pos hready]
    rfl
  · rw [if_pos (by simpa [Decidable.imp_iff_not_or] using hready), if_neg hready]

/-- Settles O49: every command of the list hands its message to `ctrlIn`. -/
theorem badCrcCountsOnly : Obligations.BadCrcCountsOnly := by
  unfold Obligations.BadCrcCountsOnly
  intro p x y z w k l m n h s c hc
  simp only [List.mem_cons, List.not_mem_nil, or_false] at hc
  rcases hc with rfl | rfl | rfl | rfl | rfl | rfl | rfl | rfl | rfl | rfl | rfl | rfl | rfl | rfl | rfl
  all_goals exact congrArg Host.Outcome.next (State.ctrlIn_bad ..)

/-- A good message of a sender whose incarnation is revoked is fenced, and has no effect of its own (R321). -/
theorem State.ctrlIn_fenced {s : State} {p : Nat} {h : CtrlHdr} (hlink : s.linkUp p = true) (hclock : s.hubStopped = false)
    (hdst : h.dstPos = 0xFFFF ∨ h.dstPos = s.position)
    (hrevoked : (s.seenReset h.srcPos h.srcUnit h.srcInc).isRevoked h.srcPos h.srcUnit h.srcInc = true)
    (type : Nat) (body : List Nat) (f : State → State) :
    s.ctrlIn p true type h body f = (s.seenReset h.srcPos h.srcUnit h.srcInc).fence p h.srcPos h.srcUnit h.srcInc := by
  have hmine : ¬ (h.dstPos ≠ 0xFFFF ∧ h.dstPos ≠ s.position) := by tauto
  unfold State.ctrlIn
  rw [if_neg (by simp [hlink, hclock]), if_neg (by decide), if_neg hmine]
  exact if_pos hrevoked

/-- Settles O50. -/
theorem revokedSenderIsFenced : Obligations.RevokedSenderIsFenced := by
  unfold Obligations.RevokedSenderIsFenced
  intro p x y z w h s u c hc hlink hclock hdst hu hrevoked
  subst hu
  simp only [List.mem_cons, List.not_mem_nil, or_false] at hc
  rcases hc with rfl | rfl | rfl
  all_goals exact congrArg Host.Outcome.next (State.ctrlIn_fenced hlink hclock hdst hrevoked ..)

/-! ### Messages that are acted on -/

/-- The first message of a sender about a subject takes effect, and its SEQ is kept. -/
theorem State.inOrder_first {s : State} {h : CtrlHdr} {subject : List Nat} (hnew : s.newest h subject = none)
    (f : State → State) : s.inOrder h subject f = f { s with torus := { s.torus with
      latest := s.torus.latest ++ [([h.srcPos, h.srcUnit, h.srcInc] ++ subject, h.seq)] } } := by
  unfold State.inOrder
  rw [hnew]

section
variable {s : State} {p : Nat} {h : CtrlHdr} (hacts : s.actsOn p h)
include hacts

theorem execAck_frees (acked : Nat) : Completes (exec (.ack p true h acked) s) (fun t => t.torus.unacked =
    (s.heard p h).torus.unacked.filter (fun u => !(u.seq == acked && (u.dst == h.srcPos || u.port == some p)))) := by
  show Completes (execAck p true h acked s) _
  rw [execAck, State.ctrlIn_of_actsOn hacts]
  exact ⟨_, rfl, rfl⟩

theorem execRevoke_learns (pos unit inc : Nat) : exec (.revoke p true h pos unit inc) s = .next
    ((s.heard p h).withRev ⟨pos, unit, inc⟩ (fun u => (u.inOrder h [0x03, pos, unit] (fun v => v.learnRevoke ⟨pos, unit, inc⟩)).flood
      0x03 h (some p) (revokeBody ⟨pos, unit, inc⟩))) :=
  congrArg Host.Outcome.next (State.ctrlIn_of_actsOn hacts ..)

theorem execRevoked_learns {pos unit inc : Nat} {r : Rev} (hr : r = ⟨pos, unit, inc⟩) (hpos : pos = (s.heard p h).position)
    (hinc : inc = (s.heard p h).incarnation unit) :
    exec (.revoked p true h pos unit inc) s = .next ((s.heard p h).withRev r (fun u =>
      if unit = unitPackage ∧ (u.learnRevoke r).peerPos p = h.srcPos then
        ((u.learnRevoke r).setPort p { (u.learnRevoke r).port p with reported := true }).setDisc p 4
      else u.learnRevoke r)) := by
  subst hr
  show execRevoked p true h pos unit inc s = _
  rw [execRevoked, State.ctrlIn_of_actsOn hacts]
  exact congrArg Host.Outcome.next (if_neg (by tauto))

theorem execReadmit_readmits (pos unit inc new : Nat) : exec (.readmit p true h pos unit inc new) s = .next
    (((s.heard p h).inOrder h [0x03, pos, unit] (fun u => u.readmitted ⟨pos, unit, inc⟩)).flood 0x05 h (some p)
      (readmitBody ⟨pos, unit, inc⟩ new)) :=
  congrArg Host.Outcome.next (State.ctrlIn_of_actsOn hacts ..)

theorem execLinkState_maps (pos port state inc : Nat) : exec (.linkState p true h pos port state inc) s = .next
    (((s.heard p h).inOrder h [0x06, pos, port] (fun u => { u with torus := { u.torus with
      links := Map.set 0 u.torus.links (pos * 8 + port) (state + 1), replan := true } })).flood
      0x06 h (some p) (leBytes 2 pos ++ [port, state] ++ leBytes 4 inc)) :=
  congrArg Host.Outcome.next (State.ctrlIn_of_actsOn hacts ..)

variable (hfree : (s.heard p h).quarantined = false)
include hfree

/-- A step of a collective that does not run here yet is held (R325). -/
theorem execCollStep_holds {id step dir session : Nat} (bytes check : Nat)
    (hnewest : (s.heard p h).overtaken h (abortSubject h.part id) = false)
    (hnew : (s.heard p h).torus.collIn.find? (fun d => d.src == h.srcPos && d.part == h.part && d.id == id && d.step == step &&
      d.dir == dir && d.session == session) = none)
    (hnone : ((s.heard p h).openSession h session 0).coll? h.part id = none) :
    exec (.collStep p true h id step dir session bytes check) s = .next ((((s.heard p h).openSession h session 0).addCollIn
      ⟨h.srcPos, h.part, id, step, dir, session, bytes, check, false, false⟩).ackHeld) := by
  have hnone' (d : CollIn) : (((s.heard p h).openSession h session 0).addCollIn d).coll? h.part id = none := hnone
  show execCollStep p true h id step dir session bytes check s = _
  rw [execCollStep, State.ctrlIn_of_actsOn hacts, State.unlessQuarantined_free hfree]
  dsimp only
  rw [hnew]
  dsimp only
  rw [if_neg (by simp [hnewest]), hnone']

theorem execCollAck_frees {id : Nat} (step dir : Nat) {c : Coll} (hcoll : (s.heard p h).coll? h.part id = some c) :
    exec (.collAck p true h id step dir) s = .next (((s.heard p h).setColl
      { c with sends := c.sends.filter (fun x => !(x.step == step && x.dir == dir && x.dst == h.srcPos)) }).advanceColl h.part
      id) := by
  show execCollAck p true h id step dir s = _
  rw [execCollAck, State.ctrlIn_of_actsOn hacts, State.unlessQuarantined_free hfree, hcoll]

/-- The collective ends with the code of the member that aborts it; codes other than these three fail no step (R327). -/
theorem execCollAbort_ends {id code : Nat} (port pos : Nat) {c : Coll} {u : State}
    (hnew : (s.heard p h).newest h (abortSubject h.part id) = none) (hcoll : (s.heard p h).coll? h.part id = some c)
    (hlost : code ≠ ccLinkLost) (htimeout : code ≠ ccTimeout) (hfenced : code ≠ ccFenced)
    (hu : u = { s.heard p h with torus := { (s.heard p h).torus with latest :=
      (s.heard p h).torus.latest ++ [([h.srcPos, h.srcUnit, h.srcInc] ++ abortSubject h.part id, h.seq)] } }) :
    exec (.collAbort p true h id code port pos) s = .next (u.endColl c code port pos) := by
  have hcoll' : u.coll? h.part id = some c := hu ▸ hcoll
  show execCollAbort p true h id code port pos s = _
  rw [execCollAbort, State.ctrlIn_of_actsOn hacts, State.unlessQuarantined_free hfree, State.inOrder_first hnew, ← hu]
  dsimp only
  rw [hcoll']
  exact congrArg Host.Outcome.next (if_neg (by simp [hlost, htimeout, hfenced]))

theorem execExpertCall_serves {id set position vectors sessionIn inBytes outBytes e : Nat} {v : Served} {u w : State}
    (hservice : (s.heard p h).inService h.part = true)
    (hexpert : expertIndex ((s.heard p h).harness h.part) set position = some e)
    (hv : v = ⟨h.srcPos, h.part, id, e, vectors, sessionIn, inBytes, outBytes, h.seq, (s.heard p h).now, none⟩)
    (hu : u = (s.heard p h).openSession h sessionIn 2)
    (hw : w = u.each (u.torus.served.filter (u.supersedes h v)) State.dropCall) :
    exec (.expertCall p true h id set position vectors sessionIn inBytes outBytes) s = .next
      ({ w with torus := { w.torus with served := w.torus.served ++ [v] } } : State).serveAll := by
  subst hw hu hv
  show execExpertCall p true h id set position vectors sessionIn inBytes outBytes s = _
  rw [execExpertCall, State.ctrlIn_of_actsOn hacts, State.unlessQuarantined_free hfree]
  dsimp only
  rw [if_neg (by simp [hservice]), hexpert]

theorem execExpertDone_collects {id session : Nat} {c : ExpCall} {u : State}
    (hcall : (s.heard p h).torus.calls.find? (fun c => c.id == id && c.dst == h.srcPos) = some c)
    (hu : u = (s.heard p h).openSession h session 3) :
    exec (.expertDone p true h id 0 session) s = .next ({ u with torus := { u.torus with
      calls := u.torus.calls.map (fun d => if d = c then { d with sessionOut := some session } else d) } } : State).collectAll := by
  subst hu
  show execExpertDone p true h id 0 session s = _
  rw [execExpertDone, State.ctrlIn_of_actsOn hacts, State.unlessQuarantined_free hfree]
  dsimp only
  rw [hcall]
  exact congrArg Host.Outcome.next (if_neg (by decide))

end

/-! ### Time limits and retransmission (R316, R325, R326, R329) -/

section
variable {s : State}

theorem execCollStepResend_resends {part id : Nat} {c : Coll} (dir : Nat) (hcoll : s.coll? part id = some c)
    (hfree : s.quarantined = false) :
    exec (.collStepResend part id dir) s = .next
      (s.each (c.sends.filter (fun x => x.dir == dir && s.linkUp x.port)) (fun s x => s.sendCollStep c x)) := by
  show execCollStepResend part id dir s = _
  rw [execCollStepResend, hcoll]
  exact congrArg Host.Outcome.next (State.unlessQuarantined_free hfree _)

theorem execCollTimeout_aborts {part id : Nat} {c : Coll} (hcoll : s.coll? part id = some c) :
    exec (.collTimeout part id) s = .next (s.abortColl c ccTimeout 0xFF) := by
  show execCollTimeout part id s = _
  rw [execCollTimeout, hcoll]

theorem execExpertCallTimeout_callsAgain {id : Nat} {c d : ExpCall} {y : Step} {k : Nat × State} {u : State}
    (hcall : s.torus.calls.find? (fun c => c.id == id) = some c) (hopen : c.sessionOut = none) (honce : c.again = false)
    (hstep : s.step? c.step = some y) (hk : k = s.takeCall) (hd : d = { c with id := k.1, again := true })
    (hu : u = { k.2 with torus := { k.2.torus with calls := k.2.torus.calls.map (fun z => if z = c then d else z) } })
    (hfree : u.quarantined = false) :
    exec (.expertCallTimeout id) s = .next (u.callExpert d y.part (u.harness y.part)) := by
  subst hk hd hu
  refine congrArg Host.Outcome.next (?_ : s.callLost id = _)
  rw [State.callLost, hcall]
  dsimp only
  rw [if_neg (by simp [hopen]), if_neg (by simp [honce]), hstep]
  exact State.unlessQuarantined_free hfree _

/-- A message to the peer on a link goes out once more, by that link. -/
theorem execCtrlRetransmit_resends {unit seq p : Nat} {u : Unacked} {v : State}
    (hkept : s.torus.unacked.find? (fun u => u.unit == unit && u.seq == seq) = some u) (hcarries : s.carries u.type = true)
    (hsends : u.sends < 8) (hport : u.port = some p)
    (hv : v = ({ s with torus := { s.torus with unacked := s.torus.unacked.map (fun w =>
      if w = u then { w with sends := w.sends + 1 } else w) } } : State).bump Reg.torCtrlRetx) :
    exec (.ctrlRetransmit unit seq) s = .next (v.sendOn p u.type (v.header u.unit u.seq 0xFFFF u.part true) u.body) := by
  subst hv
  show execCtrlRetransmit unit seq s = _
  rw [execCtrlRetransmit, hkept]
  dsimp only
  rw [if_neg (by simp [hcarries]), if_pos hsends, hport]
  rfl

end

/-! ### The plan of routes (R328) -/

/-- What the plan holds for a destination: the port of its detour + 1, or 0 where dimension order reaches it or nothing does. -/
def State.plannedDetour (s : State) (q : Nat) : Nat :=
  if s.walks q (2 * s.positions.length) none s.position then 0 else (s.detour q).elim 0 (· + 1)

/-- The plan with one more destination. -/
def State.planStep (s : State) (m : SMap Nat) (q : Nat) : SMap Nat :=
  if q = s.position ∨ s.walks q (2 * s.positions.length) none s.position then m
  else match s.detour q with | some p => Map.set 0 m q (p + 1) | none => m

theorem execRouteReplan_eq {s : State} (hruns : s.coreHalted 4 = false) : exec .routeReplan s = .next
    ({ s with torus := { s.torus with detours := s.positions.foldl s.planStep [], replan := false } } : State).reSource :=
  if_neg (by simp [hruns])

theorem State.planStep_get_ne (s : State) (m : SMap Nat) {q r : Nat} (h : r ≠ q) : Map.get 0 (s.planStep m r) q = Map.get 0 m q := by
  unfold State.planStep
  repeat' split
  · rfl
  · exact Map.get_set_ne _ _ _ _ h
  · rfl

/-- The plan of a destination is made from an empty place, or stands as it was made. -/
theorem State.planStep_get_same {s : State} {m : SMap Nat} {q : Nat} (hq : q ≠ s.position)
    (hm : Map.get 0 m q = 0 ∨ Map.get 0 m q = s.plannedDetour q) : Map.get 0 (s.planStep m q) q = s.plannedDetour q := by
  have hempty : s.plannedDetour q = 0 → Map.get 0 m q = s.plannedDetour q := fun h0 => hm.elim (·.trans h0.symm) id
  unfold State.planStep
  by_cases hwalks : s.walks q (2 * s.positions.length) none s.position
  · rw [if_pos (Or.inr hwalks)]
    exact hempty (if_pos hwalks)
  · have hplanned : s.plannedDetour q = (s.detour q).elim 0 (· + 1) := if_neg hwalks
    rw [if_neg (not_or.2 ⟨hq, hwalks⟩)]
    cases hdetour : s.detour q with
    | none => exact hempty (by rw [hplanned, hdetour]; rfl)
    | some p => rw [hplanned, hdetour]; exact Map.get_set_same _ _ _ _

/-- Each destination of a list is planned for, whatever stands beside it in the list. -/
theorem State.planStep_foldl_get {s : State} {q : Nat} (hq : q ≠ s.position) (xs : List Nat) (m : SMap Nat)
    (h : Map.get 0 m q = s.plannedDetour q ∨ (q ∈ xs ∧ Map.get 0 m q = 0)) :
    Map.get 0 (xs.foldl s.planStep m) q = s.plannedDetour q := by
  induction xs generalizing m with
  | nil => simpa using h
  | cons x xs ih =>
    refine ih _ ?_
    by_cases hx : x = q
    · subst hx
      exact Or.inl (State.planStep_get_same hq (h.symm.imp_left And.right))
    · rw [s.planStep_get_ne m hx]
      simpa [Ne.symm hx] using h

/-! ### What a record below DF leaves alone -/

section
variable {β : Type} (P : State → β) (hshow : ∀ s u : State, P (s.behind u) = P s)
  (hsafety : ∀ (s : State) (x : Safety), P { s with safety := x } = P s)
include hshow hsafety

/-- An entry of the log is the safety unit's; the rest of it is what shows. -/
theorem State.append_same (s : State) (r : LogRec) : P (s.append r) = P s := by
  have hlog (x : Safety) (v : Nat) (bit source kind : Nat) (data : List Nat) :
      P ((({ s with safety := x } : State).fset Reg.safeLogHead v).traceEvent bit source kind data) = P s :=
    ((State.traceEvent_showsOnly _ bit source kind data).same P hshow).trans
      (((State.showsOnly_fset _ _ _ _).2 (State.ShowsOnly.refl _)).same P hshow |>.trans (hsafety s x))
  unfold State.append
  dsimp only
  repeat' split
  · exact ((State.traceTrigger_showsOnly _ _).same P hshow).trans (hlog ..)
  · exact ((State.traceTrigger_showsOnly _ _).same P hshow).trans (hlog ..)
  · exact hlog ..

theorem State.updateHealth_same (s : State) : P s.updateHealth = P s := by
  have happend := State.append_same P hshow hsafety
  have hset (t : State) (g : Fld) (v : Nat) : P (t.fset g v) = P t :=
    ((State.showsOnly_fset _ _ _ _).2 (State.ShowsOnly.refl t)).same P hshow
  have hpins (t : State) (z : Pins) : P { t with pins := z } = P t :=
    ((State.showsOnly_pins _ _ _).2 (State.ShowsOnly.refl t)).same P hshow
  unfold State.updateHealth
  dsimp only
  split <;> split <;> simp only [hpins, happend, hset]

end

theorem State.reSource_torus (s : State) : s.reSource.torus = s.torus :=
  State.reSource_same State.torus (fun _ _ _ _ => rfl) (fun _ _ => rfl)
    (State.record_info_same State.torus (State.append_same _ (fun _ _ => rfl) (fun _ _ => rfl))
      (State.updateHealth_same _ (fun _ _ => rfl) (fun _ _ => rfl))) s

theorem execRouteReplan_plans {s : State} {q : Nat} (hruns : s.coreHalted 4 = false) (hmem : q ∈ s.positions)
    (hq : q ≠ s.position) : Completes (exec .routeReplan s) (fun t => t.torus.replan = false ∧ t.mem = s.mem ∧
      Map.get 0 t.torus.detours q = s.plannedDetour q) := by
  rw [execRouteReplan_eq hruns, completes_next, State.reSource_torus]
  exact ⟨rfl, (State.reSource_keeps _).2, State.planStep_foldl_get hq _ _ (Or.inr ⟨hmem, rfl⟩)⟩

/-! ### The fencing commands of the registers (R319, R320) -/

theorem execTorReadmit_readmits {s : State} {entry : Nat} {r : Rev} (hentry : Map.get none s.torus.revs entry = some r)
    (hunit : r.unit / 2 ^ 28 ≤ 1) (hinc : r.inc % 256 ≠ 255) (hruns : s.coreHalted 4 = false) :
    exec (.torReadmit entry) s = .next (((s.fset Reg.torReadmitEntry entry).readmitted r).floodNew 0x05
      (readmitBody r (r.inc + 1))) := by
  have hentry' : Map.get none (s.fset Reg.torReadmitEntry entry).torus.revs entry = some r := hentry
  have hruns' : (s.fset Reg.torReadmitEntry entry).coreHalted 4 = false := by
    rwa [State.coreHalted, State.flag, State.fget_fset_ne _ _ (by decide)]
  show execTorReadmit entry s = _
  rw [execTorReadmit, hentry']
  exact if_neg (not_or.2 ⟨Nat.not_lt.2 hunit, not_or.2 ⟨hinc, by simp [hruns']⟩⟩)

/-- Settles O22: each command by its lemma above. -/
theorem torusMessagesComplete : Obligations.TorusMessagesComplete := by
  unfold Obligations.TorusMessagesComplete
  exact ⟨fun p acked h s hacts => execAck_frees hacts acked,
    fun p pos unit inc h r s hacts hr => hr ▸ execRevoke_learns hacts pos unit inc,
    fun p pos unit inc h r s hacts => execRevoked_learns hacts,
    fun p pos unit inc new h s hacts => execReadmit_readmits hacts pos unit inc new,
    fun p pos port state inc h s hacts => execLinkState_maps hacts pos port state inc,
    fun p id step dir session bytes check h s hacts hfree hnewest hnew _ =>
      execCollStep_holds hacts hfree bytes check hnewest hnew,
    fun p id step dir h c s hacts hfree => execCollAck_frees hacts hfree step dir,
    fun p id code port pos h c u s hacts hfree => execCollAbort_ends hacts hfree port pos,
    fun part id dir c s => execCollStepResend_resends dir,
    fun part id c s => execCollTimeout_aborts,
    fun p id set position vectors sessionIn inBytes outBytes e h v u w s hacts hfree => execExpertCall_serves hacts hfree,
    fun p id session h c u s hacts hfree hcall hu _ => execExpertDone_collects hacts hfree hcall hu,
    fun id c y k d u s => execExpertCallTimeout_callsAgain,
    fun unit seq p u v s => execCtrlRetransmit_resends,
    fun q s => execRouteReplan_plans,
    fun pos u s hu => hu ▸ rfl,
    fun entry r s => execTorReadmit_readmits⟩

end Sys2Proof.Machine
end

section
/-!
SUPPORT. What a dangerous failure leaves alone (R366, R454): the clocks, and the registers between those of the store and those of
the safety unit. It writes those of the safety, trace and cache units, which stand above, and where it fails the start those of RST,
which stand below.
-/
set_option Elab.async false
namespace Sys2Proof.Machine

/-- The field stands among the registers of the store or above them, and below those of the safety unit: the clocks' do. -/
abbrev MiddleField (f : Fld) : Prop := Reg.nvStatusBusy.key ≤ f.key ∧ f.key < Reg.safeStatusHealth.key

/-- The field stands among the registers of the safety unit or above them. -/
def Fld.high (g : Fld) : Bool := decide (Reg.safeStatusHealth.key ≤ g.key)

theorem Fld.high_shift {g : Fld} (d : Nat) (hg : Fld.high g = true) : Fld.high (g.shift d) = true := by
  have := of_decide_eq_true hg
  exact decide_eq_true (by rw [Fld.key_shift]; omega)

/-- The clocks and the middle registers have not changed. -/
def State.ClocksStand (s t : State) : Prop := t.clocks = s.clocks ∧ ∀ f, MiddleField f → t.fget f = s.fget f

theorem State.ClocksStand.refl (s : State) : s.ClocksStand s := ⟨rfl, fun _ _ => rfl⟩

theorem State.ClocksStand.trans {s t u : State} (h : s.ClocksStand t) (h' : t.ClocksStand u) : s.ClocksStand u :=
  ⟨h'.1.trans h.1, fun f hf => (h'.2 f hf).trans (h.2 f hf)⟩

section
variable {s t : State} (h : s.ClocksStand t)
include h

theorem State.ClocksStand.each {α : Type} {f : State → α → State} (hf : ∀ u x, s.ClocksStand u → s.ClocksStand (f u x))
    (xs : List α) : s.ClocksStand (t.each xs f) := t.each_inv s.ClocksStand f hf xs h

theorem State.ClocksStand.fset {g : Fld} (hg : Fld.high g = true) (v : Nat) : s.ClocksStand (t.fset g v) := by
  refine ⟨h.1, fun f hf => (t.fget_fset_ne v ?_).trans (h.2 f hf)⟩
  have := of_decide_eq_true hg
  have := hf.2
  omega

theorem State.ClocksStand.bump {g : Fld} (hg : Fld.high g = true) : s.ClocksStand (t.bump g) := h.fset hg _

theorem State.ClocksStand.raise {g : Fld} (hg : Fld.high g = true) : s.ClocksStand (t.raise g) := h.fset hg _

theorem State.ClocksStand.setKv (z : Kv) : s.ClocksStand { t with kv := z } := h

theorem State.ClocksStand.setPage (p id : Nat) (x : Page) : s.ClocksStand (t.setPage p id x) := h

theorem State.ClocksStand.setSeq (p slot c : Nat) (x : SeqTab) : s.ClocksStand (t.setSeq p slot c x) := h

theorem State.ClocksStand.setSlot (g : Nat) (x : Slot) : s.ClocksStand (t.setSlot g x) := h

theorem State.ClocksStand.setSafety (x : Safety) : s.ClocksStand { t with safety := x } := h

/-! Pages and page waits -/

theorem State.ClocksStand.reclaim (p id : Nat) : s.ClocksStand (t.reclaim p id) := by
  have hfreed := (h.setPage p id {}).bump (g := Reg.kvPReclaim.kvPart p) (Fld.high_shift _ (by decide))
  unfold State.reclaim
  dsimp only
  split
  · split
    · exact hfreed
    · exact hfreed.setKv _
  · exact h

theorem State.ClocksStand.releasePage (p id : Nat) : s.ClocksStand (t.releasePage p id) := (h.setPage _ _ _).reclaim p id

theorem State.ClocksStand.releaseCache (p slot c : Nat) : s.ClocksStand (t.releaseCache p slot c) := by
  refine State.ClocksStand.setSeq (State.ClocksStand.setKv (h.each (fun u e hu => ?_) _) _) _ _ _ _
  split
  · exact hu
  · exact hu.releasePage p _

theorem State.ClocksStand.passFrames (p : Nat) (ws : List Waiter) : s.ClocksStand (t.passFrames p ws) := by
  refine h.each (fun u w hu => hu.each (fun v f hv => ?_) _) _
  split
  · exact hv
  · exact hv.setKv _

theorem State.ClocksStand.leaveWait (p slot : Nat) : s.ClocksStand (t.leaveWait p slot) := (h.setKv _).passFrames p _

theorem State.ClocksStand.releaseSeq (p slot : Nat) : s.ClocksStand (t.releaseSeq p slot) :=
  (h.each (fun _ c hu => hu.releaseCache p slot c) _).leaveWait p slot

theorem State.ClocksStand.abandonTentative (p slot : Nat) : s.ClocksStand (t.abandonTentative p slot) :=
  h.each (fun _ _ hu => hu.each (fun _ _ hv => hv.setPage _ _ _) _) _

/-! Vectors and trace, and a slot that faults -/

theorem State.ClocksStand.vecEvent (fn vec : Nat) : s.ClocksStand (t.vecEvent fn vec) :=
  h.trans ⟨(t.vecEvent_units fn vec).2.2.2.2.2.1, fun f _ => t.vecEvent_fget fn vec f⟩

theorem State.ClocksStand.pkgEvent (e : PkgEvent) : s.ClocksStand (t.pkgEvent e) := h.vecEvent _ _

theorem State.ClocksStand.raiseVec (fn vec : Nat) : s.ClocksStand (t.raiseVec fn vec) := by
  unfold State.raiseVec
  split
  · exact h
  · exact h.vecEvent fn vec

theorem State.ClocksStand.traceEvent (bit source kind : Nat) (data : List Nat) :
    s.ClocksStand (t.traceEvent bit source kind data) :=
  h.trans ⟨(t.traceEvent_units bit source kind data).2.2.2.2.2.1,
    fun _ hf => State.traceEvent_fget (LowField.apart hf.2) t bit source kind data⟩

theorem State.ClocksStand.signalSlot (p g : Nat) : s.ClocksStand (t.signalSlot p g) := by
  have hdone (k v : Nat) := h.fset (g := (Reg.gateDoneMap.gate p).nth k) (Fld.high_shift _ (Fld.high_shift _ (by decide))) v
  unfold State.signalSlot
  dsimp only
  split
  · exact (hdone _ _).raiseVec _ _
  · exact hdone _ _

theorem State.ClocksStand.enter (p g : Nat) (st : SlotSt) (code : Nat) : s.ClocksStand (t.enter p g st code) := by
  have hset (data : List Nat) (x : Slot) := (h.traceEvent 1 (unitPart p) 0x20 data).setSlot g x
  unfold State.enter
  dsimp only
  split
  · exact (hset _ _).signalSlot p g
  · exact hset _ _

theorem State.ClocksStand.faultSlot (p g code : Nat) : s.ClocksStand (t.faultSlot p g code) :=
  (((h.abandonTentative p _).releaseSeq p _).setSlot g _).enter p g .faulted code

theorem State.ClocksStand.poisonPages (scope start : Nat) : s.ClocksStand (t.poisonPages scope start).1 :=
  h.each (fun _ _ hu => hu.setPage _ _ _) _

theorem State.ClocksStand.markSlots (scope start : Nat) : s.ClocksStand (t.markSlots scope start).1 := by
  refine h.each (fun u e hu => ?_) _
  split
  · exact (hu.faultSlot _ _ _).bump (by decide)
  · exact hu

/-! Records, reports and health -/

theorem State.ClocksStand.append (r : LogRec) : s.ClocksStand (t.append r) :=
  h.trans ⟨(t.append_units r).2.2.2.2.2.1, fun _ hf => State.append_fget (LowField.apart hf.2) t r⟩

theorem State.ClocksStand.updateHealth : s.ClocksStand t.updateHealth :=
  h.trans ⟨t.updateHealth_units.2.2.2.2.2.1, fun _ hf => State.updateHealth_fget (LowField.apart hf.2) t⟩

theorem State.ClocksStand.mgmtTo (dst : List Nat) (type req : Nat) (body : List Nat) :
    s.ClocksStand (t.mgmtTo dst type req body) := by
  unfold State.mgmtTo
  split
  · exact h
  · exact h

theorem State.ClocksStand.mgmtSend (type : Nat) (body : List Nat) : s.ClocksStand (t.mgmtSend type body) := by
  unfold State.mgmtSend
  dsimp only
  split
  · exact h.mgmtTo _ _ _ _
  · exact (h.mgmtTo _ _ _ _).mgmtTo _ _ _ _

theorem State.ClocksStand.setReports (rs : List Report) : s.ClocksStand (t.setReports rs) :=
  (h.setSafety _).fset (by decide) _

theorem State.ClocksStand.report (r : LogRec) (scope start marked poisoned : Nat) :
    s.ClocksStand (t.report r scope start marked poisoned) := by
  unfold State.report
  dsimp only
  split
  · exact ((h.setSafety _).raise (by decide)).append _
  · split
    · exact (((h.setSafety _).setReports _).mgmtSend _ _).bump (by decide)
    · exact (h.setSafety _).setReports _

theorem State.ClocksStand.keepFaults : s.ClocksStand t.keepFaults := by
  unfold State.keepFaults
  dsimp only
  split
  · exact h
  · exact h

theorem State.ClocksStand.assertFaultN : s.ClocksStand t.assertFaultN := h.raise (by decide)

/-- Of the registers of the start, paddock mode writes those of RST. -/
theorem State.ClocksStand.enterPaddock (reason code : Nat) : s.ClocksStand (t.enterPaddock reason code) := by
  refine h.trans ⟨(t.enterPaddock_units reason code).2.2.2.2.2, fun f hf => ?_⟩
  cases hpaddock : t.paddock with
  | true => rw [State.enterPaddock, if_pos hpaddock]
  | false =>
    have hrst : ∀ g ∈ [Reg.rstStatusPaddock, Reg.rstStatusBootLock, Reg.rstStatusReason, Reg.rstFaultStage, Reg.rstFaultCode,
        Reg.rstStatusFailCount], g.key < Reg.nvStatusBusy.key := by decide
    have hne {g : Fld} (hg : g ∈ [Reg.rstStatusPaddock, Reg.rstStatusBootLock, Reg.rstStatusReason, Reg.rstFaultStage,
        Reg.rstFaultCode, Reg.rstStatusFailCount]) : g.key ≠ f.key := by
      have := hrst g hg
      have := hf.1
      omega
    rw [State.enterPaddock_fget hf.2 reason code hpaddock, State.fget_fset_ne _ _ (hne (by simp)),
      State.fget_fset_ne _ _ (hne (by simp)), State.fget_fset_ne _ _ (hne (by simp)), State.fget_raise_ne _ (hne (by simp)),
      State.fget_raise_ne _ (hne (by simp)), State.failCounted_fget (hne (by simp))]

theorem State.ClocksStand.failStart (sev code : Nat) (hubUe : Bool) :
    s.ClocksStand (if t.failsStart sev hubUe then t.enterPaddock 2 code else t).updateHealth := by
  refine State.ClocksStand.updateHealth ?_
  split
  · exact h.enterPaddock 2 code
  · exact h

theorem State.ClocksStand.danger (sev cls code source : Nat) (ctx : List Nat) (scope start : Nat) :
    s.ClocksStand (t.danger sev cls code source ctx scope start) := by
  unfold State.danger
  dsimp only
  apply State.ClocksStand.failStart
  apply State.ClocksStand.report
  apply State.ClocksStand.markSlots
  apply State.ClocksStand.poisonPages
  apply State.ClocksStand.pkgEvent
  apply State.ClocksStand.assertFaultN
  apply State.ClocksStand.keepFaults
  exact (h.append _).bump (by decide)

end

end Sys2Proof.Machine
end

section
/-!
SUPPORT. What the discipline of waymark time leaves alone (R372 to R377): what PPS and PTP have last given, an exchange with the PTP
master that is complete, and the registers of the PPS edge.
-/
set_option Elab.async false
namespace Sys2Proof.Machine

/-- What PPS and PTP have last given. -/
def Way.sources (w : Way) : Int × Bool × Nat × Bool × Int := (w.ppsOffset, w.ppsValid, w.ppsEdges, w.ptpValid, w.ptpOffset)

/-- The sources give what they gave, no question to the PTP master is open that was not, and the PPS registers stand. -/
def State.Steered (s t : State) : Prop :=
  t.clocks.way.sources = s.clocks.way.sources ∧ (s.clocks.way.ptp.asked = none → t.clocks.way.ptp.asked = none) ∧
    ∀ f ∈ [Reg.wayPpsLo, Reg.wayPpsHi], t.fget f = s.fget f

theorem State.Steered.refl (s : State) : s.Steered s := ⟨rfl, id, fun _ _ => rfl⟩

theorem State.Steered.trans {s t u : State} (h : s.Steered t) (h' : t.Steered u) : s.Steered u :=
  ⟨h'.1.trans h.1, h'.2.1 ∘ h.2.1, fun f hf => (h'.2.2 f hf).trans (h.2.2 f hf)⟩

section
variable {s t : State} (h : s.Steered t)
include h

theorem State.Steered.fset {g : Fld} (hg : ∀ f ∈ [Reg.wayPpsLo, Reg.wayPpsHi], g.key ≠ f.key) (v : Nat) :
    s.Steered (t.fset g v) := ⟨h.1, h.2.1, fun f hf => (t.fget_fset_ne v (hg f hf)).trans (h.2.2 f hf)⟩

theorem State.Steered.setWay {w : Way} (hsources : w.sources = t.clocks.way.sources)
    (hasked : t.clocks.way.ptp.asked = none → w.ptp.asked = none) : s.Steered (t.setWay w) :=
  ⟨hsources.trans h.1, hasked ∘ h.2.1, h.2.2⟩

theorem State.Steered.record (cls code source : Nat) (ctx : List Nat) : s.Steered (t.record 0 cls code source ctx) := by
  have hclocks := (t.record_units 0 cls code source ctx).2.2.2.2.2
  have hapart : ∀ f ∈ [Reg.wayPpsLo, Reg.wayPpsHi], Fld.apart f :=
    fun f hf => LowField.apart ((by decide : ∀ f ∈ [Reg.wayPpsLo, Reg.wayPpsHi], f.key < Reg.safeStatusHealth.key) f hf)
  exact h.trans ⟨by rw [hclocks], by rw [hclocks]; exact id,
    fun f hf => State.record_fget (hapart f hf) t cls code source ctx (by decide)⟩

theorem State.Steered.acquire : s.Steered t.acquire := State.Steered.setWay (h.fset (by decide) 1) rfl id

theorem State.Steered.reSource : s.Steered t.reSource := by
  unfold State.reSource
  extract_lets u old new st v
  have hu : s.Steered u := h.fset (by decide) _
  have hv : s.Steered v := (hu.fset (by decide) _).fset (by decide) _
  repeat' split
  · exact hu
  · exact hu
  · exact (hv.fset (by decide) 3).record _ _ _ _
  · exact hv
  · exact hv.acquire
  · exact hv.acquire
  · exact hv.setWay rfl id

theorem State.Steered.setFar (o : Int) : s.Steered (t.setFar o) := by
  unfold State.setFar
  extract_lets far u due
  have hu : s.Steered u := h.fset (by decide) _
  split
  · exact (hu.setWay (w := { u.clocks.way with farAt := some u.now }) rfl id).record _ _ _ _
  · exact hu

theorem State.Steered.setNow (v : Nat) : s.Steered (t.setNow v) :=
  State.Steered.setWay (t := { t with now := v % 2 ^ 64 }) h rfl fun _ => rfl

theorem State.Steered.wayFiltered (o rate : Int) : s.Steered (t.wayFiltered o rate) := by
  unfold State.wayFiltered
  extract_lets u v n way w
  have hu : s.Steered u := (h.fset (by decide) _).setFar o
  have hv : s.Steered v := hu.fset (by decide) _
  have hw : s.Steered w := hv.setWay rfl id
  repeat' split
  · exact hv
  · exact hw.fset (by decide) 2
  · exact hw

theorem State.Steered.wayTrack (o : Int) : s.Steered (t.wayTrack o) := by
  unfold State.wayTrack
  extract_lets os us
  have hkept : s.Steered (t.setWay { t.clocks.way with offsets := us }) := h.setWay rfl id
  exact hkept.wayFiltered _ _

theorem State.Steered.wayUpdate (o : Int) : s.Steered (t.wayUpdate o) := by
  unfold State.wayUpdate
  repeat' split
  · exact h
  · exact ((h.setFar o).setNow _).setFar _
  · exact h.wayTrack o

theorem State.Steered.ppsUpdate (o : Int) : s.Steered (t.ppsUpdate o) := by
  unfold State.ppsUpdate
  repeat' split
  · exact h
  · exact h.wayUpdate o
  · exact h.wayUpdate _
  · exact h.wayTrack o

end

@[simp] theorem State.reSource_now (s : State) : s.reSource.now = s.now :=
  State.reSource_same State.now (fun _ _ _ _ => rfl) (fun _ _ => rfl) (fun s _ _ _ _ => (s.record_sameTeams ..).1.2.1) s

/-- WAY_STATUS.FAR shows what of the offset is left, and a WAY_FAR record is appended at most. -/
theorem State.setFar_same {β : Type} (P : State → β) (hfar : ∀ (s : State) (v : Nat), P (s.fset Reg.wayStatusFar v) = P s)
    (hway : ∀ (s : State) (w : Option Nat), P (s.setWay { s.clocks.way with farAt := w }) = P s)
    (hrecord : ∀ (s : State) (cls code source : Nat) (ctx : List Nat), P (s.record 0 cls code source ctx) = P s) (s : State)
    (o : Int) : P (s.setFar o) = P s := by
  unfold State.setFar
  extract_lets far u due
  split
  · exact (hrecord _ _ _ _ _).trans ((hway _ _).trans (hfar s _))
  · exact hfar s _

@[simp] theorem State.setFar_now (s : State) (o : Int) : (s.setFar o).now = s.now :=
  State.setFar_same State.now (fun _ _ => rfl) (fun _ _ => rfl) (fun s _ _ _ _ => (s.record_sameTeams ..).1.2.1) s o

@[simp] theorem State.setFar_setUsed (s : State) (o : Int) : (s.setFar o).clocks.way.setUsed = s.clocks.way.setUsed :=
  State.setFar_same (fun t => t.clocks.way.setUsed) (fun _ _ => rfl) (fun _ _ => rfl)
    (fun s _ _ _ _ => by rw [(s.record_units ..).2.2.2.2.2]) s o

end Sys2Proof.Machine
end

section
/-!
PROOFS. Commands and events of the clock regions and of waymark time (R331, R366 to R377): O16.
-/
set_option Elab.async false
namespace Sys2Proof.Machine

/-! ### Regions -/

/-- A counter advanced by one stands at its largest value, once there. -/
theorem State.fget_bump_same (s : State) {f : Fld} (hf : 0 < f.card) : (s.bump f).fget f = min (f.card - 1) (s.fget f + 1) := by
  rw [State.bump, State.fget_bumpBy_same]
  exact Nat.mod_eq_of_lt (by omega)

theorem Fld.card_shift (f : Fld) (d : Nat) : (f.shift d).card = f.card := rfl

theorem Fld.card_sel (f : Fld) (i : Nat) : (f.sel i).card = f.card := Fld.card_shift f _

theorem execDroopTrip_eq {s : State} {r mv : Nat} (hruns : (s.region r).stopped = false)
    (hplain : (s.region r).stretched = false) (hdroops : s.droops r mv = true) :
    exec (.droopTrip r mv) s = .next ((s.setRegion r { s.region r with stretched := true }).bump (Reg.clkStretches.sel r)) :=
  congrArg Host.Outcome.next (if_neg (by simp [hruns, hplain, hdroops]))

theorem execDroopTrip_stretches {s : State} {r mv : Nat} (hruns : (s.region r).stopped = false)
    (hplain : (s.region r).stretched = false) (hdroops : s.droops r mv = true) : Completes (exec (.droopTrip r mv) s)
      (fun t => (t.region r).stretched = true ∧ (t.region r).stopped = false ∧
        t.fget (Reg.clkStretches.sel r) = min (Reg.clkStretches.card - 1) (s.fget (Reg.clkStretches.sel r) + 1)) := by
  have hcount (u : State) := u.fget_bump_same (f := Reg.clkStretches.sel r) (by rw [Fld.card_sel]; decide)
  have hregion (u : State) (x : Region) (f : Fld) : ((u.setRegion r x).bump f).region r = x := State.region_setRegion ..
  rw [execDroopTrip_eq hruns hplain hdroops, completes_next, hregion]
  exact ⟨rfl, hruns, by rw [hcount, Fld.card_sel, State.setRegion_fget]⟩

theorem execStretchEnd_ends (r : Nat) (s : State) : Completes (exec (.stretchEnd r) s) (fun t =>
    (t.region r).stretched = false ∧ (t.region r).stopped = (s.region r).stopped ∧ t.mem = s.mem) := by
  show Completes (execStretchEnd r s) _
  rw [execStretchEnd, completes_next, State.region_setRegion]
  exact ⟨rfl, rfl, rfl⟩

theorem State.stopRegion_stopped (s : State) (q r : Nat) :
    ((s.stopRegion q).region r).stopped = ((s.region r).stopped || decide (q = r)) := by
  unfold State.stopRegion
  by_cases hqr : q = r
  · subst hqr
    split
    · simpa
    · simp
  · split
    · simp [hqr]
    · rw [State.region_setRegion_ne _ _ hqr]
      simp [hqr]

theorem State.each_stopRegion_stopped (r : Nat) (xs : List Nat) (s : State) :
    ((s.each xs State.stopRegion).region r).stopped = ((s.region r).stopped || decide (r ∈ xs)) := by
  unfold State.each
  induction xs generalizing s with
  | nil => simp
  | cons x xs ih => simp [ih, State.stopRegion_stopped, Bool.or_assoc, eq_comm]

theorem State.stopAll_stopped (s : State) {r : Nat} (hr : r < 33) : (s.stopAll.region r).stopped = true := by
  rw [State.stopAll, State.each_stopRegion_stopped]
  simp [hr]

/-- What a monitor's failure shows of itself in CLK_STATUS, every region stopped. -/
def State.monitorShown (s : State) (pll : Bool) : State :=
  let u := (s.stopAll.raise Reg.clkStatusMonFault).raise Reg.clkStatusBackupOsc
  if pll then u.clear Reg.clkStatusPllLock else u

/-- The state in which a monitor's failure is a dangerous failure. -/
def State.monitorFailed (s : State) (pll : Bool) : State :=
  let u := s.monitorShown pll
  ({ u with clocks := { u.clocks with monFault := true, monSeen := u.clocks.monSeen ++ [pll] } }).fset Reg.wayStatusState 3

theorem execClockMonitorFail_eq {s : State} {pll : Bool} (hfirst : s.clocks.monSeen.contains pll = false) :
    exec (.clockMonitorFail pll) s = .next ((s.monitorFailed pll).danger 2 3 0x30 unitPackage
      (clockContext (s.monitorFailed pll) 0xFFFFFFFF) scopeAll ((s.monitorFailed pll).now - usTicks 10)) :=
  if_neg (by rw [hfirst]; decide)

theorem State.monitorShown_clocks (s : State) (pll : Bool) : (s.monitorShown pll).clocks = s.stopAll.clocks := by
  unfold State.monitorShown
  split
  · simp only [State.clear_clocks, State.raise_clocks]
  · simp only [State.raise_clocks]

theorem State.monitorShown_fget (s : State) (pll : Bool) {f : Fld} (hf : Reg.clkStatusPllLock.key ≠ f.key) :
    (s.monitorShown pll).fget f = ((s.stopAll.raise Reg.clkStatusMonFault).raise Reg.clkStatusBackupOsc).fget f := by
  unfold State.monitorShown
  split
  · exact State.fget_fset_ne _ 0 hf
  · rfl

theorem State.monitorShown_monFault (s : State) (pll : Bool) : (s.monitorShown pll).fget Reg.clkStatusMonFault = 1 := by
  rw [State.monitorShown_fget _ _ (by decide), State.fget_raise_ne _ (by decide), State.fget_raise_same]
  rfl

theorem State.monitorShown_backupOsc (s : State) (pll : Bool) : (s.monitorShown pll).fget Reg.clkStatusBackupOsc = 1 := by
  rw [State.monitorShown_fget _ _ (by decide), State.fget_raise_same]
  rfl

theorem State.monitorShown_pllLock (s : State) : (s.monitorShown true).fget Reg.clkStatusPllLock = 0 := State.fget_clear_same ..

theorem State.monitorFailed_fget (s : State) (pll : Bool) {f : Fld} (hf : Reg.wayStatusState.key ≠ f.key) :
    (s.monitorFailed pll).fget f = (s.monitorShown pll).fget f := State.fget_fset_ne _ 3 hf

theorem State.monitorFailed_region (s : State) (pll : Bool) (r : Nat) :
    (s.monitorFailed pll).region r = s.stopAll.region r := by
  unfold State.region
  rw [← s.monitorShown_clocks pll]
  rfl

/-- The dangerous failure that it is leaves the clocks alone. -/
theorem execClockMonitorFail_stops {s : State} {pll : Bool} {r : Nat} (hfirst : s.clocks.monSeen.contains pll = false)
    (hr : r < 33) : Completes (exec (.clockMonitorFail pll) s) (fun t => (pll = true → t.fget Reg.clkStatusPllLock = 0) ∧
      t.clocks.monFault = true ∧ (t.region r).stopped = true ∧ t.fget Reg.clkStatusMonFault = 1 ∧
      t.fget Reg.clkStatusBackupOsc = 1 ∧ t.fget Reg.wayStatusState = 3) := by
  rw [execClockMonitorFail_eq hfirst, completes_next]
  obtain ⟨hclocks, hfields⟩ := (State.ClocksStand.refl (s.monitorFailed pll)).danger 2 3 0x30 unitPackage
    (clockContext (s.monitorFailed pll) 0xFFFFFFFF) scopeAll ((s.monitorFailed pll).now - usTicks 10)
  have hfield (f : Fld) (hf : MiddleField f) (hne : Reg.wayStatusState.key ≠ f.key) :=
    (hfields f hf).trans (s.monitorFailed_fget pll hne)
  refine ⟨?_, congrArg Clocks.monFault hclocks, ?_, ?_, ?_, ?_⟩
  · rintro rfl
    rw [hfield _ (by decide) (by decide), s.monitorShown_pllLock]
  · rw [State.region, hclocks]
    exact (congrArg Region.stopped (s.monitorFailed_region pll r)).trans (s.stopAll_stopped hr)
  · rw [hfield _ (by decide) (by decide), s.monitorShown_monFault]
  · rw [hfield _ (by decide) (by decide), s.monitorShown_backupOsc]
  · rw [hfields _ (by decide), State.monitorFailed, State.fget_fset_same]
    rfl

theorem State.startRegion_runs (s : State) (r cause : Nat) : ((s.startRegion r cause).region r).stopped = false := by
  unfold State.startRegion
  cases hstopped : (s.region r).stopped with
  | false => exact hstopped
  | true =>
    rw [if_neg (by decide), State.region, (State.enqueueTrace_units _ _).2.2.2.2.2.1]
    exact congrArg Region.stopped (State.region_setRegion ..)

theorem execRegionRestart_runs {s : State} {r : Nat} (hfree : s.heldStopped r = false) :
    Completes (exec (.regionRestart r) s) (fun t => (t.region r).stopped = false) := by
  show Completes (execRegionRestart r s) _
  rw [execRegionRestart, if_neg (by simp [hfree]), completes_next]
  exact s.startRegion_runs r 1

/-! ### Waymark time -/

theorem execWaySet_sets {s : State} (hstage : s.stage < stReady) (hunset : s.clocks.way.setUsed = false) :
    Completes (exec .waySet s) (fun t => t.now = s.waySetValue % 2 ^ 64 ∧ t.clocks.way.setUsed = true ∧ t.mem = s.mem) := by
  show Completes (execWaySet s) _
  unfold execWaySet
  rw [if_neg (Nat.not_le.2 hstage), if_neg (by simp [hunset]), completes_next]
  exact ⟨State.setFar_now .., State.setFar_setUsed .., (State.setFar_keeps ..).2⟩

/-- A register pair reads back the 64 bits written to it. -/
theorem State.fget64_wayPps (s : State) (v : Nat) :
    (s.fset64 Reg.wayPpsLo Reg.wayPpsHi v).fget64 Reg.wayPpsLo Reg.wayPpsHi = v % 2 ^ 64 := by
  rw [State.fget64, State.fset64, State.fget_fset_fset _ _ _ (by decide), State.fget_fset_same]
  have hlo : Reg.wayPpsLo.card = 2 ^ 32 := by decide
  have hhi : Reg.wayPpsHi.card = 2 ^ 32 := by decide
  rw [hlo, hhi]
  omega

theorem execPpsEdge_times {s : State} {falling : Bool} (hedge : falling = (s.clockCfg 8 1 0 == 1)) :
    Completes (exec (.ppsEdge falling) s) (fun t => t.fget64 Reg.wayPpsLo Reg.wayPpsHi = s.now % 2 ^ 64 ∧
      t.clocks.way.ppsOffset = ppsOffsetOf s.now + s.clocks.way.added) := by
  show Completes (execPpsEdge falling s) _
  unfold execPpsEdge
  rw [if_neg (not_not.2 hedge)]
  extract_lets w d n o u
  rw [completes_next]
  obtain ⟨hsources, -, hregs⟩ := ((State.Steered.refl u).reSource).ppsUpdate o
  refine ⟨?_, congrArg Prod.fst hsources⟩
  rw [State.fget64, hregs _ (by simp), hregs _ (by simp)]
  exact s.fget64_wayPps s.now

/-- PTP is valid with the offset that a complete exchange gives, and asks nothing any more (R374). -/
def Way.ptpGiven (w : Way) (o : Int) : Way :=
  { w with ptpValid := true, ptpOffset := o + w.added, ptp := { w.ptp with asked := none } }

theorem State.ptpDone_steered (s : State) (d t3 t4 : Int) :
    State.Steered (s.setWay (s.clocks.way.ptpGiven ((t4 - t3 - d) / 2))) (s.ptpDone d t3 t4) := by
  have hchosen := (State.Steered.refl (s.setWay (s.clocks.way.ptpGiven ((t4 - t3 - d) / 2)))).reSource
  show State.Steered _ (if State.fget _ Reg.wayStatusSource = 2 then _ else _)
  split
  · exact hchosen.wayUpdate _
  · exact hchosen

section
variable {domain frac out seq t4 : Nat} {corr d t3 : Int} {s : State} (hdomain : domain = s.clockCfg 5 1 0)
  (hport : s.safety.portUp = true) (hruns : s.coreHalted 6 = false)
include hdomain hport hruns

theorem execPtpSync_asks (t1 : Nat) : Completes (exec (.ptpSync domain (.sync seq false t1 corr) frac out) s) (fun t =>
    t.clocks.way.ptp.asked = some (s.clocks.way.ptp.next, s.macTime frac - ptpEighths t1 corr, s.macTime out) ∧ t.out =
    s.out ++ [.delayReq s.macAddr s.vlanTag domain s.clocks.way.ptp.next]) := by
  subst hdomain
  show Completes (execPtpSync (s.clockCfg 5 1 0) (.sync seq false t1 corr) frac out s) _
  rw [execPtpSync, if_neg (by simp [hport, hruns])]
  exact ⟨_, rfl, rfl, rfl⟩

theorem execPtpSync_answered (hasked : s.clocks.way.ptp.asked = some (seq, d, t3)) :
    Completes (exec (.ptpSync domain (.delayResp seq t4 corr) frac out) s) (fun t => t.clocks.way.ptpValid = true ∧
      t.clocks.way.ptpOffset = (ptpEighths t4 (-corr) - t3 - d) / 2 + s.clocks.way.added ∧ t.clocks.way.ptp.asked = none) := by
  subst hdomain
  show Completes (execPtpSync (s.clockCfg 5 1 0) (.delayResp seq t4 corr) frac out s) _
  rw [execPtpSync, if_neg (by simp [hport, hruns])]
  dsimp only
  rw [hasked]
  dsimp only
  rw [if_pos rfl, completes_next]
  obtain ⟨hsources, hanswered, -⟩ := s.ptpDone_steered d t3 (ptpEighths t4 (-corr))
  exact ⟨congrArg (fun x => x.2.2.2.1) hsources, congrArg (fun x => x.2.2.2.2) hsources, hanswered rfl⟩

end

theorem execTimeSourceInvalid_lapses (src : Nat) (s : State) : Completes (exec (.timeSourceInvalid src) s) (fun t =>
    (src = 1 → t.clocks.way.ppsValid = false ∧ t.clocks.way.ppsEdges = 0) ∧ (src = 2 → t.clocks.way.ptpValid = false) ∧
      t.now = s.now ∧ t.mem = s.mem) := by
  show Completes (execTimeSourceInvalid src s) _
  unfold execTimeSourceInvalid
  extract_lets w x u
  rw [completes_next]
  have hu : u.now = s.now ∧ u.mem = s.mem := by
    unfold u
    split
    · exact ⟨rfl, rfl⟩
    · exact ⟨rfl, rfl⟩
  obtain ⟨hsources, -, -⟩ := (State.Steered.refl (u.setWay x)).reSource
  refine ⟨fun hsrc => ?_, fun hsrc => ?_, (State.reSource_now _).trans hu.1, ((State.reSource_keeps _).2).trans hu.2⟩
  · have hx : x = { w with ppsEdges := 0, ppsValid := false } := if_pos hsrc
    rw [hx] at hsources ⊢
    exact ⟨congrArg (fun y => y.2.1) hsources, congrArg (fun y => y.2.2.1) hsources⟩
  · have hx : x = { w with ptpValid := false } := (if_neg (by simp [hsrc])).trans (if_pos hsrc)
    rw [hx] at hsources ⊢
    exact congrArg (fun y => y.2.2.2.1) hsources

theorem execTimeRootDisciplineUpdate_steers {s : State} (hroot : s.reSource.isRoot = true)
    (hsource : s.reSource.fget Reg.wayStatusSource = 3) (hfault : s.reSource.clocks.monFault = false) :
    exec .timeRootDisciplineUpdate s = .next (s.reSource.wayFiltered 0 0) :=
  congrArg Host.Outcome.next (if_pos ⟨hroot, hsource, by rw [hfault]; rfl⟩)

/-! ### Messages between ports -/

section
variable {s : State} {p : Nat} {h : CtrlHdr} (hacts : s.actsOn p h)
include hacts

theorem execWayReply_steers {t1 t2 t3 f1 f2 f3 frac : Nat} (state : Nat) {v d : Int}
    (hv : v = wayOfs (8 * t1 + f1) (8 * t2 + f2) (8 * t3 + f3) (8 * (s.heard p h).now + frac))
    (hd : d = wayDelay (8 * t1 + f1) (8 * t2 + f2) (8 * t3 + f3) (8 * (s.heard p h).now + frac)) :
    exec (.wayReply p true h t1 t2 t3 f1 f2 f3 state frac) s = .next (((((s.heard p h).fset (Reg.linkWayOfs.port p)
      (ofSigned 32 v)).fset (Reg.linkWayDelay.port p) (ofSigned 32 d)).heardWay p state).fromUpstream p v) := by
  subst hv hd
  exact congrArg Host.Outcome.next (State.ctrlIn_of_actsOn hacts ..)

theorem execWaySync_replies (t1 f1 frac : Nat) : exec (.waySync p true h t1 f1 frac) s = .next ((s.heard p h).sendPeer p 0x09
    (leBytes 8 t1 ++ leBytes 8 (s.heard p h).now ++ leBytes 8 (s.heard p h).now ++
      [f1, frac % 8, frac % 8, (s.heard p h).fget Reg.wayStatusState] ++ zeros 4)) :=
  congrArg Host.Outcome.next (State.ctrlIn_of_actsOn hacts ..)

end

theorem execWaySyncSend_sends {s : State} {p : Nat} (frac : Nat) (hlink : s.linkUp p = true) :
    exec (.waySyncSend p frac) s = .next (s.sendPeer p 0x08 (leBytes 8 s.now ++ [frac % 8] ++ zeros 7)) :=
  congrArg Host.Outcome.next (if_pos hlink)

/-- Settles O16: each command, event and message by its lemma above. PTP's offset, and the Delay_Req that leaves at once, are the
model's choice (log 133). -/
theorem clockAndTimeCommandsComplete : Obligations.ClockAndTimeCommandsComplete := by
  unfold Obligations.ClockAndTimeCommandsComplete
  exact ⟨fun r mv s => execDroopTrip_stretches, execStretchEnd_ends, fun pll r s => execClockMonitorFail_stops,
    fun r s => execRegionRestart_runs, fun s => execWaySet_sets, fun falling s => execPpsEdge_times,
    fun domain seq t1 frac out corr s hdomain hport hruns => execPtpSync_asks hdomain hport hruns t1,
    fun domain seq t4 frac out corr d t3 s => execPtpSync_answered, execTimeSourceInvalid_lapses,
    fun s => execTimeRootDisciplineUpdate_steers,
    fun p t1 t2 t3 f1 f2 f3 state frac h v d s hacts => execWayReply_steers hacts state,
    fun p t1 f1 frac h s hacts => execWaySync_replies hacts t1 f1 frac, fun p frac s => execWaySyncSend_sends frac⟩

end Sys2Proof.Machine
end
